-- ==== Sys2Proof/Word.lean ====
section
/-! DEFINITION. The word types of the machine and their plainest arithmetic. -/
namespace Sys2Proof

/-- One byte of memory; multi-byte values are little-endian (00_scope.md, "Numbers and bits"). -/
abbrev Byte := BitVec 8
/-- A half word (16-bit MODE, IMM16, 16-bit elements). -/
abbrev Half := BitVec 16
/-- A lane word of a vector register, an instruction word, a literal word (R15, R78). -/
abbrev Word := BitVec 32
/-- A scalar register, a virtual address, a 64-bit element (R15, R160). -/
abbrev Dword := BitVec 64
/-- A set of lanes, bit l for lane l (R7, R31). -/
abbrev LaneMask := BitVec 32

/-- `n` bytes of the number `v`, least significant first. -/
def leBytes : Nat → Nat → List Byte
  | 0, _ => []
  | n + 1, v => BitVec.ofNat 8 v :: leBytes n (v / 256)

/-- The number whose little-endian bytes are `bs`. -/
def leNat : List Byte → Nat
  | [] => 0
  | b :: bs => b.toNat + 256 * leNat bs

/-- The lanes of a mask, ascending. -/
def LaneMask.lanes (m : LaneMask) : List Nat := (List.range 32).filter (fun l => m.getLsbD l)

/-- The mask whose lanes are those of the list. -/
def LaneMask.ofLanes (ls : List Nat) : LaneMask :=
  ls.foldl (fun m l => m ||| (1#32 <<< l)) 0#32

end Sys2Proof
end

