-- ==== Sys2Proof/Config.lean ====
section
/-! DEFINITION. What an implementation fixes and the spec leaves open: free values, constants without a body, so that
nothing can be proved of them but what holds for every value. The first argument of a counter-indexed value is
`State.clk`, which every step advances. -/
namespace Sys2Proof.Config

/-- The upper half of a latch that holds 32-bit lane words, read under a 64-bit type (R23 and R24 name no value). (DESIGN CHOICE, log 7.) -/
opaque latchUpper : Nat → Nat → Word

/-- The undefined value that a load of poisoned or lost data leaves in its destination (R167, R408), by clk and lane. (DESIGN CHOICE, log 8.) -/
opaque undefinedData : Nat → Nat → Dword

/-- The place, in the order of its lines, of the line that a full instruction cache gives up for a new one, by clk (R294
names its capacity and no replacement). (DESIGN CHOICE, log 9.) -/
opaque icacheVictim : Nat → Nat

/-- A boot step other than 2 and 3, by clk of power-on and step, does not succeed (R422). (DESIGN CHOICE, log 10.) -/
opaque stepFails : Nat → Nat → Bool
/-- The security version of a firmware image, and whether its signature verifies under the fused key, by clk of power-on and image, 0 of
the N-die, 1 of the SMCs and 2 of the DMCs (R422, R423: the package flash is not state). (DESIGN CHOICE, log 10.) -/
opaque imageSvn : Nat → Nat → Nat
/-- See `imageSvn`. -/
opaque imageSigned : Nat → Nat → BitVec 256 → Bool

/-- The SHA3-256 digests of the running images, N-die, SMC and DMC by 0, 1 and 2, and the ML-DSA-44 signature of an
attestation report by the device identity key and its first 132 bytes (R427, R428). (DESIGN CHOICE, log 11.) -/
opaque imageDigest : Nat → BitVec 256
/-- See `imageDigest`: 2,420 bytes. (DESIGN CHOICE, log 11.) -/
opaque reportSignature : BitVec 256 → List Byte → BitVec 19360

/-- The syndrome of a correction that a DRAM controller makes (R419: CORRECTED), by clk and line. (DESIGN CHOICE, log 12.) -/
opaque syndrome : Nat → Nat → Nat

/-- Whether a packet whose path crosses a failing element is inside it, by clk and the packet's place among those in flight (R395). (DESIGN CHOICE, log 140.) -/
opaque droppedInside : Nat → Nat → Bool

/-- The priority at which the port sends a kind of frame: 0 UDP datagrams, 1 RoCEv2 responses, 2 completion notices, 3 neighbour answers
(R398). (DESIGN CHOICE, log 148.) -/
opaque framePriority : Nat → Fin 8

end Sys2Proof.Config
end

