-- ==== Sys2Proof/Syntax.lean ====
section
/-! DEFINITION. The abstract syntax: the operand forms of R80 to R86 and one constructor per row of the opcode
table (194 encoded instructions, then the 100 device events, which have no instruction word). -/
namespace Sys2Proof

/-- A scalar source operand (kind S of R80, codes of R81). -/
inductive SSrc where
  | reg (r : Fin 64)
  | latch (k : Fin 8)
  | zero | wave | core
  /-- inline integer: the code less 0x90; 0 to 63 stand for themselves, 64 to 79 for -16 to -1 -/
  | inl (n : Fin 80)
  /-- floating constant: the code less 0xE0 (R83) -/
  | fconst (n : Fin 16)
  /-- the literal word of a Quadiner instruction (R84) -/
  | lit (w : Word)
  /-- the IMM16 of a Bintodal instruction (R94) -/
  | imm (w : Half)
deriving DecidableEq, Repr

/-- A vector source operand (kind V of R80, codes of R81). -/
inductive VSrc where
  | reg (r : Fin 128)
  | latch (k : Fin 8)
  | zero | lane | wave | plane | core
  | inl (n : Fin 80)
  | fconst (n : Fin 16)
  | lit (w : Word)
  | imm (w : Half)
deriving DecidableEq, Repr

/-- A vector destination (kind Vd): a register, or NW, the latches only (R23, R80). -/
inductive VDst where
  | reg (r : Fin 128)
  | nw
deriving DecidableEq, Repr

/-- A scalar destination (kind Sd): a register, or NW. -/
inductive SDst where
  | reg (r : Fin 64)
  | nw
deriving DecidableEq, Repr

/-- A predicate selector (kind P): p0 to p7, or the complement of one. -/
structure PSel where
  neg : Bool
  p : Fin 8
deriving DecidableEq, Repr

/-- Element types in the order of their codes (R53). -/
inductive EType where
  | int32 | uint32 | int64 | uint64 | int16 | uint16 | int8 | uint8
  | f32 | bf16 | f16 | e4m3 | e5m2 | sx8 | sx5 | sx3
deriving DecidableEq, Repr

/-- The members of the SX family (R69). -/
inductive SxFmt where
  | sx8 | sx5 | sx3
deriving DecidableEq, Repr

/-- The fields of MODE that SETMF names (R117). -/
inductive ModeField where
  | guard | etype | scope | ord | round | sat
deriving DecidableEq, Repr

/-- The scopes 1 to 6 of R20. -/
inductive Scope where
  | core | cluster | die | stack | interposer | package
deriving DecidableEq, Repr

/-- The orders 1 to 3 of R20. -/
inductive FenceOrd where
  | acquire | release | acqRel
deriving DecidableEq, Repr

/-- The B operand of FENCE (R86). -/
structure FenceOp where
  scope : Scope
  ord : FenceOrd
deriving DecidableEq, Repr

/-- The address space named by the D field of WAITA (R179). -/
inductive Space where
  | global | core | cluster | stack
deriving DecidableEq, Repr

/-- The control registers of R131, in the order of their numbers. -/
inductive CReg where
  | time | elapsed | context | waypart | sillage | trapvec | spawntmr | ctxmode | cring | trapframe
deriving DecidableEq, Repr

/-- An element of the fabric that can fail or be retired (R394, R395): the elevator beneath a cluster, or a link port. -/
inductive Element where
  | elevator (stack slice : Nat)
  | port (stack port : Nat)
deriving DecidableEq, Repr

/-- A fabric request that carries a sequence number (R396, R397). -/
inductive FabRequest where
  | read (addr size : Nat)
  | write (addr : Nat) (bytes : List Byte)
  | add (addr size operand : Nat)
deriving DecidableEq, Repr

/-- What a translation job emits (R359): native code, the offset of its entry, the address map as pairs of image offset
and offset in the code, and the accords of the code as offset, P and S. -/
structure Translated where
  bytes : List Byte
  entry : Nat
  map : List (Nat × Nat)
  accords : List (Nat × Nat × Nat)
deriving DecidableEq, Repr

/-- The readings a power sample is taken from (R429). -/
structure PowerReadings where
  milliwatts : List (Nat × Nat)
deriving DecidableEq, Repr

/-- Where the reply datagrams of a management command go, the SEQ of its frame and its index there (R427). -/
structure ReplyTo where
  source : Nat
  seq : Nat
  record : Nat
deriving DecidableEq, Repr

/-- The two reads a decant counter's home makes (R253, R254). -/
inductive DecantRead where
  | read | exact | drop
deriving DecidableEq, Repr

/-- The instruction set: one constructor per row of the opcode table. -/
inductive Instr where
  /-- 0x00 TRAPZ -/
  | trapz (d : BitVec 8) (a : BitVec 8) (b : BitVec 8)
  /-- 0x01 NOP -/
  | nop
  /-- 0x02 ADDS -/
  | adds (d : SDst) (a : SSrc) (b : SSrc)
  /-- 0x03 SUBS -/
  | subs (d : SDst) (a : SSrc) (b : SSrc)
  /-- 0x04 MULS -/
  | muls (d : SDst) (a : SSrc) (b : SSrc)
  /-- 0x05 MULHS -/
  | mulhs (d : SDst) (a : SSrc) (b : SSrc)
  /-- 0x06 DIVS -/
  | divs (d : SDst) (a : SSrc) (b : SSrc)
  /-- 0x07 REMS -/
  | rems (d : SDst) (a : SSrc) (b : SSrc)
  /-- 0x08 ANDS -/
  | ands (d : SDst) (a : SSrc) (b : SSrc)
  /-- 0x09 ORS -/
  | ors (d : SDst) (a : SSrc) (b : SSrc)
  /-- 0x0A XORS -/
  | xors (d : SDst) (a : SSrc) (b : SSrc)
  /-- 0x0B ANDNS -/
  | andns (d : SDst) (a : SSrc) (b : SSrc)
  /-- 0x0C SHLS -/
  | shls (d : SDst) (a : SSrc) (b : SSrc)
  /-- 0x0D SHRS -/
  | shrs (d : SDst) (a : SSrc) (b : SSrc)
  /-- 0x0E SRAS -/
  | sras (d : SDst) (a : SSrc) (b : SSrc)
  /-- 0x0F ROLS -/
  | rols (d : SDst) (a : SSrc) (b : SSrc)
  /-- 0x10 MINS -/
  | mins (d : SDst) (a : SSrc) (b : SSrc)
  /-- 0x11 MAXS -/
  | maxs (d : SDst) (a : SSrc) (b : SSrc)
  /-- 0x12 MOVS -/
  | movs (d : SDst) (a : SSrc)
  /-- 0x13 NOTS -/
  | nots (d : SDst) (a : SSrc)
  /-- 0x14 NEGS -/
  | negs (d : SDst) (a : SSrc)
  /-- 0x15 CLZS -/
  | clzs (d : SDst) (a : SSrc)
  /-- 0x16 POPCS -/
  | popcs (d : SDst) (a : SSrc)
  /-- 0x17 SEQS -/
  | seqs (d : SDst) (a : SSrc) (b : SSrc)
  /-- 0x18 SNES -/
  | snes (d : SDst) (a : SSrc) (b : SSrc)
  /-- 0x19 SLTS -/
  | slts (d : SDst) (a : SSrc) (b : SSrc)
  /-- 0x1A SLES -/
  | sles (d : SDst) (a : SSrc) (b : SSrc)
  /-- 0x1B LEAS -/
  | leas (d : SDst) (a : SSrc) (b : SSrc)
  /-- 0x1C BFXS -/
  | bfxs (d : SDst) (a : SSrc) (b : SSrc)
  /-- 0x20 BR -/
  | br (a : PSel) (b : SSrc)
  /-- 0x21 BRZ -/
  | brz (a : SSrc) (b : SSrc)
  /-- 0x22 BRNZ -/
  | brnz (a : SSrc) (b : SSrc)
  /-- 0x23 CALL -/
  | call (d : SDst) (b : SSrc)
  /-- 0x24 RET -/
  | ret (a : SSrc)
  /-- 0x25 REJOIN -/
  | rejoin (b : SSrc)
  /-- 0x26 EXIT -/
  | exit
  /-- 0x27 YIELD -/
  | yield
  /-- 0x28 PLSET -/
  | plset (a : VSrc)
  /-- 0x29 PLGET -/
  | plget (d : VDst)
  /-- 0x2A TRAP -/
  | trap (b : Fin 64)
  /-- 0x2B BRK -/
  | brk
  /-- 0x2C CRRD -/
  | crrd (d : SDst) (b : CReg)
  /-- 0x2D SETM -/
  | setm (b : SSrc)
  /-- 0x2E SETMF -/
  | setmf (a : ModeField) (b : SSrc)
  /-- 0x2F GETM -/
  | getm (d : SDst)
  /-- 0x30 PAND -/
  | pand (d : Fin 8) (a : PSel) (b : PSel)
  /-- 0x31 POR -/
  | por (d : Fin 8) (a : PSel) (b : PSel)
  /-- 0x32 PXOR -/
  | pxor (d : Fin 8) (a : PSel) (b : PSel)
  /-- 0x33 PANDN -/
  | pandn (d : Fin 8) (a : PSel) (b : PSel)
  /-- 0x34 PFROMS -/
  | pfroms (d : Fin 8) (a : SSrc)
  /-- 0x35 PTOS -/
  | ptos (d : SDst) (a : PSel)
  /-- 0x36 MASKRD -/
  | maskrd (d : SDst)
  /-- 0x40 ADDV -/
  | addv (d : VDst) (a : VSrc) (b : VSrc)
  /-- 0x41 SUBV -/
  | subv (d : VDst) (a : VSrc) (b : VSrc)
  /-- 0x42 MULV -/
  | mulv (d : VDst) (a : VSrc) (b : VSrc)
  /-- 0x43 MULHV -/
  | mulhv (d : VDst) (a : VSrc) (b : VSrc)
  /-- 0x44 DIVV -/
  | divv (d : VDst) (a : VSrc) (b : VSrc)
  /-- 0x45 REMV -/
  | remv (d : VDst) (a : VSrc) (b : VSrc)
  /-- 0x46 MINV -/
  | minv (d : VDst) (a : VSrc) (b : VSrc)
  /-- 0x47 MAXV -/
  | maxv (d : VDst) (a : VSrc) (b : VSrc)
  /-- 0x48 ABSV -/
  | absv (d : VDst) (a : VSrc)
  /-- 0x49 NEGV -/
  | negv (d : VDst) (a : VSrc)
  /-- 0x4A MADV -/
  | madv (d : Fin 128) (a : VSrc) (b : VSrc)
  /-- 0x4B MSUBV -/
  | msubv (d : Fin 128) (a : VSrc) (b : VSrc)
  /-- 0x4C ANDV -/
  | andv (d : VDst) (a : VSrc) (b : VSrc)
  /-- 0x4D ORV -/
  | orv (d : VDst) (a : VSrc) (b : VSrc)
  /-- 0x4E XORV -/
  | xorv (d : VDst) (a : VSrc) (b : VSrc)
  /-- 0x4F ANDNV -/
  | andnv (d : VDst) (a : VSrc) (b : VSrc)
  /-- 0x50 NOTV -/
  | notv (d : VDst) (a : VSrc)
  /-- 0x51 SHLV -/
  | shlv (d : VDst) (a : VSrc) (b : VSrc)
  /-- 0x52 SHRV -/
  | shrv (d : VDst) (a : VSrc) (b : VSrc)
  /-- 0x53 SRAV -/
  | srav (d : VDst) (a : VSrc) (b : VSrc)
  /-- 0x54 ROLV -/
  | rolv (d : VDst) (a : VSrc) (b : VSrc)
  /-- 0x55 CLZV -/
  | clzv (d : VDst) (a : VSrc)
  /-- 0x56 POPCV -/
  | popcv (d : VDst) (a : VSrc)
  /-- 0x57 MOVV -/
  | movv (d : VDst) (a : VSrc)
  /-- 0x58 BFXV -/
  | bfxv (d : VDst) (a : VSrc) (b : VSrc)
  /-- 0x59 DOT4V -/
  | dot4v (d : Fin 128) (a : VSrc) (b : VSrc)
  /-- 0x5A DOT2V -/
  | dot2v (d : Fin 128) (a : VSrc) (b : VSrc)
  /-- 0x5B AVGV -/
  | avgv (d : VDst) (a : VSrc) (b : VSrc)
  /-- 0x60 SQRTV -/
  | sqrtv (d : VDst) (a : VSrc)
  /-- 0x61 RCPV -/
  | rcpv (d : VDst) (a : VSrc)
  /-- 0x62 RSQV -/
  | rsqv (d : VDst) (a : VSrc)
  /-- 0x63 EXP2V -/
  | exp2v (d : VDst) (a : VSrc)
  /-- 0x64 LOG2V -/
  | log2v (d : VDst) (a : VSrc)
  /-- 0x65 SINV -/
  | sinv (d : VDst) (a : VSrc)
  /-- 0x66 COSV -/
  | cosv (d : VDst) (a : VSrc)
  /-- 0x67 TANHV -/
  | tanhv (d : VDst) (a : VSrc)
  /-- 0x68 FLOORV -/
  | floorv (d : VDst) (a : VSrc)
  /-- 0x69 CEILV -/
  | ceilv (d : VDst) (a : VSrc)
  /-- 0x6A TRUNCV -/
  | truncv (d : VDst) (a : VSrc)
  /-- 0x6B RINTV -/
  | rintv (d : VDst) (a : VSrc)
  /-- 0x6C FRACV -/
  | fracv (d : VDst) (a : VSrc)
  /-- 0x6D COPYSV -/
  | copysv (d : VDst) (a : VSrc) (b : VSrc)
  /-- 0x6E CLASSV -/
  | classv (d : VDst) (a : VSrc)
  /-- 0x6F SCALBV -/
  | scalbv (d : VDst) (a : VSrc) (b : VSrc)
  /-- 0x80 CVTV -/
  | cvtv (d : VDst) (a : VSrc) (b : EType)
  /-- 0x81 PACKSXV -/
  | packsxv (d : VDst) (a : VSrc) (b : SxFmt)
  /-- 0x82 UNPKSXV -/
  | unpksxv (d : VDst) (a : VSrc) (b : SxFmt)
  /-- 0x83 CMPEQV -/
  | cmpeqv (d : Fin 8) (a : VSrc) (b : VSrc)
  /-- 0x84 CMPNEV -/
  | cmpnev (d : Fin 8) (a : VSrc) (b : VSrc)
  /-- 0x85 CMPLTV -/
  | cmpltv (d : Fin 8) (a : VSrc) (b : VSrc)
  /-- 0x86 CMPLEV -/
  | cmplev (d : Fin 8) (a : VSrc) (b : VSrc)
  /-- 0x87 CMPGTV -/
  | cmpgtv (d : Fin 8) (a : VSrc) (b : VSrc)
  /-- 0x88 CMPGEV -/
  | cmpgev (d : Fin 8) (a : VSrc) (b : VSrc)
  /-- 0x89 CMPUNV -/
  | cmpunv (d : Fin 8) (a : VSrc) (b : VSrc)
  /-- 0x8A SELV -/
  | selv (d : VDst) (a : VSrc) (b : VSrc)
  /-- 0x8B SHFLV -/
  | shflv (d : VDst) (a : VSrc) (b : VSrc)
  /-- 0x8C SHUPV -/
  | shupv (d : VDst) (a : VSrc) (b : VSrc)
  /-- 0x8D SHDNV -/
  | shdnv (d : VDst) (a : VSrc) (b : VSrc)
  /-- 0x8E SHXRV -/
  | shxrv (d : VDst) (a : VSrc) (b : VSrc)
  /-- 0x8F BCASTV -/
  | bcastv (d : VDst) (a : VSrc) (b : VSrc)
  /-- 0x90 VOTEALL -/
  | voteall (d : Fin 8) (a : PSel)
  /-- 0x91 VOTEANY -/
  | voteany (d : Fin 8) (a : PSel)
  /-- 0x92 BALLOT -/
  | ballot (d : SDst) (a : PSel)
  /-- 0x93 REDADDV -/
  | redaddv (d : SDst) (a : VSrc)
  /-- 0x94 REDMINV -/
  | redminv (d : SDst) (a : VSrc)
  /-- 0x95 REDMAXV -/
  | redmaxv (d : SDst) (a : VSrc)
  /-- 0x96 REDANDV -/
  | redandv (d : SDst) (a : VSrc)
  /-- 0x97 REDORV -/
  | redorv (d : SDst) (a : VSrc)
  /-- 0x98 SCANV -/
  | scanv (d : VDst) (a : VSrc)
  /-- 0x99 MOVSV -/
  | movsv (d : VDst) (a : SSrc)
  /-- 0x9A MOVVS -/
  | movvs (d : SDst) (a : VSrc) (b : SSrc)
  /-- 0x9B FIRSTL -/
  | firstl (d : SDst)
  /-- 0xA0 LDV -/
  | ldv (d : VDst) (a : Fin 64) (b : SSrc)
  /-- 0xA1 STV -/
  | stv (d : Fin 128) (a : Fin 64) (b : SSrc)
  /-- 0xA2 LDS -/
  | lds (d : SDst) (a : SSrc) (b : SSrc)
  /-- 0xA3 STS -/
  | sts (d : Fin 64) (a : SSrc) (b : SSrc)
  /-- 0xA4 LDVB -/
  | ldvb (d : VDst) (a : SSrc) (b : SSrc)
  /-- 0xA5 STVB -/
  | stvb (d : Fin 128) (a : SSrc) (b : SSrc)
  /-- 0xA6 PREF -/
  | pref (a : SSrc) (b : SSrc)
  /-- 0xA8 AADD -/
  | aadd (d : VDst) (a : Fin 64) (b : VSrc)
  /-- 0xA9 AMIN -/
  | amin (d : VDst) (a : Fin 64) (b : VSrc)
  /-- 0xAA AMAX -/
  | amax (d : VDst) (a : Fin 64) (b : VSrc)
  /-- 0xAB AAND -/
  | aand (d : VDst) (a : Fin 64) (b : VSrc)
  /-- 0xAC AOR -/
  | aor (d : VDst) (a : Fin 64) (b : VSrc)
  /-- 0xAD AXOR -/
  | axor (d : VDst) (a : Fin 64) (b : VSrc)
  /-- 0xAE AXCHG -/
  | axchg (d : VDst) (a : Fin 64) (b : VSrc)
  /-- 0xAF AINCW -/
  | aincw (d : VDst) (a : Fin 64) (b : VSrc)
  /-- 0xB0 ADECW -/
  | adecw (d : VDst) (a : Fin 64) (b : VSrc)
  /-- 0xB1 CAS -/
  | cas (d : Fin 128) (a : Fin 64) (b : VSrc)
  /-- 0xB2 CAS128 -/
  | cas128 (d : Fin 32) (a : Fin 64) (b : Fin 32)
  /-- 0xB3 AADDS -/
  | aadds (d : SDst) (a : SSrc) (b : SSrc)
  /-- 0xB4 CASS -/
  | cass (d : Fin 64) (a : SSrc) (b : SSrc)
  /-- 0xB5 FENCE -/
  | fence (b : FenceOp)
  /-- 0xB6 WAITA -/
  | waita (d : Space) (a : SSrc) (b : SSrc)
  /-- 0xB7 DRAIN -/
  | drain (b : Scope)
  /-- 0xB8 RDADD -/
  | rdadd (a : Fin 64) (b : VSrc)
  /-- 0xB9 RDMIN -/
  | rdmin (a : Fin 64) (b : VSrc)
  /-- 0xBA RDMAX -/
  | rdmax (a : Fin 64) (b : VSrc)
  /-- 0xBB RDAND -/
  | rdand (a : Fin 64) (b : VSrc)
  /-- 0xBC RDOR -/
  | rdor (a : Fin 64) (b : VSrc)
  /-- 0xBD RDXOR -/
  | rdxor (a : Fin 64) (b : VSrc)
  /-- 0xC0 LDP -/
  | ldp (d : VDst) (a : VSrc) (b : SSrc)
  /-- 0xC1 STP -/
  | stp (d : Fin 128) (a : VSrc) (b : SSrc)
  /-- 0xC2 LDC -/
  | ldc (d : VDst) (a : VSrc) (b : SSrc)
  /-- 0xC3 STC -/
  | stc (d : Fin 128) (a : VSrc) (b : SSrc)
  /-- 0xC4 LDK -/
  | ldk (d : VDst) (a : VSrc) (b : SSrc)
  /-- 0xC5 STK -/
  | stk (d : Fin 128) (a : VSrc) (b : SSrc)
  /-- 0xC6 LDL -/
  | ldl (d : VDst) (a : VSrc) (b : SSrc)
  /-- 0xC7 STL -/
  | stl (d : Fin 128) (a : VSrc) (b : SSrc)
  /-- 0xC8 AADDC -/
  | aaddc (d : VDst) (a : VSrc) (b : VSrc)
  /-- 0xC9 CASC -/
  | casc (d : Fin 128) (a : VSrc) (b : VSrc)
  /-- 0xCA TOWN_GIVE -/
  | townGive (a : SSrc) (b : SSrc)
  /-- 0xCA TOWN_TAKE -/
  | townTake (a : SSrc) (b : SSrc)
  /-- 0xCB TWAIT -/
  | twait (d : SDst) (a : SSrc) (b : SSrc)
  /-- 0xCC BARV -/
  | barv (d : SDst) (a : SSrc)
  /-- 0xCD BARW -/
  | barw (a : SSrc) (b : SSrc)
  /-- 0xCE LDPS -/
  | ldps (d : SDst) (a : SSrc) (b : SSrc)
  /-- 0xCF STPS -/
  | stps (d : Fin 64) (a : SSrc) (b : SSrc)
  /-- 0xD0 MMA -/
  | mma (d : Fin 8) (a : SSrc) (b : Fin 16)
  /-- 0xD1 MMZ -/
  | mmz (d : Fin 8)
  /-- 0xD2 MMD -/
  | mmd (d : Fin 8) (a : SSrc) (b : Bool)
  /-- 0xD3 WLOAD -/
  | wload (d : Fin 16) (a : SSrc) (b : Fin 80)
  /-- 0xD4 MMSYNC -/
  | mmsync
  /-- 0xE0 WBIND -/
  | wbind (d : Fin 16) (a : SSrc)
  /-- 0xE1 WTOUCH -/
  | wtouch (b : Fin 16)
  /-- 0xE2 WUNBIND -/
  | wunbind (b : Fin 16)
  /-- 0xE3 GATHER -/
  | gather (a : SSrc)
  /-- 0xE4 SPAWN -/
  | spawn (a : SSrc) (b : SSrc)
  /-- 0xE5 DCINIT -/
  | dcinit (d : Fin 64) (a : SSrc) (b : SSrc)
  /-- 0xE6 DCTAKE -/
  | dctake (d : SDst) (a : SSrc) (b : SSrc)
  /-- 0xE7 DCGIVE -/
  | dcgive (d : SDst) (a : SSrc) (b : SSrc)
  /-- 0xE8 DCREAD -/
  | dcread (d : Fin 32) (a : SSrc)
  /-- 0xE9 DCREADX -/
  | dcreadx (d : SDst) (a : SSrc)
  /-- 0xEA DCDROP -/
  | dcdrop (d : SDst) (a : SSrc)
  /-- 0xEB OBJDECL -/
  | objdecl (d : SDst) (a : SSrc)
  /-- 0xEC OBJDROP -/
  | objdrop (a : SSrc)
  /-- 0xED WSTAT -/
  | wstat (d : SDst) (b : Fin 16)
  /-- 0xF0 CRWR -/
  | crwr (a : CReg) (b : SSrc)
  /-- 0xF1 CARVE -/
  | carve (d : SDst) (a : SSrc)
  /-- 0xF2 TRET -/
  | tret
  /-- 0xF3 TLBINV -/
  | tlbinv (a : SSrc) (b : Bool)
  /-- 0xF4 ICINV -/
  | icinv (a : SSrc) (b : Bool)
  /-- device event SPLIT_ROTATION -/
  | splitRotation (wave : Nat)
  /-- device event LOAD_DATA_RETURN -/
  | loadDataReturn (wave : Nat) (load : Nat)
  /-- device event WAVE_EXCHANGE -/
  | waveExchange (out : Nat) (into : Nat)
  /-- device event WAITA_PERIODIC_WAKE -/
  | waitaPeriodicWake (wave : Nat)
  /-- device event DRAIN_COMPLETE -/
  | drainComplete (wave : Nat)
  /-- device event WAVE_END -/
  | waveEnd (wave : Nat)
  /-- device event MMA_EXECUTE -/
  | mmaExecute (core : Nat)
  /-- device event MMZ_EXECUTE -/
  | mmzExecute (core : Nat)
  /-- device event MMD_EXECUTE -/
  | mmdExecute (core : Nat)
  /-- device event WLOAD_EXECUTE -/
  | wloadExecute (core : Nat)
  /-- device event COPY_COMPLETE -/
  | copyComplete (block : Nat) (window : Nat)
  /-- device event COPY_ABANDON -/
  | copyAbandon (block : Nat) (window : Nat)
  /-- device event GATHER_COMPLETE -/
  | gatherComplete (cluster : Nat)
  /-- device event GATHER_ABANDON -/
  | gatherAbandon (cluster : Nat)
  /-- device event SPAWN_BIN_TIMER -/
  | spawnBinTimer (cluster : Nat) (bin : Nat)
  /-- device event SPAWN_WAVE_START -/
  | spawnWaveStart (cluster : Nat) (bin : Nat)
  /-- device event DECANT_REQ -/
  | decantReq (record : Nat) (slice : Nat) (sum : Nat) (first : Nat)
  /-- device event DECANT_GIVE_MSG -/
  | decantGiveMsg (record : Nat) (slice : Nat) (units : Nat) (op : Nat)
  /-- device event DECANT_RETURN -/
  | decantReturn (record : Nat) (slice : Nat) (units : Nat)
  /-- device event DECANT_ANSWER -/
  | decantAnswer (record : Nat) (slice : Nat) (units : Nat)
  /-- device event DECANT_READ_AT_HOME -/
  | decantReadAtHome (record : Nat) (slice : Nat) (kind : DecantRead) (op : Nat)
  /-- device event DECANT_RECALL -/
  | decantRecall (record : Nat) (slice : Nat)
  /-- device event DECANT_GRANT -/
  | decantGrant (record : Nat) (slice : Nat) (units : Nat)
  /-- device event DECANT_SERVE -/
  | decantServe (record : Nat) (slice : Nat) (units : Nat)
  /-- device event DECANT_STATUS_REPLY -/
  | decantStatusReply (record : Nat) (slice : Nat) (op : Nat) (lo : Nat) (hi : Dword) (detail : Nat)
  /-- device event DECANT_CDIE_LOSS -/
  | decantCdieLoss (stack : Nat)
  /-- device event WR -/
  | wr (core : Nat) (write : Nat)
  /-- device event PACK -/
  | pack (core : Nat) (write : Nat) (level : Nat)
  /-- device event INV -/
  | inv (line : Nat) (cluster : Nat) (writer : Nat)
  /-- device event IACK -/
  | iack (line : Nat) (cluster : Nat)
  /-- device event GETS -/
  | gets (line : Nat) (stack : Nat) (core : Nat)
  /-- device event GETX -/
  | getx (line : Nat) (stack : Nat) (core : Nat)
  /-- device event FWD -/
  | fwd (line : Nat) (stack : Nat) (core : Nat) (excl : Bool)
  /-- device event DATA -/
  | data (line : Nat) (stack : Nat) (core : Nat) (excl : Bool) (bytes : (List Byte))
  /-- device event WB -/
  | wb (line : Nat) (stack : Nat)
  /-- device event XPUB -/
  | xpub (line : Nat) (stack : Nat) (level : Nat)
  /-- device event XINV -/
  | xinv (line : Nat) (stack : Nat)
  /-- device event XACK -/
  | xack (line : Nat) (stack : Nat)
  /-- device event XDONE -/
  | xdone (line : Nat) (stack : Nat) (level : Nat)
  /-- device event FPUB -/
  | fpub (core : Nat) (epoch : Nat) (level : Nat) (requester : Nat)
  /-- device event FACK -/
  | fack (core : Nat) (epoch : Nat) (level : Nat) (requester : Nat)
  /-- device event REBASE -/
  | rebase (isCore : Bool) (unit : Nat)
  /-- device event ICACHE_FILL -/
  | icacheFill (core : Nat) (ctx : Nat) (line : Nat) (wave : Nat)
  /-- device event WAIT_WORD_POLL -/
  | waitWordPoll (ctx : Nat) (queue : Nat)
  /-- device event QUEUE_RESERVING -/
  | queueReserving (ctx : Nat) (queue : Nat)
  /-- device event LAUNCH_DRAIN -/
  | launchDrain (launch : Nat)
  /-- device event TRANSLATION_REQUEST -/
  | translationRequest (stack : Nat) (ctx : Nat) (record : Nat) (image : Nat)
  /-- device event HANDLER_PREEMPT_TIMEOUT -/
  | handlerPreemptTimeout (wave : Nat)
  /-- device event INVALIDATION_COMPLETE -/
  | invalidationComplete (wave : Nat)
  /-- device event LAUNCH_FRAME -/
  | launchFrame (source : Nat) (payload : (List Byte))
  /-- device event MANAGEMENT_FRAME -/
  | managementFrame (source : Nat) (payload : (List Byte))
  /-- device event TRANSLATION_JOB_DONE -/
  | translationJobDone (ctx : Nat) (record : Nat) (result : (Option Translated))
  /-- device event CORE_RETIRE -/
  | coreRetire (cluster : Nat) (physical : Nat)
  /-- device event ELEMENT_FAILURE -/
  | elementFailure (element : Element)
  /-- device event ROUTE_REWRITE -/
  | routeRewrite (element : Element)
  /-- device event ELEMENT_RETIRE -/
  | elementRetire (element : Element)
  /-- device event RETIRE_POWER_DOWN -/
  | retirePowerDown (element : Element)
  /-- device event RETRANSMIT_TIMEOUT -/
  | retransmitTimeout (source : Nat) (home : Nat)
  /-- device event REPLAY_FILTER_ARRIVAL -/
  | replayFilterArrival (source : Nat) (home : Nat) (seq : (BitVec 16)) (request : FabRequest)
  /-- device event RDMA_WRITE -/
  | rdmaWrite (qp : Nat) (rkey : Nat) (va : Dword) (bytes : (List Byte))
  /-- device event RDMA_READ -/
  | rdmaRead (qp : Nat) (rkey : Nat) (va : Dword) (length : Nat)
  /-- device event ATOMIC_COMPARE_SWAP -/
  | atomicCompareSwap (qp : Nat) (rkey : Nat) (va : Dword) (compare : Dword) (swap : Dword)
  /-- device event ATOMIC_FETCH_ADD -/
  | atomicFetchAdd (qp : Nat) (rkey : Nat) (va : Dword) (add : Dword)
  /-- device event ROCE_UNSUPPORTED_REQUEST -/
  | roceUnsupportedRequest (qp : Nat)
  /-- device event NEIGHBOUR_RESOLUTION -/
  | neighbourResolution (query : (List Byte))
  /-- device event ETHERNET_FRAME_DROP -/
  | ethernetFrameDrop (frame : (List Byte))
  /-- device event DRAM_SCRUB -/
  | dramScrub (die : Nat) (corrected : (List Nat)) (uncorrectable : (List Nat))
  /-- device event SMC_HEARTBEAT -/
  | smcHeartbeat (stack : Nat) (answered : (List Nat))
  /-- device event DIE_LOST -/
  | dieLost (die : Nat)
  /-- device event REBUILD_DONE -/
  | rebuildDone (die : Nat)
  /-- device event THERMAL_LIMIT -/
  | thermalLimit (die : Nat) (celsius : Nat)
  /-- device event THERMAL_RECOVER -/
  | thermalRecover (die : Nat) (celsius : Nat)
  /-- device event POWER_SAMPLE -/
  | powerSample (readings : PowerReadings)
  /-- device event POWER_ON -/
  | powerOn
  /-- device event PACKAGE_RESET -/
  | packageReset
  /-- device event MGMT_CREATE_CONTEXT -/
  | mgmtCreateContext (ctx : Nat) (clusters : (List Nat)) (ptroot : Nat) (saveBase : Nat) (saveSize : Nat) (launchKey : (BitVec 256)) (codeKey : (BitVec 256))
  /-- device event MGMT_DESTROY_CONTEXT -/
  | mgmtDestroyContext (ctx : Nat)
  /-- device event MGMT_PREEMPT -/
  | mgmtPreempt (ctx : Nat)
  /-- device event MGMT_RESUME -/
  | mgmtResume (ctx : Nat) (clusters : (List Nat))
  /-- device event MGMT_SET_KEYS -/
  | mgmtSetKeys (ctx : Nat) (launchKey : (BitVec 256)) (codeKey : (BitVec 256))
  /-- device event MGMT_FEATURE_MASK -/
  | mgmtFeatureMask (ctx : Nat) (mask : Byte)
  /-- device event MGMT_QUEUE_QUANTA -/
  | mgmtQueueQuanta (ctx : Nat) (queue : Nat) (quantum : Nat)
  /-- device event MGMT_MEMORY_REGION -/
  | mgmtMemoryRegion (index : Nat) (entry : (BitVec 192))
  /-- device event MGMT_UNREGISTER_CODE_OBJECT -/
  | mgmtUnregisterCodeObject (ctx : Nat) (object : Nat)
  /-- device event MGMT_POWER_CAP -/
  | mgmtPowerCap (watts : Nat)
  /-- device event MGMT_WARM_RESET -/
  | mgmtWarmReset (die : Nat)
  /-- device event MGMT_READ_DRYDOWN -/
  | mgmtReadDrydown (unit : Nat) (first : Nat) (count : Nat) (reply : ReplyTo)
  /-- device event MGMT_ATTEST -/
  | mgmtAttest (nonce : (BitVec 256)) (reply : ReplyTo)
  /-- device event MGMT_RAISE_SVN -/
  | mgmtRaiseSvn (svn : Nat)
  /-- device event MGMT_WRITE_SILLAGE -/
  | mgmtWriteSillage (ctx : Nat) (value : Dword)
  /-- device event MGMT_WRITE_TRAPVEC -/
  | mgmtWriteTrapvec (ctx : Nat) (value : Dword)
  /-- device event MGMT_WRITE_SPAWNTMR -/
  | mgmtWriteSpawntmr (ctx : Nat) (value : Dword)
  /-- device event MGMT_WRITE_CTXMODE -/
  | mgmtWriteCtxmode (ctx : Nat) (value : Dword)
  /-- device event MGMT_WRITE_CRING -/
  | mgmtWriteCring (ctx : Nat) (value : Dword)
  /-- device event MGMT_BIND_NOTICE_QP -/
  | mgmtBindNoticeQp (ctx : Nat) (qp : Nat)
  /-- device event DIE_WARM_RESET -/
  | dieWarmReset (die : Nat)
  /-- device event WARM_RESET_STEP_DONE -/
  | warmResetStepDone (die : Nat)
  /-- device event POWER_REMOVAL -/
  | powerRemoval
  /-- device event ROCE_ACKNOWLEDGEMENT -/
  | roceAcknowledgement (qp : Nat) (ok : Bool)
  /-- device event PRIORITY_FLOW_CONTROL -/
  | priorityFlowControl (priority : Nat) (pause : Bool)
deriving DecidableEq, Repr

end Sys2Proof
end

