-- ==== Sys2Proof/WellFormed.lean ====
section
/-! DEFINITION. The operand fields of an instruction by kind (R80, R157, R188, R211, R246), and what makes an
instruction well-formed in each of the two instruction forms (R78, R84, R92 to R94). -/
namespace Sys2Proof

/-- The two forms a code image is in (R96). -/
inductive CodeForm where
  | quadiner | bintodal
deriving DecidableEq, Repr

/-- One operand field with its kind and its value. `vr` and `sr` are destinations that are also read, `vs` and
`ss` registers read as a source in D (R80, R157); `c` is a raw number, `raw` the unchecked bytes of TRAPZ. -/
inductive Field where
  | z
  | raw (n : Byte)
  | sd (d : SDst) | vd (d : VDst)
  | vr (r : Fin 128) | vs (r : Fin 128)
  | sr (r : Fin 64) | ss (r : Fin 64)
  | sp (k : Fin 32) | vq (k : Fin 32) | sq (k : Fin 16) | va (k : Fin 64)
  | pd (p : Fin 8) | td (t : Fin 8)
  | s (a : SSrc) | v (a : VSrc) | p (a : PSel)
  | k (n : Fin 80)
  | c (n : Byte)
deriving DecidableEq, Repr

/-- The inline number (code less 0x90) that names an element type in CVTV (R146). -/
def EType.inl : EType → Fin 80
  | .int32 => 0 | .uint32 => 1 | .int64 => 2 | .uint64 => 3 | .int16 => 4 | .uint16 => 5 | .int8 => 6 | .uint8 => 7
  | .f32 => 8 | .bf16 => 9 | .f16 => 10 | .e4m3 => 11 | .e5m2 => 12 | .sx8 => 13 | .sx5 => 14 | .sx3 => 15

/-- The inline number that names an SX member (R147). -/
def SxFmt.inl : SxFmt → Fin 80
  | .sx8 => 13 | .sx5 => 14 | .sx3 => 15

/-- The inline number that names a MODE field (R117). -/
def ModeField.inl : ModeField → Fin 80
  | .guard => 0 | .etype => 1 | .scope => 2 | .ord => 3 | .round => 4 | .sat => 5

/-- The code 1 to 6 of a scope (R20), which is also its level in DRAIN (R180). -/
def Scope.inl : Scope → Fin 80
  | .core => 1 | .cluster => 2 | .die => 3 | .stack => 4 | .interposer => 5 | .package => 6

/-- The inline number of FENCE's operand: SCOPE x 4 + ORD (R86). -/
def FenceOp.inl (f : FenceOp) : Fin 80 :=
  match f.scope, f.ord with
  | .core, .acquire => 5 | .core, .release => 6 | .core, .acqRel => 7
  | .cluster, .acquire => 9 | .cluster, .release => 10 | .cluster, .acqRel => 11
  | .die, .acquire => 13 | .die, .release => 14 | .die, .acqRel => 15
  | .stack, .acquire => 17 | .stack, .release => 18 | .stack, .acqRel => 19
  | .interposer, .acquire => 21 | .interposer, .release => 22 | .interposer, .acqRel => 23
  | .package, .acquire => 25 | .package, .release => 26 | .package, .acqRel => 27

/-- The inline number of a flag operand: MMD's (R188), and `one` and `all` of R379. -/
def flagInl (b : Bool) : Fin 80 := if b then 1 else 0

/-- The D code of a WAITA space (R179). -/
def Space.num : Space → Byte
  | .global => 0 | .core => 1 | .cluster => 2 | .stack => 3

/-- The number of a control register (R131). -/
def CReg.num : CReg → Byte
  | .time => 0 | .elapsed => 1 | .context => 2 | .waypart => 3 | .sillage => 4
  | .trapvec => 5 | .spawntmr => 6 | .ctxmode => 7 | .cring => 8 | .trapframe => 9

/-- A small number as a raw C field. -/
def finNum (n : Fin 16) : Byte := BitVec.ofNat 8 n.val

/-- The three fields D, A and B of an instruction word. -/
structure Operands where
  d : Field
  a : Field
  b : Field
deriving DecidableEq, Repr

/-- The operand fields of every encoded instruction (R88, R158, R188, R211, R246, R305, R374, R379); a device
event has none. -/
def Instr.operands : Instr → Option Operands
  | .trapz d a b => some ⟨.raw d, .raw a, .raw b⟩
  | .nop => some ⟨.z, .z, .z⟩
  | .adds d a b => some ⟨.sd d, .s a, .s b⟩
  | .subs d a b => some ⟨.sd d, .s a, .s b⟩
  | .muls d a b => some ⟨.sd d, .s a, .s b⟩
  | .mulhs d a b => some ⟨.sd d, .s a, .s b⟩
  | .divs d a b => some ⟨.sd d, .s a, .s b⟩
  | .rems d a b => some ⟨.sd d, .s a, .s b⟩
  | .ands d a b => some ⟨.sd d, .s a, .s b⟩
  | .ors d a b => some ⟨.sd d, .s a, .s b⟩
  | .xors d a b => some ⟨.sd d, .s a, .s b⟩
  | .andns d a b => some ⟨.sd d, .s a, .s b⟩
  | .shls d a b => some ⟨.sd d, .s a, .s b⟩
  | .shrs d a b => some ⟨.sd d, .s a, .s b⟩
  | .sras d a b => some ⟨.sd d, .s a, .s b⟩
  | .rols d a b => some ⟨.sd d, .s a, .s b⟩
  | .mins d a b => some ⟨.sd d, .s a, .s b⟩
  | .maxs d a b => some ⟨.sd d, .s a, .s b⟩
  | .movs d a => some ⟨.sd d, .s a, .z⟩
  | .nots d a => some ⟨.sd d, .s a, .z⟩
  | .negs d a => some ⟨.sd d, .s a, .z⟩
  | .clzs d a => some ⟨.sd d, .s a, .z⟩
  | .popcs d a => some ⟨.sd d, .s a, .z⟩
  | .seqs d a b => some ⟨.sd d, .s a, .s b⟩
  | .snes d a b => some ⟨.sd d, .s a, .s b⟩
  | .slts d a b => some ⟨.sd d, .s a, .s b⟩
  | .sles d a b => some ⟨.sd d, .s a, .s b⟩
  | .leas d a b => some ⟨.sd d, .s a, .s b⟩
  | .bfxs d a b => some ⟨.sd d, .s a, .s b⟩
  | .br a b => some ⟨.z, .p a, .s b⟩
  | .brz a b => some ⟨.z, .s a, .s b⟩
  | .brnz a b => some ⟨.z, .s a, .s b⟩
  | .call d b => some ⟨.sd d, .z, .s b⟩
  | .ret a => some ⟨.z, .s a, .z⟩
  | .rejoin b => some ⟨.z, .z, .s b⟩
  | .exit => some ⟨.z, .z, .z⟩
  | .yield => some ⟨.z, .z, .z⟩
  | .plset a => some ⟨.z, .v a, .z⟩
  | .plget d => some ⟨.vd d, .z, .z⟩
  | .trap b => some ⟨.z, .z, .k (Fin.castLE (by decide) b)⟩
  | .brk => some ⟨.z, .z, .z⟩
  | .crrd d b => some ⟨.sd d, .z, .c b.num⟩
  | .setm b => some ⟨.z, .z, .s b⟩
  | .setmf a b => some ⟨.z, .k a.inl, .s b⟩
  | .getm d => some ⟨.sd d, .z, .z⟩
  | .pand d a b => some ⟨.pd d, .p a, .p b⟩
  | .por d a b => some ⟨.pd d, .p a, .p b⟩
  | .pxor d a b => some ⟨.pd d, .p a, .p b⟩
  | .pandn d a b => some ⟨.pd d, .p a, .p b⟩
  | .pfroms d a => some ⟨.pd d, .s a, .z⟩
  | .ptos d a => some ⟨.sd d, .p a, .z⟩
  | .maskrd d => some ⟨.sd d, .z, .z⟩
  | .addv d a b => some ⟨.vd d, .v a, .v b⟩
  | .subv d a b => some ⟨.vd d, .v a, .v b⟩
  | .mulv d a b => some ⟨.vd d, .v a, .v b⟩
  | .mulhv d a b => some ⟨.vd d, .v a, .v b⟩
  | .divv d a b => some ⟨.vd d, .v a, .v b⟩
  | .remv d a b => some ⟨.vd d, .v a, .v b⟩
  | .minv d a b => some ⟨.vd d, .v a, .v b⟩
  | .maxv d a b => some ⟨.vd d, .v a, .v b⟩
  | .absv d a => some ⟨.vd d, .v a, .z⟩
  | .negv d a => some ⟨.vd d, .v a, .z⟩
  | .madv d a b => some ⟨.vr d, .v a, .v b⟩
  | .msubv d a b => some ⟨.vr d, .v a, .v b⟩
  | .andv d a b => some ⟨.vd d, .v a, .v b⟩
  | .orv d a b => some ⟨.vd d, .v a, .v b⟩
  | .xorv d a b => some ⟨.vd d, .v a, .v b⟩
  | .andnv d a b => some ⟨.vd d, .v a, .v b⟩
  | .notv d a => some ⟨.vd d, .v a, .z⟩
  | .shlv d a b => some ⟨.vd d, .v a, .v b⟩
  | .shrv d a b => some ⟨.vd d, .v a, .v b⟩
  | .srav d a b => some ⟨.vd d, .v a, .v b⟩
  | .rolv d a b => some ⟨.vd d, .v a, .v b⟩
  | .clzv d a => some ⟨.vd d, .v a, .z⟩
  | .popcv d a => some ⟨.vd d, .v a, .z⟩
  | .movv d a => some ⟨.vd d, .v a, .z⟩
  | .bfxv d a b => some ⟨.vd d, .v a, .v b⟩
  | .dot4v d a b => some ⟨.vr d, .v a, .v b⟩
  | .dot2v d a b => some ⟨.vr d, .v a, .v b⟩
  | .avgv d a b => some ⟨.vd d, .v a, .v b⟩
  | .sqrtv d a => some ⟨.vd d, .v a, .z⟩
  | .rcpv d a => some ⟨.vd d, .v a, .z⟩
  | .rsqv d a => some ⟨.vd d, .v a, .z⟩
  | .exp2v d a => some ⟨.vd d, .v a, .z⟩
  | .log2v d a => some ⟨.vd d, .v a, .z⟩
  | .sinv d a => some ⟨.vd d, .v a, .z⟩
  | .cosv d a => some ⟨.vd d, .v a, .z⟩
  | .tanhv d a => some ⟨.vd d, .v a, .z⟩
  | .floorv d a => some ⟨.vd d, .v a, .z⟩
  | .ceilv d a => some ⟨.vd d, .v a, .z⟩
  | .truncv d a => some ⟨.vd d, .v a, .z⟩
  | .rintv d a => some ⟨.vd d, .v a, .z⟩
  | .fracv d a => some ⟨.vd d, .v a, .z⟩
  | .copysv d a b => some ⟨.vd d, .v a, .v b⟩
  | .classv d a => some ⟨.vd d, .v a, .z⟩
  | .scalbv d a b => some ⟨.vd d, .v a, .v b⟩
  | .cvtv d a b => some ⟨.vd d, .v a, .k b.inl⟩
  | .packsxv d a b => some ⟨.vd d, .v a, .k b.inl⟩
  | .unpksxv d a b => some ⟨.vd d, .v a, .k b.inl⟩
  | .cmpeqv d a b => some ⟨.pd d, .v a, .v b⟩
  | .cmpnev d a b => some ⟨.pd d, .v a, .v b⟩
  | .cmpltv d a b => some ⟨.pd d, .v a, .v b⟩
  | .cmplev d a b => some ⟨.pd d, .v a, .v b⟩
  | .cmpgtv d a b => some ⟨.pd d, .v a, .v b⟩
  | .cmpgev d a b => some ⟨.pd d, .v a, .v b⟩
  | .cmpunv d a b => some ⟨.pd d, .v a, .v b⟩
  | .selv d a b => some ⟨.vd d, .v a, .v b⟩
  | .shflv d a b => some ⟨.vd d, .v a, .v b⟩
  | .shupv d a b => some ⟨.vd d, .v a, .v b⟩
  | .shdnv d a b => some ⟨.vd d, .v a, .v b⟩
  | .shxrv d a b => some ⟨.vd d, .v a, .v b⟩
  | .bcastv d a b => some ⟨.vd d, .v a, .v b⟩
  | .voteall d a => some ⟨.pd d, .p a, .z⟩
  | .voteany d a => some ⟨.pd d, .p a, .z⟩
  | .ballot d a => some ⟨.sd d, .p a, .z⟩
  | .redaddv d a => some ⟨.sd d, .v a, .z⟩
  | .redminv d a => some ⟨.sd d, .v a, .z⟩
  | .redmaxv d a => some ⟨.sd d, .v a, .z⟩
  | .redandv d a => some ⟨.sd d, .v a, .z⟩
  | .redorv d a => some ⟨.sd d, .v a, .z⟩
  | .scanv d a => some ⟨.vd d, .v a, .z⟩
  | .movsv d a => some ⟨.vd d, .s a, .z⟩
  | .movvs d a b => some ⟨.sd d, .v a, .s b⟩
  | .firstl d => some ⟨.sd d, .z, .z⟩
  | .ldv d a b => some ⟨.vd d, .va a, .s b⟩
  | .stv d a b => some ⟨.vs d, .va a, .s b⟩
  | .lds d a b => some ⟨.sd d, .s a, .s b⟩
  | .sts d a b => some ⟨.ss d, .s a, .s b⟩
  | .ldvb d a b => some ⟨.vd d, .s a, .s b⟩
  | .stvb d a b => some ⟨.vs d, .s a, .s b⟩
  | .pref a b => some ⟨.z, .s a, .s b⟩
  | .aadd d a b => some ⟨.vd d, .va a, .v b⟩
  | .amin d a b => some ⟨.vd d, .va a, .v b⟩
  | .amax d a b => some ⟨.vd d, .va a, .v b⟩
  | .aand d a b => some ⟨.vd d, .va a, .v b⟩
  | .aor d a b => some ⟨.vd d, .va a, .v b⟩
  | .axor d a b => some ⟨.vd d, .va a, .v b⟩
  | .axchg d a b => some ⟨.vd d, .va a, .v b⟩
  | .aincw d a b => some ⟨.vd d, .va a, .v b⟩
  | .adecw d a b => some ⟨.vd d, .va a, .v b⟩
  | .cas d a b => some ⟨.vr d, .va a, .v b⟩
  | .cas128 d a b => some ⟨.vq d, .va a, .vq b⟩
  | .aadds d a b => some ⟨.sd d, .s a, .s b⟩
  | .cass d a b => some ⟨.sr d, .s a, .s b⟩
  | .fence b => some ⟨.z, .z, .k b.inl⟩
  | .waita d a b => some ⟨.c d.num, .s a, .s b⟩
  | .drain b => some ⟨.z, .z, .k b.inl⟩
  | .rdadd a b => some ⟨.z, .va a, .v b⟩
  | .rdmin a b => some ⟨.z, .va a, .v b⟩
  | .rdmax a b => some ⟨.z, .va a, .v b⟩
  | .rdand a b => some ⟨.z, .va a, .v b⟩
  | .rdor a b => some ⟨.z, .va a, .v b⟩
  | .rdxor a b => some ⟨.z, .va a, .v b⟩
  | .ldp d a b => some ⟨.vd d, .v a, .s b⟩
  | .stp d a b => some ⟨.vs d, .v a, .s b⟩
  | .ldc d a b => some ⟨.vd d, .v a, .s b⟩
  | .stc d a b => some ⟨.vs d, .v a, .s b⟩
  | .ldk d a b => some ⟨.vd d, .v a, .s b⟩
  | .stk d a b => some ⟨.vs d, .v a, .s b⟩
  | .ldl d a b => some ⟨.vd d, .v a, .s b⟩
  | .stl d a b => some ⟨.vs d, .v a, .s b⟩
  | .aaddc d a b => some ⟨.vd d, .v a, .v b⟩
  | .casc d a b => some ⟨.vr d, .v a, .v b⟩
  | .townGive a b => some ⟨.c 0#8, .s a, .s b⟩
  | .townTake a b => some ⟨.c 1#8, .s a, .s b⟩
  | .twait d a b => some ⟨.sd d, .s a, .s b⟩
  | .barv d a => some ⟨.sd d, .s a, .z⟩
  | .barw a b => some ⟨.z, .s a, .s b⟩
  | .ldps d a b => some ⟨.sd d, .s a, .s b⟩
  | .stps d a b => some ⟨.ss d, .s a, .s b⟩
  | .mma d a b => some ⟨.td d, .s a, .sq b⟩
  | .mmz d => some ⟨.td d, .z, .z⟩
  | .mmd d a b => some ⟨.td d, .s a, .k (flagInl b)⟩
  | .wload d a b => some ⟨.c (finNum d), .s a, .k b⟩
  | .mmsync => some ⟨.z, .z, .z⟩
  | .wbind d a => some ⟨.c (finNum d), .s a, .z⟩
  | .wtouch b => some ⟨.z, .z, .c (finNum b)⟩
  | .wunbind b => some ⟨.z, .z, .c (finNum b)⟩
  | .gather a => some ⟨.z, .s a, .z⟩
  | .spawn a b => some ⟨.z, .s a, .s b⟩
  | .dcinit d a b => some ⟨.ss d, .s a, .s b⟩
  | .dctake d a b => some ⟨.sd d, .s a, .s b⟩
  | .dcgive d a b => some ⟨.sd d, .s a, .s b⟩
  | .dcread d a => some ⟨.sp d, .s a, .z⟩
  | .dcreadx d a => some ⟨.sd d, .s a, .z⟩
  | .dcdrop d a => some ⟨.sd d, .s a, .z⟩
  | .objdecl d a => some ⟨.sd d, .s a, .z⟩
  | .objdrop a => some ⟨.z, .s a, .z⟩
  | .wstat d b => some ⟨.sd d, .z, .c (finNum b)⟩
  | .crwr a b => some ⟨.z, .c a.num, .s b⟩
  | .carve d a => some ⟨.sd d, .s a, .z⟩
  | .tret => some ⟨.z, .z, .z⟩
  | .tlbinv a b => some ⟨.z, .s a, .k (flagInl b)⟩
  | .icinv a b => some ⟨.z, .s a, .k (flagInl b)⟩
  | .splitRotation _ => none
  | .loadDataReturn _ _ => none
  | .waveExchange _ _ => none
  | .waitaPeriodicWake _ => none
  | .drainComplete _ => none
  | .waveEnd _ => none
  | .mmaExecute _ => none
  | .mmzExecute _ => none
  | .mmdExecute _ => none
  | .wloadExecute _ => none
  | .copyComplete _ _ => none
  | .copyAbandon _ _ => none
  | .gatherComplete _ => none
  | .gatherAbandon _ => none
  | .spawnBinTimer _ _ => none
  | .spawnWaveStart _ _ => none
  | .decantReq _ _ _ _ => none
  | .decantGiveMsg _ _ _ _ => none
  | .decantReturn _ _ _ => none
  | .decantAnswer _ _ _ => none
  | .decantReadAtHome _ _ _ _ => none
  | .decantRecall _ _ => none
  | .decantGrant _ _ _ => none
  | .decantServe _ _ _ => none
  | .decantStatusReply _ _ _ _ _ _ => none
  | .decantCdieLoss _ => none
  | .wr _ _ => none
  | .pack _ _ _ => none
  | .inv _ _ _ => none
  | .iack _ _ => none
  | .gets _ _ _ => none
  | .getx _ _ _ => none
  | .fwd _ _ _ _ => none
  | .data _ _ _ _ _ => none
  | .wb _ _ => none
  | .xpub _ _ _ => none
  | .xinv _ _ => none
  | .xack _ _ => none
  | .xdone _ _ _ => none
  | .fpub _ _ _ _ => none
  | .fack _ _ _ _ => none
  | .rebase _ _ => none
  | .icacheFill _ _ _ _ => none
  | .launchFrame _ _ => none
  | .managementFrame _ _ => none
  | .waitWordPoll _ _ => none
  | .queueReserving _ _ => none
  | .launchDrain _ => none
  | .translationRequest _ _ _ _ => none
  | .translationJobDone _ _ _ => none
  | .handlerPreemptTimeout _ => none
  | .coreRetire _ _ => none
  | .elementFailure _ => none
  | .routeRewrite _ => none
  | .elementRetire _ => none
  | .retirePowerDown _ => none
  | .retransmitTimeout _ _ => none
  | .replayFilterArrival _ _ _ _ => none
  | .rdmaWrite _ _ _ _ => none
  | .rdmaRead _ _ _ _ => none
  | .atomicCompareSwap _ _ _ _ _ => none
  | .atomicFetchAdd _ _ _ _ => none
  | .roceUnsupportedRequest _ => none
  | .neighbourResolution _ => none
  | .ethernetFrameDrop _ => none
  | .dramScrub _ _ _ => none
  | .smcHeartbeat _ _ => none
  | .dieLost _ => none
  | .rebuildDone _ => none
  | .thermalLimit _ _ => none
  | .thermalRecover _ _ => none
  | .powerSample _ => none
  | .powerOn => none
  | .packageReset => none
  | .mgmtCreateContext _ _ _ _ _ _ _ => none
  | .mgmtDestroyContext _ => none
  | .mgmtPreempt _ => none
  | .mgmtResume _ _ => none
  | .mgmtSetKeys _ _ _ => none
  | .mgmtFeatureMask _ _ => none
  | .mgmtQueueQuanta _ _ _ => none
  | .mgmtMemoryRegion _ _ => none
  | .mgmtUnregisterCodeObject _ _ => none
  | .mgmtPowerCap _ => none
  | .mgmtWarmReset _ => none
  | .mgmtReadDrydown _ _ _ _ => none
  | .mgmtAttest _ _ => none
  | .mgmtRaiseSvn _ => none
  | .mgmtWriteSillage _ _ => none
  | .mgmtWriteTrapvec _ _ => none
  | .mgmtWriteSpawntmr _ _ => none
  | .mgmtWriteCtxmode _ _ => none
  | .mgmtWriteCring _ _ => none
  | .mgmtBindNoticeQp _ _ => none
  | .dieWarmReset _ => none
  | .warmResetStepDone _ => none
  | .invalidationComplete _ => none
  | .powerRemoval => none
  | .roceAcknowledgement _ _ => none
  | .priorityFlowControl _ _ => none

/-- The field takes its value from the literal word or from IMM16 (code 0xFF). -/
def Field.isExt : Field → Bool
  | .s (.lit _) | .s (.imm _) | .v (.lit _) | .v (.imm _) => true
  | _ => false

/-- The field may stand in a Quadiner word: no IMM16 operand (R84). -/
def Field.okQuadiner : Field → Bool
  | .s (.imm _) | .v (.imm _) => false
  | _ => true

/-- The field may stand in a Bintodal word: no literal word, no latch, no NW (R93). -/
def Field.okBintodal : Field → Bool
  | .s (.lit _) | .v (.lit _) | .s (.latch _) | .v (.latch _) | .sd .nw | .vd .nw => false
  | _ => true

/-- The field may stand in a word of the form. -/
def Field.ok : CodeForm → Field → Bool
  | .quadiner, f => f.okQuadiner
  | .bintodal, f => f.okBintodal

/-- The operands of an encoded instruction fit one word of the form: every field does, and at most one field takes
the literal word or IMM16 (R84, R93). -/
def Operands.wf (form : CodeForm) (o : Operands) : Bool :=
  o.d.ok form && o.a.ok form && o.b.ok form && !(o.a.isExt && o.b.isExt)

/-- The instruction is encoded, and well-formed in the given form. -/
def Instr.wf (form : CodeForm) (i : Instr) : Bool :=
  match i.operands with
  | some o => o.wf form
  | none => false

end Sys2Proof
end

