-- ==== Sys2Proof/Decode.lean ====
section
/-! DEFINITION. The decoder, total on any bytes and rejecting by name, and after it the encoder, both written from
the word layouts of R78 and R92 and the codes of R80, R81 and R86 to R88. -/
namespace Sys2Proof

/-- Why a word is not an instruction (R89); each of them is an ILLEGAL_ENCODING of the machine, but for
`truncated`, which only the byte-list decoder answers. -/
inductive DecodeError where
  /-- a dash in the opcode map of R87 -/
  | reservedOpcode
  /-- a D, A or B value that its kind does not accept (R80, R81) -/
  | badD | badA | badB
  /-- 0xFF in both A and B (R84, R93) -/
  | twoLiterals
  /-- a nonzero IMM16 that no field takes (R93) -/
  | strayImm16
  /-- fewer bytes than the instruction has -/
  | truncated
deriving DecidableEq, Repr

/-- A word cut into its fields; `ext` is the literal word, or IMM16 in a Bintodal word. -/
structure RawWord where
  form : CodeForm
  opc : Nat
  d : Nat
  a : Nat
  b : Nat
  ext : Word
deriving DecidableEq, Repr

/-- The opcode lies in one of the ranges. -/
def inRanges (rs : List (Nat × Nat)) (opc : Nat) : Bool := rs.any (fun r => r.1 ≤ opc && opc ≤ r.2)

/-- The assigned opcodes of R87. -/
def opcodeAssigned (opc : Nat) : Bool := inRanges [(0x00, 0x1C), (0x20, 0x36), (0x40, 0x5B), (0x60, 0x6F), (0x80, 0x9B), (0xA0, 0xA6), (0xA8, 0xBD), (0xC0, 0xD4), (0xE0, 0xED), (0xF0, 0xF4)] opc

/-- The opcodes whose A field is of kind S or V (R88 and the entries). -/
def aTakesLiteral (opc : Nat) : Bool := inRanges
  [(0x02, 0x1C), (0x21, 0x22), (0x24, 0x24), (0x28, 0x28), (0x34, 0x34), (0x40, 0x5B), (0x60, 0x6F), (0x80, 0x8F), (0x93, 0x9A), (0xA2, 0xA6), (0xB3, 0xB4), (0xB6, 0xB6), (0xC0, 0xD0), (0xD2, 0xD3), (0xE0, 0xE0), (0xE3, 0xEC), (0xF1, 0xF1), (0xF3, 0xF4)] opc

/-- The opcodes whose B field is of kind S or V (R88 and the entries). -/
def bTakesLiteral (opc : Nat) : Bool := inRanges
  [(0x02, 0x11), (0x17, 0x1C), (0x20, 0x23), (0x25, 0x25), (0x2D, 0x2E), (0x40, 0x47), (0x4A, 0x4F), (0x51, 0x54), (0x58, 0x5B), (0x6D, 0x6D), (0x6F, 0x6F), (0x83, 0x8F), (0x9A, 0x9A), (0xA0, 0xA6), (0xA8, 0xB1), (0xB3, 0xB4), (0xB6, 0xB6), (0xB8, 0xBD), (0xC0, 0xCB), (0xCD, 0xCF), (0xE4, 0xE7), (0xF0, 0xF0)] opc

/-- A Quadiner word has a literal word exactly when its opcode is assigned and is not 0x00, and a field of kind V or
S holds 0xFF (R78). -/
def wordHasLiteral (w : Word) : Bool :=
  let opc := w.toNat / 0x1000000
  opc != 0 && opcodeAssigned opc &&
    ((w.toNat / 0x100 % 0x100 == 0xFF && aTakesLiteral opc) || (w.toNat % 0x100 == 0xFF && bTakesLiteral opc))

/-- Kind S (R81): a scalar source. Latches only in a Quadiner word (R93). -/
def decSSrc (r : RawWord) (c : Nat) : Option SSrc :=
  if h : c < 0x40 then some (.reg ⟨c, by omega⟩)
  else if c < 0x80 then none
  else if h : c < 0x88 then (match r.form with | .quadiner => some (.latch ⟨c - 0x80, by omega⟩) | .bintodal => none)
  else if c = 0x88 then some .zero
  else if c = 0x8A then some .wave
  else if c = 0x8C then some .core
  else if c < 0x90 then none
  else if h : c < 0xE0 then some (.inl ⟨c - 0x90, by omega⟩)
  else if h : c < 0xF0 then some (.fconst ⟨c - 0xE0, by omega⟩)
  else if c = 0xFF then
    (match r.form with | .quadiner => some (.lit r.ext) | .bintodal => some (.imm (r.ext.setWidth 16)))
  else none

/-- Kind V (R81): a vector source. -/
def decVSrc (r : RawWord) (c : Nat) : Option VSrc :=
  if h : c < 0x80 then some (.reg ⟨c, by omega⟩)
  else if h : c < 0x88 then (match r.form with | .quadiner => some (.latch ⟨c - 0x80, by omega⟩) | .bintodal => none)
  else if c = 0x88 then some .zero
  else if c = 0x89 then some .lane
  else if c = 0x8A then some .wave
  else if c = 0x8B then some .plane
  else if c = 0x8C then some .core
  else if c < 0x90 then none
  else if h : c < 0xE0 then some (.inl ⟨c - 0x90, by omega⟩)
  else if h : c < 0xF0 then some (.fconst ⟨c - 0xE0, by omega⟩)
  else if c = 0xFF then
    (match r.form with | .quadiner => some (.lit r.ext) | .bintodal => some (.imm (r.ext.setWidth 16)))
  else none

/-- Kind Z (R80). -/
def decZ (_ : RawWord) (c : Nat) : Option Unit := if c = 0 then some () else none
/-- A field that must hold one raw number (the form of TOWN, R211). -/
def decIs (n : Nat) (_ : RawWord) (c : Nat) : Option Unit := if c = n then some () else none
/-- Kind Sd (R80); NW only in a Quadiner word (R93). -/
def decSDst (r : RawWord) (c : Nat) : Option SDst :=
  if h : c < 0x40 then some (.reg ⟨c, by omega⟩)
  else if c = 0x80 then (match r.form with | .quadiner => some .nw | .bintodal => none) else none
/-- Kind Vd (R80). -/
def decVDst (r : RawWord) (c : Nat) : Option VDst :=
  if h : c < 0x80 then some (.reg ⟨c, by omega⟩)
  else if c = 0x80 then (match r.form with | .quadiner => some .nw | .bintodal => none) else none
/-- A vector register that is read (kind Vs, and Vd read as well). -/
def decVReg (_ : RawWord) (c : Nat) : Option (Fin 128) := if h : c < 128 then some ⟨c, by omega⟩ else none
/-- A scalar register that is read (kind Ss, and Sd read as well). -/
def decSReg (_ : RawWord) (c : Nat) : Option (Fin 64) := if h : c < 64 then some ⟨c, by omega⟩ else none
/-- Kinds Pd and Td. -/
def decFin8 (_ : RawWord) (c : Nat) : Option (Fin 8) := if h : c < 8 then some ⟨c, by omega⟩ else none
/-- The 16 window and weight-slot numbers. -/
def decFin16 (_ : RawWord) (c : Nat) : Option (Fin 16) := if h : c < 16 then some ⟨c, by omega⟩ else none
/-- Kind Sp: an even scalar pair (R246). -/
def decSPair (_ : RawWord) (c : Nat) : Option (Fin 32) :=
  if h : c < 0x40 ∧ c % 2 = 0 then some ⟨c / 2, by omega⟩ else none
/-- Kind Va: an even address pair (R157). -/
def decVPair (_ : RawWord) (c : Nat) : Option (Fin 64) :=
  if h : c < 0x80 ∧ c % 2 = 0 then some ⟨c / 2, by omega⟩ else none
/-- Kind Vq: four vector registers (R157). -/
def decVQuad (_ : RawWord) (c : Nat) : Option (Fin 32) :=
  if h : c < 0x80 ∧ c % 4 = 0 then some ⟨c / 4, by omega⟩ else none
/-- Kind Sq: four scalar registers (R188). -/
def decSQuad (_ : RawWord) (c : Nat) : Option (Fin 16) :=
  if h : c < 0x40 ∧ c % 4 = 0 then some ⟨c / 4, by omega⟩ else none
/-- Kind P (R80). -/
def decPSel (_ : RawWord) (c : Nat) : Option PSel :=
  if h : c < 8 then some ⟨false, ⟨c, by omega⟩⟩ else if h : c < 16 then some ⟨true, ⟨c - 8, by omega⟩⟩ else none
/-- Kind K: an inline integer (R80). -/
def decK (_ : RawWord) (c : Nat) : Option (Fin 80) :=
  if h : 0x90 ≤ c ∧ c < 0xE0 then some ⟨c - 0x90, by omega⟩ else none
/-- TRAP's k, 0 to 63 (R129). -/
def decTrapK (_ : RawWord) (c : Nat) : Option (Fin 64) :=
  if h : 0x90 ≤ c ∧ c < 0xD0 then some ⟨c - 0x90, by omega⟩ else none
/-- The element type of a code 0 to 15 (R53). -/
def etypeTable : List EType :=
  [.int32, .uint32, .int64, .uint64, .int16, .uint16, .int8, .uint8, .f32, .bf16, .f16, .e4m3, .e5m2, .sx8, .sx5, .sx3]
/-- CVTV's target (R146): the codes 13 to 15 decode, and fail later as ILLEGAL_TYPE. -/
def decKType (_ : RawWord) (c : Nat) : Option EType := if 0x90 ≤ c then etypeTable[c - 0x90]? else none
/-- The SX member of PACKSXV and UNPKSXV (R147). -/
def decKSx (_ : RawWord) (c : Nat) : Option SxFmt :=
  if c = 0x9D then some .sx8 else if c = 0x9E then some .sx5 else if c = 0x9F then some .sx3 else none
/-- The MODE field of SETMF (R117). -/
def decKField (_ : RawWord) (c : Nat) : Option ModeField :=
  if 0x90 ≤ c then [ModeField.guard, .etype, .scope, .ord, .round, .sat][c - 0x90]? else none
/-- The scopes by code 1 to 6 (R20). -/
def scopeTable : List Scope := [.core, .cluster, .die, .stack, .interposer, .package]
/-- DRAIN's level (R180). -/
def decDrain (_ : RawWord) (c : Nat) : Option Scope := if 0x91 ≤ c then scopeTable[c - 0x91]? else none
/-- FENCE's operand, 0x90 + SCOPE x 4 + ORD (R86). -/
def decFence (_ : RawWord) (c : Nat) : Option FenceOp :=
  if 0x94 ≤ c then
    match scopeTable[(c - 0x94) / 4]?, (c - 0x94) % 4 with
    | some sc, 1 => some ⟨sc, .acquire⟩
    | some sc, 2 => some ⟨sc, .release⟩
    | some sc, 3 => some ⟨sc, .acqRel⟩
    | _, _ => none
  else none
/-- A flag K operand, 0x90 or 0x91 (R188, R379). -/
def decKFlag (_ : RawWord) (c : Nat) : Option Bool :=
  if c = 0x90 then some false else if c = 0x91 then some true else none
/-- A control register number (R131). -/
def decCReg (_ : RawWord) (c : Nat) : Option CReg :=
  [CReg.time, .elapsed, .context, .waypart, .sillage, .trapvec, .spawntmr, .ctxmode, .cring, .trapframe][c]?
/-- The space of WAITA (R179). -/
def decSpace (_ : RawWord) (c : Nat) : Option Space := [Space.global, .core, .cluster, .stack][c]?

/-- Decode the three fields of a word with three field decoders. -/
def dec3 {α β γ : Type} (mk : α → β → γ → Instr) (fd : RawWord → Nat → Option α) (fa : RawWord → Nat → Option β)
    (fb : RawWord → Nat → Option γ) (r : RawWord) : Except DecodeError Instr :=
  match fd r r.d with
  | none => .error .badD
  | some d =>
    match fa r r.a with
    | none => .error .badA
    | some a =>
      match fb r r.b with
      | none => .error .badB
      | some b => .ok (mk d a b)

/-- The opcode map of R87 with the kinds of R88, R158, R188, R211, R246, R305, R374 and R379. Opcode 0x00 has no
kinds: any D, A and B (R89). -/
def decodeFields (r : RawWord) : Except DecodeError Instr :=
  match r.opc with
  | 0x00 => .ok (.trapz (BitVec.ofNat 8 r.d) (BitVec.ofNat 8 r.a) (BitVec.ofNat 8 r.b))
  | 0x01 => dec3 (fun _ _ _ => .nop) decZ decZ decZ r
  | 0x02 => dec3 .adds decSDst decSSrc decSSrc r
  | 0x03 => dec3 .subs decSDst decSSrc decSSrc r
  | 0x04 => dec3 .muls decSDst decSSrc decSSrc r
  | 0x05 => dec3 .mulhs decSDst decSSrc decSSrc r
  | 0x06 => dec3 .divs decSDst decSSrc decSSrc r
  | 0x07 => dec3 .rems decSDst decSSrc decSSrc r
  | 0x08 => dec3 .ands decSDst decSSrc decSSrc r
  | 0x09 => dec3 .ors decSDst decSSrc decSSrc r
  | 0x0A => dec3 .xors decSDst decSSrc decSSrc r
  | 0x0B => dec3 .andns decSDst decSSrc decSSrc r
  | 0x0C => dec3 .shls decSDst decSSrc decSSrc r
  | 0x0D => dec3 .shrs decSDst decSSrc decSSrc r
  | 0x0E => dec3 .sras decSDst decSSrc decSSrc r
  | 0x0F => dec3 .rols decSDst decSSrc decSSrc r
  | 0x10 => dec3 .mins decSDst decSSrc decSSrc r
  | 0x11 => dec3 .maxs decSDst decSSrc decSSrc r
  | 0x12 => dec3 (fun d a _ => .movs d a) decSDst decSSrc decZ r
  | 0x13 => dec3 (fun d a _ => .nots d a) decSDst decSSrc decZ r
  | 0x14 => dec3 (fun d a _ => .negs d a) decSDst decSSrc decZ r
  | 0x15 => dec3 (fun d a _ => .clzs d a) decSDst decSSrc decZ r
  | 0x16 => dec3 (fun d a _ => .popcs d a) decSDst decSSrc decZ r
  | 0x17 => dec3 .seqs decSDst decSSrc decSSrc r
  | 0x18 => dec3 .snes decSDst decSSrc decSSrc r
  | 0x19 => dec3 .slts decSDst decSSrc decSSrc r
  | 0x1A => dec3 .sles decSDst decSSrc decSSrc r
  | 0x1B => dec3 .leas decSDst decSSrc decSSrc r
  | 0x1C => dec3 .bfxs decSDst decSSrc decSSrc r
  | 0x20 => dec3 (fun _ a b => .br a b) decZ decPSel decSSrc r
  | 0x21 => dec3 (fun _ a b => .brz a b) decZ decSSrc decSSrc r
  | 0x22 => dec3 (fun _ a b => .brnz a b) decZ decSSrc decSSrc r
  | 0x23 => dec3 (fun d _ b => .call d b) decSDst decZ decSSrc r
  | 0x24 => dec3 (fun _ a _ => .ret a) decZ decSSrc decZ r
  | 0x25 => dec3 (fun _ _ b => .rejoin b) decZ decZ decSSrc r
  | 0x26 => dec3 (fun _ _ _ => .exit) decZ decZ decZ r
  | 0x27 => dec3 (fun _ _ _ => .yield) decZ decZ decZ r
  | 0x28 => dec3 (fun _ a _ => .plset a) decZ decVSrc decZ r
  | 0x29 => dec3 (fun d _ _ => .plget d) decVDst decZ decZ r
  | 0x2A => dec3 (fun _ _ b => .trap b) decZ decZ decTrapK r
  | 0x2B => dec3 (fun _ _ _ => .brk) decZ decZ decZ r
  | 0x2C => dec3 (fun d _ b => .crrd d b) decSDst decZ decCReg r
  | 0x2D => dec3 (fun _ _ b => .setm b) decZ decZ decSSrc r
  | 0x2E => dec3 (fun _ a b => .setmf a b) decZ decKField decSSrc r
  | 0x2F => dec3 (fun d _ _ => .getm d) decSDst decZ decZ r
  | 0x30 => dec3 .pand decFin8 decPSel decPSel r
  | 0x31 => dec3 .por decFin8 decPSel decPSel r
  | 0x32 => dec3 .pxor decFin8 decPSel decPSel r
  | 0x33 => dec3 .pandn decFin8 decPSel decPSel r
  | 0x34 => dec3 (fun d a _ => .pfroms d a) decFin8 decSSrc decZ r
  | 0x35 => dec3 (fun d a _ => .ptos d a) decSDst decPSel decZ r
  | 0x36 => dec3 (fun d _ _ => .maskrd d) decSDst decZ decZ r
  | 0x40 => dec3 .addv decVDst decVSrc decVSrc r
  | 0x41 => dec3 .subv decVDst decVSrc decVSrc r
  | 0x42 => dec3 .mulv decVDst decVSrc decVSrc r
  | 0x43 => dec3 .mulhv decVDst decVSrc decVSrc r
  | 0x44 => dec3 .divv decVDst decVSrc decVSrc r
  | 0x45 => dec3 .remv decVDst decVSrc decVSrc r
  | 0x46 => dec3 .minv decVDst decVSrc decVSrc r
  | 0x47 => dec3 .maxv decVDst decVSrc decVSrc r
  | 0x48 => dec3 (fun d a _ => .absv d a) decVDst decVSrc decZ r
  | 0x49 => dec3 (fun d a _ => .negv d a) decVDst decVSrc decZ r
  | 0x4A => dec3 .madv decVReg decVSrc decVSrc r
  | 0x4B => dec3 .msubv decVReg decVSrc decVSrc r
  | 0x4C => dec3 .andv decVDst decVSrc decVSrc r
  | 0x4D => dec3 .orv decVDst decVSrc decVSrc r
  | 0x4E => dec3 .xorv decVDst decVSrc decVSrc r
  | 0x4F => dec3 .andnv decVDst decVSrc decVSrc r
  | 0x50 => dec3 (fun d a _ => .notv d a) decVDst decVSrc decZ r
  | 0x51 => dec3 .shlv decVDst decVSrc decVSrc r
  | 0x52 => dec3 .shrv decVDst decVSrc decVSrc r
  | 0x53 => dec3 .srav decVDst decVSrc decVSrc r
  | 0x54 => dec3 .rolv decVDst decVSrc decVSrc r
  | 0x55 => dec3 (fun d a _ => .clzv d a) decVDst decVSrc decZ r
  | 0x56 => dec3 (fun d a _ => .popcv d a) decVDst decVSrc decZ r
  | 0x57 => dec3 (fun d a _ => .movv d a) decVDst decVSrc decZ r
  | 0x58 => dec3 .bfxv decVDst decVSrc decVSrc r
  | 0x59 => dec3 .dot4v decVReg decVSrc decVSrc r
  | 0x5A => dec3 .dot2v decVReg decVSrc decVSrc r
  | 0x5B => dec3 .avgv decVDst decVSrc decVSrc r
  | 0x60 => dec3 (fun d a _ => .sqrtv d a) decVDst decVSrc decZ r
  | 0x61 => dec3 (fun d a _ => .rcpv d a) decVDst decVSrc decZ r
  | 0x62 => dec3 (fun d a _ => .rsqv d a) decVDst decVSrc decZ r
  | 0x63 => dec3 (fun d a _ => .exp2v d a) decVDst decVSrc decZ r
  | 0x64 => dec3 (fun d a _ => .log2v d a) decVDst decVSrc decZ r
  | 0x65 => dec3 (fun d a _ => .sinv d a) decVDst decVSrc decZ r
  | 0x66 => dec3 (fun d a _ => .cosv d a) decVDst decVSrc decZ r
  | 0x67 => dec3 (fun d a _ => .tanhv d a) decVDst decVSrc decZ r
  | 0x68 => dec3 (fun d a _ => .floorv d a) decVDst decVSrc decZ r
  | 0x69 => dec3 (fun d a _ => .ceilv d a) decVDst decVSrc decZ r
  | 0x6A => dec3 (fun d a _ => .truncv d a) decVDst decVSrc decZ r
  | 0x6B => dec3 (fun d a _ => .rintv d a) decVDst decVSrc decZ r
  | 0x6C => dec3 (fun d a _ => .fracv d a) decVDst decVSrc decZ r
  | 0x6D => dec3 .copysv decVDst decVSrc decVSrc r
  | 0x6E => dec3 (fun d a _ => .classv d a) decVDst decVSrc decZ r
  | 0x6F => dec3 .scalbv decVDst decVSrc decVSrc r
  | 0x80 => dec3 .cvtv decVDst decVSrc decKType r
  | 0x81 => dec3 .packsxv decVDst decVSrc decKSx r
  | 0x82 => dec3 .unpksxv decVDst decVSrc decKSx r
  | 0x83 => dec3 .cmpeqv decFin8 decVSrc decVSrc r
  | 0x84 => dec3 .cmpnev decFin8 decVSrc decVSrc r
  | 0x85 => dec3 .cmpltv decFin8 decVSrc decVSrc r
  | 0x86 => dec3 .cmplev decFin8 decVSrc decVSrc r
  | 0x87 => dec3 .cmpgtv decFin8 decVSrc decVSrc r
  | 0x88 => dec3 .cmpgev decFin8 decVSrc decVSrc r
  | 0x89 => dec3 .cmpunv decFin8 decVSrc decVSrc r
  | 0x8A => dec3 .selv decVDst decVSrc decVSrc r
  | 0x8B => dec3 .shflv decVDst decVSrc decVSrc r
  | 0x8C => dec3 .shupv decVDst decVSrc decVSrc r
  | 0x8D => dec3 .shdnv decVDst decVSrc decVSrc r
  | 0x8E => dec3 .shxrv decVDst decVSrc decVSrc r
  | 0x8F => dec3 .bcastv decVDst decVSrc decVSrc r
  | 0x90 => dec3 (fun d a _ => .voteall d a) decFin8 decPSel decZ r
  | 0x91 => dec3 (fun d a _ => .voteany d a) decFin8 decPSel decZ r
  | 0x92 => dec3 (fun d a _ => .ballot d a) decSDst decPSel decZ r
  | 0x93 => dec3 (fun d a _ => .redaddv d a) decSDst decVSrc decZ r
  | 0x94 => dec3 (fun d a _ => .redminv d a) decSDst decVSrc decZ r
  | 0x95 => dec3 (fun d a _ => .redmaxv d a) decSDst decVSrc decZ r
  | 0x96 => dec3 (fun d a _ => .redandv d a) decSDst decVSrc decZ r
  | 0x97 => dec3 (fun d a _ => .redorv d a) decSDst decVSrc decZ r
  | 0x98 => dec3 (fun d a _ => .scanv d a) decVDst decVSrc decZ r
  | 0x99 => dec3 (fun d a _ => .movsv d a) decVDst decSSrc decZ r
  | 0x9A => dec3 .movvs decSDst decVSrc decSSrc r
  | 0x9B => dec3 (fun d _ _ => .firstl d) decSDst decZ decZ r
  | 0xA0 => dec3 .ldv decVDst decVPair decSSrc r
  | 0xA1 => dec3 .stv decVReg decVPair decSSrc r
  | 0xA2 => dec3 .lds decSDst decSSrc decSSrc r
  | 0xA3 => dec3 .sts decSReg decSSrc decSSrc r
  | 0xA4 => dec3 .ldvb decVDst decSSrc decSSrc r
  | 0xA5 => dec3 .stvb decVReg decSSrc decSSrc r
  | 0xA6 => dec3 (fun _ a b => .pref a b) decZ decSSrc decSSrc r
  | 0xA8 => dec3 .aadd decVDst decVPair decVSrc r
  | 0xA9 => dec3 .amin decVDst decVPair decVSrc r
  | 0xAA => dec3 .amax decVDst decVPair decVSrc r
  | 0xAB => dec3 .aand decVDst decVPair decVSrc r
  | 0xAC => dec3 .aor decVDst decVPair decVSrc r
  | 0xAD => dec3 .axor decVDst decVPair decVSrc r
  | 0xAE => dec3 .axchg decVDst decVPair decVSrc r
  | 0xAF => dec3 .aincw decVDst decVPair decVSrc r
  | 0xB0 => dec3 .adecw decVDst decVPair decVSrc r
  | 0xB1 => dec3 .cas decVReg decVPair decVSrc r
  | 0xB2 => dec3 .cas128 decVQuad decVPair decVQuad r
  | 0xB3 => dec3 .aadds decSDst decSSrc decSSrc r
  | 0xB4 => dec3 .cass decSReg decSSrc decSSrc r
  | 0xB5 => dec3 (fun _ _ b => .fence b) decZ decZ decFence r
  | 0xB6 => dec3 .waita decSpace decSSrc decSSrc r
  | 0xB7 => dec3 (fun _ _ b => .drain b) decZ decZ decDrain r
  | 0xB8 => dec3 (fun _ a b => .rdadd a b) decZ decVPair decVSrc r
  | 0xB9 => dec3 (fun _ a b => .rdmin a b) decZ decVPair decVSrc r
  | 0xBA => dec3 (fun _ a b => .rdmax a b) decZ decVPair decVSrc r
  | 0xBB => dec3 (fun _ a b => .rdand a b) decZ decVPair decVSrc r
  | 0xBC => dec3 (fun _ a b => .rdor a b) decZ decVPair decVSrc r
  | 0xBD => dec3 (fun _ a b => .rdxor a b) decZ decVPair decVSrc r
  | 0xC0 => dec3 .ldp decVDst decVSrc decSSrc r
  | 0xC1 => dec3 .stp decVReg decVSrc decSSrc r
  | 0xC2 => dec3 .ldc decVDst decVSrc decSSrc r
  | 0xC3 => dec3 .stc decVReg decVSrc decSSrc r
  | 0xC4 => dec3 .ldk decVDst decVSrc decSSrc r
  | 0xC5 => dec3 .stk decVReg decVSrc decSSrc r
  | 0xC6 => dec3 .ldl decVDst decVSrc decSSrc r
  | 0xC7 => dec3 .stl decVReg decVSrc decSSrc r
  | 0xC8 => dec3 .aaddc decVDst decVSrc decVSrc r
  | 0xC9 => dec3 .casc decVReg decVSrc decVSrc r
  | 0xCA => if r.d = 0 then dec3 (fun _ a b => .townGive a b) (decIs 0) decSSrc decSSrc r
    else dec3 (fun _ a b => .townTake a b) (decIs 1) decSSrc decSSrc r
  | 0xCB => dec3 .twait decSDst decSSrc decSSrc r
  | 0xCC => dec3 (fun d a _ => .barv d a) decSDst decSSrc decZ r
  | 0xCD => dec3 (fun _ a b => .barw a b) decZ decSSrc decSSrc r
  | 0xCE => dec3 .ldps decSDst decSSrc decSSrc r
  | 0xCF => dec3 .stps decSReg decSSrc decSSrc r
  | 0xD0 => dec3 .mma decFin8 decSSrc decSQuad r
  | 0xD1 => dec3 (fun d _ _ => .mmz d) decFin8 decZ decZ r
  | 0xD2 => dec3 .mmd decFin8 decSSrc decKFlag r
  | 0xD3 => dec3 .wload decFin16 decSSrc decK r
  | 0xD4 => dec3 (fun _ _ _ => .mmsync) decZ decZ decZ r
  | 0xE0 => dec3 (fun d a _ => .wbind d a) decFin16 decSSrc decZ r
  | 0xE1 => dec3 (fun _ _ b => .wtouch b) decZ decZ decFin16 r
  | 0xE2 => dec3 (fun _ _ b => .wunbind b) decZ decZ decFin16 r
  | 0xE3 => dec3 (fun _ a _ => .gather a) decZ decSSrc decZ r
  | 0xE4 => dec3 (fun _ a b => .spawn a b) decZ decSSrc decSSrc r
  | 0xE5 => dec3 .dcinit decSReg decSSrc decSSrc r
  | 0xE6 => dec3 .dctake decSDst decSSrc decSSrc r
  | 0xE7 => dec3 .dcgive decSDst decSSrc decSSrc r
  | 0xE8 => dec3 (fun d a _ => .dcread d a) decSPair decSSrc decZ r
  | 0xE9 => dec3 (fun d a _ => .dcreadx d a) decSDst decSSrc decZ r
  | 0xEA => dec3 (fun d a _ => .dcdrop d a) decSDst decSSrc decZ r
  | 0xEB => dec3 (fun d a _ => .objdecl d a) decSDst decSSrc decZ r
  | 0xEC => dec3 (fun _ a _ => .objdrop a) decZ decSSrc decZ r
  | 0xED => dec3 (fun d _ b => .wstat d b) decSDst decZ decFin16 r
  | 0xF0 => dec3 (fun _ a b => .crwr a b) decZ decCReg decSSrc r
  | 0xF1 => dec3 (fun d a _ => .carve d a) decSDst decSSrc decZ r
  | 0xF2 => dec3 (fun _ _ _ => .tret) decZ decZ decZ r
  | 0xF3 => dec3 (fun _ a b => .tlbinv a b) decZ decSSrc decKFlag r
  | 0xF4 => dec3 (fun _ a b => .icinv a b) decZ decSSrc decKFlag r
  | _ => .error .reservedOpcode

/-- The last checks of a decoded word: at most one field takes the literal or IMM16, and a Bintodal word whose IMM16 no
field takes holds zero there (R84, R93). Opcode 0x00 is checked no further (R89). -/
def checkExt (r : RawWord) (i : Instr) : Except DecodeError Instr :=
  if r.opc = 0 then .ok i else
  match i.operands with
  | none => .error .reservedOpcode
  | some o =>
    if o.a.isExt && o.b.isExt then .error .twoLiterals
    else match r.form with
      | .quadiner => .ok i
      | .bintodal => if !(o.a.isExt || o.b.isExt) && r.ext != 0#32 then .error .strayImm16 else .ok i

/-- Decode the fields of a word. -/
def decodeRaw (r : RawWord) : Except DecodeError Instr :=
  match decodeFields r with
  | .error e => .error e
  | .ok i => checkExt r i

/-- The fields of the 32 bits that hold opcode, D, A and B (R78, and the high half of R92). -/
def rawOf (form : CodeForm) (w : Nat) (ext : Word) : RawWord :=
  ⟨form, w / 0x1000000 % 0x100, w / 0x10000 % 0x100, w / 0x100 % 0x100, w % 0x100, ext⟩

/-- A Quadiner instruction from its word and the word after it, which is its literal word if it has one (R78). -/
def decodeQuadiner (w lit : Word) : Except DecodeError Instr := decodeRaw (rawOf .quadiner w.toNat lit)

/-- A Bintodal instruction from its word (R92). -/
def decodeBintodal (w : Dword) : Except DecodeError Instr :=
  decodeRaw (rawOf .bintodal (w.toNat / 0x100000000) (BitVec.ofNat 32 (w.toNat % 0x10000)))

/-- The MODE fields that a Bintodal word carries, bits [31:16] (R92). -/
def bintodalMode (w : Dword) : Half := w.extractLsb' 16 16

/-- Decode the first instruction of a byte list in the given form, and the bytes after it. -/
def decodeBytes (form : CodeForm) (bs : List Byte) : Except DecodeError (Instr × List Byte) :=
  match form with
  | .quadiner =>
    if bs.length < 4 then .error .truncated else
    let w := BitVec.ofNat 32 (leNat (bs.take 4))
    if wordHasLiteral w && bs.length < 8 then .error .truncated else
    let n := if wordHasLiteral w then 8 else 4
    match decodeQuadiner w (BitVec.ofNat 32 (leNat ((bs.drop 4).take 4))) with
    | .error e => .error e
    | .ok i => .ok (i, bs.drop n)
  | .bintodal =>
    if bs.length < 8 then .error .truncated else
    match decodeBintodal (BitVec.ofNat 64 (leNat (bs.take 8))) with
    | .error e => .error e
    | .ok i => .ok (i, bs.drop 8)

/-- The instruction that the decoder reads from a Quadiner instruction whose bits are `w`, the bits above `nbits`
zero: the words are laid out in memory order and decoded from there. -/
def decodeTableWord (nbits w : Nat) : Option Instr :=
  match decodeBytes .quadiner (leBytes 8 (w % 2 ^ nbits)) with
  | .ok (i, _) => some i
  | .error _ => none

/-- The code of a scalar source (R81). -/
def SSrc.code : SSrc → Nat
  | .reg r => r.val
  | .latch k => 0x80 + k.val
  | .zero => 0x88
  | .wave => 0x8A
  | .core => 0x8C
  | .inl n => 0x90 + n.val
  | .fconst n => 0xE0 + n.val
  | .lit _ => 0xFF
  | .imm _ => 0xFF

/-- The code of a vector source (R81). -/
def VSrc.code : VSrc → Nat
  | .reg r => r.val
  | .latch k => 0x80 + k.val
  | .zero => 0x88
  | .lane => 0x89
  | .wave => 0x8A
  | .plane => 0x8B
  | .core => 0x8C
  | .inl n => 0x90 + n.val
  | .fconst n => 0xE0 + n.val
  | .lit _ => 0xFF
  | .imm _ => 0xFF

/-- The value of a D, A or B field (R80, R81, R157, R188, R246). -/
def Field.code : Field → Nat
  | .z => 0
  | .raw n => n.toNat
  | .sd (.reg r) => r.val
  | .sd .nw => 0x80
  | .vd (.reg r) => r.val
  | .vd .nw => 0x80
  | .vr r => r.val
  | .vs r => r.val
  | .sr r => r.val
  | .ss r => r.val
  | .sp q => 2 * q.val
  | .vq q => 4 * q.val
  | .sq q => 4 * q.val
  | .va q => 2 * q.val
  | .pd q => q.val
  | .td t => t.val
  | .s x => x.code
  | .v x => x.code
  | .p x => x.p.val + (if x.neg then 8 else 0)
  | .k n => 0x90 + n.val
  | .c n => n.toNat

/-- The literal word or IMM16 that a field takes, if it takes one. -/
def Field.ext : Field → Option Word
  | .s (.lit w) => some w
  | .v (.lit w) => some w
  | .s (.imm w) => some (w.setWidth 32)
  | .v (.imm w) => some (w.setWidth 32)
  | _ => none

/-- The literal word or IMM16 of an instruction's operands. -/
def Operands.ext (o : Operands) : Option Word :=
  match o.a.ext with
  | some w => some w
  | none => o.b.ext

/-- The opcode of an encoded instruction (R87); a device event has no word, and 0 stands here for it. -/
def Instr.opc : Instr → Nat
  | .trapz _ _ _ => 0x00
  | .nop => 0x01
  | .adds _ _ _ => 0x02
  | .subs _ _ _ => 0x03
  | .muls _ _ _ => 0x04
  | .mulhs _ _ _ => 0x05
  | .divs _ _ _ => 0x06
  | .rems _ _ _ => 0x07
  | .ands _ _ _ => 0x08
  | .ors _ _ _ => 0x09
  | .xors _ _ _ => 0x0A
  | .andns _ _ _ => 0x0B
  | .shls _ _ _ => 0x0C
  | .shrs _ _ _ => 0x0D
  | .sras _ _ _ => 0x0E
  | .rols _ _ _ => 0x0F
  | .mins _ _ _ => 0x10
  | .maxs _ _ _ => 0x11
  | .movs _ _ => 0x12
  | .nots _ _ => 0x13
  | .negs _ _ => 0x14
  | .clzs _ _ => 0x15
  | .popcs _ _ => 0x16
  | .seqs _ _ _ => 0x17
  | .snes _ _ _ => 0x18
  | .slts _ _ _ => 0x19
  | .sles _ _ _ => 0x1A
  | .leas _ _ _ => 0x1B
  | .bfxs _ _ _ => 0x1C
  | .br _ _ => 0x20
  | .brz _ _ => 0x21
  | .brnz _ _ => 0x22
  | .call _ _ => 0x23
  | .ret _ => 0x24
  | .rejoin _ => 0x25
  | .exit => 0x26
  | .yield => 0x27
  | .plset _ => 0x28
  | .plget _ => 0x29
  | .trap _ => 0x2A
  | .brk => 0x2B
  | .crrd _ _ => 0x2C
  | .setm _ => 0x2D
  | .setmf _ _ => 0x2E
  | .getm _ => 0x2F
  | .pand _ _ _ => 0x30
  | .por _ _ _ => 0x31
  | .pxor _ _ _ => 0x32
  | .pandn _ _ _ => 0x33
  | .pfroms _ _ => 0x34
  | .ptos _ _ => 0x35
  | .maskrd _ => 0x36
  | .addv _ _ _ => 0x40
  | .subv _ _ _ => 0x41
  | .mulv _ _ _ => 0x42
  | .mulhv _ _ _ => 0x43
  | .divv _ _ _ => 0x44
  | .remv _ _ _ => 0x45
  | .minv _ _ _ => 0x46
  | .maxv _ _ _ => 0x47
  | .absv _ _ => 0x48
  | .negv _ _ => 0x49
  | .madv _ _ _ => 0x4A
  | .msubv _ _ _ => 0x4B
  | .andv _ _ _ => 0x4C
  | .orv _ _ _ => 0x4D
  | .xorv _ _ _ => 0x4E
  | .andnv _ _ _ => 0x4F
  | .notv _ _ => 0x50
  | .shlv _ _ _ => 0x51
  | .shrv _ _ _ => 0x52
  | .srav _ _ _ => 0x53
  | .rolv _ _ _ => 0x54
  | .clzv _ _ => 0x55
  | .popcv _ _ => 0x56
  | .movv _ _ => 0x57
  | .bfxv _ _ _ => 0x58
  | .dot4v _ _ _ => 0x59
  | .dot2v _ _ _ => 0x5A
  | .avgv _ _ _ => 0x5B
  | .sqrtv _ _ => 0x60
  | .rcpv _ _ => 0x61
  | .rsqv _ _ => 0x62
  | .exp2v _ _ => 0x63
  | .log2v _ _ => 0x64
  | .sinv _ _ => 0x65
  | .cosv _ _ => 0x66
  | .tanhv _ _ => 0x67
  | .floorv _ _ => 0x68
  | .ceilv _ _ => 0x69
  | .truncv _ _ => 0x6A
  | .rintv _ _ => 0x6B
  | .fracv _ _ => 0x6C
  | .copysv _ _ _ => 0x6D
  | .classv _ _ => 0x6E
  | .scalbv _ _ _ => 0x6F
  | .cvtv _ _ _ => 0x80
  | .packsxv _ _ _ => 0x81
  | .unpksxv _ _ _ => 0x82
  | .cmpeqv _ _ _ => 0x83
  | .cmpnev _ _ _ => 0x84
  | .cmpltv _ _ _ => 0x85
  | .cmplev _ _ _ => 0x86
  | .cmpgtv _ _ _ => 0x87
  | .cmpgev _ _ _ => 0x88
  | .cmpunv _ _ _ => 0x89
  | .selv _ _ _ => 0x8A
  | .shflv _ _ _ => 0x8B
  | .shupv _ _ _ => 0x8C
  | .shdnv _ _ _ => 0x8D
  | .shxrv _ _ _ => 0x8E
  | .bcastv _ _ _ => 0x8F
  | .voteall _ _ => 0x90
  | .voteany _ _ => 0x91
  | .ballot _ _ => 0x92
  | .redaddv _ _ => 0x93
  | .redminv _ _ => 0x94
  | .redmaxv _ _ => 0x95
  | .redandv _ _ => 0x96
  | .redorv _ _ => 0x97
  | .scanv _ _ => 0x98
  | .movsv _ _ => 0x99
  | .movvs _ _ _ => 0x9A
  | .firstl _ => 0x9B
  | .ldv _ _ _ => 0xA0
  | .stv _ _ _ => 0xA1
  | .lds _ _ _ => 0xA2
  | .sts _ _ _ => 0xA3
  | .ldvb _ _ _ => 0xA4
  | .stvb _ _ _ => 0xA5
  | .pref _ _ => 0xA6
  | .aadd _ _ _ => 0xA8
  | .amin _ _ _ => 0xA9
  | .amax _ _ _ => 0xAA
  | .aand _ _ _ => 0xAB
  | .aor _ _ _ => 0xAC
  | .axor _ _ _ => 0xAD
  | .axchg _ _ _ => 0xAE
  | .aincw _ _ _ => 0xAF
  | .adecw _ _ _ => 0xB0
  | .cas _ _ _ => 0xB1
  | .cas128 _ _ _ => 0xB2
  | .aadds _ _ _ => 0xB3
  | .cass _ _ _ => 0xB4
  | .fence _ => 0xB5
  | .waita _ _ _ => 0xB6
  | .drain _ => 0xB7
  | .rdadd _ _ => 0xB8
  | .rdmin _ _ => 0xB9
  | .rdmax _ _ => 0xBA
  | .rdand _ _ => 0xBB
  | .rdor _ _ => 0xBC
  | .rdxor _ _ => 0xBD
  | .ldp _ _ _ => 0xC0
  | .stp _ _ _ => 0xC1
  | .ldc _ _ _ => 0xC2
  | .stc _ _ _ => 0xC3
  | .ldk _ _ _ => 0xC4
  | .stk _ _ _ => 0xC5
  | .ldl _ _ _ => 0xC6
  | .stl _ _ _ => 0xC7
  | .aaddc _ _ _ => 0xC8
  | .casc _ _ _ => 0xC9
  | .townGive _ _ => 0xCA
  | .townTake _ _ => 0xCA
  | .twait _ _ _ => 0xCB
  | .barv _ _ => 0xCC
  | .barw _ _ => 0xCD
  | .ldps _ _ _ => 0xCE
  | .stps _ _ _ => 0xCF
  | .mma _ _ _ => 0xD0
  | .mmz _ => 0xD1
  | .mmd _ _ _ => 0xD2
  | .wload _ _ _ => 0xD3
  | .mmsync => 0xD4
  | .wbind _ _ => 0xE0
  | .wtouch _ => 0xE1
  | .wunbind _ => 0xE2
  | .gather _ => 0xE3
  | .spawn _ _ => 0xE4
  | .dcinit _ _ _ => 0xE5
  | .dctake _ _ _ => 0xE6
  | .dcgive _ _ _ => 0xE7
  | .dcread _ _ => 0xE8
  | .dcreadx _ _ => 0xE9
  | .dcdrop _ _ => 0xEA
  | .objdecl _ _ => 0xEB
  | .objdrop _ => 0xEC
  | .wstat _ _ => 0xED
  | .crwr _ _ => 0xF0
  | .carve _ _ => 0xF1
  | .tret => 0xF2
  | .tlbinv _ _ => 0xF3
  | .icinv _ _ => 0xF4
  | .splitRotation _ => 0
  | .loadDataReturn _ _ => 0
  | .waveExchange _ _ => 0
  | .waitaPeriodicWake _ => 0
  | .drainComplete _ => 0
  | .waveEnd _ => 0
  | .mmaExecute _ => 0
  | .mmzExecute _ => 0
  | .mmdExecute _ => 0
  | .wloadExecute _ => 0
  | .copyComplete _ _ => 0
  | .copyAbandon _ _ => 0
  | .gatherComplete _ => 0
  | .gatherAbandon _ => 0
  | .spawnBinTimer _ _ => 0
  | .spawnWaveStart _ _ => 0
  | .decantReq _ _ _ _ => 0
  | .decantGiveMsg _ _ _ _ => 0
  | .decantReturn _ _ _ => 0
  | .decantAnswer _ _ _ => 0
  | .decantReadAtHome _ _ _ _ => 0
  | .decantRecall _ _ => 0
  | .decantGrant _ _ _ => 0
  | .decantServe _ _ _ => 0
  | .decantStatusReply _ _ _ _ _ _ => 0
  | .decantCdieLoss _ => 0
  | .wr _ _ => 0
  | .pack _ _ _ => 0
  | .inv _ _ _ => 0
  | .iack _ _ => 0
  | .gets _ _ _ => 0
  | .getx _ _ _ => 0
  | .fwd _ _ _ _ => 0
  | .data _ _ _ _ _ => 0
  | .wb _ _ => 0
  | .xpub _ _ _ => 0
  | .xinv _ _ => 0
  | .xack _ _ => 0
  | .xdone _ _ _ => 0
  | .fpub _ _ _ _ => 0
  | .fack _ _ _ _ => 0
  | .rebase _ _ => 0
  | .icacheFill _ _ _ _ => 0
  | .launchFrame _ _ => 0
  | .managementFrame _ _ => 0
  | .waitWordPoll _ _ => 0
  | .queueReserving _ _ => 0
  | .launchDrain _ => 0
  | .translationRequest _ _ _ _ => 0
  | .translationJobDone _ _ _ => 0
  | .handlerPreemptTimeout _ => 0
  | .coreRetire _ _ => 0
  | .elementFailure _ => 0
  | .routeRewrite _ => 0
  | .elementRetire _ => 0
  | .retirePowerDown _ => 0
  | .retransmitTimeout _ _ => 0
  | .replayFilterArrival _ _ _ _ => 0
  | .rdmaWrite _ _ _ _ => 0
  | .rdmaRead _ _ _ _ => 0
  | .atomicCompareSwap _ _ _ _ _ => 0
  | .atomicFetchAdd _ _ _ _ => 0
  | .roceUnsupportedRequest _ => 0
  | .neighbourResolution _ => 0
  | .ethernetFrameDrop _ => 0
  | .dramScrub _ _ _ => 0
  | .smcHeartbeat _ _ => 0
  | .dieLost _ => 0
  | .rebuildDone _ => 0
  | .thermalLimit _ _ => 0
  | .thermalRecover _ _ => 0
  | .powerSample _ => 0
  | .powerOn => 0
  | .packageReset => 0
  | .mgmtCreateContext _ _ _ _ _ _ _ => 0
  | .mgmtDestroyContext _ => 0
  | .mgmtPreempt _ => 0
  | .mgmtResume _ _ => 0
  | .mgmtSetKeys _ _ _ => 0
  | .mgmtFeatureMask _ _ => 0
  | .mgmtQueueQuanta _ _ _ => 0
  | .mgmtMemoryRegion _ _ => 0
  | .mgmtUnregisterCodeObject _ _ => 0
  | .mgmtPowerCap _ => 0
  | .mgmtWarmReset _ => 0
  | .mgmtReadDrydown _ _ _ _ => 0
  | .mgmtAttest _ _ => 0
  | .mgmtRaiseSvn _ => 0
  | .mgmtWriteSillage _ _ => 0
  | .mgmtWriteTrapvec _ _ => 0
  | .mgmtWriteSpawntmr _ _ => 0
  | .mgmtWriteCtxmode _ _ => 0
  | .mgmtWriteCring _ _ => 0
  | .mgmtBindNoticeQp _ _ => 0
  | .dieWarmReset _ => 0
  | .warmResetStepDone _ => 0
  | .invalidationComplete _ => 0
  | .powerRemoval => 0
  | .roceAcknowledgement _ _ => 0
  | .priorityFlowControl _ _ => 0

/-- The 32 bits of opcode, D, A and B (R78). -/
def packWord (opc : Nat) (o : Operands) : Nat :=
  opc * 0x1000000 + o.d.code * 0x10000 + o.a.code * 0x100 + o.b.code

/-- The Quadiner word of an instruction and its literal word, if it has one (R78). -/
def encodeQuadiner (i : Instr) : Option (Word × Option Word) :=
  match i.operands with
  | none => none
  | some o => some (BitVec.ofNat 32 (packWord i.opc o), o.ext)

/-- The Bintodal word of an instruction with the MODE fields it carries (R92). -/
def encodeBintodal (mode : Half) (i : Instr) : Option Dword :=
  match i.operands with
  | none => none
  | some o =>
    some (BitVec.ofNat 64 (packWord i.opc o * 0x100000000 + mode.toNat * 0x10000 + (o.ext.getD 0#32).toNat % 0x10000))

/-- The bytes of an instruction in memory order (R78, R92). -/
def encode (form : CodeForm) (mode : Half) (i : Instr) : Option (List Byte) :=
  match form with
  | .quadiner => (encodeQuadiner i).map
      (fun p => leBytes 4 p.1.toNat ++ (match p.2 with | some l => leBytes 4 l.toNat | none => []))
  | .bintodal => (encodeBintodal mode i).map (fun w => leBytes 8 w.toNat)

end Sys2Proof
end

