-- ==== Sys2Proof/Machine/Num.lean ====
section
/-! DEFINITION. Number formats and arithmetic (02_number_formats.md): integers of a type, the floating formats as
exact dyadic values with one rounding, and the shared-exponent blocks. -/
namespace Sys2Proof.Machine

/-! Integers (R53 to R58). -/

/-- The width in bits of an element of the type (R53); a lane word for the SX codes (R138). -/
def etWidth : EType → Nat
  | .int32 => 32 | .uint32 => 32 | .int64 => 64 | .uint64 => 64 | .int16 => 16 | .uint16 => 16 | .int8 => 8
  | .uint8 => 8 | .f32 => 32 | .bf16 => 16 | .f16 => 16 | .e4m3 => 8 | .e5m2 => 8 | .sx8 => 32 | .sx5 => 32
  | .sx3 => 32

/-- The signed integer types (R53). -/
def etSigned : EType → Bool
  | .int32 => true | .int64 => true | .int16 => true | .int8 => true | _ => false

/-- The integer types, codes 0x0 to 0x7. -/
def etIsInt : EType → Bool
  | .int32 => true | .uint32 => true | .int64 => true | .uint64 => true | .int16 => true | .uint16 => true
  | .int8 => true | .uint8 => true | _ => false

/-- The arithmetic floating types f32, bf16 and f16 (class F of R138). -/
def etIsF : EType → Bool
  | .f32 => true | .bf16 => true | .f16 => true | _ => false

/-- The 64-bit types, which occupy register pairs (R17). -/
def etIs64 : EType → Bool
  | .int64 => true | .uint64 => true | _ => false

/-- The type of a code of MODE.ETYPE (R53). -/
def etOfCode (c : Nat) : EType :=
  match c % 16 with
  | 0 => .int32 | 1 => .uint32 | 2 => .int64 | 3 => .uint64 | 4 => .int16 | 5 => .uint16 | 6 => .int8 | 7 => .uint8
  | 8 => .f32 | 9 => .bf16 | 10 => .f16 | 11 => .e4m3 | 12 => .e5m2 | 13 => .sx8 | 14 => .sx5 | _ => .sx3

/-- The value of the low bits of `v` under an integer type. -/
def intVal (t : EType) (v : Nat) : Int :=
  let n := etWidth t
  let u := v % 2 ^ n
  if etSigned t && u ≥ 2 ^ (n - 1) then (u : Int) - 2 ^ n else u

/-- The least and the greatest value of an integer type (R55). -/
def intMin (t : EType) : Int := if etSigned t then -(2 ^ (etWidth t - 1)) else 0
/-- See `intMin`. -/
def intMax (t : EType) : Int := if etSigned t then 2 ^ (etWidth t - 1) - 1 else 2 ^ etWidth t - 1

/-- The n bits of an integer, modulo 2^n. -/
def wrapBits (n : Nat) (r : Int) : Nat := (r % 2 ^ n).toNat

/-- The exact result made to fit the type, modulo 2^n or to the nearer bound (R56, R58). -/
def fitInt (t : EType) (sat : Bool) (r : Int) : Nat :=
  wrapBits (etWidth t) (if sat then max (intMin t) (min (intMax t) r) else r)

/-- The n-bit result extended to 64 bits, by sign for signed types (R113). -/
def extend64 (t : EType) (v : Nat) : Dword := BitVec.ofInt 64 (intVal t v)

/-- Quotient and remainder of the types, with the special cases of R57. -/
def divInt (t : EType) (sat : Bool) (x y : Int) : Int :=
  if y = 0 then
    if etSigned t then (if x ≥ 0 then intMax t else intMin t) else intMax t
  else if etSigned t && x == intMin t && y == -1 then (if sat then intMax t else intMin t)
  else Int.tdiv x y
/-- See `divInt`. -/
def remInt (x y : Int) : Int := if y = 0 then x else Int.tmod x y

/-- Leading zero bits of an n-bit number. -/
def clzBits (n v : Nat) : Nat := if v % 2 ^ n = 0 then n else n - 1 - Nat.log2 (v % 2 ^ n)

/-- One bits among the low n bits. -/
def popBits : Nat → Nat → Nat
  | 0, _ => 0
  | n + 1, v => v % 2 + popBits n (v / 2)

/-- The bit field of R114 (BFXS): position and width from the control, bits above n-1 by sign. -/
def bitField (t : EType) (x : Int) (c : Nat) : Int :=
  let q := c % 64
  let w := c / 256 % 64 + 1
  let f := (x / 2 ^ q % 2 ^ w)
  if etSigned t && f ≥ 2 ^ (w - 1) then f - 2 ^ w else f

/-! Floating formats (R59 to R65). -/

/-- The rounding modes of MODE.ROUND (R63). -/
inductive RMode where
  | rne | rtz | rdn | rup
deriving DecidableEq, Repr

/-- The layout of a floating format: exponent and fraction bits; e4m3 has no infinity (R59, R60). -/
structure FFmt where
  exp : Nat
  frac : Nat
  noInf : Bool
deriving DecidableEq, Repr

/-- binary32. -/
def fmtF32 : FFmt := ⟨8, 23, false⟩
/-- The upper half of binary32. -/
def fmtBF16 : FFmt := ⟨8, 7, false⟩
/-- binary16. -/
def fmtF16 : FFmt := ⟨5, 10, false⟩
/-- The eight-bit float without infinity. -/
def fmtE4M3 : FFmt := ⟨4, 3, true⟩
/-- The eight-bit float with infinity. -/
def fmtE5M2 : FFmt := ⟨5, 2, false⟩

/-- The format of a floating type. -/
def etFmt : EType → Option FFmt
  | .f32 => some fmtF32 | .bf16 => some fmtBF16 | .f16 => some fmtF16 | .e4m3 => some fmtE4M3
  | .e5m2 => some fmtE5M2 | _ => none

/-- The exact value of a floating encoding: finite values are sign, magnitude m and exponent e of m x 2^e. -/
inductive FVal where
  | nan
  | inf (neg : Bool)
  | fin (neg : Bool) (m : Nat) (e : Int)
deriving DecidableEq, Repr

/-- The exponent bias. -/
def FFmt.bias (f : FFmt) : Int := 2 ^ (f.exp - 1) - 1
/-- The exponent of the least subnormal. -/
def FFmt.qmin (f : FFmt) : Int := 1 - f.bias - f.frac
/-- The sign bit's weight. -/
def FFmt.signBit (f : FFmt) : Nat := 2 ^ (f.exp + f.frac)
/-- The magnitude bits of infinity (all-ones exponent, fraction 0). -/
def FFmt.infBits (f : FFmt) : Nat := (2 ^ f.exp - 1) * 2 ^ f.frac
/-- The magnitude bits of the largest finite value (R59, R60). -/
def FFmt.maxBits (f : FFmt) : Nat := if f.noInf then f.infBits + 2 ^ f.frac - 2 else f.infBits - 1
/-- The canonical NaN (R60). -/
def FFmt.nanBits (f : FFmt) : Nat := if f.noInf then f.infBits + 2 ^ f.frac - 1 else f.infBits + 2 ^ (f.frac - 1)

/-- The value of an encoding (R59, R60). -/
def fDecode (f : FFmt) (bits : Nat) : FVal :=
  let neg := bits / f.signBit % 2 == 1
  let ef := bits / 2 ^ f.frac % 2 ^ f.exp
  let fr := bits % 2 ^ f.frac
  if f.noInf && ef == 2 ^ f.exp - 1 && fr == 2 ^ f.frac - 1 then .nan
  else if !f.noInf && ef == 2 ^ f.exp - 1 then (if fr = 0 then .inf neg else .nan)
  else if ef = 0 then .fin neg fr f.qmin
  else .fin neg (fr + 2 ^ f.frac) (f.qmin + ((ef : Int) - 1))

/-- Whether the truncated magnitude `q` is raised by one: `g` is the first bit dropped, `st` whether any bit after
it is 1 (R63). -/
def roundsUp (mode : RMode) (neg : Bool) (q : Nat) (g st : Bool) : Bool :=
  match mode with
  | .rne => g && (st || q % 2 == 1)
  | .rtz => false
  | .rdn => neg && (g || st)
  | .rup => !neg && (g || st)

/-- The magnitude `m` (and a little more when `st`) divided by 2^s and rounded to an integer. -/
def shiftRound (mode : RMode) (neg : Bool) (m s : Nat) (st : Bool) : Nat :=
  if s = 0 then m + (if roundsUp mode neg m false st then 1 else 0)
  else if s > Nat.log2 m + 2 then (if roundsUp mode neg 0 false (st || m != 0) then 1 else 0)
  else
    let q := m / 2 ^ s
    let g := m / 2 ^ (s - 1) % 2 == 1
    let low := m % 2 ^ (s - 1) != 0
    q + (if roundsUp mode neg q g (low || st) then 1 else 0)

/-- The magnitude bits of m x 2^e rounded once to the format, beyond `maxBits` on overflow. -/
def roundMag (f : FFmt) (mode : RMode) (neg : Bool) (m : Nat) (e : Int) (st : Bool) : Nat :=
  if m = 0 then (if roundsUp mode neg 0 false st then 1 else 0)
  else
    let qe := max f.qmin ((Nat.log2 m : Int) + e - f.frac)
    let r := if qe ≤ e then shiftRound mode neg (m * 2 ^ (e - qe).toNat) 0 st
             else shiftRound mode neg m (qe - e).toNat st
    (qe - f.qmin).toNat * 2 ^ f.frac + r

/-- Whether overflow goes to infinity rather than to the largest finite value (R67). -/
def overflowsToInf (mode : RMode) (neg : Bool) : Bool :=
  match mode with
  | .rne => true
  | .rtz => false
  | .rdn => neg
  | .rup => !neg

/-- An infinity in the format: NaN in e4m3, the largest finite value under saturation (R67). -/
def encodeInf (f : FFmt) (sat neg : Bool) : Nat :=
  if sat then (if neg then f.signBit else 0) + f.maxBits
  else if f.noInf then f.nanBits
  else (if neg then f.signBit else 0) + f.infBits

/-- A finite value rounded once to the format (R63, R67). -/
def encodeFin (f : FFmt) (mode : RMode) (sat neg : Bool) (m : Nat) (e : Int) (st : Bool) : Nat :=
  let b := roundMag f mode neg m e st
  let sgn := if neg then f.signBit else 0
  if b ≤ f.maxBits then sgn + b
  else if sat then sgn + f.maxBits
  else if overflowsToInf mode neg then encodeInf f false neg
  else sgn + f.maxBits

/-- A value, `st` telling of a magnitude a little above m x 2^e, rounded once to the format; every NaN is the
canonical one (R61). -/
def fEncode (f : FFmt) (mode : RMode) (sat : Bool) (v : FVal) (st : Bool := false) : Nat :=
  match v with
  | .nan => f.nanBits
  | .inf neg => encodeInf f sat neg
  | .fin neg m e => encodeFin f mode sat neg m e st

/-- The sign of a value (false for a NaN). -/
def FVal.neg : FVal → Bool
  | .nan => false | .inf n => n | .fin n _ _ => n

/-- The value with its sign replaced. -/
def FVal.withSign (v : FVal) (n : Bool) : FVal :=
  match v with
  | .nan => .nan | .inf _ => .inf n | .fin _ m e => .fin n m e

/-- A zero of either sign. -/
def FVal.isZero : FVal → Bool
  | .fin _ 0 _ => true | _ => false

/-- The value is a NaN. -/
def FVal.isNan : FVal → Bool
  | .nan => true | _ => false

/-- The value is an infinity. -/
def FVal.isInf : FVal → Bool
  | .inf _ => true | _ => false

/-- The signed integer m of a finite value scaled to 2^e' (e' at most its exponent). -/
def scaledTo (neg : Bool) (m : Nat) (e e' : Int) : Int :=
  (if neg then -1 else 1) * ((m : Int) * 2 ^ (e - e').toNat)

/-- The exact sum; an exact zero of operands of opposite sign is +0, or -0 under RDN (R64). -/
def fAdd (mode : RMode) (x y : FVal) : FVal :=
  match x, y with
  | .nan, _ => .nan
  | _, .nan => .nan
  | .inf a, .inf b => if a = b then .inf a else .nan
  | .inf a, .fin _ _ _ => .inf a
  | .fin _ _ _, .inf b => .inf b
  | .fin a m e, .fin b n d =>
    let q := min e d
    let r := scaledTo a m e q + scaledTo b n d q
    if r = 0 then .fin (if a = b then a else mode == .rdn) 0 q
    else .fin (r < 0) r.natAbs q

/-- The exact product; infinity times zero is NaN. -/
def fMul (x y : FVal) : FVal :=
  match x, y with
  | .nan, _ => .nan
  | _, .nan => .nan
  | .inf a, .inf b => .inf (a != b)
  | .inf a, .fin b m _ => if m = 0 then .nan else .inf (a != b)
  | .fin a m _, .inf b => if m = 0 then .nan else .inf (a != b)
  | .fin a m e, .fin b n d => .fin (a != b) (m * n) (e + d)

/-- The value with its sign inverted. -/
def fNeg (x : FVal) : FVal := x.withSign (!x.neg)

/-- The quotient to 80 bits and more, and whether the exact quotient is a little greater in magnitude (R141). -/
def fDiv (x y : FVal) : FVal × Bool :=
  match x, y with
  | .nan, _ => (.nan, false)
  | _, .nan => (.nan, false)
  | .inf _, .inf _ => (.nan, false)
  | .inf a, .fin b _ _ => (.inf (a != b), false)
  | .fin a _ _, .inf b => (.fin (a != b) 0 0, false)
  | .fin a m e, .fin b n d =>
    if n = 0 then (if m = 0 then .nan else .inf (a != b), false)
    else
      let k := 80 + Nat.log2 n
      (.fin (a != b) (m * 2 ^ k / n) (e - d - k), m * 2 ^ k % n != 0)

/-- Integer square root, bit by bit from bit `k`. -/
def isqrtFrom : Nat → Nat → Nat → Nat
  | 0, n, r => if (r + 1) * (r + 1) ≤ n then r + 1 else r
  | k + 1, n, r => isqrtFrom k n (if (r + 2 ^ (k + 1)) * (r + 2 ^ (k + 1)) ≤ n then r + 2 ^ (k + 1) else r)

/-- The integer square root. -/
def isqrt (n : Nat) : Nat := isqrtFrom (Nat.log2 n / 2 + 1) n 0

/-- The square root to 64 bits and more, and whether the exact root is a little greater (R142, R143). -/
def fSqrt (x : FVal) : FVal × Bool :=
  match x with
  | .nan => (.nan, false)
  | .inf n => (if n then .nan else .inf false, false)
  | .fin n m e =>
    if m = 0 then (.fin n 0 e, false)
    else if n then (.nan, false)
    else
      let odd := e % 2 == 1
      let m' := (if odd then 2 * m else m) * 2 ^ 160
      let e' := (if odd then e - 1 else e) - 160
      let r := isqrt m'
      (.fin false r (e' / 2), r * r != m')

/-- The order of two values, none if either is a NaN; zeros are equal. -/
def fCmp (x y : FVal) : Option Ordering :=
  match x, y with
  | .nan, _ => none
  | _, .nan => none
  | .inf a, .inf b => some (if a = b then .eq else if a then .lt else .gt)
  | .inf a, .fin _ _ _ => some (if a then .lt else .gt)
  | .fin _ _ _, .inf b => some (if b then .gt else .lt)
  | .fin a m e, .fin b n d =>
    let q := min e d
    some (compare (scaledTo a m e q) (scaledTo b n d q))

/-- The lesser value, -0 below +0; either NaN gives NaN (R141). -/
def fMin (x y : FVal) : FVal :=
  match fCmp x y with
  | none => .nan
  | some .lt => x
  | some .gt => y
  | some .eq => if x.neg then x else y

/-- The greater value, -0 below +0; either NaN gives NaN (R141). -/
def fMax (x y : FVal) : FVal :=
  match fCmp x y with
  | none => .nan
  | some .lt => y
  | some .gt => x
  | some .eq => if x.neg then y else x

/-- A value rounded to an integral value, keeping the sign of a zero (R141). -/
def fIntegral (mode : RMode) (x : FVal) : FVal :=
  match x with
  | .fin n m e => if e ≥ 0 || m = 0 then .fin n m e else .fin n (shiftRound mode n m (-e).toNat false) 0
  | v => v

/-- A finite value rounded to an integer (R68). -/
def fToInt (mode : RMode) (neg : Bool) (m : Nat) (e : Int) : Int :=
  let r : Nat := if e ≥ 0 then m * 2 ^ e.toNat else shiftRound mode neg m (-e).toNat false
  if neg then -(r : Int) else r

/-- An integer as a value. -/
def fOfInt (x : Int) : FVal := .fin (x < 0) x.natAbs 0

/-- Conversion from a floating value to an integer type (R68). -/
def cvtFloatInt (t : EType) (mode : RMode) (sat : Bool) (x : FVal) : Nat :=
  match x with
  | .nan => 0
  | .inf neg => if sat then wrapBits (etWidth t) (if neg then intMin t else intMax t) else 0
  | .fin n m e => fitInt t sat (fToInt mode n m e)

/-- The floating constants of R83 by code less 0xE0. -/
def fconstVal (n : Nat) : FVal :=
  match n with
  | 0 => .fin false 1 (-2) | 1 => .fin true 1 (-2) | 2 => .fin false 1 (-1) | 3 => .fin true 1 (-1)
  | 4 => .fin false 1 0 | 5 => .fin true 1 0 | 6 => .fin false 1 1 | 7 => .fin true 1 1
  | 8 => .fin false 1 2 | 9 => .fin true 1 2 | 10 => .fin false 1 3 | 11 => .fin true 1 3
  | 12 => .fin false 0 0 | 13 => .inf false | 14 => .inf true | _ => .nan

/-- The class mask of R141 (CLASSV). -/
def fClass (f : FFmt) (bits : Nat) : Nat :=
  match fDecode f bits with
  | .nan => 2 ^ 8
  | .inf n => if n then 2 ^ 0 else 2 ^ 7
  | .fin n m _ =>
    if m = 0 then (if n then 2 ^ 3 else 2 ^ 4)
    else if m < 2 ^ f.frac then (if n then 2 ^ 2 else 2 ^ 5)
    else (if n then 2 ^ 1 else 2 ^ 6)

/-! The SX family (R69 to R72). -/

/-- The magnitude width m of a member (R69). -/
def sxM : SxFmt → Nat
  | .sx8 => 7 | .sx5 => 4 | .sx3 => 2
/-- The block size in bytes (R69). -/
def sxSize : SxFmt → Nat
  | .sx8 => 18 | .sx5 => 12 | .sx3 => 8
/-- The member that an SX element type names. -/
def etSx : EType → Option SxFmt
  | .sx8 => some .sx8 | .sx5 => some .sx5 | .sx3 => some .sx3 | _ => none

/-- Element i of the block held in the bytes, byte 0 first (R70, R71). -/
def sxElem (f : SxFmt) (bs : List Byte) (i : Nat) : FVal :=
  let m := sxM f
  let ex := (bs.headD 0).toNat
  if ex = 0xFF then .nan
  else
    let sub := ((bs.drop 1).headD 0).toNat / 4 ^ (i / 4) % 4
    let c := leNat (bs.drop 2) / 2 ^ (i * (m + 1)) % 2 ^ (m + 1)
    .fin (c / 2 ^ m == 1) (c % 2 ^ m) ((ex : Int) - 127 - sub - (m - 1))

/-- round_int(x / 2^k) in magnitude (R72). -/
def sxRound (mode : RMode) (x : FVal) (k : Int) : Nat :=
  match x with
  | .fin n m e => if e ≥ k then m * 2 ^ (e - k).toNat else shiftRound mode n m (k - e).toNat false
  | _ => 0

/-- Sixteen values, each exact, as one SX block (R72). -/
def sxPack (f : SxFmt) (mode : RMode) (sat : Bool) (xs : List FVal) : List Byte :=
  let m := sxM f
  let top := 2 ^ m - 1
  if xs.any FVal.isNan || (!sat && xs.any FVal.isInf) then
    (0xFF : Byte) :: List.replicate (sxSize f - 1) 0
  else
    let ys := xs.map (fun x => match x with | .inf n => FVal.fin n (2 ^ 24 - 1) 104 | v => v)
    let lg : Int := ys.foldl (fun (a : Int) y => match y with
      | .fin _ q e => if q = 0 then a else max a ((Nat.log2 q : Int) + e)
      | _ => a) (-10000)
    let ex : Nat := if lg = -10000 then 0 else (max 0 (lg + 127)).toNat
    let scale (t : Nat) : Int := (ex : Int) - 127 - t - (m - 1)
    let sg (j : Nat) : Nat := [1, 2, 3].foldl (fun g t =>
      if ((ys.drop (4 * j)).take 4).all (fun y => sxRound mode y (scale t) ≤ top) then t else g) 0
    let sgs := (List.range 4).map sg
    let code (p : FVal × Nat) : Nat :=
      let mg := min top (sxRound mode p.1 (scale (sgs.getD (p.2 / 4) 0)))
      (if p.1.neg then 2 ^ m else 0) + mg
    let str := (ys.zipIdx.map (fun p => code p * 2 ^ (p.2 * (m + 1)))).foldl (· + ·) 0
    BitVec.ofNat 8 ex :: BitVec.ofNat 8 ((sgs.zipIdx.map (fun p => p.1 * 4 ^ p.2)).foldl (· + ·) 0)
      :: leBytes (sxSize f - 2) str

end Sys2Proof.Machine
end

