-- ==== Sys2Proof/Machine/Flags.lean ====
section
/-! DEFINITION. The fields of MODE (R20) and the types each opcode takes them with (R54, R82, R113, R138, R159). -/
namespace Sys2Proof.Machine

/-- MODE.GUARD, bits [15:12]. -/
def modeGuard (m : Half) : Nat := m.toNat / 0x1000 % 16
/-- MODE.ETYPE, bits [11:8]. -/
def modeEtype (m : Half) : EType := etOfCode (m.toNat / 0x100 % 16)
/-- MODE.SCOPE, bits [7:5]. -/
def modeScope (m : Half) : Nat := m.toNat / 0x20 % 8
/-- MODE.ORD, bits [4:3]. -/
def modeOrd (m : Half) : Nat := m.toNat / 8 % 4
/-- MODE.ROUND, bits [2:1]. -/
def modeRound (m : Half) : RMode :=
  match m.toNat / 2 % 4 with
  | 0 => .rne | 1 => .rtz | 2 => .rdn | _ => .rup
/-- MODE.SAT, bit [0]. -/
def modeSat (m : Half) : Bool := m.toNat % 2 == 1

/-- MODE with one field set from the low bits of a value (R117). -/
def setModeField (m : Half) (f : ModeField) (v : Dword) : Half :=
  let put (lo w : Nat) : Half :=
    BitVec.ofNat 16 (m.toNat - (m.toNat / 2 ^ lo % 2 ^ w) * 2 ^ lo + (v.toNat % 2 ^ w) * 2 ^ lo)
  match f with
  | .guard => put 12 4
  | .etype => put 8 4
  | .scope => put 5 3
  | .ord => put 3 2
  | .round => put 1 2
  | .sat => put 0 1

/-- The code of an element type (R53). -/
def etCode (t : EType) : Nat := t.inl.val

/-- The opcodes that read MODE.SCOPE (R21, R168): the loads, stores, atomics, reductions and WAITA. (DEDUCED, log 15.) -/
def usesScope (opc : Nat) : Bool :=
  inRanges [(0xA0, 0xA5), (0xA8, 0xB4), (0xB6, 0xB6), (0xB8, 0xBD), (0xC0, 0xC9), (0xCE, 0xCF)] opc

/-- The element types an opcode accepts in MODE.ETYPE; an opcode that does not read it accepts all. -/
def typeAccepted (opc : Nat) (t : EType) : Bool :=
  if inRanges [(0x02, 0x1A), (0x1C, 0x1C)] opc then etIsInt t
  else if opc = 0x1B then etCode t ≤ 12
  else if inRanges [(0x40, 0x42), (0x44, 0x44), (0x46, 0x4B), (0x4C, 0x50), (0x83, 0x89), (0x93, 0x95), (0x98, 0x98)] opc
    then etIsInt t || etIsF t
  else if inRanges [(0x43, 0x43), (0x45, 0x45), (0x51, 0x56), (0x5B, 0x5B), (0x96, 0x97)] opc then etIsInt t
  else if opc = 0x58 then [EType.int32, .uint32, .int64, .uint64].contains t
  else if opc = 0x59 then [EType.int8, .uint8].contains t
  else if opc = 0x5A then [EType.int16, .uint16, .bf16, .f16].contains t
  else if inRanges [(0x60, 0x6F)] opc then etIsF t
  else if opc = 0x80 then etCode t ≤ 12
  else if inRanges [(0x81, 0x82)] opc then t == .f32
  else if inRanges [(0xA8, 0xAA), (0xAE, 0xAE), (0xB1, 0xB1), (0xB3, 0xB4), (0xB6, 0xB6), (0xB8, 0xBA), (0xC8, 0xC9)] opc
    then [EType.int32, .uint32, .int64, .uint64, .f32].contains t
  else if inRanges [(0xAB, 0xAD), (0xBB, 0xBD)] opc then [EType.int32, .uint32, .int64, .uint64].contains t
  else if inRanges [(0xAF, 0xB0)] opc then [EType.uint32, .uint64].contains t
  else true

/-- The S-kind and V-kind fields typed int64 whatever MODE.ETYPE holds (R112, R155, R158, R188, R211, R246, R305, R379):
the D, A and B fields each. -/
def int64A (opc : Nat) : Bool :=
  inRanges [(0x1B, 0x1B), (0x20, 0x2F), (0x34, 0x34), (0xA2, 0xA6), (0xB3, 0xB4), (0xB6, 0xB6), (0xCA, 0xFF)] opc &&
    opc != 0x28
/-- See `int64A`. -/
def int64B (opc : Nat) : Bool :=
  inRanges [(0x1B, 0x1C), (0x20, 0x2F), (0x9A, 0x9A), (0xA0, 0xA6), (0xC0, 0xC7), (0xCA, 0xFF)] opc

/-- The operand type of the A field (R81, R126). -/
def operandTypeA (opc : Nat) (t : EType) : EType :=
  if int64A opc then .int64 else if opc = 0x28 then .uint32 else t

/-- The operand type of the B field (R81, R141, R152, R158). -/
def operandTypeB (opc : Nat) (t : EType) : EType :=
  if int64B opc then .int64
  else if opc = 0xB6 && etIs64 t then .int64
  else if inRanges [(0x8B, 0x8F)] opc then .uint32
  else if opc = 0x6F then (if t == .f32 then .int32 else .int16)
  else t

/-- The opcodes whose vector operands of the element type are register pairs under a 64-bit type: every vector opcode
that accepts such a type, in the fields `pairA`, `pairB` and `pairD` say (R17, R127, R146, R152, R159, R161). -/
def pairOpc (opc : Nat) : Bool := inRanges [(0x40, 0x9B), (0xA0, 0xB1), (0xB8, 0xBD), (0xC0, 0xC9)] opc
/-- The D field names a pair. -/
def pairD (opc : Nat) (t tgt : EType) : Bool :=
  if opc = 0x80 then etIs64 tgt else pairOpc opc && etIs64 t
/-- The A field names a pair. -/
def pairA (opc : Nat) (t : EType) : Bool := pairOpc opc && etIs64 t
/-- The B field names a pair. -/
def pairB (opc : Nat) (t : EType) : Bool := pairOpc opc && etIs64 t && !inRanges [(0x8B, 0x8F)] opc

/-- The opcodes that need a converged wave (R33, R151, R374): shuffles, votes, lane reductions, matrix instructions
and TRET. -/
def needsConverged (opc : Nat) : Bool := inRanges [(0x8B, 0x98), (0xD0, 0xD4), (0xF2, 0xF2)] opc

/-- The plane-invariant opcodes (R38, R110, R151, R182, R183): control transfers, REJOIN, TRAP and BRK, the cross-lane
instructions, the barriers and the matrix instructions. -/
def planeInvariant (opc : Nat) : Bool :=
  inRanges [(0x20, 0x25), (0x2A, 0x2B), (0x8B, 0x98), (0xCC, 0xCD), (0xD0, 0xD4)] opc

/-- The yield points (R29, R87): every opcode in 0xA0 to 0xCF, and YIELD. -/
def yieldPoint (opc : Nat) : Bool := inRanges [(0x27, 0x27), (0xA0, 0xCF)] opc

end Sys2Proof.Machine
end

