-- ==== Sys2Proof/Machine/Table.lean ====
section
/-! DEFINITION. Sparse tables: a list of key and value pairs with rising keys. -/
namespace Sys2Proof.Machine

/-- A sparse table. -/
abbrev Tbl (α : Type) := List (Nat × α)

/-- The entry of a key. -/
def tget? {α : Type} : Tbl α → Nat → Option α
  | [], _ => none
  | (k, v) :: t, n => if k = n then some v else tget? t n

/-- The entry of a key, or a default. -/
def tgetD {α : Type} (t : Tbl α) (n : Nat) (d : α) : α := (tget? t n).getD d

/-- Insert or replace the entry of a key, keeping the keys rising. -/
def tset {α : Type} : Tbl α → Nat → α → Tbl α
  | [], n, v => [(n, v)]
  | (k, w) :: t, n, v =>
    if n < k then (n, v) :: (k, w) :: t
    else if n = k then (n, v) :: t
    else (k, w) :: tset t n v

/-- Remove the entry of a key. -/
def tdel {α : Type} (t : Tbl α) (n : Nat) : Tbl α := t.filter (fun p => p.1 != n)

/-- The keys rise strictly. -/
def tsorted {α : Type} : Tbl α → Bool
  | [] => true
  | [_] => true
  | p :: q :: t => p.1 < q.1 && tsorted (q :: t)

/-- Change the entry of a key, if it has one. -/
def tmodify {α : Type} (t : Tbl α) (n : Nat) (f : α → α) : Tbl α :=
  match tget? t n with
  | some v => tset t n (f v)
  | none => t

/-- The values of a table in key order. -/
def tvals {α : Type} (t : Tbl α) : List α := t.map Prod.snd
/-- The keys of a table in order. -/
def tkeys {α : Type} (t : Tbl α) : List Nat := t.map Prod.fst
/-- Change every entry. -/
def tmap {α : Type} (t : Tbl α) (f : α → α) : Tbl α := t.map (fun p => (p.1, f p.2))

end Sys2Proof.Machine
end

