-- ==== Sys2Proof/Machine/State.lean ====
section
/-! DEFINITION. The whole state of the package as plain data, the two reasons a step can stop, and the state after
reset. -/
namespace Sys2Proof.Machine

/-- Why the model stops: none of the machine's own traps, which are next states. -/
inductive Fault where
  /-- Raised by every wave instruction when `State.issue` names no resident wave, which no step does (safe: the
  hardware has no such instruction execution). -/
  | noWave
deriving DecidableEq, Repr

/-- Why the model refuses an instruction. -/
inductive Refusal where
  /-- Raised by the dispatcher for an instruction that has no meaning yet (safe). -/
  | notModelled (mnemonic : String)
deriving DecidableEq, Repr

/-- The roles of a wave (R13). -/
inductive Role where
  | v | c | x
deriving DecidableEq, Repr

/-- One latch (R22 to R25): lost, one scalar result, one value per lane (`wide` for a 64-bit element type), the result of
a load whose data has not arrived, or a result with an uncorrectable error (R407). -/
inductive LatchVal where
  | lost
  | scalar (v : Dword)
  | vec (wide : Bool) (lanes : List Dword)
  | pending (load : Nat)
  | struck
deriving DecidableEq, Repr

/-- A word of a wave's own storage other than a latch (R403): a lane of a vector register, a scalar register, a predicate,
MODE, and the split state, the last two inside and outside handler mode. -/
inductive RegCell where
  | v (r lane : Nat) | s (r : Nat) | p (k : Nat)
  | mode (handler : Bool) | split (handler : Bool)
deriving DecidableEq, Repr

/-- What a sleeping WAITA watches: the word at a place with its virtual address, the value it is compared with, and the class
of its reads (R179). -/
structure Watch where
  space : Space := .global
  place : Nat := 0
  owner : Nat := 0
  z : Nat := 4
  val : Nat := 0
  va : Dword := 0
  level : Nat := 1
  acquire : Bool := false
deriving DecidableEq, Repr

/-- What a split waits for (R29, R31, R177, R179, R180, R183, R215, R219). A waiting split stands at its instruction
and executes it again once the condition holds. -/
inductive Wait where
  /-- REJOIN's mask (R31) -/
  | rejoin (m : LaneMask)
  /-- the wave's earlier loads have not all returned (R268) -/
  | loads
  /-- a release or a fence of a wave: the core's writes before `mark` are to be visible at the level, and the wave's loads
  before `loads` are to have returned (R177, R323) -/
  | fence (level : Nat) (mark loads : Nat) (release acquire : Bool) (wave : Nat)
  /-- an asleep WAITA: what it watches, the clk of its last read, whether it is woken, and whether its new read is still to
  be answered (R179) -/
  | waita (w : Watch) (since : Nat) (woken reading : Bool)
  /-- BARW: the barrier word of the block, the phase it waits to leave, and the virtual address (R183) -/
  | barw (block : Nat) (offset : Nat) (phase : Nat) (va : Dword)
  /-- TWAIT: tile index of the issuing block and the state it expects (R215) -/
  | twait (tile : Nat) (expect : Nat)
  /-- DRAIN: the level, the epoch mark as the clk of issue, and the clk from which the unit has been quiet (R180) -/
  | drain (level : Nat) (mark : Nat) (since : Option Nat)
  /-- the idle tree has reported: DRAIN, TLBINV or ICINV completes (R180, R379) -/
  | quiet
  /-- a touching load that waits for the copies of these windows of its block (R219) -/
  | window (ws : List Nat)
  /-- SPAWN: the bin of its cluster that is to become empty (R236) -/
  | bin (k : Nat)
  /-- OBJDECL and OBJDROP: the conversion of the range of the object of this number and generation (R239, R240, R330) -/
  | object (n gen : Nat)
  /-- TLBINV and ICINV after their fence: the clk of the epoch mark, and the clk from which the accesses before it have
  been performed (R379) -/
  | hold (mark : Nat) (since : Option Nat)
  /-- CARVE while it holds the context's slice accesses: WAYPART as it was (R306) -/
  | carve (old : Dword)
  /-- a decant operation in flight (R247) -/
  | decant (op : Nat)
  /-- a request that cannot be served yet and is made again -/
  | retry
  /-- an access of the slice path that a CARVE holds (R307) -/
  | held
  /-- the last EXIT of a wave, waiting for its matrix and engine work and for the outcome of its stores (R124, R408) -/
  | ending (wave : Nat)
deriving DecidableEq, Repr

/-- A live split (R26, R37): the position, the lanes, what it waits for, the plane copies still to issue at this
offset with their lanes (`begun` once one of them has taken effect), MODE as it stood before the offset (R111), and
what it last issued (R29, R343). -/
structure Split where
  pos : Dword := 0
  mask : LaneMask := 0
  wait : Option Wait := none
  copies : List (Nat × LaneMask) := []
  begun : Bool := false
  offMode : Half := 0
  /-- the opcode of the instruction that it last issued, and the clk of its first issue -/
  opc : Nat := 0
  since : Nat := 0
  /-- the length of the instruction at this offset -/
  len : Nat := 4
  /-- a copy at this offset was a yield point, so that issue passes once its last copy has issued (R29, R37) -/
  yields : Bool := false
  /-- the address that the access in which it stalls reads (R409) -/
  va : Dword := 0
deriving DecidableEq, Repr

/-- An entry of the deferred list (R27); one that was rotated out between the copies of an offset keeps those still to
issue. -/
structure Deferred where
  pos : Dword := 0
  mask : LaneMask := 0
  copies : List (Nat × LaneMask) := []
  begun : Bool := false
  offMode : Half := 0
  len : Nat := 4
deriving DecidableEq, Repr

/-- Where the data of a load goes (R170, R171). -/
inductive LoadDst where
  /-- v[r] (a pair when `wide`), or the latch alone -/
  | vec (r : Option Nat) (wide : Bool)
  /-- s[r] or the latch alone, extended from `z` bytes, by sign when `signed` -/
  | scalar (r : Option Nat) (z : Nat) (signed : Bool)
  /-- v[r] to v[r + 3] (CAS128) -/
  | quad (r : Nat)
deriving DecidableEq, Repr

/-- What work a cause belongs to (R367): the instruction itself, a matrix command (R207), a window's copy or a gather
command (R227), a load of poisoned or lost data (R167, R408), a lost store (R408), a read-modify-write that returns a value at a lost
home (R283, R408), or an acquire that the fabric manager answered for a lost core (R409). -/
inductive Origin where
  | own
  | matrix
  | window (block w : Nat)
  /-- the copy of a window whose starting wave waits in a touching load (R227) -/
  | touch (block w : Nat)
  /-- the copy of a window that a matrix command touched (R207) -/
  | mwindow (block w : Nat)
  | gather (cluster seq : Nat)
  | poison (dst : LoadDst)
  | store
  | rmw (dst : LoadDst)
  | loss
deriving DecidableEq, Repr

/-- A cause with what its trap record holds (R370, R371). -/
structure TrapInfo where
  cause : Nat := 0
  detail : Nat := 0
  pc : Dword := 0
  faddr : Dword := 0
  lane : Nat := 0xFF
  plane : Nat := 0
  iword : Dword := 0
  lit : Word := 0
  deferred : Bool := false
  bintodal : Bool := false
  origin : Origin := .own
  /-- the register with an uncorrectable error, for the drydown entry (R407) -/
  reg : Option Nat := none
  /-- clk at which the access at fault was issued: causes reach a wave in its program order (R178) -/
  issuedAt : Nat := 0
deriving DecidableEq, Repr

/-- One lane of a load in flight: the lane (32 for a scalar form), the physical address, the width, the virtual
address, and the value once it has been served. -/
structure LoadLane where
  lane : Nat := 0
  pa : Nat := 0
  z : Nat := 4
  va : Dword := 0
  got : Option Nat := none
  /-- 0x11 for poisoned, 0x16 for lost data -/
  cause : Nat := 0
deriving DecidableEq, Repr

/-- A load in flight (R167, R171, R313). -/
structure PLoad where
  dst : LoadDst := .vec none false
  lanes : List LoadLane := []
  level : Nat := 1
  acquire : Bool := false
  planes : List Nat := []
  pc : Dword := 0
  iword : Dword := 0
  lit : Word := 0
  plane : Nat := 0
  bintodal : Bool := false
  issuedAt : Nat := 0
  /-- the clk at which its split first came up with it (R343) -/
  since : Nat := 0
deriving DecidableEq, Repr

/-- A wave (R15, R20, R26, R27, R36, R370). (DESIGN CHOICE, log 118.) -/
structure Wave where
  ctx : Nat := 0
  launch : Option Nat := none
  block : Option Nat := none
  /-- wave index within its block (R45) -/
  index : Nat := 0
  /-- clk at which it became resident (R339) -/
  since : Nat := 0
  role : Role := .v
  nvregs : Nat := 16
  core : Nat := 0
  part : Nat := 0
  /-- in the active set of its partition, else in the pending set (R47, R48) -/
  active : Bool := true
  /-- a pending wave is ready, and the clk at which it became so (R48, R343) -/
  ready : Bool := true
  readyAt : Nat := 0
  /-- lane words keyed register x 32 + lane; an unlisted word is 0 -/
  vregs : Tbl Word := []
  /-- scalar registers; an unlisted one is 0 -/
  sregs : Tbl Dword := []
  /-- p1 to p7; an unlisted one is 0 in every lane -/
  preds : Tbl LaneMask := []
  /-- latches keyed plane x 8 + number; an unlisted one is lost -/
  latches : Tbl LatchVal := []
  mode : Half := 0
  /-- plane numbers by lane; an unlisted one is 0 -/
  planes : Tbl Nat := []
  retired : LaneMask := 0
  splits : Tbl Split := []
  issuing : Nat := 0
  deferred : List Deferred := []
  /-- passes counted for the oldest deferred entry (R27), and the slot that made the last one -/
  passes : Nat := 0
  passSlot : Nat := 0
  handler : Bool := false
  /-- the 256 bytes of the trap frame (R370); an unlisted byte is 0 -/
  frame : Tbl Byte := []
  frameResume : Dword := 0
  frameMode : Half := 0
  savedSplits : Tbl Split := []
  savedDeferred : List Deferred := []
  savedPlanes : Tbl Nat := []
  savedIssuing : Nat := 0
  savedPasses : Nat := 0
  savedPassSlot : Nat := 0
  /-- pending deferred causes, oldest first (R367) -/
  causes : List TrapInfo := []
  /-- the next instruction is the one at which TRET resumed, a taking point for every cause (R367) -/
  resumed : Bool := false
  loads : Tbl PLoad := []
  nextLoad : Nat := 0
  /-- matrix commands of the wave not yet completed (R205) -/
  mxPending : Nat := 0
  /-- copies and gathers the wave started and that have not settled (R227) -/
  engPending : Nat := 0
  /-- the wave runs the image form and rules of its launch's image (R355, R363) -/
  spawned : Bool := false
  /-- stopped in its handler, 10 us after pre-emption was asked for (R380) -/
  halted : Bool := false
  ended : Bool := false
  failed : Bool := false
  /-- words with an uncorrectable error that nothing has written since (R403, R407) -/
  struck : List RegCell := []
deriving DecidableEq, Repr

/-- What issues: set by the step before it runs an instruction (R37, R38). `lanes` are the lanes of the copy, of the
whole split for a plane-invariant instruction (`inv`); `mode` is MODE before the offset, or the fields of the Bintodal
word. -/
structure Issue where
  wave : Nat := 0
  plane : Nat := 0
  inv : Bool := false
  lanes : LaneMask := 0
  mode : Half := 0
  form : CodeForm := .quadiner
  pc : Dword := 0
  len : Nat := 4
  iword : Dword := 0
  lit : Word := 0
  /-- memory-model revision of the image that holds the instruction (R282, R363) -/
  mmrev : Nat := 2
deriving DecidableEq, Repr

/-! Memory hierarchy of a core, a slice and a stack. -/

/-- A store in a core's write queue (R314), with the cause that its wave takes if it is lost (R370, R408). -/
structure WqEntry where
  pa : Nat := 0
  bytes : List Byte := []
  epoch : Nat := 0
  wave : Nat := 0
  trap : TrapInfo := {}
  /-- context and launch of the wave, and clk of issue (R180, R337) -/
  ctx : Nat := 0
  launch : Option Nat := none
  entered : Nat := 0
deriving DecidableEq, Repr

/-- A performed write of a core, or a read of one that older copies elsewhere do not show (R269), with the widest level at
which the core knows it to be visible, 1 core to 6 package (R315, R322): its line, the line or tile parts that hold its bytes
(R329), and its clk. -/
structure OutWrite where
  line : Nat := 0
  units : List Nat := []
  epoch : Nat := 0
  level : Nat := 1
  since : Nat := 0
deriving DecidableEq, Repr

/-- An entry of a core's dependency list (R326). -/
structure Dep where
  core : Nat := 0
  epoch : Nat := 0
  level : Nat := 1
  recorded : Nat := 0
deriving DecidableEq, Repr

/-- A forced publish a core has been asked for and has not answered (R327). -/
structure FpubReq where
  epoch : Nat := 0
  level : Nat := 1
  requester : Nat := 0
  mark : Nat := 0
deriving DecidableEq, Repr

/-- An L1 copy (R310): the 64 bytes, its poisoned granules, the tick at which its lease started, and the clk of its
last use (R301). -/
structure L1Line where
  data : List Byte := []
  bad : List Nat := []
  t0 : Int := 0
  used : Nat := 0
deriving DecidableEq, Repr

/-- A cached translation (R377): the page's base and size and its leaf entry. -/
structure TlbEntry where
  size : Nat := 0
  leaf : Dword := 0
deriving DecidableEq, Repr


/-- A matrix command in a core's queue with its issue-time operands (R199 to R204): what it does, the scratchpad tiles
it names, the wave and block that issued it, and its trap-record fields. -/
inductive MxOp where
  /-- accumulator tile, A address, format codes, weight slot, AREL -/
  | mma (acc : Nat) (a : Nat) (afmt bfmt : Nat) (slot : Nat) (rel : Bool)
  | mmz (acc : Nat)
  /-- accumulator tile, destination, MODE, flag, ACT, the three vectors read at issue -/
  | mmd (acc : Nat) (dst : Nat) (mode : Half) (flag relu : Bool) (rs cs bias : Option (List Nat))
      (poison : Bool)
  | wload (slot : Nat) (src : Nat) (fmt : Nat)
deriving DecidableEq, Repr

/-- A queued matrix command. -/
structure MxCmd where
  op : MxOp := .mmz 0
  wave : Nat := 0
  block : Nat := 0
  tiles : List Nat := []
  enter : Nat := 0
  pc : Dword := 0
  iword : Dword := 0
  lit : Word := 0
  bintodal : Bool := false
deriving DecidableEq, Repr

/-- A core (R8, R199, R314, R326). Cached code lines and translations are keyed context x 2^64 + virtual address. -/
structure Core where
  wq : Tbl WqEntry := []
  outs : Tbl OutWrite := []
  nextWrite : Nat := 0
  epoch : Nat := 0
  /-- scope of the latest narrow release not yet published at package scope (R325), 0 for none, and the number of the first
  write after it -/
  relLevel : Nat := 0
  relMark : Nat := 0
  deps : List Dep := []
  fpubs : List FpubReq := []
  l1 : Tbl L1Line := []
  icache : Tbl (List Byte) := []
  tlb : Tbl TlbEntry := []
  mq : List MxCmd := []
  /-- clk at which the last MMA into an accumulator tile of a block ended, keyed block x 8 + tile (R210) -/
  mmaEnd : Tbl Nat := []
  /-- tick base (R321) -/
  base : Nat := 0
deriving DecidableEq, Repr

/-- The state of a slice copy (R310). -/
inductive CopyState where
  | m | o | e | s
deriving DecidableEq, Repr

/-- What a slice copy holds of an ordinary line or of a tile part: the state, and the tick its lease started (R310, R329). -/
structure Part where
  st : CopyState := .e
  t0 : Int := 0
deriving DecidableEq, Repr

/-- A line held in a stack's slices (R298, R300, R310): the holding slice and its way; what it holds of the line, keyed by
the line itself or by the tile parts whose bytes lie in it (R329); the bytes and the poisoned granules of what it holds in
S; and the migration and replacement fields (class 3 is the default class). Its pending invalidations are the INV and IACK
messages in flight. -/
structure SliceLine where
  slice : Nat := 0
  way : Nat := 0
  parts : Tbl Part := []
  data : List Byte := []
  bad : List Nat := []
  cnt : Nat := 0
  cand : Nat := 0
  age : Nat := 2
  cls : Nat := 3
  used : Nat := 0
  /-- the core whose access has brought the line in and is still to be performed: it is no hit (R300) -/
  fresh : Option Nat := none
deriving DecidableEq, Repr

/-- A home entry of a line or of a tile part (R312); while an XPUB runs, `waitX` are the stacks whose XACK is awaited, `cut`
those it invalidates, and `xpub` the stack that asked and the level. -/
structure HomeEntry where
  owner : Nat := 0
  owned : Bool := false
  sh : BitVec 4 := 0
  xi : Bool := false
  unpub : Bool := false
  tile : Bool := false
  lend : Nat := 0
  waitX : List Nat := []
  cut : List Nat := []
  xpub : Option (Nat × Nat) := none
deriving DecidableEq, Repr

/-- A release tag (R325). -/
structure Tag where
  line : Nat := 0
  core : Nat := 0
  epoch : Nat := 0
  level : Nat := 1
  tick : Nat := 0
deriving DecidableEq, Repr

/-- A stack: the lines its slices hold (R295). -/
structure Stack where
  lines : Tbl SliceLine := []
deriving DecidableEq, Repr

/-! Blocks. -/

/-- Which engine holds a tile whose OWNER is ENGINE (R197). -/
inductive Holder where
  | none | matrix | copy (window : Nat) | gather
  /-- a copy of another block's window that names this block as a multicast target (R221) -/
  | mcast (block window : Nat)
deriving DecidableEq, Repr

/-- A core-scratchpad tile (R14, R198); its TAG is the context of its block. -/
structure Tile where
  engine : Bool := false
  phase : Bool := false
  holder : Holder := .none
  count : Nat := 0
  mark : Bool := false
deriving DecidableEq, Repr

/-- The drain record of an accumulator tile (R201). -/
structure DrainRec where
  ascale : Option Nat := none
  bscale : Option Nat := none
  bias : Option Nat := none
  act : Nat := 0
deriving DecidableEq, Repr

/-- A weight-buffer slot (R194, R204): the format of its image, the issued format, the bytes and whether any of them
is poisoned. -/
structure WSlot where
  issued : Option Nat := none
  fmt : Nat := 0
  bytes : List Byte := []
  poison : Bool := false
deriving DecidableEq, Repr

/-- The window descriptor of R216. -/
structure WinDesc where
  base : Dword := 0
  rowb : Nat := 4
  n1 : Nat := 1
  n2 : Nat := 1
  stride1 : Dword := 0
  stride2 : Dword := 0
  dest : Nat := 0
  tiles : Nat := 1
  mcast : Nat := 0
  flagAddr : Option Nat := none
  flagVal : Word := 0
deriving DecidableEq, Repr

/-- The states of a copy window, in the order of WSTAT's codes (R217, R222). -/
inductive WinState where
  | free | absent | inflight | present | stalled
deriving DecidableEq, Repr

/-- A window of a block's region table (R216, R217, R221, R222). `targets` are the blocks the copy writes, once its
first attempt has checked them. -/
structure Window where
  st : WinState := .free
  desc : WinDesc := {}
  bound : Bool := false
  last : Nat := 0
  starter : Nat := 0
  /-- a matrix command touched it (R207) -/
  byMma : Bool := false
  targets : List Nat := []
  /-- the status with which a multicast check failed (R221) -/
  bad : Option Nat := none
  replays : Nat := 0
  fault : Nat := 0
  faddr : Dword := 0
  pc : Dword := 0
  iword : Dword := 0
  lit : Word := 0
  bintodal : Bool := false
  started : Nat := 0
  /-- the number of the core's first write after the touch: those before it happen before the work (R278) -/
  mark : Nat := 0
  /-- the handler has taken the deferred cause of a stalled attempt (R217) -/
  taken : Bool := false
  /-- the words of the source that the attempt has read, by their place in the copy, with whether each was poisoned (R220) -/
  seen : Tbl (Nat × Bool) := []
deriving DecidableEq, Repr

/-- The operations of the gather engine (R231). -/
inductive GatherOp where
  | gather | bag | scatter
deriving DecidableEq, Repr

/-- A gather command with its descriptor (R231) and its progress (R234). -/
structure GatherCmd where
  idx : Dword := 0
  table : Dword := 0
  offs : Dword := 0
  trows : Nat := 0
  count : Nat := 0
  nseg : Nat := 0
  rowb : Nat := 64
  op : GatherOp := .gather
  idx64 : Bool := false
  stopOor : Bool := false
  spad : Nat := 0
  flagAddr : Option Nat := none
  flagVal : Word := 0
  wave : Nat := 0
  block : Nat := 0
  ctx : Nat := 0
  commit : Nat := 0
  /-- what a scatter-add has counted below its commit index: out-of-range positions, the first of them, applied rows,
  and whether poison was met -/
  oorCount : Nat := 0
  oorFirst : Option Nat := none
  applied : Nat := 0
  bad : Bool := false
  replays : Nat := 0
  fault : Nat := 0
  faddr : Dword := 0
  stalled : Bool := false
  taken : Bool := false
  pc : Dword := 0
  iword : Dword := 0
  lit : Word := 0
  bintodal : Bool := false
  seq : Nat := 0
  entered : Nat := 0
  /-- the number of the core's first write after the command (R278) -/
  mark : Nat := 0
  /-- the words that the attempt has read, by the address they were read from, with whether each was poisoned (R232) -/
  seen : Tbl (Nat × Bool) := []
  /-- the elements of the row at the commit index that a scatter-add, having begun the row, has still to apply: their virtual and
  physical addresses (R233, R234) -/
  row : List (Dword × Nat) := []
deriving DecidableEq, Repr

/-- A spawn bin (R236, R345): its key, the threads in arrival order, the clk its first thread came, and whether it is
launching. -/
structure Bin where
  key : Dword := 0
  launch : Nat := 0
  ctx : Nat := 0
  threads : List (Word × Word) := []
  /-- the cores of the SPAWNs it holds, with the epochs those releases began (R237) -/
  sources : List (Nat × Nat) := []
  since : Nat := 0
  /-- TIME at which its timer expires -/
  deadline : Nat := 0
  launching : Bool := false
deriving DecidableEq, Repr

/-- A resident block (R8 to R12, R194, R201, R292). -/
structure Block where
  ctx : Nat := 0
  launch : Nat := 0
  core : Nat := 0
  /-- block index in the launch, in the gang, and the gang's index (R43), and the clk at which it became resident -/
  index : Nat := 0
  rank : Nat := 0
  gang : Nat := 0
  since : Nat := 0
  /-- scratchpad size in bytes, T_b x 8,192 (R292) -/
  size : Nat := 0
  lanepriv : Nat := 0
  accum : Nat := 0
  nwaves : Nat := 1
  /-- scratchpad bytes; an unlisted byte is 0 (R293) -/
  scratch : Tbl Byte := []
  /-- poisoned granules of the scratchpad -/
  spoison : List Nat := []
  /-- lane-private bytes keyed (wave index x 32 + lane) x 4,096 + address, and their poisoned granules -/
  lanes : Tbl Byte := []
  lpoison : List Nat := []
  tiles : Tbl Tile := []
  /-- accumulator elements, f32, keyed tile x 1,024 + 32 x row + column; an unlisted one is +0 -/
  acc : Tbl Word := []
  accPoison : List Nat := []
  drains : Tbl DrainRec := []
  slots : Tbl WSlot := []
  windows : Tbl Window := []
  waves : List Nat := []
  ended : Bool := false
  /-- its scratchpad, tiles and registers are another's already: engine work of it that still runs writes nothing (R229, R344) -/
  released : Bool := false
deriving DecidableEq, Repr

/-! Clusters with their slices, dies, contexts, launches and the package. -/

/-- An operation that waits at a slice for units, or travels to its home and back (R252, R257): the wave that stalls
at it, what it is, and n. -/
structure DecantOp where
  wave : Nat := 0
  /-- 0 take, 1 give, 2 read, 3 exact read, 4 drop -/
  kind : Nat := 0
  n : Nat := 0
  cluster : Nat := 0
  record : Nat := 0
  va : Dword := 0
  entered : Nat := 0
  /-- the answer: the result words, or the cause and detail of the trap in which it ends -/
  done : Bool := false
  lo : Dword := 0
  hi : Dword := 0
  trap : Option (Nat × Nat) := none
deriving DecidableEq, Repr

/-- What a slice keeps of a counter (R245, R256, R257): the allowance, if it holds an entry; the waiting takes, oldest first;
whether a REQ is outstanding, its SUM and the oldest take it asks for; the gives and reads that wait until the one outstanding at
the home is answered; and the clk of its last use. -/
structure AllowEntry where
  held : Bool := false
  a : Nat := 0
  waiters : List Nat := []
  req : Bool := false
  sum : Nat := 0
  first : Nat := 0
  later : List Nat := []
  used : Nat := 0
deriving DecidableEq, Repr

/-- A message queued at a counter's home (R256). -/
inductive HomeMsg where
  | req (slice sum first : Nat)
  | give (slice units op : Nat)
  | read (slice : Nat) (kind : DecantRead) (op : Nat)
deriving DecidableEq, Repr

/-- The states of a counter at its home (R258). -/
inductive HomeMode where
  | normal | recalling | direct
deriving DecidableEq, Repr

/-- An entry of a home's table of live counters (R244, R253, R257 to R259): the active slices with their demand counts,
the slice and the units of a partial SERVE whose RETURN is awaited, the queue of messages, and the slices whose ANSWER is
awaited. The units that travel to slices are those of the GRANT and SERVE messages in flight. -/
structure HomeCounter where
  active : Tbl Nat := []
  part : Option (Nat × Nat) := none
  queue : List HomeMsg := []
  recallFrom : List Nat := []
  mode : HomeMode := .normal
deriving DecidableEq, Repr

/-- A cluster and the slice beneath it (R295). -/
structure Cluster where
  tags : List Tag := []
  gather : List GatherCmd := []
  bins : Tbl Bin := []
  /-- allowance cache, keyed by the physical address of the record -/
  allow : Tbl AllowEntry := []
  /-- live counters of this home, keyed by the physical address of the record -/
  counters : Tbl HomeCounter := []
  base : Nat := 0
  /-- the physical cores retired, whether the cluster is withdrawn, and the logical core for which the spare, physical
  core 8, stands (R342) -/
  retired : List Nat := []
  withdrawn : Bool := false
  spareFor : Option Nat := none
  owner : Option Nat := none
  /-- the clock step (R429), the clocks counted up to the last change of step, and the clk of that change -/
  step : Nat := 16
  clkBase : Nat := 0
  clkSince : Nat := 0
  /-- the clocks counted when its cores last left a warm reset: their ticks count from there (R321) -/
  coresFrom : Nat := 0
deriving DecidableEq, Repr

/-- A registered image of a code object (R351). -/
structure Image where
  form : CodeForm := .quadiner
  archRev : Nat := 1
  mmRev : Nat := 2
  features : Dword := 0
  /-- absolute address of the code and its size -/
  base : Dword := 0
  size : Nat := 0
  tagAddr : Dword := 0
  entries : List Nat := []
  /-- accords: absolute base, P and S (R34, R351) -/
  accords : List (Dword × Nat × Nat) := []
  safe : List Nat := []
deriving DecidableEq, Repr

/-- A registered code object (R350, R352). -/
structure CodeObj where
  va : Dword := 0
  images : List Image := []
  nfunc : Nat := 0
  xltab : Dword := 0
  tcode : Dword := 0
  tsize : Nat := 0
  ttag : Dword := 0
  /-- accords that attar emitted into its translation cache (R352, R360) -/
  taccords : List (Dword × Nat × Nat) := []
deriving DecidableEq, Repr

/-- A translation cache, which every registration of its object shares: the bytes given out, and the accords emitted, as offset in
the cache, P and S (R359, R360). -/
structure CodeCache where
  used : Nat := 0
  accords : List (Nat × Nat × Nat) := []
deriving DecidableEq, Repr

/-- A shape record (R239, R328). -/
structure Shape where
  base : Dword := 0
  dims : List Nat := []
  strides : List Dword := []
  esize : Nat := 1
  cls : Nat := 0
  tile0 : Nat := 1
  tile1 : Nat := 1
deriving DecidableEq, Repr

/-- The part of an object's range in one page: the virtual address of the page (bits 51 to 0), its leaf entry and size, and
the offsets in it from and below which the part lies. -/
structure ObjFrame where
  va : Nat := 0
  leaf : Nat := 0
  size : Nat := 65536
  lo : Nat := 0
  hi : Nat := 0
deriving DecidableEq, Repr

/-- An entry of the object table (R328); every stack that homes part of the object holds the same entry. `gen` counts
the declarations of its number, and GEN is its low 16 bits. `frames` are the parts of the range page by page. (DESIGN CHOICE, log 126.) -/
structure ObjEntry where
  ctx : Nat := 0
  gen : Nat := 0
  live : Bool := false
  dropping : Bool := false
  /-- OBJDECL's conversion of its range runs (R330) -/
  declaring : Bool := false
  shape : Shape := {}
  frames : List ObjFrame := []
deriving DecidableEq, Repr

/-- The role and register count of one wave of a launch record (R335). -/
structure WaveDecl where
  role : Role := .v
  nvregs : Nat := 16
deriving DecidableEq, Repr

/-- A launch record as filed (R335 to R339) and its progress. -/
structure Launch where
  ctx : Nat := 0
  queue : Nat := 0
  lid : Nat := 0
  prio : Nat := 0
  codeObj : Dword := 0
  func : Nat := 0
  args : Dword := 0
  blocks : Nat := 1
  coloc : Nat := 2
  gang : Nat := 1
  rectw : Nat := 0
  recth : Nat := 0
  /-- scratchpad bytes as the record asks for them -/
  scratch : Nat := 0
  lanepriv : Nat := 0
  accum : Nat := 0
  waves : List WaveDecl := []
  wait0 : Dword := 0
  wval0 : Nat := 0
  wait1 : Dword := 0
  wval1 : Nat := 0
  signal : Dword := 0
  notice : Dword := 0
  /-- gangs started, or discarded by a failure -/
  started : Nat := 0
  /-- the wait words have been reached; the code object and the image have been resolved at dispatch (R338, R355): the
  key of the object in its context, the image, and whether the forced mode was on (R358) -/
  ready : Bool := false
  obj : Option Nat := none
  image : Option Nat := none
  forced : Bool := false
  failed : Bool := false
  drained : Bool := false
  /-- clk at which its last wave and its last engine work ended (R280) -/
  overAt : Option Nat := none
  siglost : Bool := false
deriving DecidableEq, Repr

/-- A queue of a context (R339, R341): the launches not yet fully dispatched, oldest first; the quantum and the signed
deficit; how often in succession its ready head was skipped; and, when it is reserving, the level and number of the unit. -/
structure Queue where
  pending : List Nat := []
  quantum : Nat := 65536
  deficit : Int := 0
  skips : Nat := 0
  reserving : Option (Nat × Nat) := none
  /-- the clk at which the scheduler last read the wait words of the head launch (R338) -/
  polled : Nat := 0
deriving DecidableEq, Repr

/-- What the save area holds of a cluster's engines (R208, R230): the spawn bins, with the remaining time of their timers
in place of its end, the gather commands, and the matrix queues and last MMA times of the cores. (DESIGN CHOICE, log 53.) -/
structure SavedCluster where
  bins : Tbl Bin := []
  gather : List GatherCmd := []
  queues : Tbl (List MxCmd) := []
  mmaEnd : Tbl (Tbl Nat) := []
deriving DecidableEq, Repr

/-- What pre-emption has done with a context (R380 to R382). -/
inductive CtxPhase where
  | running | saving | saved | restoring
deriving DecidableEq, Repr

/-- A context (R46, R131, R375, R424). -/
structure Context where
  clusters : List Nat := []
  ptroot : Nat := 0
  saveBase : Nat := 0
  saveSize : Nat := 0
  launchKey : BitVec 256 := 0
  codeKey : BitVec 256 := 0
  /-- SILLAGE, TRAPVEC, SPAWNTMR, CTXMODE and CRING (R131) -/
  sillage : Dword := 0x100
  trapvec : Dword := 0
  spawntmr : Dword := 0x7D0
  ctxmode : Dword := 4
  cring : Dword := 0
  ringSeq : Nat := 1
  /-- SPWAYS of WAYPART and its BUSY bit (R302), and the waves whose CARVE has issued, in issue order (R306) -/
  spways : Nat := 0
  carveBusy : Bool := false
  carves : List Nat := []
  /-- stack-scratchpad bytes by stack (R303) -/
  stackSp : Tbl (Tbl Byte) := []
  stackPoison : Tbl (List Nat) := []
  objs : Tbl CodeObj := []
  mask : Byte := 0
  queues : Tbl Queue := []
  /-- next queue of each priority class (R339) -/
  ptr : Tbl Nat := []
  /-- launches filed (R334) -/
  filed : Nat := 0
  phase : CtxPhase := .running
  /-- what the save area holds of each saved cluster; the clk at which pre-emption was asked for, or, once saved, of the
  save; and the completed saves (R380, R381) -/
  saved : Tbl SavedCluster := []
  preemptAt : Nat := 0
  saves : Nat := 0
  /-- the dies whose warm reset pre-empted it, and which it waits for (R410); pre-empted for the retirement of a core (R342) -/
  heldBy : List Nat := []
  retireHold : Bool := false
  /-- the context is destroyed once it is saved (R424) -/
  doomed : Bool := false
  /-- the highest SEQ accepted and the last 64 acknowledgements (R333) -/
  lastSeq : Nat := 0
  acks : Tbl (List Byte) := []
  noticeQp : Option Nat := none
  noticesDropped : Nat := 0
  /-- ELAPSED by cluster: the clocks counted up to the last save, and the cluster's count when it last resumed (R348) -/
  elapsed : Tbl Nat := []
  resumedAt : Tbl Nat := []
  nfatal : Nat := 0
  fatals : Nat := 0
deriving DecidableEq, Repr

/-- What the fabric manager and the reliability logic do of themselves: the events ROUTE_REWRITE, RETIRE_POWER_DOWN,
WARM_RESET_STEP_DONE and REBUILD_DONE. -/
inductive Upkeep where
  | rewrite (e : Element)
  | powerDown (e : Element)
  | resetStep (die : Nat)
  | rebuilt (die : Nat)
  /-- a source sends what was lost on the way to a home again (R396) -/
  | resend (source home : Nat)
  /-- the fabric manager rewrites a routing entry that an error has struck (R403) -/
  | entry (router region : Nat)
deriving DecidableEq, Repr

/-- An error that strikes a storage or a path (R403, R404): one that its code corrects, with the record, the row of R403,
the unit and the address of its drydown entry; retries of a link port in the last microsecond (R419); or one that it cannot
correct, by the row of R403. Registers and latches by wave; scratchpad, lane-private and stack-scratchpad bytes; an L1 line,
a code line and an S copy; a byte of a slice's owning copy; a weight slot and an accumulator tile; an entry of a write queue;
a directory entry of a line at a level and unit; a location entry and a release tag by line; an object-table entry by stack and number; an
allowance by slice and record; a counter's home entry; a routing entry; a line of DRAM. (DESIGN CHOICE, log 116.) -/
inductive SoftError where
  | corrected (record store unit addr : Nat)
  | linkRetry (stack port retries : Nat)
  | reg (wave : Nat) (c : RegCell)
  | latch (wave plane k : Nat)
  | scratch (block a : Nat)
  | lanePriv (block k : Nat)
  | stackScratch (ctx stack a : Nat)
  | l1 (core line : Nat)
  | codeLine (core key : Nat)
  | sharedCopy (stack line : Nat)
  | ownedCopy (pa : Nat)
  | weight (block slot : Nat)
  | accum (block tile : Nat)
  | queued (core write : Nat)
  | directory (line level unit : Nat)
  | location (line : Nat)
  | tag (line : Nat)
  | object (stack number : Nat)
  | routing (router region : Nat)
  | allowance (cluster record : Nat)
  | homeEntry (record : Nat)
  | dram (line : Nat)
deriving DecidableEq, Repr

/-- An access of an engine's work that is performed before the work ends (R220, R232, R234): the copy engine reads a word of its
source, a gather engine reads the word at an address, or a scatter-add applies its next element. -/
inductive EngineStep where
  | copyRead (block window word : Nat)
  | gatherRead (cluster seq word : Nat)
  | scatter (cluster : Nat)
deriving DecidableEq, Repr

/-- One turn of the outside world and of what the spec leaves unordered: which unit acts next, and for how long. (DESIGN CHOICE, log 5.) -/
inductive Turn where
  | wave (w dt : Nat)
  | event (i : Instr) (dt : Nat)
  | upkeep (u : Upkeep) (dt : Nat)
  /-- the save of a context goes on (R380) -/
  | save (ctx dt : Nat)
  /-- an error strikes (R403, R404) -/
  | strike (e : SoftError) (dt : Nat)
  /-- an engine goes on with an access of its work (R220, R232) -/
  | engine (e : EngineStep) (dt : Nat)
  | idle (dt : Nat)
deriving DecidableEq, Repr

/-- An event of a drydown record (R419). -/
structure DryEvent where
  time : Nat := 0
  kind : Nat := 0
  store : Nat := 0
  unit : Nat := 0
  detail : Nat := 0
  addr : Nat := 0
deriving DecidableEq, Repr

/-- A drydown record (R418): the events written and the last 4,096 of them by slot. -/
structure Drydown where
  count : Nat := 0
  slots : Tbl DryEvent := []
deriving DecidableEq, Repr

/-! The fabric, the port and the management of the package. -/

/-- The replay filter of a home slice for one source (R397): the next expected number, the reorder buffer, and the
responses to the last requests performed, by sequence number. -/
structure ReplayFilter where
  expect : Nat := 0
  buffer : Tbl FabRequest := []
  responses : List (Nat × List Byte) := []
deriving DecidableEq, Repr

/-- The retransmissions of a source to a home (R396): the clk of each round, latest first. -/
structure Resend where
  rounds : List Nat := []
deriving DecidableEq, Repr

/-- An element that is being retired, the clk from which the idle tree has seen it quiet, and the packets that were on their way
over it when its entries were rewritten and have not arrived (R394). -/
structure Leaving where
  element : Element
  since : Nat := 0
  inside : List Instr := []
deriving DecidableEq, Repr

/-- The fabric (R392 to R397, R434). Every routing entry follows from the elements that the fabric manager has routed
around: with none, it has its value per topology. Filters and retransmissions are keyed source x 256 + home slice. -/
structure Fabric where
  around : List Element := []
  /-- failed elements, and those retired and powered down -/
  down : List Element := []
  leaving : List Leaving := []
  off : List Element := []
  /-- failed elements whose entries are still to be rewritten, with the clk by which they are (R395) -/
  rewriteBy : List (Element × Nat) := []
  /-- messages in flight that a failed element has dropped and that have not been sent again, with the clk of the loss (R395,
  R396) -/
  lost : List (Instr × Nat) := []
  /-- the slices from which data in flight that an owner has forwarded came, by the FWD that they answer (R393) -/
  dataFrom : List (Instr × Nat) := []
  /-- routing entries, by router and region, that an error has struck, with the clk by which they are rewritten (R403) -/
  badEntries : List ((Nat × Nat) × Nat) := []
  filters : Tbl ReplayFilter := []
  resend : Tbl Resend := []
deriving DecidableEq, Repr

/-- What leaves the package. -/
inductive Out where
  /-- a UDP datagram to the source of a frame: an acknowledgement or a part of a reply (R334, R427) -/
  | datagram (source : Nat) (bytes : List Byte)
  /-- RoCEv2 responses on a queue pair: acknowledgement, NAK (0 remote access error, 1 invalid request, 2 remote
  operational error), READ data, the old value of an atomic (R399, R400) -/
  | roceAck (qp : Nat)
  | roceNak (qp kind : Nat)
  | roceData (qp : Nat) (bytes : List Byte)
  | roceOld (qp old : Nat)
  /-- a completion notice, an RDMA WRITE of 64 bytes (R401) -/
  | notice (qp : Nat) (va : Dword) (bytes : List Byte)
  /-- the answer of the N-die to an ARP or neighbour-discovery query (R398) -/
  | neighbour (query : List Byte)
  /-- a response of a home slice to a source (R397) -/
  | response (source home seq : Nat) (bytes : List Byte)
  /-- what the management path tells the host: a drydown KIND, the unit and the detail (R337, R372, R416) -/
  | tell (kind unit detail : Nat)
  /-- the number of completion notices of a context that have been dropped, as the management path reports it (R401) -/
  | noticesDropped (ctx count : Nat)
deriving DecidableEq, Repr

/-- The power manager (R429, R430): the cap of the module in watts, the samples of the last 100 us in milliwatts, newest
first, and the clk at which clocks last rose a step. Units are 0 for the module, 1 + s for a stack, 9 + d for a Q-die. -/
structure Power where
  cap : Nat := 5000
  samples : List (List (Nat × Nat)) := []
  raised : Option Nat := none
deriving DecidableEq, Repr

/-- What the record of a management frame that is being performed waits for: a context to be saved or destroyed, or a die's
warm reset to end. -/
inductive JobWait where
  | ctx (n : Nat)
  | running (n : Nat)
  | reset (die : Nat)
deriving DecidableEq, Repr

/-- A management frame that is being performed (R425): where it came from, its payload, the statuses of the records
performed, what the last of them waits for, and the replies to send after the acknowledgement. -/
structure MgmtJob where
  source : Nat := 0
  payload : List Byte := []
  statuses : List Nat := []
  waits : Option JobWait := none
  replies : List Out := []
deriving DecidableEq, Repr

/-- The N-die (R332, R399, R401, R422 to R428): boot and security, the management sequence, the memory-region table, the
queue pairs in an error state and the priorities paused by flow control. (DESIGN CHOICE, log 3.) -/
structure NDie where
  bootStep : Nat := 5
  bootFailed : Bool := false
  /-- clk at which boot completed: TIME 0 -/
  bootClk : Nat := 0
  svn : Nat := 0
  /-- fuses: the SHA3-256 digest of the vendor's firmware key, and the device identity key (R422) -/
  vendorKey : BitVec 256 := 0
  identityKey : BitVec 256 := 0
  mgmtKey : BitVec 256 := 0
  lastSeq : Nat := 0
  acks : Tbl (List Byte) := []
  job : Option MgmtJob := none
  /-- management frames received meanwhile, by source, oldest first -/
  frames : List (Nat × List Byte) := []
  regions : Tbl (BitVec 192) := []
  qpError : List Nat := []
  paused : List Nat := []
  /-- frames that wait to be sent at a paused priority, oldest first (R398) -/
  heldOut : List Out := []
deriving DecidableEq, Repr

/-- The state of the package. (DESIGN CHOICE, log 115.) -/
structure State where
  /-- clk since power-on (R2) -/
  clk : Nat := 0
  issue : Issue := {}
  waves : Tbl Wave := []
  nextWave : Nat := 0
  blocks : Tbl Block := []
  nextBlock : Nat := 0
  /-- cores by logical global number (R45) -/
  cores : Tbl Core := []
  /-- clusters, each with the slice beneath it, by die x 16 + cluster -/
  clusters : Tbl Cluster := []
  stackTbl : Tbl Stack := []
  /-- home entries by physical line address (R311, R312) -/
  homes : Tbl HomeEntry := []
  ctxs : Tbl Context := []
  launches : Tbl Launch := []
  nextLaunch : Nat := 0
  /-- translation caches by the physical address of their first byte (R359) -/
  caches : Tbl CodeCache := []
  /-- object tables, keyed stack x 4,096 + object number -/
  objects : Tbl ObjEntry := []
  decants : Tbl DecantOp := []
  nextDecant : Nat := 0
  /-- DRAM by physical address, each byte as its line's package owner holds it; an unlisted byte is 0 -/
  mem : Tbl Byte := []
  /-- poisoned 8-byte granules by physical address (R403, R405) -/
  poison : List Nat := []
  /-- granules that are poisoned in the D-layers beneath an owner's clean copy (R403, R404) -/
  dramBad : List Nat := []
  /-- lost dies (R413), and dies whose home is offline during a warm reset (R411) -/
  dead : List Nat := []
  offline : List Nat := []
  /-- stacks whose C-die is lost (R262, R413) -/
  lostStacks : List Nat := []
  /-- field retirements that wait for a cluster to be free: cluster and physical core (R342) -/
  retiring : List (Nat × Nat) := []
  /-- drydown records: Q-die 0 to 15, C-die 0x20 + stack, N-die 0x30 (R418) -/
  dry : Tbl Drydown := []
  /-- warm resets in progress: the last step completed, by die, and those that wait for the stack-mate's (R410 to R412) -/
  resets : Tbl Nat := []
  resetQueue : List Nat := []
  /-- rebuilds that have not been reported: the number of lines each has poisoned, by lost die (R416) -/
  rebuilding : Tbl Nat := []
  /-- heartbeats that a die has missed in succession (R413) -/
  missed : Tbl Nat := []
  /-- dies that temperature holds at step 8 (R430) -/
  hot : List Nat := []
  power : Power := {}
  fabric : Fabric := {}
  nd : NDie := {}
  /-- what has left the package, oldest first -/
  out : List Out := []
  /-- messages in flight, oldest first, and those that have arrived at their home entry and wait there, in arrival order
  (R317) -/
  net : List Instr := []
  waiting : List Instr := []
  /-- what the outside decides, oldest first -/
  agenda : List Turn := []
  /-- wave that last issued, in the package and on each port, keyed (core x 8 + partition) x 3 + port (R47) -/
  lastWave : Nat := 0
  portWave : Tbl Nat := []
deriving DecidableEq, Repr

/-- The state after reset. (DEDUCED, log 1.) -/
def State.reset : State := {}

end Sys2Proof.Machine
end

