-- ==== Sys2Proof/Machine/Operands.lean ====
section
/-! DEFINITION. Reading the operand forms of R81 to R84 and R94, and writing results to registers, predicates and
latches (R19, R22 to R24, R41, R95, R110). The issuing wave and copy are those of `State.issue`. -/
namespace Sys2Proof.Machine

/-- The wave that issues. -/
def State.curWave (s : State) : Wave := tgetD s.waves s.issue.wave {}

/-- Change a wave. -/
def State.modWave (s : State) (w : Nat) (f : Wave → Wave) : State := { s with waves := tmodify s.waves w f }

/-- Change the wave that issues. -/
def State.modCur (s : State) (f : Wave → Wave) : State := s.modWave s.issue.wave f

/-- A scalar register. -/
def Wave.sreg (w : Wave) (r : Nat) : Dword := tgetD w.sregs r 0

/-- A lane word of a vector register. -/
def Wave.vreg (w : Wave) (r l : Nat) : Word := tgetD w.vregs (r * 32 + l) 0

/-- A predicate; p0 reads 1 in every lane (R19). -/
def Wave.pred (w : Wave) (p : Nat) : LaneMask := if p = 0 then BitVec.allOnes 32 else tgetD w.preds p 0

/-- The plane number of a lane (R36). -/
def Wave.plane (w : Wave) (l : Nat) : Nat := tgetD w.planes l 0

/-- A latch of a plane's set. -/
def Wave.latch (w : Wave) (plane k : Nat) : LatchVal := tgetD w.latches (plane * 8 + k) .lost

/-- A predicate selector's lanes (R80, R115). -/
def Wave.psel (w : Wave) (x : PSel) : LaneMask := if x.neg then ~~~(w.pred x.p.val) else w.pred x.p.val

/-- The lanes in which the guard passes (R20). -/
def Wave.guard (w : Wave) (g : Nat) : LaneMask := if g < 8 then w.pred g else ~~~(w.pred (g - 8))

/-- active(w): the lanes of the issuing split and plane that pass the guard (00_scope.md, "Pseudocode"). -/
def State.activeMask (s : State) : LaneMask := s.issue.lanes &&& s.curWave.guard (modeGuard s.issue.mode)

/-- MODE.ETYPE of the issuing instruction. -/
def State.etype (s : State) : EType := modeEtype s.issue.mode
/-- MODE.ROUND of the issuing instruction. -/
def State.rmode (s : State) : RMode := modeRound s.issue.mode
/-- MODE.SAT of the issuing instruction. -/
def State.sat (s : State) : Bool := modeSat s.issue.mode

/-- The plane number of the lowest lane of the copy, whose latch set a scalar read uses. (DEDUCED, log 13.) -/
def State.issuePlane (s : State) : Nat := s.issue.plane

/-- The planes whose latch sets the instruction advances: every occupied one for a plane-invariant instruction, else
its own (R41). -/
def State.latchPlanes (s : State) : List Nat :=
  if s.issue.inv then
    (List.range 4).filter (fun p => s.issue.lanes.lanes.any (fun l => s.curWave.plane l == p))
  else [s.issue.plane]

/-! Immediates (R81 to R83). -/

/-- The value of an inline code: 0 to 63, then -16 to -1. -/
def inlVal (n : Fin 80) : Int := if n.val < 64 then n.val else (n.val : Int) - 80

/-- An integer immediate as the bits of one element of the type (R82). -/
def immBits (t : EType) (mode : RMode) (v : Int) : Nat :=
  match etFmt t with
  | some f => fEncode f mode false (fOfInt v)
  | none => wrapBits (etWidth t) v

/-- A floating constant as the bits of one element (R83). -/
def fconstBits (t : EType) (n : Fin 16) : Nat :=
  match etFmt t with
  | some f => fEncode f .rne false (fconstVal n.val)
  | none => 0

/-- One element's bits formed in the 64 bits of an S field: by sign for signed types (R82). -/
def elemToS (t : EType) (b : Nat) : Dword := if etSigned t then extend64 t b else BitVec.ofNat 64 b

/-- One element's bits in every element position of a lane (R82, R135). -/
def replicate (t : EType) (b : Nat) : Dword :=
  if etWidth t = 16 then BitVec.ofNat 64 (b + b * 0x10000)
  else if etWidth t = 8 then BitVec.ofNat 64 (b + b * 0x100 + b * 0x10000 + b * 0x1000000)
  else BitVec.ofNat 64 b

/-! Scalar reads. -/

/-- A latch read by a scalar-class operand (R24). -/
def latchToS : LatchVal → Dword
  | .scalar v => v
  | _ => 0

/-- A scalar source of the given operand type (R81 to R84, R94). -/
def State.readS (s : State) (t : EType) (x : SSrc) : Dword :=
  match x with
  | .reg r => s.curWave.sreg r.val
  | .latch k => latchToS (s.curWave.latch s.issuePlane k.val)
  | .zero => 0
  | .wave => elemToS t (immBits t s.rmode s.curWave.index)
  | .core => elemToS t (immBits t s.rmode s.curWave.core)
  | .inl n => elemToS t (immBits t s.rmode (inlVal n))
  | .fconst n => elemToS t (fconstBits t n)
  | .lit w => if etIsInt t && etSigned t then w.signExtend 64 else w.setWidth 64
  | .imm h => h.signExtend 64

/-- A scalar source typed int64 (R112). -/
def State.readS64 (s : State) (x : SSrc) : Dword := s.readS .int64 x

/-! Vector reads. A lane's operand is held in 64 bits; a type of 32 bits or less uses the low word. -/

/-- A latch read by a vector-class operand in a lane (R23, R24). (DESIGN CHOICE, log 129.) -/
def latchToV (clk : Nat) (t : EType) (l : Nat) : LatchVal → Dword
  | .scalar v => if etIs64 t then v else (v.setWidth 32).setWidth 64
  | .vec wide ls =>
    let v := ls.getD l 0
    if etIs64 t then (if wide then v else (Config.latchUpper clk l) ++ (v.setWidth 32)) else (v.setWidth 32).setWidth 64
  | .lost | .struck | .pending _ =>
    if etIs64 t then Config.undefinedData clk l else ((Config.undefinedData clk l).setWidth 32).setWidth 64

/-- A lane of a vector register, or of the pair under a 64-bit type (R17). -/
def Wave.vlane (w : Wave) (wide : Bool) (r l : Nat) : Dword :=
  if wide then w.vreg (r + 1) l ++ w.vreg r l else (w.vreg r l).setWidth 64

/-- IMM16 in a lane (R94). -/
def imm16Lane (t : EType) (h : Half) : Dword :=
  match t with
  | .int8 | .uint8 | .e4m3 | .e5m2 => replicate t (h.toNat % 256)
  | .int16 | .uint16 | .bf16 | .f16 => replicate t h.toNat
  | .int32 | .uint32 | .sx8 | .sx5 | .sx3 => (h.signExtend 32).setWidth 64
  | .f32 => BitVec.ofNat 64 (h.toNat * 0x10000)
  | .int64 | .uint64 => h.signExtend 64

/-- The literal word in a lane (R84). -/
def litLane (t : EType) (w : Word) : Dword := if t == .int64 then w.signExtend 64 else w.setWidth 64

/-- A vector source of the given operand type in lane l (R81 to R84, R94). (DESIGN CHOICE, log 129.) -/
def State.readV (s : State) (t : EType) (x : VSrc) (l : Nat) : Dword :=
  let w := s.curWave
  match x with
  | .reg r => w.vlane (etIs64 t) r.val l
  | .latch k => latchToV s.clk t l (w.latch (if s.issue.inv then w.plane l else s.issue.plane) k.val)
  | .zero => 0
  | .lane => replicate t (immBits t s.rmode l)
  | .wave => replicate t (immBits t s.rmode w.index)
  | .plane => replicate t (immBits t s.rmode (w.plane l))
  | .core => replicate t (immBits t s.rmode w.core)
  | .inl n => replicate t (immBits t s.rmode (inlVal n))
  | .fconst n => replicate t (fconstBits t n)
  | .lit w => litLane t w
  | .imm h => imm16Lane t h

/-- The lane word of an address operand: the low register of the pair under a 64-bit type (R159, R161). (DEDUCED, log 14.) -/
def State.readVWord (s : State) (t : EType) (x : VSrc) (l : Nat) : Word :=
  match x with
  | .reg r => s.curWave.vreg r.val l
  | _ => (s.readV t x l).setWidth 32

/-- Element e of a lane's operand (R135). -/
def elemOf (t : EType) (v : Dword) (e : Nat) : Nat := v.toNat / 2 ^ (etWidth t * e) % 2 ^ etWidth t

/-- The number of elements in a lane (R135). -/
def elems (t : EType) : Nat := if etIs64 t then 1 else 32 / etWidth t

/-- A lane's result from its elements. -/
def packElems (t : EType) (f : Nat → Nat) : Dword :=
  BitVec.ofNat 64 (((List.range (elems t)).map (fun e => f e % 2 ^ etWidth t * 2 ^ (etWidth t * e))).foldl (· + ·) 0)

/-! Results. -/

/-- Place k of a latch set takes what place k - 1 of the set at `base` of `t` holds (R22). -/
def moveLatch (t : Tbl LatchVal) (base : Nat) (u : Tbl LatchVal) (k : Nat) : Tbl LatchVal :=
  match tget? t (base + k - 1) with
  | some x => tset u (base + k) x
  | none => tdel u (base + k)

/-- One plane's latch set moved on by one place, with a new L0 (R22). -/
def pushLatch (t : Tbl LatchVal) (plane : Nat) (v : LatchVal) : Tbl LatchVal :=
  tset ([7, 6, 5, 4, 3, 2, 1].foldl (moveLatch t (plane * 8)) t) (plane * 8) v

/-- The latches after a result: each set of `latchPlanes` moves on; a Bintodal instruction moves none (R95). -/
def State.latchResult (s : State) (v : LatchVal) : State :=
  match s.issue.form with
  | .bintodal => s
  | .quadiner => s.modCur (fun w => { w with latches := s.latchPlanes.foldl (fun t p => pushLatch t p v) w.latches })

/-- Write a lane word. -/
def setVWord (t : Tbl Word) (r l : Nat) (v : Word) : Tbl Word := tset t (r * 32 + l) v

/-- Write one lane of a register, or of the pair. -/
def setVLane (wide : Bool) (r l : Nat) (v : Dword) (t : Tbl Word) : Tbl Word :=
  if wide then setVWord (setVWord t r l (v.setWidth 32)) (r + 1) l (v.extractLsb' 32 32)
  else setVWord t r l (v.setWidth 32)

/-- Write the lanes of a mask of a register or pair. -/
def setVLanes (wide : Bool) (r : Nat) (m : LaneMask) (f : Nat → Dword) (t : Tbl Word) : Tbl Word :=
  m.lanes.foldl (fun u l => setVLane wide r l (f l) u) t

/-- The errors left in a wave's storage once lanes of a register or pair have been written (R407). -/
def mendV (wide : Bool) (r : Nat) (m : LaneMask) (cs : List RegCell) : List RegCell :=
  cs.filter (fun c => match c with
    | .v q l => !(m.getLsbD l && (q == r || (wide && q == r + 1)))
    | _ => true)
/-- The errors left once a scalar register has been written. -/
def mendS (r : Nat) (cs : List RegCell) : List RegCell := cs.filter (· != .s r)
/-- The errors left once a predicate has been written. -/
def mendP (k : Nat) (cs : List RegCell) : List RegCell := cs.filter (· != .p k)

/-- A vector result in the lanes of a mask, and L0 (R22, R23): with a register, its content after the instruction;
under NW, the computed value in the mask and zero elsewhere. -/
def State.putVMask (s : State) (m : LaneMask) (d : VDst) (wide : Bool) (f : Nat → Dword) : State :=
  match d with
  | .reg r =>
    let s1 := s.modCur (fun w => { w with vregs := setVLanes wide r.val m f w.vregs, struck := mendV wide r.val m w.struck })
    s1.latchResult (.vec wide ((List.range 32).map (fun l => s1.curWave.vlane wide r.val l)))
  | .nw => s.latchResult (.vec wide ((List.range 32).map (fun l => if m.getLsbD l then f l else 0)))

/-- A vector result in active(w). -/
def State.putV (s : State) (d : VDst) (wide : Bool) (f : Nat → Dword) : State := s.putVMask s.activeMask d wide f

/-- A scalar result (R110): written when active(w) is not empty; the latches move either way. -/
def State.putS (s : State) (d : SDst) (v : Dword) : State :=
  match d with
  | .reg r =>
    if s.activeMask = 0 then s.latchResult (.scalar (s.curWave.sreg r.val))
    else (s.modCur (fun w => { w with sregs := tset w.sregs r.val v, struck := mendS r.val w.struck })).latchResult (.scalar v)
  | .nw => s.latchResult (.scalar (if s.activeMask = 0 then 0 else v))

/-- A predicate result in the lanes of active(w); a write to p0 is discarded (R19, R115). -/
def State.putP (s : State) (p : Fin 8) (v : LaneMask) : State :=
  if p.val = 0 then s
  else
    let m := s.activeMask
    s.modCur (fun w => { w with
      preds := tset w.preds p.val ((w.pred p.val &&& ~~~m) ||| (v &&& m)), struck := if m = 0 then w.struck else mendP p.val w.struck })

end Sys2Proof.Machine
end

