-- ==== Sys2Proof/Machine/Ops.lean ====
section
/-! DEFINITION. The shared operations: bytes of DRAM and scratchpad, lookups, moving an instruction's copy to its end,
yield points, taking an exception (R367 to R372) and the return from one (R374), and the checks before issue (R90). -/
namespace Sys2Proof.Machine

/-! Homes (R288, R295, R296, R311). -/

/-- The home die of a physical address (R288). -/
def homeDie (pa : Nat) : Nat := pa / 2 ^ 36 % 16
/-- The home stack of a physical address (R288, R311). -/
def homeStack (pa : Nat) : Nat := homeDie pa / 2
/-- The line of a physical address. -/
def lineOf (pa : Nat) : Nat := pa / 64 * 64

/-- The slice hash of a physical line address (R296). -/
def sliceHash (x : Nat) : Nat :=
  (x / 2 ^ 6 % 32) ^^^ (x / 2 ^ 11 % 32) ^^^ (x / 2 ^ 16 % 32) ^^^ (x / 2 ^ 21 % 32) ^^^ (x / 2 ^ 26 % 32) ^^^
    (x / 2 ^ 31 % 32) ^^^ (x / 2 ^ 36 % 16)

/-- The home slice of a line, as a cluster number die x 16 + cluster: slice h x 16 + c of a stack lies beneath cluster c
of its die of half h (R295, R296). -/
def homeSlice (pa : Nat) : Nat := homeStack pa * 32 + sliceHash pa

/-! DRAM. An unlisted byte reads 0; a listed one is never 0. -/

/-- A byte of DRAM. (DESIGN CHOICE, log 2.) -/
def memByte (m : Tbl Byte) (a : Nat) : Byte := tgetD m a 0

/-- Write a byte, in the canonical form: rising addresses, and no entry for a zero byte. -/
def memSet (m : Tbl Byte) (a : Nat) (b : Byte) : Tbl Byte := if b = 0 then tdel m a else tset m a b

/-- `n` bytes from an address, as a little-endian number. -/
def memNat (m : Tbl Byte) (a : Nat) : Nat → Nat
  | 0 => 0
  | n + 1 => (memByte m a).toNat + 256 * memNat m (a + 1) n

/-- `n` bytes from an address. -/
def memBytes (m : Tbl Byte) (a n : Nat) : List Byte := (List.range n).map (fun i => memByte m (a + i))

/-- Write bytes at rising addresses. -/
def memPut (m : Tbl Byte) (a : Nat) : List Byte → Tbl Byte
  | [] => m
  | b :: bs => memPut (memSet m a b) (a + 1) bs

/-- The canonical form of a byte table. -/
def Memory.wf (m : Tbl Byte) : Bool := tsorted m && m.all (fun p => p.2 != 0)

/-- Write bytes to DRAM as their owner. -/
def State.memWrite (s : State) (pa : Nat) (bs : List Byte) : State := { s with mem := memPut s.mem pa bs }

/-! Lookups. -/

/-- A core. -/
def State.core (s : State) (c : Nat) : Core := tgetD s.cores c {}
/-- Change a core. -/
def State.modCore (s : State) (c : Nat) (f : Core → Core) : State := { s with cores := tset s.cores c (f (s.core c)) }
/-- A cluster with its slice. -/
def State.cluster (s : State) (g : Nat) : Cluster := tgetD s.clusters g {}
/-- Change a cluster. -/
def State.modCluster (s : State) (g : Nat) (f : Cluster → Cluster) : State :=
  { s with clusters := tset s.clusters g (f (s.cluster g)) }
/-- A block. -/
def State.block (s : State) (b : Nat) : Block := tgetD s.blocks b {}
/-- Change a resident block. -/
def State.modBlock (s : State) (b : Nat) (f : Block → Block) : State := { s with blocks := tmodify s.blocks b f }
/-- A context. -/
def State.ctx (s : State) (c : Nat) : Context := tgetD s.ctxs c {}
/-- Change a context. -/
def State.modCtx (s : State) (c : Nat) (f : Context → Context) : State := { s with ctxs := tmodify s.ctxs c f }
/-- A launch. -/
def State.launch (s : State) (l : Nat) : Launch := tgetD s.launches l {}
/-- Change a launch. -/
def State.modLaunch (s : State) (l : Nat) (f : Launch → Launch) : State := { s with launches := tmodify s.launches l f }
/-- The context of the wave that issues. -/
def State.curCtx (s : State) : Context := s.ctx s.curWave.ctx

/-- die x 16 + cluster of a core (R45). -/
def clusterOf (core : Nat) : Nat := core / 8
/-- The die of a core. -/
def dieOf (core : Nat) : Nat := core / 128
/-- The stack of a core. -/
def stackOf (core : Nat) : Nat := core / 256
/-- The unit of a level, 1 core to 6 package, that contains a core (R266). -/
def unitOf (level core : Nat) : Nat :=
  match level with
  | 0 => core | 1 => core | 2 => core / 8 | 3 => core / 128 | 4 => core / 256 | 5 => core / 1024 | _ => 0

/-- The clocks a cluster has counted since boot, at its clock step (R348, R429). -/
def State.clusterClk (s : State) (g : Nat) : Nat :=
  let c := s.cluster g
  c.clkBase + (s.clk - max c.clkSince s.nd.bootClk) * c.step / 16
/-- The tick of the slice of a cluster (R321). -/
def State.tickOf (s : State) (g : Nat) : Nat := s.clusterClk g / 64
/-- The tick of a core, which a warm reset of its die begins anew (R321). -/
def State.coreTick (s : State) (core : Nat) : Nat := (s.clusterClk (clusterOf core) - (s.cluster (clusterOf core)).coresFrom) / 64

/-- The live lanes of a wave. -/
def Wave.live (w : Wave) : LaneMask := ~~~w.retired

/-- The issuing split. -/
def Wave.split (w : Wave) : Split := tgetD w.splits w.issuing {}
/-- The issuing split of the wave that issues. -/
def State.curSplit (s : State) : Split := s.curWave.split
/-- Change the issuing split. -/
def State.modSplit (s : State) (f : Split → Split) : State :=
  s.modCur (fun w => { w with splits := tmodify w.splits w.issuing f })

/-- All latches lost (R25). -/
def Wave.loseLatches (w : Wave) : Wave := { w with latches := [] }

/-! Code addresses: the registered images and accords of a context (R34, R35, R352). -/

/-- `a` lies in the `n` bytes from `b`. -/
def inSpan (a b : Dword) (n : Nat) : Bool := b.toNat ≤ a.toNat && a.toNat < b.toNat + n

/-- The registered image that holds a code address. -/
def Context.imageAt (c : Context) (va : Dword) : Option Image :=
  ((tvals c.objs).flatMap (fun o => o.images)).find? (fun i => inSpan va i.base i.size)

/-- The registered object whose translation cache holds a code address. -/
def Context.tcodeAt (c : Context) (va : Dword) : Option CodeObj := (tvals c.objs).find? (fun o => inSpan va o.tcode o.tsize)

/-- The accord that holds a code address: base, P and S. -/
def Context.accordAt (c : Context) (va : Dword) : Option (Dword × Nat × Nat) :=
  ((tvals c.objs).flatMap (fun o => o.taccords ++ o.images.flatMap (fun i => i.accords))).find?
    (fun a => inSpan va a.1 (a.2.1 * a.2.2))

/-- The form of the image that holds a code address (R96); outside every image, Quadiner. -/
def Context.formAt (c : Context) (va : Dword) : CodeForm :=
  match c.imageAt va with
  | some i => i.form
  | none => .quadiner

/-- The memory-model revision that governs a code address (R363). -/
def Context.mmrevAt (c : Context) (va : Dword) : Nat :=
  match c.imageAt va with
  | some i => i.mmRev
  | none => 2

/-- A position as held: the plane-0 address inside an accord (R119). -/
def Context.position (c : Context) (va : Dword) : Dword :=
  match c.accordAt va with
  | some (b, _, st) => if st = 0 then va else va - BitVec.ofNat 64 ((va - b).toNat / st * st)
  | none => va

/-! Time and the drydown record (R348, R418, R419). -/

/-- TIME: nanoseconds since boot; one clk is two thirds of a nanosecond (R2, R348). -/
def State.timeNs (s : State) : Nat := (s.clk - s.nd.bootClk) * 2 / 3

/-- An event is written to the drydown record of a die, over the oldest one once all slots are full. -/
def State.logDry (s : State) (die kind store unit detail addr : Nat) : State :=
  let d := tgetD s.dry die {}
  let e : DryEvent := ⟨s.timeNs, kind, store, unit, detail, addr⟩
  { s with dry := tset s.dry die ⟨d.count + 1, tset d.slots (d.count % 4096) e⟩ }

/-- The home of an address holds its requests: steps 2 and 3 of a warm reset (R411). (DEDUCED, log 106.) -/
def State.homeHeld (s : State) (pa : Nat) : Bool :=
  match tget? s.resets (pa / 2 ^ 36 % 16) with
  | some k => k == 1 || k == 2
  | none => false

/-- The home of an address answers HOME_OFFLINE (R408, R411, R415). -/
def State.homeLost (s : State) (pa : Nat) : Bool := s.dead.contains (pa / 2 ^ 36 % 16) || s.offline.contains (pa / 2 ^ 36 % 16)

/-! Splits. -/

/-- The lowest free slot, if one is free. -/
def Wave.freeSlot (w : Wave) : Option Nat := (List.range 4).find? (fun k => (tget? w.splits k).isNone)

/-- The split that a deferred entry becomes. -/
def Deferred.split (d : Deferred) : Split :=
  { pos := d.pos, mask := d.mask, copies := d.copies, begun := d.begun, offMode := d.offMode, len := d.len }

/-- The entry that a split becomes when it leaves its slot. -/
def Split.park (sp : Split) : Deferred :=
  if sp.begun then { pos := sp.pos, mask := sp.mask, copies := sp.copies, begun := true, offMode := sp.offMode, len := sp.len }
  else { pos := sp.pos, mask := sp.mask }

/-- When a slot is free, the oldest deferred entry becomes a split in it, and the count of passes starts again (R27). -/
def Wave.fillSlot (w : Wave) : Wave :=
  match w.deferred, w.freeSlot with
  | d :: ds, some k => { w with splits := tset w.splits k d.split, deferred := ds, passes := 0 }
  | _, _ => w

/-- Every free slot takes the oldest entry in its turn (R27). -/
def Wave.fillSlots (w : Wave) : Wave := (List.range 4).foldl (fun u _ => u.fillSlot) w

/-- A split may be joined at its offset: none of its copies has taken effect, and no operation of it is in flight. (DESIGN CHOICE, log 127.) -/
def Split.joins (sp : Split) : Bool :=
  !sp.begun && (match sp.wait with
    | some (.decant _) => false
    | some (.object _ _) => false
    | some (.carve _) => false
    | some (.hold _ _) => false
    | some .quiet => false
    | _ => true)

/-- The REJOIN condition: every lane of M that has not retired belongs to the split (R31). -/
def Wave.arrived (w : Wave) (sp : Split) (m : LaneMask) : Bool := m &&& ~~~w.retired &&& ~~~sp.mask = 0

/-- The state word of a tile of a context's block (R14). (DESIGN CHOICE, log 114.) -/
def Tile.word (ctx : Nat) (t : Tile) : Nat := (if t.engine then 1 else 0) + (if t.phase then 2 else 0) + ctx % 64 * 4

/-- The writes of a core that were entered before a mark are visible at a level (R315, R323). -/
def Core.published (c : Core) (mark level : Nat) : Bool :=
  decide (level ≤ 1) || (c.wq.all (fun p => mark ≤ p.1) && c.outs.all (fun p => mark ≤ p.1 || level ≤ p.2.level))

/-- No store that a wave entered before a mark still stands in its core's queue: the outcome of each is known (R178). -/
def Core.outcomesKnown (c : Core) (wid mark : Nat) : Bool := c.wq.all (fun p => p.2.wave != wid || mark ≤ p.1)

/-- The dependencies that a release or an acquire at a level needs published have been (R323, R324): for an acquire
alone, those whose core lies in the unit of the level. -/
def depsReady (deps : List Dep) (core level : Nat) (release : Bool) : Bool :=
  deps.all (fun d => level ≤ d.level || (!release && unitOf level d.core != unitOf level core))

/-- The value a WAITA compares, as its place now holds it. -/
def State.placeNat (s : State) (space : Space) (place owner z : Nat) : Nat :=
  match space with
  | .global => memNat s.mem place z
  | .core | .cluster => memNat (s.block owner).scratch place z
  | .stack => memNat (tgetD (s.ctx (owner / 8)).stackSp (owner % 8) []) place z

/-- The matrix and engine work that a wave started has ended, and the outcome of each access it has issued is known (R124, R408). -/
def State.settledWork (s : State) (w : Wave) (wid : Nat) : Bool :=
  w.mxPending = 0 && w.engPending = 0 && w.loads.isEmpty && (s.core w.core).wq.all (fun p => p.2.wave != wid)

/-- The condition of a waiting split holds (R31, R51, R177, R179, R183, R215, R219). -/
def State.waitMet (s : State) (w : Wave) (sp : Split) : Bool :=
  match sp.wait with
  | none => true
  | some (.rejoin m) => w.arrived sp m
  | some .loads => w.loads.isEmpty
  | some (.fence level mark loads release acquire wid) =>
    w.loads.all (fun p => loads ≤ p.1) && (s.core w.core).outcomesKnown wid mark && (!release || (s.core w.core).published mark level) &&
      depsReady (s.core w.core).deps w.core level (release || !acquire)
  | some (.waita r _ woken _) => woken || s.placeNat r.space r.place r.owner r.z != r.val
  | some (.barw b off ph _) => memNat (s.block b).scratch off 8 / 2 ^ 32 % 2 != ph
  | some (.twait t expect) =>
    match w.block with
    | some b => (tgetD (s.block b).tiles t {}).word 0 % 4 == expect % 4 / 2 + expect % 2 * 2
    | none => true
  | some (.drain _ _ _) => false
  | some (.window ws) =>
    match w.block with
    | some b => ws.all (fun k => let x := tgetD (s.block b).windows k {}; x.st != .inflight && x.st != .stalled)
    | none => true
  | some (.bin k) => (tgetD (s.cluster (clusterOf w.core)).bins k {}).threads.isEmpty
  | some (.hold _ _) => false
  | some (.carve _) => true
  | some (.decant op) => (tget? s.decants op).any (fun d => d.done)
  | some .retry => true
  | some .held => true
  | some (.object _ _) => true
  | some .quiet => true
  | some (.ending wid) => s.settledWork w wid

/-- A cause of an engine's work ends the wait of a split: at WAITA, TWAIT, BARW, FENCE, DRAIN or REJOIN, at the EXIT of the last lane,
or at an instruction of 0xCA, 0xCB or 0xE0 to 0xED (R227). (DEDUCED, log 35.) -/
def Split.yieldsToCause (sp : Split) : Bool :=
  match sp.wait with
  | none => false
  | some (.rejoin _) | some (.waita _ _ _ _) | some (.barw _ _ _ _) | some (.twait _ _) | some (.drain _ _ _) | some (.ending _) => true
  | some (.fence _ _ _ _ _ _) => inRanges [(0xB5, 0xB5), (0xCA, 0xCB), (0xE0, 0xED)] sp.opc
  | some _ => inRanges [(0xCA, 0xCB), (0xE0, 0xED)] sp.opc

/-- A cause of an engine's work ends the wait of a split (R227). -/
def TrapInfo.wakes (t : TrapInfo) (sp : Split) : Bool :=
  match t.origin with
  | .touch _ w => (match sp.wait with | some (.window ws) => ws.contains w | _ => false)
  | .window _ _ | .mwindow _ _ | .gather _ _ => sp.yieldsToCause
  | _ => false

/-- The messages that wait at the home of a counter (R256). -/
def State.homeQueue (s : State) (r : Nat) : List HomeMsg := ((tget? (s.cluster (homeSlice r)).counters r).map (fun c => c.queue)).getD []

/-- A message of an operation to its home, in flight or queued there. -/
def sendsOp (op : Nat) : Instr → Bool
  | .decantGiveMsg _ _ _ o | .decantReadAtHome _ _ _ o => o == op
  | _ => false
/-- See `sendsOp`. -/
def HomeMsg.ofOp (op : Nat) : HomeMsg → Bool
  | .req _ _ _ => false
  | .give _ _ o | .read _ _ o => o == op

/-- The REQ of a slice, in flight or queued at its home. -/
def isReq (g r : Nat) : Instr → Bool
  | .decantReq q h _ _ => q == r && h == g
  | _ => false
/-- See `isReq`. -/
def HomeMsg.reqOf (g : Nat) : HomeMsg → Bool
  | .req h _ _ => h == g
  | _ => false

/-- A decant operation in flight that has had no effect and that nothing has answered: it waits at its slice or at its home, or is on
its way there. (DEDUCED, log 35.) -/
def State.withdrawable (s : State) (op : Nat) : Bool :=
  match tget? s.decants op with
  | some d =>
    let e := tgetD (s.cluster d.cluster).allow d.record {}
    !d.done && (e.later.contains op || s.net.any (sendsOp op) || (s.homeQueue d.record).any (HomeMsg.ofOp op) ||
      (e.waiters.contains op && (!e.req || s.net.any (isReq d.cluster d.record) || (s.homeQueue d.record).any (HomeMsg.reqOf d.cluster))))
  | none => true

/-- A cause of an engine's work ends the wait of a split, whose instruction has had no effect (R227). -/
def State.wakes (s : State) (t : TrapInfo) (sp : Split) : Bool :=
  t.wakes sp && (match sp.wait with
    | some (.decant op) => s.withdrawable op
    | _ => true)

/-- A pending cause of an engine's work ends the wait of a split. -/
def State.causeWakes (s : State) (w : Wave) (sp : Split) : Bool := !w.handler && w.causes.any (fun t => s.wakes t sp)

/-- A split can issue: it does not wait, its condition holds, or a cause ends its wait. -/
def State.canIssue (s : State) (w : Wave) (sp : Split) : Bool := s.waitMet w sp || s.causeWakes w sp

/-- The slots in the order in which issue passes from a slot: the next ones, wrapping, and the slot itself last. -/
def slotOrder (k : Nat) : List Nat := [(k + 1) % 4, (k + 2) % 4, (k + 3) % 4, k % 4]

/-- The split that issue passes to (R29): the next live split that can issue, else the same one. -/
def State.nextSlot (s : State) (w : Wave) : Nat :=
  ((slotOrder w.issuing).find? (fun k => (tget? w.splits k).any (s.canIssue w))).getD w.issuing

/-- Deferred entries that stand at a live split's position join it (R28); if the oldest leaves so, the count of passes
starts again for the next (R27). -/
def Wave.mergeDeferred (w : Wave) : Wave :=
  let u := w.deferred.foldl (fun u d =>
    match u.splits.find? (fun p => p.2.pos == d.pos && p.2.joins && !d.begun) with
    | some (k, sp) => { u with splits := tset u.splits k { sp with mask := sp.mask ||| d.mask } }
    | none => { u with deferred := u.deferred ++ [d] }) { w with deferred := [] }
  if u.deferred.head? = w.deferred.head? then u else { u with passes := 0 }

/-- Issue passes (R29): deferred entries merge, the pass is counted for the oldest one left while every slot is
occupied (R27), and the latches are lost if the issuing split changes (R25). -/
def State.pass (s : State) (w : Wave) : Wave :=
  let w1 := ({ w with splits := tmodify w.splits w.issuing (fun sp => { sp with yields := false }) } : Wave).mergeDeferred
  let counts := !w1.deferred.isEmpty && w1.freeSlot.isNone &&
    (match w1.split.wait with | some (.rejoin _) => false | _ => true)
  let w2 := if counts then { w1 with passes := w1.passes + 1, passSlot := w1.issuing } else w1
  let k := s.nextSlot w2
  if k = w2.issuing then w2 else { w2.loseLatches with issuing := k }

/-- Issue passes in the wave that issues. -/
def State.passCur (s : State) : State := s.modCur s.pass

/-! Ending a copy. -/

/-- The split after a copy has taken effect: the next copy at this offset, or the next offset. (DESIGN CHOICE, log 130.) -/
def Split.advance (len : Nat) (sp : Split) : Split :=
  match sp.copies.drop 1 with
  | [] => { sp with pos := sp.pos + BitVec.ofNat 64 len, wait := none, copies := [], begun := false }
  | c :: cs => { sp with wait := none, copies := c :: cs, begun := true }

/-- No copy is left to issue at this offset after the current one. -/
def Split.lastCopy (sp : Split) : Bool := (sp.copies.drop 1).isEmpty

/-- A Bintodal instruction marks every latch of the wave lost (R95). -/
def State.bintodalLatches (s : State) : State :=
  match s.issue.form with
  | .quadiner => s
  | .bintodal => s.modCur Wave.loseLatches

/-- The copy has taken effect: the split moves on. -/
def State.finish (s : State) : State := s.bintodalLatches.modSplit (Split.advance s.issue.len)

/-- The copy of a yield-point instruction has taken effect: the split moves on, and after the last copy of the offset
issue passes (R29, R37). (DESIGN CHOICE, log 131.) -/
def State.finishYield (s : State) : State :=
  if s.curSplit.lastCopy then s.finish.passCur else s.finish.modSplit (fun sp => { sp with yields := true })

/-- A pass that is owed for a yield point among the copies of the last offset is made before the next instruction. -/
def State.settled (s : State) (w : Wave) : Wave := if w.split.yields && !w.split.begun then s.pass w else w

/-- The split waits at its instruction; the copies not yet issued are fixed only once one has taken effect. -/
def Split.sleep (k : Wait) (sp : Split) : Split :=
  { sp with wait := some k, copies := if sp.begun then sp.copies else [] }

/-- The split waits at a yield point, and issue passes (R29). -/
def State.sleepYield (s : State) (k : Wait) : State := (s.modSplit (Split.sleep k)).passCur

/-- The split waits at its instruction without yielding. -/
def State.stall (s : State) (k : Wait) : State := s.modSplit (Split.sleep k)

/-! Traps. -/

/-- The code of a role in the detail of ILLEGAL_ROLE (R371). -/
def roleCode : Role → Nat
  | .v => 0 | .c => 1 | .x => 2

/-- A record as bytes: fields of a width and a value, in rising order, little-endian. -/
def fieldBytes (fs : List (Nat × Nat)) : List Byte := fs.flatMap (fun f => leBytes f.1 f.2)

/-- A position and a mask as fields (R370). -/
def splitFields (pos : Dword) (mask : LaneMask) : List (Nat × Nat) := [(8, pos.toNat), (4, mask.toNat)]

/-- The plane numbers of all lanes, two bits each (R370). -/
def Wave.planesWord (w : Wave) : Nat :=
  ((List.range 32).map (fun l => w.plane l % 4 * 4 ^ l)).foldl (· + ·) 0

/-- The mask a split awaits in REJOIN, or 0. -/
def Split.awaits (sp : Split) : LaneMask :=
  match sp.wait with
  | some (.rejoin m) => m
  | _ => 0

/-- The fields of the trap frame, width and value (R370). -/
def State.frameFields (s : State) (w : Wave) (t : TrapInfo) (resume : Dword) (fatal : Bool) : List (Nat × Nat) :=
  let slot (k : Nat) : Split := tgetD w.splits k { mask := 0 }
  let entry (k : Nat) : Deferred := (w.deferred[k]?).getD {}
  let flags := (if t.deferred then 1 else 0) + (if t.bintodal then 2 else 0) + (if w.handler then 4 else 0) +
    (if fatal then 8 else 0)
  let lid := match w.launch with
    | some l => (s.launch l).lid
    | none => 0
  [(8, resume.toNat), (8, t.pc.toNat), (8, t.faddr.toNat), (8, t.iword.toNat), (4, t.lit.toNat), (1, t.cause), (1, t.lane),
   (1, t.plane), (1, flags), (4, t.detail), (2, w.mode.toNat), (1, w.issuing), (1, w.deferred.length), (8, w.planesWord), (8, 0)] ++
  ((List.range 4).flatMap (fun k => splitFields (slot k).pos (slot k).mask)) ++
  ((List.range 4).map (fun k => (4, (slot k).awaits.toNat))) ++
  ((List.range 8).flatMap (fun k => splitFields (entry k).pos (entry k).mask)) ++
  [(4, lid), (2, w.core), (1, w.index), (25, 0)]

/-- The 256 bytes of the trap frame (R370). -/
def State.frameBytes (s : State) (w : Wave) (t : TrapInfo) (resume : Dword) (fatal : Bool) : List Byte :=
  fieldBytes (s.frameFields w t resume fatal)

/-- Bytes as a table from address 0. -/
def tblOfBytes (bs : List Byte) : Tbl Byte := memPut [] 0 bs

/-- The number of gangs of a launch. -/
def Launch.gangs (l : Launch) : Nat := if l.gang = 0 then 0 else l.blocks / l.gang

/-- A launch fails: its undispatched gangs are discarded and count as dispatched (R338). -/
def State.abandonLaunch (s : State) (k : Nat) : State := s.modLaunch k (fun l => { l with failed := true, started := l.gangs })

/-- The launch of a wave fails (R337, R372). -/
def State.failLaunch (s : State) (l : Option Nat) : State :=
  match l with
  | some k => s.abandonLaunch k
  | none => s

/-- A cause is reported as fatal (R372): the frame goes to the save area's fault log (R381), and the host is told. -/
def State.reportFatal (s : State) (w : Wave) (t : TrapInfo) (resume : Dword) : State :=
  let c := s.ctx w.ctx
  let s1 := (s.memWrite (c.saveBase + 4096 + 256 * (c.fatals % 16)) (s.frameBytes w t resume true)).memWrite (c.saveBase + 5)
    [BitVec.ofNat 8 (min 255 (c.nfatal + 1))]
  (({ s1 with out := s1.out ++ [.tell 0x0C w.core (w.ctx + 256 * t.cause)] } : State).logDry
    (dieOf w.core) 0x0C 0 w.core (w.ctx + 256 * t.cause) 0).modCtx w.ctx (fun x => { x with fatals := x.fatals + 1, nfatal := min 255 (x.nfatal + 1) })

/-- The causes that a wave's end in handler mode leaves pending (R367). -/
def Wave.leftCauses (w : Wave) : List TrapInfo := if w.handler then w.causes.map (fun t => { t with deferred := true }) else []

/-- The CARVE of a wave that ends at it is over: what it held is released, with the size as it was (R307). -/
def State.dropCarve (s : State) (wid : Nat) : State :=
  s.modCtx (tgetD s.waves wid {}).ctx (fun c =>
    if c.carves.contains wid then { c with carves := c.carves.erase wid, carveBusy := c.carveBusy && c.carves.head? != some wid } else c)

/-- A fatal trap (R372): it is reported, in handler mode with every cause still pending (R367); every lane retires and the
launch fails. (DEDUCED, log 24.) -/
def State.fatalTrap (s : State) (wid : Nat) (t : TrapInfo) (resume : Dword) : State :=
  let w := tgetD s.waves wid {}
  let s2 := (t :: w.leftCauses).foldl (fun (u : State) x => u.reportFatal w x resume) s
  ((s2.modWave wid (fun v => { v.loseLatches with
    frame := tblOfBytes (s.frameBytes w t resume true), retired := BitVec.allOnes 32, splits := [], deferred := [], causes := [],
    ended := true, failed := true })).dropCarve wid).failLaunch w.launch

/-- The mask and position of a handler's one split (R42, R368, R369). -/
def handlerSplit (w : Wave) (trapvec : Dword) : Split :=
  { pos := ((trapvec &&& 0x000FFFFFFFFFFFFC#64).setWidth 52).signExtend 64, mask := w.live }

/-- Taking an exception (R369): fatal in handler mode or with TRAPVEC.EN = 0; otherwise the frame is written, the
splits, the deferred list and the plane numbers are saved, the latches are lost, MODE is cleared, and the handler starts
as one split of every live lane in plane 0. Poison that traps a wave is recorded, with the register that held it (R407,
R419). (DEDUCED, log 37.) -/
def State.trapWave (s : State) (wid : Nat) (t : TrapInfo) (resume : Dword) : State :=
  let w := tgetD s.waves wid {}
  let tv := (s.ctx w.ctx).trapvec
  let s := if t.cause = 0x11 then
    s.logDry (dieOf w.core) 0x03 (if t.reg.isSome then 1 else 0) (t.reg.getD w.core) (w.ctx + 0x1100) t.faddr.toNat
    else s
  if w.handler || tv.toNat % 2 == 0 then s.fatalTrap wid t resume
  else s.modWave wid (fun v => { v.loseLatches with
    frame := tblOfBytes (s.frameBytes w t resume false), frameResume := resume, frameMode := v.mode,
    savedSplits := v.splits, savedDeferred := v.deferred, savedPlanes := v.planes, savedIssuing := v.issuing,
    savedPasses := v.passes, savedPassSlot := v.passSlot,
    mode := 0, splits := [(0, handlerSplit v tv)], deferred := [], planes := [], issuing := 0, passes := 0,
    handler := true })

/-- The trap record of the instruction that issues. -/
def State.info (s : State) (cause detail : Nat) (faddr : Dword := 0) (lane : Nat := 0xFF) : TrapInfo :=
  { cause := cause, detail := detail, pc := s.issue.pc, faddr := faddr, lane := lane,
    plane := if s.issue.inv then 0 else s.issue.plane, iword := s.issue.iword, lit := s.issue.lit,
    bintodal := s.issue.form == .bintodal }

/-- The wave that issues takes a trap at its instruction (RESUME = PC). -/
def State.trapHere (s : State) (t : TrapInfo) : State := s.trapWave s.issue.wave t s.issue.pc

/-- The wave that issues takes a trap that resumes after its instruction (TRAP, BRK). -/
def State.trapNext (s : State) (t : TrapInfo) : State :=
  s.trapWave s.issue.wave t (s.issue.pc + BitVec.ofNat 64 s.issue.len)

/-! Checks before issue (R90, steps 6 to 11). -/

/-- The wave is converged (R33). -/
def Wave.converged (w : Wave) : Bool :=
  w.deferred.isEmpty && w.splits.length == 1 && (w.split.mask &&& w.live) == w.live

/-- Whether a role may issue an opcode (R13); the privileged ones need handler mode. -/
def roleAllows (r : Role) (handler : Bool) (opc : Nat) : Bool :=
  if inRanges [(0xF0, 0xFF)] opc then handler
  else if inRanges [(0x40, 0x9B), (0xA0, 0xA1), (0xA4, 0xA5), (0xA8, 0xB2), (0xB8, 0xBD), (0xC0, 0xC9)] opc then r == .v
  else if inRanges [(0xE0, 0xE4), (0xED, 0xED)] opc then r == .c
  else if inRanges [(0xE5, 0xEC)] opc then r == .v || r == .c
  else if inRanges [(0xD0, 0xD4)] opc then r == .x
  else true

/-- The target type of CVTV, for the pair rule of its D field; int32 for every other instruction. -/
def cvtTarget : Instr → EType
  | .cvtv _ _ b => b
  | _ => .int32

/-- The vector registers a field names, first to last, given whether it names a pair. -/
def fieldVregs (pair : Bool) : Field → List Nat
  | .vd (.reg r) => if pair then [r.val, r.val + 1] else [r.val]
  | .vr r => if pair then [r.val, r.val + 1] else [r.val]
  | .vs r => if pair then [r.val, r.val + 1] else [r.val]
  | .v (.reg r) => if pair then [r.val, r.val + 1] else [r.val]
  | .va q => [2 * q.val, 2 * q.val + 1]
  | .vq q => [4 * q.val, 4 * q.val + 1, 4 * q.val + 2, 4 * q.val + 3]
  | _ => []

/-- The scalar registers a field names. -/
def fieldSregs : Field → List Nat
  | .sd (.reg r) => [r.val]
  | .sr r => [r.val]
  | .ss r => [r.val]
  | .sp q => [2 * q.val, 2 * q.val + 1]
  | .sq q => [4 * q.val, 4 * q.val + 1, 4 * q.val + 2, 4 * q.val + 3]
  | .s (.reg r) => [r.val]
  | _ => []

/-- A pair that starts at an odd register (R17). -/
def oddPair (pair : Bool) (f : Field) : Bool :=
  match f with
  | .va _ => false
  | .vq _ => false
  | _ => pair && (match fieldVregs true f with | r :: _ => r % 2 == 1 | [] => false)

/-- An immediate whose kind its operand type cannot take (R82). -/
def badImmediate (t : EType) : Field → Bool
  | .s .wave | .s .core | .s (.inl _) | .v .lane | .v .wave | .v .plane | .v .core | .v (.inl _) =>
    [EType.e4m3, .e5m2, .sx8, .sx5, .sx3].contains t
  | .s (.fconst _) | .v (.fconst _) => !etIsF t
  | _ => false

/-- A scalar-class latch operand. -/
def fieldSLatch : Field → Option Nat
  | .s (.latch k) => some k.val
  | _ => none

/-- A latch operand of either class. -/
def fieldAnyLatch : Field → Option Nat
  | .s (.latch k) => some k.val
  | .v (.latch k) => some k.val
  | _ => none

/-- The accumulator tile a field names, or 0. -/
def fieldTile : Field → Nat
  | .td a => a.val
  | _ => 0

/-- The field names an accumulator tile at or above the block's count (R18). -/
def State.tileBeyond (s : State) (f : Field) : Bool :=
  match f with
  | .td a => (match s.curWave.block with
    | some b => decide ((s.block b).accum ≤ a.val)
    | none => true)
  | _ => false

/-- A latch that holds a vector result, or waits for one from a load (R24). -/
def Wave.latchIsVector (w : Wave) (plane k : Nat) : Bool :=
  match w.latch plane k with
  | .vec _ _ => true
  | .pending l => (tget? w.loads l).any (fun p => match p.dst with
    | .scalar _ _ _ => false
    | _ => true)
  | _ => false

/-- The planes whose latch a source operand of the issuing copy reads: those of its lanes for a vector operand of a
plane-invariant instruction, else the copy's own. -/
def State.readPlanes (s : State) (f : Field) : List Nat :=
  match f with
  | .v _ => s.latchPlanes
  | _ => [s.issuePlane]

/-- The operands that an instruction reads: TLBINV and ICINV of everything do not read A (R379). -/
def usedOperands (i : Instr) : Option Operands :=
  match i with
  | .tlbinv _ true | .icinv _ true => i.operands.map (fun o => { o with a := .z })
  | _ => i.operands

/-- The split stands in a wait of WAITA, BARW, TWAIT, DRAIN or FENCE that its instruction began: its guard and its operands were
taken then, and what comes of it is the end of that wait (R177, R179, R180, R183, R215). -/
def Split.waitsAt (sp : Split) (opc : Nat) : Bool :=
  sp.opc == opc && (match sp.wait with
    | some (.waita _ _ _ _) => opc == 0xB6
    | some (.barw _ _ _ _) => opc == 0xCD
    | some (.twait _ _) => opc == 0xCB
    | some (.drain _ _ _) => opc == 0xB7
    | some .quiet => opc == 0xB7
    | some (.fence _ _ _ _ _ _) => opc == 0xB5
    | _ => false)

/-- The first cause that the checks of steps 6 to 11 find for the copy that issues (R90, R371): odd pairs and SCOPE 7,
role, types, register range, convergence and vector latches, lost latches. -/
def preIssue (i : Instr) (s : State) : Option TrapInfo :=
  match usedOperands i with
  | none => none
  | some o =>
    let opc := i.opc
    let w := s.curWave
    let t := s.etype
    let pd := pairD opc t (cvtTarget i)
    let pa := pairA opc t
    let pb := pairB opc t
    let ta := operandTypeA opc t
    let tb := operandTypeB opc t
    let regs := fieldVregs pd o.d ++ fieldVregs pa o.a ++ fieldVregs pb o.b
    let latches := [o.a, o.b].filterMap (fun f => (fieldAnyLatch f).map (fun k => (f, k)))
    if opc = 0 || w.split.waitsAt opc then none
    else if oddPair pd o.d || oddPair pa o.a || oddPair pb o.b || (usesScope opc && modeScope s.issue.mode == 7) then
      some (s.info 0x01 0)
    else if !roleAllows w.role w.handler opc then some (s.info 0x03 (roleCode w.role))
    else if !typeAccepted opc t then some (s.info 0x02 (etCode t))
    else if badImmediate ta o.a then some (s.info 0x02 (etCode ta))
    else if badImmediate tb o.b then some (s.info 0x02 (etCode tb))
    else if opc = 0x80 && etCode (cvtTarget i) ≥ 13 then some (s.info 0x02 (etCode (cvtTarget i)))
    else if regs.any (fun r => w.nvregs ≤ r) then some (s.info 0x06 ((regs.find? (fun r => w.nvregs ≤ r)).getD 0))
    else if s.tileBeyond o.d then some (s.info 0x06 (fieldTile o.d))
    else if needsConverged opc && !w.converged then some (s.info 0x04 w.split.mask.toNat)
    else if [o.a, o.b].any (fun f => match fieldSLatch f with
        | some k => w.latchIsVector s.issuePlane k
        | none => false) then
      some (s.info 0x04 w.split.mask.toNat)
    else match latches.find? (fun p => (s.readPlanes p.1).any (fun q => w.latch q p.2 == .lost)) with
      | some p => some (s.info 0x05 p.2)
      | none => none

/-! Interlocks (R24, R171). -/

/-- The registers a load in flight will write. -/
def LoadDst.vregs : LoadDst → List Nat
  | .vec (some r) wide => if wide then [r, r + 1] else [r]
  | .quad r => [r, r + 1, r + 2, r + 3]
  | _ => []
/-- See `LoadDst.vregs`. -/
def LoadDst.sregs : LoadDst → List Nat
  | .scalar (some r) _ _ => [r]
  | _ => []

/-- A memory instruction of the wave, at which a load's poison is taken (R167). -/
def isMemory (opc : Nat) : Bool := inRanges [(0xA0, 0xCF)] opc

/-- A line holds poison somewhere, or its home is lost: a load of it in flight may end in a cause (R167). -/
def State.suspect (s : State) (line : Nat) : Bool :=
  s.homeLost line || s.poison.any (fun g => g / 64 * 64 = line) ||
    s.cores.any (fun p => (tget? p.2.l1 line).any (fun x => !x.bad.isEmpty)) ||
    s.stackTbl.any (fun p => (tget? p.2.lines line).any (fun c => !c.bad.isEmpty))

/-- A load in flight of the wave has met poison or may meet it: the wave's next memory instruction waits for its data, since
the trap comes before that instruction (R167). (DEDUCED, log 160.) -/
def State.poisonDue (s : State) : Bool :=
  !s.curWave.handler && (tvals s.curWave.loads).any (fun p => p.lanes.any (fun x =>
    x.cause != 0 || (x.got.isNone && s.suspect (x.pa / 64 * 64))))

/-- The instruction waits at issue: it names a register that a load in flight will write, reads a latch that waits for one, or
is a memory instruction before which the cause of a load in flight may come. -/
def interlocked (i : Instr) (s : State) : Bool :=
  match usedOperands i with
  | none => false
  | some o =>
    let w := s.curWave
    let t := s.etype
    let vs := fieldVregs (pairD i.opc t (cvtTarget i)) o.d ++ fieldVregs (pairA i.opc t) o.a ++ fieldVregs (pairB i.opc t) o.b
    let ss := fieldSregs o.d ++ fieldSregs o.a ++ fieldSregs o.b
    !w.split.waitsAt i.opc && ((tvals w.loads).any (fun p => p.dst.vregs.any vs.contains || p.dst.sregs.any ss.contains) ||
      [o.a, o.b].any (fun f => match fieldAnyLatch f with
        | some k => (s.readPlanes f).any (fun q => match w.latch q k with
          | .pending _ => (fieldSLatch f).isNone || !w.latchIsVector q k
          | _ => false)
        | none => false) ||
      (isMemory i.opc && s.poisonDue))

/-! Access classes (R168, R282). -/

/-- What an access is. -/
inductive AccessKind where
  | load | store | rmw
deriving DecidableEq, Repr

/-- The kind of access an opcode makes, if any. -/
def accessKind (opc : Nat) : Option AccessKind :=
  if [0xA0, 0xA2, 0xA4, 0xB6, 0xC0, 0xC2, 0xC4, 0xC6, 0xCE].contains opc then some .load
  else if [0xA1, 0xA3, 0xA5, 0xC1, 0xC3, 0xC5, 0xC7, 0xCF].contains opc then some .store
  else if inRanges [(0xA8, 0xB4), (0xB8, 0xBD), (0xC8, 0xC9)] opc then some .rmw
  else none

/-- The class of an access: its level, 1 core to 6 package, and whether it acquires and releases. -/
structure AccessClass where
  level : Nat := 1
  acquire : Bool := false
  release : Bool := false
deriving DecidableEq, Repr

/-- The class of the issuing instruction's access (R168): plain accesses are core-scope relaxed ones (R267), or die-scope
acquires and releases when strengthened (R282); BARV is a cluster release (R182). -/
def State.accessClass (s : State) (opc : Nat) : AccessClass :=
  let sc := modeScope s.issue.mode
  let acq := modeOrd s.issue.mode % 2 == 1
  let rel := modeOrd s.issue.mode ≥ 2
  let strong := s.issue.mmrev == 1 || s.curCtx.ctxmode.toNat % 2 == 1
  match accessKind opc with
  | some .load => if sc = 0 then (if strong then ⟨3, true, false⟩ else {}) else ⟨sc, acq, false⟩
  | some .store => if sc = 0 then (if strong then ⟨3, false, true⟩ else {}) else ⟨sc, false, rel⟩
  | some .rmw => ⟨if sc = 0 then 1 else sc, acq, rel⟩
  | none => if opc = 0xCC then ⟨2, false, true⟩ else {}

/-! Deferred causes (R367). -/

/-- An EXIT that retires the wave's last lane. -/
def exitsLast (i : Instr) (s : State) : Bool :=
  match i with
  | .exit => s.curWave.live &&& ~~~s.activeMask == 0
  | _ => false

/-- The issuing split has a decant operation in flight that has taken effect or has been answered, which no cause interrupts. (DEDUCED, log 35.) -/
def State.decanting (s : State) : Bool :=
  match s.curSplit.wait with
  | some (.decant op) => !s.withdrawable op
  | _ => false

/-- A REQ asks for what the waiting takes of its slice still need. -/
def HomeMsg.reask (g sum first : Nat) : HomeMsg → HomeMsg
  | .req h t n => if h = g then .req h sum first else .req h t n
  | m => m
/-- See `HomeMsg.reask`. -/
def reaskNet (g r sum first : Nat) : Instr → Instr
  | .decantReq q h t n => if q = r && h = g then .decantReq q h sum first else .decantReq q h t n
  | i => i

/-- The units that some takes ask for (R256). -/
def State.takeSum (s : State) (ops : List Nat) : Nat :=
  min (2 ^ 48 - 1) ((ops.map (fun op => (tgetD s.decants op {}).n)).foldl (· + ·) 0)

/-- An operation leaves its slice and its home. The REQ of the slice then asks for the takes that are left, or is gone with the last. -/
def State.withdrawOp (s : State) (op : Nat) (d : DecantOp) : State :=
  let g := d.cluster
  let r := d.record
  let e := tgetD (s.cluster g).allow r {}
  let ws := e.waiters.filter (fun x => x != op)
  let asks := e.waiters.contains op && e.req
  let sum := s.takeSum ws
  let first := (tgetD s.decants (ws.headD 0) {}).n
  let e1 : AllowEntry := { e with
    waiters := ws, later := e.later.filter (fun x => x != op), req := e.req && !(asks && ws.isEmpty),
    sum := if asks then sum else e.sum, first := if asks then ws.headD 0 else e.first }
  let net := s.net.filter (fun i => !sendsOp op i && !(asks && ws.isEmpty && isReq g r i))
  let queue (q : List HomeMsg) : List HomeMsg :=
    let q1 := q.filter (fun m => !m.ofOp op && !(asks && ws.isEmpty && m.reqOf g))
    if asks then q1.map (HomeMsg.reask g sum first) else q1
  let s1 : State := { s with decants := tdel s.decants op, net := if asks then net.map (reaskNet g r sum first) else net }
  (s1.modCluster g (fun c => { c with allow := tset c.allow r e1 })).modCluster (homeSlice r) (fun c =>
    { c with counters := tmodify c.counters r (fun x => { x with queue := queue x.queue }) })

/-- A conversion that nothing else waits for is given up: a range being declared is not an object, and a dropped one stays (R239,
R240). -/
def State.withdrawObject (s : State) (n gen : Nat) : State :=
  let shared := s.waves.any (fun p => p.2.splits.any (fun q =>
    q.2.wait == some (.object n gen) && !(p.1 = s.issue.wave && q.1 = s.curWave.issuing)))
  let undo (o : ObjEntry) : ObjEntry :=
    if o.declaring then { gen := gen - 1 } else if shared then o else { o with dropping := false }
  { s with objects := (List.range 8).foldl (fun (t : Tbl ObjEntry) k =>
      let o := tgetD t (k * 4096 + n) {}
      if o.live && o.gen = gen then tset t (k * 4096 + n) (undo o) else t) s.objects }

/-- The operation in which the issuing split stalls is withdrawn: it has had no effect, and the instruction executes again
after trap return (R227). -/
def State.withdraw (s : State) : State :=
  match s.curSplit.wait with
  | some (.decant op) => (match tget? s.decants op with
    | some d => s.withdrawOp op d
    | none => s)
  | some (.object n gen) => s.withdrawObject n gen
  | _ => s

/-- A FENCE or a release: the outcome of every earlier store of the wave is known before it completes (R178, R408). -/
def State.releases (s : State) (i : Instr) : Bool := i.opc == 0xB5 || (s.accessClass i.opc).release

/-- An acquire of the wave is in flight: a load, or a fence in which one of its splits waits. Later accesses wait for it (R177,
R273, R277). -/
def State.acquiring (s : State) (w : Wave) : Bool :=
  (tvals w.loads).any (fun p => p.acquire) || (tvals w.splits).any (fun sp => match sp.wait with
    | some (.fence _ _ _ _ acquire _) => acquire && !s.waitMet w sp
    | _ => false)

/-- A memory instruction, or one that reads the destination of a load (R167). -/
def readsResult (i : Instr) (s : State) (dst : LoadDst) : Bool :=
  isMemory i.opc ||
    (match usedOperands i with
      | some o =>
        let vs := fieldVregs (pairA i.opc s.etype) o.a ++ fieldVregs (pairB i.opc s.etype) o.b ++
          (match o.d with | .vd _ => [] | f => fieldVregs (pairD i.opc s.etype .int32) f)
        let ss := fieldSregs o.a ++ fieldSregs o.b ++ (match o.d with | .sd _ => [] | f => fieldSregs f)
        dst.vregs.any vs.contains || dst.sregs.any ss.contains
      | none => false)

/-- The cause is that of an access of the wave itself. -/
def Origin.access : Origin → Bool
  | .poison _ => true
  | .store => true
  | .rmw _ => true
  | _ => false

/-- The cause is that of a lost write (R283, R408). -/
def Origin.lostWrite : Origin → Bool
  | .store => true
  | .rmw _ => true
  | _ => false

/-- The instruction is a taking point of a cause (R167, R207, R227, R367); one whose operation has been answered completes first. -/
def takesCause (i : Instr) (s : State) (t : TrapInfo) : Bool :=
  !s.decanting && (s.curWave.resumed || exitsLast i s || s.wakes t s.curSplit ||
  match t.origin with
  | .own => true
  | .store => s.releases i
  | .loss => s.curSplit.wait.isNone && !s.acquiring s.curWave
  | .matrix => inRanges [(0xD0, 0xD4)] i.opc
  | .mwindow _ _ => inRanges [(0xD0, 0xD4)] i.opc
  | .touch _ _ => false
  | .window _ _ => inRanges [(0xCA, 0xCB), (0xCD, 0xCD), (0xB5, 0xB6), (0xE0, 0xED)] i.opc
  | .gather _ _ => inRanges [(0xCA, 0xCB), (0xCD, 0xCD), (0xB5, 0xB6), (0xE0, 0xED)] i.opc
  | .poison dst => readsResult i s dst
  | .rmw dst => s.releases i || readsResult i s dst)

/-- An access that the wave issued before the one at fault may still end in a cause that the instruction takes, which comes
first (R178). -/
def State.earlierOpen (s : State) (i : Instr) (t : TrapInfo) : Bool :=
  t.origin.access && (s.releases i || exitsLast i s) && ((tvals s.curWave.loads).any (fun p => p.issuedAt < t.issuedAt) ||
    (tvals (s.core s.curWave.core).wq).any (fun e => e.wave = s.issue.wave && e.entered < t.issuedAt))

/-- The oldest pending cause that the instruction takes; none in handler mode. -/
def dueCause (i : Instr) (s : State) : Option TrapInfo :=
  if s.curWave.handler then none else s.curWave.causes.find? (fun t => takesCause i s t && !s.earlierOpen i t)

/-- The handler has taken a cause: stalled work it belongs to may replay at trap return (R217, R227). -/
def State.markTaken (s : State) (t : TrapInfo) : State :=
  match t.origin with
  | .window b k | .touch b k | .mwindow b k => s.modBlock b (fun x => { x with windows := tmodify x.windows k (fun w => { w with taken := true }) })
  | .gather g q => s.modCluster g (fun x =>
      { x with gather := x.gather.map (fun c => if c.seq = q then { c with taken := true } else c) })
  | _ => s

/-- Taking a deferred cause: RESUME is the instruction at which it is taken (R367, R371). A cause taken at the touching
load that waits for the copy is that load's own (R227). -/
def State.trapDeferred (s : State) (t : TrapInfo) : State :=
  ((s.withdraw.modCur (fun w => { w with causes := w.causes.erase t, resumed := false })).markTaken t).trapHere
    (match t.origin with
      | .touch _ _ => s.info t.cause t.detail t.faddr
      | _ => { t with deferred := true })

/-- The wave of `State.issue` is resident. -/
def State.waveAlive (s : State) : Bool := (tget? s.waves s.issue.wave).isSome

/-! Errors in a wave's own storage (R403, R407). -/

/-- The opcodes that do not read the guard: TRAPZ, NOP, REJOIN, YIELD, MASKRD and TRET (R115, R123, R125, R128, R374). -/
def guardFree (opc : Nat) : Bool := [0x00, 0x01, 0x25, 0x27, 0x36, 0xF2].contains opc

/-- The opcodes whose lanes read other lanes' words: the cross-lane instructions and MOVVS (R151, R155). -/
def crossLane (opc : Nat) : Bool := inRanges [(0x8B, 0x98), (0x9A, 0x9A)] opc

/-- A field is a vector source, with the registers it names. -/
def readVregs (pair : Bool) : Field → List Nat
  | .vd _ => []
  | f => fieldVregs pair f
/-- A field is a scalar source, with the registers it names. -/
def readSregs : Field → List Nat
  | .sd _ | .sp _ => []
  | f => fieldSregs f
/-- The predicate a field reads. -/
def readPred : Field → Option Nat
  | .p x => some x.p.val
  | _ => none

/-- The lanes whose words a vector source is read in: SELV reads every lane of the issuing split and plane, a cross-lane
instruction and PACKSXV every lane of the wave, UNPKSXV the lanes that its string spans, another active(w) (R147, R148). -/
def State.readLanes (s : State) (i : Instr) : LaneMask :=
  match i with
  | .packsxv _ _ _ => BitVec.allOnes 32
  | .unpksxv _ _ k => LaneMask.ofLanes (List.range ((2 * sxSize k + 3) / 4))
  | _ => if crossLane i.opc then BitVec.allOnes 32 else if i.opc = 0x8A then s.issue.lanes else s.activeMask

/-- An instruction reads a word of its wave's storage. MODE is read by every Quadiner instruction but TRET (R20, R95, R374),
the split state by every instruction. (DEDUCED, log 109.) -/
def readsCell (i : Instr) (s : State) (c : RegCell) : Bool :=
  match usedOperands i with
  | none => false
  | some o =>
    let t := s.etype
    let g := modeGuard s.issue.mode % 8
    match c with
    | .mode h => h == s.curWave.handler && s.issue.form == .quadiner && i.opc != 0xF2
    | .split h => h == s.curWave.handler
    | .p k => k != 0 && ((!guardFree i.opc && g == k) || [o.a, o.b].any (fun f => readPred f == some k))
    | .s r => (readSregs o.d ++ readSregs o.a ++ readSregs o.b).contains r
    | .v r l => (s.readLanes i).getLsbD l &&
        (readVregs (pairD i.opc t (cvtTarget i)) o.d ++ readVregs (pairA i.opc t) o.a ++ readVregs (pairB i.opc t) o.b).contains r

/-- The number of a word's register in the drydown entry; 0 for MODE and the split state. -/
def RegCell.number : RegCell → Nat
  | .v r _ => r
  | .s r => r
  | .p k => k
  | _ => 0
/-- The lane of a word, or 0xFF. -/
def RegCell.lane : RegCell → Nat
  | .v _ l => l
  | _ => 0xFF

/-- MEM_POISON of an instruction that reads a word or a latch with an uncorrectable error: FADDR is 0, and LANE the lowest
lane concerned (R407). -/
def struckCause (i : Instr) (s : State) : Option TrapInfo :=
  let w := s.curWave
  if i.opc = 0 || w.split.waitsAt i.opc then none
  else match w.struck.filter (readsCell i s) with
  | c :: cs =>
    let low := cs.foldl (fun (b c : RegCell) => if c.lane < b.lane then c else b) c
    some { s.info 0x11 0 0 low.lane with reg := some low.number }
  | [] =>
    match usedOperands i with
    | none => none
    | some o =>
      (([o.a, o.b].filterMap (fun f => (fieldAnyLatch f).map (fun k => (f, k)))).find? (fun p =>
        (s.readPlanes p.1).any (fun q => w.latch q p.2 == .struck))).map (fun p => { s.info 0x11 0 with reg := some p.2 })

/-- The shape of every wave instruction: it waits while a load in flight holds one of its operands, takes a deferred
cause that is due at it, takes the first cause of the checks before issue, takes MEM_POISON if it reads a word of the wave
with an uncorrectable error (step 12 of R90), and otherwise has its effect. -/
def issueOp (i : Instr) (s : State) (body : State → State) : Host.Outcome State Fault Refusal :=
  if !s.waveAlive then .fault .noWave
  else if interlocked i s then .next s
  else match dueCause i s with
    | some t => .next (s.trapDeferred t)
    | none =>
      match preIssue i s with
      | some t => .next (s.trapHere t)
      | none =>
        match struckCause i s with
        | some t => .next (s.trapHere t)
        | none => .next (body (s.modCur (fun w => { w with resumed := false })))

end Sys2Proof.Machine
end

