-- ==== Sys2Proof/Machine/Paging.lean ====
section
/-! DEFINITION. Address translation (R288 to R291, R375 to R377). -/
namespace Sys2Proof.Machine

/-- What an access needs of a page (R377). -/
inductive Access where
  | read | write | rmw | fetch
deriving DecidableEq, Repr

/-- A translation that fails: the cause (0x0C or 0x0D) and the detail of R373. -/
structure XFault where
  cause : Nat
  detail : Nat
deriving DecidableEq, Repr

/-- The WRITE and FETCH bits of the detail (R373). -/
def Access.bits : Access → Nat
  | .read => 0 | .write => 32 | .rmw => 32 | .fetch => 64

/-- Bits [63:52] all equal bit [51] (R160). -/
def canonical (va : Dword) : Bool :=
  va.toNat / 2 ^ 51 == 0 || va.toNat / 2 ^ 51 == 2 ^ 13 - 1

/-- A physical address names DRAM: below 2^40, local offset below 48 GiB (R288). -/
def isDram (pa : Nat) : Bool := pa < 2 ^ 40 && pa % 2 ^ 36 < 48 * 2 ^ 30

/-- The index of a virtual address at a level, and the size of the page a leaf of that level maps (R375). -/
def tableIndex (va : Dword) (level : Nat) : Nat :=
  match level with
  | 0 => va.toNat / 2 ^ 39 % 2 ^ 13
  | 1 => va.toNat / 2 ^ 30 % 2 ^ 9
  | 2 => va.toNat / 2 ^ 21 % 2 ^ 9
  | _ => va.toNat / 2 ^ 16 % 2 ^ 5
/-- See `tableIndex`. -/
def pageSize (level : Nat) : Nat :=
  match level with
  | 1 => 2 ^ 30 | 2 => 2 ^ 21 | _ => 2 ^ 16
/-- The size in bytes of a table of a level (R375). -/
def tableSize (level : Nat) : Nat :=
  match level with
  | 0 => 65536 | 1 => 4096 | 2 => 4096 | _ => 256

/-- The dies of a page's group: the first and the number (R290). -/
def pageGroup (leaf : Nat) : Nat × Nat :=
  let hdie := leaf / 2 ^ 36 % 16
  match leaf / 2 ^ 40 % 4 with
  | 0 => (hdie, 1)
  | 1 => (hdie / 2 * 2, 2)
  | 2 => (hdie / 8 * 8, 8)
  | _ => (0, 16)

/-- A leaf entry is malformed: a nonzero reserved bit, or a base that its share does not fit (R291, R376, R377). -/
def leafMalformed (leaf size : Nat) : Bool :=
  let share := size / (pageGroup leaf).2
  let base := leaf / 2 ^ 12 % 2 ^ 24 * 4096
  leaf / 2 ^ 5 % 2 ^ 7 != 0 || leaf / 2 ^ 42 != 0 || base % share != 0 || base + share > 48 * 2 ^ 30

/-- The physical address of byte `o` of a page (R290). -/
def placeByte (leaf o : Nat) : Nat :=
  let (g0, n) := pageGroup leaf
  let hdie := leaf / 2 ^ 36 % 16
  let base := leaf / 2 ^ 12 % 2 ^ 24 * 4096
  let k := o / 4096
  (g0 + (hdie - g0 + k) % n) * 2 ^ 36 + base + k / n * 4096 + o % 4096

/-- The walk from a table of level `level`, `fuel` levels left: the leaf and its level, or a fault's KIND and level. -/
def walkFrom (m : Tbl Byte) (va : Dword) : Nat → Nat → Nat → Except (Nat × Nat) (Nat × Nat)
  | 0, level, _ => .error (1, level)
  | fuel + 1, level, table =>
    let e := memNat m (table + 8 * tableIndex va level) 8
    if e % 2 = 0 then .error (0, level)
    else if e / 2 % 2 = 1 then
      if level = 0 || leafMalformed e (pageSize level) then .error (1, level) else .ok (e, level)
    else
      let next := e / 2 ^ 8 % 2 ^ 32 * 256
      if level = 3 || e / 4 % 64 != 0 || e / 2 ^ 40 != 0 || next % tableSize (level + 1) != 0 || !isDram next then
        .error (1, level)
      else walkFrom m va fuel (level + 1) next

/-- The walk of a context's page tables. -/
def State.walk (s : State) (ctx : Nat) (va : Dword) : Except (Nat × Nat) (Nat × Nat) :=
  walkFrom s.mem va 4 0 (s.ctx ctx).ptroot

/-- The permission an access lacks in a leaf, as the bits of KIND (R373). -/
def lacking (leaf : Nat) (a : Access) : Nat :=
  let r := if leaf / 4 % 2 = 1 then 0 else 1
  let w := if leaf / 8 % 2 = 1 then 0 else 2
  let x := if leaf / 16 % 2 = 1 then 0 else 4
  match a with
  | .read => r | .write => w | .rmw => r + w | .fetch => x

/-- The key under which a core caches the page of an address. -/
def cacheKey (ctx : Nat) (va : Dword) (size : Nat) : Nat := ctx * 2 ^ 64 + va.toNat / size * size

/-- The cached translation of an address in a core, if it holds one. -/
def Core.tlbAt (c : Core) (ctx : Nat) (va : Dword) : Option TlbEntry :=
  [2 ^ 16, 2 ^ 21, 2 ^ 30].findSome? (fun z =>
    match tget? c.tlb (cacheKey ctx va z) with
    | some e => if e.size = z then some e else none
    | none => none)

/-- The level of a page size. -/
def levelOfSize (z : Nat) : Nat := if z = 2 ^ 30 then 1 else if z = 2 ^ 21 then 2 else 3

/-- A permitted leaf gives the physical address; otherwise PROTECTION (R377). -/
def permit (leaf level : Nat) (va : Dword) (a : Access) : Except XFault Nat :=
  if lacking leaf a = 0 then .ok (placeByte leaf (va.toNat % pageSize level))
  else .error ⟨0x0D, lacking leaf a + level * 8 + a.bits⟩

/-- The translation of an address without a cached entry (engines, RDMA, and the walk of a core). -/
def State.xlateWalk (s : State) (ctx : Nat) (va : Dword) (a : Access) : Except XFault Nat :=
  if !canonical va then .error ⟨0x0C, 2 + a.bits⟩
  else match s.walk ctx va with
    | .error (kind, level) => .error ⟨0x0C, kind + level * 8 + a.bits⟩
    | .ok (leaf, level) => permit leaf level va a

/-- The translation of an address by a core, from its cached entry or by a walk. -/
def State.xlate (s : State) (core ctx : Nat) (va : Dword) (a : Access) : Except XFault Nat :=
  if !canonical va then .error ⟨0x0C, 2 + a.bits⟩
  else match (s.core core).tlbAt ctx va with
    | some e => permit e.leaf.toNat (levelOfSize e.size) va a
    | none => s.xlateWalk ctx va a

/-- The core caches the entry of an address after a walk that finds one (R377). -/
def State.cacheXlate (s : State) (core ctx : Nat) (va : Dword) : State :=
  match (s.core core).tlbAt ctx va with
  | some _ => s
  | none =>
    if !canonical va then s
    else match s.walk ctx va with
      | .error _ => s
      | .ok (leaf, level) => s.modCore core (fun c =>
          { c with tlb := tset c.tlb (cacheKey ctx va (pageSize level)) ⟨pageSize level, BitVec.ofNat 64 leaf⟩ })

end Sys2Proof.Machine
end

