-- ==== Sys2Proof/Machine/Control.lean ====
section
/-! DEFINITION. Control transfers, REJOIN, EXIT, YIELD, plane numbers, MODE, traps on request and CRRD, opcodes 0x00,
0x01 and 0x20 to 0x2F (R109 to R132), with entry into translated code (R358, R360). -/
namespace Sys2Proof.Machine

/-! Transfers (R119 to R121, R26). -/

/-- The target operand is an immediate, a literal or IMM16, which gives a displacement (R119). -/
def SSrcRelative : SSrc → Bool
  | .reg _ => false
  | .latch _ => false
  | _ => true

/-- g of R119: 1 in a Quadiner image, 8 in a Bintodal one. -/
def State.gran (s : State) : Nat := match s.issue.form with | .quadiner => 1 | .bintodal => 8

/-- The instruction size to which a position is aligned (R79, R92). -/
def formAlign : CodeForm → Nat
  | .quadiner => 4 | .bintodal => 8

/-- A new position, if it is aligned for the form of the image that holds it (R79, R92). -/
def State.alignedTarget (s : State) (p : Dword) : Except Nat Dword :=
  if p.toNat % formAlign (s.curCtx.formAt p) = 0 then .ok p else .error 0x0B

/-- The new position of a transfer to an absolute code address, or the cause that stops it (R119). -/
def State.absoluteTarget (s : State) (t : Dword) : Except Nat Dword := s.alignedTarget (s.curCtx.position t)

/-- The new position of a transfer, or the cause that stops it (R119). (DEDUCED, log 19; DESIGN CHOICE, log 150.) -/
def State.target (s : State) (x : SSrc) : Except Nat Dword :=
  let t := s.readS64 x
  if SSrcRelative x then
    let off : Int := t.toInt * s.gran
    match s.curCtx.accordAt s.issue.pc with
    | some (ba, _, st) => if off < 0 || off ≥ st then .error 0x01 else s.alignedTarget (ba + BitVec.ofInt 64 off)
    | none => s.alignedTarget (s.issue.pc + BitVec.ofInt 64 off)
  else s.absoluteTarget t

/-- The split moves to a position. -/
def Split.goto (p : Dword) (sp : Split) : Split := { sp with pos := p, wait := none, copies := [], begun := false }

/-- The taken lanes of the issuing split go to the target (R26); none when the last case applies. The not-taken lanes
stand at the fall-through position. (DESIGN CHOICE, log 127.) -/
def Wave.place (w : Wave) (taken : LaneMask) (target : Dword) (len : Nat) : Option Wave :=
  let sp := w.split
  let rest := sp.mask &&& ~~~taken
  let stay (w : Wave) : Wave :=
    { w with splits := tmodify w.splits w.issuing (fun sp => { Split.advance len sp with mask := rest }) }
  if taken = 0 then some { w with splits := tmodify w.splits w.issuing (Split.advance len) }
  else if rest = 0 then some { w with splits := tmodify w.splits w.issuing (Split.goto target) }
  else match w.splits.find? (fun p => p.1 != w.issuing && p.2.pos == target && p.2.joins) with
    | some (k, other) => some (stay { w with splits := tset w.splits k { other with mask := other.mask ||| taken } })
    | none =>
      match w.deferred.findIdx? (fun d => d.pos == target && !d.begun) with
      | some k => some (stay { w with deferred := w.deferred.modify k (fun d => { d with mask := d.mask ||| taken }) })
      | none =>
        match w.freeSlot with
        | some k => some (stay { w with splits := tset w.splits k { pos := target, mask := taken } })
        | none =>
          if w.deferred.length < 8 then some (stay { w with deferred := w.deferred ++ [{ pos := target, mask := taken }] })
          else none

/-! Translated code (R357 to R360). -/

/-- The bytes at a virtual address as a context reads them, if every one can be translated. -/
def State.readVa (s : State) (ctx : Nat) (va : Dword) (n : Nat) : Option Nat :=
  match s.xlateWalk ctx va .read with
  | .ok pa => some (memNat s.mem pa n)
  | .error _ => none

/-- The object and the image of a wave's launch, when it runs a Bintodal image with the forced mode off (R358). -/
def State.bintodalLaunch (s : State) (w : Wave) : Option (CodeObj × Image × Nat) :=
  match w.launch with
  | none => none
  | some l =>
    let x := s.launch l
    match x.obj, x.image with
    | some o, some k =>
      match tget? (s.ctx w.ctx).objs o with
      | some obj =>
        match obj.images[k]? with
        | some im => if im.form == .bintodal && !x.forced then some (obj, im, k) else none
        | none => none
      | none => none
    | _, _ => none

/-- The address of a function's translation record (R357). -/
def CodeObj.record (o : CodeObj) (f : Nat) : Dword := o.xltab + BitVec.ofNat 64 (32 * f)

/-- The wave's issuing split is its only live split and nothing is deferred. -/
def Wave.alone (w : Wave) : Bool := w.splits.length == 1 && w.deferred.isEmpty

/-- The native entry of a READY record of the launch's image, the offset and the length of its address map (R357). -/
def State.readyRecord (s : State) (ctx : Nat) (rcd : Dword) (img : Nat) : Option (Dword × Nat × Nat) :=
  match s.readVa ctx rcd 8, s.readVa ctx (rcd + 8) 8, s.readVa ctx (rcd + 16) 8 with
  | some st, some native, some map =>
    if st % 4 = 2 && st / 4 % 8 = img then some (BitVec.ofNat 64 native, map % 2 ^ 32, map / 2 ^ 32) else none
  | _, _, _ => none

/-- A split enters a function (R358): it runs from NATIVE when the record is READY for the launch's image and the split
is the wave's only one, with no valid latch (R361); an ABSENT record sends a request to the stack's SMC. -/
def State.enterFunction (s : State) (wid : Nat) (pos : Dword) : State :=
  let w := tgetD s.waves wid {}
  match s.bintodalLaunch w with
  | none => s
  | some (obj, im, k) =>
    match im.entries.findIdx? (fun e => im.base + BitVec.ofNat 64 e == pos) with
    | none => s
    | some f =>
      let rcd := obj.record f
      match s.readVa w.ctx rcd 8 with
      | none => s
      | some st =>
        if st % 4 = 0 then
          { s with net := s.net ++ [.translationRequest (stackOf w.core) w.ctx rcd.toNat k] }
        else match s.readyRecord w.ctx rcd k with
          | some (native, _, _) =>
            if w.alone then s.modWave wid (fun v => { v.loseLatches with splits := tmodify v.splits v.issuing (Split.goto native) })
            else s
          | none => s

/-- The native offset that an address map gives for an image offset (R357). -/
def State.mapLookup (s : State) (ctx : Nat) (va : Dword) (off : Nat) : Nat → Option Nat
  | 0 => none
  | n + 1 =>
    match s.readVa ctx (va + BitVec.ofNat 64 (8 * n)) 8 with
    | some e => if e % 2 ^ 32 = off then some (e / 2 ^ 32) else s.mapLookup ctx va off n
    | none => none

/-- A taken backward transfer at a safe point continues in native code (R360). -/
def State.safeBackEdge (s : State) (pc target : Dword) : State :=
  let w := s.curWave
  match s.bintodalLaunch w with
  | none => s
  | some (obj, im, k) =>
    let off := (pc - im.base).toNat
    if !(target.toNat < pc.toNat && im.safe.contains off && w.alone) then s
    else
      match (im.entries.zipIdx.filter (fun p => p.1 ≤ off)).foldl
          (fun (b : Option (Nat × Nat)) p => match b with
            | some q => if q.1 < p.1 then some p else b
            | none => some p) none with
      | none => s
      | some (_, f) =>
        match s.readyRecord w.ctx (obj.record f) k with
        | none => s
        | some (_, mapOff, mapN) =>
          match s.mapLookup w.ctx (obj.tcode + BitVec.ofNat 64 mapOff) (target - im.base).toNat mapN with
          | some n => s.modSplit (Split.goto (obj.tcode + BitVec.ofNat 64 n))
          | none => s

/-- A transfer: the taken lanes go to the target, or the cause is taken and nothing has changed (R119, R120). `link` is
the write that CALL makes before it moves the lanes (R121); `call` says that the taken lanes may enter a function (R358). -/
def State.transferTo (s : State) (taken : LaneMask) (dest : Except Nat Dword) (call : Bool) (link : State → State) : State :=
  if taken = 0 then (link s).finish
  else match dest with
    | .error c => s.trapHere (s.info c 0)
    | .ok p =>
      match s.curWave.place taken p s.issue.len with
      | none => s.trapHere (s.info 0x09 0)
      | some _ =>
        let s1 := (link s).bintodalLatches
        let s2 := s1.modCur (fun w => (w.place taken p s.issue.len).getD w)
        let s3 := if taken = s.curSplit.mask then s2.safeBackEdge s.issue.pc p else s2
        if call then s3.enterFunction s.issue.wave p else s3

/-- A transfer to the target that an operand gives. (DEDUCED, log 73.) -/
def State.transfer (s : State) (taken : LaneMask) (x : SSrc) (call : Bool) (link : State → State) : State :=
  s.transferTo taken (s.target x) call link

def execBr (a : PSel) (b : SSrc) (s : State) :=
  issueOp (.br a b) s (fun s => s.transfer (s.activeMask &&& s.curWave.psel a) b false (fun u => u))
def execBrz (a b : SSrc) (s : State) :=
  issueOp (.brz a b) s (fun s => s.transfer (if s.readS64 a = 0 then s.activeMask else 0) b false (fun u => u))
def execBrnz (a b : SSrc) (s : State) :=
  issueOp (.brnz a b) s (fun s => s.transfer (if s.readS64 a = 0 then 0 else s.activeMask) b false (fun u => u))
/-- CALL: the return address is the position of the next instruction; then the taken set may enter a function. -/
def execCall (d : SDst) (b : SSrc) (s : State) :=
  issueOp (.call d b) s (fun s =>
    s.transfer s.activeMask b true (fun u => u.putS d (s.issue.pc + BitVec.ofNat 64 s.issue.len)))
/-- RET: a branch to the address in A, absolute in every operand form (R120, R121). (DEDUCED, log 138.) -/
def execRet (a : SSrc) (s : State) :=
  issueOp (.ret a) s (fun s => s.transferTo s.activeMask (s.absoluteTarget (s.readS64 a)) false (fun u => u))

/-! REJOIN, EXIT and YIELD (R123 to R125). -/

/-- Every live split waits in REJOIN unmet, and no deferred entry can enter (R32). (DEDUCED, log 36.) -/
def Wave.deadlocked (w : Wave) : Bool :=
  !w.splits.isEmpty && (w.deferred.isEmpty || w.freeSlot.isNone) &&
    w.splits.all (fun p => match p.2.wait with
      | some (.rejoin m) => !w.arrived p.2 m
      | _ => false)

/-- REJOIN: passes when every live lane of M belongs to the split, otherwise the split waits and issue passes. (DESIGN CHOICE, log 133; DESIGN CHOICE, log 151.) -/
def execRejoin (b : SSrc) (s : State) :=
  issueOp (.rejoin b) s (fun s =>
    let m : LaneMask := (s.readS64 b).setWidth 32
    if s.curWave.arrived s.curSplit m then s.finish
    else
      let s1 := s.stall (.rejoin m)
      if s1.curWave.deadlocked then s1.trapHere (s.info 0x0A 0) else s1.bintodalLatches.passCur)

/-- Lanes retire: they leave the issuing split (R30, R124). -/
def Wave.retire (m : LaneMask) (w : Wave) : Wave :=
  { w with retired := w.retired ||| m,
           splits := tmodify w.splits w.issuing (fun sp => { sp with mask := sp.mask &&& ~~~m }) }

/-- After an EXIT: an empty split frees its slot, the oldest deferred entry may take it, and issue passes (R27, R124). (DESIGN CHOICE, log 152.) -/
def State.leaveEmpty (s : State) : State :=
  if s.curSplit.mask = 0 then
    let s1 := s.modCur (fun w => ({ w with splits := tdel w.splits w.issuing } : Wave).fillSlot)
    s1.modCur (fun w =>
      let k := s1.nextSlot w
      let k' := if (tget? w.splits k).isSome then k else (tkeys w.splits).headD k
      { w.loseLatches with issuing := k' })
  else s

/-- EXIT: the lanes of active(w) retire; the last one waits for the wave's matrix and engine work (R124, R227) and for the outcome
of its accesses (R408). A cause still pending when the wave ends, which only a handler-mode wave can have, is fatal (R367). (DEDUCED, log 141.) -/
def execExit (s : State) :=
  issueOp .exit s (fun s =>
    let w := s.curWave
    let m := s.activeMask
    if w.live &&& ~~~m = 0 then
      if s.settledWork w s.issue.wave then
        match w.causes with
        | t :: ts => (s.modCur (fun w => { w with causes := ts })).fatalTrap s.issue.wave { t with deferred := true } s.issue.pc
        | [] => s.modCur (fun w => { w.loseLatches with retired := BitVec.allOnes 32, splits := [], deferred := [], ended := true })
      else s.stall (.ending s.issue.wave)
    else
      let last := s.curSplit.lastCopy
      let s1 := (s.modCur (Wave.retire m)).finish
      if last then s1.leaveEmpty else s1)

def execYield (s : State) := issueOp .yield s (fun s => s.finishYield)

/-! Planes (R126, R127). -/

/-- PLSET: the plane number of each lane of active(w). -/
def execPlset (a : VSrc) (s : State) :=
  issueOp (.plset a) s (fun s =>
    let set (t : Tbl Nat) (l : Nat) : Tbl Nat := tset t l ((s.readV .uint32 a l).toNat % 4)
    (s.modCur (fun w => { w with planes := s.activeMask.lanes.foldl set w.planes })).finish)
/-- PLGET: one register, whatever MODE.ETYPE. -/
def execPlget (d : VDst) (s : State) :=
  issueOp (.plget d) s (fun s => (s.putV d false (fun l => BitVec.ofNat 64 (s.curWave.plane l))).finish)

/-! MODE (R116 to R118). -/

/-- The MODE that a write sets: the highest plane's copy stands (R111). (DEDUCED, log 16.) -/
def State.setMode (s : State) (m : Half) : State :=
  if s.activeMask = 0 then s else s.modCur (fun w => { w with mode := m })

def execSetm (b : SSrc) (s : State) :=
  issueOp (.setm b) s (fun s => (s.setMode ((s.readS64 b).setWidth 16)).finish)
/-- SETMF: one field of MODE as it stood before the offset (R111). -/
def execSetmf (a : ModeField) (b : SSrc) (s : State) :=
  issueOp (.setmf a b) s (fun s => (s.setMode (setModeField s.curSplit.offMode a (s.readS64 b))).finish)
def execGetm (d : SDst) (s : State) :=
  issueOp (.getm d) s (fun s => (s.putS d (s.curSplit.offMode.setWidth 64)).finish)

/-! NOP and traps on request (R128 to R130). -/

def execNop (s : State) := issueOp .nop s (fun s => s.finish)
/-- TRAPZ: TRAP_INSTR whatever its fields, the guard and the planes, RESUME = PC. -/
def execTrapz (d a b : BitVec 8) (s : State) :=
  issueOp (.trapz d a b) s (fun s => s.trapHere (s.info 0x14 0xFFFFFFFF))
def execTrap (b : Fin 64) (s : State) :=
  issueOp (.trap b) s (fun s => if s.activeMask = 0 then s.finish else s.trapNext (s.info 0x14 b.val))
def execBrk (s : State) :=
  issueOp .brk s (fun s => if s.activeMask = 0 then s.finish else s.trapNext (s.info 0x15 0))

/-! Control registers (R131, R132). -/

/-- ELAPSED of a context at a cluster (R348). -/
def State.elapsed (s : State) (ctx g : Nat) : Nat :=
  let c := s.ctx ctx
  tgetD c.elapsed g 0 + (if c.phase == .saved then 0 else s.clusterClk g - tgetD c.resumedAt g 0)

/-- The slices a context owns in a stack (R302): those beneath its clusters. -/
def Context.nslice (c : Context) (stack : Nat) : Nat := (c.clusters.filter (fun g => g / 32 == stack)).length

/-- WAYPART as the issuing core's stack reads it (R302). -/
def Context.waypart (c : Context) (stack : Nat) : Dword :=
  BitVec.ofNat 64 (c.spways + (if c.carveBusy then 256 else 0) + c.nslice stack * 65536)

/-- The value of a control register (R131). -/
def State.creg (s : State) (r : CReg) : Dword :=
  let w := s.curWave
  let c := s.curCtx
  match r with
  | .time => BitVec.ofNat 64 s.timeNs
  | .elapsed => BitVec.ofNat 64 (s.elapsed w.ctx (clusterOf w.core))
  | .context => BitVec.ofNat 64 w.ctx
  | .waypart => c.waypart (stackOf w.core)
  | .sillage => c.sillage
  | .trapvec => c.trapvec
  | .spawntmr => c.spawntmr
  | .ctxmode => c.ctxmode
  | .cring => c.cring
  | .trapframe => if w.handler then 0xFFFFFFFFFFFFFF00 else 0

def execCrrd (d : SDst) (b : CReg) (s : State) :=
  issueOp (.crrd d b) s (fun s => (s.putS d (s.creg b)).finish)

end Sys2Proof.Machine
end

