-- ==== Sys2Proof/Machine/Tiles.lean ====
section
/-! DEFINITION. What the home of memory keeps one entry for: an ordinary line, or a tile part of a coherence object (R312,
R328, R329). A *unit* is a number: the address of the line, or the tile and the entry of the object table. -/
namespace Sys2Proof.Machine

/-! Ranges of objects. -/

/-- The offset of a physical address in the page that a leaf entry of a size maps, if the page holds it: the inverse of
`placeByte` (R290). -/
def pageOffset (leaf size pa : Nat) : Option Nat :=
  let (g0, n) := pageGroup leaf
  let hdie := leaf / 2 ^ 36 % 16
  let base := leaf / 2 ^ 12 % 2 ^ 24 * 4096
  let d := pa / 2 ^ 36
  let loc := pa % 2 ^ 36
  if d < g0 || g0 + n ≤ d || loc < base || base + size / n ≤ loc then none
  else some (((loc - base) / 4096 * n + (d + n - hdie % n) % n) * 4096 + loc % 4096)

/-- The offset of a line in the page of a frame, if the frame's part of the range meets the line. -/
def ObjFrame.lineAt (f : ObjFrame) (line : Nat) : Option Nat :=
  match pageOffset f.leaf f.size line with
  | some k => if k < f.hi && f.lo < k + 64 then some k else none
  | none => none

/-- The range of an object meets a line (R328, R329). -/
def ObjEntry.meets (o : ObjEntry) (line : Nat) : Bool := o.frames.any (fun f => (f.lineAt line).isSome)

/-- The object tables' entries that hold a live object whose range meets a line, with their keys: those of the line's home
stack. -/
def State.objectsAt (s : State) (line : Nat) : List (Nat × ObjEntry) :=
  s.objects.filter (fun p => p.1 / 4096 = homeStack line && p.2.live && p.2.meets line)

/-- A conversion of OBJDECL or OBJDROP holds the accesses to a line (R330). -/
def State.converting (s : State) (line : Nat) : Bool := (s.objectsAt line).any (fun p => p.2.dropping || p.2.declaring)

/-- The reuse class of a line: that of the live object whose range holds it, else the default (R300, R328). -/
def State.lineClass (s : State) (line : Nat) : Nat :=
  match (s.objectsAt line).head? with
  | some p => p.2.shape.cls
  | none => 3

/-! Tiles (R329). -/

/-- A dimension of a shape. -/
def Shape.dim (x : Shape) (i : Nat) : Nat := x.dims.getD i 1
/-- The address at which the elements (·, i1, i2, i3) begin. -/
def Shape.rowAt (x : Shape) (i1 i2 i3 : Nat) : Int :=
  x.base.toInt + i1 * (x.strides.getD 0 0).toInt + i2 * (x.strides.getD 1 0).toInt + i3 * (x.strides.getD 2 0).toInt
/-- Tiles along dimensions 0 and 1. -/
def Shape.tiles0 (x : Shape) : Nat := x.dim 0 / x.tile0
/-- See `Shape.tiles0`. -/
def Shape.tiles1 (x : Shape) : Nat := x.dim 1 / x.tile1
/-- The tile of an element. -/
def Shape.tileOf (x : Shape) (i0 i1 i2 i3 : Nat) : Nat :=
  i0 / x.tile0 + x.tiles0 * (i1 / x.tile1 + x.tiles1 * (i2 + x.dim 2 * i3))

/-- The tile of the element that holds the byte at an address, if one does: the first in the order of the elements. -/
def Shape.tileAt (x : Shape) (a : Int) : Option Nat :=
  (List.range (x.dim 3)).findSome? (fun i3 => (List.range (x.dim 2)).findSome? (fun i2 =>
    (List.range (x.dim 1)).findSome? (fun i1 =>
      let o := a - x.rowAt i1 i2 i3
      if 0 ≤ o && o < x.dim 0 * x.esize then some (x.tileOf (o.toNat / x.esize) i1 i2 i3) else none)))

/-- The signed address of 52 bits (R160). -/
def signed52 (n : Nat) : Int := if n % 2 ^ 52 < 2 ^ 51 then n % 2 ^ 52 else n % 2 ^ 52 - 2 ^ 52

/-- The tile of a byte of a line: that of the nearest element byte at or below it in the line, or of the nearest above it;
none in a line with no element byte. -/
def ObjEntry.tileAt (o : ObjEntry) (pa : Nat) : Option Nat :=
  let line := lineOf pa
  match o.frames.findSome? (fun f => (f.lineAt line).map (fun k => f.va + k)) with
  | none => none
  | some va =>
    let at' (i : Nat) : Option Nat := o.shape.tileAt (signed52 va + i)
    ((List.range (pa % 64 + 1)).reverse ++ (List.range (64 - pa % 64)).map (fun i => pa % 64 + i)).findSome? at'

/-! Units. -/

/-- The unit of a tile of the object that an entry of the object tables holds. (DESIGN CHOICE, log 119.) -/
def tileKey (slot t : Nat) : Nat := (t + 1) * 2 ^ 64 + slot
/-- A unit is a tile part. -/
def isTile (k : Nat) : Bool := decide (2 ^ 64 ≤ k)
/-- The home stack of a unit. -/
def unitHome (k : Nat) : Nat := if isTile k then k % 2 ^ 64 / 4096 % 8 else homeStack k
/-- The home slice of a unit: for a tile part, the slice of its tile's number modulo 32. -/
def unitSlice (k : Nat) : Nat := if isTile k then unitHome k * 32 + (k / 2 ^ 64 - 1) % 32 else homeSlice k

/-- The unit that holds a byte: a tile part of a declared object, or the line. (DESIGN CHOICE, log 119.) -/
def State.unitAt (s : State) (pa : Nat) : Nat :=
  ((s.objectsAt (lineOf pa)).findSome? (fun p =>
    if p.2.declaring then none else (p.2.tileAt pa).map (tileKey p.1))).getD (lineOf pa)

/-- The units that hold the bytes of an access, in ascending order. -/
def State.unitsAt (s : State) (pa n : Nat) : List Nat :=
  if (s.objectsAt (lineOf pa)).isEmpty then [lineOf pa]
  else tkeys ((List.range n).foldl (fun (t : Tbl Unit) i => tset t (s.unitAt (pa + i)) ()) [])

/-- The units whose bytes lie in a line. -/
def State.lineUnits (s : State) (line : Nat) : List Nat := s.unitsAt line 64

/-- The offsets in a line of the bytes of a unit: the byte mask of a tile part. -/
def State.unitMask (s : State) (line k : Nat) : List Nat :=
  if k = line then List.range 64 else (List.range 64).filter (fun i => s.unitAt (line + i) = k)

/-- The first bytes of the rows of a tile, as addresses. -/
def Shape.tileRows (x : Shape) (t : Nat) : List Int :=
  let a0 := t % x.tiles0 * x.tile0
  let a1 := t / x.tiles0 % x.tiles1 * x.tile1
  let i2 := t / (x.tiles0 * x.tiles1) % x.dim 2
  let i3 := t / (x.tiles0 * x.tiles1 * x.dim 2)
  (List.range x.tile1).map (fun j => x.rowAt (a1 + j) i2 i3 + a0 * x.esize)

/-- The physical line at an address of an object's range, if it is mapped. -/
def ObjEntry.lineAt (o : ObjEntry) (a : Int) : Option Nat :=
  let n := (a % 2 ^ 52).toNat
  (o.frames.find? (fun f => f.va + f.lo ≤ n && n < f.va + f.hi)).map (fun f => lineOf (placeByte f.leaf (n - f.va)))

/-- The lines in which a unit has bytes: of a tile part, those homed in its stack. -/
def State.unitLines (s : State) (k : Nat) : List Nat :=
  if !isTile k then [k]
  else
    let o := tgetD s.objects (k % 2 ^ 64) {}
    let width := o.shape.tile0 * o.shape.esize
    (((o.shape.tileRows (k / 2 ^ 64 - 1)).flatMap (fun a =>
      (List.range ((width + 63) / 64 + 1)).filterMap (fun j => o.lineAt (min (a + 64 * j) (a + width - 1))))).filter
        (fun l => homeStack l = unitHome k)).dedup

/-- The home of a unit is lost, or holds its requests. -/
def State.unitLost (s : State) (k : Nat) : Bool := (s.unitLines k).any s.homeLost
/-- See `State.unitLost`. -/
def State.unitHeld (s : State) (k : Nat) : Bool := (s.unitLines k).any s.homeHeld

end Sys2Proof.Machine
end

