-- ==== Sys2Proof/Machine/Routing.lean ====
section
/-! DEFINITION. Routing (R390 to R395, R434): links, the entries of the routers, and the elevators and link ports that a packet
crosses. Routers and regions: cluster routers by number, slice routers from 256, the N-die 512. -/
namespace Sys2Proof.Machine

/-! Links (R391). -/

/-- The stack at the far end of a link port: ports 0 to 2 lead to the next stack of the interposer, 3 to 5 to the one before,
6 and 7 to the same place of the other interposer. -/
def portTarget (s p : Nat) : Nat :=
  if p < 3 then s / 4 * 4 + (s + 1) % 4 else if p < 6 then s / 4 * 4 + (s + 3) % 4 else (s + 4) % 8

/-- The port at the far end. -/
def farPort (p : Nat) : Nat := if p < 3 then p + 3 else if p < 6 then p - 3 else p

/-- The other end of a link port; an elevator is its own. -/
def farEnd : Element → Element
  | .port s p => .port (portTarget s p) (farPort p)
  | .elevator s n => .elevator s n

/-- A link port is not one of these, and nor is its far end. -/
def portClear (bad : List Element) (s p : Nat) : Bool := !bad.contains (.port s p) && !bad.contains (farEnd (.port s p))

/-- The ports of a stack that lead to a stack. -/
def portsTo (bad : List Element) (s t : Nat) : List Nat := (List.range 8).filter (fun p => portTarget s p = t && portClear bad s p)

/-- The neighbours of a stack over its links: the other interposer first, then the +1 and the −1 direction. -/
def stackNext (bad : List Element) (s : Nat) : List Nat :=
  [(s + 4) % 8, s / 4 * 4 + (s + 1) % 4, s / 4 * 4 + (s + 3) % 4].filter (fun t => !(portsTo bad s t).isEmpty)

/-- The stacks within a number of links of a stack. -/
def stacksWithin (bad : List Element) (from_ : List Nat) : Nat → List Nat
  | 0 => from_
  | n + 1 => (stacksWithin bad from_ n ++ (stacksWithin bad from_ n).flatMap (stackNext bad)).dedup

/-- The number of links between two stacks; 8 if none joins them. -/
def stackDistance (bad : List Element) (s t : Nat) : Nat :=
  ((List.range 8).find? (fun n => (stacksWithin bad [s] n).contains t)).getD 8

/-- The next stack of the route between two stacks (R434): the first neighbour from which the rest is shortest. -/
def nextStack (bad : List Element) (s t : Nat) : Option Nat :=
  ((stackNext bad s).foldl (fun (b : Option (Nat × Nat)) y =>
    let n := stackDistance bad y t
    match b with
    | some q => if q.2 ≤ n then some q else some (y, n)
    | none => if n < 8 then some (y, n) else none) none).map Prod.fst

/-! Meshes. -/

/-- The cell of a cluster router in its die's grid of 4 by 4, and of a slice router in its C-die's mesh of 8 by 4. (PRESUMED, log 95.) -/
def gridCell (c : Nat) : Nat × Nat := (c % 4, c / 4)
/-- See `gridCell`. -/
def meshCell (n : Nat) : Nat × Nat := (n % 4 + 4 * (n / 16), n % 16 / 4)

/-- The distance between two cells. -/
def cellDistance (a b : Nat × Nat) : Nat := (max a.1 b.1 - min a.1 b.1) + (max a.2 b.2 - min a.2 b.2)

/-- The number of least cost among some, the lowest on a tie. -/
def leastOf (f : Nat → Nat) (ns : List Nat) : Option Nat :=
  (ns.foldl (fun (b : Option (Nat × Nat)) n => match b with
    | some q => if q.2 ≤ f n then some q else some (n, f n)
    | none => some (n, f n)) none).map Prod.fst

/-- The slice router that holds a link port, and the one that holds the N-die's port. (PRESUMED, log 95.) -/
def portHolder (p : Nat) : Nat := p / 4 * 16 + p % 4
/-- See `portHolder`. -/
def nportHolder : Nat := 0

/-- The link port by which a packet that enters the mesh of a stack at slice `n` leaves it for another stack: of those that lead
to the next stack, the one whose number in the group is `n` modulo the group's size. -/
def outPort (bad : List Element) (stack n t : Nat) : Option Nat :=
  match nextStack bad stack t with
  | some y => (portsTo bad stack y)[n % max 1 (portsTo bad stack y).length]?
  | none => none

/-- The stack, 0 or 1 of interposer 0, by which a stack reaches the N-die. -/
def nportStack (bad : List Element) (stack : Nat) : Nat := if stackDistance bad stack 1 < stackDistance bad stack 0 then 1 else 0

/-- The elevator by which a packet at slice `n` rises to cluster `c` of the stack (both 0 to 31): that of the cluster, else the
one of its die on the shortest path. -/
def upElevator (bad : List Element) (stack n c : Nat) : Option Nat :=
  if !bad.contains (.elevator stack c) then some c
  else leastOf (fun t => cellDistance (meshCell n) (meshCell t) + cellDistance (gridCell (t % 16)) (gridCell (c % 16)))
    (((List.range 16).map (fun i => c / 16 * 16 + i)).filter (fun t => !bad.contains (.elevator stack t)))

/-- The elevator to the DRAM controller of a die for a slice: that of the cluster of the same number (R434). -/
def dramElevator (bad : List Element) (stack n die : Nat) : Option Nat := upElevator bad stack n (die % 2 * 16 + n % 16)

/-- The stack of a region, that of the N-die as seen from a stack. -/
def regionStack (bad : List Element) (stack region : Nat) : Nat :=
  if region = 512 then nportStack bad stack else if region < 256 then region / 32 else (region - 256) / 32

/-- The slice at which a packet that enters the mesh of a stack at slice `n` leaves the mesh for a region. -/
def exitSlice (bad : List Element) (stack n region : Nat) : Option Nat :=
  if regionStack bad stack region = stack then
    (if region = 512 then some nportHolder
    else if region < 256 then upElevator bad stack n (region % 32)
    else some ((region - 256) % 32))
  else (outPort bad stack n (regionStack bad stack region)).map portHolder

/-- The elevator by which a packet of cluster `c` of a stack leaves its die for a region: its own, else the one on the shortest
path to where it leaves the mesh. -/
def downElevator (bad : List Element) (stack c region : Nat) : Option Nat :=
  if !bad.contains (.elevator stack c) then some c
  else leastOf (fun t => cellDistance (gridCell (c % 16)) (gridCell (t % 16)) +
      cellDistance (meshCell t) (meshCell ((exitSlice bad stack t region).getD t)))
    (((List.range 16).map (fun i => c / 16 * 16 + i)).filter (fun t => !bad.contains (.elevator stack t)))

/-! Routing entries (R392, R434). -/

/-- The kinds of an entry. -/
inductive Hop where
  | mesh (dir : Nat) | elevator | port (n : Nat) | deliver
deriving DecidableEq, Repr

/-- One step along X, then along Y; 0 N, 1 E, 2 S, 3 W. -/
def toward (a b : Nat × Nat) : Hop :=
  if a.1 < b.1 then .mesh 1 else if b.1 < a.1 then .mesh 3 else if a.2 < b.2 then .mesh 2 else if b.2 < a.2 then .mesh 0 else .deliver

/-- The hop from a slice router to a region, for a packet that enters the mesh there. -/
def sliceHop (bad : List Element) (stack n region : Nat) : Option Hop :=
  match exitSlice bad stack n region with
  | none => none
  | some x =>
    if x != n then some (toward (meshCell n) (meshCell x))
    else if regionStack bad stack region = stack then some (if region < 256 then .elevator else .deliver)
    else (outPort bad stack n (regionStack bad stack region)).map Hop.port

/-- The hop from a cluster router to a region. -/
def clusterHop (bad : List Element) (router region : Nat) : Option Hop :=
  if region < 256 && region / 16 = router / 16 then some (toward (gridCell (router % 16)) (gridCell (region % 16)))
  else match downElevator bad (router / 32) (router % 32) region with
    | none => none
    | some t => if t = router % 32 then some .elevator else some (toward (gridCell (router % 16)) (gridCell (t % 16)))

/-- The stack at which a packet of the N-die enters: stack 0, or stack 1 if its route to the region is shorter. -/
def entryStack (bad : List Element) (region : Nat) : Nat :=
  let t := if region < 256 then region / 32 else (region - 256) / 32
  nportStack bad t

/-- The hop that a router's entry for a region names, given the elements routed around: that of a packet which enters the mesh or
grid at the router; none when no path is left. (DESIGN CHOICE, log 96.) -/
def hopOf (bad : List Element) (router region : Nat) : Option Hop :=
  if router = 512 then (if region = 512 then some .deliver else some (.port (entryStack bad region)))
  else if 256 ≤ router then sliceHop bad ((router - 256) / 32) ((router - 256) % 32) region
  else clusterHop bad router region

/-- The element that a hop of a router crosses. -/
def hopElement (router : Nat) : Hop → Option Element
  | .elevator => some (.elevator (if router < 256 then router / 32 else (router - 256) / 32) (router % 32))
  | .port p => if router = 512 then none else some (.port ((router - 256) / 32) p)
  | _ => none

/-- An element has failed; the routers at both ends of a link know it (R395). -/
def Fabric.isDown (f : Fabric) (e : Element) : Bool := f.down.contains e || f.down.contains (farEnd e)

/-- An error has struck a routing entry, which is treated as DOWN (R403). -/
def Fabric.struck (f : Fabric) (router region : Nat) : Bool := f.badEntries.any (fun p => p.1 == (router, region))

/-- The routing entry of a router for a region: KIND, INDEX and DOWN (R392). Where no path is left the entry stays as it was at
reset. -/
def Fabric.entry (f : Fabric) (router region : Nat) : Nat :=
  let h := (hopOf f.around router region).getD ((hopOf [] router region).getD .deliver)
  (match h with | .mesh d => 4 * d | .elevator => 1 | .port p => 2 + 4 * p | .deliver => 3) +
    (if (hopElement router h).any f.isDown || f.struck router region then 32 else 0)

/-- The routing entry as the package holds it: every region of a lost die is marked DOWN (R413). -/
def State.routingEntry (s : State) (router region : Nat) : Nat :=
  let e := s.fabric.entry router region
  if region < 256 && s.dead.contains (region / 16) && e / 32 % 2 = 0 then e + 32 else e

/-! Paths (R434). -/

/-- The elevators and link ports that a packet crosses from a slice router of a stack to a region. -/
def slicePath (bad : List Element) (region : Nat) : Nat → Nat → Nat → Option (List Element)
  | 0, _, _ => none
  | k + 1, stack, n =>
    if regionStack bad stack region = stack then
      (if region < 256 then (upElevator bad stack n (region % 32)).map (fun t => [.elevator stack t]) else some [])
    else match outPort bad stack n (regionStack bad stack region) with
      | some p => (slicePath bad region k (portTarget stack p) (portHolder (farPort p))).map (fun es => .port stack p :: es)
      | none => none

/-- The elevators and link ports that a packet crosses from a router to a region; none when no path is left. (DESIGN CHOICE, log 96.) -/
def pathOf (bad : List Element) (router region : Nat) : Option (List Element) :=
  if router = 512 then slicePath bad region 9 (entryStack bad region) nportHolder
  else if 256 ≤ router then slicePath bad region 9 ((router - 256) / 32) ((router - 256) % 32)
  else if region < 256 && region / 16 = router / 16 then some []
  else match downElevator bad (router / 32) (router % 32) region with
    | none => none
    | some t => (slicePath bad region 9 (router / 32) t).map (fun es => .elevator (router / 32) t :: es)

/-- The elements that a packet crosses now; where no path is left its entries stay as at reset. -/
def Fabric.path (f : Fabric) (router region : Nat) : List Element :=
  (pathOf f.around router region).getD ((pathOf [] router region).getD [])

/-- No element has failed and no entry is struck. -/
def Fabric.whole (f : Fabric) : Bool := f.down.isEmpty && f.badEntries.isEmpty

/-- The entry of the router from which a packet starts is not struck, and no element on its path has failed: otherwise it waits at a
router until the entry is rewritten (R395, R403). -/
def Fabric.clear (f : Fabric) (router region : Nat) : Bool :=
  f.whole || (!f.struck router region && (f.path router region).all (fun e => !f.isDown e))

/-- The DRAM of a line can be reached from its home slice. -/
def State.dramClear (s : State) (line : Nat) : Bool :=
  s.fabric.down.isEmpty ||
    ((dramElevator s.fabric.around (homeStack line) (homeSlice line % 32) (homeDie line)).any
      (fun t => !s.fabric.isDown (.elevator (homeStack line) t)))

end Sys2Proof.Machine
end

