-- ==== Sys2Proof/Machine/Coherence.lean ====
section
/-! DEFINITION. The copies of a line and the messages that keep them coherent (R294 to R301, R310 to R327). `State.mem`
holds each byte as its unit's package owner does; slices and L1s hold copies under leases. A unit is an ordinary line or a
tile part (R329): home entries, GETS, GETX, FWD, DATA, WB, XPUB and XINV go by unit, slices and L1s by line. -/
namespace Sys2Proof.Machine

/-! Homes and owners (R310 to R312). -/

/-- The sillage period of a context in ticks (R319). -/
def State.period (s : State) (ctx : Nat) : Nat := (s.ctx ctx).sillage.toNat % 2 ^ 15

/-- The tick of a unit's home slice. -/
def State.homeTick (s : State) (k : Nat) : Nat := s.tickOf (unitSlice k)

/-- The home entry of a unit; one whose leases have all ended is clear (R312). -/
def State.homeEntry (s : State) (k : Nat) : HomeEntry :=
  let e := tgetD s.homes k {}
  if e.unpub && e.lend ≤ s.homeTick k then { e with unpub := false, sh := 0, xi := false } else e

/-- An entry exists while the unit is owned away from home, has sharers, or is being published. -/
def State.setHome (s : State) (k : Nat) (e : HomeEntry) : State :=
  if e.owned || e.sh != 0 || e.xi || e.xpub.isSome then { s with homes := tset s.homes k { e with tile := isTile k } }
  else { s with homes := tdel s.homes k }

/-- The stack that owns a unit. -/
def State.ownerStack (s : State) (k : Nat) : Nat :=
  let e := s.homeEntry k
  if e.owned then e.owner else unitHome k

/-- The sharer bit of a stack in an entry of a unit. -/
def HomeEntry.shares (e : HomeEntry) (k y : Nat) : Bool :=
  if y / 4 = unitHome k / 4 then e.sh.getLsbD (y % 4) else e.xi
/-- Every stack that may hold an S copy. -/
def HomeEntry.sharers (e : HomeEntry) (k : Nat) : List Nat := (List.range 8).filter (e.shares k)
/-- The sharer bit of a stack is set. -/
def HomeEntry.addSharer (e : HomeEntry) (k y : Nat) : HomeEntry :=
  if y / 4 = unitHome k / 4 then { e with sh := e.sh ||| (1#4 <<< (y % 4)) } else { e with xi := true }
/-- The sharer bits of stacks are cleared; XI stands for the whole other interposer. -/
def HomeEntry.cutSharers (e : HomeEntry) (k : Nat) (ys : List Nat) : HomeEntry :=
  let e1 := ys.foldl (fun e y =>
    if y / 4 = unitHome k / 4 then { e with sh := e.sh &&& ~~~(1#4 <<< (y % 4)) } else { e with xi := false }) e
  if e1.sh = 0 && !e1.xi then { e1 with unpub := false } else e1

/-- The copy of a line in a stack's slices. -/
def State.copyAt (s : State) (stack line : Nat) : Option SliceLine := tget? (tgetD s.stackTbl stack {}).lines line
/-- Change or remove the copy of a line in a stack. -/
def State.setCopy (s : State) (stack line : Nat) (c : Option SliceLine) : State :=
  let t := (tgetD s.stackTbl stack {}).lines
  { s with stackTbl := tset s.stackTbl stack ⟨match c with | some x => tset t line x | none => tdel t line⟩ }

/-- A copy in M, O or E. -/
def CopyState.owns : CopyState → Bool
  | .s => false
  | _ => true

/-- What a slice copy holds of a unit. -/
def SliceLine.part (c : SliceLine) (k : Nat) : Option Part := tget? c.parts k
/-- A slice copy holds a unit in M, O or E. -/
def SliceLine.ownsPart (c : SliceLine) (k : Nat) : Bool := (c.part k).any (fun p => p.st.owns)
/-- A slice copy holds something in S. -/
def SliceLine.shared (c : SliceLine) : Bool := (tvals c.parts).any (fun p => !p.st.owns)
/-- A slice copy holds something in M, O or E. -/
def SliceLine.owning (c : SliceLine) : Bool := (tvals c.parts).any (fun p => p.st.owns)

/-- What a stack holds of a unit. -/
def State.partAt (s : State) (stack k : Nat) : Option Part :=
  (s.unitLines k).findSome? (fun l => (s.copyAt stack l).bind (fun c => c.part k))

/-- The owning stack holds the unit: no transfer of ownership is on its way. -/
def State.ownerReady (s : State) (k : Nat) : Bool :=
  let e := s.homeEntry k
  !e.owned || (s.partAt e.owner k).any (fun p => p.st.owns)

/-- The write-back of a unit by its owner is on its way to its home, or waits there: the owner answers for it still (R317). -/
def State.goingHome (s : State) (k : Nat) : Bool :=
  let e := s.homeEntry k
  e.owned && (s.net ++ s.waiting).contains (.wb k e.owner)

/-- The slice at which a unit's owner stands: that of the owner's copy, or the home slice. -/
def State.ownSlice (s : State) (k : Nat) : Nat :=
  ((s.unitLines k).findSome? (fun l => (s.copyAt (s.ownerStack k) l).map (fun c => c.slice))).getD (unitSlice k)

/-- The slice from which a unit is forwarded to a stack: that of the copy whose stack has owned it so far (R317). -/
def State.fwdSlice (s : State) (k stack : Nat) : Nat :=
  let at_ (y : Nat) : Option Nat :=
    if y != stack && (s.partAt y k).any (fun p => p.st.owns) then (s.unitLines k).findSome? (fun l => (s.copyAt y l).map (fun c => c.slice)) else none
  ((List.range 8).findSome? at_).getD (s.ownSlice k)

/-- The context that owns a core's cluster. -/
def State.coreCtx (s : State) (core : Nat) : Nat := ((s.cluster (clusterOf core)).owner).getD 0

/-- Cache ways of the slice beneath a cluster (R295, R303). -/
def State.cacheWays (s : State) (g : Nat) : Nat :=
  match (s.cluster g).owner with
  | some c => 16 - (s.ctx c).spways
  | none => 0

/-- The clusters whose L1 copies of a line have an invalidation pending (R318). -/
def State.pending (s : State) (line : Nat) : List Nat :=
  s.net.filterMap (fun i => match i with
    | .inv l g _ => if l = line then some g else none
    | .iack l g => if l = line then some g else none
    | _ => none)

/-! Messages. -/

/-- The line or the unit of a coherence message. -/
def messageUnit : Instr → Option Nat
  | .inv l _ _ | .iack l _ | .gets l _ _ | .getx l _ _ | .fwd l _ _ _ | .data l _ _ _ _ | .wb l _ | .xpub l _ _ | .xinv l _
  | .xack l _ | .xdone l _ _ => some l
  | _ => none

/-- The release tags of a line (R325). -/
def State.tagsOf (s : State) (line : Nat) : List Tag :=
  (tvals s.clusters).flatMap (fun c => c.tags.filter (fun t => t.line = line))
/-- A line of a unit has a release tag. -/
def State.tagged (s : State) (k : Nat) : Bool := (s.unitLines k).any (fun l => !(s.tagsOf l).isEmpty)

/-- The source of a message and the region it goes to (R392, R393, R396): 0 the load queue and 1 the write queue of a core, 2
a slice, 3 a cluster's directory; cluster routers by number, slice routers from 256. A write-back whose line is tagged has
not left (R325). (DEDUCED, log 120.) -/
def State.messageLane (s : State) (i : Instr) : Option (Nat × Nat × Nat) :=
  let at' (k y : Nat) : Nat := y * 32 + unitSlice k % 32
  match i with
  | .gets k _ core => some (0, core, 256 + unitSlice k)
  | .getx k _ core => some (1, core, 256 + unitSlice k)
  | .fwd k y _ _ => some (2, unitSlice k, 256 + s.fwdSlice k y)
  | .data k y core x _ =>
    some (2, ((s.fabric.dataFrom.find? (fun p => p.1 == .fwd k y core x)).map Prod.snd).getD (unitSlice k), clusterOf core)
  | .wb k y => if s.tagged k then none else some (2, at' k y, 256 + unitSlice k)
  | .xpub k y _ => some (2, at' k y, 256 + unitSlice k)
  | .xack k y => some (2, at' k y, 256 + unitSlice k)
  | .xinv k y => some (2, unitSlice k, 256 + at' k y)
  | .xdone k y _ => some (2, unitSlice k, 256 + at' k y)
  | .inv l g _ => some (2, s.ownSlice l, g)
  | .iack l g => some (3, g, 256 + s.ownSlice l)
  | .pack c w _ => (tget? (s.core c).outs w).map (fun o => (2, s.ownSlice (o.units.headD (s.unitAt o.line)), clusterOf c))
  | .fpub c _ _ r => some (0, r, clusterOf c)
  | .fack c _ _ r => some (1, c, clusterOf r)
  | .decantReq r g _ _ | .decantGiveMsg r g _ _ | .decantReturn r g _ | .decantAnswer r g _ | .decantReadAtHome r g _ _ =>
    some (4, g, 256 + homeSlice r)
  | .decantRecall r g | .decantGrant r g _ | .decantServe r g _ | .decantStatusReply r g _ _ _ _ => some (4, homeSlice r, 256 + g)
  | _ => none

/-- The router from which the messages of a lane start. -/
def laneRouter (l : Nat × Nat × Nat) : Nat := if l.1 ≤ 1 then clusterOf l.2.1 else 256 + l.2.1

/-- The elements that a message in flight crosses now. -/
def State.messagePath (s : State) (i : Instr) : List Element :=
  match s.messageLane i with
  | some l => s.fabric.path (laneRouter l) l.2.2
  | none => []

/-- A message in flight is the next to arrive: the first of those from its source to its region (R393), not dropped, and with no
failed element on its path (R395). One that was dropped keeps its place in the order of its source (R397). -/
def State.next? (s : State) (i : Instr) : Bool :=
  s.net.contains i && (match s.messageLane i with
    | none => true
    | some l => (s.net.find? (fun j => s.messageLane j == some l)) == some i && s.fabric.clear (laneRouter l) l.2.2) &&
    s.fabric.lost.all (fun p => p.1 != i)

/-- A message enters the network. -/
def State.send (s : State) (i : Instr) : State := { s with net := s.net ++ [i] }
/-- A message enters the network unless an equal one is in flight or waits at its home. -/
def State.sendOnce (s : State) (i : Instr) : State := if s.net.contains i || s.waiting.contains i then s else s.send i

/-- FPUB to a core for a requester, unless the core has been asked so already or answers (R327). -/
def State.askFpub (s : State) (core epoch level requester : Nat) : State :=
  if (s.core core).fpubs.any (fun f => f.epoch = epoch && f.level = level && f.requester = requester) ||
      s.net.contains (.fack core epoch level requester) then s
  else s.sendOnce (.fpub core epoch level requester)

/-- The slices from which forwarded data came are kept while the data are in flight. -/
def State.dropOrigins (s : State) : State :=
  if s.fabric.dataFrom.isEmpty then s
  else { s with fabric := { s.fabric with dataFrom := s.fabric.dataFrom.filter (fun p => s.net.any (fun i => match i with
    | .data k y c x _ => p.1 == .fwd k y c x
    | _ => false)) } }

/-- A message in flight arrives, if it is the next of its source; otherwise nothing is due and nothing happens. -/
def State.arrive (s : State) (i : Instr) (f : State → State) : Host.Outcome State Fault Refusal :=
  if s.next? i then .next (f { s with net := s.net.erase i }) else .next s

/-- A message that waits where it has arrived is served, or one in flight arrives. -/
def State.arriveOrWait (s : State) (i : Instr) (f : State → State) : Host.Outcome State Fault Refusal :=
  if s.waiting.contains i then .next (f { s with waiting := s.waiting.erase i }) else s.arrive i f

/-- A message arrives at its home entry. It is served when the entry is free, after those that arrived before it; until then
it waits there (R317). -/
def State.atEntry (s : State) (k : Nat) (i : Instr) (free : State → Bool) (f : State → State) :
    Host.Outcome State Fault Refusal :=
  match s.waiting.find? (fun j => messageUnit j == some k) with
  | some j =>
    if j = i then (if free s then .next (f { s with waiting := s.waiting.erase i }) else .next s)
    else s.arrive i (fun s => { s with waiting := s.waiting ++ [i] })
  | none => s.arrive i (fun s => if free s then f s else { s with waiting := s.waiting ++ [i] })

/-- A copy or the ownership of a unit is on its way to a stack, or asked for. -/
def State.asked (s : State) (k stack : Nat) : Bool :=
  (s.net ++ s.waiting).any (fun i => match i with
    | .gets l y _ | .getx l y _ | .fwd l y _ _ | .data l y _ _ _ => l == k && y == stack
    | _ => false)

/-- The GETS of a core to a home slice that have not been answered (R396). -/
def State.outstanding (s : State) (core home : Nat) : Nat :=
  ((s.net ++ s.waiting).filter (fun i => match i with
    | .gets l _ c => c == core && unitSlice l == home
    | .fwd l _ c x | .data l _ c x _ => c == core && !x && unitSlice l == home
    | _ => false)).length

/-- A copy of a unit is asked for its stack by a core, which has at most 64 requests unanswered at a home (R396). -/
def State.askCopy (s : State) (core k : Nat) : State :=
  if s.asked k (stackOf core) || 64 ≤ s.outstanding core (unitSlice k) then s else s.send (.gets k (stackOf core) core)

/-! Lines as they stand. -/

/-- The 64 bytes of a line with its poisoned granules, 0 to 7. -/
structure LineView where
  bytes : List Byte
  bad : List Nat
deriving DecidableEq, Repr

/-- The line as its owners hold it. -/
def State.ownerView (s : State) (line : Nat) : LineView :=
  ⟨memBytes s.mem line 64, (List.range 8).filter (fun g => s.poison.contains (line + 8 * g))⟩

/-- A line with the bytes at some offsets taken from another view of it. -/
def LineView.overlay (v w : LineView) (mask : List Nat) : LineView :=
  ⟨(List.range 64).map (fun i => (if mask.contains i then w.bytes else v.bytes).getD i 0),
    (List.range 8).filter (fun g =>
      (w.bad.contains g && mask.any (fun i => i / 8 = g)) || (v.bad.contains g && (List.range 8).any (fun i => !mask.contains (8 * g + i))))⟩

/-- The bytes of a unit, line by line. -/
def State.unitData (s : State) (k : Nat) : List Byte := (s.unitLines k).flatMap (fun l => memBytes s.mem l 64)

/-- A message of data on its way, with the bytes that its unit now holds: data arrive as they stand at the owner when they
arrive. (DESIGN CHOICE, log 43.) -/
def State.freshData (s : State) (line : Nat) : Instr → Instr
  | .data k y c x bs => if (s.unitLines k).contains line then .data k y c x (s.unitData k) else .data k y c x bs
  | i => i

/-! L1 copies. -/

/-- The cores of a stack that hold an L1 copy of a line: what the cluster, die and stack directories name (R311). (DEDUCED, log 41.) -/
def State.l1Holders (s : State) (stack line : Nat) : List Nat :=
  (s.cores.filter (fun p => p.1 / 256 = stack && (tget? p.2.l1 line).isSome)).map Prod.fst

/-- The L1 copy of a line in a core is dropped. -/
def State.dropL1 (s : State) (line core : Nat) : State :=
  if (tget? (s.core core).l1 line).isSome then s.modCore core (fun c => { c with l1 := tdel c.l1 line }) else s

/-- The lines that the L1s of some cores hold. -/
def State.l1Lines (s : State) (p : Nat → Bool) : List Nat :=
  ((s.cores.filter (fun c => p c.1)).flatMap (fun c => tkeys c.2.l1)).dedup

/-- A directory that tracks as many lines as it has entries makes room for another: the copies of its lowest line are
invalidated (R311). -/
def State.directoryRoom (s : State) (p : Nat → Bool) (q : Nat → Bool) (entries line : Nat) : State :=
  let ls := (s.l1Lines p).filter q
  if ls.contains line || ls.length < entries then s
  else match ls with
    | l :: _ => (s.cores.filter (fun c => p c.1)).foldl (fun (u : State) c => u.dropL1 l c.1) s
    | [] => s

/-- A line enters a core's L1, over the least recently used of a full set (R294, R301), and the die and stack directories (R311).
A cluster directory always has room: its 16,384 entries are the lines of eight L1s. -/
def State.fillL1 (s : State) (core line : Nat) (x : L1Line) : State :=
  let s1 := (s.directoryRoom (fun c => dieOf c = dieOf core) (fun _ => true) 65536 line).directoryRoom
    (fun c => stackOf c = stackOf core) (fun l => sliceHash l = sliceHash line) 32768 line
  s1.modCore core (fun c =>
    let ls := (tdel c.l1 line).filter (fun p => p.1 / 64 % 128 = line / 64 % 128)
    let l1 := if ls.length < 16 then c.l1 else
      match ls.foldl (fun (b : Option (Nat × Nat)) p => match b with
          | some q => if q.2 ≤ p.2.used then b else some (p.1, p.2.used)
          | none => some (p.1, p.2.used)) none with
      | some p => tdel c.l1 p.1
      | none => c.l1
    { c with l1 := tset l1 line { x with used := s.clk } })

/-! Slices (R297 to R301). -/

/-- The lines of a set of a slice. -/
def State.setLines (s : State) (g line : Nat) : List (Nat × SliceLine) :=
  (tgetD s.stackTbl (g / 32) {}).lines.filter (fun p => p.2.slice = g && p.1 / 64 % 8192 = line / 64 % 8192)

/-- A line of class resident counts among those that may be protected: at most half the ways, the lowest ways first (R301). (DESIGN CHOICE, log 121.) -/
def residentIn (ways : Nat) (ls : List (Nat × SliceLine)) (p : Nat × SliceLine) : Bool :=
  p.2.cls == 2 && decide ((ls.filter (fun q => q.2.cls == 2 && q.2.way < p.2.way)).length < ways / 2)

/-- A protected line of a set (R300, R301): resident, while the set holds an unprotected line. -/
def protectedIn (ways : Nat) (ls : List (Nat × SliceLine)) (p : Nat × SliceLine) : Bool :=
  residentIn ways ls p && ls.any (fun q => !residentIn ways ls q)

/-- A unit owned by a stack leaves it: it is written back to its home, its tags forced to package scope first (R317, R325). -/
def State.writeBack (s : State) (stack k : Nat) : State :=
  let e := s.homeEntry k
  let s1 := (s.unitLines k).foldl (fun u l => (u.tagsOf l).foldl (fun u t => u.askFpub t.core t.epoch 6 t.core) u) s
  if e.owned && e.owner = stack then s1.sendOnce (.wb k stack) else s1

/-- A unit leaves the slices of a stack, with every line that then holds nothing. -/
def State.dropPart (s : State) (stack k : Nat) : State :=
  (s.unitLines k).foldl (fun (u : State) l => match u.copyAt stack l with
    | some c =>
      let ps := tdel c.parts k
      u.setCopy stack l (if ps.isEmpty then none else some { c with parts := ps })
    | none => u) s

/-- A line leaves the slices of a stack: what it holds goes as whole units, the owned ones written back. -/
def State.evict (s : State) (stack line : Nat) : State :=
  match s.copyAt stack line with
  | some c =>
    (c.parts.foldl (fun (u : State) p => (if p.2.st.owns then u.writeBack stack p.1 else u).dropPart stack p.1) s).setCopy
      stack line none
  | none => s

/-- The way that a line of a set takes and the line it replaces: the lowest free cache way, else the lowest way with
age 3 that is not protected, the ages having risen until there is one (R300). -/
def victim (ways : Nat) (ls : List (Nat × SliceLine)) : Nat × Option Nat × Nat :=
  match (List.range ways).find? (fun w => ls.all (fun p => p.2.way != w)) with
  | some w => (w, none, 0)
  | none =>
    let free := ls.filter (fun p => !protectedIn ways ls p)
    let top := free.foldl (fun m p => max m p.2.age) 0
    match free.foldl (fun (b : Option (Nat × SliceLine)) p =>
        if p.2.age < top then b else match b with
          | some q => if q.2.way ≤ p.2.way then b else some p
          | none => some p) none with
    | some p => (p.2.way, some p.1, 3 - top)
    | none => (0, none, 0)

/-- A line of a class enters the slice beneath a cluster, if that slice has cache ways (R295, R297, R300, R301). -/
def State.placeCopy (s : State) (g line : Nat) (c : SliceLine) (cls0 : Nat) : State :=
  let ways := s.cacheWays g
  if ways = 0 then s
  else
    let ls : Tbl SliceLine := s.setLines g line
    let cls := if cls0 = 2 && ways / 2 ≤ (ls.filter (fun p => p.2.cls = 2)).length then 1 else cls0
    let (way, gone, rise) := victim ways ls
    let aged := (ls.filter (fun p => !protectedIn ways ls p)).foldl
      (fun u p => u.setCopy (g / 32) p.1 (some { p.2 with age := p.2.age + rise })) s
    let s1 := match gone with
      | some l => aged.evict (g / 32) l
      | none => aged
    let hashed : Tbl SliceLine := (tgetD s1.stackTbl (g / 32) {}).lines.filter (fun p => sliceHash p.1 = sliceHash line)
    let s2 := if hashed.length < 163840 then s1 else
      match hashed.foldl (fun (b : Option (Nat × Nat)) p => match b with
          | some q => if q.2 ≤ p.2.used then b else some (p.1, p.2.used)
          | none => some (p.1, p.2.used)) none with
      | some p => s1.evict (g / 32) p.1
      | none => s1
    s2.setCopy (g / 32) line (some { c with
      slice := g, way := way, cnt := 0, cand := g, cls := cls, used := s.clk,
      age := if cls = 0 then 3 else if cls = 1 then 1 else if cls = 2 then 0 else 2 })

/-- A line is inserted with the class that its object gives it now. -/
def State.insertCopy (s : State) (g line : Nat) (c : SliceLine) : State := s.placeCopy g line c (s.lineClass line)

/-- The tags of a line move between slices (R325), at what was their age (R321). -/
def State.moveTags (s : State) (line a b : Nat) : State :=
  if a = b then s
  else
    let ts := (s.cluster a).tags.filter (fun t => t.line = line)
    if ts.isEmpty then s
    else (s.modCluster a (fun c => { c with tags := c.tags.filter (fun t => t.line != line) })).modCluster b
      (fun c => { c with tags := c.tags ++ ts.map (fun t => { t with tick := t.tick + s.tickOf b - s.tickOf a }) })

/-- The tags of a line gather at a slice (R325). -/
def State.gatherTags (s : State) (line g : Nat) : State :=
  ((s.clusters.filter (fun p => p.2.tags.any (fun t => t.line = line))).map Prod.fst).foldl (fun u a => u.moveTags line a g) s

/-- The tags of lines that would move to a slice do not fit beside those that it holds: the oldest of these, which must go
first (R325). -/
def State.tagsFull (s : State) (lines : List Nat) (g : Nat) : Option Tag :=
  let new := (s.clusters.filter (fun p => p.1 != g)).flatMap (fun p => p.2.tags.filter (fun t => lines.contains t.line))
  if new.isEmpty || (s.cluster g).tags.length + new.length ≤ 256 then none else (s.cluster g).tags.head?

/-- The count and the candidate of a line after an access from a cluster of its stack (R298). -/
def SliceLine.count (c : SliceLine) (g : Nat) : SliceLine :=
  if g = c.slice then { c with cnt := c.cnt - 1 }
  else if g = c.cand then { c with cnt := min (c.cnt + 1) 3 }
  else { c with cand := g, cnt := 1 }

/-- A line in another slice, whose ticks differ by `d`: its leases are what they were (R299). -/
def SliceLine.shift (c : SliceLine) (d : Int) : SliceLine := { c with parts := tmap c.parts (fun p => { p with t0 := p.t0 + d }) }

/-- The oldest tag of a slice is forced to package scope, to make room (R325). -/
def State.forceTag (s : State) (t : Tag) : State := s.askFpub t.core t.epoch 6 t.core

/-- An access of a core reaches the copy in its stack: the age on a hit, which the access that has brought the line in is not,
and, if the access counts, migration, for which the line's tags need room (R298 to R300, R325). A move keeps the line's class. (DEDUCED, log 158.) -/
def State.touchCopy (s : State) (core line : Nat) (counts : Bool := true) : State :=
  let g := clusterOf core
  match s.copyAt (g / 32) line with
  | none => s
  | some c0 =>
    let c1 := { c0 with age := if c0.fresh = some core then c0.age else if c0.cls = 0 then 3 else 0, used := s.clk, fresh := none }
    let c := if c0.cls = 0 || !counts then c1 else c1.count g
    if counts && c.cnt = 3 && c.cls != 0 && s.cacheWays c.cand > 0 && c.cand != c.slice then
      match s.tagsFull [line] c.cand with
      | some t => (s.setCopy (g / 32) line (some c)).forceTag t
      | none =>
        ((s.setCopy (g / 32) line none).placeCopy c.cand line (c.shift ((s.tickOf c.cand : Int) - s.tickOf c.slice)) c.cls).moveTags
          line c.slice c.cand
    else s.setCopy (g / 32) line (some c)

/-- A slice copy holds a unit from now on, with the bytes of a view of its line if they are under a lease. -/
def SliceLine.hold (c : SliceLine) (k : Nat) (p : Part) (mask : List Nat) (v : LineView) : SliceLine :=
  if p.st.owns then { c with parts := tset c.parts k p }
  else
    let w := if isTile k && !c.data.isEmpty then LineView.overlay ⟨c.data, c.bad⟩ v mask else v
    { c with parts := tset c.parts k p, data := w.bytes, bad := w.bad }

/-- A stack holds a unit in a state from now on, its lease starting: where its slices have no copy of a line, one enters
beneath a cluster. `fresh` is the core whose write it comes for. -/
def State.install (s : State) (g k : Nat) (st : CopyState) (fresh : Option Nat := none) : State :=
  (s.unitLines k).foldl (fun (u : State) l =>
    let v := u.ownerView l
    match u.copyAt (g / 32) l with
    | some c => u.setCopy (g / 32) l (some (c.hold k ⟨st, u.tickOf c.slice⟩ (u.unitMask l k) v))
    | none => u.insertCopy g l (({ fresh := fresh } : SliceLine).hold k ⟨st, u.tickOf g⟩ (u.unitMask l k) v)) s

/-- What a stack holds of a unit changes its state; one that turns to S takes the owner's bytes, and its lease starts again. -/
def State.turnPart (s : State) (stack k : Nat) (f : CopyState → CopyState) : State :=
  (s.unitLines k).foldl (fun (u : State) l => match u.copyAt stack l with
    | some c => (match c.part k with
      | some p => u.setCopy stack l (some (c.hold k ⟨f p.st, if (f p.st).owns then p.t0 else u.tickOf c.slice⟩ (u.unitMask l k)
          (u.ownerView l)))
      | none => u)
    | none => u) s

/-! Home entries as they fill (R311, R317). -/

/-- A unit goes home at once: no copy of it is left but in DRAM. -/
def State.sendHome (s : State) (k : Nat) : State :=
  let s1 := (s.unitLines k).foldl (fun (u : State) l => u.cores.foldl (fun (u : State) p => u.dropL1 l p.1) u) s
  let s2 := (List.range 8).foldl (fun (u : State) y => u.dropPart y k) s1
  { s2 with homes := tdel s2.homes k }

/-- A home slice whose 131,072 entries are in use frees the lowest one that no message concerns (R311). (DESIGN CHOICE, log 122.) -/
def State.homeRoom (s : State) (k : Nat) : State :=
  let es := s.homes.filter (fun p => unitSlice p.1 = unitSlice k)
  if (tget? s.homes k).isSome || es.length < 131072 then s
  else match es.find? (fun p => p.2.xpub.isNone && s.ownerReady p.1 && !s.tagged p.1 &&
      (s.net ++ s.waiting).all (fun i => messageUnit i != some p.1)) with
    | some p => s.sendHome p.1
    | none => s

/-- The lease end of an entry covers a grant to a context made now (R317). -/
def State.lendTo (s : State) (k ctx : Nat) (e : HomeEntry) : HomeEntry := { e with lend := max e.lend (s.homeTick k + s.period ctx) }

/-- A grant of a copy to a stack for a context: the sharer bit and the lease end (R317). -/
def State.grant (s : State) (k y ctx : Nat) : State :=
  let s1 := s.homeRoom k
  s1.setHome k (s1.lendTo k ctx ((s1.homeEntry k).addSharer k y))

/-! What a load finds (R313). -/

/-- Bytes written into a line at an offset. -/
def patch (bs : List Byte) (o : Nat) (new : List Byte) : List Byte := bs.take o ++ new ++ bs.drop (o + new.length)

/-- What the write queue of a core says of an access: no queued store overlaps it, the latest that does holds all its bytes,
or the access must wait until that store has been performed (R270, R313). -/
inductive Forward where
  | none
  | bytes (v : Nat)
  | wait
deriving DecidableEq, Repr

/-- See `Forward`. -/
def Core.forward (c : Core) (pa z : Nat) : Forward :=
  match c.wq.reverse.find? (fun p => p.2.pa < pa + z && pa < p.2.pa + p.2.bytes.length) with
  | none => .none
  | some p =>
    if p.2.pa ≤ pa && pa + z ≤ p.2.pa + p.2.bytes.length then .bytes (leNat ((p.2.bytes.drop (pa - p.2.pa)).take z)) else .wait

/-- The queue of a core holds a store to a line. -/
def Core.queued (c : Core) (line : Nat) : Bool := (tvals c.wq).any (fun e => lineOf e.pa = line)

/-- A lease that started at a tick holds for a context (R320). -/
def State.leaseHolds (s : State) (ctx : Nat) (t0 : Int) (now : Nat) : Bool := decide ((now : Int) + 64 < t0 + s.period ctx)

/-- The L1 copy that a load of a core may use. -/
def State.l1View (s : State) (core ctx line : Nat) : Option LineView :=
  match tget? (s.core core).l1 line with
  | some x => if s.leaseHolds ctx x.t0 (s.coreTick core) then some ⟨x.data, x.bad⟩ else none
  | none => none

/-- What a core's stack holds of a unit in a line, if a load may use it: whether the bytes are the owner's, and the tick of
the core at which the lease started. -/
def State.partView (s : State) (core ctx line k : Nat) : Option (Bool × Int) :=
  let now : Int := s.coreTick core
  match (s.copyAt (stackOf core) line).bind (fun c => (c.part k).map (fun p => (s.tickOf c.slice, p))) with
  | some (t, p) =>
    if p.st.owns then some (true, now)
    else if s.leaseHolds ctx p.t0 t then some (false, now - (t - p.t0))
    else none
  | none => if unitHome k = stackOf core && !(s.homeEntry k).owned then some (true, now) else none

/-- A line as a stack's slices show some units of it, with the earliest start of their leases. -/
def State.stackView (s : State) (core ctx line : Nat) (ks : List Nat) : Option (LineView × Int) :=
  ks.foldl (fun (b : Option (LineView × Int)) k => match b, s.partView core ctx line k with
    | some (v, t0), some (true, t) => some (v, min t0 t)
    | some (v, t0), some (false, t) =>
      let w : LineView := match s.copyAt (stackOf core) line with
        | some c => ⟨c.data, c.bad⟩
        | none => v
      some (if k = line then w else v.overlay w (s.unitMask line k), min t0 t)
    | _, _ => none) (some (s.ownerView line, (s.coreTick core : Int)))

/-- How a read of a line fares: served, with the state after, or not yet, with what it has asked for. -/
inductive Served where
  | yes (v : LineView) (s : State)
  | notYet (s : State)

/-- The units of a level that hold a core, as a test on clusters. -/
def sameUnit (level core g : Nat) : Bool := unitOf level core == unitOf level (g * 8)

/-- A read of core to stack scope finds a usable S copy (R412). -/
def State.findsCopy (s : State) (core ctx line : Nat) (ks : List Nat) (level : Nat) : Bool :=
  level ≤ 4 && ((level ≤ 1 && (s.l1View core ctx line).isSome) ||
    ((s.copyAt (stackOf core) line).any (fun c => c.shared) && (s.stackView core ctx line ks).isSome))

/-! Dependencies (R326). -/

/-- The dependencies that a load of a tagged line adds to a core's list. -/
def State.newDeps (s : State) (core line : Nat) : List Dep :=
  ((s.tagsOf line).filter (fun t => t.core != core && (s.core core).deps.all (fun d => !(d.core = t.core && d.epoch = t.epoch)))).map
    (fun t => ⟨t.core, t.epoch, t.level, (s.core core).epoch⟩)

/-- A list of 16 that would overflow forces its oldest entry to package scope, and the load waits until it has gone; with an
empty list, the tag itself is forced: none if there is room. -/
def State.depWait (s : State) (core : Nat) (new : List Dep) : Option State :=
  let ds := (s.core core).deps
  if ds.length + new.length ≤ 16 then none
  else (ds ++ new).head?.map (fun d => s.askFpub d.core d.epoch 6 core)

/-- A load that returns data from a tagged line records the tags. -/
def State.recordDeps (s : State) (core line : Nat) : State :=
  let new := s.newDeps core line
  if new.isEmpty then s else s.modCore core (fun c => { c with deps := c.deps ++ new })

/-! Reads that older copies do not show (R269). -/

/-- Some other core or some stack holds other bytes of a line under a lease. -/
def State.otherBytes (s : State) (core line : Nat) (bytes : List Byte) : Bool :=
  s.cores.any (fun p => p.1 != core && (tget? p.2.l1 line).any (fun x => x.data != bytes)) ||
    s.stackTbl.any (fun p => (tget? p.2.lines line).any (fun c => c.shared && c.data != bytes))

/-- A write of a core, or a read of it, that no PACK is about to make known as visible, already stands for a line. -/
def State.notedRead (s : State) (core line : Nat) : Bool :=
  (s.core core).outs.any (fun o => o.2.line = line && o.2.level = 1 && s.net.all (fun i => match i with
    | .pack c w _ => !(c == core && w == o.1)
    | _ => true))

/-- A core notes a line whose bytes it has read while other copies show other bytes: a release of it makes them visible, as it
does its own writes. (DEDUCED, log 39.) -/
def State.noteRead (s : State) (core line : Nat) (v : LineView) : State :=
  if !s.otherBytes core line v.bytes || s.notedRead core line then s
  else
    let o : OutWrite := { line := line, units := s.lineUnits line, epoch := (s.core core).epoch, level := 1, since := s.clk }
    s.modCore core (fun c => { c with outs := tset c.outs c.nextWrite o, nextWrite := c.nextWrite + 1 })

/-! Reads of a line (R313, R315, R324). -/

/-- A line enters the slice of a cluster that accesses it through the slice path, or is touched there (R295); `counts` says whether
the access may migrate it (R298). -/
def State.enterSlice (s : State) (core line : Nat) (ks : List Nat) (counts : Bool := true) : State :=
  let g := clusterOf core
  let y := stackOf core
  let mine := ks.filter (fun k => unitHome k = y && !(s.homeEntry k).owned)
  match s.copyAt y line with
  | some c =>
    (s.setCopy y line (some { c with parts := mine.foldl (fun t k => if (tget? t k).isSome then t else tset t k {}) c.parts })).touchCopy core line counts
  | none => if mine.isEmpty then s else s.insertCopy g line { parts := mine.foldl (fun t k => tset t k {}) [] }

/-- A line whose every unit a load may use enters the core's L1; otherwise the older copy that the core's L1 may hold goes, since
the load's data may be newer (R269, R313). -/
def State.fillFrom (s : State) (core ctx line : Nat) : State :=
  match s.stackView core ctx line (s.lineUnits line) with
  | some (v, t0) => s.fillL1 core line { data := v.bytes, bad := v.bad, t0 := t0 }
  | none => s.dropL1 line core

/-- The copies that a read through the slice path lacks are asked for. -/
def State.askCopies (s : State) (core ctx line : Nat) (ks : List Nat) : State :=
  ks.foldl (fun (u : State) k => if (u.partView core ctx line k).isNone then u.askCopy core k else u) s

/-- The owner of a unit can be reached from a core: a packet that meets a failed element waits (R395). -/
def State.ownerClear (s : State) (core k : Nat) : Bool :=
  s.fabric.whole || s.fabric.clear (clusterOf core) (256 + s.ownSlice k)

/-- What a read past the L1 is served from can be reached: the slice of its stack, or the owners. -/
def State.readClear (s : State) (core line : Nat) (ks : List Nat) (level : Nat) : Bool :=
  s.fabric.whole || (if 5 ≤ level then ks.all (s.ownerClear core)
    else s.fabric.clear (clusterOf core) (256 + ((s.copyAt (stackOf core) line).map (fun c => c.slice)).getD (clusterOf core)))

/-- What must happen before a read of some units of a line is served: a failed element on its way, a conversion or a warm reset holds it; an acquire waits
until the narrower tags of the line whose core its scope contains have been published; the dependency list needs room; and
a read past the L1 waits for the core's own stores to the line and for the invalidations pending in its scope's unit. -/
def State.readBlock (s : State) (core ctx line : Nat) (ks : List Nat) (cls : AccessClass) : Option State :=
  let tags := (s.tagsOf line).filter (fun t =>
    cls.acquire && 2 ≤ cls.level && t.level < cls.level && unitOf cls.level t.core == unitOf cls.level core)
  if s.converting line || (s.homeHeld line && !s.findsCopy core ctx line ks cls.level) then some s
  else if !s.readClear core line ks cls.level && !(cls.level ≤ 1 && (s.l1View core ctx line).isSome) then some s
  else if !tags.isEmpty then some (tags.foldl (fun u t => u.askFpub t.core t.epoch cls.level core) s)
  else match s.depWait core (s.newDeps core line) with
    | some u => some u
    | none =>
      if 2 ≤ cls.level && ((s.core core).queued line || (s.pending line).any (sameUnit cls.level core)) then some s else none

/-- A read through the slice path. -/
def State.sliceRead (s : State) (core ctx line : Nat) (ks : List Nat) : Served :=
  match s.stackView core ctx line ks with
  | some (v, _) => .yes v ((((s.enterSlice core line ks).fillFrom core ctx line).recordDeps core line).noteRead core line v)
  | none => .notYet (s.askCopies core ctx line ks)

/-- The stacks, other than its owner, that may hold older bytes of a unit than its owner does: its sharers while it is
unpublished, and its home stack, whose copy a transfer of ownership leaves under a lease (R317, R318). -/
def State.openStacks (s : State) (k : Nat) : List Nat :=
  let e := s.homeEntry k
  let x := s.ownerStack k
  let h := unitHome k
  let older : Bool := x != h && (s.unitLines k).any (fun l =>
    let bs := memBytes s.mem l 64
    (s.copyAt h l).any (fun c => c.shared && c.data != bs) || (s.l1Holders h l).any (fun c => (tget? (s.core c).l1 l).any (fun y => y.data != bs)))
  (List.range 8).filter (fun y => y != x && ((e.unpub && e.shares k y) || (y = h && older)))

/-- A stack lies in the unit of a level, interposer or package, that holds a core. -/
def inScope (level core y : Nat) : Bool := level ≥ 6 || y / 4 == stackOf core / 4

/-- A stack with cache ways gains ownership of units in ascending order, before an access of theirs (R314, R317, R329): the state that
has asked for the next. A stack without cache ways owns nothing, and its accesses are performed where the owners are (R301). -/
def State.gainUnits (s : State) (core : Nat) (ks : List Nat) : Option State :=
  if s.cacheWays (clusterOf core) = 0 then none
  else (ks.find? (fun k => s.ownerStack k != stackOf core)).map (fun k =>
    if s.asked k (stackOf core) then s else s.send (.getx k (stackOf core) core))

/-- A line that has been read at its owners enters the slices of the reader's stack: what the stack owns is touched there, the rest
comes under a lease. -/
def State.bringIn (s : State) (core ctx line : Nat) (ks : List Nat) (counts : Bool := true) : State :=
  let y := stackOf core
  let s1 := if ks.any (fun k => s.ownerStack k = y) || (s.copyAt y line).isSome then s.enterSlice core line ks counts else s
  ks.foldl (fun (u : State) k => if u.ownerStack k = y then u else (u.grant k y ctx).install (clusterOf core) k .s) s1

/-- A read at the owner: interposer and package scope. -/
def State.ownerRead (s : State) (core ctx line : Nat) (ks : List Nat) (level : Nat) : Served :=
  let y := stackOf core
  if ks.any (fun k => !s.ownerReady k || (s.homeEntry k).xpub.isSome) || !(s.pending line).isEmpty then .notYet s
  else
    let stale := ks.filter (fun k => (s.openStacks k).any (inScope level core))
    if !stale.isEmpty then .notYet (stale.foldl (fun u k => u.sendOnce (.xpub k y level)) s)
    else
      let v := s.ownerView line
      .yes v ((((s.bringIn core ctx line ks).fillFrom core ctx line).recordDeps core line).noteRead core line v)

/-- The line is the record of a live decant counter: it stays at its home, and is read and written there (R244). -/
def State.liveRecord (s : State) (line : Nat) : Bool := (tget? (s.cluster (homeSlice line)).counters line).isSome

/-- A read of some units of a line by a core for a context. -/
def State.readLine (s : State) (core ctx line : Nat) (ks : List Nat) (cls : AccessClass) : Served :=
  match s.readBlock core ctx line ks cls with
  | some u => .notYet u
  | none =>
    if s.liveRecord line then .yes (s.ownerView line) (s.recordDeps core line)
    else if cls.level ≤ 1 then
      match s.l1View core ctx line with
      | some v =>
        .yes v (((s.modCore core (fun c => { c with l1 := tmodify c.l1 line (fun x => { x with used := s.clk }) })).recordDeps
          core line).noteRead core line v)
      | none => s.sliceRead core ctx line ks
    else if cls.level ≤ 4 then s.sliceRead core ctx line ks
    else s.ownerRead core ctx line ks cls.level

/-! Performing a write at the owner (R315 to R318, R325). -/

/-- The granules that an access writes whole lose their mark (R405). -/
def clearGranules (bad : List Nat) (pa n : Nat) : List Nat :=
  bad.filter (fun g => !(pa ≤ g && g + 8 ≤ pa + n))

/-- A message of a decant counter other than a reply. -/
def decantMessageOf (r : Nat) : Instr → Bool
  | .decantReq q _ _ _ | .decantGiveMsg q _ _ _ | .decantReturn q _ _ | .decantAnswer q _ _ | .decantReadAtHome q _ _ _
  | .decantRecall q _ | .decantGrant q _ _ | .decantServe q _ _ => q == r
  | _ => false

/-- The home has replied to an operation. -/
def State.decantReplied (s : State) (op : Nat) : Bool :=
  s.net.any (fun i => match i with | .decantStatusReply _ _ o _ _ _ => o == op | _ => false)

/-- A counter leaves its home table: the operations on it that the home has not answered end in a trap, its messages go,
and every allowance entry of it is discarded (R244, R254, R263). -/
def State.decantRetire (s : State) (r cause detail : Nat) : State :=
  let fail (p : Nat × DecantOp) : Nat × DecantOp :=
    if p.2.record = r && !p.2.done && !s.decantReplied p.1 then (p.1, { p.2 with done := true, trap := some (cause, detail) })
    else p
  let s1 : State := { s with
    decants := s.decants.map fail, net := s.net.filter (fun i => !decantMessageOf r i),
    clusters := tmap s.clusters (fun c => { c with allow := tdel c.allow r }) }
  s1.modCluster (homeSlice r) (fun c => { c with counters := tdel c.counters r })

/-- A live decant record whose line is written becomes BROKEN and leaves its home table (R244). (DEDUCED, log 54.) -/
def State.decantBreak (s : State) (line : Nat) : State :=
  if (tget? (s.cluster (homeSlice line)).counters line).isSome then (s.decantRetire line 0x13 1).memWrite (line + 4) [0x0F]
  else s

/-- The clusters of a core's stack, its own L1 apart, whose L1 copy of a line shows other bytes than the core last read: those
of its L1, else of the stack's S copy, else the owner's. -/
def State.staleClusters (s : State) (core line : Nat) : List Nat :=
  let y := stackOf core
  let bs := match tget? (s.core core).l1 line, s.copyAt y line with
    | some x, _ => x.data
    | none, some c => if c.shared then c.data else memBytes s.mem line 64
    | none, none => memBytes s.mem line 64
  (((s.l1Holders y line).filter (fun k => k != core && (tget? (s.core k).l1 line).any (fun x => x.data != bs))).map clusterOf).dedup

/-- The level at which the writes of a core to a line, or what it has read of it, are now visible (R315). -/
def State.visibleLevel (s : State) (core line : Nat) (ks : List Nat) : Nat :=
  let gs := s.pending line ++ s.staleClusters core line
  let opened := ks.flatMap s.openStacks
  if gs.any (sameUnit 2 core) then 1
  else if gs.any (sameUnit 3 core) then 2
  else if gs.any (sameUnit 4 core) then 3
  else if !gs.isEmpty || ks.any (fun k => !s.ownerReady k || (s.homeEntry k).xpub.isSome) || opened.any (inScope 5 core) then 4
  else if !opened.isEmpty then 5
  else 6

/-- Cores learn by PACK of the wider levels that their writes to a line have reached (R322). -/
def State.settle (s : State) (line : Nat) : State :=
  s.cores.foldl (fun u p =>
    p.2.outs.foldl (fun u o =>
      if o.2.line = line then
        let l := s.visibleLevel p.1 line o.2.units
        if o.2.level < l then u.sendOnce (.pack p.1 o.1 l) else u
      else u) u) s

/-- The bytes of a write at the owner, the poison marks it clears, and a live decant record it breaks; data on their way show
them. (DEDUCED, log 40.) -/
def State.writeBytes (s : State) (pa : Nat) (bs : List Byte) : State :=
  let s1 := s.memWrite pa bs
  let s2 := ({ s1 with poison := clearGranules s.poison pa bs.length } : State).decantBreak (lineOf pa)
  { s2 with net := s2.net.map (s2.freshData (lineOf pa)), waiting := s2.waiting.map (s2.freshData (lineOf pa)) }

/-- A byte of the header or the fault log of a context's save area, which only the device writes (R3, R381). -/
def State.deviceByte (s : State) (pa : Nat) : Bool :=
  s.ctxs.any (fun p => decide (p.2.saveBase ≤ pa ∧ pa < p.2.saveBase + min 8192 p.2.saveSize))

/-- What a write leaves in its bytes: what it writes to those of a save area that only the device writes is discarded. -/
def State.ownBytes (s : State) (pa : Nat) (bs : List Byte) : List Byte :=
  bs.zipIdx.map (fun b => if s.deviceByte (pa + b.2) then memByte s.mem (pa + b.2) else b.1)

/-- A write at the owner; a granule with a byte of which the write is discarded is not written whole and keeps its mark (R3, R405). -/
def State.writeOwned (s : State) (pa : Nat) (bs : List Byte) : State :=
  let u := s.writeBytes pa (s.ownBytes pa bs)
  if s.poison.any s.deviceByte then { u with poison := s.poison.filter (fun g => u.poison.contains g || s.deviceByte g) } else u

/-- The slice copies of the owner's and the writer's stack after a write of a core to a unit of a line (R295, R298, R310,
R316). -/
def State.dirtyCopy (s : State) (core line k : Nat) : State :=
  let x := s.ownerStack k
  let e := s.homeEntry k
  let st : CopyState := if e.sh = 0 && !e.xi then .m else .o
  if x = stackOf core then
    match s.copyAt x line with
    | some c => (s.setCopy x line (some { c with parts := tset c.parts k { st := st } })).touchCopy core line
    | none => s.insertCopy (clusterOf core) line { parts := [(k, { st := st })] }
  else
    let s1 := match s.copyAt x line with
      | some c => s.setCopy x line (some { c with parts := tset c.parts k { st := st } })
      | none => s
    s1.dropPart (stackOf core) k

/-- INV goes to clusters of a stack that hold an L1 copy of a line, but for one core's (R318). -/
def State.sendInvs (s : State) (line core : Nat) (gs : List Nat) : State :=
  gs.foldl (fun (u : State) h => u.sendOnce (.inv line h core)) s

/-- The writer's own L1 copy takes the bytes written; INV goes to every other cluster of the two stacks with a copy (R318). -/
def State.invalidateOthers (s : State) (core pa n : Nat) (ks : List Nat) : State :=
  let line := lineOf pa
  let new (l : L1Line) : LineView := LineView.overlay ⟨l.data, l.bad⟩ (s.ownerView line) ((List.range n).map (fun i => pa % 64 + i))
  let s1 := s.modCore core (fun c => { c with l1 := tmodify c.l1 line (fun l => { l with data := (new l).bytes, bad := (new l).bad }) })
  let ys := (stackOf core :: ks.map s.ownerStack).dedup
  let held := (ys.flatMap (fun y => s1.l1Holders y line)).filter (fun k => k != core)
  s1.sendInvs line core (held.map clusterOf).dedup

/-- The L1 copies of a stack that show other bytes of a line than its owner, which the stack has just become: INV goes to
their clusters. (DEDUCED, log 42.) -/
def State.invalidateOlder (s : State) (y line : Nat) : State :=
  let bs := memBytes s.mem line 64
  let held := (s.l1Holders y line).filter (fun k => (tget? (s.core k).l1 line).any (fun x => x.data != bs))
  s.sendInvs line 2048 (held.map clusterOf).dedup

/-- A write at the owner of a unit with sharers leaves it unpublished (R317). -/
def State.markUnpub (s : State) (k : Nat) : State :=
  let e := s.homeEntry k
  if e.sh != 0 || e.xi then s.setHome k { e with unpub := true } else s

/-- The slice at which the owner of the bytes written stands. -/
def State.writeSlice (s : State) (line : Nat) (ks : List Nat) : Nat := s.ownSlice (ks.headD (s.unitAt line))

/-- The table of release tags that a write of a core to a line would enter is full: the tag that must go first (R325). -/
def State.tagFull (s : State) (core line : Nat) (ks : List Nat) : Option Tag :=
  if (s.core core).relLevel = 0 then none
  else
    let ts := (s.cluster (s.writeSlice line ks)).tags
    if ts.length < 256 || ts.any (fun t => t.line = line && t.core = core) then none else ts.head?

/-- A write of a core with an unpublished narrow release leaves a tag (R325). -/
def State.recordTag (s : State) (core line : Nat) (ks : List Nat) (epoch : Nat) : State :=
  let rl := (s.core core).relLevel
  if rl = 0 then s
  else
    let own := s.writeSlice line ks
    let tag : Tag := ⟨line, core, epoch, rl, s.tickOf own⟩
    s.modCluster own (fun c => { c with tags := c.tags.filter (fun t => !(t.line = line && t.core = core)) ++ [tag] })

/-- A write is performed at the owner of its bytes (R315 to R318, R325). -/
def State.perform (s : State) (core pa : Nat) (bs : List Byte) (id epoch : Nat) : State :=
  let line := lineOf pa
  let ks := s.unitsAt pa bs.length
  let s1 := ks.foldl (fun (u : State) k => (u.dirtyCopy core line k).markUnpub k) (s.writeOwned pa bs)
  let s2 := (s1.invalidateOthers core pa bs.length ks).recordTag core line ks epoch
  let o : OutWrite := { line := line, units := ks, epoch := epoch, level := 1, since := s.clk }
  (s2.modCore core (fun c => { c with outs := tset c.outs id o })).settle line

/-- A deferred cause is filed with a wave, in the program order of what it belongs to (R178, R367). (DEDUCED, log 139.) -/
def insertCause (t : TrapInfo) : List TrapInfo → List TrapInfo
  | [] => [t]
  | u :: us => if t.issuedAt < u.issuedAt then t :: u :: us else u :: insertCause t us
/-- A cause is deferred to a wave (R367); one that a fatal trap has stopped takes none, and its cause is reported as that trap was,
with its RESUME (R372). -/
def State.defer (s : State) (wid : Nat) (t : TrapInfo) : State :=
  let w := tgetD s.waves wid {}
  if w.ended then s.reportFatal w t (BitVec.ofNat 64 (memNat w.frame 0 8))
  else s.modWave wid (fun w => { w with causes := insertCause t w.causes })

/-- A store whose home is lost (R408): never visible, and HOME_OFFLINE is deferred to its wave. -/
def State.loseStore (s : State) (e : WqEntry) : State := s.defer e.wave e.trap

/-! Writes of engines and of the fabric. -/

/-- Every copy of a unit but its owner's is dropped and its sharers are cut: its writes are visible in the package. -/
def State.publishUnit (s : State) (k : Nat) : State :=
  let ls := s.unitLines k
  let s1 := ls.foldl (fun (u : State) l => u.cores.foldl (fun (u : State) p => u.dropL1 l p.1) u) s
  let s2 := (List.range 8).foldl (fun (u : State) y => match u.partAt y k with
    | some p => if p.st.owns then u.turnPart y k (fun _ => .m) else u.dropPart y k
    | none => u) s1
  let e := s2.homeEntry k
  ls.foldl (fun (u : State) l => u.settle l) (s2.setHome k { e with sh := 0, xi := false, unpub := false })

/-- The units of a line are published. -/
def State.publishLine (s : State) (line : Nat) : State := (s.lineUnits line).foldl (fun (u : State) k => u.publishUnit k) s

/-- A write at package scope by an engine, the scheduler or the fabric, performed and visible at once. -/
def State.publish (s : State) (pa : Nat) (bs : List Byte) : State := (s.writeOwned pa bs).publishLine (lineOf pa)

/-! Fences (R323, R324, R327). -/

/-- The publication of one write is pressed to a level: PACK if it is there already, INV for older L1 copies of its stack, XPUB
for the units with sharers in the level's unit once its stack has acknowledged. -/
def State.pressOut (s : State) (core level : Nat) (o : Nat × OutWrite) : State :=
  let l := s.visibleLevel core o.2.line o.2.units
  let s1 := if o.2.level < l then s.sendOnce (.pack core o.1 l) else s
  if level ≤ l then s1
  else if l < 4 || !(s.staleClusters core o.2.line).isEmpty then s1.sendInvs o.2.line core (s.staleClusters core o.2.line)
  else if level < 5 then s1
  else (o.2.units.filter (fun k => (s.openStacks k).any (inScope level core))).foldl
    (fun (u : State) k => u.sendOnce (.xpub k (stackOf core) level)) s1

/-- The publication of a core's writes before a mark is pressed to a level. -/
def State.press (s : State) (core mark level : Nat) : State :=
  (s.core core).outs.foldl (fun u o => if o.1 < mark && o.2.level < level then u.pressOut core level o else u) s

/-- FPUB for each dependency narrower than a level; for an acquire alone, of cores within the unit of the level. -/
def State.askDeps (s : State) (core level : Nat) (release : Bool) : State :=
  (s.core core).deps.foldl (fun u d =>
    if d.level < level && (release || unitOf level d.core == unitOf level core) then u.askFpub d.core d.epoch level core else u) s

/-- What a release or an acquire of a core at a level sends. -/
def State.startFence (s : State) (core mark level : Nat) (release acquire : Bool) : State :=
  let s1 := if level = 1 || !(release || acquire) then s else s.askDeps core level release
  if release && 2 ≤ level then s1.press core mark level else s1

/-- The fences that wait ask for the dependencies that earlier loads have recorded meanwhile (R323, R324). -/
def State.askFences (s : State) : State :=
  (tvals s.waves).foldl (fun u w => (tvals w.splits).foldl (fun u sp => match sp.wait with
    | some (.fence l _ _ r a _) => if l = 1 || !(r || a) then u else u.askDeps w.core l r
    | _ => u) u) s

/-- The number of the first write after the release that the issuing split waits in, or makes now. -/
def State.releaseMark (s : State) : Nat :=
  match s.curSplit.wait with
  | some (.fence _ m _ _ _ _) => m
  | _ => (s.core s.curWave.core).nextWrite

/-- A release at a level has completed: a new epoch begins when it is narrower than package, and the writes from then on, the
carrier first, are marked until a release or a forced publish at package scope has published all that precede it (R314,
R325). The epoch's 32 bits are those of `epoch` modulo 2^32. (DEDUCED, log 60.) -/
def State.released (s : State) (core level : Nat) : State :=
  let mark := s.releaseMark
  s.modCore core (fun c =>
    if level = 6 then (if c.relMark ≤ mark then { c with relLevel := 0 } else c)
    else { c with epoch := c.epoch + 1, relLevel := level, relMark := c.nextWrite })

/-- The forced publishes a core has been asked for: answered when they hold, pressed otherwise (R327). -/
def State.retryFpubs (s : State) (core : Nat) : State :=
  (s.core core).fpubs.foldl (fun u f =>
    let c := u.core core
    let deps := c.deps.filter (fun d => d.recorded < f.epoch && d.level < f.level)
    let done := deps.isEmpty && (tvals c.wq).all (fun e => f.epoch ≤ e.epoch) &&
      (tvals c.outs).all (fun o => f.epoch ≤ o.epoch || f.level ≤ o.level)
    if done then
      (u.modCore core (fun c => { c with fpubs := c.fpubs.erase f })).sendOnce (.fack core f.epoch f.level f.requester)
    else (deps.foldl (fun u d => u.askFpub d.core d.epoch f.level core) u).press core f.mark f.level) s

end Sys2Proof.Machine
end

