-- ==== Sys2Proof/Machine/Windows.lean ====
section
/-! DEFINITION. Tile ownership and the start of a window's copy (R14, R162, R197, R214, R217 to R221). -/
namespace Sys2Proof.Machine

/-- A tile of a block. -/
def Block.tile (b : Block) (t : Nat) : Tile := tgetD b.tiles t {}
/-- Change a tile of a block. -/
def Block.modTile (t : Nat) (f : Tile → Tile) (b : Block) : Block := { b with tiles := tset b.tiles t (f (b.tile t)) }
/-- Change tiles of a block. -/
def Block.modTiles (ts : List Nat) (f : Tile → Tile) (b : Block) : Block := ts.foldl (fun b t => b.modTile t f) b
/-- Change tiles of a resident block. -/
def State.modTiles (s : State) (b : Nat) (ts : List Nat) (f : Tile → Tile) : State := s.modBlock b (Block.modTiles ts f)

/-- ENGINE-owned and held by no engine (R214). -/
def Tile.offered (t : Tile) : Bool := t.engine && t.holder == .none

/-- The tiles of a span of scratchpad bytes. -/
def spanTiles (a n : Nat) : List Nat :=
  if n = 0 then [] else (List.range ((a + n - 1) / 8192 - a / 8192 + 1)).map (fun i => a / 8192 + i)

/-- The tiles of a window's binding. -/
def WinDesc.span (d : WinDesc) : List Nat := (List.range d.tiles).map (fun i => d.dest / 8192 + i)

/-- The window of a block. -/
def Block.window (b : Block) (w : Nat) : Window := tgetD b.windows w {}
/-- Change a window of a block. -/
def State.modWindow (s : State) (b w : Nat) (f : Window → Window) : State :=
  s.modBlock b (fun x => { x with windows := tset x.windows w (f (x.window w)) })

/-- The block of a block's cluster group on the core at a delta (R9, R12, R162): of the same launch and gang, resident
or ended with its scratchpad kept. (DEDUCED, log 27.) -/
def State.neighbour (s : State) (b : Nat) (delta : Int) : Option Nat :=
  let x := s.block b
  let i : Int := (x.core % 8 : Nat) + delta
  if i < 0 || 7 < i then none
  else if delta = 0 then some b
  else (s.blocks.find? (fun p =>
    p.2.launch = x.launch && p.2.gang = x.gang && !p.2.released && p.2.core = x.core / 8 * 8 + i.toNat)).map Prod.fst

/-- The core deltas a multicast mask names, without the issuing block's own (R221). -/
def mcastDeltas (m : Nat) : List Int :=
  ((List.range 15).filter (fun i => i != 7 && m.testBit i)).map (fun (i : Nat) => (i : Int) - 7)

/-- The multicast check of a copy's first attempt: the target blocks, or the status of its failure (R221). -/
def State.mcastTargets (s : State) (b : Nat) (d : WinDesc) : Except Nat (List Nat) :=
  let found := (mcastDeltas d.mcast).map (s.neighbour b)
  let covers (x : Option Nat) : Bool := match x with
    | some k => d.dest + d.tiles * 8192 ≤ (s.block k).size
    | none => false
  if found.any (fun x => !covers x) then .error 2
  else
    let ks := found.filterMap id
    if ks.any (fun k => d.span.any (fun t => !((s.block k).tile t).offered)) then .error 3
    else .ok (b :: ks)

/-- A touch of a window: the copy of an ABSENT one starts (R217, R219 to R221). (DEDUCED, log 32.) -/
def State.touch (s : State) (b w : Nat) (byMma : Bool := false) : State :=
  let x := (s.block b).window w
  if x.st != .absent then s
  else
    let go (ts : List Nat) (bad : Option Nat) (s : State) : State :=
      (s.modWindow b w (fun x => { x with
        st := .inflight, starter := s.issue.wave, byMma := byMma, targets := ts, bad := bad, replays := 0, fault := 0,
        faddr := 0, taken := false, pc := s.issue.pc, iword := s.issue.iword, lit := s.issue.lit,
        bintodal := s.issue.form == .bintodal, started := s.clk, mark := (s.core s.curWave.core).nextWrite, seen := [] })).modCur
        (fun v => { v with engPending := v.engPending + 1 })
    match s.mcastTargets b x.desc with
    | .error e => go [b] (some e) s
    | .ok ts =>
      go ts none ((ts.drop 1).foldl (fun (u : State) k => u.modTiles k x.desc.span (fun t => { t with holder := .mcast b w })) s)

end Sys2Proof.Machine
end

