-- ==== Sys2Proof/Machine/Memory.lean ====
section
/-! DEFINITION. Loads and stores of every space, and PREF: opcodes 0xA0 to 0xA6, 0xC0 to 0xC7, 0xCE and 0xCF (R157 to
R171), with the checks (R165), the frame window (R370) and the classes (R168, R282) that the atomics share. -/
namespace Sys2Proof.Machine

/-! Where an access lands. -/

/-- The spaces of R161 and R287. -/
inductive MSpace where
  | global | core | lane | cluster | stack
deriving DecidableEq, Repr

/-- A place that a checked access names: DRAM, the wave's trap frame, a block's scratchpad, a lane-private slice (by its
key), or stack scratchpad. -/
inductive Cell where
  | dram (pa : Nat)
  | frame (off : Nat)
  | spad (block addr : Nat)
  | lanep (block key : Nat)
  | stk (ctx stack addr : Nat)
deriving DecidableEq, Repr

/-- The lane number of a trap record: 0xFF for a scalar form (R165). -/
def trapLane (l : Nat) : Nat := if l < 32 then l else 0xFF

/-- An address lies in the frame window of a handler-mode wave (R370). -/
def State.inFrame (s : State) (va : Dword) : Bool := s.curWave.handler && decide (2 ^ 64 - 256 ≤ va.toNat)

/-- Stack-scratchpad bytes of a context in a stack (R303). -/
def Context.stackSize (c : Context) (stack : Nat) : Nat := c.spways * 524288 * c.nslice stack

/-- The place of a stack-scratchpad address: its slice, its byte in that slice's carved region, and the way that holds it (R303). -/
def Context.stackPlace (c : Context) (stack a : Nat) : Nat × Nat × Nat :=
  let slices := (c.clusters.filter (fun g => g / 32 = stack)).insertionSort (· ≤ ·)
  let q := a / 4096
  let b := q / slices.length * 4096 + a % 4096
  (slices.getD (q % slices.length) 0, b, 15 - b / 524288)

/-- Step 2 of R165 and the place, for a scratchpad address of z bytes: SCRATCH_RANGE or REMOTE_RANGE with its detail. (DEDUCED, log 28.) -/
def State.scratchCell (s : State) (sp : MSpace) (lane : Nat) (a : Dword) (z : Nat) : Except XFault Cell :=
  let w := s.curWave
  let n := a.toNat
  if 2 ^ 32 ≤ n then .error ⟨0x0F, 0⟩
  else match sp with
    | .stack => if n + z ≤ s.curCtx.stackSize (stackOf w.core) then .ok (.stk w.ctx (stackOf w.core) n) else .error ⟨0x0F, 0⟩
    | sp =>
      match w.block with
      | none => .error ⟨0x0F, 0⟩
      | some b =>
        match sp with
        | .core => if n + z ≤ (s.block b).size then .ok (.spad b n) else .error ⟨0x0F, 0⟩
        | .lane =>
          if n + z ≤ (s.block b).lanepriv then .ok (.lanep b ((w.index * 32 + lane) * 4096 + n)) else .error ⟨0x0F, 0⟩
        | _ =>
          let delta : Int := (BitVec.ofNat 4 (n / 2 ^ 28)).toInt
          if n / 2 ^ 19 % 512 != 0 then .error ⟨0x0F, 0⟩
          else match (if delta = -8 then none else s.neighbour b delta) with
            | none => .error ⟨0x10, (BitVec.ofInt 32 delta).toNat⟩
            | some k => if n % 2 ^ 19 + z ≤ (s.block k).size then .ok (.spad k (n % 2 ^ 19)) else .error ⟨0x0F, 0⟩

/-- What the checks of R165 answer. -/
inductive Checked where
  | ok (cells : List (Nat × Dword × Cell))
  | trap (t : TrapInfo)
  /-- a touching load of these windows of its block (R219) -/
  | touch (windows : List Nat)

/-- The accesses of an instruction: its space, what it needs of a page, the width, whether it may use the frame window,
whether it touches windows, and the lanes with their addresses. -/
structure MemReq where
  space : MSpace := .global
  access : Access := .read
  z : Nat := 4
  window : Bool := false
  touches : Bool := false
  lanes : List (Nat × Dword) := []

/-- The window of the issuing block that holds a tile in ABSENT, INFLIGHT or STALLED (R219). -/
def State.touchable (s : State) (b t : Nat) : Option Nat :=
  if s.curWave.block != some b then none
  else match ((s.block b).tile t).holder with
    | .copy w => some w
    | _ => none

/-- The answers of a step of R165 for each lane. -/
abbrev LaneAnswers := List (Nat × Dword × Except XFault Cell)

/-- The lowest lane that a step fails. (DEDUCED, log 25.) -/
def LaneAnswers.firstError (r : LaneAnswers) : Option (Nat × Dword × XFault) :=
  r.findSome? (fun p => match p.2.2 with
    | Except.ok _ => none
    | Except.error e => some (p.1, p.2.1, e))

/-- The places of the lanes that pass. -/
def LaneAnswers.cells (r : LaneAnswers) : List (Nat × Dword × Cell) :=
  r.filterMap (fun p => match p.2.2 with
    | Except.ok c => some (p.1, p.2.1, c)
    | Except.error _ => none)

/-- Step 4 for a global address: the frame window, which is not translated, or translation and permission. -/
def State.globalCell (s : State) (r : MemReq) (va : Dword) : Except XFault Cell :=
  if s.inFrame va then
    (if r.window then .ok (.frame (va.toNat - (2 ^ 64 - 256))) else .error ⟨0x0D, r.access.bits⟩)
  else match s.xlate s.curWave.core s.curWave.ctx va r.access with
    | .ok pa => .ok (.dram pa)
    | .error e => .error e

/-- Step 3: the places that name a tile an engine owns, with block and tile. -/
def State.engineTiles (s : State) (cells : List (Nat × Dword × Cell)) : List (Nat × Dword × Nat × Nat) :=
  cells.filterMap (fun p => match p.2.2 with
    | .spad b a => if ((s.block b).tile (a / 8192)).engine then some (p.1, p.2.1, b, a / 8192) else none
    | _ => none)

/-- The checks of R165 over every lane, step by step; each step names the lowest lane that fails it. (DEDUCED, log 26.) -/
def State.check (s : State) (r : MemReq) : Checked :=
  match r.lanes.find? (fun p => p.2.toNat % r.z != 0) with
  | some p => .trap (s.info 0x0B 0 p.2 (trapLane p.1))
  | none =>
    if r.space == .global then
      match r.lanes.find? (fun p => !s.inFrame p.2 && !canonical p.2) with
      | some p => .trap (s.info 0x0C (2 + r.access.bits) p.2 (trapLane p.1))
      | none =>
        let res : LaneAnswers := r.lanes.map (fun p => (p.1, p.2, s.globalCell r p.2))
        match res.firstError with
        | some (l, va, e) => .trap (s.info e.cause e.detail va (trapLane l))
        | none => .ok res.cells
    else
      let res : LaneAnswers := r.lanes.map (fun p => (p.1, p.2, s.scratchCell r.space p.1 p.2 r.z))
      match res.firstError with
      | some (l, va, e) => .trap (s.info e.cause e.detail va (trapLane l))
      | none =>
        let held := s.engineTiles res.cells
        match held.find? (fun p => !r.touches || (s.touchable p.2.2.1 p.2.2.2).isNone) with
        | some (l, va, _, t) => .trap (s.info 0x0E t va (trapLane l))
        | none => if held.isEmpty then .ok res.cells else .touch (held.filterMap (fun p => s.touchable p.2.2.1 p.2.2.2)).dedup

/-- The core caches the translations of the accesses it makes. -/
def State.cacheAll (s : State) (r : MemReq) : State :=
  if r.space == .global then
    r.lanes.foldl (fun u p => if u.inFrame p.2 then u else u.cacheXlate u.curWave.core u.curWave.ctx p.2) s
  else s

/-! Reading and writing places other than DRAM, at once (R277). -/

/-- `z` bytes at a place, and whether a granule of them is poisoned. -/
def State.readCell (s : State) (c : Cell) (z : Nat) : Nat × Bool :=
  let hit (bad : List Nat) (a : Nat) : Bool := (List.range ((z + 7) / 8)).any (fun i => bad.contains (a / 8 * 8 + 8 * i))
  match c with
  | .dram pa => (memNat s.mem pa z, hit s.poison pa)
  | .frame o => (memNat s.curWave.frame o z, false)
  | .spad b a => (memNat (s.block b).scratch a z, hit (s.block b).spoison a)
  | .lanep b k => (memNat (s.block b).lanes k z, hit (s.block b).lpoison k)
  | .stk c k a => (memNat (tgetD (s.ctx c).stackSp k []) a z, hit (tgetD (s.ctx c).stackPoison k []) a)

/-- A write to the trap frame: RESUME and MODE are RW, and every other field discards it (R3, R370). (DEDUCED, log 23.) -/
def frameWrite (f : Tbl Byte) (o : Nat) : List Byte → Tbl Byte
  | [] => f
  | b :: bs => frameWrite (if o < 8 || o = 44 || o = 45 then memSet f o b else f) (o + 1) bs

/-- A write at a place other than DRAM: the bytes, and the marks of the granules written whole (R405). A MODE written in the
frame is a MODE without an error (R407). -/
def State.writeCell (s : State) (c : Cell) (bs : List Byte) : State :=
  match c with
  | .dram _ => s
  | .frame o => s.modCur (fun w => { w with
      frame := frameWrite w.frame o bs,
      struck := if o ≤ 44 && 46 ≤ o + bs.length then w.struck.filter (· != .mode false) else w.struck })
  | .spad b a => s.modBlock b (fun x =>
      { x with scratch := memPut x.scratch a bs, spoison := clearGranules x.spoison a bs.length })
  | .lanep b k => s.modBlock b (fun x =>
      { x with lanes := memPut x.lanes k bs, lpoison := clearGranules x.lpoison k bs.length })
  | .stk c k a => s.modCtx c (fun x =>
      { x with stackSp := tset x.stackSp k (memPut (tgetD x.stackSp k []) a bs),
               stackPoison := tset x.stackPoison k (clearGranules (tgetD x.stackPoison k []) a bs.length) })

/-! Waiting before an access. -/

/-- A CARVE of the context holds the accesses that reach the slice path, but for those that had issued before it and wait
(R306, R307). -/
def State.held (s : State) (sp : MSpace) : Bool :=
  s.curCtx.carveBusy && (match sp with | .global | .stack => true | _ => false) &&
    (match s.curSplit.wait with | none => true | some .held => true | _ => false)

/-- Every access is made in the trap frame, which no slice holds (R370). -/
def State.framed (s : State) (r : MemReq) : Bool := r.space == .global && r.window && r.lanes.all (fun p => s.inFrame p.2)

/-- A CARVE holds a store or a read-modify-write. -/
def State.heldWrite (s : State) (r : MemReq) : Bool := s.held r.space && !s.framed r

/-- Every lane of a load finds its bytes in the write queue or in the core's L1, so that it does not reach the slice path (R307). -/
def State.hitsCore (s : State) (r : MemReq) (c : AccessClass) : Bool :=
  let w := s.curWave
  r.space == .global && c.level ≤ 1 && r.lanes.all (fun p => (r.window && s.inFrame p.2) ||
    (match s.xlate w.core w.ctx p.2 .read with
      | .ok pa => (match (s.core w.core).forward pa r.z with
        | .bytes _ => true
        | .wait => false
        | .none => (s.l1View w.core w.ctx (lineOf pa)).isSome)
      | .error _ => false))

/-- A CARVE holds a load. -/
def State.heldLoad (s : State) (r : MemReq) (c : AccessClass) : Bool := s.held r.space && !s.hitsCore r c

/-- The unpublished releases that a read of a scratchpad space may meet: those of the cores that reach the space (R276). -/
def State.scratchReleases (s : State) (sp : MSpace) : List Dep :=
  let core := s.curWave.core
  s.cores.filterMap (fun p =>
    let near := match sp with
      | .stack => stackOf p.1 == stackOf core
      | .lane => false
      | _ => clusterOf p.1 == clusterOf core
    if near && p.1 != core && p.2.relLevel != 0 then some ⟨p.1, p.2.epoch, p.2.relLevel, (s.core core).epoch⟩ else none)

/-- An acquire from a scratchpad space asks for the narrower releases it may meet, and records them (R276, R326): none if
it may proceed. (DEDUCED, log 46.) -/
def State.scratchAcquire (s : State) (sp : MSpace) (c : AccessClass) : Option State :=
  let core := s.curWave.core
  let narrow := (s.scratchReleases sp).filter (fun d => d.level < c.level && unitOf c.level d.core == unitOf c.level core)
  if !c.acquire || sp == .global || narrow.isEmpty then none
  else some (narrow.foldl (fun u d => u.askFpub d.core d.epoch c.level core) s)

/-- The dependencies that a read of a scratchpad space adds to the core's list: a fence may acquire what the read has met
(R273, R276, R326). (DEDUCED, log 46.) -/
def State.newScratchDeps (s : State) (sp : MSpace) : List Dep :=
  if sp == .global then []
  else (s.scratchReleases sp).filter (fun d =>
    (s.core s.curWave.core).deps.all (fun x => !(x.core = d.core && x.epoch = d.epoch)))

/-- The dependencies of a read of a scratchpad space are recorded. -/
def State.scratchDeps (s : State) (sp : MSpace) : State :=
  let new := s.newScratchDeps sp
  if new.isEmpty then s else s.modCore s.curWave.core (fun x => { x with deps := x.deps ++ new })

/-- What a read of a space waits for: the releases that an acquire must see, and room in the dependency list. -/
def State.scratchWait (s : State) (sp : MSpace) (c : AccessClass) : Option State :=
  match s.scratchAcquire sp c with
  | some u => some u
  | none => s.depWait s.curWave.core (s.newScratchDeps sp)

/-- The cause of a lost store that a release of the wave takes in place of its effect (R283). -/
def State.storeCause (s : State) : Option TrapInfo :=
  if s.curWave.handler then none else s.curWave.causes.find? (fun t => t.origin.lostWrite)

/-- A release waits until the writes before it are visible at its level, after every earlier load, and until the outcome of every
store of the wave before it is known; if one is lost, it ends in that store's cause (R178, R283, R323): the state that waits
or has trapped, or none once it may proceed. -/
def State.gate (s : State) (level : Nat) (release acquire : Bool) : Option State :=
  let w := s.curWave
  let go : Option State := (if release then s.storeCause else none).map s.trapDeferred
  let start (mark : Nat) : Option State :=
    let k : Wait := .fence level mark w.nextLoad release acquire s.issue.wave
    if s.waitMet w { w.split with wait := some k } then go
    else some ((s.startFence w.core mark level release acquire).stall k)
  match w.split.wait with
  | some (.fence l m n r a v) => if s.waitMet w w.split then go else some (s.stall (.fence l m n r a v))
  | _ => start (s.core w.core).nextWrite

/-- The split stalls in an access, whose address is noted (R409). -/
def State.stallAt (s : State) (cells : List (Nat × Dword × Cell)) : State :=
  (s.stall .retry).modSplit (fun sp => { sp with va := (cells.head?.map (fun p => p.2.1)).getD 0 })

/-! Loads (R167, R170, R171, R313). -/

/-- The value of a load's lane from a view of its line: undefined with MEM_POISON from a poisoned granule. -/
def LoadLane.fill (clk : Nat) (v : LineView) (x : LoadLane) : LoadLane :=
  let o := x.pa % 64
  if v.bad.contains (o / 8) then { x with got := some (Config.undefinedData clk x.lane).toNat, cause := 0x11 }
  else { x with got := some (leNat ((v.bytes.drop o).take x.z)) }

/-- The lanes of a load not yet served on a line. -/
def PLoad.waitsOn (p : PLoad) (line : Nat) : Bool := p.lanes.any (fun x => x.got.isNone && lineOf x.pa = line)

/-- An earlier load of the wave still waits for a line: a later one does not pass it (R269). -/
def Wave.blockedOn (w : Wave) (lid line : Nat) : Bool := w.loads.any (fun p => p.1 < lid && p.2.waitsOn line)

/-- The lanes of a load on a line that no queued store holds up take a value; the others keep waiting. -/
def PLoad.put (p : PLoad) (c : Core) (line : Nat) (f : LoadLane → LoadLane) : PLoad :=
  { p with lanes := p.lanes.map (fun x =>
      if x.got.isNone && lineOf x.pa = line && (p.level ≥ 2 || c.forward x.pa x.z == .none) then f x else x) }

/-- The lanes of a core-scope load whose bytes one queued store of the core holds take them from the write queue, unless an
earlier load of the wave waits for their line (R270, R313). -/
def State.forwardLoad (s : State) (wid lid : Nat) (p : PLoad) : PLoad :=
  let w := tgetD s.waves wid {}
  if 2 ≤ p.level then p
  else { p with lanes := p.lanes.map (fun x =>
    if x.got.isSome || w.blockedOn lid (lineOf x.pa) then x
    else match (s.core w.core).forward x.pa x.z with
      | .bytes v => { x with got := some v }
      | _ => x) }

/-- The units of the bytes that a load's unserved lanes want of a line. -/
def State.loadUnits (s : State) (p : PLoad) (line : Nat) : List Nat :=
  ((p.lanes.filter (fun x => x.got.isNone && lineOf x.pa = line)).flatMap (fun x => s.unitsAt x.pa x.z)).dedup

/-- A load has an unserved lane whose bytes lie in two units of a line. -/
def State.spans (s : State) (p : PLoad) (line : Nat) : Bool :=
  p.lanes.any (fun x => x.got.isNone && lineOf x.pa = line && 2 ≤ (s.unitsAt x.pa x.z).dedup.length)

/-- A read of a line; one with bytes in two units gains ownership of both first, and is made where the owners are (R270, R329). -/
def State.readSpan (s : State) (core ctx line : Nat) (ks : List Nat) (cls : AccessClass) (span : Bool) : Served :=
  if !span then s.readLine core ctx line ks cls
  else match (if s.converting line then none else s.gainUnits core ks) with
    | some u => .notYet u
    | none => s.readLine core ctx line ks { cls with level := max cls.level 5 }

/-- A load's lanes on lines that can be served now are served; the others ask for their lines. -/
def State.serveLoad (s : State) (wid lid : Nat) (p0 : PLoad) : State × PLoad :=
  let w := tgetD s.waves wid {}
  let q := s.forwardLoad wid lid p0
  let lines := if s.fabric.lost.any (fun p => p.1 == .loadDataReturn wid lid) then [] else
    ((q.lanes.filter (fun x => x.got.isNone)).map (fun x => lineOf x.pa)).dedup
  lines.foldl (fun (u, p) line =>
    let ks := u.loadUnits p line
    if w.blockedOn lid line then (u, p)
    else if u.homeLost line && !u.findsCopy w.core w.ctx line ks p.level then
      (u, p.put (u.core w.core) line (fun x => { x with got := some (Config.undefinedData u.clk x.lane).toNat, cause := 0x16 }))
    else match u.readSpan w.core w.ctx line ks ⟨p.level, p.acquire, false⟩ (u.spans p line) with
      | .yes v u' => (u', p.put (u.core w.core) line (LoadLane.fill u.clk v))
      | .notYet u' => (u', p)) (s, q)

/-- Every lane of a load has its value. -/
def PLoad.complete (p : PLoad) : Bool := p.lanes.all (fun x => x.got.isSome)

/-- The value a load gives a lane. -/
def PLoad.value (p : PLoad) (l : Nat) : Dword :=
  match p.lanes.find? (fun x => x.lane = l) with
  | some x => BitVec.ofNat 64 (x.got.getD 0)
  | none => 0

/-- The lanes of a load. -/
def PLoad.mask (p : PLoad) : LaneMask := LaneMask.ofLanes ((p.lanes.map (fun x => x.lane)).filter (· < 32))

/-- A scalar load's value, extended from its width (R170). -/
def PLoad.scalarValue (p : PLoad) (z : Nat) (signed : Bool) : Dword :=
  let v := p.value 32
  if signed then (match z with
    | 1 => (v.setWidth 8).signExtend 64 | 2 => (v.setWidth 16).signExtend 64 | 4 => (v.setWidth 32).signExtend 64
    | _ => v)
  else v

/-- The destination of a complete load is written in its wave (R170, R171), in every latch that waits for it. -/
def Wave.land (w : Wave) (lid : Nat) (p : PLoad) : Wave :=
  let w1 : Wave := match p.dst with
    | .vec (some r) wide => { w with vregs := setVLanes wide r p.mask p.value w.vregs, struck := mendV wide r p.mask w.struck }
    | .scalar (some r) z sg => { w with sregs := tset w.sregs r (p.scalarValue z sg), struck := mendS r w.struck }
    | _ => w
  let v : LatchVal := match p.dst with
    | .vec (some r) wide => .vec wide ((List.range 32).map (fun l => w1.vlane wide r l))
    | .vec none wide => .vec wide ((List.range 32).map (fun l => if p.mask.getLsbD l then p.value l else 0))
    | .scalar _ z sg => .scalar (p.scalarValue z sg)
    | .quad _ => .lost
  { w1 with latches := tmap w1.latches (fun x => if x == .pending lid then v else x), loads := tdel w1.loads lid }

/-- A complete load lands, and the cause of its lowest lane with poisoned or lost data is deferred (R167, R408). -/
def State.deliver (s : State) (wid lid : Nat) (p : PLoad) : State :=
  let s1 := s.modWave wid (fun w => w.land lid p)
  match p.lanes.find? (fun x => x.cause != 0) with
  | some x => s1.defer wid { cause := x.cause, pc := p.pc, faddr := x.va, lane := trapLane x.lane, plane := p.plane, iword := p.iword, lit := p.lit, deferred := true, bintodal := p.bintodal, origin := .poison p.dst, issuedAt := p.issuedAt }
  | none => s1

/-- A load in flight goes as far as it can. -/
def State.advanceLoad (s : State) (wid lid : Nat) (p : PLoad) : State :=
  let (s1, p1) := s.serveLoad wid lid p
  let s2 := s1.modWave wid (fun w => { w with loads := tset w.loads lid p1 })
  if p1.complete then s2.deliver wid lid p1 else s2

/-- A load enters flight: its latch waits for it, and what can be served at once is. -/
def State.startLoad (s : State) (p : PLoad) : State :=
  let lid := s.curWave.nextLoad
  let s1 := (s.latchResult (.pending lid)).modCur (fun w => { w with nextLoad := lid + 1 })
  s1.advanceLoad s.issue.wave lid p

/-- The flow of a load (R165, R168, R170): nothing beyond R110 with no active lane; it waits for a CARVE, for an acquire
in flight, for windows it touches, and for releases it must see; then it enters flight. -/
def State.loadFlow (s : State) (opc : Nat) (r : MemReq) (dst : LoadDst) (empty : State) : State :=
  let cls := s.accessClass opc
  if s.activeMask = 0 then empty.finishYield
  else if s.heldLoad r cls then s.stall .held
  else if s.acquiring s.curWave then s.stall .retry
  else match s.check r with
    | .trap t => s.trapHere t
    | .touch ws =>
      match s.curWave.block with
      | some b =>
        if !s.curWave.loads.isEmpty then s.stall .loads
        else ((ws.foldl (fun u k => u.touch b k) s)).sleepYield (.window ws)
      | none => s
    | .ok cells =>
      match s.scratchWait r.space cls with
      | some u => u.stallAt cells
      | none =>
        let lanes := cells.map (fun p => match p.2.2 with
          | .dram pa => ({ lane := p.1, pa := pa, z := r.z, va := p.2.1 } : LoadLane)
          | c =>
            let (v, bad) := s.readCell c r.z
            { lane := p.1, z := r.z, va := p.2.1, cause := if bad then 0x11 else 0, got := some (if bad then (Config.undefinedData s.clk p.1).toNat else v) })
        (((s.cacheAll r).scratchDeps r.space).startLoad
          { dst := dst, lanes := lanes, level := cls.level, acquire := cls.acquire, planes := s.latchPlanes, pc := s.issue.pc, iword := s.issue.iword, lit := s.issue.lit, plane := s.issue.plane, bintodal := s.issue.form == .bintodal, issuedAt := s.clk, since := s.curSplit.since }).finishYield

/-! Stores (R170, R314). -/

/-- The cause of a lost store, or of one lane of it (R408). -/
def State.lossOf (s : State) (lane : Nat) (va : Dword) : TrapInfo :=
  { s.info 0x16 0 va (trapLane lane) with deferred := true, origin := .store, issuedAt := s.clk }

/-- A store enters the core's write queue (R314), or a place that is not DRAM at once. -/
def State.enterStore (s : State) (lane : Nat) (va : Dword) (c : Cell) (bs : List Byte) : State :=
  match c with
  | .dram pa => s.modCore s.curWave.core (fun x =>
      { x with wq := tset x.wq x.nextWrite { pa := pa, bytes := s.ownBytes pa bs, epoch := x.epoch, wave := s.issue.wave, trap := s.lossOf lane va, ctx := s.curWave.ctx, launch := s.curWave.launch, entered := s.clk },
               nextWrite := x.nextWrite + 1 })
  | c => s.writeCell c bs

/-- The queue of a core has room for as many entries. -/
def Core.room (c : Core) (n : Nat) : Bool := c.wq.length + n ≤ 64

/-- The flow of a store: it waits for the wave's earlier loads (R268), for its release (R323) and for room in the write
queue, and then enters lane by lane, the higher lane last (R170). -/
def State.storeFlow (s : State) (opc : Nat) (r : MemReq) (data : Nat → Nat) : State :=
  let cls := s.accessClass opc
  if s.activeMask = 0 then s.finishYield
  else if s.heldWrite r then s.stall .held
  else if s.acquiring s.curWave then s.stall .retry
  else match s.check r with
    | .trap t => s.trapHere t
    | .touch _ => s
    | .ok cells =>
      if !s.curWave.loads.isEmpty then s.stall .loads
      else match (if cls.release then s.gate cls.level true false else none) with
        | some u => u
        | none =>
          if r.space == .global && !(s.core s.curWave.core).room cells.length then s.stall .retry
          else
            let s1 := if cls.release then s.released s.curWave.core cls.level else s
            (cells.foldl (fun u p => u.enterStore p.1 p.2.1 p.2.2 (leBytes r.z (data p.1))) (s1.cacheAll r)).finishYield

/-! Address forms (R160, R161). -/

/-- The width of a load or store (R159). -/
def accessBytes (t : EType) : Nat := etWidth t / 8
/-- The width of LDVB, STVB and the atomics: 4 or 8. -/
def wordBytes (t : EType) : Nat := if etIs64 t then 8 else 4

/-- The active lanes with an address each. -/
def State.activeLanes (s : State) (f : Nat → Dword) : List (Nat × Dword) := s.activeMask.lanes.map (fun l => (l, f l))
/-- The one access of a scalar form. -/
def oneAccess (a : Dword) : List (Nat × Dword) := [(32, a)]

/-- The register pair of a Va field in a lane. -/
def State.pairLane (s : State) (a : Fin 64) (l : Nat) : Dword := s.curWave.vlane true (2 * a.val) l

/-- A vector scratchpad address: A's word plus B, modulo 2^32 (R161). -/
def State.spadLane (s : State) (a : VSrc) (b : SSrc) (l : Nat) : Dword :=
  (s.readVWord s.etype a l + (s.readS64 b).setWidth 32).setWidth 64

/-- The register of a vector destination, if it names one. -/
def vdstReg : VDst → Option Nat
  | .reg r => some r.val
  | .nw => none
/-- The register of a scalar destination, if it names one. -/
def sdstReg : SDst → Option Nat
  | .reg r => some r.val
  | .nw => none

/-- The vector loads. -/
def State.vectorLoad (s : State) (opc : Nat) (d : VDst) (r : MemReq) : State :=
  let wide := etIs64 s.etype
  s.loadFlow opc r (.vec (vdstReg d) wide) (s.putV d wide (fun _ => 0))
/-- The scalar loads. -/
def State.scalarLoad (s : State) (opc : Nat) (d : SDst) (r : MemReq) : State :=
  s.loadFlow opc r (.scalar (sdstReg d) r.z (etSigned s.etype)) (s.putS d 0)
/-- The vector stores: element 0, or the whole word, of the D register in each lane. -/
def State.vectorStore (s : State) (opc : Nat) (d : Fin 128) (r : MemReq) : State :=
  s.storeFlow opc r (fun l => (s.curWave.vlane (etIs64 s.etype) d.val l).toNat)
/-- The scalar stores. -/
def State.scalarStore (s : State) (opc : Nat) (d : Fin 64) (r : MemReq) : State :=
  s.storeFlow opc r (fun _ => (s.curWave.sreg d.val).toNat)

def execLdv (d : VDst) (a : Fin 64) (b : SSrc) (s : State) :=
  issueOp (.ldv d a b) s (fun s => s.vectorLoad 0xA0 d
    { z := accessBytes s.etype, window := true, lanes := s.activeLanes (fun l => s.pairLane a l + s.readS64 b) })
def execStv (d : Fin 128) (a : Fin 64) (b : SSrc) (s : State) :=
  issueOp (.stv d a b) s (fun s => s.vectorStore 0xA1 d
    { access := .write, z := accessBytes s.etype, window := true, lanes := s.activeLanes (fun l => s.pairLane a l + s.readS64 b) })
def execLds (d : SDst) (a b : SSrc) (s : State) :=
  issueOp (.lds d a b) s (fun s => s.scalarLoad 0xA2 d
    { z := accessBytes s.etype, window := true, lanes := oneAccess (s.readS64 a + s.readS64 b) })
def execSts (d : Fin 64) (a b : SSrc) (s : State) :=
  issueOp (.sts d a b) s (fun s => s.scalarStore 0xA3 d
    { access := .write, z := accessBytes s.etype, window := true, lanes := oneAccess (s.readS64 a + s.readS64 b) })
/-- LDVB: lane l at A + B + l x z (R160). -/
def execLdvb (d : VDst) (a b : SSrc) (s : State) :=
  issueOp (.ldvb d a b) s (fun s => s.vectorLoad 0xA4 d
    { z := wordBytes s.etype, window := true, lanes := s.activeLanes (fun l => s.readS64 a + s.readS64 b + BitVec.ofNat 64 (l * wordBytes s.etype)) })
def execStvb (d : Fin 128) (a b : SSrc) (s : State) :=
  issueOp (.stvb d a b) s (fun s => s.vectorStore 0xA5 d
    { access := .write, z := wordBytes s.etype, window := true, lanes := s.activeLanes (fun l => s.readS64 a + s.readS64 b + BitVec.ofNat 64 (l * wordBytes s.etype)) })

/-- PREF: after the checks of one byte's access it may bring the line towards the core; it faults at none (R166). -/
def execPref (a b : SSrc) (s : State) :=
  issueOp (.pref a b) s (fun s =>
    let r : MemReq := { z := 1, lanes := oneAccess (s.readS64 a + s.readS64 b) }
    if s.activeMask = 0 || s.held .global then s.finishYield
    else match s.check r with
      | .ok [(_, _, .dram pa)] =>
        if s.homeLost pa then s.finishYield
        else match (s.cacheAll r).readLine s.curWave.core s.curWave.ctx (lineOf pa) (s.lineUnits (lineOf pa)) {} with
          | .yes _ u => u.finishYield
          | .notYet u => u.finishYield
      | _ => s.finishYield)

/-! Scratchpad forms. -/

/-- A vector scratchpad load. -/
def spadLoad (i : Instr) (opc : Nat) (sp : MSpace) (touches : Bool) (d : VDst) (a : VSrc) (b : SSrc) (s : State) :
    Host.Outcome State Fault Refusal :=
  issueOp i s (fun s => s.vectorLoad opc d
    { space := sp, z := accessBytes s.etype, touches := touches, lanes := s.activeLanes (s.spadLane a b) })
/-- A vector scratchpad store. -/
def spadStore (i : Instr) (opc : Nat) (sp : MSpace) (d : Fin 128) (a : VSrc) (b : SSrc) (s : State) :
    Host.Outcome State Fault Refusal :=
  issueOp i s (fun s => s.vectorStore opc d
    { space := sp, access := .write, z := accessBytes s.etype, lanes := s.activeLanes (s.spadLane a b) })

def execLdp (d : VDst) (a : VSrc) (b : SSrc) (s : State) := spadLoad (.ldp d a b) 0xC0 .core true d a b s
def execStp (d : Fin 128) (a : VSrc) (b : SSrc) (s : State) := spadStore (.stp d a b) 0xC1 .core d a b s
/-- LDC: only the issuing block's own windows are touched, which is DELTA 0 (R219). -/
def execLdc (d : VDst) (a : VSrc) (b : SSrc) (s : State) := spadLoad (.ldc d a b) 0xC2 .cluster true d a b s
def execStc (d : Fin 128) (a : VSrc) (b : SSrc) (s : State) := spadStore (.stc d a b) 0xC3 .cluster d a b s
def execLdk (d : VDst) (a : VSrc) (b : SSrc) (s : State) := spadLoad (.ldk d a b) 0xC4 .stack false d a b s
def execStk (d : Fin 128) (a : VSrc) (b : SSrc) (s : State) := spadStore (.stk d a b) 0xC5 .stack d a b s
def execLdl (d : VDst) (a : VSrc) (b : SSrc) (s : State) := spadLoad (.ldl d a b) 0xC6 .lane false d a b s
def execStl (d : Fin 128) (a : VSrc) (b : SSrc) (s : State) := spadStore (.stl d a b) 0xC7 .lane d a b s
def execLdps (d : SDst) (a b : SSrc) (s : State) :=
  issueOp (.ldps d a b) s (fun s => s.scalarLoad 0xCE d
    { space := .core, z := accessBytes s.etype, touches := true, lanes := oneAccess (s.readS64 a + s.readS64 b) })
def execStps (d : Fin 64) (a b : SSrc) (s : State) :=
  issueOp (.stps d a b) s (fun s => s.scalarStore 0xCF d
    { space := .core, access := .write, z := accessBytes s.etype, lanes := oneAccess (s.readS64 a + s.readS64 b) })

end Sys2Proof.Machine
end

