-- ==== Sys2Proof/Machine/Atomic.lean ====
section
/-! DEFINITION. Atomics, compare-and-swap and reductions: opcodes 0xA8 to 0xB4, 0xB8 to 0xBD, 0xC8 and 0xC9 (R172 to
R176), performed at the line's owner (R316) or in the scratchpad at once. -/
namespace Sys2Proof.Machine

/-- What one indivisible group does: the old value of each lane, and the value stored, if any. -/
abbrev Group := Nat → List Nat → List (Nat × Nat) × Option Nat

/-- A group that applies an operator lane by lane (R172, R173). -/
def sequentialGroup (f : Nat → Nat → Nat) : Group := fun m ls =>
  let (olds, last) := ls.foldl (fun (acc : List (Nat × Nat) × Nat) l => (acc.1 ++ [(l, acc.2)], f l acc.2)) ([], m)
  (olds, some last)

/-- The sum of two f32 words, rounded. -/
def addF32 (mode : RMode) (x y : Nat) : Nat := fEncode fmtF32 mode false (fAdd mode (fDecode fmtF32 x) (fDecode fmtF32 y))

/-- An f32 addition group (R172): the operands are summed in lane order before they meet the word. -/
def addGroupF32 (mode : RMode) (x : Nat → Nat) : Group := fun m ls =>
  match ls with
  | [] => ([], none)
  | l0 :: rest =>
    let (olds, t) := rest.foldl
      (fun (acc : List (Nat × Nat) × Nat) l => (acc.1 ++ [(l, addF32 mode m acc.2)], addF32 mode acc.2 (x l))) ([(l0, m)], x l0)
    (olds, some (addF32 mode m t))

/-- A group of compare-and-swaps in lane order (R174): stored if one of them matches. -/
def casGroup (expect new : Nat → Nat) : Group := fun m ls =>
  let (olds, last, hit) := ls.foldl (fun (acc : List (Nat × Nat) × Nat × Bool) l =>
    (acc.1 ++ [(l, acc.2.1)], if acc.2.1 = expect l then (new l, true) else acc.2)) ([], m, false)
  (olds, if hit then some last else none)

/-- The lanes of an access in groups by place, each in ascending order (R172). -/
def groupCells (cells : List (Nat × Dword × Cell)) : List (Cell × List Nat) :=
  (cells.map (fun p => p.2.2)).dedup.map (fun c => (c, (cells.filter (fun p => p.2.2 = c)).map Prod.fst))

/-- The units of a read-modify-write's bytes in a line. -/
def State.rmwUnits (s : State) (z : Nat) (cells : List (Nat × Dword × Cell)) (line : Nat) : List Nat :=
  (cells.flatMap (fun p => match p.2.2 with
    | .dram pa => if lineOf pa = line then s.unitsAt pa z else []
    | _ => [])).dedup

/-- The copies that a read-modify-write of a line leaves behind the owner's bytes it reads go: the core's own L1 copy, and
what its stack holds under a lease (R277, R294, R316). -/
def State.dropOwn (s : State) (core line : Nat) (ks : List Nat) : State :=
  let bs := memBytes s.mem line 64
  let s1 := if (tget? (s.core core).l1 line).any (fun x => x.data != bs) then s.dropL1 line core else s
  ks.foldl (fun (u : State) k => if u.ownerStack k = stackOf core then u else u.dropPart (stackOf core) k) s1

/-- What a read-modify-write of a line waits for at the owner: for two owners, that it gains ownership of its units in
ascending order (R329); that each unit's owner holds it; the core's own stores to the line; room among the release tags; and
what a read of its scope waits for (R313, R324). None if it can be performed. (DEDUCED, log 44.) -/
def State.rmwBlock (s : State) (core line : Nat) (ks : List Nat) (c : AccessClass) : Option State :=
  let y := stackOf core
  let apart := decide ((ks.map s.ownerStack).dedup.length ≠ 1)
  if (s.core core).queued line then some s
  else match (if apart then s.gainUnits core ks else none) with
    | some u => some u
    | none =>
      if ks.any (fun k => !s.ownerReady k || !s.ownerClear core k || (5 ≤ c.level && (s.homeEntry k).xpub.isSome)) then some s
      else match s.tagFull core line ks with
        | some t => some (s.forceTag t)
        | none =>
          match s.readBlock core (s.coreCtx core) line ks c with
          | some u => some u
          | none =>
            let stale := if 5 ≤ c.level then ks.filter (fun k => (s.openStacks k).any (inScope c.level core)) else []
            if stale.isEmpty then none else some (stale.foldl (fun (u : State) k => u.sendOnce (.xpub k y c.level)) s)

/-- Every line of a read-modify-write can be read at its owner now: the state after, or the state that waits. -/
def State.rmwLines (s : State) (c : AccessClass) (z : Nat) (cells : List (Nat × Dword × Cell)) : State × Bool :=
  let core := s.curWave.core
  let lines := (cells.filterMap (fun p => match p.2.2 with | .dram pa => some (lineOf pa) | _ => none)).dedup
  lines.foldl (fun (u, ok) line =>
    if u.homeLost line then (u, ok)
    else
      let ks := u.rmwUnits z cells line
      match u.rmwBlock core line ks c with
      | some v => (v, false)
      | none => (((u.dropOwn core line ks).recordDeps core line).noteRead core line (u.ownerView line), ok)) (s, true)

/-- The result of a read-modify-write: the old value of each lane, and the lanes with poisoned or lost data. -/
structure RmwResult where
  olds : List (Nat × Nat) := []
  bad : List (Nat × Nat) := []

/-- A write of a read-modify-write: its request enters the write queue after the stores to its line have left it, and is
performed at once (R314, R316). -/
def State.rmwWrite (s : State) (c : Cell) (bs : List Byte) : State :=
  match c with
  | .dram pa =>
    let core := s.curWave.core
    let id := (s.core core).nextWrite
    let epoch := (s.core core).epoch
    (s.modCore core (fun x => { x with nextWrite := id + 1 })).perform core pa bs id epoch
  | c => s.writeCell c bs

/-- A compare-and-swap that matches nothing is an access of its line all the same (R295, R298). -/
def State.rmwTouch (s : State) (z : Nat) (c : Cell) : State :=
  match c with
  | .dram pa => s.enterSlice s.curWave.core (lineOf pa) (s.unitsAt pa z)
  | _ => s

/-- One group: nothing is written from a poisoned granule or at a lost home, and the old values are then undefined
(R405, R408). -/
def State.rmwGroup (s : State) (z : Nat) (f : Group) (c : Cell) (ls : List Nat) (r : RmwResult) : State × RmwResult :=
  let lost := match c with | .dram pa => s.homeLost pa | _ => false
  let (m, poisoned) := s.readCell c z
  if lost || poisoned then
    (s, { olds := r.olds ++ ls.map (fun l => (l, (Config.undefinedData s.clk l).toNat)),
          bad := r.bad ++ ls.map (fun l => (l, if lost then 0x16 else 0x11)) })
  else
    let (olds, new) := f m ls
    ((match new with | some v => s.rmwWrite c (leBytes z v) | none => s.rmwTouch z c), { r with olds := r.olds ++ olds })

/-- The deferred cause of a read-modify-write, that of its lowest bad lane (R405, R408). -/
def State.rmwCause (s : State) (r : RmwResult) (cells : List (Nat × Dword × Cell)) (dst : Option LoadDst) : State :=
  let low := r.bad.foldl (fun (b : Option (Nat × Nat)) x => match b with
    | some y => if x.1 < y.1 then some x else b
    | none => some x) none
  match low with
  | none => s
  | some (l, c) =>
    let va := ((cells.find? (fun p => p.1 = l)).map (fun p => p.2.1)).getD 0
    let o : Origin := match dst with
      | some d => if c = 0x16 then .rmw d else .poison d
      | none => if c = 0x16 then .store else .poison (.vec none false)
    s.defer s.issue.wave { s.info c 0 va (trapLane l) with deferred := true, origin := o, issuedAt := s.clk }

/-- The flow of a read-modify-write (R165, R168, R172): `put` writes the old values. -/
def State.rmwFlow (s : State) (opc : Nat) (r : MemReq) (f : Group) (dst : Option LoadDst) (empty : State)
    (put : State → (Nat → Nat) → State) : State :=
  let cls := s.accessClass opc
  if s.activeMask = 0 then empty.finishYield
  else if s.heldWrite r then s.stall .held
  else if s.acquiring s.curWave then s.stall .retry
  else match s.check r with
    | .trap t => s.trapHere t
    | .touch _ => s
    | .ok cells =>
      if !s.curWave.loads.isEmpty then s.stall .loads
      else match (if cls.release then s.gate cls.level true false else none) with
        | some u => u
        | none =>
          match s.scratchWait r.space cls with
          | some u => u.stallAt cells
          | none =>
            let (s1, ready) := (s.cacheAll r).rmwLines cls r.z cells
            if !ready || (r.space == .global && !(s1.core s.curWave.core).room (groupCells cells).length) then s1.stallAt cells
            else
              let s2 := if cls.release then s1.released s.curWave.core cls.level else s1
              let (s3, res) := (groupCells cells).foldl
                (fun (acc : State × RmwResult) g => acc.1.rmwGroup r.z f g.1 g.2 acc.2) (s2.scratchDeps r.space, {})
              let old (l : Nat) : Nat := ((res.olds.find? (fun p => p.1 = l)).map Prod.snd).getD 0
              ((put s3 old).rmwCause res cells dst).finishYield

/-! Operators (R173). -/

/-- An operator of R173 on the words of a type. -/
def rmwInt (t : EType) (f : Int → Int → Int) (m b : Nat) : Nat := wrapBits (etWidth t) (f (intVal t m) (intVal t b))
/-- The lesser or the greater of two words; f32 under R141. -/
def rmwPick (t : EType) (fi : Int → Int → Int) (ff : FVal → FVal → FVal) (m b : Nat) : Nat :=
  match etFmt t with
  | some g => fEncode g .rne false (ff (fDecode g m) (fDecode g b))
  | none => rmwInt t fi m b

/-- The operand of a lane: the low z bytes of B. -/
def State.rmwOperand (s : State) (b : VSrc) (l : Nat) : Nat := (s.readV s.etype b l).toNat % 2 ^ etWidth s.etype

/-- The group of an addition. -/
def State.addGroup (s : State) (x : Nat → Nat) : Group :=
  if s.etype == .f32 then addGroupF32 s.rmode x
  else sequentialGroup (fun l m => rmwInt s.etype (· + ·) m (x l))

/-- The group of an operator on words. -/
def State.opGroup (f : Nat → Nat → Nat) (x : Nat → Nat) : Group := sequentialGroup (fun l m => f m (x l))

/-- AINCW and ADECW. -/
def incWrap (m b : Nat) : Nat := if b ≤ m then 0 else m + 1
/-- See `incWrap`. -/
def decWrap (m b : Nat) : Nat := if m = 0 || b < m then b else m - 1

/-- A vector atomic at the addresses of a register pair, with its old values in v[d] (R175). -/
def vecAtomic (i : Instr) (opc : Nat) (d : VDst) (a : Fin 64) (g : State → Group) (s : State) : Host.Outcome State Fault Refusal :=
  issueOp i s (fun s =>
    let wide := etIs64 s.etype
    s.rmwFlow opc { access := .rmw, z := wordBytes s.etype, lanes := s.activeLanes (s.pairLane a) } (g s)
      (some (.vec (vdstReg d) wide)) (s.putV d wide (fun _ => 0)) (fun u old => u.putV d wide (fun l => BitVec.ofNat 64 (old l))))

/-- A reduction: as the atomic, returning nothing (R175). -/
def vecReduction (i : Instr) (opc : Nat) (a : Fin 64) (g : State → Group) (s : State) : Host.Outcome State Fault Refusal :=
  issueOp i s (fun s =>
    s.rmwFlow opc { access := .rmw, z := wordBytes s.etype, lanes := s.activeLanes (s.pairLane a) } (g s) none s (fun u _ => u))

/-- The groups of the operators of R173 over a vector operand. -/
def gAdd (b : VSrc) (s : State) : Group := s.addGroup (s.rmwOperand b)
def gMin (b : VSrc) (s : State) : Group := State.opGroup (rmwPick s.etype min fMin) (s.rmwOperand b)
def gMax (b : VSrc) (s : State) : Group := State.opGroup (rmwPick s.etype max fMax) (s.rmwOperand b)
def gAnd (b : VSrc) (s : State) : Group := State.opGroup (· &&& ·) (s.rmwOperand b)
def gOr (b : VSrc) (s : State) : Group := State.opGroup (· ||| ·) (s.rmwOperand b)
def gXor (b : VSrc) (s : State) : Group := State.opGroup (· ^^^ ·) (s.rmwOperand b)

def execAadd (d : VDst) (a : Fin 64) (b : VSrc) (s : State) := vecAtomic (.aadd d a b) 0xA8 d a (gAdd b) s
def execAmin (d : VDst) (a : Fin 64) (b : VSrc) (s : State) := vecAtomic (.amin d a b) 0xA9 d a (gMin b) s
def execAmax (d : VDst) (a : Fin 64) (b : VSrc) (s : State) := vecAtomic (.amax d a b) 0xAA d a (gMax b) s
def execAand (d : VDst) (a : Fin 64) (b : VSrc) (s : State) := vecAtomic (.aand d a b) 0xAB d a (gAnd b) s
def execAor (d : VDst) (a : Fin 64) (b : VSrc) (s : State) := vecAtomic (.aor d a b) 0xAC d a (gOr b) s
def execAxor (d : VDst) (a : Fin 64) (b : VSrc) (s : State) := vecAtomic (.axor d a b) 0xAD d a (gXor b) s
def execAxchg (d : VDst) (a : Fin 64) (b : VSrc) (s : State) :=
  vecAtomic (.axchg d a b) 0xAE d a (fun s => State.opGroup (fun _ x => x) (s.rmwOperand b)) s
def execAincw (d : VDst) (a : Fin 64) (b : VSrc) (s : State) :=
  vecAtomic (.aincw d a b) 0xAF d a (fun s => State.opGroup incWrap (s.rmwOperand b)) s
def execAdecw (d : VDst) (a : Fin 64) (b : VSrc) (s : State) :=
  vecAtomic (.adecw d a b) 0xB0 d a (fun s => State.opGroup decWrap (s.rmwOperand b)) s
/-- CAS: the expected value is the D register of each lane. -/
def execCas (d : Fin 128) (a : Fin 64) (b : VSrc) (s : State) :=
  vecAtomic (.cas d a b) 0xB1 (.reg d) a
    (fun s => casGroup (fun l => (s.curWave.vlane (etIs64 s.etype) d.val l).toNat) (s.rmwOperand b)) s

/-- The 128 bits of a register quad in a lane (R176). -/
def State.quadLane (s : State) (q : Fin 32) (l : Nat) : Nat :=
  (s.curWave.vlane true (4 * q.val) l).toNat + (s.curWave.vlane true (4 * q.val + 2) l).toNat * 2 ^ 64
/-- A 128-bit result in a quad of the active lanes; the latches do not move (R176). -/
def State.putQuad (s : State) (q : Fin 32) (f : Nat → Nat) : State :=
  let m := s.activeMask
  s.modCur (fun w => { w with
    vregs := setVLanes true (4 * q.val + 2) m (fun l => BitVec.ofNat 64 (f l / 2 ^ 64)) (setVLanes true (4 * q.val) m (fun l => BitVec.ofNat 64 (f l)) w.vregs),
    struck := mendV true (4 * q.val + 2) m (mendV true (4 * q.val) m w.struck) })

def execCas128 (d : Fin 32) (a : Fin 64) (b : Fin 32) (s : State) :=
  issueOp (.cas128 d a b) s (fun s =>
    s.rmwFlow 0xB2 { access := .rmw, z := 16, lanes := s.activeLanes (s.pairLane a) }
      (casGroup (s.quadLane d) (s.quadLane b)) (some (.quad (4 * d.val))) s (fun u old => u.putQuad d old))

/-- A scalar atomic at address A, with its old value in s[d] extended as a scalar load is (R175). -/
def scalarAtomic (i : Instr) (opc : Nat) (d : SDst) (a : SSrc) (g : State → Group) (s : State) : Host.Outcome State Fault Refusal :=
  issueOp i s (fun s =>
    let t := s.etype
    s.rmwFlow opc { access := .rmw, z := wordBytes t, lanes := oneAccess (s.readS64 a) } (g s)
      (some (.scalar (sdstReg d) (wordBytes t) (etSigned t))) (s.putS d 0)
      (fun u old => u.putS d (if etIsInt t then extend64 t (old 32) else BitVec.ofNat 64 (old 32))))

/-- The low z bytes of a scalar operand. -/
def State.scalarOperand (s : State) (b : SSrc) : Nat := (s.readS s.etype b).toNat % 2 ^ etWidth s.etype

def execAadds (d : SDst) (a b : SSrc) (s : State) :=
  scalarAtomic (.aadds d a b) 0xB3 d a (fun s => s.addGroup (fun _ => s.scalarOperand b)) s
def execCass (d : Fin 64) (a b : SSrc) (s : State) :=
  scalarAtomic (.cass d a b) 0xB4 (.reg d) a
    (fun s => casGroup (fun _ => (s.curWave.sreg d.val).toNat % 2 ^ etWidth s.etype) (fun _ => s.scalarOperand b)) s

def execRdadd (a : Fin 64) (b : VSrc) (s : State) := vecReduction (.rdadd a b) 0xB8 a (gAdd b) s
def execRdmin (a : Fin 64) (b : VSrc) (s : State) := vecReduction (.rdmin a b) 0xB9 a (gMin b) s
def execRdmax (a : Fin 64) (b : VSrc) (s : State) := vecReduction (.rdmax a b) 0xBA a (gMax b) s
def execRdand (a : Fin 64) (b : VSrc) (s : State) := vecReduction (.rdand a b) 0xBB a (gAnd b) s
def execRdor (a : Fin 64) (b : VSrc) (s : State) := vecReduction (.rdor a b) 0xBC a (gOr b) s
def execRdxor (a : Fin 64) (b : VSrc) (s : State) := vecReduction (.rdxor a b) 0xBD a (gXor b) s

/-- An atomic on cluster memory, at the lane word of A. (DEDUCED, log 17.) -/
def clusterAtomic (i : Instr) (opc : Nat) (d : VDst) (a : VSrc) (g : State → Group) (s : State) : Host.Outcome State Fault Refusal :=
  issueOp i s (fun s =>
    let wide := etIs64 s.etype
    s.rmwFlow opc { space := .cluster, access := .rmw, z := wordBytes s.etype, lanes := s.activeLanes (fun l => (s.readVWord s.etype a l).setWidth 64) } (g s)
      (some (.vec (vdstReg d) wide)) (s.putV d wide (fun _ => 0)) (fun u old => u.putV d wide (fun l => BitVec.ofNat 64 (old l))))

def execAaddc (d : VDst) (a b : VSrc) (s : State) := clusterAtomic (.aaddc d a b) 0xC8 d a (gAdd b) s
def execCasc (d : Fin 128) (a b : VSrc) (s : State) :=
  clusterAtomic (.casc d a b) 0xC9 (.reg d) a
    (fun s => casGroup (fun l => (s.curWave.vlane (etIs64 s.etype) d.val l).toNat) (s.rmwOperand b)) s

end Sys2Proof.Machine
end

