-- ==== Sys2Proof/Machine/Sync.lean ====
section
/-! DEFINITION. FENCE, WAITA, DRAIN, BARV and BARW, opcodes 0xB5 to 0xB7, 0xCC and 0xCD (R177 to R183), with the events
DRAIN_COMPLETE and WAITA_PERIODIC_WAKE. -/
namespace Sys2Proof.Machine

/-- The level of a scope: 1 core to 6 package (R20). -/
def scopeLevel : Scope → Nat
  | .core => 1 | .cluster => 2 | .die => 3 | .stack => 4 | .interposer => 5 | .package => 6

/-- FENCE: the split waits, as at a yield point, until the fence is complete (R177, R323, R324). -/
def execFence (b : FenceOp) (s : State) :=
  issueOp (.fence b) s (fun s =>
    let level := scopeLevel b.scope
    let release := b.ord != .acquire
    if s.activeMask = 0 && !s.curSplit.waitsAt 0xB5 then s.finishYield
    else match s.gate level release (b.ord != .release) with
      | some u => u.passCur
      | none => (if release then s.released s.curWave.core level else s).finishYield)

/-- The read of a WAITA: at its class when that can be served now, else at the owner (R179, R313). (DEDUCED, log 45.) -/
def State.readNow (s : State) (line : Nat) (ks : List Nat) (c : AccessClass) : Served :=
  match s.readSpan s.curWave.core s.curWave.ctx line ks c (2 ≤ ks.dedup.length) with
  | .yes v u => .yes v u
  | .notYet u => if c.level ≤ 4 && ks.dedup.length ≤ 1 then s.readLine s.curWave.core s.curWave.ctx line ks { c with level := 5 } else .notYet u

/-- The space of a WAITA as a space of access. -/
def waitSpace : Space → MSpace
  | .global => .global | .core => .core | .cluster => .cluster | .stack => .stack

/-- Where a sleeping WAITA looks. -/
def cellPlace : Cell → Nat × Nat
  | .dram pa => (pa, 0)
  | .spad b a => (a, b)
  | .stk c k a => (a, c * 8 + k)
  | .frame o => (o, 0)
  | .lanep b k => (k, b)

/-- The place that a sleeping WAITA watches. -/
def Watch.cell (r : Watch) : Cell :=
  match r.space with
  | .global => .dram r.place
  | .stack => .stk (r.owner / 8) (r.owner % 8) r.place
  | _ => .spad r.owner r.place

/-- A read of a WAITA has its value, or the cause of its loss: the split sleeps while the word equals B, and goes on once it is
different or undefined. -/
def State.waitaDecide (s : State) (r : Watch) (v cause : Nat) : State :=
  if cause != 0 then
    (s.defer s.issue.wave { s.info cause 0 r.va with deferred := true, origin := .poison (.vec none false), issuedAt := s.clk }).finishYield
  else if v = r.val then s.sleepYield (.waita r s.clk false false)
  else (s.scratchDeps (waitSpace r.space)).finishYield

/-- A read of a WAITA is made, and the state that waits where it cannot be made yet. -/
def State.waitaRead (s : State) (r : Watch) (later : State → State) : State :=
  let cls : AccessClass := ⟨r.level, r.acquire, false⟩
  match r.cell with
  | .dram pa =>
    let line := lineOf pa
    if (tvals s.curWave.loads).any (fun p => p.waitsOn line) then later s
    else if s.homeLost pa && !s.findsCopy s.curWave.core s.curWave.ctx line (s.unitsAt pa r.z) r.level then s.waitaDecide r 0 0x16
    else match (if r.level ≤ 1 then (s.core s.curWave.core).forward pa r.z else .none) with
      | .bytes v => s.waitaDecide r v 0
      | .wait => later s
      | .none =>
        match s.readNow line (s.unitsAt pa r.z) cls with
        | .notYet u => later u
        | .yes v u => u.waitaDecide r (leNat ((v.bytes.drop (pa % 64)).take r.z)) (if v.bad.contains (pa % 64 / 8) then 0x11 else 0)
  | c =>
    match s.scratchWait (waitSpace r.space) cls with
    | some u => later u
    | none => s.waitaDecide r (s.readCell c r.z).1 (if (s.readCell c r.z).2 then 0x11 else 0)

/-- WAITA: the word is checked and read; a sleeping one that has been woken reads it again, and nothing else. -/
def execWaita (d : Space) (a b : SSrc) (s : State) :=
  issueOp (.waita d a b) s (fun s =>
    match s.curSplit.wait with
    | some (.waita r since _ _) =>
      let later (u : State) : State := u.stall (.waita r since true true)
      if s.held (waitSpace r.space) || s.acquiring s.curWave then later s else s.waitaRead r later
    | _ =>
      let t := s.etype
      let cls := s.accessClass 0xB6
      let r : MemReq := { space := waitSpace d, z := wordBytes t, lanes := oneAccess (s.readS64 a) }
      if s.activeMask = 0 then s.finishYield
      else if s.heldLoad r cls then s.stall .held
      else if s.acquiring s.curWave then s.stall .retry
      else match s.check r with
        | .trap t => s.trapHere t
        | .touch _ => s
        | .ok cells =>
          match cells with
          | (_, va, c) :: _ =>
            (s.cacheAll r).waitaRead
              { space := d, place := (cellPlace c).1, owner := (cellPlace c).2, z := r.z, val := (s.readS (if etIs64 t then .int64 else t) b).toNat % 2 ^ (8 * r.z), va := va, level := cls.level, acquire := cls.acquire }
              (fun u => u.stallAt cells)
          | [] => s.finishYield)

/-- WAITA_PERIODIC_WAKE: every sleeping WAITA of the wave whose last read is a sillage period old reads again (R179). -/
def execWaitaPeriodicWake (wave : Nat) (s : State) : Host.Outcome State Fault Refusal :=
  .next (s.modWave wave (fun w =>
    { w with splits := tmap w.splits (fun sp => match sp.wait with
        | some (.waita r since _ reading) =>
          if since + 64 * s.period w.ctx ≤ s.clk then { sp with wait := some (.waita r since true reading) } else sp
        | _ => sp) }))

/-! DRAIN (R180). -/

/-- The hold time of a level in clk. -/
def holdTime : Nat → Nat
  | 1 => 32 | 2 => 64 | 3 => 256 | 4 => 512 | 5 => 1024 | _ => 2048

/-- Every request and engine command of a context that entered a queue of the unit before the mark has completed: those of the
unit's cores, and those of other cores whose home slice lies in the unit. (DEDUCED, log 58.) -/
def State.unitQuiet (s : State) (level core ctx mark : Nat) : Bool :=
  let inUnit (c : Nat) : Bool := unitOf level c == unitOf level core
  let homed (pa : Nat) : Bool := 2 ≤ level && inUnit (homeSlice pa * 8)
  s.cores.all (fun p =>
    (tvals p.2.wq).all (fun e => !(inUnit p.1 || homed e.pa) || e.ctx != ctx || mark ≤ e.entered) &&
      (!inUnit p.1 || p.2.mq.all (fun m => (s.block m.block).ctx != ctx || mark ≤ m.enter))) &&
  (tvals s.waves).all (fun w => w.ctx != ctx || (tvals w.loads).all (fun p =>
    mark ≤ p.issuedAt || !(inUnit w.core || p.lanes.any (fun x => x.got.isNone && homed x.pa)))) &&
  (tvals s.blocks).all (fun b => !(b.ctx == ctx && inUnit b.core) ||
    (tvals b.windows).all (fun x => !(x.st == .inflight || x.st == .stalled) || mark ≤ x.started)) &&
  s.clusters.all (fun p => level = 1 || !inUnit (p.1 * 8) || p.2.gather.all (fun g => g.ctx != ctx || mark ≤ g.entered)) &&
  (tvals s.decants).all (fun d => d.done || mark ≤ d.entered ||
    (let w := tgetD s.waves d.wave {}; !(w.ctx == ctx && (inUnit w.core || homed d.record))))

def execDrain (b : Scope) (s : State) :=
  issueOp (.drain b) s (fun s =>
    match s.curSplit.wait with
    | some .quiet => s.finishYield
    | some (.drain l m t) => s.stall (.drain l m t)
    | _ => if s.activeMask = 0 then s.finishYield else s.sleepYield (.drain (scopeLevel b) s.clk none))

/-- A split that waits in DRAIN, as the idle tree sees it now: quiet from this clk, or quiet for the hold time. -/
def State.drainSplit (s : State) (w : Wave) (sp : Split) : Split :=
  match sp.wait with
  | some (.drain l m since) =>
    if !s.unitQuiet l w.core w.ctx m then { sp with wait := some (.drain l m none) }
    else match since with
      | none => { sp with wait := some (.drain l m (some s.clk)) }
      | some t => if t + holdTime l ≤ s.clk then { sp with wait := some .quiet } else sp
  | _ => sp

/-- DRAIN_COMPLETE: the idle tree's output for the splits of a wave that wait in DRAIN (R180). -/
def execDrainComplete (wave : Nat) (s : State) : Host.Outcome State Fault Refusal :=
  .next (s.modWave wave (fun w => { w with splits := tmap w.splits (s.drainSplit w) }))

/-! Barriers (R181 to R183). -/

/-- The word after an arrival. -/
def barArrive (v : Nat) : Nat :=
  let expect := v % 2 ^ 16
  let count := v / 2 ^ 16 % 2 ^ 16 + 1
  let ph := v / 2 ^ 32 % 2
  if expect ≤ count then expect + (1 - ph) * 2 ^ 32 else expect + count * 2 ^ 16 + ph * 2 ^ 32

/-- BARV: one arrival, a release at cluster scope; the phase arrived in goes to s[d]. -/
def execBarv (d : SDst) (a : SSrc) (s : State) :=
  issueOp (.barv d a) s (fun s =>
    let r : MemReq := { space := .cluster, access := .rmw, z := 8, lanes := oneAccess (s.readS64 a) }
    if s.activeMask = 0 then (s.putS d 0).finishYield
    else if s.acquiring s.curWave then s.stall .retry
    else match s.check r with
      | .trap t => s.trapHere t
      | .touch _ => s
      | .ok cells =>
        if !s.curWave.loads.isEmpty then s.stall .loads
        else match s.gate 2 true false with
          | some u => u
          | none =>
            match cells with
            | (_, va, c) :: _ =>
              let (v, bad) := s.readCell c 8
              if bad then s.trapHere (s.info 0x11 0 va)
              else (((s.released s.curWave.core 2).writeCell c (leBytes 8 (barArrive v))).putS d
                (BitVec.ofNat 64 (v / 2 ^ 32 % 2))).finishYield
            | [] => s.finishYield)

/-- The word of a BARW is read: the split waits until PHASE differs from the one given, and the read that ends the wait is an
acquire at cluster scope. -/
def State.barwRead (s : State) (block offset ph : Nat) (va : Dword) : State :=
  let k : Wait := .barw block offset ph va
  let (v, bad) := s.readCell (.spad block offset) 8
  if bad then
    (s.defer s.issue.wave { s.info 0x11 0 va with deferred := true, origin := .poison (.vec none false), issuedAt := s.clk }).finishYield
  else if v / 2 ^ 32 % 2 = ph then s.sleepYield k
  else if s.acquiring s.curWave then s.stall k
  else match s.scratchWait .cluster ⟨2, true, false⟩ with
    | some u => u.stall k
    | none => (s.scratchDeps .cluster).finishYield

/-- BARW: a woken one reads its word again, and nothing else. -/
def execBarw (a b : SSrc) (s : State) :=
  issueOp (.barw a b) s (fun s =>
    match s.curSplit.wait with
    | some (.barw block offset ph va) => s.barwRead block offset ph va
    | _ =>
      let r : MemReq := { space := .cluster, z := 8, lanes := oneAccess (s.readS64 a) }
      if s.activeMask = 0 then s.finishYield
      else if s.acquiring s.curWave then s.stall .retry
      else match s.check r with
        | .trap t => s.trapHere t
        | .touch _ => s
        | .ok cells =>
          match cells with
          | (_, va, c) :: _ => s.barwRead (cellPlace c).2 (cellPlace c).1 ((s.readS64 b).toNat % 2) va
          | [] => s.finishYield)

end Sys2Proof.Machine
end

