-- ==== Sys2Proof/Machine/CoherenceEvents.lean ====
section
/-! DEFINITION. The device events of loads and of coherence: LOAD_DATA_RETURN (R171), WR, PACK, INV, IACK, GETS, GETX,
FWD, DATA, WB, XPUB, XINV, XACK, XDONE, FPUB, FACK and REBASE (R314 to R327). A message acts when it arrives, in the order of
its source; one whose home entry is busy waits there, in the order of arrival. -/
namespace Sys2Proof.Machine

/-! Loads. -/

/-- LOAD_DATA_RETURN: a load in flight takes what can be served now, and lands once it has every lane (R167, R171). -/
def execLoadDataReturn (wave load : Nat) (s : State) : Host.Outcome State Fault Refusal :=
  match tget? (tgetD s.waves wave {}).loads load with
  | some p => .next (s.advanceLoad wave load p)
  | none => .next s

/-- Data of a unit that a core asked for serve a load of it, on one line: the load's other units on that line must be usable in
the stack (R313, R329). `hit` says that the line stood in a slice before, so that the access counts there (R298). -/
def State.feedLine (s : State) (core k : Nat) (hit : Bool) (wid lid line : Nat) : State :=
  let w := tgetD s.waves wid {}
  match tget? w.loads lid with
  | none => s
  | some p0 =>
    let p := s.forwardLoad wid lid p0
    let ks := s.loadUnits p line
    if 5 ≤ p.level || s.spans p line || !p.waitsOn line || !ks.contains k || w.blockedOn lid line then s
    else match s.readBlock core w.ctx line ks ⟨p.level, p.acquire, false⟩, s.stackView core w.ctx line (ks.filter (· != k)) with
      | none, some (v, _) =>
        let p1 := p.put (s.core core) line (LoadLane.fill s.clk v)
        let u := s.modWave wid (fun w => { w with loads := tset w.loads lid p1 })
        let u1 := ((if hit then u.touchCopy core line else u).recordDeps core line).noteRead core line v
        if p1.complete then u1.deliver wid lid p1 else u1
      | some u, _ => u
      | none, none => s

/-- Data of a unit that a core asked for serve its loads of core to stack scope that wait for it (R313). -/
def State.feed (s : State) (core k : Nat) (hit : Bool) : State :=
  let ls := s.unitLines k
  (s.waves.filter (fun p => p.2.core = core)).foldl (fun (u : State) w => w.2.loads.foldl (fun (u : State) lp =>
    ls.foldl (fun (u : State) line => u.feedLine core k hit w.1 lp.1 line) u) u) s

/-! Writes. -/

/-- A queue entry leaves its queue. -/
def State.dequeue (s : State) (core id : Nat) : State := s.modCore core (fun c => { c with wq := tdel c.wq id })

/-- A unit is named by an object that is declared, or is a line of which no object holds a byte (R330). -/
def State.unitValid (s : State) (k : Nat) : Bool :=
  if isTile k then (tgetD s.objects (k % 2 ^ 64) {}).live else (s.lineUnits k).contains k

/-- A queued write, or one that its core sent before it to the same home, was lost in a failed element and has not been sent
again: the home keeps the order of the source (R396, R397). -/
def State.writeDropped (s : State) (core write : Nat) : Bool :=
  let home (i : Nat) : Option Nat := (tget? (s.core core).wq i).map (fun e => homeSlice e.pa)
  s.fabric.lost.any (fun p => match p.1 with
    | .wr c i => c == core && decide (i ≤ write) && home i == home write
    | _ => false)

/-- WR: the oldest queued write of its line is performed at the owner, after GETX for each unit, in ascending order, that the
core's stack does not own (R314, R315, R329); at a lost home it is lost (R408). A stack without cache ways owns nothing, and
its writes are performed where the owner is (R301). -/
def execWr (core write : Nat) (s : State) : Host.Outcome State Fault Refusal :=
  match tget? (s.core core).wq write with
  | none => .next s
  | some e =>
    let line := lineOf e.pa
    let ks := s.unitsAt e.pa e.bytes.length
    if (s.core core).wq.any (fun p => p.1 < write && lineOf p.2.pa = line) || s.writeDropped core write then .next s
    else if s.homeLost line then .next ((s.dequeue core write).loseStore e)
    else if s.converting line || s.homeHeld line then .next s
    else match s.tagFull core line ks with
      | some t => .next (s.forceTag t)
      | none =>
        match (if s.liveRecord line then none else s.gainUnits core ks) with
        | some u => .next u
        | none =>
          if ks.any (fun k => !s.ownerReady k || !s.ownerClear core k) then .next s
          else .next ((s.dequeue core write).perform core e.pa e.bytes write e.epoch)

/-- The fences of a core that wait press their writes again. -/
def State.repress (s : State) (core : Nat) : State :=
  ((tvals s.waves).filter (fun w => w.core = core)).foldl (fun u w =>
    (tvals w.splits).foldl (fun u sp => match sp.wait with
      | some (.fence l m _ true _ _) => if 2 ≤ l then u.press core m l else u
      | _ => u) u) s

/-- PACK: the core learns that its write is visible at a level (R322). -/
def execPack (core write level : Nat) (s : State) : Host.Outcome State Fault Refusal :=
  s.arrive (.pack core write level) (fun s =>
    let s1 := s.modCore core (fun c => { c with outs := match tget? c.outs write with
      | some o => if max o.level level < 6 then tset c.outs write { o with level := max o.level level } else tdel c.outs write
      | none => c.outs })
    (s1.retryFpubs core).repress core)

/-- INV: every L1 copy of the cluster but the writer's is dropped, and IACK goes back (R318). -/
def execInv (line cluster writer : Nat) (s : State) : Host.Outcome State Fault Refusal :=
  s.arrive (.inv line cluster writer) (fun s =>
    (((s.l1Holders (cluster / 32) line).filter (fun k => clusterOf k = cluster && k != writer)).foldl
      (fun (u : State) k => u.dropL1 line k) s).sendOnce (.iack line cluster))

/-- IACK: the invalidation is no longer pending, and the writes of the line may be visible more widely (R315). -/
def execIack (line cluster : Nat) (s : State) : Host.Outcome State Fault Refusal :=
  s.arrive (.iack line cluster) (fun s => s.settle line)

/-! Copies and ownership (R317). -/

/-- Every copy of a line in a stack is dropped. -/
def State.dropStack (s : State) (y line : Nat) : State :=
  (s.l1Holders y line).foldl (fun (u : State) k => u.dropL1 line k) (s.setCopy y line none)

/-- Every copy of a unit in a stack is dropped. -/
def State.dropUnit (s : State) (y k : Nat) : State :=
  (s.unitLines k).foldl (fun (u : State) l => (u.l1Holders y l).foldl (fun (u : State) c => u.dropL1 l c) u) (s.dropPart y k)

/-- A stack holds something of a unit in its slices or its L1s. -/
def State.holdsUnit (s : State) (y k : Nat) : Bool :=
  (s.partAt y k).isSome || (s.unitLines k).any (fun l => !(s.l1Holders y l).isEmpty)

/-- M and E become O. -/
def CopyState.share : CopyState → CopyState
  | .s => .s
  | _ => .o

/-- The entry of a unit can serve a request: its owner holds it, or writes it back, and no publication of it runs. -/
def State.entryFree (s : State) (k : Nat) : Bool :=
  (s.ownerReady k || s.goingHome k) && (s.homeEntry k).xpub.isNone && !s.unitHeld k && (s.unitLines k).all s.dramClear

/-- A request of a stack for a unit needs no answer: its home is lost, the stack is its owner, or it is no unit any more. -/
def State.needless (s : State) (k stack : Nat) : Bool := !s.unitValid k || s.unitLost k || s.ownerStack k = stack

/-- GETS at the home: E if no other stack holds a copy, else an S copy, from the home stack or forwarded to the owner. -/
def execGets (k stack core : Nat) (s : State) : Host.Outcome State Fault Refusal :=
  s.atEntry k (.gets k stack core) (fun s => s.needless k stack || s.entryFree k) (fun s =>
    let x := s.ownerStack k
    let h := unitHome k
    if s.needless k stack then s
    else if x = h then
      if ((s.homeEntry k).sharers k).all (fun y => y = stack) && !s.holdsUnit h k && s.cacheWays (clusterOf core) > 0 then
        let s1 := s.homeRoom k
        let e := s1.homeEntry k
        (s1.setHome k (s1.lendTo k (s.coreCtx core) { e with owned := true, owner := stack, sh := 0, xi := false, unpub := false })).send
          (.data k stack core true (s.unitData k))
      else ((s.turnPart h k CopyState.share).grant k stack (s.coreCtx core)).send (.data k stack core false (s.unitData k))
    else (s.grant k stack (s.coreCtx core)).send (.fwd k stack core false))

/-- The context whose slice holds a stack's copy of a unit. -/
def State.holderCtx (s : State) (stack k : Nat) : Nat :=
  ((s.unitLines k).findSome? (fun l => (s.copyAt stack l).bind (fun c => (s.cluster c.slice).owner))).getD 0

/-- GETX at the home: ownership moves to the requesting stack. The old owner keeps an S copy with its lease restarted, and
becomes a sharer unless it is the home stack; LEND covers the leases of both (R317, R318). -/
def execGetx (k stack core : Nat) (s : State) : Host.Outcome State Fault Refusal :=
  s.atEntry k (.getx k stack core) (fun s => s.needless k stack || s.entryFree k) (fun s0 =>
    if s0.needless k stack then s0
    else
      let s := s0.homeRoom k
      let x := s.ownerStack k
      let h := unitHome k
      let e := s.homeEntry k
      let e1 := if x = h then e else e.addSharer k x
      let e2 : HomeEntry := { e1 with owned := decide (stack != h), owner := stack, unpub := e1.sh != 0 || e1.xi }
      let s1 := s.setHome k (s.lendTo k (s.holderCtx x k) (s.lendTo k (s.coreCtx core) e2))
      if x = h then (s1.turnPart h k (fun _ => .s)).send (.data k stack core true (s.unitData k))
      else s1.send (.fwd k stack core true))

/-- FWD at the owner: DATA goes to the requester; the owner's copy becomes O, or S with a new lease when ownership
moves. -/
def execFwd (k stack core : Nat) (excl : Bool) (s : State) : Host.Outcome State Fault Refusal :=
  s.arrive (.fwd k stack core excl) (fun s0 =>
    let s : State := { s0 with fabric := { s0.fabric with dataFrom := (.fwd k stack core excl, s0.fwdSlice k stack) :: s0.fabric.dataFrom } }
    let own (y : Nat) : Bool := (s.partAt y k).any (fun p => p.st.owns)
    let s1 :=
      if excl then ((List.range 8).filter (fun y => y != stack && own y)).foldl (fun (u : State) y => u.turnPart y k (fun _ => .s)) s
      else s.turnPart (s.ownerStack k) k CopyState.share
    s1.send (.data k stack core excl (s.unitData k)))

/-- Every line of a unit is held in a stack's slices. -/
def State.holdsWhole (s : State) (y k : Nat) : Bool := (s.unitLines k).all (fun l => (s.copyAt y l).any (fun c => (c.part k).isSome))

/-- Ownership of a unit arrives at a stack: it holds the unit in E, the tags of its lines come along, and INV goes to older L1
copies. A unit that the stack's slices cannot hold goes back to its home. -/
def State.takeOwnership (s : State) (k stack core : Nat) : State :=
  let s1 := s.install (clusterOf core) k .e (some core)
  if !s1.holdsWhole stack k then
    (if s1.ownerStack k = stack && stack != unitHome k then s1.writeBack stack k else s1).dropPart stack k
  else (s1.unitLines k).foldl (fun (u : State) l => (u.gatherTags l (u.ownSlice k)).invalidateOlder stack l) s1

/-- A core's L1 holds a line, or a load of the core that its stack may serve waits for it: data of the line refresh the L1 or enter
it (R294). -/
def State.wantsLine (s : State) (core line : Nat) : Bool :=
  (tget? (s.core core).l1 line).isSome ||
    (tvals s.waves).any (fun w => w.core = core && (tvals w.loads).any (fun p => p.level ≤ 4 && p.waitsOn line))

/-- Data of a unit reach the L1 of the core that asked for it (R294, R313). -/
def State.fillData (s : State) (core k : Nat) : State :=
  (s.unitLines k).foldl (fun (u : State) l => if u.wantsLine core l then
    (if isTile k then u.fillFrom core (u.coreCtx core) l
     else u.fillL1 core l { data := (u.ownerView l).bytes, bad := (u.ownerView l).bad, t0 := u.coreTick core }) else u) s

/-- The slice that takes a unit which comes to a stack for a core. -/
def State.arrivalSlice (s : State) (k stack core : Nat) : Nat :=
  ((s.unitLines k).findSome? (fun l => (s.copyAt stack l).map (fun c => c.slice))).getD (clusterOf core)

/-- DATA at the requesting stack: its copy and the core's L1 copy are refreshed and their leases start (R313), and the core's
loads are served. Data whose lease has ended on the way, or that a publication cuts off, are asked for again (R317). Ownership waits
where it has arrived for room among the release tags of its new slice (R325). -/
def execData (k stack core : Nat) (excl : Bool) (bytes : List Byte) (s : State) : Host.Outcome State Fault Refusal :=
  let m : Instr := .data k stack core excl bytes
  match (if excl then s.tagsFull (s.unitLines k) (s.arrivalSlice k stack core) else none) with
  | some t => if s.waiting.contains m then .next (s.forceTag t) else s.arrive m (fun s => ({ s with waiting := s.waiting ++ [m] } : State).forceTag t)
  | none => s.arriveOrWait m (fun s =>
    let hit := (s.unitLines k).any (fun l => (s.copyAt stack l).isSome)
    let older (u : State) : State := (u.unitLines k).foldl (fun (u : State) l => u.invalidateOlder stack l) u
    if !s.unitValid k || (!excl && s.dead.contains (dieOf core)) then s
    else if excl then ((s.takeOwnership k stack core).fillData core k).feed core k hit
    else if s.ownerStack k = stack then s
    else if !(s.homeEntry k).shares k stack || (s.homeEntry k).cut.contains stack then s.askCopy core k
    else (older ((s.install (clusterOf core) k .s).fillData core k)).feed core k hit)

/-- A unit that a stack owned is its home stack's again, in E what that stack's slices hold of it. A stack that still has L1
copies of the unit stays a sharer. (DEDUCED, log 123.) -/
def State.ownHome (s : State) (k stack : Nat) : State :=
  let h := unitHome k
  let kept := if stack = h then [] else (s.unitLines k).flatMap (fun l => s.l1Holders stack l)
  let e : HomeEntry := { s.homeEntry k with owned := false }
  let e1 := kept.foldl (fun (e : HomeEntry) c => s.lendTo k (s.coreCtx c) { e.addSharer k stack with unpub := true }) e
  (s.unitLines k).foldl (fun (u : State) l => (u.gatherTags l (u.ownSlice k)).invalidateOlder h l)
    ((s.setHome k e1).turnPart h k (fun _ => .e))

/-- WB at the home, after the requests that have arrived before it. -/
def execWb (k stack : Nat) (s : State) : Host.Outcome State Fault Refusal :=
  if s.tagged k && (s.homeEntry k).owned then .next s
  else s.atEntry k (.wb k stack) (fun _ => true) (fun s =>
    if (s.homeEntry k).owned && (s.homeEntry k).owner = stack then s.ownHome k stack else s)

/-! Publication (R317, R318). -/

/-- XPUB at the home: XINV goes to the sharers within the releaser's unit of the level, all four stacks of the other
interposer for XI, and to the home stack itself if it holds a copy that ownership has left there. -/
def execXpub (k stack level : Nat) (s : State) : Host.Outcome State Fault Refusal :=
  s.atEntry k (.xpub k stack level) (fun s => (s.ownerReady k || s.goingHome k) && (s.homeEntry k).xpub.isNone) (fun s =>
    let e := s.homeEntry k
    let x := s.ownerStack k
    let cut := (List.range 8).filter (fun y =>
      y != x && (level ≥ 6 || y / 4 == stack / 4) && (e.shares k y || (y = unitHome k && s.holdsUnit y k)))
    let s1 := s.setHome k { e with xpub := some (stack, level), waitX := cut, cut := cut }
    if cut.isEmpty then s1.sendOnce (.xdone k stack level) else cut.foldl (fun (u : State) y => u.sendOnce (.xinv k y)) s1)

/-- XINV at a sharer: its slice copy and every L1 copy beneath are invalidated; a stack that owns the unit keeps it. -/
def execXinv (k stack : Nat) (s : State) : Host.Outcome State Fault Refusal :=
  s.arrive (.xinv k stack) (fun s =>
    (if (s.partAt stack k).any (fun p => p.st.owns) then s else s.dropUnit stack k).sendOnce (.xack k stack))

/-- XACK at the home: after the last one, XDONE goes to the releaser's stack. -/
def execXack (k stack : Nat) (s : State) : Host.Outcome State Fault Refusal :=
  s.arrive (.xack k stack) (fun s =>
    let e := s.homeEntry k
    match e.xpub with
    | none => s
    | some (y, level) =>
      let left := e.waitX.filter (fun y => y != stack)
      let s1 := s.setHome k { e with waitX := left }
      if left.isEmpty then s1.sendOnce (.xdone k y level) else s1)

/-- XDONE: the bits are cleared, and the writes of the unit are visible more widely. -/
def execXdone (k stack level : Nat) (s : State) : Host.Outcome State Fault Refusal :=
  s.arrive (.xdone k stack level) (fun s =>
    let e := s.homeEntry k
    (s.unitLines k).foldl (fun (u : State) l => u.settle l)
      (s.setHome k { e.cutSharers k e.cut with xpub := none, waitX := [], cut := [] }))

/-! Forced publishes (R324 to R327, R409). -/

/-- FPUB at a core: it publishes its writes of the epochs before; for a core of a lost die the fabric manager answers. -/
def execFpub (core epoch level requester : Nat) (s : State) : Host.Outcome State Fault Refusal :=
  s.arrive (.fpub core epoch level requester) (fun s =>
    if s.dead.contains (dieOf core) then s.sendOnce (.fack core epoch level requester)
    else
      let f : FpubReq := ⟨epoch, level, requester, (s.core core).nextWrite⟩
      if (s.core core).fpubs.any (fun x => x.epoch = epoch && x.level = level && x.requester = requester) then s
      else (s.modCore core (fun c => { c with fpubs := c.fpubs ++ [f] })).retryFpubs core)

/-- The class of the access in which a split of a wave stalls. -/
def State.classOf (s : State) (wid : Nat) (sp : Split) : AccessClass :=
  let w := tgetD s.waves wid {}
  ({ s with issue := { wave := wid, mode := if sp.begun then sp.offMode else w.mode, mmrev := (s.ctx w.ctx).mmrevAt sp.pos } } : State).accessClass sp.opc

/-- The acquire of a wave that has asked for the release of a core at a level, if it has one: the cause of the loss mark, with the
address that the acquire reads (R409). -/
def State.lossCause (s : State) (wid : Nat) (w : Wave) (dep level : Nat) : Option TrapInfo :=
  let asks (l : Nat) : Bool := l = level && unitOf l dep == unitOf l w.core
  let t : TrapInfo := { cause := 0x16, lane := 0xFF, deferred := true, origin := .loss, issuedAt := s.clk }
  match (tvals w.loads).find? (fun x => x.acquire && !x.complete && asks x.level) with
  | some x => some { t with pc := x.pc, iword := x.iword, lit := x.lit, bintodal := x.bintodal, faddr := ((x.lanes.find? (fun l => l.got.isNone)).map (fun l => l.va)).getD 0 }
  | none => (tvals w.splits).findSome? (fun sp => match sp.wait with
    | some (.fence l _ _ _ true _) => if asks l then some { t with pc := sp.pos } else none
    | some (.waita r _ _ true) => if r.acquire && asks r.level then some { t with pc := sp.pos, faddr := r.va } else none
    | some (.barw _ _ _ va) => if asks 2 then some { t with pc := sp.pos, faddr := va } else none
    | some .retry => let c := s.classOf wid sp; if c.acquire && asks c.level then some { t with pc := sp.pos, faddr := sp.va } else none
    | _ => none)

/-- HOME_OFFLINE deferred to the waves of a core whose acquire was answered with the loss mark (R409): before their next
instruction once the acquire has completed, FADDR the address that it read. -/
def State.lossMark (s : State) (core dep level : Nat) : State :=
  (s.waves.filter (fun p => p.2.core = core)).foldl (fun u p => match s.lossCause p.1 p.2 dep level with
    | some t => u.defer p.1 t
    | none => u) s

/-- FACK: the requester's dependencies and the tags of those writes are known at the level, and end at package. -/
def execFack (core epoch level requester : Nat) (s : State) : Host.Outcome State Fault Refusal :=
  s.arrive (.fack core epoch level requester) (fun s =>
    let s0 := if s.dead.contains (dieOf core) then s.lossMark requester core level else s
    let upD (d : Dep) : Dep := if d.core = core && d.epoch ≤ epoch then { d with level := max d.level level } else d
    let upT (t : Tag) : Tag := if t.core = core && t.epoch ≤ epoch then { t with level := max t.level level } else t
    let s1 := s0.modCore requester (fun c =>
      { c with deps := (c.deps.map upD).filter (fun d => d.level < 6) })
    let s2 := { s1 with clusters := tmap s1.clusters (fun c => { c with tags := (c.tags.map upT).filter (fun t => t.level < 6) }) }
    let s3 := s2.modCore core (fun c => if c.relLevel != 0 && c.epoch ≤ epoch then { c with relLevel := if level = 6 then 0 else max c.relLevel level } else c)
    s3.retryFpubs requester)

/-! Rebase (R321). -/

/-- A slice copy after a rebase of its slice: what it holds under a lease that began before the new base goes, and the leases of
the rest are clamped. -/
def SliceLine.rebase (b : Nat) (c : SliceLine) : SliceLine :=
  { c with parts := tmap (c.parts.filter (fun p => p.2.st.owns || (b : Int) ≤ p.2.t0)) (fun p => { p with t0 := max p.t0 b }) }

/-- REBASE of a core or of a slice whose count has run 65,535 ticks past its base. -/
def execRebase (isCore : Bool) (unit : Nat) (s : State) : Host.Outcome State Fault Refusal :=
  let now := if isCore then s.coreTick unit else s.tickOf unit
  let base := if isCore then (s.core unit).base else (s.cluster unit).base
  if now < base + 65535 then .next s
  else
    let b := now - 32767
    if isCore then
      .next (s.modCore unit (fun c => { c with base := b, l1 := c.l1.filter (fun p => (b : Int) ≤ p.2.t0) }))
    else
      let s1 := s.modCluster unit (fun c => { c with base := b, tags := c.tags.filter (fun t => b ≤ t.tick) })
      let lines := (tgetD s1.stackTbl (unit / 32) {}).lines.map (fun p => if p.2.slice = unit then (p.1, p.2.rebase b) else p)
      let s2 := { s1 with stackTbl := tset s1.stackTbl (unit / 32) ⟨lines.filter (fun p => !p.2.parts.isEmpty)⟩ }
      let clear (u : State) (p : Nat × HomeEntry) : State :=
        if unitSlice p.1 = unit && p.2.lend < b && p.2.xpub.isNone then
          u.setHome p.1 { p.2 with sh := 0, xi := false, unpub := false }
        else u
      .next (s2.homes.foldl clear s2)

end Sys2Proof.Machine
end

