-- ==== Sys2Proof/Machine/Scalar.lean ====
section
/-! DEFINITION. The scalar integer family, opcodes 0x02 to 0x1C (R109 to R114). -/
namespace Sys2Proof.Machine

/-- A scalar value of an integer type: the low n bits of the 64-bit operand (R113). -/
def State.scalarInt (s : State) (x : SSrc) : Int := intVal s.etype (s.readS s.etype x).toNat

/-- A scalar instruction whose exact result is fitted, by saturation where the row says so, and extended (R113). -/
def State.scalarFit (s : State) (d : SDst) (saturates : Bool) (r : Int) : State :=
  (s.putS d (extend64 s.etype (fitInt s.etype (saturates && s.sat) r))).finish

/-- The binary rows of R114 over the exact values x and y, n the width. -/
def scalarBinary (i : Instr) (d : SDst) (a b : SSrc) (saturates : Bool) (f : EType → Int → Int → Int) (s : State) :
    Host.Outcome State Fault Refusal :=
  issueOp i s (fun s => s.scalarFit d saturates (f s.etype (s.scalarInt a) (s.scalarInt b)))

/-- The unary rows of R114. -/
def scalarUnary (i : Instr) (d : SDst) (a : SSrc) (saturates : Bool) (f : EType → Int → Int) (s : State) :
    Host.Outcome State Fault Refusal :=
  issueOp i s (fun s => s.scalarFit d saturates (f s.etype (s.scalarInt a)))

/-- The n bits of a value, unsigned. -/
def bitsOf (t : EType) (x : Int) : Nat := wrapBits (etWidth t) x

/-- The high half of the 2n-bit product (MULHS). -/
def mulHigh (t : EType) (x y : Int) : Int := x * y / 2 ^ etWidth t
/-- Bitwise AND of the n bits. -/
def bitAnd (t : EType) (x y : Int) : Int := (bitsOf t x &&& bitsOf t y : Nat)
/-- Bitwise OR. -/
def bitOr (t : EType) (x y : Int) : Int := (bitsOf t x ||| bitsOf t y : Nat)
/-- Bitwise exclusive OR. -/
def bitXor (t : EType) (x y : Int) : Int := (bitsOf t x ^^^ bitsOf t y : Nat)
/-- x AND NOT y. -/
def bitAndNot (t : EType) (x y : Int) : Int := (bitsOf t x &&& (2 ^ etWidth t - 1 - bitsOf t y) : Nat)
/-- NOT x. -/
def bitNot (t : EType) (x : Int) : Int := (2 ^ etWidth t - 1 - bitsOf t x : Nat)
/-- The shift count: y as unsigned, mod n. -/
def shiftCount (t : EType) (y : Int) : Nat := bitsOf t y % etWidth t
/-- Shift left, zeros entering. -/
def shiftLeft (t : EType) (x y : Int) : Int := (bitsOf t x * 2 ^ shiftCount t y : Nat)
/-- Shift right, zeros entering. -/
def shiftRight (t : EType) (x y : Int) : Int := (bitsOf t x / 2 ^ shiftCount t y : Nat)
/-- Shift right, bit n-1 of x entering, for signed and unsigned types alike. -/
def shiftArith (t : EType) (x y : Int) : Int :=
  let u := bitsOf t x
  let v : Int := if u ≥ 2 ^ (etWidth t - 1) then (u : Int) - 2 ^ etWidth t else u
  v / 2 ^ shiftCount t y
/-- Rotate left within n bits. -/
def rotateLeft (t : EType) (x y : Int) : Int :=
  let u := bitsOf t x
  let c := shiftCount t y
  (u * 2 ^ c + u / 2 ^ (etWidth t - c) : Nat)
/-- 1 or 0. -/
def oneIf (b : Bool) : Int := if b then 1 else 0

def execAdds (d : SDst) (a b : SSrc) (s : State) := scalarBinary (.adds d a b) d a b true (fun _ x y => x + y) s
def execSubs (d : SDst) (a b : SSrc) (s : State) := scalarBinary (.subs d a b) d a b true (fun _ x y => x - y) s
def execMuls (d : SDst) (a b : SSrc) (s : State) := scalarBinary (.muls d a b) d a b true (fun _ x y => x * y) s
def execMulhs (d : SDst) (a b : SSrc) (s : State) := scalarBinary (.mulhs d a b) d a b false mulHigh s
/-- DIVS: the special cases of R57 read MODE.SAT themselves. -/
def execDivs (d : SDst) (a b : SSrc) (s : State) :=
  scalarBinary (.divs d a b) d a b false (fun t x y => divInt t s.sat x y) s
def execRems (d : SDst) (a b : SSrc) (s : State) := scalarBinary (.rems d a b) d a b false (fun _ x y => remInt x y) s
def execAnds (d : SDst) (a b : SSrc) (s : State) := scalarBinary (.ands d a b) d a b false bitAnd s
def execOrs (d : SDst) (a b : SSrc) (s : State) := scalarBinary (.ors d a b) d a b false bitOr s
def execXors (d : SDst) (a b : SSrc) (s : State) := scalarBinary (.xors d a b) d a b false bitXor s
def execAndns (d : SDst) (a b : SSrc) (s : State) := scalarBinary (.andns d a b) d a b false bitAndNot s
def execShls (d : SDst) (a b : SSrc) (s : State) := scalarBinary (.shls d a b) d a b false shiftLeft s
def execShrs (d : SDst) (a b : SSrc) (s : State) := scalarBinary (.shrs d a b) d a b false shiftRight s
def execSras (d : SDst) (a b : SSrc) (s : State) := scalarBinary (.sras d a b) d a b false shiftArith s
def execRols (d : SDst) (a b : SSrc) (s : State) := scalarBinary (.rols d a b) d a b false rotateLeft s
def execMins (d : SDst) (a b : SSrc) (s : State) := scalarBinary (.mins d a b) d a b false (fun _ x y => min x y) s
def execMaxs (d : SDst) (a b : SSrc) (s : State) := scalarBinary (.maxs d a b) d a b false (fun _ x y => max x y) s
def execMovs (d : SDst) (a : SSrc) (s : State) := scalarUnary (.movs d a) d a false (fun _ x => x) s
def execNots (d : SDst) (a : SSrc) (s : State) := scalarUnary (.nots d a) d a false bitNot s
def execNegs (d : SDst) (a : SSrc) (s : State) := scalarUnary (.negs d a) d a true (fun _ x => -x) s
def execClzs (d : SDst) (a : SSrc) (s : State) :=
  scalarUnary (.clzs d a) d a false (fun t x => (clzBits (etWidth t) (bitsOf t x) : Int)) s
def execPopcs (d : SDst) (a : SSrc) (s : State) :=
  scalarUnary (.popcs d a) d a false (fun t x => (popBits (etWidth t) (bitsOf t x) : Int)) s
def execSeqs (d : SDst) (a b : SSrc) (s : State) := scalarBinary (.seqs d a b) d a b false (fun _ x y => oneIf (x == y)) s
def execSnes (d : SDst) (a b : SSrc) (s : State) := scalarBinary (.snes d a b) d a b false (fun _ x y => oneIf (x != y)) s
def execSlts (d : SDst) (a b : SSrc) (s : State) :=
  scalarBinary (.slts d a b) d a b false (fun _ x y => oneIf (decide (x < y))) s
def execSles (d : SDst) (a b : SSrc) (s : State) :=
  scalarBinary (.sles d a b) d a b false (fun _ x y => oneIf (decide (x ≤ y))) s
/-- LEAS: A + B x the element size of MODE.ETYPE, A and B typed int64, written as 64 bits. -/
def execLeas (d : SDst) (a b : SSrc) (s : State) :=
  issueOp (.leas d a b) s (fun s =>
    (s.putS d (s.readS64 a + s.readS64 b * BitVec.ofNat 64 (etWidth s.etype / 8))).finish)
/-- BFXS: the control is the whole 64-bit B operand typed int64. -/
def execBfxs (d : SDst) (a b : SSrc) (s : State) :=
  issueOp (.bfxs d a b) s (fun s => s.scalarFit d false (bitField s.etype (s.scalarInt a) (s.readS64 b).toNat))

end Sys2Proof.Machine
end

