-- ==== Sys2Proof/Machine/Vector.lean ====
section
/-! DEFINITION. Integer, bitwise and floating element-wise vector instructions, opcodes 0x40 to 0x5B (R135 to R145). -/
namespace Sys2Proof.Machine

/-- An element of a lane's operand as an exact integer of MODE.ETYPE (R139). -/
def State.vInt (s : State) (t : EType) (x : VSrc) (l e : Nat) : Int := intVal t (elemOf t (s.readV t x l) e)
/-- An element of a lane's operand as a floating value. -/
def State.vFloat (s : State) (t : EType) (f : FFmt) (x : VSrc) (l e : Nat) : FVal :=
  fDecode f (elemOf t (s.readV t x l) e)

/-- A floating result rounded once to the element type under MODE.ROUND; MODE.SAT has no part in it (R64, R141). -/
def roundTo (f : FFmt) (mode : RMode) (r : FVal × Bool) : Nat := fEncode f mode false r.1 r.2

/-- An element-wise result written in active(w) (R135, R139). -/
def State.putElems (s : State) (d : VDst) (t : EType) (f : Nat → Nat → Nat) : State :=
  (s.putV d (etIs64 t) (fun l => packElems t (fun e => f l e))).finish

/-- A binary element-wise instruction: an integer operator, fitted (R139, R140), or a floating one, rounded (R141). -/
def vecBinary (i : Instr) (d : VDst) (a b : VSrc) (saturates : Bool) (fi : EType → Int → Int → Int)
    (ff : RMode → FVal → FVal → FVal × Bool) (s : State) : Host.Outcome State Fault Refusal :=
  issueOp i s (fun s =>
    let t := s.etype
    s.putElems d t (fun l e => match etFmt t with
      | some f => roundTo f s.rmode (ff s.rmode (s.vFloat t f a l e) (s.vFloat t f b l e))
      | none => fitInt t (saturates && s.sat) (fi t (s.vInt t a l e) (s.vInt t b l e))))

/-- A unary element-wise instruction. -/
def vecUnary (i : Instr) (d : VDst) (a : VSrc) (saturates : Bool) (fi : EType → Int → Int)
    (ff : RMode → FVal → FVal × Bool) (s : State) : Host.Outcome State Fault Refusal :=
  issueOp i s (fun s =>
    let t := s.etype
    s.putElems d t (fun l e => match etFmt t with
      | some f => roundTo f s.rmode (ff s.rmode (s.vFloat t f a l e))
      | none => fitInt t (saturates && s.sat) (fi t (s.vInt t a l e))))

/-- A bitwise instruction on the raw bits of each element, floating ones included (R139). -/
def vecBits (i : Instr) (d : VDst) (a b : VSrc) (g : EType → Nat → Nat → Nat) (s : State) :
    Host.Outcome State Fault Refusal :=
  issueOp i s (fun s =>
    let t := s.etype
    s.putElems d t (fun l e => g t (elemOf t (s.readV t a l) e) (elemOf t (s.readV t b l) e)))

/-- The accumulating forms of R144: c is the destination register, read first. -/
def vecFused (i : Instr) (d : Fin 128) (a b : VSrc) (sub : Bool) (s : State) : Host.Outcome State Fault Refusal :=
  issueOp i s (fun s =>
    let t := s.etype
    s.putElems (.reg d) t (fun l e =>
      match etFmt t with
      | some f =>
        let p := fMul (s.vFloat t f a l e) (s.vFloat t f b l e)
        roundTo f s.rmode (fAdd s.rmode (if sub then fNeg p else p) (s.vFloat t f (.reg d) l e), false)
      | none =>
        let p := s.vInt t a l e * s.vInt t b l e
        fitInt t s.sat (s.vInt t (.reg d) l e + (if sub then -p else p))))

/-- An exact floating result. -/
def exactly (v : FVal) : FVal × Bool := (v, false)

def execAddv (d : VDst) (a b : VSrc) (s : State) :=
  vecBinary (.addv d a b) d a b true (fun _ x y => x + y) (fun m x y => exactly (fAdd m x y)) s
def execSubv (d : VDst) (a b : VSrc) (s : State) :=
  vecBinary (.subv d a b) d a b true (fun _ x y => x - y) (fun m x y => exactly (fAdd m x (fNeg y))) s
def execMulv (d : VDst) (a b : VSrc) (s : State) :=
  vecBinary (.mulv d a b) d a b true (fun _ x y => x * y) (fun _ x y => exactly (fMul x y)) s
def execMulhv (d : VDst) (a b : VSrc) (s : State) :=
  vecBinary (.mulhv d a b) d a b false mulHigh (fun _ x _ => exactly x) s
/-- DIVV: integers under R57, floats under R141. -/
def execDivv (d : VDst) (a b : VSrc) (s : State) :=
  vecBinary (.divv d a b) d a b false (fun t x y => divInt t s.sat x y) (fun _ x y => fDiv x y) s
def execRemv (d : VDst) (a b : VSrc) (s : State) :=
  vecBinary (.remv d a b) d a b false (fun _ x y => remInt x y) (fun _ x _ => exactly x) s
def execMinv (d : VDst) (a b : VSrc) (s : State) :=
  vecBinary (.minv d a b) d a b false (fun _ x y => min x y) (fun _ x y => exactly (fMin x y)) s
def execMaxv (d : VDst) (a b : VSrc) (s : State) :=
  vecBinary (.maxv d a b) d a b false (fun _ x y => max x y) (fun _ x y => exactly (fMax x y)) s
/-- ABSV: under a signed type -2^(n-1) wraps or saturates with the fit (R140). -/
def execAbsv (d : VDst) (a : VSrc) (s : State) :=
  vecUnary (.absv d a) d a true (fun _ x => (x.natAbs : Int)) (fun _ x => exactly (x.withSign false)) s
def execNegv (d : VDst) (a : VSrc) (s : State) :=
  vecUnary (.negv d a) d a true (fun _ x => -x) (fun _ x => exactly (fNeg x)) s
def execMadv (d : Fin 128) (a b : VSrc) (s : State) := vecFused (.madv d a b) d a b false s
def execMsubv (d : Fin 128) (a b : VSrc) (s : State) := vecFused (.msubv d a b) d a b true s
def execAndv (d : VDst) (a b : VSrc) (s : State) := vecBits (.andv d a b) d a b (fun _ x y => x &&& y) s
def execOrv (d : VDst) (a b : VSrc) (s : State) := vecBits (.orv d a b) d a b (fun _ x y => x ||| y) s
def execXorv (d : VDst) (a b : VSrc) (s : State) := vecBits (.xorv d a b) d a b (fun _ x y => x ^^^ y) s
def execAndnv (d : VDst) (a b : VSrc) (s : State) :=
  vecBits (.andnv d a b) d a b (fun t x y => x &&& (2 ^ etWidth t - 1 - y)) s
def execNotv (d : VDst) (a : VSrc) (s : State) :=
  vecBits (.notv d a) d a a (fun t x _ => 2 ^ etWidth t - 1 - x) s
def execShlv (d : VDst) (a b : VSrc) (s : State) :=
  vecBinary (.shlv d a b) d a b false shiftLeft (fun _ x _ => exactly x) s
def execShrv (d : VDst) (a b : VSrc) (s : State) :=
  vecBinary (.shrv d a b) d a b false shiftRight (fun _ x _ => exactly x) s
def execSrav (d : VDst) (a b : VSrc) (s : State) :=
  vecBinary (.srav d a b) d a b false shiftArith (fun _ x _ => exactly x) s
def execRolv (d : VDst) (a b : VSrc) (s : State) :=
  vecBinary (.rolv d a b) d a b false rotateLeft (fun _ x _ => exactly x) s
def execClzv (d : VDst) (a : VSrc) (s : State) :=
  vecUnary (.clzv d a) d a false (fun t x => (clzBits (etWidth t) (bitsOf t x) : Int)) (fun _ x => exactly x) s
def execPopcv (d : VDst) (a : VSrc) (s : State) :=
  vecUnary (.popcv d a) d a false (fun t x => (popBits (etWidth t) (bitsOf t x) : Int)) (fun _ x => exactly x) s
/-- MOVV moves the lane word, or the pair; under the types 0xB to 0xF the lane is one word (R138). -/
def execMovv (d : VDst) (a : VSrc) (s : State) :=
  issueOp (.movv d a) s (fun s => (s.putV d (etIs64 s.etype) (fun l => s.readV s.etype a l)).finish)
def execBfxv (d : VDst) (a b : VSrc) (s : State) :=
  vecBinary (.bfxv d a b) d a b false (fun t x y => bitField t x (bitsOf t y)) (fun _ x _ => exactly x) s
def execAvgv (d : VDst) (a b : VSrc) (s : State) :=
  vecBinary (.avgv d a b) d a b false (fun _ x y => (x + y + 1) / 2) (fun _ x _ => exactly x) s

/-- The 32-bit accumulator type of the dot products (R145). -/
def dotType (t : EType) : EType := if etIsF t then .f32 else if etSigned t then .int32 else .uint32

/-- The exact sum of the products of the elements 0 to n-1, as integers. -/
def dotInt (s : State) (t : EType) (a b : VSrc) (l n : Nat) : Int :=
  ((List.range n).map (fun e => s.vInt t a l e * s.vInt t b l e)).foldl (· + ·) 0

/-- The dot products (R145): the destination is the accumulator, read first, and one 32-bit result is written. -/
def vecDot (i : Instr) (d : Fin 128) (a b : VSrc) (n : Nat) (s : State) : Host.Outcome State Fault Refusal :=
  issueOp i s (fun s =>
    let t := s.etype
    (s.putV (.reg d) false (fun l =>
      let c := (s.curWave.vreg d.val l).toNat
      match etFmt t with
      | some f =>
        let p0 := fMul (s.vFloat t f a l 0) (s.vFloat t f b l 0)
        let p1 := fMul (s.vFloat t f a l 1) (s.vFloat t f b l 1)
        BitVec.ofNat 64 (roundTo fmtF32 s.rmode
          (fAdd s.rmode (fAdd s.rmode (fDecode fmtF32 c) p0) p1, false))
      | none => BitVec.ofNat 64 (fitInt (dotType t) s.sat (intVal (dotType t) c + dotInt s t a b l n)))).finish)

def execDot4v (d : Fin 128) (a b : VSrc) (s : State) := vecDot (.dot4v d a b) d a b 4 s
def execDot2v (d : Fin 128) (a b : VSrc) (s : State) := vecDot (.dot2v d a b) d a b 2 s

end Sys2Proof.Machine
end

