-- ==== Sys2Proof/Machine/Cross.lean ====
section
/-! DEFINITION. Conversion, compares, select and the cross-lane instructions, opcodes 0x80 to 0x9B (R146 to R155). -/
namespace Sys2Proof.Machine

/-- One element converted between the types 0x0 to 0xC (R58, R66 to R68, R146). -/
def convertElem (src tgt : EType) (mode : RMode) (sat : Bool) (b : Nat) : Nat :=
  match etFmt src, etFmt tgt with
  | none, none => fitInt tgt sat (intVal src b)
  | some f, none => cvtFloatInt tgt mode sat (fDecode f b)
  | none, some g => fEncode g mode sat (fOfInt (intVal src b))
  | some f, some g =>
    if src == tgt then (if (fDecode f b).isNan then f.nanBits else b)
    else fEncode g mode sat (fDecode f b)

/-- CVTV: element 0 of each lane; the other bits of the lane are zero (R135). -/
def execCvtv (d : VDst) (a : VSrc) (b : EType) (s : State) :=
  issueOp (.cvtv d a b) s (fun s =>
    let t := s.etype
    (s.putV d (etIs64 b) (fun l =>
      BitVec.ofNat 64 (convertElem t b s.rmode s.sat (elemOf t (s.readV t a l) 0)))).finish)

/-- PACKSXV: two blocks of 16 lanes' f32 values, read from all 32 lanes, as a byte string over the lanes (R147). -/
def execPacksxv (d : VDst) (a : VSrc) (b : SxFmt) (s : State) :=
  issueOp (.packsxv d a b) s (fun s =>
    let x (l : Nat) : FVal := fDecode fmtF32 ((s.readV .f32 a l).toNat % 2 ^ 32)
    let blk (k : Nat) : List Byte := sxPack b s.rmode s.sat ((List.range 16).map (fun i => x (16 * k + i)))
    let str := leNat (blk 0 ++ blk 1)
    (s.putV d false (fun l => BitVec.ofNat 64 (str / 2 ^ (32 * l) % 2 ^ 32))).finish)

/-- UNPKSXV: element l mod 16 of block l div 16, exactly as f32 (R148). -/
def execUnpksxv (d : VDst) (a : VSrc) (b : SxFmt) (s : State) :=
  issueOp (.unpksxv d a b) s (fun s =>
    let bytes := (List.range 32).flatMap (fun l => leBytes 4 ((s.readV .f32 a l).toNat % 2 ^ 32))
    let z := sxSize b
    (s.putV d false (fun l =>
      BitVec.ofNat 64 (fEncode fmtF32 .rne false (sxElem b ((bytes.drop (z * (l / 16))).take z) (l % 16))))).finish)

/-- The lanes of the listed ones for which a test holds. -/
def lanesWhere (p : Nat → Bool) : LaneMask := LaneMask.ofLanes ((List.range 32).filter p)

/-- The order of two elements, none if either is a NaN (R149). -/
def State.cmpElem (s : State) (a b : VSrc) (l : Nat) : Option Ordering :=
  let t := s.etype
  match etFmt t with
  | some f => fCmp (s.vFloat t f a l 0) (s.vFloat t f b l 0)
  | none => some (compare (s.vInt t a l 0) (s.vInt t b l 0))

/-- A compare of element 0 in each lane of active(w) (R149). -/
def vecCompare (i : Instr) (d : Fin 8) (a b : VSrc) (p : Option Ordering → Bool) (s : State) :
    Host.Outcome State Fault Refusal :=
  issueOp i s (fun s => (s.putP d (lanesWhere (fun l => p (s.cmpElem a b l)))).finish)

def execCmpeqv (d : Fin 8) (a b : VSrc) (s : State) :=
  vecCompare (.cmpeqv d a b) d a b (fun o => o == some .eq) s
def execCmpnev (d : Fin 8) (a b : VSrc) (s : State) :=
  vecCompare (.cmpnev d a b) d a b (fun o => o != some .eq) s
def execCmpltv (d : Fin 8) (a b : VSrc) (s : State) :=
  vecCompare (.cmpltv d a b) d a b (fun o => o == some .lt) s
def execCmplev (d : Fin 8) (a b : VSrc) (s : State) :=
  vecCompare (.cmplev d a b) d a b (fun o => o == some .lt || o == some .eq) s
def execCmpgtv (d : Fin 8) (a b : VSrc) (s : State) :=
  vecCompare (.cmpgtv d a b) d a b (fun o => o == some .gt) s
def execCmpgev (d : Fin 8) (a b : VSrc) (s : State) :=
  vecCompare (.cmpgev d a b) d a b (fun o => o == some .gt || o == some .eq) s
def execCmpunv (d : Fin 8) (a b : VSrc) (s : State) :=
  vecCompare (.cmpunv d a b) d a b (fun o => o == none) s

/-- SELV: in every lane of the issuing split and plane, A where the guard passes and B elsewhere (R150). -/
def execSelv (d : VDst) (a b : VSrc) (s : State) :=
  issueOp (.selv d a b) s (fun s =>
    let g := s.activeMask
    (s.putVMask s.issue.lanes d (etIs64 s.etype)
      (fun l => if g.getLsbD l then s.readV s.etype a l else s.readV s.etype b l)).finish)

/-- A shuffle: each lane of active(w) takes the word, or the pair, of A in a source lane (R152). -/
def vecShuffle (i : Instr) (d : VDst) (a b : VSrc) (src : Nat → Nat → Nat) (s : State) :
    Host.Outcome State Fault Refusal :=
  issueOp i s (fun s =>
    (s.putV d (etIs64 s.etype)
      (fun l => s.readV s.etype a (src l ((s.readV .uint32 b l).toNat % 32)))).finish)

def execShflv (d : VDst) (a b : VSrc) (s : State) := vecShuffle (.shflv d a b) d a b (fun _ j => j) s
def execShupv (d : VDst) (a b : VSrc) (s : State) :=
  vecShuffle (.shupv d a b) d a b (fun l j => if l < j then l else l - j) s
def execShdnv (d : VDst) (a b : VSrc) (s : State) :=
  vecShuffle (.shdnv d a b) d a b (fun l j => if l + j > 31 then l else l + j) s
def execShxrv (d : VDst) (a b : VSrc) (s : State) := vecShuffle (.shxrv d a b) d a b (fun l j => l ^^^ j) s
/-- BCASTV: the source lane is read in lane 0, the same for every lane. -/
def execBcastv (d : VDst) (a b : VSrc) (s : State) :=
  vecShuffle (.bcastv d a b) d a b (fun _ _ => (s.readV .uint32 b 0).toNat % 32) s

/-- VOTEALL: the AND of the predicate over active(w), in every lane of active(w) (R153). -/
def execVoteall (d : Fin 8) (a : PSel) (s : State) :=
  issueOp (.voteall d a) s (fun s =>
    (s.putP d (if s.activeMask &&& ~~~(s.curWave.psel a) = 0 then BitVec.allOnes 32 else 0)).finish)
/-- VOTEANY: the OR. -/
def execVoteany (d : Fin 8) (a : PSel) (s : State) :=
  issueOp (.voteany d a) s (fun s =>
    (s.putP d (if s.activeMask &&& s.curWave.psel a = 0 then 0 else BitVec.allOnes 32)).finish)
/-- BALLOT: bit l is the predicate in each lane of active(w), zero elsewhere. -/
def execBallot (d : SDst) (a : PSel) (s : State) :=
  issueOp (.ballot d a) s (fun s => (s.putS d ((s.curWave.psel a &&& s.activeMask).setWidth 64)).finish)

/-- The running combination of element 0 over lanes in ascending order: the combined exact integers, or the values
rounded at each step (R154). -/
def reduceFloat (f : FFmt) (mode : RMode) (g : RMode → FVal → FVal → FVal) : List Nat → Nat
  | [] => 0
  | b :: bs =>
    let r := bs.foldl (fun r x => fEncode f mode false (g mode (fDecode f r) (fDecode f x))) b
    if (fDecode f r).isNan then f.nanBits else r

/-- An integer combination of a list that is not empty. -/
def reduceInt (g : Int → Int → Int) : List Int → Int
  | [] => 0
  | x :: xs => xs.foldl g x

/-- A lane reduction into a scalar register (R154). -/
def vecReduce (i : Instr) (d : SDst) (a : VSrc) (saturates : Bool) (gi : EType → Int → Int → Int)
    (gf : RMode → FVal → FVal → FVal) (s : State) : Host.Outcome State Fault Refusal :=
  issueOp i s (fun s =>
    let t := s.etype
    let ls := s.activeMask.lanes
    let v : Dword := match etFmt t with
      | some f => BitVec.ofNat 64 (reduceFloat f s.rmode gf (ls.map (fun l => elemOf t (s.readV t a l) 0)))
      | none => extend64 t (fitInt t (saturates && s.sat) (reduceInt (gi t) (ls.map (fun l => s.vInt t a l 0))))
    (s.putS d v).finish)

def execRedaddv (d : SDst) (a : VSrc) (s : State) := vecReduce (.redaddv d a) d a true (fun _ x y => x + y) fAdd s
def execRedminv (d : SDst) (a : VSrc) (s : State) :=
  vecReduce (.redminv d a) d a false (fun _ x y => min x y) (fun _ x y => fMin x y) s
def execRedmaxv (d : SDst) (a : VSrc) (s : State) :=
  vecReduce (.redmaxv d a) d a false (fun _ x y => max x y) (fun _ x y => fMax x y) s
def execRedandv (d : SDst) (a : VSrc) (s : State) := vecReduce (.redandv d a) d a false bitAnd (fun _ x _ => x) s
def execRedorv (d : SDst) (a : VSrc) (s : State) := vecReduce (.redorv d a) d a false bitOr (fun _ x _ => x) s

/-- SCANV: in each lane of active(w) the running value after it (R154), written under R135. -/
def execScanv (d : VDst) (a : VSrc) (s : State) :=
  issueOp (.scanv d a) s (fun s =>
    let t := s.etype
    let upto (l : Nat) : List Nat := s.activeMask.lanes.filter (fun k => k ≤ l)
    (s.putV d (etIs64 t) (fun l => BitVec.ofNat 64 (match etFmt t with
      | some f => reduceFloat f s.rmode fAdd ((upto l).map (fun k => elemOf t (s.readV t a k) 0))
      | none => fitInt t s.sat (reduceInt (· + ·) ((upto l).map (fun k => s.vInt t a k 0)))))).finish)

/-- The type a lane word is moved under: the types 0xB to 0xF as one 32-bit word (R138). -/
def wordType (t : EType) : EType := if etCode t ≥ 11 then .uint32 else t

/-- MOVSV: the low bits of A in every element, or its 64 bits across the pair (R155). -/
def execMovsv (d : VDst) (a : SSrc) (s : State) :=
  issueOp (.movsv d a) s (fun s =>
    let t := wordType s.etype
    (s.putV d (etIs64 t) (fun _ => replicate t ((s.readS s.etype a).toNat % 2 ^ etWidth t))).finish)
/-- MOVVS: element 0 of lane B mod 32, extended as R82 does for an S field (R155). -/
def execMovvs (d : SDst) (a : VSrc) (b : SSrc) (s : State) :=
  issueOp (.movvs d a b) s (fun s =>
    let t := wordType s.etype
    (s.putS d (elemToS t (elemOf t (s.readV s.etype a ((s.readS64 b).toNat % 32)) 0))).finish)
/-- FIRSTL: the lowest lane of active(w) (R155). -/
def execFirstl (d : SDst) (s : State) :=
  issueOp (.firstl d) s (fun s => (s.putS d (BitVec.ofNat 64 (s.activeMask.lanes.headD 0))).finish)

end Sys2Proof.Machine
end

