-- ==== Sys2Proof/Machine/Matrix.lean ====
section
/-! DEFINITION. Matrix instructions, opcodes 0xD0 to 0xD4, and the execution of queued matrix commands (R187 to R210),
with the accumulation rule R73. -/
namespace Sys2Proof.Machine

/-! Formats (R189). -/

/-- The matrix format codes. -/
def mxFormat (c : Nat) : Bool := [0x9, 0xA, 0xB, 0xC, 0x6, 0xD, 0xE, 0xF].contains c
/-- The bytes of an element, 0 for an SX format. -/
def mxElemBytes (c : Nat) : Nat := if 0xD ≤ c then 0 else etWidth (etOfCode c) / 8
/-- The SX member of a code. -/
def mxSx (c : Nat) : Option SxFmt := etSx (etOfCode c)
/-- The size of an A operand. -/
def aBytes (c : Nat) : Nat := match mxSx c with | some f => 256 * sxSize f | none => 4096 * mxElemBytes c
/-- The size of a storage unit of B. -/
def unitBytes (c : Nat) : Nat := match mxSx c with | some f => 8 * sxSize f | none => 64 * mxElemBytes c
/-- The largest B image. -/
def imageBytes (c : Nat) : Nat := 8 + (match mxSx c with | some _ => 32 | none => 64) * unitBytes c
/-- The output size of an MMD, none for a type it does not accept (R203). -/
def mmdBytes (t : EType) : Option Nat :=
  match t with
  | .int32 => some 4096 | .int16 => some 2048 | .int8 => some 1024 | .f32 => some 4096 | .bf16 => some 2048
  | .f16 => some 2048 | .e4m3 => some 1024 | .e5m2 => some 1024 | .sx8 => some 1152 | .sx5 => some 768 | .sx3 => some 512
  | _ => none

/-- The value of an element's bits in a matrix format other than SX. -/
def mxValue (c bits : Nat) : FVal :=
  match etFmt (etOfCode c) with
  | some f => fDecode f bits
  | none => fOfInt (intVal .int8 bits)

/-! Accumulation (R73). -/

/-- The product of two elements under R73: a zero factor wins. -/
inductive Product where
  | zero | nan | inf (neg : Bool)
  | fin (m : Int) (e : Int)
deriving DecidableEq, Repr

/-- See `Product`. -/
def product (x y : FVal) : Product :=
  if x.isZero || y.isZero then .zero
  else match x, y with
    | .fin a m e, .fin b n d => .fin ((if a = b then 1 else -1) * (m * n : Nat)) (e + d)
    | .nan, _ => .nan
    | _, .nan => .nan
    | x, y => .inf (x.neg != y.neg)

/-- floor(p / 2^q), exactly. -/
def floorShift (m e q : Int) : Int := if q ≤ e then m * 2 ^ (e - q).toNat else m / 2 ^ (q - e).toNat

/-- An accumulator element after the products of one MMA, as f32 bits (R73, R74). -/
def accumulate (c : Nat) (ps : List Product) : Nat :=
  let cv := fDecode fmtF32 c
  let pinf := ps.contains (.inf false)
  let ninf := ps.contains (.inf true)
  if ps.contains .nan || (pinf && ninf) then fmtF32.nanBits
  else if pinf || ninf then fEncode fmtF32 .rne false (fAdd .rne cv (.inf ninf))
  else
    let fs := ps.filterMap (fun p => match p with | .fin m e => some (m, e) | _ => none)
    match fs with
    | [] => if cv.isNan then fmtF32.nanBits else c
    | (m0, e0) :: rest =>
      let lg (m e : Int) : Int := (Nat.log2 m.natAbs : Int) + e
      let q := (rest.foldl (fun (a : Int) p => max a (lg p.1 p.2)) (lg m0 e0)) - 40
      let sum := (fs.map (fun p => floorShift p.1 p.2 q)).foldl (· + ·) 0
      fEncode fmtF32 .rne false (fAdd .rne cv (.fin (sum < 0) sum.natAbs q))

/-! Operands in the scratchpad. -/

/-- Bytes of a block's scratchpad. -/
def Block.bytes (b : Block) (a n : Nat) : List Byte := memBytes b.scratch a n
/-- A granule of a span of scratchpad is poisoned. -/
def Block.poisoned (b : Block) (a n : Nat) : Option Nat := b.spoison.find? (fun g => a < g + 8 && g < a + n)

/-- Element (i, k) of an A operand (R190). -/
def Block.aElem (b : Block) (a fmt i k : Nat) : FVal :=
  match mxSx fmt with
  | some f => sxElem f (b.bytes (a + (8 * i + k / 16) * sxSize f) (sxSize f)) (k % 16)
  | none => mxValue fmt (memNat b.scratch (a + (128 * i + k) * mxElemBytes fmt) (mxElemBytes fmt))

/-- The bit of BITMAP that covers (k, n) (R195). -/
def bitmapBit (k n : Nat) : Nat := 4 * (k / 8) + n / 8

/-- The stored units of a bitmap, as a test on unit indexes (R195). -/
def unitStored (fmt bitmap u : Nat) : Bool :=
  match mxSx fmt with
  | some _ => bitmap.testBit (8 * (u / 4) + u % 4) || bitmap.testBit (8 * (u / 4) + 4 + u % 4)
  | none => bitmap.testBit u

/-- The number of stored units below an index. -/
def unitRank (fmt bitmap u : Nat) : Nat := ((List.range u).filter (unitStored fmt bitmap)).length

/-- The bytes of an image that BITMAP calls stored. -/
def storedBytes (fmt bitmap : Nat) : Nat := 8 + unitRank fmt bitmap (match mxSx fmt with | some _ => 32 | none => 64) * unitBytes fmt

/-- Element (k, n) of the B that a slot holds (R196). -/
def WSlot.bElem (w : WSlot) (k n : Nat) : FVal :=
  let bitmap := leNat (w.bytes.take 8)
  if !bitmap.testBit (bitmapBit k n) then .fin false 0 0
  else match mxSx w.fmt with
    | some f =>
      let u := 4 * (k / 16) + n / 8
      sxElem f ((w.bytes.drop (8 + unitRank w.fmt bitmap u * unitBytes w.fmt + n % 8 * sxSize f)).take (sxSize f)) (k % 16)
    | none =>
      let e := mxElemBytes w.fmt
      let at_ := 8 + unitRank w.fmt bitmap (bitmapBit k n) * unitBytes w.fmt + (k % 8 * 8 + n % 8) * e
      mxValue w.fmt (leNat ((w.bytes.drop at_).take e))

/-! Issue (R193, R197, R199). -/

/-- The class of the plain loads with which an instruction reads a record or a vector (R202, R213, R282). -/
def State.plainClass (s : State) : AccessClass :=
  if s.issue.mmrev == 1 || s.curCtx.ctxmode.toNat % 2 == 1 then ⟨3, true, false⟩ else {}

/-- The block of the issuing wave. -/
def State.curBlockId (s : State) : Nat := s.curWave.block.getD 0
/-- See `curBlockId`. -/
def State.curBlock (s : State) : Block := s.block s.curBlockId

/-- Checks 6 and 7 of R193 over the addresses and spans an instruction takes. -/
def State.mxAddrCheck (s : State) (xs : List (Dword × Nat)) : Option TrapInfo :=
  match xs.find? (fun p => s.curBlock.size < p.1.toNat + p.2) with
  | some p => some (s.info 0x0F 0 p.1)
  | none => (xs.find? (fun p => p.1.toNat % 128 != 0)).map (fun p => s.info 0x0B 0 p.1)

/-- How a matrix instruction meets an operand tile (R197): the window it touches, or whether it may take the tile. -/
def State.mxTile (s : State) (t : Nat) : Option Nat × Bool :=
  let x := s.curBlock.tile t
  match x.holder with
  | .copy w => (some w, true)
  | .mcast _ _ => (none, false)
  | .gather => (none, false)
  | _ => (none, true)

/-- Check 8: the lowest operand tile that another engine holds. (DEDUCED, log 30.) -/
def State.mxTileCheck (s : State) (a : Dword) (ts : List Nat) : Option TrapInfo :=
  (ts.find? (fun t => !(s.mxTile t).2)).map (fun t => s.info 0x0E t a)

/-- The operand tiles of a command are taken: windows are touched, other tiles are held by the matrix unit, and each
counts the command and carries its mark (R197, R198). -/
def State.takeTiles (s : State) (ts : List Nat) (mark : Bool) : State :=
  let b := s.curBlockId
  ts.foldl (fun u t =>
    let cnt (x : Tile) : Tile := { x with count := x.count + 1, mark := x.mark || mark }
    match (u.mxTile t).1 with
    | some w => (u.touch b w true).modTiles b [t] cnt
    | none => u.modTiles b [t] (fun x => cnt { x with engine := true, holder := .matrix })) s

/-- A taking of tiles, unless each is one for which it is none, is a release at core scope. -/
def State.afterRelease (s : State) (ts : List Nat) (free : Tile → Bool) (k : State → State) : State :=
  if ts.all (fun t => free (s.curBlock.tile t)) then k s
  else match s.gate 1 true false with
    | some u => u
    | none => k (s.released s.curWave.core 1)

/-- A THREAD tile among those that WBIND takes makes the taking a release at core scope (R218). -/
def State.afterTaking (s : State) (ts : List Nat) (k : State → State) : State := s.afterRelease ts (fun t => t.engine) k

/-- A matrix command that takes a THREAD tile, or a tile of a window, which a copy will hand over, releases at core scope (R197,
R206); for a window, at issue. (DEDUCED, log 142.) -/
def State.afterHandOver (s : State) (ts : List Nat) (k : State → State) : State :=
  s.afterRelease ts (fun t => t.holder == .matrix || t.offered) k

/-- A command enters its core's queue (R199). -/
def State.pushMx (s : State) (op : MxOp) (ts : List Nat) : State :=
  let c : MxCmd := { op := op, wave := s.issue.wave, block := s.curBlockId, tiles := ts, enter := s.clk, pc := s.issue.pc, iword := s.issue.iword, lit := s.issue.lit, bintodal := s.issue.form == .bintodal }
  (s.modCore s.curWave.core (fun k => { k with mq := k.mq ++ [c] })).modCur (fun w => { w with mxPending := w.mxPending + 1 })

/-- A matrix instruction: no effect with no active lane; it stalls while the queue is full, and until an acquire load of the wave
has its value (R187, R199, R202, R278). -/
def mxIssue (i : Instr) (s : State) (body : State → State) : Host.Outcome State Fault Refusal :=
  issueOp i s (fun s =>
    if s.activeMask = 0 then s.finish
    else if 16 ≤ (s.core s.curWave.core).mq.length || s.acquiring s.curWave then s.stall .retry
    else body s)

/-- A trap, or the effect and the next instruction. -/
def State.orElse (s : State) (t : Option TrapInfo) (f : State → State) : State :=
  match t with
  | some t => s.trapHere t
  | none => f s

/-- The first of several checks that fails. -/
def firstTrap (ts : List (Option TrapInfo)) : Option TrapInfo := ts.findSome? id

/-- A check: the trap if the condition holds. -/
def State.failIf (s : State) (c : Bool) (cause detail : Nat) : Option TrapInfo := if c then some (s.info cause detail) else none

/-- An address field of a format block: none, or the address. -/
def noneIfOnes (a : Nat) : Option Nat := if a = 0xFFFFFFFF then none else some a

/-- MMA: the format block is checked and read once, the drain record is set, and the command is queued (R192, R193,
R200, R201). -/
def execMma (d : Fin 8) (a : SSrc) (b : Fin 16) (s : State) :=
  mxIssue (.mma d a b) s (fun s =>
    let w := s.curWave
    let r (k : Nat) : Nat := (w.sreg (4 * b.val + k)).toNat
    let afmt := r 0 % 16
    let bfmt := r 0 / 16 % 16
    let len (f : Nat) : Nat := if 0xD ≤ f then 16 else 0
    let slot := r 0 / 2 ^ 24 % 16
    let rel := r 0 / 2 ^ 28 % 2 == 1
    let act := r 0 / 2 ^ 32 % 16
    let asc := noneIfOnes (r 1 % 2 ^ 32)
    let bsc := noneIfOnes (r 1 / 2 ^ 32)
    let bias := noneIfOnes (r 2 % 2 ^ 32)
    let addr := s.readS64 a
    let blk := s.curBlock
    let x := tgetD blk.slots slot {}
    let vecs := [asc, bsc, bias].filterMap (fun v => v.map (fun n => (BitVec.ofNat 64 n, 128)))
    let ts := spanTiles addr.toNat (aBytes afmt)
    s.orElse (firstTrap [
      s.failIf (r 0 / 2 ^ 29 % 8 != 0 || r 0 / 2 ^ 36 != 0 || r 2 / 2 ^ 32 != 0 || r 3 != 0 || 2 ≤ act ||
        r 0 / 256 % 256 != len afmt || r 0 / 65536 % 256 != len bfmt) 0x01 0,
      s.failIf (!mxFormat afmt) 0x02 afmt, s.failIf (!mxFormat bfmt) 0x02 bfmt,
      s.failIf (2 * blk.accum ≤ slot) 0x06 slot,
      s.failIf x.issued.isNone 0x04 w.split.mask.toNat,
      s.failIf (x.issued != some bfmt) 0x02 bfmt,
      s.mxAddrCheck ((addr, aBytes afmt) :: vecs),
      s.mxTileCheck addr ts])
      (fun s => s.afterHandOver ts (fun s =>
        let rcd : DrainRec := ⟨asc, bsc, bias, act⟩
        (((s.takeTiles ts rel).modBlock s.curBlockId (fun k => { k with drains := tset k.drains d.val rcd })).pushMx
          (.mma d.val addr.toNat afmt bfmt slot rel) ts).finish)))

/-- MMZ: the drain record becomes empty at issue (R201, R202). -/
def execMmz (d : Fin 8) (s : State) :=
  mxIssue (.mmz d) s (fun s =>
    ((s.modBlock s.curBlockId (fun k => { k with drains := tset k.drains d.val {} })).pushMx (.mmz d.val) []).finish)

/-- The 32 words of a scale or bias vector. -/
def Block.vec32 (b : Block) (a : Nat) : List Nat := (List.range 32).map (fun i => memNat b.scratch (a + 4 * i) 4)

/-- MMD: MODE, the drain record and its vectors are read at issue (R202, R203). -/
def execMmd (d : Fin 8) (a : SSrc) (b : Bool) (s : State) :=
  mxIssue (.mmd d a b) s (fun s =>
    let t := s.etype
    let addr := s.readS64 a
    let blk := s.curBlock
    let rcd := tgetD blk.drains d.val {}
    let n := (mmdBytes t).getD 0
    let ts := spanTiles addr.toNat n
    let vecs := [rcd.ascale, rcd.bscale, rcd.bias].filterMap id
    let vt := (vecs.flatMap (fun v => (spanTiles v 128).map (fun k => (v, k)))).find? (fun p => (blk.tile p.2).engine)
    let bad := vecs.any (fun v => (blk.poisoned v 128).isSome)
    s.orElse (firstTrap [
      s.failIf (mmdBytes t).isNone 0x02 (etCode t), s.mxAddrCheck [(addr, n)], s.mxTileCheck addr ts,
      vt.map (fun p => s.info 0x0E p.2 (BitVec.ofNat 64 p.1))])
      (fun s => s.afterHandOver ts (fun s => match (if vecs.isEmpty then none else s.scratchWait .core s.plainClass) with
        | some u => u.stall .retry
        | none => (((if vecs.isEmpty then s else s.scratchDeps .core).takeTiles ts true).pushMx
            (.mmd d.val addr.toNat s.issue.mode b (rcd.act == 1) (rcd.ascale.map blk.vec32) (rcd.bscale.map blk.vec32) (rcd.bias.map blk.vec32) bad) ts).finish)))

/-- WLOAD: the issued format is set and the command is queued (R204). -/
def execWload (d : Fin 16) (a : SSrc) (b : Fin 80) (s : State) :=
  mxIssue (.wload d a b) s (fun s =>
    let fmt := b.val
    let addr := s.readS64 a
    let blk := s.curBlock
    let ts := spanTiles addr.toNat (imageBytes fmt)
    s.orElse (firstTrap [
      s.failIf (!mxFormat fmt) 0x02 fmt, s.failIf (2 * blk.accum ≤ d.val) 0x06 d.val,
      s.mxAddrCheck [(addr, imageBytes fmt)], s.mxTileCheck addr ts])
      (fun s => s.afterHandOver ts (fun s =>
        let x := tgetD blk.slots d.val {}
        (((s.takeTiles ts true).modBlock s.curBlockId (fun k => { k with slots := tset k.slots d.val { x with issued := some fmt } })).pushMx
          (.wload d.val addr.toNat fmt) ts).finish)))

/-- MMSYNC: stalls, without yielding, until the wave's queued commands have completed (R205). -/
def execMmsync (s : State) :=
  issueOp .mmsync s (fun s =>
    if s.activeMask = 0 || s.curWave.mxPending = 0 then s.finish else s.stall .retry)

/-! Execution (R198 to R204, R207, R210). -/

/-- Each tile a completed command names counts down, and a marked tile whose count reaches zero returns (R198). -/
def Block.returnTiles (ts : List Nat) (b : Block) : Block :=
  b.modTiles ts (fun x =>
    let c := x.count - 1
    if c = 0 && x.mark then { x with engine := false, phase := !x.phase, holder := .none, count := 0, mark := false }
    else { x with count := c })

/-- The head command of a core's queue, when its tiles are held by the matrix unit and the gap of R210 is over. (DEDUCED, log 33.) -/
def State.mxHead (s : State) (core : Nat) : Option MxCmd :=
  match (s.core core).mq with
  | [] => none
  | c :: _ =>
    let b := s.block c.block
    let held := c.tiles.all (fun t => (b.tile t).holder == .matrix)
    let gap := match c.op with
      | .mmd acc .. => (match tget? (s.core core).mmaEnd (c.block * 8 + acc) with
          | some t => decide (t + 8 ≤ s.clk)
          | none => true)
      | _ => true
    if held && gap then some c else none

/-- A command completes: its tiles count down and its wave has one fewer pending. -/
def State.completeMx (s : State) (core : Nat) (c : MxCmd) : State :=
  ((s.modCore core (fun k => { k with mq := k.mq.drop 1 })).modBlock c.block (Block.returnTiles c.tiles)).modWave c.wave
    (fun w => { w with mxPending := w.mxPending - 1 })

/-- MEM_POISON deferred to the wave of a command (R207). (DEDUCED, log 29.) -/
def State.mxPoison (s : State) (c : MxCmd) (faddr : Nat) : State :=
  s.defer c.wave { cause := 0x11, pc := c.pc, faddr := BitVec.ofNat 64 faddr, lane := 0xFF, iword := c.iword, lit := c.lit, bintodal := c.bintodal, deferred := true, origin := .matrix, issuedAt := c.enter }

/-- MMA_EXECUTE: the head MMA of a core accumulates (R73, R200, R207). (DESIGN CHOICE, log 65.) -/
def execMmaExecute (core : Nat) (s : State) : Host.Outcome State Fault Refusal :=
  match s.mxHead core with
  | some c =>
    match c.op with
    | .mma acc a afmt _ slot _ =>
      let b := s.block c.block
      let x := tgetD b.slots slot {}
      let key (i j : Nat) : Nat := acc * 1024 + 32 * i + j
      let cols := (List.range 32).map (fun j => (j, (List.range 128).map (fun k => x.bElem k j)))
      let elem (i : Nat) (row : List FVal) (c : Nat × List FVal) : Nat × Word :=
        (key i c.1, BitVec.ofNat 32 (accumulate (tgetD b.acc (key i c.1) 0).toNat (row.zipWith product c.2)))
      let cells := (List.range 32).flatMap (fun i => cols.map (elem i ((List.range 128).map (fun k => b.aElem a afmt i k))))
      let acc' := cells.foldl (fun t p => tset t p.1 p.2) b.acc
      let pa := b.poisoned a (aBytes afmt)
      let bad := pa.isSome || x.poison || b.accPoison.contains acc
      let s1 := s.modBlock c.block (fun k => { k with
        acc := acc', accPoison := if bad && !k.accPoison.contains acc then acc :: k.accPoison else k.accPoison })
      let s2 := if bad then s1.mxPoison c (pa.getD 0) else s1
      .next ((s2.completeMx core c).modCore core (fun k => { k with mmaEnd := tset k.mmaEnd (c.block * 8 + acc) s.clk }))
    | _ => .next s
  | none => .next s

/-- The elements of an accumulator tile set to +0. -/
def Block.zeroAcc (acc : Nat) (b : Block) : Block := { b with acc := b.acc.filter (fun p => p.1 / 1024 != acc) }

/-- MMZ_EXECUTE: the tile of the head MMZ becomes +0 and its poison mark is cleared (R202, R207). -/
def execMmzExecute (core : Nat) (s : State) : Host.Outcome State Fault Refusal :=
  match s.mxHead core with
  | some c =>
    match c.op with
    | .mmz acc =>
      .next ((s.modBlock c.block (fun b => { b.zeroAcc acc with accPoison := b.accPoison.filter (· != acc) })).completeMx core c)
    | _ => .next s
  | none => .next s

/-- One drained element as an f32 value (R202). -/
def drainElem (mode : RMode) (relu : Bool) (rs cs bias : Option Nat) (y : Nat) : FVal :=
  let r (v : FVal) : FVal := fDecode fmtF32 (fEncode fmtF32 mode false v)
  let f (x : Nat) : FVal := fDecode fmtF32 x
  let y0 := f y
  let y1 := match rs with | some x => r (fMul y0 (f x)) | none => y0
  let y2 := match cs with | some x => r (fMul y1 (f x)) | none => y1
  let y3 := match bias with | some x => r (fAdd mode y2 (f x)) | none => y2
  if relu && !y3.isNan && y3.neg then .fin false 0 0 else y3

/-- The bytes an MMD writes (R202). (DESIGN CHOICE, log 132.) -/
def drainBytes (t : EType) (mode : RMode) (sat : Bool) (y : Nat → Nat → FVal) : List Byte :=
  match etSx t with
  | some f => (List.range 32).flatMap (fun i => [0, 1].flatMap (fun h => sxPack f mode sat ((List.range 16).map (fun j => y i (16 * h + j)))))
  | none =>
    (List.range 32).flatMap (fun i => (List.range 32).flatMap (fun j => leBytes (etWidth t / 8) (match etFmt t with
      | some f => fEncode f mode sat (y i j)
      | none => cvtFloatInt t mode sat (y i j))))

/-- The granules of a span that starts at a multiple of 8. -/
def granules (a n : Nat) : List Nat := (List.range (n / 8)).map (fun i => a + 8 * i)

/-- MMD_EXECUTE: the head MMD drains its tile into the scratchpad (R202, R207, R210). (DEDUCED, log 31.) -/
def execMmdExecute (core : Nat) (s : State) : Host.Outcome State Fault Refusal :=
  match s.mxHead core with
  | some c =>
    match c.op with
    | .mmd acc dst m flag relu rs cs bias poison =>
      let b := s.block c.block
      let mode := modeRound m
      let y (i j : Nat) : FVal := drainElem mode relu (rs.map (fun v => v.getD i 0)) (cs.map (fun v => v.getD j 0))
        (bias.map (fun v => v.getD j 0)) (tgetD b.acc (acc * 1024 + 32 * i + j) 0).toNat
      let bytes := drainBytes (modeEtype m) mode (modeSat m) y
      let bad := poison || b.accPoison.contains acc
      let clean := clearGranules b.spoison dst bytes.length
      let s1 := s.modBlock c.block (fun k =>
        let k1 := { k with scratch := memPut k.scratch dst bytes, spoison := if bad then clean ++ granules dst bytes.length else clean }
        if flag then k1.zeroAcc acc else k1)
      .next (s1.completeMx core c)
    | _ => .next s
  | none => .next s

/-- WLOAD_EXECUTE: the image that BITMAP calls stored replaces the slot's, with its poison (R204). -/
def execWloadExecute (core : Nat) (s : State) : Host.Outcome State Fault Refusal :=
  match s.mxHead core with
  | some c =>
    match c.op with
    | .wload slot src fmt =>
      let b := s.block c.block
      let n := storedBytes fmt (memNat b.scratch src 8)
      let bytes := b.bytes src n
      let bad := (b.poisoned src n).isSome
      .next ((s.modBlock c.block (fun k =>
        { k with slots := tset k.slots slot { tgetD k.slots slot {} with fmt := fmt, bytes := bytes, poison := bad } })).completeMx core c)
    | _ => .next s
  | none => .next s

end Sys2Proof.Machine
end

