-- ==== Sys2Proof/Machine/Engine.lean ====
section
/-! DEFINITION. TOWN, TWAIT, the copy windows, GATHER, SPAWN and WSTAT: opcodes 0xCA, 0xCB, 0xE0 to 0xE4 and 0xED (R211
to R222, R231, R232, R236). -/
namespace Sys2Proof.Machine

/-- The scratchpad size that the issuing wave has: none for a spawned wave (R238). -/
def State.curSize (s : State) : Nat :=
  match s.curWave.block with
  | some b => (s.block b).size
  | none => 0

/-- A field of a record: `n` bytes from byte `o`. -/
def recField (bs : List Byte) (o n : Nat) : Nat := leNat ((bs.drop o).take n)

/-- The 64 bytes of a descriptor or record are read at issue (R213): MISALIGNED, translation, HOME_OFFLINE and
MEM_POISON come before any use of them. The read waits for the wave's earlier loads of the line and for the core's queued stores
to it (R269, R270). -/
def State.readRecord (s : State) (a : Dword) (k : State → List Byte → State) : State :=
  if a.toNat % 64 != 0 then s.trapHere (s.info 0x0B 0 a)
  else if s.inFrame a then s.trapHere (s.info 0x0D 0 a)
  else if s.held .global then s.stall .held
  else if s.acquiring s.curWave then s.stall .retry
  else match s.xlate s.curWave.core s.curWave.ctx a .read with
    | .error e => s.trapHere (s.info e.cause e.detail a)
    | .ok pa =>
      if (tvals s.curWave.loads).any (fun p => p.waitsOn pa) || (s.core s.curWave.core).queued pa then s.stall .retry
      else if s.homeLost pa && !s.findsCopy s.curWave.core s.curWave.ctx pa (s.lineUnits pa) s.plainClass.level then s.trapHere (s.info 0x16 0 a)
      else match (s.cacheXlate s.curWave.core s.curWave.ctx a).readLine s.curWave.core s.curWave.ctx pa (s.lineUnits pa) s.plainClass with
        | .notYet u => u.stall .retry
        | .yes v u => if v.bad.isEmpty then k u v.bytes else u.trapHere (u.info 0x11 0 a)

/-- The detail of ILLEGAL_STATE (R371). -/
def State.maskDetail (s : State) : Nat := s.curSplit.mask.toNat

/-! Tile hand-over (R214, R215). -/

/-- The checks of TOWN before the ownership of the tiles. -/
def State.townCheck (s : State) (a b : Dword) : Option TrapInfo :=
  if a.toNat % 8192 != 0 then some (s.info 0x0B 0 a)
  else if b.toNat = 0 || 48 < b.toNat then some (s.info 0x01 0)
  else if s.curSize < a.toNat + 8192 * b.toNat then some (s.info 0x0F 0 a)
  else none

/-- The tiles a TOWN names. -/
def townTiles (a b : Dword) : List Nat := (List.range b.toNat).map (fun i => a.toNat / 8192 + i)

/-- `town give`: THREAD tiles become ENGINE-owned and held by no engine, a release at core scope. -/
def execTownGive (a b : SSrc) (s : State) :=
  issueOp (.townGive a b) s (fun s =>
    let av := s.readS64 a
    let ts := townTiles av (s.readS64 b)
    if s.activeMask = 0 then s.finishYield
    else s.orElse (s.townCheck av (s.readS64 b)) (fun s =>
      match ts.find? (fun t => (s.curBlock.tile t).engine) with
      | some t => s.trapHere (s.info 0x0E t av)
      | none =>
        match s.gate 1 true false with
        | some u => u.passCur
        | none => ((s.released s.curWave.core 1).modTiles s.curBlockId ts (fun t => { t with engine := true, holder := .none })).finishYield))

/-- `town take`: ENGINE tiles that no engine holds become THREAD-owned, an acquire at core scope. -/
def execTownTake (a b : SSrc) (s : State) :=
  issueOp (.townTake a b) s (fun s =>
    let av := s.readS64 a
    let ts := townTiles av (s.readS64 b)
    if s.activeMask = 0 then s.finishYield
    else s.orElse (s.townCheck av (s.readS64 b)) (fun s =>
      match ts.find? (fun t => !(s.curBlock.tile t).offered) with
      | some t => s.trapHere (s.info 0x0E t av)
      | none => (s.modTiles s.curBlockId ts (fun t => { t with engine := false })).finishYield))

/-- TWAIT ends if the tile is in the state named, and sleeps otherwise. -/
def State.twaitRead (s : State) (d : SDst) (tile expect : Nat) (now : Bool) : State :=
  let t := s.curBlock.tile tile
  if now || (t.engine == expect.testBit 1 && t.phase == expect.testBit 0) then
    (s.putS d (BitVec.ofNat 64 (t.word s.curWave.ctx))).finishYield
  else s.sleepYield (.twait tile expect)

/-- TWAIT: sleeps until the tile is in the state B names, or reads it at once under NOWAIT. -/
def execTwait (d : SDst) (a b : SSrc) (s : State) :=
  issueOp (.twait d a b) s (fun s =>
    match s.curSplit.wait with
    | some (.twait tile expect) => s.twaitRead d tile expect false
    | _ =>
      let av := (s.readS64 a).toNat
      let bv := (s.readS64 b).toNat
      if s.activeMask = 0 then (s.putS d 0).finishYield
      else if s.curSize ≤ av then s.trapHere (s.info 0x0F 0 (s.readS64 a))
      else s.twaitRead d (av / 8192) (bv % 4) (bv.testBit 2))

/-! Copy windows (R216 to R222). -/

/-- A flag address is none or a multiple of 4. -/
def flagOk (a : Nat) : Bool := a == 0xFFFFFFFF || a % 4 == 0

/-- The window descriptor of 64 bytes, none outside its limits (R216). -/
def parseWindow (bs : List Byte) : Option WinDesc :=
  let f := recField bs
  let ok := f 0 8 % 4 == 0 && f 8 4 % 4 == 0 && 4 ≤ f 8 4 && f 8 4 ≤ 65532 && 1 ≤ f 12 2 && 1 ≤ f 14 2 && f 16 8 % 4 == 0 &&
    f 24 8 % 4 == 0 && f 32 4 % 8192 == 0 && 1 ≤ f 36 1 && f 36 1 ≤ 8 && f 37 1 == 0 && f 38 2 < 2 ^ 15 && flagOk (f 40 4) &&
    f 48 16 == 0 && f 8 4 * f 12 2 * f 14 2 ≤ f 36 1 * 8192
  if ok then some
    { base := BitVec.ofNat 64 (f 0 8), rowb := f 8 4, n1 := f 12 2, n2 := f 14 2, stride1 := BitVec.ofNat 64 (f 16 8),
      stride2 := BitVec.ofNat 64 (f 24 8), dest := f 32 4, tiles := f 36 1, mcast := f 38 2, flagAddr := noneIfOnes (f 40 4),
      flagVal := BitVec.ofNat 32 (f 44 4) }
  else none

/-- A tile goes back to the threads without an engine's completion. -/
def Tile.handBack (t : Tile) : Tile := { t with engine := false, holder := .none }

/-- The tiles of a window's binding that the copy engine holds for it go back to the threads, but for those listed. -/
def State.dropBinding (s : State) (b w : Nat) (keep : List Nat) : State :=
  let ts := ((s.block b).window w).desc.span.filter (fun t =>
    ((s.block b).tile t).holder == .copy w && !keep.contains t)
  s.modTiles b ts Tile.handBack

/-- The window takes its new binding. -/
def State.bindWindow (s : State) (b w : Nat) (d : WinDesc) : State :=
  let s1 := if ((s.block b).window w).st == .absent then s.dropBinding b w d.span else s
  (s1.modTiles b d.span (fun t => { t with engine := true, holder := .copy w })).modWindow b w
    (fun x => { x with st := .absent, desc := d, bound := true })

/-- WBIND: the checks of R218, then the binding; a THREAD tile among the destination makes it a release at core scope. -/
def execWbind (d : Fin 16) (a : SSrc) (s : State) :=
  issueOp (.wbind d a) s (fun s =>
    if s.activeMask = 0 then s.finish
    else s.readRecord (s.readS64 a) (fun s bs =>
      match parseWindow bs with
      | none => s.trapHere (s.info 0x01 0)
      | some wd =>
        let x := s.curBlock.window d.val
        let held (t : Nat) : Bool :=
          let y := s.curBlock.tile t
          y.engine && y.holder != .none && !(y.holder == .copy d.val && x.st == .absent)
        if x.st == .inflight || x.st == .stalled then s.trapHere (s.info 0x04 s.maskDetail)
        else if s.curSize < wd.dest + wd.tiles * 8192 then s.trapHere (s.info 0x0F 0 (BitVec.ofNat 64 wd.dest))
        else if wd.flagAddr.any (fun f => s.curSize ≤ f) then
          s.trapHere (s.info 0x0F 0 (BitVec.ofNat 64 (wd.flagAddr.getD 0)))
        else match wd.span.find? held with
          | some t => s.trapHere (s.info 0x0E t (BitVec.ofNat 64 wd.dest))
          | none =>
            s.afterTaking wd.span (fun s => (s.bindWindow s.curBlockId d.val wd).finish)))

/-- WTOUCH: the copy of an ABSENT window starts; the wave waits for no copy, but for an acquire load of its own (R278). -/
def execWtouch (b : Fin 16) (s : State) :=
  issueOp (.wtouch b) s (fun s =>
    if s.activeMask = 0 then s.finish
    else if (s.curBlock.window b.val).st == .free then s.trapHere (s.info 0x04 s.maskDetail)
    else if s.acquiring s.curWave then s.stall .retry
    else if !s.curWave.loads.isEmpty then s.stall .loads
    else (s.touch s.curBlockId b.val).finish)

/-- WUNBIND. -/
def execWunbind (b : Fin 16) (s : State) :=
  issueOp (.wunbind b) s (fun s =>
    if s.activeMask = 0 then s.finish
    else
      let free (x : Window) : Window := { x with st := .free }
      match (s.curBlock.window b.val).st with
      | .free => s.finish
      | .absent => ((s.dropBinding s.curBlockId b.val []).modWindow s.curBlockId b.val free).finish
      | .present => (s.modWindow s.curBlockId b.val free).finish
      | _ => s.trapHere (s.info 0x04 s.maskDetail))

/-- The code of a window's state (R222). -/
def WinState.code : WinState → Nat
  | .free => 0 | .absent => 1 | .inflight => 2 | .present => 3 | .stalled => 4

/-- The word of WSTAT. -/
def Window.word (x : Window) : Nat :=
  x.st.code + x.last * 256 + (if x.bound then x.desc.dest / 8192 * 2 ^ 16 + (x.desc.tiles - 1) * 2 ^ 24 else 0)

/-- WSTAT. -/
def execWstat (d : SDst) (b : Fin 16) (s : State) :=
  issueOp (.wstat d b) s (fun s => (s.putS d (BitVec.ofNat 64 (s.curBlock.window b.val).word)).finish)

/-! GATHER (R231, R232). -/

/-- The operation a descriptor's MODE names. -/
def gatherOp : Nat → Option GatherOp
  | 0 => some .gather | 1 => some .bag | 2 => some .scatter | _ => none

/-- The gather descriptor of 64 bytes, none outside its limits. -/
def parseGather (bs : List Byte) : Option GatherCmd :=
  let f := recField bs
  let m := f 34 1
  match gatherOp (m % 4) with
  | none => none
  | some op =>
    let ok := f 0 8 % (if m.testBit 2 then 8 else 4) == 0 && f 8 8 % 64 == 0 && (op != .bag || f 16 8 % 4 == 0) &&
      f 32 2 % 64 == 0 && 64 ≤ f 32 2 && f 32 2 ≤ 4096 && m < 16 && f 35 1 == 0 && f 36 4 % 64 == 0 && flagOk (f 40 4) &&
      f 48 16 == 0
    if ok then some
      { idx := BitVec.ofNat 64 (f 0 8), table := BitVec.ofNat 64 (f 8 8), offs := BitVec.ofNat 64 (f 16 8), trows := f 24 4,
        count := f 28 2, nseg := f 30 2, rowb := f 32 2, op := op, idx64 := m.testBit 2, stopOor := m.testBit 3,
        spad := f 36 4, flagAddr := noneIfOnes (f 40 4), flagVal := BitVec.ofNat 32 (f 44 4) }
    else none

/-- The bytes of scratchpad that a gather command spans. -/
def GatherCmd.spanBytes (c : GatherCmd) : Nat := (match c.op with | .bag => c.nseg | _ => c.count) * c.rowb
/-- The tiles that a gather command holds. -/
def GatherCmd.tiles (c : GatherCmd) : List Nat := spanTiles c.spad c.spanBytes

/-- GATHER: the command takes its tiles and enters the queue of its cluster's gather engine; it stalls while the queue is full, and
until the wave's earlier loads have returned (R269, R278). (DESIGN CHOICE, log 153.) -/
def execGather (a : SSrc) (s : State) :=
  issueOp (.gather a) s (fun s =>
    if s.activeMask = 0 then s.finish
    else s.readRecord (s.readS64 a) (fun s bs =>
      match parseGather bs with
      | none => s.trapHere (s.info 0x01 0)
      | some c =>
        let w := s.curWave
        if s.curSize < c.spad + c.spanBytes then s.trapHere (s.info 0x0F 0 (BitVec.ofNat 64 c.spad))
        else if c.flagAddr.any (fun f => s.curSize ≤ f) then
          s.trapHere (s.info 0x0F 0 (BitVec.ofNat 64 (c.flagAddr.getD 0)))
        else match c.tiles.find? (fun t => !(s.curBlock.tile t).offered) with
          | some t => s.trapHere (s.info 0x0E t (BitVec.ofNat 64 c.spad))
          | none =>
            if 16 ≤ (s.cluster (clusterOf w.core)).gather.length then s.stall .retry
            else if !w.loads.isEmpty then s.stall .loads
            else
              let c1 : GatherCmd := { c with
                wave := s.issue.wave, block := s.curBlockId, ctx := w.ctx, pc := s.issue.pc, iword := s.issue.iword,
                lit := s.issue.lit, bintodal := s.issue.form == .bintodal, seq := s.clk, entered := s.clk, mark := (s.core w.core).nextWrite }
              (((s.modTiles s.curBlockId c.tiles (fun t => { t with holder := .gather })).modCluster (clusterOf w.core)
                (fun g => { g with gather := g.gather ++ [c1] })).modCur (fun v => { v with engPending := v.engPending + 1 })).finish))

/-! SPAWN (R236). -/

/-- A split of a cluster stalls until a bin is empty, and takes it then (R236). -/
def State.binAwaited (s : State) (g k : Nat) : Bool :=
  (tvals s.waves).any (fun w => clusterOf w.core = g && (tvals w.splits).any (fun sp => sp.wait == some (.bin k)))

/-- The bin a thread enters: one with its key and room, else the lowest empty one that no stalled SPAWN has been promised. -/
def Cluster.binFor (c : Cluster) (key : Dword) (launch : Nat) (awaited : Nat → Bool) : Option Nat :=
  let bin (k : Nat) : Bin := tgetD c.bins k {}
  match (List.range 8).find? (fun k =>
      let b := bin k
      !b.threads.isEmpty && b.key == key && b.launch = launch && b.threads.length < 32 && !b.launching) with
  | some k => some k
  | none => (List.range 8).find? (fun k => (bin k).threads.isEmpty && !awaited k)

/-- The bin whose first thread is oldest. -/
def Cluster.oldestBin (c : Cluster) : Nat :=
  ((List.range 7).map (· + 1)).foldl (fun k j => if (tgetD c.bins j {}).since < (tgetD c.bins k {}).since then j else k) 0

/-- A thread enters a bin: an empty one takes its key and starts its timer, a full one launches. -/
def Bin.enter (b : Bin) (key : Dword) (launch ctx clk deadline : Nat) (t : Word × Word) (src : Nat × Nat) : Bin :=
  let b1 : Bin := if b.threads.isEmpty then { key := key, launch := launch, ctx := ctx, since := clk, deadline := deadline } else b
  let ts := b1.threads ++ [t]
  { b1 with threads := ts, launching := decide (32 ≤ ts.length), sources := (b1.sources ++ [src]).dedup }

/-- The timer period of a context in ns (R345). -/
def Context.spawnPeriod (c : Context) : Nat := max 1 (c.spawntmr.toNat % 2 ^ 16)

/-- A thread of SPAWN enters a bin of the cluster. -/
def State.enterBin (s : State) (k : Nat) (key arg : Dword) : State :=
  let w := s.curWave
  let t : Word × Word := (arg.setWidth 32, arg.extractLsb' 32 32)
  let s1 := s.released w.core 2
  let src : Nat × Nat := (w.core, (s1.core w.core).epoch)
  let enter (x : Bin) : Bin := x.enter key (w.launch.getD 0) w.ctx s.clk (s.timeNs + s.curCtx.spawnPeriod) t src
  (s1.modCluster (clusterOf w.core) (fun c => { c with bins := tset c.bins k (enter (tgetD c.bins k {})) })).finish

/-- SPAWN: one thread enters the bins of the cluster, as a release at cluster scope; with no bin for it, the oldest one is
flushed, and the wave stalls until that bin is empty and enters it. (DEDUCED, log 20.) -/
def execSpawn (a b : SSrc) (s : State) :=
  issueOp (.spawn a b) s (fun s =>
    let key := s.readS64 a
    let w := s.curWave
    let g := clusterOf w.core
    if s.activeMask = 0 then s.finish
    else if key.toNat % 4 != 0 then s.trapHere (s.info 0x0B 0)
    else if 2 ^ 55 ≤ key.toNat then s.trapHere (s.info 0x01 0)
    else match w.split.wait with
      | some (.bin k) =>
        if (tgetD (s.cluster g).bins k {}).threads.isEmpty then s.enterBin k key (s.readS64 b) else s.stall (.bin k)
      | _ => match s.gate 2 true false with
        | some u => u
        | none => match (s.cluster g).binFor key (w.launch.getD 0) (s.binAwaited g) with
          | some k => s.enterBin k key (s.readS64 b)
          | none =>
            let k := (s.cluster g).oldestBin
            (s.modCluster g (fun c => { c with bins := tmodify c.bins k (fun x => { x with launching := true }) })).stall (.bin k))

end Sys2Proof.Machine
end

