-- ==== Sys2Proof/Machine/Decant.lean ====
section
/-! DEFINITION. Decant counters, opcodes 0xE5 to 0xEA (R242 to R259): the record, what a slice and a home do, and the
instructions. An operation is filed with the slice beneath its wave's cluster, and its wave stalls until it is done. -/
namespace Sys2Proof.Machine

/-- MAX of R242. -/
def decantMax : Nat := 2 ^ 48 - 1

/-! The record (R243). -/

/-- RESERVE. -/
def State.reserve (s : State) (r : Nat) : Nat := memNat s.mem (r + 8) 6
/-- CAP. -/
def State.cap (s : State) (r : Nat) : Nat := memNat s.mem (r + 16) 5
/-- STATE. -/
def State.recordState (s : State) (r : Nat) : Nat := memNat s.mem (r + 4) 1
/-- The image changes at its home; every copy of its line goes (R244). -/
def State.setImage (s : State) (a : Nat) (bs : List Byte) : State := (s.memWrite a bs).publishLine (lineOf a)
/-- RESERVE changes. -/
def State.setReserve (s : State) (r v : Nat) : State := s.setImage (r + 8) (leBytes 6 v)

/-- The counter of a record in its home table. -/
def State.counter (s : State) (r : Nat) : Option HomeCounter := tget? (s.cluster (homeSlice r)).counters r
/-- Change a counter in its home table. -/
def State.modCounter (s : State) (r : Nat) (f : HomeCounter → HomeCounter) : State :=
  s.modCluster (homeSlice r) (fun c => { c with counters := tmodify c.counters r f })

/-- The detail with which an operation other than DCINIT on a record that is not live traps (R244, R250). -/
def State.deadDetail (s : State) (r : Nat) : Nat :=
  if memNat s.mem r 4 = 0xDC000001 && s.recordState r = 0 then 2 else 1

/-- A result (R248). -/
def decantResult (value status : Nat) : Dword := BitVec.ofNat 64 (value % 2 ^ 48 + status * 2 ^ 56)

/-- The status of an exact read (R252). -/
def State.readStatus (s : State) (r : Nat) : Nat := if s.recordState r = 2 then 3 else 0

/-- The units of grants and serves on their way to slices, and those of a SERVE whose takes found other units, on their way home
from a slice that the home does not count otherwise (R252, R253). -/
def State.travelling (s : State) (r : Nat) : Nat :=
  let c := (s.counter r).getD {}
  (s.net.map (fun i => match i with
    | .decantGrant q _ n => if q = r then n else 0
    | .decantServe q _ n => if q = r then n else 0
    | .decantReturn q g n => if q = r && (tget? c.active g).isNone && !c.part.any (fun p => p.1 == g) then n else 0
    | _ => 0)).foldl (· + ·) 0

/-! The slice (R245, R257). -/

/-- What a slice keeps of a counter. -/
def State.allowance (s : State) (g r : Nat) : AllowEntry := tgetD (s.cluster g).allow r {}
/-- Change what a slice keeps of a counter. -/
def State.setAllowance (s : State) (g r : Nat) (e : AllowEntry) : State :=
  s.modCluster g (fun c => { c with allow :=
    if e.held || !e.waiters.isEmpty || e.req || !e.later.isEmpty then tset c.allow r { e with used := s.clk } else tdel c.allow r })

/-- An operation is done. -/
def State.decantDone (s : State) (op : Nat) (lo hi : Dword) : State :=
  { s with decants := tmodify s.decants op (fun d => { d with done := true, lo := lo, hi := hi }) }

/-- n of an operation. -/
def State.decantN (s : State) (op : Nat) : Nat := (tgetD s.decants op {}).n

/-- Takes in order from some units while the oldest fits: those served, the others, and the units left. -/
def State.serveTakes (s : State) : List Nat → Nat → List Nat × List Nat × Nat
  | [], a => ([], [], a)
  | op :: ops, a =>
    if s.decantN op ≤ a then
      let (ys, ns, b) := State.serveTakes s ops (a - s.decantN op)
      (op :: ys, ns, b)
    else ([], op :: ops, a)

/-- Takes in order from some units, each that does not fit failing: those served, those that fail, and the units left. -/
def State.serveEach (s : State) : List Nat → Nat → List Nat × List Nat × Nat
  | [], a => ([], [], a)
  | op :: ops, a =>
    if s.decantN op ≤ a then
      let (ys, ns, b) := State.serveEach s ops (a - s.decantN op)
      (op :: ys, ns, b)
    else
      let (ys, ns, b) := State.serveEach s ops a
      (ys, op :: ns, b)

/-- Takes complete with OK, or with EMPTY. -/
def State.takesDone (s : State) (ops : List Nat) (ok : Bool) : State :=
  ops.foldl (fun (u : State) op => u.decantDone op (if ok then decantResult (u.decantN op) 0 else decantResult 0 1) 0) s

/-- A REQ for the waiting takes of a slice, when some wait and none is outstanding. -/
def State.ask (s : State) (g r : Nat) : State :=
  let e := s.allowance g r
  match e.waiters with
  | [] => s
  | op :: _ =>
    if e.req then s
    else
      let sum := min decantMax ((e.waiters.map s.decantN).foldl (· + ·) 0)
      (s.setAllowance g r { e with req := true, sum := sum, first := op }).send (.decantReq r g sum (s.decantN op))

/-- serve_waiters from the entry's allowance. -/
def State.serveWaiters (s : State) (g r : Nat) : State :=
  let e := s.allowance g r
  let (ys, ns, a) := s.serveTakes e.waiters e.a
  (s.takesDone ys true).setAllowance g r { e with waiters := ns, a := a }

/-- A GIVE, a RETURN or a read of a slice is on its way to the home of a counter, waits there, or is being answered (R256). -/
def State.outstandingAt (s : State) (g r : Nat) : Bool :=
  s.net.any (fun i => match i with
    | .decantGiveMsg q h _ _ | .decantReturn q h _ | .decantReadAtHome q h _ _ => q == r && h == g
    | .decantStatusReply q h op _ _ _ => q == r && h == g && (tgetD s.decants op {}).kind != 0
    | _ => false) ||
    ((s.counter r).getD {}).queue.any (fun m => match m with
      | .req _ _ _ => false
      | .give h _ _ | .read h _ _ => h == g)

/-- An operation that its home must perform is sent there, or waits until the slice's last one has been answered. -/
def State.toHome (s : State) (g r op : Nat) (m : Instr) : State :=
  let e := s.allowance g r
  if s.outstandingAt g r || !e.later.isEmpty then s.setAllowance g r { e with later := e.later ++ [op] } else s.send m

/-- The slice takes up an operation of its cluster. -/
def State.submit (s : State) (op : Nat) (d : DecantOp) : State :=
  let g := d.cluster
  let r := d.record
  let e := s.allowance g r
  match d.kind with
  | 0 =>
    if e.waiters.isEmpty && e.held && d.n ≤ e.a then
      (s.setAllowance g r { e with a := e.a - d.n }).decantDone op (decantResult d.n 0) 0
    else (s.setAllowance g r { e with waiters := e.waiters ++ [op] }).ask g r
  | 1 =>
    if e.held && e.a + d.n ≤ s.cap r then
      ((s.setAllowance g r { e with a := e.a + d.n }).serveWaiters g r).decantDone op (decantResult d.n 0) 0
    else s.toHome g r op (.decantGiveMsg r g d.n op)
  | 2 => s.toHome g r op (.decantReadAtHome r g .read op)
  | 3 => s.toHome g r op (.decantReadAtHome r g .exact op)
  | _ => s.toHome g r op (.decantReadAtHome r g .drop op)

/-- The slice goes on with the operations that waited for its last message to be answered, while none is outstanding; `n` bounds
their number. -/
def State.pumpOn (s : State) (g r : Nat) : Nat → State
  | 0 => s
  | n + 1 =>
    let e := s.allowance g r
    match e.later with
    | [] => s
    | op :: ops =>
      if s.outstandingAt g r then s
      else
        let s1 := (s.setAllowance g r { e with later := [] }).submit op (tgetD s.decants op {})
        let e1 := s1.allowance g r
        (s1.setAllowance g r { e1 with later := e1.later ++ ops }).pumpOn g r n

/-- See `pumpOn`. -/
def State.pump (s : State) (g r : Nat) : State := s.pumpOn g r (s.allowance g r).later.length

/-- Every slice goes on with what waited in it. -/
def State.pumpAll (s : State) : State :=
  s.clusters.foldl (fun (u : State) p => (p.2.allow.filter (fun q => !q.2.later.isEmpty)).foldl (fun (u : State) q => u.pump p.1 q.1) u) s

/-- A slice's entry of a counter goes home as RETURN (R245, R261). -/
def State.returnEntry (s : State) (g r : Nat) : State :=
  let e := s.allowance g r
  if e.held then (s.setAllowance g r { e with held := false, a := 0 }).send (.decantReturn r g e.a) else s

/-- Room for one more entry in a slice: the least recently used one without waiting operations and without an outstanding request
goes home when all 512 are taken; none if every entry has some. (DEDUCED, log 55.) -/
def State.makeRoom (s : State) (g : Nat) : Option State :=
  let held : Tbl AllowEntry := (s.cluster g).allow.filter (fun p => p.2.held)
  if held.length < 512 then some s
  else
    match (held.filter (fun p => p.2.waiters.isEmpty && p.2.later.isEmpty && !p.2.req && !s.outstandingAt g p.1)).foldl (fun (b : Option (Nat × Nat)) p => match b with
        | some q => if q.2 ≤ p.2.used then b else some (p.1, p.2.used)
        | none => some (p.1, p.2.used)) none with
    | some p => some (s.returnEntry g p.1)
    | none => none

/-! The home (R258, R259). -/

/-- The demand counts after a REQ of a slice (R259). -/
def demand (t : Tbl Nat) (g sum : Nat) : Tbl Nat :=
  let t1 := tset t g (min (2 ^ 32 - 1) (tgetD t g 0 + sum))
  if (tvals t1).any (fun d => decide (2 ^ 31 ≤ d)) then tmap t1 (· / 2) else t1

/-- The units of a GRANT (R259); `act` are the active slices with the requester. (DESIGN CHOICE, log 156.) -/
def grantUnits (act : Tbl Nat) (g sum reserve cap : Nat) : Nat :=
  let all := (tvals act).foldl (· + ·) 0
  let base := reserve * tgetD act g 0 / all
  let base := if 2 ≤ act.length then min base (max sum (reserve / 2)) else base
  max sum (min base (sum + cap))

/-- The invariant of R258 with `k` active slices and RESERVE at `v`. -/
def State.keeps (s : State) (r v k : Nat) : Bool :=
  let part := match s.counter r with | some c => (c.part.map Prod.snd).getD 0 | none => 0
  v + s.travelling r + part + s.cap r * k ≤ decantMax

/-- OUT of R253. -/
def State.outUnits (s : State) (r : Nat) (c : HomeCounter) : Nat :=
  s.cap r * c.active.length + s.travelling r + (c.part.map Prod.snd).getD 0

/-- The reply to a DCREAD. -/
def State.replyRead (s : State) (r g op : Nat) (c : HomeCounter) : State :=
  let v := s.reserve r
  s.send (.decantStatusReply r g op v (decantResult (min decantMax (v + s.outUnits r c)) (s.readStatus r)) 0)

/-- A message leaves the head of a counter's queue. -/
def State.popHome (s : State) (r : Nat) (m : HomeMode) : State := s.modCounter r (fun c => { c with queue := c.queue.drop 1, mode := m })

/-- RECALL goes to every active slice. -/
def State.startRecall (s : State) (r : Nat) (c : HomeCounter) : State :=
  (tkeys c.active).foldl (fun (u : State) g => u.send (.decantRecall r g))
    (s.modCounter r (fun c => { c with mode := .recalling, recallFrom := tkeys c.active }))

/-- DCDROP at the home (R254): the image is FREE with its final value; on a lost die the write-back is discarded and the
operation ends in HOME_OFFLINE (R415). -/
def State.dropCounter (s : State) (r g op : Nat) : State :=
  let v := s.reserve r
  let st := s.readStatus r
  let reply : Instr := if s.homeLost r then .decantStatusReply r g op 0 0 0x16 else .decantStatusReply r g op (decantResult v st).toNat 0 0
  ((s.send reply).decantRetire r 0x13 2).setImage (r + 4) [0x00]

/-- The take that a slice's outstanding REQ names as FIRST. (DEDUCED, log 57.) -/
def State.firstTake (s : State) (g r : Nat) : Nat := (s.allowance g r).first

/-- The head of a counter's queue served as in DIRECT; none if nothing is served before a RETURN. -/
def State.serveDirect (s : State) (r : Nat) (m : HomeMsg) : State :=
  let v := s.reserve r
  match m with
  | .req g sum first =>
    if sum ≤ v then ((s.popHome r .direct).setReserve r (v - sum)).send (.decantServe r g sum)
    else if first ≤ v then
      (((s.popHome r .direct).modCounter r (fun c => { c with part := some (g, v) })).setReserve r 0).send (.decantServe r g v)
    else (s.popHome r .direct).send (.decantStatusReply r g (s.firstTake g r) (decantResult 0 1).toNat 0 0)
  | .give g n op =>
    let w := min (v + n) decantMax
    ((s.popHome r .direct).setReserve r w).send
      (.decantStatusReply r g op (decantResult (w - v) (if w < v + n then 2 else 0)).toNat 0 0)
  | .read g .read op => (s.popHome r .direct).replyRead r g op ((s.counter r).getD {})
  | .read g .exact op => (s.popHome r .direct).send (.decantStatusReply r g op (decantResult v (s.readStatus r)).toNat 0 0)
  | .read g .drop op => (s.popHome r .direct).dropCounter r g op

/-- The head of a counter's queue in NORMAL. -/
def State.serveNormal (s : State) (r : Nat) (c : HomeCounter) (m : HomeMsg) : State :=
  let v := s.reserve r
  let quiet := c.active.isEmpty && s.travelling r = 0
  let recall_ : State := if quiet then s.serveDirect r m else if c.active.isEmpty then s else s.startRecall r c
  match m with
  | .req g sum _ =>
    if sum ≤ v then
      let act := demand c.active g sum
      if s.keeps r v act.length then
        let n := grantUnits act g sum v (s.cap r)
        (((s.popHome r .normal).modCounter r (fun c => { c with active := act })).setReserve r (v - n)).send (.decantGrant r g n)
      else ((s.popHome r .normal).setReserve r (v - sum)).send (.decantServe r g sum)
    else recall_
  | .give g n op =>
    if s.keeps r (v + n) c.active.length then
      ((s.popHome r .normal).setReserve r (v + n)).send (.decantStatusReply r g op (decantResult n 0).toNat 0 0)
    else recall_
  | .read g .read op => (s.popHome r .normal).replyRead r g op c
  | .read _ _ _ => recall_

/-- The home serves what it can of a counter's queue. (DEDUCED, log 135.) -/
def State.serveHome (s : State) (r : Nat) : Nat → State
  | 0 => s
  | n + 1 =>
    match s.counter r with
    | none => s
    | some c =>
      match c.queue, c.mode with
      | [], .direct => s.modCounter r (fun c => { c with mode := if c.part.isSome then .direct else .normal })
      | [], _ => s
      | _ :: _, .recalling => s
      | m :: _, .direct =>
        if c.part.isSome || s.travelling r != 0 then s
        else (s.serveDirect r m).serveHome r n
      | m :: ms, .normal =>
        let s1 := s.serveNormal r c m
        match s1.counter r with
        | some c1 => if c1.queue.length < (m :: ms).length then s1.serveHome r n else s1
        | none => s1

/-- The home serves a counter's queue. -/
def State.runHome (s : State) (r : Nat) : State :=
  match s.counter r with
  | some c => s.serveHome r (2 * c.queue.length + 2)
  | none => s

/-- A message reaches the home of a counter: it joins the queue, or a counter that is not live answers with its fault. -/
def State.atHome (s : State) (r g op : Nat) (m : HomeMsg) : State :=
  match s.counter r with
  | some _ => (s.modCounter r (fun c => { c with queue := c.queue ++ [m] })).runHome r
  | none => s.send (.decantStatusReply r g op 0 0 (if s.homeLost r then 0x16 else s.deadDetail r))

/-- Units come back from a slice, whose entry ends (R258); the last answer of a recall lets the head be served as in
DIRECT. -/
def State.unitsHome (s : State) (r g units : Nat) : State :=
  match s.counter r with
  | none => s
  | some c =>
    let from_ := c.recallFrom.filter (fun x => x != g)
    let c1 : HomeCounter := { c with
      active := tdel c.active g, recallFrom := from_, part := if c.part.any (fun p => p.1 == g) then none else c.part,
      mode := if c.mode == .recalling && from_.isEmpty then .direct else c.mode }
    ((s.setReserve r (s.reserve r + units)).modCounter r (fun _ => c1)).runHome r

/-! The instructions (R246 to R252). -/

/-- Checks 1 to 4 of R250, with the physical address of the record. -/
def State.decantCheck (s : State) (a : Dword) (bad : Bool) : Except TrapInfo Nat :=
  if a.toNat % 64 != 0 then .error (s.info 0x0B 0 a)
  else if s.inFrame a then .error (s.info 0x0D 32 a)
  else match s.xlate s.curWave.core s.curWave.ctx a .rmw with
    | .error e => .error (s.info e.cause e.detail a)
    | .ok r =>
      if bad then .error (s.info 0x13 4 a)
      else if s.lostStacks.contains (homeStack r) || (s.homeLost r && (s.counter r).isNone) then .error (s.info 0x16 0 a)
      else .ok r

/-- A decant operation waits for the wave's earlier loads, and as a release for its earlier writes at package scope; a DCREAD is a
load, and no release (R249, R255). -/
def State.decantGate (s : State) (writes : Bool) (k : State → State) : State :=
  if s.acquiring s.curWave then s.stall .retry
  else if !s.curWave.loads.isEmpty then s.stall .loads
  else if writes && modeOrd s.issue.mode ≥ 2 then
    match s.gate 6 true false with
    | some u => u
    | none => k (s.released s.curWave.core 6)
  else k s

/-- An operation is issued: it is filed with the slice, and the wave stalls at the instruction. It is a read-modify-write of the
record (R249, R271), so it comes after the stores to the record's line that its core has queued (R268). -/
def State.issueDecant (s : State) (a : Dword) (kind n : Nat) : State :=
  match s.decantCheck a (decide (decantMax < n)) with
  | .error t => s.trapHere t
  | .ok r =>
    if (s.core s.curWave.core).queued (lineOf r) then s.stall .retry
    else s.decantGate (kind != 2) (fun s =>
      let op := s.nextDecant
      let d : DecantOp := { wave := s.issue.wave, kind := kind, n := n, cluster := clusterOf s.curWave.core, record := r, va := a, entered := s.clk }
      ((({ s with decants := tset s.decants op d, nextDecant := op + 1 } : State).cacheXlate s.curWave.core s.curWave.ctx a).submit op d).stall (.decant op))

/-- The flow of a decant operation: issue, stall, and the end with its result or its trap. -/
def State.decantFlow (s : State) (a : Dword) (kind n : Nat) (empty : State) (put : Dword → Dword → State → State) : State :=
  if s.activeMask = 0 then empty.finish
  else match s.curSplit.wait with
    | some (.decant op) =>
      match tget? s.decants op with
      | none => s.issueDecant a kind n
      | some d =>
        let s1 : State := { s with decants := tdel s.decants op }
        if !d.done then s
        else match d.trap with
          | some (cause, detail) => s1.trapHere (s1.info cause detail d.va)
          | none => (put d.lo d.hi s1).finish
    | _ => s.issueDecant a kind n

def execDctake (d : SDst) (a b : SSrc) (s : State) :=
  issueOp (.dctake d a b) s (fun s =>
    s.decantFlow (s.readS64 a) 0 (s.readS64 b).toNat (s.putS d 0) (fun lo _ s => s.putS d lo))
def execDcgive (d : SDst) (a b : SSrc) (s : State) :=
  issueOp (.dcgive d a b) s (fun s =>
    s.decantFlow (s.readS64 a) 1 (s.readS64 b).toNat (s.putS d 0) (fun lo _ s => s.putS d lo))
/-- DCREAD: the bounds go to s[d] and s[d + 1], and L0 holds the new s[d]. -/
def execDcread (d : Fin 32) (a : SSrc) (s : State) :=
  issueOp (.dcread d a) s (fun s =>
    let lo : SDst := .reg ⟨2 * d.val, by omega⟩
    s.decantFlow (s.readS64 a) 2 0 (s.putS lo 0) (fun l u s =>
      (s.putS lo l).modCur (fun w => { w with sregs := tset w.sregs (2 * d.val + 1) u, struck := mendS (2 * d.val + 1) w.struck })))
def execDcreadx (d : SDst) (a : SSrc) (s : State) :=
  issueOp (.dcreadx d a) s (fun s => s.decantFlow (s.readS64 a) 3 0 (s.putS d 0) (fun lo _ s => s.putS d lo))
def execDcdrop (d : SDst) (a : SSrc) (s : State) :=
  issueOp (.dcdrop d a) s (fun s => s.decantFlow (s.readS64 a) 4 0 (s.putS d 0) (fun lo _ s => s.putS d lo))

/-- A message of a line is on its way or waits at its home entry, or a store to it is queued. -/
def State.lineBusy (s : State) (line : Nat) : Bool :=
  (s.net ++ s.waiting).any (fun i => messageUnit i == some line) || s.cores.any (fun p => p.2.queued line)

/-- The image that DCINIT writes (R251). -/
def freshRecord (v cap : Nat) : List Byte :=
  leBytes 4 0xDC000001 ++ leBytes 4 1 ++ leBytes 8 v ++ leBytes 8 cap ++ leBytes 40 0

/-- DCINIT: declares a FREE or BROKEN record, at once at its home, where the line then stays (R244, R250, R251); it waits until no
message and no queued store of the line is left. (DEDUCED, log 56.) -/
def execDcinit (d : Fin 64) (a b : SSrc) (s : State) :=
  issueOp (.dcinit d a b) s (fun s =>
    let va := s.readS64 a
    let v := (s.readS64 b).toNat
    let cap := (s.curWave.sreg d.val).toNat
    if s.activeMask = 0 then s.finish
    else match s.decantCheck va (decide (decantMax < v) || decide (2 ^ 40 - 1 < cap)) with
      | .error t => s.trapHere t
      | .ok r =>
        s.decantGate true (fun s =>
          let st := s.recordState r
          if (s.counter r).isSome then s.trapHere (s.info 0x13 3 va)
          else if !([0, 1, 2, 15].contains st) then s.trapHere (s.info 0x13 1 va)
          else if 1024 ≤ (s.cluster (homeSlice r)).counters.length then s.trapHere (s.info 0x13 5 va)
          else if s.lineBusy r then s.stall .retry
          else
            ((((s.cacheXlate s.curWave.core s.curWave.ctx va).publish r (freshRecord v cap)).sendHome r).modCluster (homeSlice r) (fun c =>
              { c with counters := tset c.counters r {} })).finish))

end Sys2Proof.Machine
end

