-- ==== Sys2Proof/Machine/DecantProtocol.lean ====
section
/-! DEFINITION. The messages between the slices and the homes of decant counters (R256 to R258), and the loss of a C-die
(R262, R263). Messages between one slice and one home arrive in the order in which they were sent (R256). -/
namespace Sys2Proof.Machine

/-- The slice and the home of a decant message, and whether it goes to the home. -/
def decantLane : Instr → Option (Nat × Nat × Bool)
  | .decantReq r g _ _ | .decantGiveMsg r g _ _ | .decantReturn r g _ | .decantAnswer r g _ | .decantReadAtHome r g _ _ =>
    some (g, homeSlice r, true)
  | .decantRecall r g | .decantGrant r g _ | .decantServe r g _ | .decantStatusReply r g _ _ _ _ => some (g, homeSlice r, false)
  | _ => none

/-- A message in flight arrives unless an earlier one of its slice, home and direction is still on its way. -/
def State.arriveInOrder (s : State) (i : Instr) (f : State → State) : Host.Outcome State Fault Refusal :=
  match s.net.find? (fun j => decantLane j == decantLane i) with
  | some j => if j = i then s.arrive i f else .next s
  | none => .next s

/-! At the home. -/

/-- DECANT_REQ. -/
def execDecantReq (r g sum first : Nat) (s : State) :=
  s.arriveInOrder (.decantReq r g sum first) (fun s => s.atHome r g (s.firstTake g r) (.req g sum first))
/-- DECANT_GIVE_MSG. -/
def execDecantGiveMsg (r g units op : Nat) (s : State) :=
  s.arriveInOrder (.decantGiveMsg r g units op) (fun s => s.atHome r g op (.give g units op))
/-- DECANT_READ_AT_HOME: DCREAD, DCREADX and DCDROP. -/
def execDecantReadAtHome (r g : Nat) (kind : DecantRead) (op : Nat) (s : State) :=
  s.arriveInOrder (.decantReadAtHome r g kind op) (fun s => s.atHome r g op (.read g kind op))
/-- DECANT_RETURN. -/
def execDecantReturn (r g units : Nat) (s : State) :=
  s.arriveInOrder (.decantReturn r g units) (fun s => (s.unitsHome r g units).pump g r)
/-- DECANT_ANSWER. -/
def execDecantAnswer (r g units : Nat) (s : State) :=
  s.arriveInOrder (.decantAnswer r g units) (fun s => s.unitsHome r g units)

/-! At the slice. -/

/-- DECANT_RECALL: the entry is answered and deleted; a slice whose entry is already on its way home answers with that
RETURN (R257, R261). -/
def execDecantRecall (r g : Nat) (s : State) :=
  s.arriveInOrder (.decantRecall r g) (fun s =>
    let e := s.allowance g r
    if e.held then (s.setAllowance g r { e with held := false, a := 0 }).send (.decantAnswer r g e.a) else s)

/-- DECANT_GRANT: the entry is made or added to and its waiters are served; a slice that can make none serves them from the
units and sends the rest home (R245). (DEDUCED, log 157.) -/
def execDecantGrant (r g units : Nat) (s : State) :=
  s.arriveInOrder (.decantGrant r g units) (fun s =>
    let e := s.allowance g r
    let room := if e.held then some s else s.makeRoom g
    match room with
    | some s1 => (((s1.setAllowance g r { e with held := true, a := e.a + units, req := false }).serveWaiters g r).ask g r).runHome r
    | none =>
      let (ys, ns, a) := s.serveTakes e.waiters units
      ((((s.takesDone ys true).setAllowance g r { e with waiters := ns, req := false }).send (.decantReturn r g a)).ask g r).runHome r)

/-- DECANT_SERVE: the waiters are served from the units; of a partial SERVE each that does not fit fails, and the remainder
goes home. -/
def execDecantServe (r g units : Nat) (s : State) :=
  s.arriveInOrder (.decantServe r g units) (fun s =>
    let e := s.allowance g r
    if units < e.sum then
      let (ys, ns, a) := s.serveEach e.waiters units
      (((((s.takesDone ys true).takesDone ns false).setAllowance g r { e with waiters := [], req := false }).send
        (.decantReturn r g a))).runHome r
    else
      let (ys, ns, a) := s.serveTakes e.waiters units
      let s1 := (s.takesDone ys true).setAllowance g r { e with waiters := ns, req := false }
      ((if a = 0 then s1 else s1.send (.decantReturn r g a)).ask g r).runHome r)

/-- The trap that a reply's detail stands for: HOME_OFFLINE, or DECANT_FAULT with the detail of R250. -/
def replyTrap (detail : Nat) : Option (Nat × Nat) :=
  if detail = 0 then none else if detail = 0x16 then some (0x16, 0) else some (0x13, detail)

/-- An operation ends with a reply. -/
def State.decantEnd (s : State) (op : Nat) (lo hi : Dword) (t : Option (Nat × Nat)) : State :=
  { s with decants := tmodify s.decants op (fun d => { d with done := true, lo := lo, hi := hi, trap := t }) }

/-- The reply to the REQ of a slice: the take it named as FIRST ends EMPTY if it still waits, or every waiting take in its trap
(R258). -/
def State.reqAnswered (s : State) (r g op detail : Nat) : State :=
  let e := s.allowance g r
  if detail = 0 then
    let s1 := if e.waiters.contains op then s.takesDone [op] false else s
    (s1.setAllowance g r { e with waiters := e.waiters.filter (fun x => x != op), req := false }).ask g r
  else
    (e.waiters.foldl (fun (u : State) x => u.decantEnd x 0 0 (replyTrap detail)) s).setAllowance g r { e with waiters := [], req := false }

/-- DECANT_STATUS_REPLY: the operation ends, or a REQ is answered, and the slice goes on. -/
def execDecantStatusReply (r g op lo : Nat) (hi : Dword) (detail : Nat) (s : State) :=
  s.arriveInOrder (.decantStatusReply r g op lo hi detail) (fun s =>
    let e := s.allowance g r
    if e.req && e.first = op then s.reqAnswered r g op detail
    else (s.decantEnd op (BitVec.ofNat 64 lo) hi (replyTrap detail)).pump g r)

/-! Loss of a C-die (R262, R263). -/

/-- A slice lies on the C-die of a stack. -/
def onStack (stack g : Nat) : Bool := g / 32 == stack

/-- The slice that sent a message. -/
def HomeMsg.slice : HomeMsg → Nat
  | .req g _ _ | .give g _ _ | .read g _ _ => g

/-- What a surviving home does for one counter: the entries on the lost C-die answer with 0 and are counted lost, its messages that
wait are gone, and the others are served. -/
def State.loseEntries (s : State) (stack r : Nat) : State :=
  match s.counter r with
  | none => s
  | some c =>
    let lost := (tkeys c.active).filter (onStack stack)
    let n := min 65535 (memNat s.mem (r + 6) 2 + lost.length)
    let from_ := c.recallFrom.filter (fun g => !onStack stack g)
    let c1 : HomeCounter := { c with
      active := c.active.filter (fun p => !onStack stack p.1), recallFrom := from_, queue := c.queue.filter (fun m => !onStack stack m.slice),
      part := if c.part.any (fun p => onStack stack p.1) then none else c.part,
      mode := if c.mode == .recalling && from_.isEmpty then .direct else c.mode }
    let s1 := if lost.isEmpty && !c.part.any (fun p => onStack stack p.1) then s else s.setImage (r + 4) ([0x02, 0x00] ++ leBytes 2 n)
    (s1.modCounter r (fun _ => c1)).runHome r

/-- DECANT_CDIE_LOSS: counters homed on the lost C-die end in HOME_OFFLINE; every other home treats the entries on it as
lost. -/
def execDecantCdieLoss (stack : Nat) (s : State) :=
  s.arrive (.decantCdieLoss stack) (fun s =>
    let homes := (s.clusters.filter (fun p => onStack stack p.1)).flatMap (fun p => tkeys p.2.counters)
    let s1 := homes.foldl (fun (u : State) r => u.decantRetire r 0x16 0) s
    let s2 : State := { s1 with
      net := s1.net.filter (fun i => match decantLane i with
        | some (g, h, _) => !onStack stack g && !onStack stack h
        | none => true),
      decants := s1.decants.filter (fun p => !onStack stack p.2.cluster),
      clusters := s1.clusters.map (fun p => if onStack stack p.1 then (p.1, { p.2 with allow := [] }) else p) }
    ((tvals s2.clusters).flatMap (fun c => tkeys c.counters)).foldl (fun (u : State) r => u.loseEntries stack r) s2)

end Sys2Proof.Machine
end

