-- ==== Sys2Proof/Machine/EngineEvents.lean ====
section
/-! DEFINITION. How copies and gather commands end (R220, R221, R223 to R229, R231 to R235), and the timer of a spawn bin
(R236, R345): COPY_COMPLETE, COPY_ABANDON, GATHER_COMPLETE, GATHER_ABANDON and SPAWN_BIN_TIMER. An engine's access reads
and writes each line as its package owner holds it. An engine may read words and apply elements before its work ends, one by one
(R220, R232): what it has read stands in `seen`; the rest is read when the work ends. -/
namespace Sys2Proof.Machine

/-! Accesses of an engine. -/

/-- The place of an engine's access: a translation fault, or HOME_OFFLINE (R227, R377). -/
def State.enginePlace (s : State) (ctx : Nat) (va : Dword) (a : Access) : Except XFault Nat :=
  match s.xlateWalk ctx va a with
  | .error e => .error e
  | .ok pa => if s.homeLost pa then .error ⟨0x16, 0⟩ else .ok pa

/-- An access of an engine for a core waits: its line is being converted, its home holds requests, or a failed element lies on its
way (R330, R395, R411). -/
def State.engineWaits (s : State) (core ctx : Nat) (a : Access) (vas : List Dword) : Bool :=
  vas.any (fun va => match s.xlateWalk ctx va a with
    | .ok pa => s.converting (lineOf pa) || s.homeHeld pa || !s.ownerClear core (s.unitAt pa)
    | .error _ => false)

/-- The first of several addresses that an engine cannot access. -/
def State.engineFault (s : State) (ctx : Nat) (a : Access) (vas : List Dword) : Option (Dword × XFault) :=
  vas.findSome? (fun va => match s.enginePlace ctx va a with
    | .error e => some (va, e)
    | .ok _ => none)

/-- The physical address of an access that has been checked. -/
def State.placed (s : State) (ctx : Nat) (va : Dword) (a : Access) : Nat :=
  match s.enginePlace ctx va a with
  | .ok pa => pa
  | .error _ => 0

/-- A granule of DRAM is poisoned. -/
def State.poisonedAt (s : State) (pa : Nat) : Bool := s.poison.contains (pa / 8 * 8)

/-- A word that an engine reads, with whether it is poisoned: as it has read it, or as it stands. -/
def State.engineWord (s : State) (ctx : Nat) (va : Dword) (seen : Option (Nat × Bool)) : Nat × Bool :=
  seen.getD (memNat s.mem (s.placed ctx va .read) 4, s.poisonedAt (s.placed ctx va .read))

/-- The words that an engine has read of an attempt, with one more, if it can be accessed and has not been read. -/
def State.lookAt (s : State) (ctx : Nat) (seen : Tbl (Nat × Bool)) (key : Nat) (va : Dword) : Tbl (Nat × Bool) :=
  if (tget? seen key).isSome || va.toNat % 4 != 0 then seen
  else match s.enginePlace ctx va .read with
    | .ok pa => tset seen key (memNat s.mem pa 4, s.poisonedAt pa)
    | .error _ => seen

/-- A line that an engine has read for a core enters the slices of the core's stack, where its owners can lend it at once (R295). -/
def State.engineBrings (s : State) (core line : Nat) : State :=
  let ks := s.lineUnits line
  if ks.all (fun k => s.ownerReady k && (s.homeEntry k).xpub.isNone && (s.openStacks k).isEmpty) && (s.pending line).isEmpty then
    s.bringIn core (s.coreCtx core) line ks false
  else s

/-- A core drops the copies of a line, of its own and of its stack, that show other bytes than an engine has read for it, and makes
what was read visible with its next release, as what it reads itself (R269). -/
def State.refreshCore (s0 : State) (core line : Nat) : State :=
  let s := s0.engineBrings core line
  let v := s.ownerView line
  let s1 := if (tget? (s.core core).l1 line).any (fun x => x.data != v.bytes) then s.dropL1 line core else s
  let s2 := match s1.copyAt (stackOf core) line with
    | some c => if c.data == v.bytes then s1 else (c.parts.filter (fun (p : Nat × Part) => !p.2.st.owns)).foldl (fun (u : State) (p : Nat × Part) => u.dropPart (stackOf core) p.1) s1
    | none => s1
  s2.noteRead core line v

/-- The lines of some words. -/
def State.linesOf (s : State) (ctx : Nat) (vas : List Dword) : List Nat := (vas.map (fun va => lineOf (s.placed ctx va .read))).dedup

/-- A core's reads of an engine's words are its own from now on. -/
def State.refreshWords (s : State) (ctx core : Nat) (vas : List Dword) : State :=
  (s.linesOf ctx vas).foldl (fun (u : State) l => u.refreshCore core l) s

/-- The 4-byte words of a row. -/
def rowWords (a : Dword) (n : Nat) : List Dword := (List.range (n / 4)).map (fun i => a + BitVec.ofNat 64 (4 * i))

/-- Bytes written into a scratchpad by an engine, with the granules of the words at `bad` marked (R228, R405). -/
def Block.engineWrite (a : Nat) (bs : List Byte) (bad : List Nat) (k : Block) : Block :=
  let marks := (bad.map (fun w => w / 8 * 8)).dedup
  let clean := (clearGranules k.spoison a bs.length).filter (fun g => !marks.contains g)
  { k with scratch := memPut k.scratch a bs, spoison := clean ++ marks }

/-! Completion (R223 to R226). -/

/-- The completion record's fields. -/
structure Record where
  status : Nat := 0
  kind : Nat := 1
  window : Nat := 0xFF
  core : Nat := 0
  fault : Nat := 0
  bytes : Nat := 0
  oorCount : Nat := 0
  oorFirst : Nat := 0xFFFFFFFF
  flagVal : Word := 0
  replays : Nat := 0
  faddr : Dword := 0

/-- The 64 bytes of a record. -/
def Record.image (r : Record) (seq time : Nat) : List Byte :=
  leBytes 8 seq ++ leBytes 2 r.status ++ leBytes 1 r.kind ++ leBytes 1 r.window ++ leBytes 2 r.core ++ leBytes 2 r.fault ++
    leBytes 8 r.bytes ++ leBytes 4 r.oorCount ++ leBytes 4 r.oorFirst ++ leBytes 4 r.flagVal.toNat ++ leBytes 4 r.replays ++
    leBytes 8 r.faddr.toNat ++ leBytes 8 time ++ leBytes 8 0

/-- The base of a context's completion ring, sign-extended from bit 51 (R160, R224). -/
def ringBase (cring : Dword) : Dword := ((cring.setWidth 52 &&& ~~~4095#52).signExtend 64)

/-- The place of a context's next completion record (R225). -/
def Context.ringPlace (c : Context) : Dword :=
  ringBase c.cring + BitVec.ofNat 64 (64 * ((c.ringSeq - 1) % 2 ^ (c.cring.toNat % 64)))

/-- The writes of an engine to some words take their turn in the write queue of its core: no store of the core to their lines stands
before them, and the queue has room (R314). They are performed as they leave it, visible in the package. (DEDUCED, log 143.) -/
def State.engineTurn (s : State) (core ctx : Nat) (vas : List Dword) : Bool :=
  (s.core core).room 1 && vas.all (fun va => !(s.core core).queued (lineOf (s.placed ctx va .write)))

/-- Step 4 of R223: the record is appended to the ring, or lost; its sequence number is consumed either way (R225). -/
def State.appendRecord (s : State) (ctx : Nat) (r : Record) : State :=
  let c := s.ctx ctx
  let n := c.cring.toNat % 64
  if n < 6 || 16 < n then s
  else
    let va := c.ringPlace
    let s1 := match s.enginePlace ctx va .write with
      | .ok pa => s.publish pa (r.image c.ringSeq s.timeNs)
      | .error _ => s.logDry 0x30 0x0F 0 0 ctx va.toNat
    s1.modCtx ctx (fun x => { x with ringSeq := x.ringSeq + 1 })

/-- A context has a completion ring. -/
def Context.ringOn (c : Context) : Bool := 6 ≤ c.cring.toNat % 64 && c.cring.toNat % 64 ≤ 16

/-- Step 4 of R223 releases at package scope: the writes of the core before the work, and what it had acquired, are visible in the
package before the record is (R273, R278). -/
def State.recordReady (s : State) (ctx core mark : Nat) : Bool :=
  !(s.ctx ctx).ringOn || ((s.core core).published mark 6 && depsReady (s.core core).deps core 6 true &&
    !s.engineWaits core ctx .write [(s.ctx ctx).ringPlace] && s.engineTurn core ctx [(s.ctx ctx).ringPlace])

/-- A tile that an engine held completes: OWNER := THREAD and PHASE toggles (R223). Matrix commands that waited for it
then hold it (R197). -/
def Tile.complete (t : Tile) : Tile :=
  if t.count = 0 then { t with engine := false, holder := .none, phase := !t.phase }
  else { t with engine := true, holder := .matrix, phase := !t.phase }

/-- Steps 2 and 3 of R223 in a destination block: the tiles the work holds return and the flag is written. (DESIGN CHOICE, log 154.) -/
def State.finishBlock (s : State) (b : Nat) (tiles : List Nat) (flag : Option Nat) (v : Word) : State :=
  let s1 := s.modTiles b tiles Tile.complete
  match flag with
  | some f => s1.modBlock b (fun k => { k with scratch := memPut k.scratch f (leBytes 4 v.toNat) })
  | none => s1

/-- Work that a wave started has settled (R227). -/
def State.settleWork (s : State) (wid : Nat) : State := s.modWave wid (fun w => { w with engPending := w.engPending - 1 })

/-! Copies. -/

/-- The global address of row (i1, i2) (R216). -/
def WinDesc.row (d : WinDesc) (i1 i2 : Nat) : Dword :=
  d.base + BitVec.ofNat 64 i1 * d.stride1 + BitVec.ofNat 64 i2 * d.stride2

/-- The source words of a copy in the order of their destination. -/
def WinDesc.words (d : WinDesc) : List Dword :=
  (List.range d.n2).flatMap (fun i2 => (List.range d.n1).flatMap (fun i1 => rowWords (d.row i1 i2) d.rowb))

/-- The attempt of a window's copy that may now read: every store that its core had queued at the touch has left
(R220), no CARVE holds the context (R307), it is not saved or being restored (R230), and none of its accesses waits. -/
def State.copyReady (s : State) (b w : Nat) : Bool :=
  match tget? s.blocks b with
  | some k =>
    let x := k.window w
    x.st == .inflight && !(s.ctx k.ctx).carveBusy && (s.ctx k.ctx).phase != .saved && (s.ctx k.ctx).phase != .restoring && (tvals (s.core k.core).wq).all (fun e => x.started < e.entered) &&
      (x.bad.isSome || !s.engineWaits k.core k.ctx .read x.desc.words)
  | none => false

/-- The fault that a copy's attempt meets first: for a copy that a matrix command touched, a poisoned word is one (R207). (DESIGN CHOICE, log 144.) -/
def State.copyFault (s : State) (b w : Nat) : Option (Dword × XFault) :=
  let x := (s.block b).window w
  let ctx := (s.block b).ctx
  if x.bad.isSome then none
  else match s.engineFault ctx .read x.desc.words with
    | some f => some f
    | none =>
      if !x.byMma then none
      else (x.desc.words.zipIdx.find? (fun p => (s.engineWord ctx p.1 (tget? x.seen p.2)).2)).map (fun p => (p.1, ⟨0x11, 0⟩))

/-- The tiles of a block that a copy holds. -/
def State.heldBy (s : State) (k : Nat) (h : Holder) (ts : List Nat) : List Nat := ts.filter (fun t => ((s.block k).tile t).holder == h)

/-- A word of a copy's source is read before the copy ends (R220). -/
def State.copyRead (s : State) (block window word : Nat) : State :=
  let x := (s.block block).window window
  match x.desc.words[word]? with
  | some va =>
    if s.copyReady block window && x.bad.isNone then
      s.modWindow block window (fun y => { y with seen := s.lookAt (s.block block).ctx y.seen word va })
    else s
  | none => s

/-- The words of a copy, in the order of their destination, each with whether it is poisoned. -/
def State.copyWords (s : State) (b w : Nat) : List (Nat × Bool) :=
  let x := (s.block b).window w
  if x.bad.isSome then []
  else x.desc.words.zipIdx.map (fun p => s.engineWord (s.block b).ctx p.1 (tget? x.seen p.2))

/-- The tiles of a block name its context still: they have not gone with its cluster group (R229). (DEDUCED, log 137.) -/
def State.holds (s : State) (k ctx : Nat) : Bool := (tget? s.blocks k).any (fun y => y.ctx = ctx && !y.released)

/-- COPY_COMPLETE: the copy of a window lands, or its failed multicast completes, in the steps of R223; until the record can follow,
the release of step 4 is pressed. -/
def execCopyComplete (block window : Nat) (s : State) : Host.Outcome State Fault Refusal :=
  if !s.copyReady block window || (s.copyFault block window).isSome then .next s
  else
    let b := s.block block
    let x := b.window window
    let d := x.desc
    if !s.recordReady b.ctx b.core x.mark then .next (s.startFence b.core x.mark 6 true false)
    else
      let words := s.copyWords block window
      let data := words.flatMap (fun v => leBytes 4 v.1)
      let bad := (words.zipIdx.filter (fun p => p.1.2)).map (fun p => d.dest + 4 * p.2)
      let here := x.targets.filter (fun k => s.holds k b.ctx)
      let s1 := here.foldl (fun (u : State) k => u.modBlock k (Block.engineWrite d.dest data bad)) s
      let s2 := here.foldl (fun (u : State) k =>
        u.finishBlock k (u.heldBy k (if k = block then .copy window else .mcast block window) d.span) d.flagAddr d.flagVal) s1
      let s3 := if x.bad.isSome then s2 else here.foldl (fun (u : State) k => u.refreshWords b.ctx (u.block k).core d.words) s2
      let status := match x.bad with
        | some e => e
        | none => if here.length < x.targets.length then 4 else if bad.isEmpty then 0 else 5
      let r : Record := {
        status := status, window := window, core := b.core, fault := x.fault, bytes := data.length, flagVal := d.flagVal,
        replays := x.replays, faddr := x.faddr }
      .next (((s3.modWindow block window (fun y => { y with st := .present, last := status, seen := [] })).appendRecord b.ctx r).settleWork
        x.starter)

/-- A split of a wave waits in a touching load of a window (R227). -/
def Wave.touching (w : Wave) (k : Nat) : Bool :=
  (tvals w.splits).any (fun sp => match sp.wait with
    | some (.window ws) => ws.contains k
    | _ => false)

/-- COPY_ABANDON: a copy that meets a translation fault or HOME_OFFLINE is abandoned, and the cause goes to its starting
wave (R217, R227, R373). -/
def execCopyAbandon (block window : Nat) (s : State) : Host.Outcome State Fault Refusal :=
  if !s.copyReady block window then .next s
  else match s.copyFault block window with
    | none => .next s
    | some (va, e) =>
      let b := s.block block
      let x := b.window window
      let touching := (tgetD s.waves x.starter {}).touching window && (tgetD s.waves x.starter {}).block == some block
      let t : TrapInfo := {
        cause := e.cause, detail := e.detail + window * 256 + 4096, pc := x.pc, faddr := va,
        iword := x.iword, lit := x.lit, bintodal := x.bintodal, deferred := !touching,
        origin := if touching then .touch block window else if x.byMma then .mwindow block window else .window block window,
        issuedAt := x.started }
      .next ((((s.modWindow block window (fun y =>
        { y with st := .stalled, replays := y.replays + 1, fault := e.cause, faddr := va, taken := false, seen := [] })).defer x.starter t)).settleWork
          x.starter)

/-- The stalled work whose cause a wave's handler has taken starts again at trap return (R217, R227). -/
def State.replayWork (s : State) (wid : Nat) : State :=
  let again (x : Window) : Window := if x.st == .stalled && x.taken && x.starter = wid then { x with st := .inflight, taken := false } else x
  let n := ((tvals s.blocks).flatMap (fun b => (tvals b.windows).filter (fun x => x.st == .stalled && x.taken && x.starter = wid))).length
  let againG (c : GatherCmd) : GatherCmd := if c.stalled && c.taken && c.wave = wid then { c with stalled := false, taken := false } else c
  let m := ((tvals s.clusters).flatMap (fun g => g.gather.filter (fun c => c.stalled && c.taken && c.wave = wid))).length
  ({ s with
    blocks := tmap s.blocks (fun b => { b with windows := tmap b.windows again }),
    clusters := tmap s.clusters (fun g => { g with gather := g.gather.map againG }) }).modWave wid
      (fun w => { w with engPending := w.engPending + n + m })

/-! Gather commands (R231 to R235). -/

/-- The address of entry p of the index list. -/
def GatherCmd.idxVa (c : GatherCmd) (p : Nat) : Dword := c.idx + BitVec.ofNat 64 (p * if c.idx64 then 8 else 4)

/-- A word that a gather command reads. -/
def State.gatherWord (s : State) (c : GatherCmd) (va : Dword) : Nat × Bool := s.engineWord c.ctx va (tget? c.seen va.toNat)

/-- Entry p of the index list, none if it is poisoned. -/
def State.gatherIdx (s : State) (c : GatherCmd) (p : Nat) : Option Int :=
  let lo := s.gatherWord c (c.idxVa p)
  let hi := s.gatherWord c (c.idxVa p + 4)
  if lo.2 || (c.idx64 && hi.2) then none
  else some (if c.idx64 then (BitVec.ofNat 64 (lo.1 + 2 ^ 32 * hi.1)).toInt else (BitVec.ofNat 32 lo.1).toInt)

/-- What a position of the list names. -/
inductive Pos where
  | poisoned | out
  | row (va : Dword)

/-- The position p, whose index word has been checked (R228, R233). -/
def State.gatherPos (s : State) (c : GatherCmd) (p : Nat) : Pos :=
  match s.gatherIdx c p with
  | none => .poisoned
  | some i => if i < 0 || c.trows ≤ i then .out else .row (c.table + BitVec.ofNat 64 (i.toNat * c.rowb))

/-- The positions of the list from the commit index on; that of a row already begun is passed. A bag-reduce of no segment reads
none. (DESIGN CHOICE, log 145.) -/
def GatherCmd.positions (c : GatherCmd) : List Nat :=
  if c.op == .bag && c.nseg = 0 then [] else
  let first := if c.row.isEmpty then c.commit else c.commit + 1
  (List.range (c.count - first)).map (fun i => first + i)

/-- The first position out of range, if any. -/
def State.firstOut (s : State) (c : GatherCmd) : Option Nat :=
  c.positions.find? (fun p => match s.gatherPos c p with | .out => true | _ => false)

/-- The position at which a command stops (R235). -/
def State.gatherStop (s : State) (c : GatherCmd) : Nat :=
  if c.stopOor then (s.firstOut c).getD c.count else c.count

/-- The words of the row that a position names. -/
def State.posWords (s : State) (c : GatherCmd) (p : Nat) : List Dword :=
  match s.gatherPos c p with
  | .row va => rowWords va c.rowb
  | _ => []

/-- An offset of a bag-reduce, none if it is poisoned. -/
def State.bagOffset (s : State) (c : GatherCmd) (k : Nat) : Option Int :=
  let v := s.gatherWord c (c.offs + BitVec.ofNat 64 (4 * k))
  if v.2 then none else some (BitVec.ofNat 32 v.1).toInt

/-- The positions that a segment of a bag-reduce holds, none if an offset of it is poisoned. -/
def State.segment (s : State) (c : GatherCmd) (seg : Nat) : Option (List Nat) :=
  match s.bagOffset c seg, s.bagOffset c (seg + 1) with
  | some a, some b =>
    let lo := (max a 0).toNat
    some ((List.range ((min b c.count).toNat - lo)).map (fun i => lo + i))
  | _, _ => none

/-- The command reads the table row of a position: in a bag-reduce, if a segment holds the position (R233). -/
def State.readsRow (s : State) (c : GatherCmd) (p : Nat) : Bool :=
  c.op != .bag || (List.range c.nseg).any (fun k => (s.segment c k).any (fun ps => ps.contains p))

/-- The first fault of a command, with the position at which it lies: an index word, a word of the row it names, or an
offset of a bag-reduce. -/
def State.gatherFault (s : State) (c : GatherCmd) : Option (Nat × Dword × XFault) :=
  let access : Access := if c.op == .scatter then .rmw else .read
  let offs := if c.op == .bag && c.nseg != 0 && c.count != 0 then rowWords c.offs (4 * (c.nseg + 1)) else []
  match s.engineFault c.ctx .read offs with
  | some (va, e) => some (0, va, e)
  | none =>
    c.positions.findSome? (fun p =>
      if c.stopOor && (s.firstOut { c with count := p }).isSome then none
      else match s.engineFault c.ctx .read [c.idxVa p] with
        | some (va, e) => some (p, va, e)
        | none => if s.readsRow c p then (s.engineFault c.ctx access (s.posWords c p)).map (fun f => (p, f.1, f.2)) else none)

/-- The bytes of checked words, and the indexes of the poisoned ones. (DEDUCED, log 47.) -/
def State.wordsData (s : State) (c : GatherCmd) (ws : List Dword) : List Byte × List Nat :=
  let vs := ws.map (s.gatherWord c)
  (vs.flatMap (fun v => leBytes 4 v.1), (vs.zipIdx.filter (fun p => p.1.2)).map Prod.snd)

/-- One row of a gather: the table row, zero bytes out of range, or zero bytes all marked for a poisoned index. -/
def State.gatherRow (s : State) (c : GatherCmd) (p : Nat) : List Byte × List Nat :=
  match s.gatherPos c p with
  | .row va => s.wordsData c (rowWords va c.rowb)
  | .out => (List.replicate c.rowb 0, [])
  | .poisoned => (List.replicate c.rowb 0, List.range (c.rowb / 4))

/-- The sum of the elements of one column in list order (R233): +0 for none, a lone element as it stands but for a
NaN. -/
def bagSum (xs : List Nat) : Nat :=
  match xs with
  | [] => 0
  | x :: rest =>
    let canon (v : Nat) : Nat := if (fDecode fmtF32 v).isNan then fmtF32.nanBits else v
    canon (rest.foldl (addF32 .rne) x)

/-- A segment of a bag-reduce: its row and the indexes of its marked words, or none if it is not written because a
position of it lies at or past the stop. (DEDUCED, log 18; DESIGN CHOICE, log 155.) -/
def State.bagRow (s : State) (c : GatherCmd) (stop seg : Nat) : Option (List Byte × List Nat) :=
  let all := List.range (c.rowb / 4)
  match s.segment c seg with
  | some ps =>
    if ps.any (fun p => decide (stop ≤ p)) then none
    else if ps.any (fun p => match s.gatherPos c p with | .poisoned => true | _ => false) then
      some (List.replicate c.rowb 0, all)
    else
      let rows := (ps.filter (fun p => !(s.posWords c p).isEmpty)).map (fun p => s.wordsData c (s.posWords c p))
      some (all.flatMap (fun e => leBytes 4 (bagSum (rows.map (fun r => recField r.1 (4 * e) 4)))),
        all.filter (fun e => rows.any (fun r => r.2.contains e)))
  | none => some (List.replicate c.rowb 0, all)

/-- The rows that a gather or a bag-reduce writes, by destination row. -/
def State.gatherRows (s : State) (c : GatherCmd) : List (Nat × List Byte × List Nat) :=
  let stop := s.gatherStop c
  match c.op with
  | .bag => if c.count = 0 then [] else (List.range c.nseg).filterMap (fun k => (s.bagRow c stop k).map (fun r => (k, r)))
  | _ => (List.range stop).map (fun p => (p, s.gatherRow c p))

/-- One element of a scatter-add, at its place in the table: nothing is written where the table's word is poisoned, and the wave
takes MEM_POISON (R405); a word that poisoned data reaches is marked (R228). (DEDUCED, log 50.) -/
def State.scatterElem (s : State) (c : GatherCmd) (va : Dword) (pa src : Nat) (bad : Bool) : State :=
  if s.poisonedAt pa then
    s.defer c.wave { cause := 0x11, pc := c.pc, faddr := va, iword := c.iword, lit := c.lit, bintodal := c.bintodal, deferred := true, origin := .poison (.vec none false),
                      issuedAt := c.entered }
  else
    let s1 := s.publish pa (leBytes 4 (addF32 .rne (memNat s.mem pa 4) src))
    if bad then { s1 with poison := pa / 8 * 8 :: s1.poison } else s1

/-- The next element of the row that a scatter-add has begun; with the last, the position is committed (R234). A poisoned element whose
granule the poisoned element before it has marked finds the granule marked and raises nothing (R228). -/
def State.scatterNext (s : State) (c : GatherCmd) : State × GatherCmd :=
  match c.row with
  | [] => (s, c)
  | (va, pa) :: rest =>
    let b := s.block c.block
    let a := c.spad + c.commit * c.rowb + 4 * (c.rowb / 4 - 1 - rest.length)
    let bad := b.spoison.contains (a / 8 * 8)
    let marked := bad && pa % 8 == 4 && c.rowb != 4 * c.row.length && b.spoison.contains ((a - 4) / 8 * 8)
    let s1 := if marked && s.poisonedAt pa then s else s.scatterElem c va pa (memNat b.scratch a 4) bad
    let c1 := { c with bad := c.bad || bad, row := rest }
    (s1, if rest.isEmpty then { c1 with commit := c.commit + 1, applied := c.applied + 1 } else c1)

/-- Elements of the row begun are applied, `n` at most. -/
def State.scatterElems : Nat → State → GatherCmd → State × GatherCmd
  | 0, s, c => (s, c)
  | n + 1, s, c => let (s1, c1) := s.scatterNext c; State.scatterElems n s1 c1

/-- The row that a scatter-add has begun is completed. -/
def State.finishRow (s : State) (c : GatherCmd) : State × GatherCmd := State.scatterElems c.row.length s c

/-- A position of a scatter-add is begun: passed, or its whole row has been checked and translated (R234). -/
def State.scatterBegin (s : State) (c : GatherCmd) : GatherCmd :=
  let p := c.commit
  match s.gatherPos c p with
  | .poisoned => { c with commit := p + 1, bad := true }
  | .out => { c with commit := p + 1, oorCount := c.oorCount + 1, oorFirst := some (c.oorFirst.getD p) }
  | .row va => { c with row := (rowWords va c.rowb).map (fun a => (a, s.placed c.ctx a .rmw)) }

/-- A position of a scatter-add and its commit (R234): the command after it. -/
def State.scatterPos (s : State) (c : GatherCmd) : State × GatherCmd := s.finishRow (s.scatterBegin c)

/-- `n` positions of a scatter-add. -/
def State.scatterRun : Nat → State → GatherCmd → State × GatherCmd
  | 0, s, c => (s, c)
  | n + 1, s, c => let (s1, c1) := s.scatterPos c; State.scatterRun n s1 c1

/-- Two commands whose effects on one word or one byte could meet: one adds into a table, or the flags of one block overlap each
other or a span (R232). Spans themselves are held by one command each. -/
def GatherCmd.meets (x y : GatherCmd) : Bool :=
  let hit (f : Option Nat) (z : GatherCmd) : Bool := f.any (fun a =>
    z.flagAddr == some a || (decide (z.spad < a + 4) && decide (a < z.spad + z.spanBytes)))
  x.op == .scatter || y.op == .scatter || (x.block = y.block && (hit x.flagAddr y || hit y.flagAddr x))

/-- The command of a gather engine that acts next: the oldest that is not stalled, and that no earlier stalled one which it could
meet keeps back (R232). (DEDUCED, log 49.) -/
def Cluster.gatherNext (c : Cluster) : Option GatherCmd :=
  let rec go (before : List GatherCmd) : List GatherCmd → Option GatherCmd
    | [] => none
    | x :: xs => if !x.stalled && before.all (fun y => !x.meets y) then some x else go (before ++ [x]) xs
  go [] c.gather

/-- The words that a gather or a bag-reduce reads. -/
def State.gatherReads (s : State) (c : GatherCmd) : List Dword :=
  c.positions.flatMap (fun p => c.idxVa p :: (if s.readsRow c p then s.posWords c p else [])) ++
    (if c.op == .bag && c.nseg != 0 && c.count != 0 then rowWords c.offs (4 * (c.nseg + 1)) else [])

/-- The stores that the command's core had queued when it issued have left (R232), its context is not being restored (R230), none of
its accesses waits, and the additions of a scatter-add have their turn in the core's write queue (R314). -/
def State.gatherReady (s : State) (c : GatherCmd) : Bool :=
  let core := (s.block c.block).core
  !(s.ctx c.ctx).carveBusy && (s.ctx c.ctx).phase != .restoring &&
    (tvals (s.core core).wq).all (fun e => c.entered < e.entered) && !s.engineWaits core c.ctx .read (s.gatherReads c) &&
    (c.op != .scatter || s.engineTurn core c.ctx (c.positions.flatMap (s.posWords c)))

/-- The command of a cluster that completes or is abandoned next. -/
def State.gatherDue (s : State) (cluster : Nat) : Option GatherCmd :=
  match (s.cluster cluster).gatherNext with
  | some c => if s.gatherReady c then some c else none
  | none => none

/-- A command leaves its queue, or is replaced in it. -/
def State.setGather (s : State) (cluster seq : Nat) (c : Option GatherCmd) : State :=
  s.modCluster cluster (fun g => { g with gather := g.gather.filterMap (fun x => if x.seq = seq then c else some x) })

/-- KIND of a record (R225). -/
def GatherOp.kind : GatherOp → Nat
  | .gather => 2 | .bag => 3 | .scatter => 4

/-- Steps 2 to 4 of R223 for a gather command. -/
def State.finishGather (s : State) (cluster : Nat) (c : GatherCmd) (status bytes oorCount : Nat) (oorFirst : Option Nat) : State :=
  let r : Record := {
    status := status, kind := c.op.kind, core := (s.block c.block).core, fault := c.fault, bytes := bytes, oorCount := oorCount,
    oorFirst := oorFirst.getD 0xFFFFFFFF, flagVal := c.flagVal, replays := c.replays, faddr := c.faddr }
  let s1 := if s.holds c.block c.ctx then s.finishBlock c.block (s.heldBy c.block .gather c.tiles) c.flagAddr c.flagVal else s
  ((s1.setGather cluster c.seq none).appendRecord c.ctx r).settleWork c.wave

/-- A gather or a bag-reduce completes. -/
def State.completeRows (s : State) (cluster : Nat) (c : GatherCmd) : State :=
  let rows := s.gatherRows c
  let first := s.firstOut c
  let outs := (c.positions.filter (fun p => match s.gatherPos c p with | .out => true | _ => false)).length
  let lost := c.positions.any (fun p => match s.gatherPos c p with | .poisoned => true | _ => false)
  let stopped := c.stopOor && first.isSome
  let here := s.holds c.block c.ctx
  let s1 := if here then rows.foldl (fun (u : State) r =>
      let a := c.spad + r.1 * c.rowb
      u.modBlock c.block (Block.engineWrite a r.2.1 (r.2.2.map (fun e => a + 4 * e)))) s
    else s
  let s2 := if here then s1.refreshWords c.ctx (s1.block c.block).core (s.gatherReads c) else s1
  let status := if stopped then 1 else if !here then 4 else if lost || rows.any (fun r => !r.2.2.isEmpty) then 5 else 0
  s2.finishGather cluster c status (if here then rows.length * c.rowb else 0) (if c.stopOor then (if stopped then 1 else 0) else outs) first

/-- A scatter-add completes. -/
def State.completeScatter (s : State) (cluster : Nat) (c : GatherCmd) : State :=
  let stop := s.gatherStop c
  let first := s.firstOut c
  let (s1, c1) := State.scatterRun (stop - c.commit) s c
  let stopped := c.stopOor && first.isSome
  let status := if stopped then 1 else if !s.holds c.block c.ctx then 4 else if c1.bad then 5 else 0
  s1.finishGather cluster c1 status (c1.applied * c1.rowb) (if stopped then 1 else c1.oorCount)
    (if stopped then first else c1.oorFirst)

/-- GATHER_COMPLETE: the next command of a gather engine whose attempt meets no fault; until its record can follow, the release of
step 4 is pressed. -/
def execGatherComplete (cluster : Nat) (s : State) : Host.Outcome State Fault Refusal :=
  match s.gatherDue cluster with
  | none => .next s
  | some c =>
    let core := (s.block c.block).core
    if (s.gatherFault c).isSome then .next s
    else if !s.recordReady c.ctx core c.mark then .next (s.startFence core c.mark 6 true false)
    else match c.op with
      | .scatter => let (s1, c1) := s.finishRow c; .next (s1.completeScatter cluster c1)
      | _ => .next (s.completeRows cluster c)

/-- GATHER_ABANDON: the next command of a gather engine meets a fault; a scatter-add has applied the positions before it
(R227, R234). -/
def execGatherAbandon (cluster : Nat) (s : State) : Host.Outcome State Fault Refusal :=
  match s.gatherDue cluster with
  | none => .next s
  | some c =>
    match s.gatherFault c with
    | none => .next s
    | some (p, va, e) =>
      let (s0, c0) := s.finishRow c
      let (s1, c1) := if c.op == .scatter then State.scatterRun (p - c0.commit) s0 c0 else (s0, c0)
      let c2 := { c1 with stalled := true, taken := false, replays := c1.replays + 1, fault := e.cause, faddr := va, seen := [] }
      let t : TrapInfo := {
        cause := e.cause, detail := e.detail + 8192, pc := c.pc, faddr := va, iword := c.iword, lit := c.lit,
        bintodal := c.bintodal, deferred := true, origin := .gather cluster c.seq, issuedAt := c.entered }
      .next (((s1.setGather cluster c.seq (some c2)).defer c.wave t).settleWork c.wave)

/-! Accesses before the work ends (R220, R232, R234). -/

/-- A command that may read ahead: no earlier scatter-add of its queue could still change what it reads. -/
def Cluster.mayRead (c : Cluster) (seq : Nat) : Bool :=
  let before := c.gather.takeWhile (fun x => x.seq != seq)
  (c.gather.any (fun x => x.seq = seq && !x.stalled)) && before.all (fun x => x.op != .scatter)

/-- A gather engine reads the word at a 4-byte place of the address space for a command. -/
def State.gatherRead (s : State) (cluster seq word : Nat) : State :=
  if (s.cluster cluster).mayRead seq then
    s.modCluster cluster (fun g => { g with gather := g.gather.map (fun x =>
      if x.seq = seq && s.gatherReady x then { x with seen := s.lookAt x.ctx x.seen (4 * word % 2 ^ 64) (BitVec.ofNat 64 (4 * word)) } else x) })
  else s

/-- A scatter-add applies its next element: of the row that it has begun, or of the row of its next position. -/
def State.scatterStep (s : State) (cluster : Nat) : State :=
  match s.gatherDue cluster with
  | none => s
  | some c =>
    if c.op != .scatter then s
    else if !c.row.isEmpty then (let (s1, c1) := s.scatterNext c; s1.setGather cluster c.seq (some c1))
    else if s.gatherStop c ≤ c.commit || (s.gatherFault { c with count := min c.count (c.commit + 1) }).isSome then s
    else (let (s1, c1) := s.scatterNext (s.scatterBegin c); s1.setGather cluster c.seq (some c1))

/-- An engine goes on. (DEDUCED, log 64.) -/
def State.engineStep (s : State) : EngineStep → State
  | .copyRead b w i => s.copyRead b w i
  | .gatherRead g q i => s.gatherRead g q i
  | .scatter g => s.scatterStep g

/-- The scatter-add that an engine is at completes the row that it has begun, as it is saved (R230). -/
def State.finishEntry (s : State) (cluster : Nat) : State :=
  (s.cluster cluster).gather.foldl (fun (u : State) c =>
    if c.row.isEmpty then u else let (u1, c1) := u.finishRow c; u1.setGather cluster c.seq (some c1)) s

/-! Spawn bins. -/

/-- SPAWN_BIN_TIMER: a bin whose timer has expired launches with what it holds (R236, R345). -/
def execSpawnBinTimer (cluster bin : Nat) (s : State) : Host.Outcome State Fault Refusal :=
  .next (s.modCluster cluster (fun c => { c with bins := tmodify c.bins bin (fun b =>
    if !b.threads.isEmpty && b.deadline ≤ s.timeNs then { b with launching := true } else b) }))

end Sys2Proof.Machine
end

