-- ==== Sys2Proof/Machine/Elements.lean ====
section
/-! DEFINITION. The elements of the fabric (R390, R391, R394, R395): elevators and link ports, the packets that cross them, and what
their retirement and failure do. -/
namespace Sys2Proof.Machine

/-- The drydown record of the C-die of a stack (R418). -/
def cdieRecord (stack : Nat) : Nat := 0x20 + stack

/-- An element exists. -/
def elementValid : Element → Bool
  | .elevator s n => s < 8 && n < 32
  | .port s p => s < 8 && p < 8

/-- The stack of an element. -/
def elementStack : Element → Nat
  | .elevator s _ => s
  | .port s _ => s

/-- The number of an element, and whether it is a link port. -/
def elementUnit : Element → Nat
  | .elevator _ n => n
  | .port _ p => p
/-- See `elementUnit`. -/
def elementIsPort : Element → Bool
  | .elevator _ _ => false
  | .port _ _ => true

/-- An element's event in the record of its C-die. (DEDUCED, log 100.) -/
def State.logElement (s : State) (e : Element) (kind detail : Nat) : State :=
  s.logDry (cdieRecord (elementStack e)) kind (if elementIsPort e then 13 else 12) (elementUnit e) detail 0

/-- The element works: it has not failed, is not being retired and has not been powered down. -/
def Fabric.works (f : Fabric) (e : Element) : Bool :=
  !f.down.contains e && !f.off.contains e && f.leaving.all (fun l => l.element != e)

/-- Change the fabric. -/
def State.modFabric (s : State) (f : Fabric → Fabric) : State := { s with fabric := f s.fabric }

/-- Every entry that names an element is rewritten (phase 1 of a route change). -/
def State.routeAround (s : State) (e : Element) : State :=
  (s.modFabric (fun f => { f with around := if f.around.contains e then f.around else f.around ++ [e] })).logElement e 0x06 1

/-- The elements that carry no packet: failed, powered down, or of a lost stack. -/
def State.brokenElements (s : State) : List Element :=
  s.fabric.down ++ s.fabric.off ++ (List.range 8).flatMap (fun y =>
    if s.dead.contains (2 * y) && s.dead.contains (2 * y + 1) then (List.range 8).map (fun p => .port y p) else [])

/-- The stacks that no path of working link ports joins to a stack with an N-die port (R395). -/
def State.cutOff (s : State) : List Nat :=
  let near := stacksWithin s.brokenElements [0, 1] 8
  (List.range 8).filter (fun y => !near.contains y)

/-- What the fabric carries: messages, the queued writes of the cores, and loads in flight. -/
def State.packets (s : State) : List Instr :=
  s.net ++ s.cores.flatMap (fun p => (tkeys p.2.wq).map (fun i => .wr p.1 i)) ++
    s.waves.flatMap (fun p => (tkeys p.2.loads).map (fun l => .loadDataReturn p.1 l))

/-- The elements that a packet crosses now. -/
def State.packetPath (s : State) : Instr → List Element
  | .wr c i => match tget? (s.core c).wq i with
    | some e => s.fabric.path (clusterOf c) (256 + s.ownSlice (s.unitAt e.pa))
    | none => []
  | .loadDataReturn w l =>
    let v := tgetD s.waves w {}
    match (tget? v.loads l).bind (fun p => p.lanes.find? (fun x => x.got.isNone)) with
    | some x => s.fabric.path (clusterOf v.core) (256 + homeSlice x.pa)
    | none => []
  | i => s.messagePath i

/-- The packets that may be inside an element: those whose path crosses it, a link in either direction, and those that were on their
way over it when its retirement began. -/
def State.crossing (s : State) (e : Element) : List Instr :=
  s.packets.filter (fun i =>
    (s.packetPath i).any (fun x => x == e || x == farEnd e) || s.fabric.leaving.any (fun l => l.element == e && l.inside.contains i))

/-- A failed element drops every packet inside it; which packets are inside it the spec does not say. (DESIGN CHOICE, log 140.) -/
def State.dropInside (s : State) (e : Element) : State :=
  let inside := (s.crossing e).filter (fun i => Config.droppedInside s.clk (s.packets.idxOf i) && s.fabric.lost.all (fun p => p.1 != i))
  s.modFabric (fun f => { f with lost := f.lost ++ inside.map (fun i => (i, s.clk)) })

/-- Elements fail with the packets inside them, their routers set DOWN, and the entries that name them are to be rewritten within
2,000 clk (R395). -/
def State.breakElements (s : State) (es : List Element) : State :=
  es.foldl (fun (u : State) e =>
    if u.fabric.down.contains e || u.fabric.off.contains e then u
    else (u.dropInside e).modFabric (fun f => { f with
      down := f.down ++ [e], leaving := f.leaving.filter (fun l => l.element != e),
      rewriteBy := if f.around.contains e then f.rewriteBy else f.rewriteBy ++ [(e, u.clk + 2000)] })) s

/-- Phase 1 of a retirement: the entries that name the element are rewritten; what is on its way over it finishes (R394). -/
def State.startRetire (s : State) (e : Element) : State :=
  (s.modFabric (fun f => { f with leaving := f.leaving ++ [⟨e, s.clk, s.crossing e⟩] })).routeAround e

/-- An element that is being retired has been quiet for 2,048 clk. -/
def State.quietFor (s : State) (e : Element) : Bool :=
  s.fabric.leaving.any (fun l => l.element == e && l.inside.isEmpty && decide (l.since + 2048 ≤ s.clk))

/-- Phase 2 of a retirement. -/
def State.powerDown (s : State) (e : Element) : State :=
  (s.modFabric (fun f => { f with off := f.off ++ [e], leaving := f.leaving.filter (fun l => l.element != e) })).logElement e 0x06 2

end Sys2Proof.Machine
end

