-- ==== Sys2Proof/Machine/Keccak.lean ====
section
/-! DEFINITION. KMAC128, the function of every tag (R332, R364): Keccak-f[1600], cSHAKE128 and KMAC as NIST SP 800-185
defines them, which the spec names and does not restate. -/
namespace Sys2Proof.Machine

/-- The 24 round constants of Keccak-f[1600]. -/
def keccakRounds : List Dword :=
  [0x0000000000000001, 0x0000000000008082, 0x800000000000808A, 0x8000000080008000, 0x000000000000808B, 0x0000000080000001,
   0x8000000080008081, 0x8000000000008009, 0x000000000000008A, 0x0000000000000088, 0x0000000080008009, 0x000000008000000A] ++
  [0x000000008000808B, 0x800000000000008B, 0x8000000000008089, 0x8000000000008003, 0x8000000000008002, 0x8000000000000080,
   0x000000000000800A, 0x800000008000000A, 0x8000000080008081, 0x8000000000008080, 0x0000000080000001, 0x8000000080008008]

/-- The rotation of lane x + 5 y. -/
def keccakRot : List Nat :=
  [0, 1, 62, 28, 27, 36, 44, 6, 55, 20, 3, 10, 43, 25, 39, 41, 45, 15, 21, 8, 18, 2, 61, 56, 14]

/-- One round. -/
def keccakRound (a : List Dword) (rc : Dword) : List Dword :=
  let at_ (l : List Dword) (x y : Nat) : Dword := l.getD (x % 5 + 5 * (y % 5)) 0
  let c := (List.range 5).map (fun x => (List.range 5).foldl (fun v y => v ^^^ at_ a x y) 0#64)
  let d := (List.range 5).map (fun x => c.getD ((x + 4) % 5) 0 ^^^ (c.getD ((x + 1) % 5) 0).rotateLeft 1)
  let t := (List.range 25).map (fun i => a.getD i 0 ^^^ d.getD (i % 5) 0)
  -- lane (x, y) of b is lane (x + 3 y, x) of t, rotated
  let b := (List.range 25).map (fun i =>
    let x := i % 5
    let y := i / 5
    let j := (x + 3 * y) % 5 + 5 * x
    (t.getD j 0).rotateLeft (keccakRot.getD j 0))
  let e := (List.range 25).map (fun i => at_ b (i % 5) (i / 5) ^^^ (~~~(at_ b (i % 5 + 1) (i / 5)) &&& at_ b (i % 5 + 2) (i / 5)))
  match e with
  | x :: xs => (x ^^^ rc) :: xs
  | [] => []

/-- Keccak-f[1600] on 25 lanes. -/
def keccakF (a : List Dword) : List Dword := keccakRounds.foldl keccakRound a

/-- A block of 168 bytes is absorbed. -/
def absorb (a : List Dword) (block : List Byte) : List Dword :=
  keccakF ((List.range 25).map (fun i =>
    a.getD i 0 ^^^ (if i < 21 then BitVec.ofNat 64 (leNat ((block.drop (8 * i)).take 8)) else 0)))

/-- Whole blocks are absorbed, `n` of them. -/
def absorbAll : Nat → List Dword → List Byte → List Dword
  | 0, a, _ => a
  | n + 1, a, bs => absorbAll n (absorb a (bs.take 168)) (bs.drop 168)

/-- Bytes padded with zeros to a multiple of 168. -/
def zeroPad (bs : List Byte) : List Byte := bs ++ List.replicate ((168 - bs.length % 168) % 168) 0

/-- The bytes of a number, most significant first, at least one. -/
def beBytes (n : Nat) : List Byte :=
  if n < 256 then [BitVec.ofNat 8 n] else if n < 65536 then [BitVec.ofNat 8 (n / 256), BitVec.ofNat 8 n]
  else [BitVec.ofNat 8 (n / 65536), BitVec.ofNat 8 (n / 256), BitVec.ofNat 8 n]

/-- left_encode. -/
def leftEncode (n : Nat) : List Byte := BitVec.ofNat 8 (beBytes n).length :: beBytes n
/-- right_encode. -/
def rightEncode (n : Nat) : List Byte := beBytes n ++ [BitVec.ofNat 8 (beBytes n).length]
/-- encode_string of whole bytes. -/
def encodeString (bs : List Byte) : List Byte := leftEncode (8 * bs.length) ++ bs
/-- bytepad to 168 bytes. -/
def bytepad (bs : List Byte) : List Byte := zeroPad (leftEncode 168 ++ bs)
/-- The bytes of an ASCII string. -/
def ascii (t : String) : List Byte := t.toList.map (fun c => BitVec.ofNat 8 c.toNat)

/-- The first `n` bytes, at most 168, of cSHAKE128 of a message under a function name and a customisation string. -/
def cshake128 (n : Nat) (name custom msg : List Byte) : List Byte :=
  let m := bytepad (encodeString name ++ encodeString custom) ++ msg ++ [0x04]
  let p := zeroPad m
  let last := p.getD (p.length - 1) 0 ||| 0x80
  let p1 := p.take (p.length - 1) ++ [last]
  let a := absorbAll (p1.length / 168) (List.replicate 25 0) p1
  (a.flatMap (fun w => leBytes 8 w.toNat)).take n

/-- The first `n` bytes of KMAC128 of a message under a key and a customisation string, for an output of 8 n bits. (PRESUMED, log 76.) -/
def kmac128 (n : Nat) (key msg : List Byte) (custom : String) : List Byte :=
  cshake128 n (ascii "KMAC") (ascii custom) (bytepad (encodeString key) ++ msg ++ rightEncode (8 * n))

/-- A 256-bit key as its bytes, least significant first. -/
def keyBytes (k : BitVec 256) : List Byte := leBytes 32 k.toNat

/-- The 64-bit tag of a message, in output order. -/
def tag64 (k : BitVec 256) (msg : List Byte) (custom : String) : List Byte := kmac128 8 (keyBytes k) msg custom

end Sys2Proof.Machine
end

