-- ==== Sys2Proof/Machine/System.lean ====
section
/-! DEFINITION. The privileged instructions CRWR, CARVE, TRET, TLBINV and ICINV, opcodes 0xF0 to 0xF4 (R133, R305 to R307,
R374, R379), and the event INVALIDATION_COMPLETE. -/
namespace Sys2Proof.Machine

/-! Control registers (R131, R133). -/

/-- The clocks of a cluster go on at another step, and the change is recorded (R429). -/
def State.setStep (s : State) (g n : Nat) : State :=
  if (s.cluster g).step = n then s
  else (s.modCluster g (fun c => { c with clkBase := s.clusterClk g, clkSince := s.clk, step := n })).logDry (g / 16) 0x0D 0 g n 0

/-- PWR of CTXMODE is STEADY (R431). -/
def Context.steady (c : Context) : Bool := c.ctxmode.toNat / 8 % 4 == 1

/-- A context whose policy is STEADY runs its clusters at step 12, but for those that heat holds lower (R430, R431). -/
def State.applyPower (s : State) (ctx : Nat) : State :=
  if (s.ctx ctx).steady && (s.ctx ctx).phase != .saved then
    (s.ctx ctx).clusters.foldl (fun (u : State) g => if s.hot.contains (g / 16) then u else u.setStep g 12) s
  else s

/-- A write of a control register under its access codes (R3, R131): SILLAGE, TRAPVEC, SPAWNTMR, CTXMODE and CRING keep
their RW fields, and the others discard it. (DESIGN CHOICE, log 134.) -/
def State.writeCreg (s : State) (ctx : Nat) (r : CReg) (v : Dword) : State :=
  match r with
  | .sillage => s.modCtx ctx (fun c => { c with sillage := v &&& 0x7FFF#64 })
  | .trapvec => s.modCtx ctx (fun c => { c with trapvec := v &&& 0x000FFFFFFFFFFFFD#64 })
  | .spawntmr => s.modCtx ctx (fun c => { c with spawntmr := v &&& 0xFFFF#64 })
  | .ctxmode => (s.modCtx ctx (fun c => { c with ctxmode := v &&& 0x1F#64 })).applyPower ctx
  | .cring => s.modCtx ctx (fun c => { c with cring := v &&& 0x000FFFFFFFFFF03F#64, ringSeq := 1 })
  | _ => s

def execCrwr (a : CReg) (b : SSrc) (s : State) :=
  issueOp (.crwr a b) s (fun s => (if s.activeMask = 0 then s else s.writeCreg s.curWave.ctx a (s.readS64 b)).finish)

/-! CARVE (R305 to R307). -/

/-- A split waits to make an access of the slice path that it issued before any CARVE held accesses. -/
def Split.slicePending (sp : Split) : Bool :=
  (match sp.wait with
    | some (.fence _ _ _ _ _ _) | some .loads | some .retry | some (.waita _ _ _ true) => true
    | _ => false) && inRanges [(0xA0, 0xB4), (0xB6, 0xB6), (0xB8, 0xBD), (0xC4, 0xC5)] sp.opc

/-- Every slice access that a context issued has completed: no store queued, no load in flight and no access that waits, but those
that pre-emption keeps from issuing, which execute again after the save (R308). -/
def State.sliceQuiet (s : State) (ctx : Nat) : Bool :=
  (tvals s.cores).all (fun c => (tvals c.wq).all (fun e => e.ctx != ctx)) &&
    (tvals s.waves).all (fun w => w.ctx != ctx || (w.loads.isEmpty &&
      (((s.ctx ctx).phase != .running && (!w.handler || w.halted)) || (tvals w.splits).all (fun sp => !sp.slicePending))))

/-- The lines in ways lo to hi - 1 of the slices of a context. -/
def State.linesInWays (s : State) (ctx lo hi : Nat) : List (Nat × Nat) :=
  s.stackTbl.flatMap (fun p => (p.2.lines.filter (fun q =>
    (s.ctx ctx).clusters.contains q.2.slice && lo ≤ q.2.way && q.2.way < hi)).map (fun q => (p.1, q.1)))

/-- A write-back is on its way to its home. -/
def State.writingBack (s : State) : Bool := s.net.any (fun i => match i with | .wb _ _ => true | _ => false)

/-- The stack scratchpad of a context after a change of SPWAYS: a byte keeps its address while it lies below both sizes
(R303, R306). -/
def Context.resizeStacks (n : Nat) (c : Context) : Context :=
  let keep (stack : Nat) : Nat := min c.spways n * 524288 * c.nslice stack
  { c with
    spways := n, carveBusy := false, carves := c.carves.tail,
    stackSp := c.stackSp.map (fun p => (p.1, p.2.filter (fun q => decide (q.1 < keep p.1)))),
    stackPoison := c.stackPoison.map (fun p => (p.1, p.2.filter (fun g => decide (g < keep p.1)))) }

/-- CARVE ends: the new size, and the old WAYPART in s[d]. -/
def State.carveDone (s : State) (d : SDst) (n : Nat) (old : Dword) : State :=
  ((s.modCtx s.curWave.ctx (Context.resizeStacks n)).putS d old).finish

/-- CARVE while it holds: earlier accesses complete, the lines of the surrendered ways go home, and the size changes. -/
def State.carveOn (s : State) (d : SDst) (n : Nat) (old : Dword) : State :=
  let ctx := s.curWave.ctx
  let k : Wait := .carve old
  if !s.sliceQuiet ctx then s.stall k
  else
    let ls := s.linesInWays ctx (16 - n) (16 - (s.ctx ctx).spways)
    if !ls.isEmpty then (ls.foldl (fun (u : State) p => u.evict p.1 p.2) s).stall k
    else if s.writingBack then s.stall k
    else s.carveDone d n old

/-- A CARVE has issued: it takes its place among those of the context. -/
def State.enterCarve (s : State) : State :=
  s.modCtx s.curWave.ctx (fun c => if c.carves.contains s.issue.wave then c else { c with carves := c.carves ++ [s.issue.wave] })

/-- CARVE: SPWAYS of the context becomes A in every stack. (DESIGN CHOICE, log 159.) -/
def execCarve (d : SDst) (a : SSrc) (s : State) :=
  issueOp (.carve d a) s (fun s =>
    let n := (s.readS64 a).toNat
    if s.activeMask = 0 then (s.putS d 0).finish
    else match s.curSplit.wait with
      | some (.carve old) => s.carveOn d n old
      | _ =>
        if 16 < n then s.trapHere (s.info 0x17 1)
        else
          let s0 := s.enterCarve
          match s0.gate 6 true true with
          | some u => u
          | none =>
            if s0.curCtx.carves.head? != some s.issue.wave then s0.stall .retry
            else
              let s1 := s0.released s.curWave.core 6
              let old := s1.curCtx.waypart (stackOf s.curWave.core)
              if n = s1.curCtx.spways then ((s1.modCtx s.curWave.ctx (fun c => { c with carves := c.carves.tail })).putS d old).finish
              else (s1.modCtx s.curWave.ctx (fun c => { c with carveBusy := true })).carveOn d n old)

/-! TRET (R374). -/

/-- The copies of an offset that still hold a live lane. -/
def liveCopies (live : LaneMask) (cs : List (Nat × LaneMask)) : List (Nat × LaneMask) :=
  (cs.map (fun c => (c.1, c.2 &&& live))).filter (fun c => c.2 != 0)

/-- The saved splits and deferred entries without the lanes that retired in the handler; those left with no lane are gone. -/
def Wave.liveSplits (w : Wave) : Tbl Split :=
  (tmap w.savedSplits (fun sp => { sp with mask := sp.mask &&& w.live, copies := liveCopies w.live sp.copies })).filter
    (fun p => p.2.mask != 0)

/-- See `Wave.liveSplits`. -/
def Wave.liveDeferred (w : Wave) : List Deferred :=
  (w.savedDeferred.map (fun d => { d with mask := d.mask &&& w.live, copies := liveCopies w.live d.copies })).filter (fun d => d.mask != 0)

/-- A split whose copies still to issue have all lost their lanes has done with its offset. -/
def Split.skipEmpty (sp : Split) : Split := if sp.begun && sp.copies.isEmpty then Split.advance sp.len sp else sp
/-- See `Split.skipEmpty`. -/
def Deferred.skipEmpty (d : Deferred) : Deferred := if d.begun && d.copies.isEmpty then (Split.advance d.len d.split).park else d

/-- The lanes of a split in planes p and above, by plane, as the copies still to issue. -/
def Wave.copiesFrom (w : Wave) (m : LaneMask) (p : Nat) : List (Nat × LaneMask) :=
  ((List.range 4).filter (fun q => p ≤ q)).filterMap (fun q =>
    let l := LaneMask.ofLanes (m.lanes.filter (fun l => w.plane l = q))
    if l = 0 then none else some (q, l))

/-- The split at which the wave resumes: at the position the device wrote it begins with the copy that trapped, elsewhere
with every occupied plane. (DEDUCED, log 22.) -/
def Wave.resumeSplit (w : Wave) (r : Dword) (m : Half) (sp : Split) : Split :=
  let plane := memNat w.frame 38 1
  if r = w.frameResume then
    { sp with
      pos := r, wait := none, copies := if sp.begun then sp.copies else if plane = 0 then [] else w.copiesFrom sp.mask plane,
      offMode := if m = w.frameMode then sp.offMode else m }
  else { sp with pos := r, wait := none, copies := [], begun := false, offMode := m }

/-- The state of the wave after the return: everything saved at entry, MODE and the position from the frame; slots left free
are filled, and the count of passes goes on for an oldest entry that is still there (R27, R49). (DEDUCED, log 128.) -/
def Wave.trapReturn (w : Wave) (r : Dword) : Wave :=
  let m : Half := BitVec.ofNat 16 (memNat w.frame 44 2)
  let w1 : Wave := { w with planes := w.savedPlanes }
  let splits := tmap (tmodify w.liveSplits w.savedIssuing (w1.resumeSplit r m)) Split.skipEmpty
  ({ w1.loseLatches with
    splits := splits, issuing := w.savedIssuing, mode := m, handler := false, resumed := true,
    passes := if w.savedDeferred.head?.any (fun d => d.mask &&& w.live != 0) then w.savedPasses else 0, passSlot := w.savedPassSlot,
    struck := w.struck.filter (fun c => c != .mode true && c != .split true),
    deferred := w.liveDeferred.map Deferred.skipEmpty } : Wave).fillSlots

/-- The return from an exception after its fence: MISALIGNED at a position that the form of its image cannot hold, else the
wave goes on and the stalled work it served starts again. -/
def State.trapReturn (s : State) : State :=
  let w := s.curWave
  let c := s.curCtx
  let r := c.position (BitVec.ofNat 64 (memNat w.frame 0 8))
  if r.toNat % formAlign (c.formAt r) != 0 then s.trapHere (s.info 0x0B 0)
  else
    let s1 := ((s.released w.core 6).modCur (fun w => w.trapReturn r)).replayWork s.issue.wave
    if (tget? s1.curWave.splits w.savedIssuing).isSome then s1 else s1.passCur

/-- TRET waits as a FENCE acq_rel at package scope, and returns. -/
def execTret (s : State) :=
  issueOp .tret s (fun s =>
    match s.gate 6 true true with
    | some u => u
    | none => s.trapReturn)

/-! TLBINV and ICINV (R379). -/

/-- Cached translations of a context that TLBINV discards: those of the page that holds an address, or all. -/
def Core.dropTlb (ctx : Nat) (a : Option Dword) (c : Core) : Core :=
  { c with tlb := c.tlb.filter (fun p =>
      p.1 / 2 ^ 64 != ctx || !(match a with
        | none => true
        | some v => p.1 % 2 ^ 64 ≤ v.toNat && v.toNat < p.1 % 2 ^ 64 + p.2.size)) }

/-- Code lines of a context that ICINV discards. -/
def Core.dropCode (ctx : Nat) (a : Option Dword) (c : Core) : Core :=
  { c with icache := c.icache.filter (fun p =>
      p.1 / 2 ^ 64 != ctx || !(match a with
        | none => true
        | some v => p.1 % 2 ^ 64 == v.toNat / 128 * 128)) }

/-- The attempts of a context's engines that have read words abandon them, and replay with new translations (R379). (DESIGN CHOICE, log 146.) -/
def State.abandonReads (s : State) (ctx : Nat) : State :=
  let win (x : Window) : Window :=
    if x.st == .inflight && !x.seen.isEmpty then { x with seen := [], replays := x.replays + 1, fault := 0, faddr := 0 } else x
  let cmd (c : GatherCmd) : GatherCmd :=
    if c.ctx = ctx && !c.stalled && !c.seen.isEmpty then
      (if c.op == .scatter then { c with seen := [] } else { c with seen := [], replays := c.replays + 1, fault := 0, faddr := 0 })
    else c
  { s with
    blocks := tmap s.blocks (fun b => if b.ctx = ctx then { b with windows := tmap b.windows win } else b),
    clusters := tmap s.clusters (fun g => { g with gather := g.gather.map cmd }) }

/-- The flow of an invalidation: the fence, the broadcast, the hold of the idle tree, and the end, at which what was cached
meanwhile goes as well. -/
def State.invalidate (s : State) (f : Core → Core) (engines : Bool) : State :=
  let drop (u : State) : State :=
    let v : State := { u with cores := tmap u.cores f }
    if engines then v.abandonReads u.curWave.ctx else v
  if s.activeMask = 0 then s.finish
  else match s.curSplit.wait with
    | some .quiet => (drop s).finish
    | some (.hold m t) => s.stall (.hold m t)
    | _ =>
      match s.gate 6 true true with
      | some u => u
      | none => (drop (s.released s.curWave.core 6)).stall (.hold s.clk none)

/-- What an invalidation names: the address in A, or everything of the context. -/
def State.invTarget (s : State) (a : SSrc) (all : Bool) : Option Dword := if all then none else some (s.readS64 a)

def execTlbinv (a : SSrc) (b : Bool) (s : State) :=
  issueOp (.tlbinv a b) s (fun s => s.invalidate (Core.dropTlb s.curWave.ctx (s.invTarget a b)) true)
def execIcinv (a : SSrc) (b : Bool) (s : State) :=
  issueOp (.icinv a b) s (fun s => s.invalidate (Core.dropCode s.curWave.ctx (s.invTarget a b)) false)

/-- The accesses of a context that were made before a mark have been performed (R379, step 3). -/
def State.accessesDone (s : State) (ctx mark : Nat) : Bool :=
  (tvals s.cores).all (fun c => (tvals c.wq).all (fun e => e.ctx != ctx || mark ≤ e.entered)) &&
    (tvals s.waves).all (fun w => w.ctx != ctx || (tvals w.loads).all (fun p => mark ≤ p.issuedAt)) &&
    (tvals s.decants).all (fun d => d.done || mark ≤ d.entered || (tgetD s.waves d.wave {}).ctx != ctx) &&
    (tvals s.clusters).all (fun g => g.gather.all (fun c => c.ctx != ctx || c.row.isEmpty))

/-- A split that waits in TLBINV or ICINV, as the idle tree sees it now (R180, R379). -/
def State.holdSplit (s : State) (w : Wave) (sp : Split) : Split :=
  match sp.wait with
  | some (.hold m since) =>
    if !s.accessesDone w.ctx m then { sp with wait := some (.hold m none) }
    else match since with
      | none => { sp with wait := some (.hold m (some s.clk)) }
      | some t => if t + 2048 ≤ s.clk then { sp with wait := some .quiet } else sp
  | _ => sp

/-- INVALIDATION_COMPLETE: the idle tree's output for the splits of a wave that wait in TLBINV or ICINV. -/
def execInvalidationComplete (wave : Nat) (s : State) : Host.Outcome State Fault Refusal :=
  .next (s.modWave wave (fun w => { w with splits := tmap w.splits (s.holdSplit w) }))

end Sys2Proof.Machine
end

