-- ==== Sys2Proof/Machine/Launch.lean ====
section
/-! DEFINITION. From a launch frame to a resident wave (R332 to R346, R350 to R355, R43): frames and their
acknowledgements, launch records, registration and image choice, placement and the dispatcher, and how a launch drains;
the events LAUNCH_FRAME, WAIT_WORD_POLL, QUEUE_RESERVING and LAUNCH_DRAIN. -/
namespace Sys2Proof.Machine

/-! Frames (R332 to R334). -/

/-- The kind of frame of the port that carries something, if one does. -/
def Out.traffic : Out → Option Nat
  | .datagram _ _ => some 0
  | .roceAck _ | .roceNak _ _ | .roceData _ _ | .roceOld _ _ => some 1
  | .notice _ _ _ => some 2
  | .neighbour _ => some 3
  | .response _ _ _ _ | .tell _ _ _ | .noticesDropped _ _ => none

/-- A frame is to be sent at a paused priority (R398). -/
def NDie.holds (n : NDie) (o : Out) : Bool := o.traffic.any (fun k => n.paused.contains (Config.framePriority k))

/-- Something leaves the package, or waits while the priority of its frame is paused. -/
def State.emit (s : State) (o : Out) : State :=
  if s.nd.holds o then { s with nd := { s.nd with heldOut := s.nd.heldOut ++ [o] } } else { s with out := s.out ++ [o] }

/-- The most bytes that a frame of the port carries (R398); what is longer is dropped. (DESIGN CHOICE, log 147.) -/
def frameLimit : Nat := 9216

/-- The number of entries of an acknowledgement: the whole records that the payload holds. -/
def frameEntries (p : List Byte) : Nat := min 63 ((p.length - 64) / 128)

/-- The record at an index of a payload. -/
def frameRecord (p : List Byte) (i : Nat) : List Byte := (p.drop (64 + 128 * i)).take 128

/-- An acknowledgement from its entries, LID and STATUS. -/
def ackBytes (p : List Byte) (es : List (Nat × Nat)) : List Byte :=
  (p.take 16 ++ List.replicate (16 - p.length) 0) ++ es.flatMap (fun e => leBytes 4 e.1 ++ leBytes 1 e.2 ++ leBytes 3 0)

/-- An acknowledgement with one status for every record. -/
def ackAll (p : List Byte) (status : Nat) : List Byte := ackBytes p (List.replicate (frameEntries p) (0, status))

/-- The tag of a payload (R332). -/
def frameTag (key : BitVec 256) (p : List Byte) (custom : String) : List Byte :=
  tag64 key (p.take 16 ++ List.replicate 8 0 ++ p.drop 24) custom

/-- The frame is BAD_FRAME. -/
def frameBad (p : List Byte) : Bool :=
  let f := recField p
  p.length < 64 || f 6 1 = 0 || 63 < f 6 1 || p.length != 64 + 128 * f 6 1 || f 0 4 != 0x1A4C0002 || f 4 1 != 1 ||
    2 ≤ f 7 1 || f 24 40 != 0

/-- The cases of R333 in their order: the acknowledgement of a frame that is not accepted, or none. -/
def frameRefused (p : List Byte) (key : Option (BitVec 256)) (custom : String) (last : Nat) (acks : Tbl (List Byte)) :
    Option (List Byte) :=
  let seq := recField p 8 8
  if frameBad p then some (ackAll p 1)
  else match key with
    | none => some (ackAll p 2)
    | some k =>
      if (p.drop 16).take 8 != frameTag k p custom then some (ackAll p 3)
      else if seq ≤ last then some ((tget? acks seq).getD (ackAll p 5))
      else if seq != last + 1 then some (ackAll p 4)
      else none

/-- The acknowledgements kept: those of the last 64 frames of a sequence. -/
def keepAck (acks : Tbl (List Byte)) (seq : Nat) (a : List Byte) : Tbl (List Byte) :=
  (tset acks seq a).filter (fun p => decide (seq < p.1 + 64))

/-! Launch records (R335, R336). -/

/-- The role of a code. -/
def roleOf : Nat → Role
  | 0 => .v | 1 => .c | _ => .x

/-- The launch that a record of 128 bytes asks for. -/
def parseLaunch (ctx : Nat) (r : List Byte) : Launch :=
  let f := recField r
  { ctx := ctx, queue := f 66 1, prio := f 65 1, codeObj := BitVec.ofNat 64 (f 0 8), func := f 8 4,
    args := BitVec.ofNat 64 (f 16 8), blocks := f 12 4, coloc := f 64 1, gang := f 68 2, rectw := f 70 1, recth := f 71 1,
    scratch := f 56 4, lanepriv := f 60 2, accum := f 62 1,
    waves := (List.range (f 63 1)).map (fun i => ⟨roleOf (f (72 + i) 1 % 4), 16 * (f (72 + i) 1 / 4)⟩),
    wait0 := BitVec.ofNat 64 (f 32 8), wval0 := f 104 4, wait1 := BitVec.ofNat 64 (f 40 8), wval1 := f 108 4,
    signal := BitVec.ofNat 64 (f 24 8), notice := BitVec.ofNat 64 (f 48 8) }

/-- The largest gang of a co-location level (R6, R335). -/
def gangLimit : Nat → Nat
  | 2 => 8 | 3 => 128 | 4 => 256 | 5 => 1024 | 6 => 2048 | _ => 0

/-- A WAVEDESC byte within its limits. -/
def waveDescOk (b : Nat) : Bool := b % 4 != 3 && 1 ≤ b / 4 % 16 && b / 4 % 16 ≤ 8 && b < 64

/-- Every field of a record lies within its limits: else BAD_FIELD. -/
def launchFieldsOk (r : List Byte) : Bool :=
  let f := recField r
  let n := f 63 1
  let gang := f 68 2
  let descs := (List.range 32).map (fun i => f (72 + i) 1)
  f 0 8 % 4096 == 0 && 1 ≤ f 12 4 && f 12 4 ≤ 16777215 && f 24 8 % 8 == 0 && f 32 8 % 8 == 0 && f 40 8 % 8 == 0 &&
    f 48 8 % 8 == 0 && f 60 2 % 4 == 0 && f 60 2 ≤ 2048 && f 62 1 ≤ 8 && 1 ≤ n && n ≤ 32 && 2 ≤ f 64 1 && f 64 1 ≤ 6 &&
    f 65 1 < 4 && f 66 1 < 64 && f 67 1 == 0 && 1 ≤ gang && gang ≤ gangLimit (f 64 1) && f 12 4 % gang == 0 &&
    (f 70 1 == 0) == (f 71 1 == 0) && (f 70 1 == 0 || f 70 1 * f 71 1 == gang) &&
    (descs.take n).all waveDescOk && (descs.drop n).all (· == 0) && (f 62 1 != 0 || (descs.take n).all (fun d => d % 4 != 2)) &&
    f 112 16 == 0

/-! What a block takes (R16, R292). -/

/-- T_b + T_l of R292. -/
def tilesFor (scratch lanepriv waves : Nat) : Nat := (scratch + 8191) / 8192 + (lanepriv * 32 * waves + 8191) / 8192

/-- The tiles of one block of a launch. -/
def Launch.tiles (l : Launch) : Nat := tilesFor l.scratch l.lanepriv l.waves.length
/-- The waves of one block that run on a partition (R8). -/
def Launch.partWaves (l : Launch) (p : Nat) : List WaveDecl := (l.waves.zipIdx.filter (fun w => w.2 % 8 = p)).map Prod.fst
/-- The vector registers that one block takes in a partition. -/
def Launch.partRegs (l : Launch) (p : Nat) : Nat := ((l.partWaves p).map (fun w => w.nvregs)).foldl (· + ·) 0

/-- A context stands on its clusters: it is not saved. -/
def State.stands (s : State) (ctx : Nat) : Bool := (s.ctx ctx).phase != .saved

/-- The waves that are resident in a partition. -/
def State.partWaves (s : State) (core p : Nat) : List Wave :=
  (tvals s.waves).filter (fun w => w.core = core && w.part = p && s.stands w.ctx)
/-- The vector registers that are taken in a partition. -/
def State.partRegs (s : State) (core p : Nat) : Nat := ((s.partWaves core p).map (fun w => w.nvregs)).foldl (· + ·) 0
/-- The blocks whose resources a core holds (R12). (DEDUCED, log 68.) -/
def State.coreBlocks (s : State) (core : Nat) : List Block := (tvals s.blocks).filter (fun b => b.core = core && !b.released && s.stands b.ctx)

/-- The blocks of a cluster group (R9). -/
def State.groupOf (s : State) (b : Block) : Tbl Block :=
  s.blocks.filter (fun p => !p.2.released && p.2.launch = b.launch && p.2.gang = b.gang && clusterOf p.2.core = clusterOf b.core)

/-- A core has room for one block of a launch beside some of its blocks (R8, R16, R292, R340). -/
def fitsBeside (l : Launch) (bs : List Block) (regs waves : Nat → Nat) : Bool :=
  bs.length < 8 && (bs.map (fun b => tilesFor b.size b.lanepriv b.nwaves)).foldl (· + ·) 0 + l.tiles ≤ 48 &&
    (bs.map (fun b => b.accum)).foldl (· + ·) 0 + l.accum ≤ 8 &&
    (List.range 8).all (fun p => regs p + l.partRegs p ≤ 1024 && waves p + (l.partWaves p).length ≤ 16)

/-- A core has room for one block of a launch now. -/
def State.hasRoom (s : State) (l : Launch) (core : Nat) : Bool :=
  fitsBeside l (s.coreBlocks core) (s.partRegs core) (fun p => (s.partWaves core p).length)

/-! Placement (R340). -/

/-- The cell of a core in the logical core grid. -/
def cellOf (core : Nat) : Nat × Nat :=
  let d := core / 128
  let c := core / 8 % 16
  let k := core % 8
  (2 * (c % 4) + k % 2 + 8 * (d % 2) + 16 * (d / 2 % 4), 4 * (c / 4) + k / 2 + 16 * (d / 8))

/-- The origin cell of a unit of a level, and its size. -/
def unitCells (level unit : Nat) : (Nat × Nat) × (Nat × Nat) :=
  match level with
  | 2 => (cellOf (unit * 8), (2, 4))
  | 3 => (cellOf (unit * 128), (8, 16))
  | 4 => (cellOf (unit * 256), (16, 16))
  | 5 => (cellOf (unit * 1024), (64, 16))
  | _ => ((0, 0), (64, 32))

/-- The cells of a rectangle at an origin, in the order of its blocks. -/
def rectCells (w h x0 y0 : Nat) : List (Nat × Nat) := (List.range (w * h)).map (fun g => (x0 + g % w, y0 + g / w))

/-- The origins of a rectangle within a unit, in row-major order. -/
def rectOrigins (level unit w h : Nat) : List (Nat × Nat) :=
  let ((ux, uy), (uw, uh)) := unitCells level unit
  if uw < w || uh < h then []
  else (List.range (uh - h + 1)).flatMap (fun j => (List.range (uw - w + 1)).map (fun i => (ux + i, uy + j)))

/-- The cores at cells, all of them from a list. -/
def coresAt (free : List Nat) (cells : List (Nat × Nat)) : Option (List Nat) :=
  cells.foldr (fun c r => match r, free.find? (fun k => cellOf k == c) with
    | some ks, some k => some (k :: ks)
    | _, _ => none) (some [])

/-- The cores that the blocks of a gang take within one unit, from those that have room (R340). -/
def gangIn (l : Launch) (free : List Nat) (unit : Nat) : Option (List Nat) :=
  let here := free.filter (fun k => unitOf l.coloc k = unit)
  if l.rectw = 0 then (if l.gang ≤ here.length then some (here.take l.gang) else none)
  else (rectOrigins l.coloc unit l.rectw l.recth).findSome? (fun o => coresAt here (rectCells l.rectw l.recth o.1 o.2))

/-- The cores that the blocks of a gang take: in the lowest-numbered unit that has them. -/
def gangCores (l : Launch) (free : List Nat) : Option (List Nat) :=
  ((free.map (unitOf l.coloc)).dedup.insertionSort (· ≤ ·)).findSome? (gangIn l free)

/-- The cores of the clusters that a context owns and may place work on, ascending. -/
def State.ownedCores (s : State) (ctx : Nat) : List Nat :=
  (((s.ctx ctx).clusters.filter (fun g => !(s.cluster g).withdrawn && !s.dead.contains (g / 16))).insertionSort (· ≤ ·)).flatMap
    (fun g => (List.range 8).map (fun k => g * 8 + k))

/-- The queue of a context. -/
def Context.queue (c : Context) (q : Nat) : Queue := tgetD c.queues q {}
/-- Change a queue of a context. -/
def State.modQueue (s : State) (ctx q : Nat) (f : Queue → Queue) : State :=
  s.modCtx ctx (fun c => { c with queues := tset c.queues q (f (c.queue q)) })

/-- Another queue of the context reserves the unit of a core, and this queue does not itself (R341). (DEDUCED, log 69.) -/
def Context.reservedFrom (c : Context) (q core : Nat) : Bool :=
  let holds (x : Queue) : Bool := x.reserving.any (fun r => unitOf r.1 core == r.2)
  !holds (c.queue q) && c.queues.any (fun p => p.1 != q && holds p.2)

/-- A launching bin of a cluster waits for its wave to be placed, which comes before any gang there (R346). (DEDUCED, log 70.) -/
def Cluster.launching (c : Cluster) : Bool := (tvals c.bins).any (fun b => b.launching && !b.threads.isEmpty)

/-- The die of a core takes no dispatch: its warm reset has begun (R410). -/
def State.resetting (s : State) (die : Nat) : Bool := (tget? s.resets die).isSome

/-- The cores on which the next gang of a queue may be placed now. -/
def State.freeCores (s : State) (ctx q : Nat) (l : Launch) : List Nat :=
  (s.ownedCores ctx).filter (fun k =>
    !(s.ctx ctx).reservedFrom q k && !(s.cluster (clusterOf k)).launching && !s.resetting (dieOf k) && s.hasRoom l k)

/-- The checks of NO_FIT (R336). -/
def State.launchFits (s : State) (ctx : Nat) (l : Launch) : Bool :=
  fitsBeside l [] (fun _ => 0) (fun _ => 0) && (gangCores l (s.ownedCores ctx)).isSome

/-- A record is checked and, if it passes, filed at the tail of its queue: LID and STATUS (R336). -/
def State.fileRecord (s : State) (ctx : Nat) (r : List Byte) : State × (Nat × Nat) :=
  let l := parseLaunch ctx r
  if !launchFieldsOk r then (s, (0, 0x10))
  else if !s.launchFits ctx l then (s, (0, 0x11))
  else if 256 ≤ ((tvals s.launches).filter (fun x => x.ctx = ctx && x.queue = l.queue && !x.drained)).length then (s, (0, 0x12))
  else
    let lid := (s.ctx ctx).filed + 1
    let s1 : State := { s with launches := tset s.launches s.nextLaunch { l with lid := lid }, nextLaunch := s.nextLaunch + 1 }
    (((s1.modCtx ctx (fun c => { c with filed := lid })).modQueue ctx l.queue (fun x =>
      { x with pending := x.pending ++ [s.nextLaunch] })), (lid, 0))

/-- The records of a frame are filed in order. -/
def State.fileAll (s : State) (ctx : Nat) (rs : List (List Byte)) : State × List (Nat × Nat) :=
  rs.foldl (fun (p : State × List (Nat × Nat)) r => let (s1, e) := p.1.fileRecord ctx r; (s1, p.2 ++ [e])) (s, [])

/-! Event words (R337, R338). -/

/-- The word of `n` bytes at an address of a context; none if it cannot be read. -/
def State.vaWord (s : State) (ctx : Nat) (va : Dword) (n : Nat) : Option Nat :=
  match s.enginePlace ctx va .read with
  | .ok pa => if s.poisonedAt pa then none else some (memNat s.mem pa n)
  | .error _ => none

/-- What the wait words of a head launch say. -/
inductive WaitState where
  | ready | waiting | failed
  | unreadable (va : Dword)
deriving DecidableEq, Repr

/-- One wait word. -/
def State.waitWord (s : State) (ctx : Nat) (va : Dword) (val : Nat) : WaitState :=
  if va = 0 then .ready
  else match s.vaWord ctx va 8 with
    | none => .unreadable va
    | some e => if 2 ^ 63 ≤ e then .failed else if val ≤ e % 2 ^ 32 then .ready else .waiting

/-- Both wait words of a launch. -/
def State.waits (s : State) (l : Launch) : WaitState :=
  match s.waitWord l.ctx l.wait0 l.wval0, s.waitWord l.ctx l.wait1 l.wval1 with
  | .ready, x => x
  | .waiting, .ready => .waiting
  | .waiting, x => x
  | x, _ => x

/-- EVENT_FAULT (R419); the host is told of a signal that was not made (R337). -/
def State.eventFault (s : State) (ctx : Nat) (signal : Bool) (va : Dword) : State :=
  let s1 := s.logDry 0x30 0x10 0 0 (ctx + (if signal then 256 else 0)) va.toNat
  if signal then s1.emit (.tell 0x10 0 (ctx + 256)) else s1

/-- The lines of a launch's wait words. -/
def State.waitLines (s : State) (l : Launch) : List Nat :=
  ([l.wait0, l.wait1].filter (· != 0)).filterMap (fun va => match s.enginePlace l.ctx va .read with
    | .ok pa => some (lineOf pa)
    | .error _ => none)

/-- The home of a line keeps requests of the N-die waiting: a warm reset holds them, or the line is being converted (R330, R411). -/
def State.homeWaits (s : State) (line : Nat) : Bool := s.converting line || s.homeHeld line

/-- The wait words of a launch that is not ready are read (R338), as an acquire at package scope: narrower releases of their lines
are published first, and what was read is visible in the package when the launch is ready (R280). -/
def State.readWaits (s : State) (k : Nat) : State :=
  let l := s.launch k
  let lines := s.waitLines l
  let tags := lines.flatMap s.tagsOf
  if l.ready || l.failed || lines.any s.homeWaits then s
  else if !tags.isEmpty then tags.foldl (fun (u : State) t => u.askFpub t.core t.epoch 6 t.core) s
  else match s.waits l with
    | .ready => (lines.foldl (fun (u : State) x => u.publishLine x) s).modLaunch k (fun l => { l with ready := true })
    | .waiting => s.modQueue l.ctx l.queue (fun x => { x with polled := s.clk })
    | .failed => s.abandonLaunch k
    | .unreadable va => (s.eventFault l.ctx false va).abandonLaunch k

/-- The head of a queue: launches whose every gang has been dispatched leave it, and a new head's wait words are read. -/
def State.settleQueue (s : State) (ctx q : Nat) : Nat → State
  | 0 => s
  | n + 1 =>
    match ((s.ctx ctx).queue q).pending with
    | [] => s.modQueue ctx q (fun x => { x with deficit := min x.deficit 0, skips := 0, reserving := none })
    | k :: rest =>
      let s1 := s.readWaits k
      let l := s1.launch k
      if l.failed || l.gangs ≤ l.started then
        ((s1.modQueue ctx q (fun x => { x with pending := rest, skips := 0, reserving := none }))).settleQueue ctx q n
      else s1

/-- Every queue of a context is brought to its head. -/
def State.settleQueues (s : State) (ctx : Nat) : State :=
  (tkeys (s.ctx ctx).queues).foldl (fun (u : State) q => u.settleQueue ctx q (((u.ctx ctx).queue q).pending.length + 1)) s

/-! Code objects (R350 to R355). -/

/-- Every page of a range can be read by a context. (DEDUCED, log 71.) -/
def State.readable (s : State) (ctx : Nat) (va : Dword) (n : Nat) : Bool :=
  n = 0 || (List.range ((va.toNat % 65536 + n - 1) / 65536 + 1)).all (fun i =>
    match s.xlateWalk ctx (if i = 0 then va else BitVec.ofNat 64 ((va.toNat / 65536 + i) * 65536)) .read with
    | .ok _ => true
    | .error _ => false)

/-- A field of `n` bytes at an offset from an address. -/
def State.fieldAt (s : State) (ctx : Nat) (h : Dword) (o n : Nat) : Option Nat := s.vaWord ctx (h + BitVec.ofNat 64 o) n

/-- `n` words of `z` bytes from an offset. -/
def State.wordsAt (s : State) (ctx : Nat) (h : Dword) (o z n : Nat) : Option (List Nat) :=
  (List.range n).foldr (fun i r => match r, s.fieldAt ctx h (o + z * i) z with
    | some ws, some w => some (w :: ws)
    | _, _ => none) (some [])

/-- An accord entry within its limits: offset, P and S. -/
def parseAccord (base : Dword) (size e : Nat) : Option (Dword × Nat × Nat) :=
  let o := e % 2 ^ 32
  let p := e / 2 ^ 32 % 256
  let st := 2 ^ (e / 2 ^ 40 % 256)
  let a := base + BitVec.ofNat 64 o
  if (p = 2 || p = 4) && 8 ≤ e / 2 ^ 40 % 256 && e / 2 ^ 40 % 256 ≤ 16 && e / 2 ^ 48 == 0 && a.toNat % (p * st) == 0 && o + p * st ≤ size then
    some (a, p, st)
  else none

/-- Two accords share no byte. -/
def accordsApart (a b : Dword × Nat × Nat) : Bool :=
  a.1.toNat + a.2.1 * a.2.2 ≤ b.1.toNat || b.1.toNat + b.2.1 * b.2.2 ≤ a.1.toNat

/-- No two entries of a list share a byte. -/
def allApart : List (Dword × Nat × Nat) → Bool
  | [] => true
  | a :: as => as.all (accordsApart a) && allApart as

/-- The displacement of a transfer's operand, in its words, or none if a register or latch gives the target (R119). -/
def SSrcDisplacement : SSrc → Option Int
  | .imm h => some h.toInt
  | .inl n => some (inlVal n)
  | .lit w => some w.toInt
  | .zero => some 0
  | _ => none

/-- A transfer at an offset of a Bintodal image names an earlier place: by a negative displacement or, in an accord, an offset below
its own; or the target is not known from the word (R119). -/
def backwardFrom (acc : Option Nat) (x : SSrc) : Bool :=
  match SSrcDisplacement x, acc with
  | none, _ => match x with
    | .reg _ | .latch _ => true
    | _ => false
  | some d, none => decide (d < 0)
  | some d, some off => decide (0 ≤ d ∧ 8 * d < off)

/-- The Bintodal word at a safe point is a backward control transfer (R351); `acc` is its offset in its accord, if it lies in one. (DEDUCED, log 72.) -/
def isBackEdge (acc : Option Nat) (w : Nat) : Bool :=
  match decodeBintodal (BitVec.ofNat 64 w) with
  | .ok (.br _ b) => backwardFrom acc b
  | .ok (.brz _ b) => backwardFrom acc b
  | .ok (.brnz _ b) => backwardFrom acc b
  | .ok (.call _ b) => backwardFrom acc b
  | .ok (.ret _) => true
  | _ => false

/-- The offset of a code address in the plane of the accord that holds it. -/
def accordOffset (accs : List (Dword × Nat × Nat)) (a : Dword) : Option Nat :=
  (accs.find? (fun x => inSpan a x.1 (x.2.1 * x.2.2))).map (fun x => (a - x.1).toNat % x.2.2)

/-- The image header at an offset of an object, none outside the limits of R351 or unreadable. -/
def State.readImage (s : State) (ctx : Nat) (h : Dword) (o nfunc : Nat) : Option Image :=
  match s.wordsAt ctx h o 8 8 with
  | some [w0, features, codeoff, tagoff, fentoff, accoff, safeoff, w7] =>
    let form := w0 % 256
    let arch := w0 / 2 ^ 8 % 256
    let size := w0 / 2 ^ 32
    let nsafe := w7 % 2 ^ 32
    let nacc := w7 / 2 ^ 32 % 2 ^ 16
    let base := h + BitVec.ofNat 64 codeoff
    let align := if form = 0 then 4 else 8
    let ok := form ≤ 1 && (form == 0) == (arch != 0) && w0 / 2 ^ 24 % 256 == 0 && size % 128 == 0 && 128 ≤ size &&
      base.toNat % 4096 == 0 && tagoff % 8 == 0 && fentoff % 4 == 0 && accoff % 8 == 0 && safeoff % 4 == 0 &&
      (form == 1 || nsafe == 0) && w7 / 2 ^ 48 == 0 && s.readable ctx base size &&
      s.readable ctx (h + BitVec.ofNat 64 tagoff) (size / 16)
    if !ok then none
    else match s.wordsAt ctx h fentoff 4 nfunc, s.wordsAt ctx h accoff 8 nacc, s.wordsAt ctx h safeoff 4 nsafe with
      | some ents, some accs, some safe =>
        let acc := accs.filterMap (parseAccord base size)
        let good (e : Nat) : Bool := e < size && e % align == 0
        if ents.all good && safe.all good && acc.length == nacc && allApart acc &&
            safe.all (fun e => (s.fieldAt ctx base e 8).any (isBackEdge (accordOffset acc (base + BitVec.ofNat 64 e)))) then
          some { form := if form = 0 then .quadiner else .bintodal, archRev := arch, mmRev := w0 / 2 ^ 16 % 256,
                 features := BitVec.ofNat 64 features, base := base, size := size,
                 tagAddr := h + BitVec.ofNat 64 tagoff, entries := ents, accords := acc, safe := safe }
        else none
      | _, _, _ => none
  | _ => none

/-- The code object at an address, none if a check of R352 fails. -/
def State.readObject (s : State) (ctx : Nat) (h : Dword) : Option CodeObj :=
  match s.wordsAt ctx h 0 8 8 with
  | some [w0, w1, imgtab, xltab, tcodeoff, tsize, ttagoff, w7] =>
    let nimg := w0 / 2 ^ 40 % 256
    let nfunc := w1 % 2 ^ 32
    let tcode := h + BitVec.ofNat 64 tcodeoff
    let ttag := h + BitVec.ofNat 64 ttagoff
    let xl := h + BitVec.ofNat 64 xltab
    let ok := w0 % 2 ^ 32 == 0xA7D00C0B && w0 / 2 ^ 32 % 256 == 1 && 1 ≤ nimg && nimg ≤ 8 && w0 / 2 ^ 48 == 0 && 1 ≤ nfunc &&
      nfunc ≤ 65535 && w1 / 2 ^ 32 == 0 && imgtab % 64 == 0 && xltab % 32 == 0 && tcodeoff % 4096 == 0 && tsize % 128 == 0 &&
      ttagoff % 8 == 0 && w7 == 0 && s.readable ctx xl (32 * nfunc) && s.readable ctx tcode tsize && s.readable ctx ttag (tsize / 16)
    if !ok then none
    else
      let imgs := (List.range nimg).filterMap (fun i => s.readImage ctx h (imgtab + 64 * i) nfunc)
      if imgs.length == nimg then
        some { va := h, images := imgs, nfunc := nfunc, xltab := xl, tcode := tcode, tsize := tsize, ttag := ttag }
      else none
  | _ => none

/-- The registered object of a context at an address, by its key. -/
def Context.objectAt (c : Context) (va : Dword) : Option (Nat × CodeObj) := c.objs.find? (fun p => p.2.va == va)

/-- The translation cache of an object, by the physical address of its first byte (R359). -/
def State.cachePlace (s : State) (ctx : Nat) (o : CodeObj) : Option Nat :=
  if o.tsize = 0 then none
  else match s.xlateWalk ctx o.tcode .read with
    | .ok pa => some pa
    | .error _ => none

/-- What a translation cache holds. -/
def State.codeCache (s : State) (ctx : Nat) (o : CodeObj) : CodeCache := ((s.cachePlace ctx o).bind (tget? s.caches)).getD {}

/-- An object with the accords of its translation cache. -/
def CodeObj.withAccords (o : CodeObj) (c : CodeCache) : CodeObj :=
  { o with taccords := c.accords.map (fun a => (o.tcode + BitVec.ofNat 64 a.1, a.2.1, a.2.2)) }

/-- A context registers a code object at the first dispatch that names it (R352): its key, or none for a failed check or
a 65th object. -/
def State.register (s : State) (ctx : Nat) (va : Dword) : Option (State × Nat) :=
  match (s.ctx ctx).objectAt va with
  | some (k, _) => some (s, k)
  | none =>
    match (List.range 64).find? (fun k => (tget? (s.ctx ctx).objs k).isNone), s.readObject ctx va with
    | some k, some o => some (s.modCtx ctx (fun c => { c with objs := tset c.objs k (o.withAccords (s.codeCache ctx o)) }), k)
    | _, _ => none

/-- An image is eligible (R353 to R355). -/
def Image.eligible (mask : Byte) (i : Image) : Bool :=
  (i.mmRev == 1 || i.mmRev == 2) && i.features &&& ~~~((~~~mask).setWidth 64) == 0 && (i.form == .bintodal || i.archRev ≤ 1)

/-- The image chosen for a launch (R355). -/
def chooseImage (mask : Byte) (forced : Bool) (is : List Image) : Option Nat :=
  let es := is.zipIdx.filter (fun p => p.1.eligible mask)
  let bins := es.filter (fun p => p.1.form == .bintodal)
  let natives := es.filter (fun p => p.1.form == .quadiner)
  let best := natives.foldl (fun (b : Option (Image × Nat)) p => match b with
    | some q => if q.1.archRev < p.1.archRev then some p else b
    | none => some p) none
  match (if forced then bins.head? else none), best, bins.head? with
  | some p, _, _ => some p.2
  | none, some p, _ => some p.2
  | none, none, some p => some p.2
  | none, none, none => none

/-- The code of a launch at its dispatch: its object is registered and its image chosen, once for the launch (R355, R358); the
state after, and whether the launch goes on or fails (R338). A registration stands although no image is eligible (R352). -/
def State.resolve (s : State) (k : Nat) : State × Bool :=
  let l := s.launch k
  if l.obj.isSome then (s, true)
  else match s.register l.ctx l.codeObj with
    | none => (s, false)
    | some (s1, o) =>
      let c := s1.ctx l.ctx
      let obj := tgetD c.objs o {}
      let forced := if l.image.isSome then l.forced else c.ctxmode.toNat / 2 % 2 == 1
      let image := match l.image with
        | some i => if i < obj.images.length then some i else none
        | none => chooseImage c.mask forced obj.images
      if obj.nfunc ≤ l.func then (s1, false)
      else match image with
        | some i => (s1.modLaunch k (fun x => { x with obj := some o, image := some i, forced := forced }), true)
        | none => (s1, false)

/-- The image and the entry address of a launch. -/
def State.entryOf (s : State) (l : Launch) : Dword :=
  match l.obj, l.image with
  | some o, some i =>
    let im := (tgetD (s.ctx l.ctx).objs o {}).images.getD i {}
    im.base + BitVec.ofNat 64 (im.entries.getD l.func 0)
  | _, _ => 0

/-! Starting blocks and waves (R8, R10, R43, R293). -/

/-- The waves of a partition's active set. -/
def State.activeCount (s : State) (core p : Nat) : Nat := ((s.partWaves core p).filter (fun w => w.active)).length

/-- The state of a wave of a launched block at its start (R43). -/
def startWave (l : Launch) (k b core index rank gang i clk : Nat) (entry : Dword) (d : WaveDecl) (active : Bool) : Wave :=
  { ctx := l.ctx, launch := some k, block := some b, index := i, since := clk, role := d.role, nvregs := d.nvregs,
    core := core, part := i % 8, active := active, readyAt := clk,
    sregs := [(0, l.args), (1, BitVec.ofNat 64 index), (2, BitVec.ofNat 64 rank), (3, BitVec.ofNat 64 gang)],
    splits := [(0, { pos := entry, mask := BitVec.allOnes 32 })] }

/-- A wave of a block becomes resident, active while its partition has fewer than 8 active waves, and may enter translated
code (R358). -/
def State.startWaveOf (s : State) (l : Launch) (k b core index rank gang i : Nat) (d : WaveDecl) : State :=
  let entry := s.entryOf l
  let w := startWave l k b core index rank gang i s.clk entry d (decide (s.activeCount core (i % 8) < 8))
  let s1 : State := { s with waves := tset s.waves s.nextWave w, nextWave := s.nextWave + 1 }
  (s1.modBlock b (fun x => { x with waves := x.waves ++ [s.nextWave] })).enterFunction s.nextWave entry

/-- A block becomes resident on a core with all its waves. -/
def State.startBlock (s : State) (l : Launch) (k gang rank core : Nat) : State :=
  let b := s.nextBlock
  let index := gang * l.gang + rank
  let x : Block := {
    ctx := l.ctx, launch := k, core := core, index := index, rank := rank, gang := gang, since := s.clk,
    size := (l.scratch + 8191) / 8192 * 8192, lanepriv := l.lanepriv, accum := l.accum, nwaves := l.waves.length }
  let s1 : State := { s with blocks := tset s.blocks b x, nextBlock := b + 1 }
  l.waves.zipIdx.foldl (fun (u : State) d => u.startWaveOf l k b core index rank gang d.2 d.1) s1

/-- The next gang of a launch starts on cores. -/
def State.startGang (s : State) (k : Nat) (cores : List Nat) : State :=
  let l := s.launch k
  let s1 := cores.zipIdx.foldl (fun (u : State) c => u.startBlock l k l.started c.2 c.1) s
  s1.modLaunch k (fun x => { x with started := x.started + 1 })

/-! The dispatcher (R339, R341). -/

/-- The head launch of a queue, if it is ready. -/
def State.readyHead (s : State) (ctx q : Nat) : Option Nat :=
  match ((s.ctx ctx).queue q).pending with
  | k :: _ => if (s.launch k).ready && !(s.launch k).failed then some k else none
  | [] => none

/-- The header of a launch's code object is still to be read, from a home that keeps requests waiting (R330, R411). -/
def State.objectWaits (s : State) (l : Launch) : Bool :=
  l.obj.isNone && (match s.xlateWalk l.ctx l.codeObj .read with
    | .ok pa => s.homeWaits (lineOf pa)
    | .error _ => false)

/-- The cores on which the next gang of a queue's ready head can be placed. -/
def State.placeable (s : State) (ctx q : Nat) : Option (Nat × List Nat) :=
  match s.readyHead ctx q with
  | some k => if s.objectWaits (s.launch k) then none else (gangCores (s.launch k) (s.freeCores ctx q (s.launch k))).map (fun cs => (k, cs))
  | none => none

/-- The class of a queue: PRIO of its head (R339). -/
def State.queueClass (s : State) (ctx q : Nat) : Option Nat := ((s.ctx ctx).queue q).pending.head?.map (fun k => (s.launch k).prio)

/-- The queues of a class from which a gang can be placed. -/
def State.eligible (s : State) (ctx c : Nat) : List Nat :=
  (tkeys (s.ctx ctx).queues).filter (fun q => s.queueClass ctx q == some c && (s.placeable ctx q).isSome)

/-- The rounds of credit until a queue's deficit is positive. -/
def Queue.rounds (x : Queue) : Nat := if 0 < x.deficit then 0 else (-x.deficit).toNat / max 1 x.quantum + 1

/-- Credit for the queues of a class until one of those eligible has a positive deficit. -/
def State.credit (s : State) (ctx c : Nat) (es : List Nat) : State :=
  match es.map (fun q => ((s.ctx ctx).queue q).rounds) with
  | [] => s
  | r :: rs =>
    let n := rs.foldl min r
    ((tkeys (s.ctx ctx).queues).filter (fun q => s.queueClass ctx q == some c)).foldl
      (fun (u : State) q => u.modQueue ctx q (fun x => { x with deficit := x.deficit + n * x.quantum })) s

/-- The first of some queues with a positive deficit, from a pointer upward, wrapping after 63. -/
def State.firstPositive (s : State) (ctx ptr : Nat) (es : List Nat) : Option Nat :=
  ((List.range 64).map (fun i => (ptr + i) % 64)).find? (fun q => es.contains q && 0 < ((s.ctx ctx).queue q).deficit)

/-- One turn of the dispatcher's loop: none when no gang can be placed. -/
def State.dispatchOne (s : State) (ctx : Nat) : Option State :=
  match [0, 1, 2, 3].find? (fun c => !(s.eligible ctx c).isEmpty) with
  | none => none
  | some c =>
    let es := s.eligible ctx c
    let s1 := s.credit ctx c es
    match s1.firstPositive ctx (tgetD (s1.ctx ctx).ptr c 0) es with
    | none => none
    | some q =>
      match s1.placeable ctx q with
      | none => none
      | some (k, cores) =>
        match s1.resolve k with
        | (s2, false) => some ((s2.abandonLaunch k).settleQueues ctx)
        | (s2, true) =>
          some ((((s2.startGang k cores).modCtx ctx (fun x => { x with ptr := tset x.ptr c ((q + 1) % 64) })).modQueue ctx q
            (fun x => { x with skips := 0, reserving := none })).settleQueues ctx)

/-- The dispatcher's loop. -/
def State.dispatchLoop (s : State) (ctx : Nat) : Nat → State
  | 0 => s
  | n + 1 => match s.dispatchOne ctx with
    | some s1 => s1.dispatchLoop ctx n
    | none => s

/-- Gangs of a context start while some can be placed. -/
def State.placeGangs (s : State) (ctx : Nat) : State :=
  if (s.ctx ctx).phase != .running then s else (s.settleQueues ctx).dispatchLoop ctx 16384

/-- A ready head that a run of the dispatcher has left has been skipped once more (R341). -/
def State.countSkips (s : State) (ctx : Nat) : State :=
  (tkeys (s.ctx ctx).queues).foldl (fun (u : State) q =>
    if (u.readyHead ctx q).isSome then u.modQueue ctx q (fun x => { x with skips := x.skips + 1 }) else u) s

/-- A run of the dispatcher of a context, as cores of it become free or a launch becomes ready (R339): gangs start while some can be
placed, and every ready head that is left has been skipped once more. -/
def State.dispatch (s : State) (ctx : Nat) : State :=
  if (s.ctx ctx).phase != .running then s else (s.placeGangs ctx).countSkips ctx

/-- The queues of a context are brought to their heads, and the dispatcher runs if a launch at a head has become ready since (R339). -/
def State.runIfReady (s before : State) (ctx : Nat) : State :=
  let u := s.settleQueues ctx
  if (tvals (u.ctx ctx).queues).any (fun q => q.pending.head?.any (fun k => (u.launch k).ready && !(before.launch k).ready)) then u.dispatch ctx
  else u

/-- The next launch of a queue becomes head once its head has failed: its undispatched gangs count as dispatched (R338, R339). -/
def State.settleFailed (s : State) : State :=
  (tkeys s.ctxs).foldl (fun (u : State) c =>
    if (tvals (u.ctx c).queues).any (fun q => q.pending.head?.any (fun k => (u.launch k).failed)) then u.runIfReady u c else u) s

/-! Events. -/

/-- The port takes frames: boot has completed (R422, R423). -/
def State.portUp (s : State) : Bool := s.nd.bootStep = 5 && !s.nd.bootFailed

/-- LAUNCH_FRAME: a frame other than a management frame is checked, its records are filed in order, and it is
acknowledged. (DEDUCED, log 75.) -/
def execLaunchFrame (source : Nat) (payload : List Byte) (s : State) : Host.Outcome State Fault Refusal :=
  let n := recField payload 5 1
  let c := s.ctx n
  let seq := recField payload 8 8
  if !s.portUp || frameLimit < payload.length || recField payload 7 1 = 1 then .next s
  else match frameRefused payload ((tget? s.ctxs n).map (fun x => x.launchKey)) "ILRUS-LAUNCH" c.lastSeq c.acks with
    | some a => .next (s.emit (.datagram source a))
    | none =>
      let (s1, es) := s.fileAll n ((List.range (frameEntries payload)).map (frameRecord payload))
      let a := ackBytes payload es
      .next (((s1.modCtx n (fun x => { x with lastSeq := seq, acks := keepAck x.acks seq a })).emit (.datagram source a)).runIfReady s n)

/-- WAIT_WORD_POLL: the wait words of a queue's head are read, and the dispatcher runs if the launch, or the next one after its
failure, has become ready (R338, R339). -/
def execWaitWordPoll (ctx queue : Nat) (s : State) : Host.Outcome State Fault Refusal :=
  match ((s.ctx ctx).queue queue).pending with
  | [] => .next s
  | k :: _ => if (s.launch k).ready then .next s else .next ((s.readWaits k).runIfReady s ctx)

/-- A core has room for one block of a launch once some blocks have ended: their registers are free, and their scratchpads where no
block of their cluster group is left (R12, R341). Spawned waves do not count. -/
def State.roomWithout (s : State) (l : Launch) (gone : List Nat) (core : Nat) : Bool :=
  let done (p : Nat × Block) : Bool := p.2.ended || gone.contains p.1
  let held : Tbl Block := s.blocks.filter (fun p => p.2.core = core && !p.2.released && s.stands p.2.ctx && !(s.groupOf p.2).all done)
  let ws (p : Nat) : List Wave := (s.partWaves core p).filter (fun w => w.block.any (fun b => !gone.contains b))
  fitsBeside l (tvals held) (fun p => ((ws p).map (fun w => w.nvregs)).foldl (· + ·) 0) (fun p => (ws p).length)

/-- The least number of resident blocks that must end so that a unit can take a launch's gang, or none if it has too few cores
(R341). -/
def State.unitNeed (s : State) (ctx : Nat) (l : Launch) (unit : Nat) : Option Nat :=
  let here := (s.ownedCores ctx).filter (fun k => unitOf l.coloc k = unit)
  let live := tkeys (s.blocks.filter (fun p => !p.2.ended && s.stands p.2.ctx && here.contains p.2.core))
  let fits (gone : List Nat) : Bool := (gangIn l (here.filter (s.roomWithout l gone)) unit).isSome
  (List.range (live.length + 1)).find? (fun n => (live.sublistsLen n).any fits)

/-- The unit that a reserving queue takes: that of the least need, the lowest-numbered on a tie. -/
def State.reserveUnit (s : State) (ctx : Nat) (l : Launch) : Option Nat :=
  let units := ((s.ownedCores ctx).map (unitOf l.coloc)).dedup.insertionSort (· ≤ ·)
  (units.foldl (fun (b : Option (Nat × Nat)) u => match s.unitNeed ctx l u, b with
    | some n, some (m, v) => if n < m then some (n, u) else some (m, v)
    | some n, none => some (n, u)
    | none, x => x) none).map Prod.snd

/-- QUEUE_RESERVING: a queue whose ready head has been skipped on 64 successive runs reserves a unit (R341). -/
def execQueueReserving (ctx queue : Nat) (s : State) : Host.Outcome State Fault Refusal :=
  match s.readyHead ctx queue with
  | none => .next s
  | some k =>
    let x := (s.ctx ctx).queue queue
    if x.skips < 64 || x.reserving.isSome then .next s
    else match s.reserveUnit ctx (s.launch k) with
      | none => .next s
      | some u => .next (s.modQueue ctx queue (fun x => { x with reserving := some ((s.launch k).coloc, u) }))

/-! Draining (R337, R338, R401). -/

/-- A launch has no work left: its blocks and spawned waves have ended, and no bin holds a thread of it. -/
def State.launchOver (s : State) (k : Nat) : Bool :=
  let l := s.launch k
  (l.failed || l.gangs ≤ l.started) && (tvals s.blocks).all (fun b => b.launch != k) && (tvals s.waves).all (fun w => w.launch != some k) &&
    (tvals s.clusters).all (fun c => (tvals c.bins).all (fun b => b.threads.isEmpty || b.launch != k)) &&
    (tvals (s.ctx l.ctx).saved).all (fun c => (tvals c.bins).all (fun b => b.threads.isEmpty || b.launch != k))

/-- What a core wrote up to a clk, and the narrower releases it has observed, are visible in the package (R280). -/
def Core.shownSince (c : Core) (t : Nat) : Bool :=
  (tvals c.wq).all (fun e => t < e.entered) && (tvals c.outs).all (fun o => t < o.since || 6 ≤ o.level) && c.deps.all (fun d => 6 ≤ d.level)

/-- The cores of a context. -/
def State.ctxCores (s : State) (ctx : Nat) : List Nat := (tkeys s.cores).filter (fun k => (s.ctx ctx).clusters.contains (clusterOf k))

/-- Every write of the cores of a context up to a clk is visible in the package. (DEDUCED, log 59.) -/
def State.shownCtx (s : State) (ctx t : Nat) : Bool := (s.ctxCores ctx).all (fun k => (s.core k).shownSince t)

/-- The publication of what the cores of a context have written is pressed. -/
def State.pressCtx (s : State) (ctx t : Nat) : State :=
  (s.ctxCores ctx).foldl (fun (u : State) k => if (u.core k).shownSince t then u else u.startFence k (u.core k).nextWrite 6 true false) s

/-- The event word after a signal: COUNT saturates, FAILED is set by a failed launch and never cleared. -/
def signalled (e : Nat) (failed : Bool) : Nat :=
  (if failed || 2 ^ 63 ≤ e then 2 ^ 63 else 0) + e % 2 ^ 63 / 2 ^ 32 * 2 ^ 32 + min (2 ^ 32 - 1) (e % 2 ^ 32 + 1)

/-- The heads that wait on a physical address read their wait words again. -/
def State.rereadWaits (s : State) (pa : Nat) : State :=
  let names (l : Launch) : Bool := [l.wait0, l.wait1].any (fun va => va != 0 && (match s.enginePlace l.ctx va .read with
    | .ok p => p == pa
    | .error _ => false))
  (tkeys s.ctxs).foldl (fun (u : State) c =>
    if ((tvals (u.ctx c).queues).filterMap (fun q => q.pending.head?)).any (fun k => !(u.launch k).ready && names (u.launch k)) then
      (((tvals (u.ctx c).queues).filterMap (fun q => q.pending.head?)).foldl (fun (v : State) k =>
        if names (v.launch k) then v.readWaits k else v) u).runIfReady u c
    else u) s

/-- The signal of a launch, and whether it was lost. -/
def State.signal (s : State) (l : Launch) : State × Bool :=
  if l.signal = 0 then (s, false)
  else match s.enginePlace l.ctx l.signal .rmw with
    | .ok pa =>
      if s.poisonedAt pa then (s.eventFault l.ctx true l.signal, true)
      else ((s.publish pa (leBytes 8 (signalled (memNat s.mem pa 8) l.failed))).rereadWaits pa, false)
    | .error _ => (s.eventFault l.ctx true l.signal, true)

/-- The 64 bytes of a completion notice. -/
def noticeBytes (l : Launch) (lost : Bool) (time : Nat) : List Byte :=
  leBytes 4 l.lid ++ leBytes 1 l.ctx ++ leBytes 1 (if l.failed then 1 else 0) ++ leBytes 1 (if lost then 1 else 0) ++
    leBytes 1 0 ++ leBytes 8 time ++ leBytes 48 0

/-- A completion notice is dropped and counted, and the count is reported (R401). -/
def State.dropNotice (s : State) (ctx : Nat) : State :=
  (s.modCtx ctx (fun c => { c with noticesDropped := c.noticesDropped + 1 })).emit (.noticesDropped ctx ((s.ctx ctx).noticesDropped + 1))

/-- The completion notice is sent on the context's queue pair, or dropped. -/
def State.sendNotice (s : State) (l : Launch) (lost : Bool) : State :=
  if l.notice = 0 then s
  else match (s.ctx l.ctx).noticeQp with
    | some qp =>
      if s.nd.qpError.contains qp then s.dropNotice l.ctx else s.emit (.notice qp l.notice (noticeBytes l lost s.timeNs))
    | none => s.dropNotice l.ctx

/-- The home of a launch's event word keeps requests waiting. -/
def State.signalWaits (s : State) (l : Launch) : Bool :=
  l.signal != 0 && (match s.enginePlace l.ctx l.signal .rmw with
    | .ok pa => s.homeWaits (lineOf pa)
    | .error _ => false)

/-- LAUNCH_DRAIN: a launch has no work left; once every write of its context's cores up to then is visible in the package, its
signal is made, then its completion notice (R280, R337). (DEDUCED, log 74.) -/
def execLaunchDrain (launch : Nat) (s : State) : Host.Outcome State Fault Refusal :=
  match tget? s.launches launch with
  | none => .next s
  | some l =>
    let t := l.overAt.getD s.clk
    let s0 := s.modLaunch launch (fun x => { x with overAt := some t })
    if l.drained || !s.launchOver launch then .next s
    else if !s0.shownCtx l.ctx t then .next (s0.pressCtx l.ctx t)
    else if s0.signalWaits l then .next s0
    else
      let (s1, lost) := s0.signal l
      let s2 := s1.modLaunch launch (fun x => { x with drained := true, siglost := lost })
      .next (s2.sendNotice l lost)

end Sys2Proof.Machine
end

