-- ==== Sys2Proof/Machine/Fetch.lean ====
section
/-! DEFINITION. From a wave to the instruction that it issues: which split issues (R29, R227), how splits merge (R28), the
fetch of every occupied plane with its checks (R34 to R39, R85, R90, R91), and the event ICACHE_FILL (R364, R365). -/
namespace Sys2Proof.Machine

/-! Which split issues. -/

/-- A split that waits in REJOIN. -/
def Split.rejoining (sp : Split) : Bool :=
  match sp.wait with
  | some (.rejoin _) => true
  | _ => false

/-- The rotation of splits is due (R27). -/
def Wave.rotateDue (w : Wave) : Bool :=
  4 ≤ w.passes && !w.deferred.isEmpty && w.freeSlot.isNone && (tget? w.splits w.passSlot).any (fun sp => !sp.rejoining)

/-- A split that waits at a yield point, so that issue has passed from it (R29). -/
def Split.yielded (sp : Split) : Bool :=
  match sp.wait with
  | none => false
  | some (.window _) => true
  | some _ => [0x25, 0xB5, 0xB6, 0xB7, 0xCB, 0xCD].contains sp.opc

/-- The slot of the split that would issue: the lowest one that a cause of an engine's work takes from its wait, else the
issuing one, else, from a yield point, the next that can; a deadlock in REJOIN is met at the issuing one, or, where TRET left
that slot free, at the lowest one (R32). -/
def State.pickSlot (s : State) (w : Wave) : Option Nat :=
  match (if w.handler then none else (List.range 4).find? (fun k =>
      (tget? w.splits k).any (fun sp => w.causes.any (fun t => s.wakes t sp)))) with
  | some k => some k
  | none =>
    match tget? w.splits w.issuing with
    | some sp =>
      if s.canIssue w sp then some w.issuing
      else
        let k := s.nextSlot w
        if sp.yielded && (tget? w.splits k).any (s.canIssue w) then some k
        else if w.deadlocked then some w.issuing else none
    | none =>
      let k := s.nextSlot w
      if (tget? w.splits k).any (s.canIssue w) then some k else if w.deadlocked then (tkeys w.splits).head? else none

/-- Issue moves to a slot: the latches are lost if it is another one (R25). -/
def Wave.moveTo (k : Nat) (w : Wave) : Wave := if k = w.issuing then w else { w.loseLatches with issuing := k }

/-- The instruction at which a split stands has still to issue: it has not begun, or is REJOIN, or could not yet go on. -/
def Split.unissued (sp : Split) : Bool :=
  !sp.begun && (match sp.wait with
    | none => true
    | some (.rejoin _) => true
    | some .retry => true
    | some .loads => true
    | _ => false)

/-- The issuing split merges with another at its offset, in the lower slot of the two (R28). -/
def Wave.mergeOne (w : Wave) : Wave :=
  let sp := w.split
  if !sp.unissued then w
  else match w.splits.find? (fun p => p.1 != w.issuing && p.2.pos == sp.pos && p.2.joins) with
    | none => w
    | some (k, o) =>
      let lo := min k w.issuing
      let both : Split := { sp with mask := sp.mask ||| o.mask, copies := [] }
      ({ w with splits := tset (tdel w.splits (max k w.issuing)) lo both, issuing := lo } : Wave).fillSlot

/-- The issuing split merges with every split at its offset, those included that take a freed slot: at most four splits
and eight deferred entries (R28). (DEDUCED, log 67.) -/
def Wave.merge (w : Wave) : Wave := (List.range 11).foldl (fun u _ => u.mergeOne) w

/-! Fetch. -/

/-- The key of a code line in an instruction cache. -/
def codeKeyOf (ctx : Nat) (va : Dword) : Nat := ctx * 2 ^ 64 + va.toNat / 128 * 128

/-- What fetching a plane's instruction gives: the word, the literal, the length and whether the literal lies beyond the
plane; a code line that is not cached; or a translation fault at an address. -/
inductive Fetched where
  | ok (word : Dword) (lit : Word) (len : Nat) (beyond : Bool)
  | need (line : Nat)
  | fault (e : XFault) (va : Dword)

/-- `n` bytes of code at an address. -/
def State.fetchBytes (s : State) (core ctx : Nat) (va : Dword) (n : Nat) (k : Nat → Fetched) : Fetched :=
  match s.xlate core ctx va .fetch with
  | .error e => .fault e va
  | .ok _ =>
    match tget? (s.core core).icache (codeKeyOf ctx va) with
    | none => .need (va.toNat / 128 * 128)
    | some bs => k (leNat ((bs.drop (va.toNat % 128)).take n))

/-- The offset of a position in its plane leaves no room for a literal word (R85). -/
def literalBeyond (acc : Option (Dword × Nat × Nat)) (pos : Dword) : Bool :=
  match acc with
  | some (b, _, st) => decide (st ≤ (pos - b).toNat + 4)
  | none => false

/-- The instruction of a plane at an address. (DEDUCED, log 77.) -/
def State.fetchPlane (s : State) (core ctx : Nat) (form : CodeForm) (acc : Option (Dword × Nat × Nat)) (pos va : Dword) : Fetched :=
  match form with
  | .bintodal => s.fetchBytes core ctx va 8 (fun w => .ok (BitVec.ofNat 64 w) 0 8 false)
  | .quadiner => s.fetchBytes core ctx va 4 (fun w =>
      let word := BitVec.ofNat 64 w
      if !wordHasLiteral (BitVec.ofNat 32 w) then .ok word 0 4 false
      else if literalBeyond acc pos then .ok word 0 8 true
      else s.fetchBytes core ctx (va + 4) 4 (fun l => .ok word (BitVec.ofNat 32 l) 8 false))

/-- The opcode of an instruction word. -/
def opcOf (form : CodeForm) (word : Dword) : Nat :=
  match form with
  | .quadiner => word.toNat / 2 ^ 24 % 256
  | .bintodal => word.toNat / 2 ^ 56

/-- The decoder's answer for a fetched instruction. -/
def decodeFetched (form : CodeForm) (word : Dword) (lit : Word) (beyond : Bool) : Option Instr :=
  if beyond then none
  else match (match form with
      | .quadiner => decodeQuadiner (word.setWidth 32) lit
      | .bintodal => decodeBintodal word) with
    | .ok i => some i
    | .error _ => none

/-- The step of R90 at which a cause of the checks before issue is found. -/
def causeStep (cause : Nat) : Nat :=
  match cause with
  | 0x01 => 6 | 0x03 => 7 | 0x02 => 8 | 0x06 => 9 | 0x04 => 10 | _ => 11

/-- What comes of a wave that would issue: nothing, with what it has asked for; a trap it has taken; or an instruction. -/
inductive Ready where
  | wait (s : State)
  | trap (s : State)
  | run (i : Instr) (s : State)

/-- A plane's copy as fetched. -/
structure PlaneCopy where
  plane : Nat := 0
  lanes : LaneMask := 0
  word : Dword := 0
  lit : Word := 0
  len : Nat := 4
  beyond : Bool := false

/-- The issue of a plane's copy, or of the whole split for a plane-invariant instruction. -/
def State.issueOf (s : State) (wid : Nat) (form : CodeForm) (sp : Split) (inv : Bool) (c : PlaneCopy) : State :=
  let ctx := s.ctx (tgetD s.waves wid {}).ctx
  { s with issue := {
      wave := wid, plane := c.plane, inv := inv, lanes := if inv then sp.mask else c.lanes,
      mode := match form with | .quadiner => sp.offMode | .bintodal => bintodalMode c.word,
      form := form, pc := sp.pos, len := c.len, iword := c.word, lit := c.lit, mmrev := ctx.mmrevAt sp.pos } }

/-- The first cause of steps 6 to 11 that a copy has. -/
def State.copyCause (s : State) (form : CodeForm) (c : PlaneCopy) : Option TrapInfo :=
  match decodeFetched form c.word c.lit c.beyond with
  | none => some (s.info 0x01 0)
  | some i => preIssue i s

/-- A cause that is taken before the wave's next instruction, whatever it is. (DEDUCED, log 34.) -/
def State.anyCause (s : State) (w : Wave) : Option TrapInfo :=
  if w.handler then none else w.causes.find? (fun t => w.resumed || t.origin == .own || s.wakes t w.split)

/-- The wave takes a trap of its fetch or its decoding at the issuing split, or a deferred cause that is taken before it
(R367). (DEDUCED, log 21.) -/
def State.fetchTrap (s : State) (wid : Nat) (t : TrapInfo) : Ready :=
  match s.anyCause (tgetD s.waves wid {}) with
  | some c => .trap (s.trapDeferred c)
  | none => .trap ((s.modWave wid (fun w => { w with resumed := false })).trapWave wid t t.pc)

/-- The earliest cause, by step and then by plane. -/
def earliest (ts : List TrapInfo) : Option TrapInfo :=
  ts.foldl (fun (b : Option TrapInfo) t => match b with
    | some u => if causeStep t.cause < causeStep u.cause then some t else some u
    | none => some t) none

/-- The copies of an offset have been fetched: the checks of steps 4 to 11, and the copy that issues (R90, R91). -/
def State.issueSplit (s : State) (wid : Nat) (form : CodeForm) (sp0 : Split) (cs : List PlaneCopy) : Ready :=
  match cs with
  | [] => .wait s
  | c0 :: rest =>
    let opc (c : PlaneCopy) : Nat := opcOf form c.word
    let invariant := cs.any (fun c => planeInvariant (opc c))
    let w := tgetD s.waves wid {}
    let start (sp : Split) : State := s.modWave wid (fun w => { w with splits := tset w.splits w.issuing sp })
    let sp1 := { sp0 with offMode := if sp0.begun then sp0.offMode else w.mode }
    let differ := rest.any (fun c => c.len != c0.len || (invariant && (c.word != c0.word || c.lit != c0.lit)))
    let planes := (cs.map (fun c => 2 ^ c.plane)).foldl (· + ·) 0
    if !sp0.begun && differ then
      let u := (start sp1).issueOf wid form sp1 true c0
      match (decodeFetched form c0.word c0.lit c0.beyond).bind (fun i => dueCause i u) with
      | some t => .trap (u.trapDeferred t)
      | none => u.fetchTrap wid (u.info 0x07 planes)
    else
      let head := match (if sp0.begun then none else cs.find? (fun c => opc c = 0)) with
        | some c => c
        | none => c0
      let inv := invariant && opc head != 0
      let copies := if inv then [(c0.plane, sp1.mask)] else cs.map (fun c => (c.plane, c.lanes))
      let spc : Split := { sp1 with copies := copies, len := head.len }
      let held := (decodeFetched form head.word head.lit head.beyond).any (fun i => interlocked i ((start spc).issueOf wid form spc inv head))
      let sp2 : Split := if held then spc else { spc with opc := opc head, since := if sp0.wait.isSome then sp0.since else s.clk }
      let s1 := start sp2
      let u := s1.issueOf wid form sp2 inv head
      let failing := if sp0.begun then [] else
        (if inv then [head] else cs).filterMap (fun c => (s1.issueOf wid form sp2 inv c).copyCause form c)
      match decodeFetched form head.word head.lit head.beyond with
      | none => u.fetchTrap wid ((earliest failing).getD (u.info 0x01 0))
      | some i =>
        if opc head = 0 || interlocked i u || (dueCause i u).isSome then .run i u
        else match earliest failing with
          | some t => u.fetchTrap wid t
          | none => .run i u

/-- The copies of the offset at which a split stands: those not yet issued, or one for each occupied plane (R37). -/
def Wave.offsetCopies (w : Wave) (sp : Split) : List (Nat × LaneMask) :=
  if sp.begun || (w.resumed && !sp.copies.isEmpty) then sp.copies else w.copiesFrom sp.mask 0

/-- A plane may fetch at a position: plane 0 anywhere, the others inside an accord that has them (R35). -/
def planeFetches (acc : Option (Dword × Nat × Nat)) (q : Nat) : Bool :=
  q = 0 || (match acc with
    | some (_, p, _) => decide (q < p)
    | none => false)

/-- The address from which a plane fetches at a position (R34). -/
def planeAddress (acc : Option (Dword × Nat × Nat)) (pos : Dword) (q : Nat) : Dword :=
  match acc with
  | some (_, _, st) => pos + BitVec.ofNat 64 (q * st)
  | none => pos

/-- The fetches of the copies, those of planes that may not fetch there among them: steps 1 and 2 of R90 come first. -/
def State.fetchAll (s : State) (w : Wave) (sp : Split) : List ((Nat × LaneMask) × Fetched) :=
  let c := s.ctx w.ctx
  let acc := c.accordAt sp.pos
  (w.offsetCopies sp).map (fun x =>
    (x, s.fetchPlane w.core w.ctx (c.formAt sp.pos) acc sp.pos (planeAddress acc sp.pos x.1)))

/-- The code lines that a list of fetches needs. -/
def neededLines (fs : List ((Nat × LaneMask) × Fetched)) : List Nat :=
  fs.filterMap (fun f => match f.2 with
    | .need l => some l
    | _ => none)

/-- The core caches the translations of its fetches (R377). -/
def State.cacheFetch (s : State) (w : Wave) (sp : Split) : State :=
  let acc := (s.ctx w.ctx).accordAt sp.pos
  (w.offsetCopies sp).foldl (fun (u : State) x => u.cacheXlate w.core w.ctx (planeAddress acc sp.pos x.1)) s

/-- The issuing split of a wave is fetched: steps 1 to 3 of R90, then the rest. -/
def State.fetchSplit (s0 : State) (wid : Nat) : Ready :=
  let w := tgetD s0.waves wid {}
  let sp := w.split
  let s := s0.cacheFetch w sp
  let c := s.ctx w.ctx
  let form := c.formAt sp.pos
  let acc := c.accordAt sp.pos
  let fs := s.fetchAll w sp
  let blank (q : Nat) : State := s.issueOf wid form sp false { plane := q }
  if sp.pos.toNat % formAlign form != 0 then (blank 0).fetchTrap wid ((blank 0).info 0x0B 0)
  else match fs.findSome? (fun f => match f.2 with | .fault e va => some (f.1.1, e, va) | _ => none) with
    | some (q, e, va) => (blank q).fetchTrap wid ((blank q).info e.cause e.detail va)
    | none =>
      let needs := neededLines fs
      if !needs.isEmpty then
        .wait (needs.foldl (fun (u : State) l => u.sendOnce (.icacheFill w.core w.ctx l wid)) s)
      else match (w.offsetCopies sp).find? (fun x => !planeFetches acc x.1) with
        | some (q, m) => (blank q).fetchTrap wid ((blank q).info 0x08 0 (planeAddress acc sp.pos q) (m.lanes.headD 0xFF))
        | none => s.issueSplit wid form sp (fs.filterMap (fun f => match f.2 with
            | .ok word lit len beyond => some ⟨f.1.1, f.1.2, word, lit, len, beyond⟩
            | _ => none))

/-- A wave comes up for issue. (DEDUCED, log 38.) -/
def State.prepare (s0 : State) (wid : Nat) : Ready :=
  let s := s0.modWave wid s0.settled
  let w := tgetD s.waves wid {}
  if w.rotateDue then .wait s
  else match s.pickSlot w with
    | none => .wait s
    | some k => (s.modWave wid (fun w => (w.moveTo k).merge)).fetchSplit wid

/-! Instruction-cache fills (R364, R365). -/

/-- The tag that the tables hold for a code line of a context: none outside the code map. -/
def Context.tagPlace (c : Context) (line : Dword) : Option Dword :=
  match c.imageAt line with
  | some i => some (i.tagAddr + BitVec.ofNat 64 (8 * ((line - i.base).toNat / 128)))
  | none => (c.tcodeAt line).map (fun o => o.ttag + BitVec.ofNat 64 (8 * ((line - o.tcode).toNat / 128)))

/-- The tag of a code line (R364). -/
def codeTag (key : BitVec 256) (line : Dword) (bs : List Byte) : List Byte := tag64 key (leBytes 8 line.toNat ++ bs) "ILRUS-CODE"

/-- The check of a fill: the bytes, or the cause and detail (R365, R405). (DEDUCED, log 48.) -/
def State.fillCheck (s : State) (ctx : Nat) (line : Dword) (vs : List LineView) : Except (Nat × Nat) (List Byte) :=
  match (s.ctx ctx).tagPlace line with
  | none => .error (0x12, 2)
  | some t =>
    let bs := vs.flatMap (fun v => v.bytes)
    if vs.any (fun v => !v.bad.isEmpty) then .error (0x12, 1)
    else match s.vaWord ctx t 8 with
      | some v => if leBytes 8 v = codeTag (s.ctx ctx).codeKey line bs then .ok bs else .error (0x12, 1)
      | none => .error (0x12, 1)

/-- A line of code is read through the slice path, past the L1 (R294, R295); without cache ways, where its owners are (R301). It
migrates no line (R298). -/
def State.codeRead (s : State) (core ctx line : Nat) : Served :=
  let ks := s.lineUnits line
  match s.stackView core ctx line ks with
  | some (v, _) => .yes v (s.enterSlice core line ks false)
  | none =>
    if s.cacheWays (clusterOf core) = 0 then
      (if ks.all (fun k => s.ownerReady k && (s.homeEntry k).xpub.isNone) then .yes (s.ownerView line) s else .notYet s)
    else .notYet (s.askCopies core ctx line ks)

/-- The two lines of a fill: what they hold, or, if one is not at hand, the state that has asked for it. -/
def State.fillLines (s : State) (core ctx pa : Nat) : State × Option (List LineView) :=
  match s.codeRead core ctx pa with
  | .notYet u => (u, none)
  | .yes a s1 => match s1.codeRead core ctx (pa + 64) with
    | .notYet u => (u, none)
    | .yes b s2 => (s2, some [a, b])

/-- A line enters an instruction cache of 512 lines. -/
def State.installCode (s : State) (core key : Nat) (bs : List Byte) : State :=
  s.modCore core (fun c =>
    let n := (tdel c.icache key).length
    let ic := if n < 512 then c.icache else (tdel c.icache key).eraseIdx (Config.icacheVictim s.clk % n)
    { c with icache := tset ic key bs })

/-- The wave still needs a code line: the split that would issue stands there. -/
def State.needsLine (s : State) (wid line : Nat) : Bool :=
  let w := s.settled (tgetD s.waves wid {})
  match s.pickSlot w with
  | some k => let w1 := (w.moveTo k).merge; (neededLines (s.fetchAll w1 w1.split)).contains line
  | none => false

/-- The fault of a fill belongs to the wave whose fetch needs the line, at the instruction fetched there; a wave that has left
the active set fetches again when it has come back. -/
def State.fillFault (s : State) (wid line cause detail : Nat) : State :=
  if !s.needsLine wid line || !(tgetD s.waves wid {}).active then s
  else
    let w := tgetD s.waves wid {}
    let s1 := s.modWave wid (fun w => ((s.settled w).moveTo ((s.pickSlot (s.settled w)).getD w.issuing)).merge)
    let w1 := tgetD s1.waves wid {}
    let sp := w1.split
    let acc := (s1.ctx w.ctx).accordAt sp.pos
    let q := (((s1.fetchAll w1 sp).find? (fun f => match f.2 with | .need l => l == line | _ => false)).map (fun f => f.1.1)).getD 0
    let u := s1.issueOf wid ((s1.ctx w.ctx).formAt sp.pos) sp false { plane := q }
    let a := planeAddress acc sp.pos q
    match u.fetchTrap wid (u.info cause detail (if a.toNat / 128 * 128 = line then a else BitVec.ofNat 64 line)) with
    | .trap v => v
    | _ => u

/-- A poisoned code line is entered in the drydown record of the core's die (R405). -/
def State.logCodePoison (s : State) (core ctx pa : Nat) (vs : List LineView) : State :=
  if vs.any (fun v => !v.bad.isEmpty) then s.logDry (dieOf core) 0x03 0 core (ctx + 0x1200) pa else s

/-- ICACHE_FILL: a code line arrives at a core and is installed if its tag matches; otherwise the wave takes its fault. A CARVE holds
the fill, but for that of its own instruction (R307). (DEDUCED, log 136.) -/
def execIcacheFill (core ctx line wave : Nat) (s : State) : Host.Outcome State Fault Refusal :=
  s.arrive (.icacheFill core ctx line wave) (fun s =>
    let va := BitVec.ofNat 64 line
    if (s.ctx ctx).carveBusy && (s.ctx ctx).carves.head? != some wave then s.send (.icacheFill core ctx line wave)
    else if s.engineWaits core ctx .fetch [va] then s.send (.icacheFill core ctx line wave)
    else match s.enginePlace ctx va .fetch with
      | .error e => s.fillFault wave line e.cause e.detail
      | .ok pa => match s.fillLines core ctx pa with
        | (u, none) => u.send (.icacheFill core ctx line wave)
        | (u, some vs) => match u.fillCheck ctx va vs with
          | .ok bs => u.installCode core (codeKeyOf ctx va) bs
          | .error (cause, detail) => (u.logCodePoison core ctx pa vs).fillFault wave line cause detail)

end Sys2Proof.Machine
end

