-- ==== Sys2Proof/Machine/WaveEvents.lean ====
section
/-! DEFINITION. What happens to waves between instructions: SPLIT_ROTATION (R27), WAVE_EXCHANGE (R343), WAVE_END with the
end of its block (R12, R16, R344), and SPAWN_WAVE_START (R44, R237, R346). -/
namespace Sys2Proof.Machine

/-! Rotation (R27). -/

/-- The split that made the fourth pass goes to the tail of the deferred list, or joins an entry at its offset; the oldest
entry takes its slot and issues. -/
def Wave.rotate (w : Wave) : Wave :=
  match w.deferred, tget? w.splits w.passSlot with
  | d :: ds, some sp =>
    let ds1 := match (if sp.begun then none else ds.findIdx? (fun e => e.pos == sp.pos && !e.begun)) with
      | some k => ds.modify k (fun e => { e with mask := e.mask ||| sp.mask })
      | none => ds ++ [sp.park]
    { w.loseLatches with
      splits := tset w.splits w.passSlot d.split, deferred := ds1, issuing := w.passSlot, passes := 0 }
  | _, _ => w

/-- SPLIT_ROTATION. -/
def execSplitRotation (wave : Nat) (s : State) : Host.Outcome State Fault Refusal :=
  .next (s.modWave wave (fun w => if w.rotateDue then w.rotate else w))

/-! Exchange (R48, R343). -/

/-- A split stands at a yield point of R343: in one of its waits, or in a memory instruction whose data have not
returned. -/
def State.standsAt (s : State) (w : Wave) (sp : Split) : Bool :=
  let mem := isMemory sp.opc && sp.opc != 0xCA
  match sp.wait with
  | none => mem && (tvals w.loads).any (fun p => p.since = sp.since)
  | some (.waita _ _ _ true) => true
  | some k => (sp.yielded && !s.canIssue w sp) || (mem && (k == .retry || k == .held || !s.canIssue w sp))

/-- A wave has stood stalled for 16 clk. -/
def State.stoodStalled (s : State) (w : Wave) : Bool :=
  !w.splits.isEmpty && (tvals w.splits).all (fun sp => s.standsAt w sp && sp.since + 16 ≤ s.clk)

/-- A split of the wave can issue. -/
def State.ready (s : State) (w : Wave) : Bool := (s.pickSlot w).isSome

/-- A resident wave of the pending set that is ready. -/
def State.pendingReady (s : State) (b : Wave) : Bool := !b.active && b.ready && s.stands b.ctx

/-- A pending wave is ready, and no ready pending wave of its partition has been so longer (R48, R343). -/
def State.readyLongest (s : State) (b : Wave) : Bool :=
  s.pendingReady b && s.waves.all (fun x => x.2.core != b.core || x.2.part != b.part || !s.pendingReady x.2 || b.readyAt ≤ x.2.readyAt)

/-- WAVE_EXCHANGE: a stalled active wave, not one in handler mode, joins the pending set and loses its latches, and the
pending wave of its partition that has been ready longest becomes active. -/
def execWaveExchange (out into : Nat) (s : State) : Host.Outcome State Fault Refusal :=
  match tget? s.waves out, tget? s.waves into with
  | some a, some b =>
    if a.core = b.core && a.part = b.part && a.active && !a.handler && s.stands a.ctx && s.stoodStalled a && s.readyLongest b then
      .next ((s.modWave out (fun w => { w.loseLatches with active := false, readyAt := s.clk })).modWave into
        (fun w => { w with active := true }))
    else .next s
  | _, _ => .next s

/-- Free active places of a partition are filled from its pending set, ready waves first and oldest first (R344). -/
def State.fillActive (s : State) (core p : Nat) : Nat → State
  | 0 => s
  | n + 1 =>
    if 8 ≤ s.activeCount core p then s
    else
      let ps : Tbl Wave := s.waves.filter (fun x => x.2.core = core && x.2.part = p && !x.2.active && s.stands x.2.ctx)
      let oldest (l : Tbl Wave) : Option (Nat × Nat) := l.foldl (fun b x => match b with
        | some y => if x.2.readyAt < y.2 then some (x.1, x.2.readyAt) else some y
        | none => some (x.1, x.2.readyAt)) none
      let pick := match oldest (ps.filter (fun x => x.2.ready)) with
        | some y => some y
        | none => oldest ps
      match pick with
      | some y => (s.modWave y.1 (fun w => { w with active := true })).fillActive core p n
      | none => s

/-! Ends (R12, R16, R344). -/

/-- A queue is charged for core-cycles (R339). -/
def State.charge (s : State) (l n : Nat) : State :=
  let x := s.launch l
  s.modQueue x.ctx x.queue (fun q => { q with deficit := q.deficit - n })

/-- An engine still works for a block, or a matrix command of it is queued. -/
def State.engaged (s : State) (p : Nat × Block) : Bool :=
  (tvals p.2.windows).any (fun x => x.st == .inflight) || (tvals s.clusters).any (fun c => c.gather.any (fun g => g.block = p.1 && !g.stalled)) ||
    (s.core p.2.core).mq.any (fun m => m.block = p.1)

/-- A cluster group whose every block has ended is released: scratchpads, tiles and barrier words go (R12), with the stalled work
of its failed waves that no handler will replay. A block for which an engine still works is kept for that work alone (R229). -/
def State.releaseGroup (s : State) (b : Block) : State :=
  let g := s.groupOf b
  if g.all (fun p => p.2.ended) then
    let ids := tkeys g
    let busy := tkeys (g.filter s.engaged)
    { s with
      blocks := (s.blocks.filter (fun p => !ids.contains p.1 || busy.contains p.1)).map (fun p =>
        if busy.contains p.1 then (p.1, { p.2 with released := true }) else p),
      clusters := tmap s.clusters (fun c => { c with gather := c.gather.filter (fun x => !(x.stalled && ids.contains x.block)) }) }
  else s

/-- The released blocks for which no engine works any more are gone. -/
def State.reap (s : State) : State :=
  if s.blocks.all (fun p => !p.2.released) then s
  else { s with blocks := s.blocks.filter (fun p => !p.2.released || s.engaged p) }

/-- The wave is at its end: it has no live lane, its issued accesses are done and its commands have settled (R124, R372). -/
def State.over (s : State) (wid : Nat) (w : Wave) : Bool := w.splits.isEmpty && w.deferred.isEmpty && s.settledWork w wid

/-- The block of a wave that has ended: it ends with its last wave, is charged to its queue, and may release its group. -/
def State.endBlock (s : State) (wid b : Nat) : State :=
  let s1 := s.modBlock b (fun x => { x with waves := x.waves.filter (fun v => v != wid) })
  let x := s1.block b
  if x.waves.isEmpty then
    ((s1.modBlock b (fun x => { x with ended := true })).charge x.launch (s.clk - x.since)).releaseGroup x
  else s1

/-- WAVE_END: the wave's registers return; its block may end, a pending wave may become active, and the dispatcher runs if the block
or a spawned wave has ended (R339, R344). -/
def execWaveEnd (wave : Nat) (s : State) : Host.Outcome State Fault Refusal :=
  match tget? s.waves wave with
  | none => .next s
  | some w =>
    if !s.over wave w || !s.stands w.ctx then .next s
    else
      let s1 : State := { s with waves := tdel s.waves wave }
      let s2 := match w.block with
        | some b => s1.endBlock wave b
        | none => (match w.launch with
          | some l => s1.charge l (s.clk - w.since)
          | none => s1)
      let s3 := s2.fillActive w.core w.part 8
      let freed := w.block.all (fun b => (tget? s2.blocks b).all (fun x => x.ended))
      .next (if freed then s3.dispatch w.ctx else s3)

/-! Spawned waves (R44, R237, R346). -/

/-- The vector registers that a bin's wave takes (R236). -/
def binRegs (key : Dword) : Nat := 16 * (key.toNat / 2 ^ 52 % 8 + 1)

/-- The entry address that a bin's key names. -/
def binEntry (key : Dword) : Dword := (key.setWidth 52).signExtend 64

/-- The most free vector registers of a core in one partition with a free resident place, and the lowest such partition. -/
def State.bestPart (s : State) (core : Nat) : Option (Nat × Nat) :=
  ((List.range 8).filter (fun p => (s.partWaves core p).length < 16)).foldl (fun (b : Option (Nat × Nat)) p =>
    let free := 1024 - s.partRegs core p
    match b with
    | some y => if y.1 < free then some (free, p) else some y
    | none => some (free, p)) none

/-- The core and partition that a spawned wave takes: most free registers, lowest number on a tie. -/
def State.spawnPlace (s : State) (cluster : Nat) : Option (Nat × Nat × Nat) :=
  ((List.range 8).map (fun k => cluster * 8 + k)).foldl (fun (b : Option (Nat × Nat × Nat)) k => match s.bestPart k, b with
    | some (f, p), some y => if y.1 < f then some (f, k, p) else some y
    | some (f, p), none => some (f, k, p)
    | none, y => y) none

/-- The state of a spawned wave at its start (R44). -/
def spawnedWave (b : Bin) (core p clk : Nat) (active : Bool) : Wave :=
  let lanes := List.range b.threads.length
  let arg (r : Nat) (f : Word × Word → Word) : Tbl Word := b.threads.zipIdx.map (fun t => (r * 32 + t.2, f t.1))
  { ctx := b.ctx, launch := some b.launch, since := clk, nvregs := binRegs b.key, core := core, part := p, active := active,
    readyAt := clk, vregs := arg 0 Prod.fst ++ arg 1 Prod.snd, retired := ~~~(LaneMask.ofLanes lanes),
    splits := [(0, { pos := binEntry b.key, mask := LaneMask.ofLanes lanes })], spawned := true }

/-- The dependencies that the start of a spawned wave adds to its core's list: the releases of the SPAWNs whose threads it
carries (R273, R326). -/
def State.spawnDeps (s : State) (core : Nat) (b : Bin) : List Dep :=
  let c := s.core core
  (b.sources.filter (fun x => x.1 != core && c.deps.all (fun d => !(d.core = x.1 && d.epoch = x.2)))).map
    (fun x => ⟨x.1, x.2, 2, c.epoch⟩)

/-- SPAWN_WAVE_START: the wave of a launching bin is placed and starts, an acquire of the SPAWNs whose threads it
carries; the bin is empty again, and gangs that stood behind it are placed (R346). -/
def execSpawnWaveStart (cluster bin : Nat) (s : State) : Host.Outcome State Fault Refusal :=
  let b := tgetD (s.cluster cluster).bins bin {}
  if !b.launching || b.threads.isEmpty || (s.ctx b.ctx).phase != .running then .next s
  else match s.spawnPlace cluster with
    | none => .next s
    | some (free, core, p) =>
      if free < binRegs b.key then .next s
      else
        let wid := s.nextWave
        let pos := (s.ctx b.ctx).position (binEntry b.key)
        let w := spawnedWave b core p s.clk (decide (s.activeCount core p < 8))
        let w1 : Wave := { w with splits := tmap w.splits (fun sp => { sp with pos := pos }) }
        let s1 : State := { s with waves := tset s.waves wid w1, nextWave := wid + 1 }
        let s2 := s1.modCluster cluster (fun c => { c with bins := tdel c.bins bin })
        let new := s.spawnDeps core b
        match s.depWait core new with
        | some u => .next u
        | none => .next (((s2.modCore core (fun c => { c with deps := c.deps ++ new })).enterFunction wid pos).placeGangs b.ctx)

end Sys2Proof.Machine
end

