-- ==== Sys2Proof/Machine/Translate.lean ====
section
/-! DEFINITION. Lazy translation as the stack management controllers do it (R357 to R360, R366): TRANSLATION_REQUEST and
TRANSLATION_JOB_DONE. What attar emits is the event's own: the model places it and publishes it. -/
namespace Sys2Proof.Machine

/-- Bytes, a multiple of 8, written at package scope through a context's page tables; none if a write faults. -/
def State.writeVa (s : State) (ctx : Nat) (va : Dword) (bs : List Byte) : Option State :=
  (List.range (bs.length / 8)).foldl (fun (r : Option State) i => match r with
    | some u =>
      (match u.enginePlace ctx (va + BitVec.ofNat 64 (8 * i)) .write with
        | .ok pa => some (u.publish pa ((bs.drop (8 * i)).take 8))
        | .error _ => none)
    | none => none) (some s)

/-- TRANSLATION_REQUEST: the SMC of a stack claims an ABSENT record by compare-and-swap at package scope; a request whose
claim fails is dropped. -/
def execTranslationRequest (stack ctx record image : Nat) (s : State) : Host.Outcome State Fault Refusal :=
  let claim (f : State → State) := s.arrive (.translationRequest stack ctx record image) f
  match s.enginePlace ctx (BitVec.ofNat 64 record) .rmw with
  | .error _ => claim (fun s => s)
  | .ok pa =>
    if s.homeWaits (lineOf pa) then .next s
    else claim (fun s =>
      if s.poisonedAt pa || memNat s.mem pa 8 % 4 != 0 then s
      else s.publish pa (leBytes 8 (1 + image * 4 + stack * 256)))

/-- The object of a context that has a translation record at an address, by its key. -/
def Context.recordOwner (c : Context) (record : Nat) : Option (Nat × CodeObj) :=
  c.objs.find? (fun p => decide (p.2.xltab.toNat ≤ record && record < p.2.xltab.toNat + 32 * p.2.nfunc))

/-- Bytes padded with zeros to a multiple. -/
def padTo (z : Nat) (bs : List Byte) : List Byte := bs ++ List.replicate ((z - bs.length % z) % z) 0

/-- The tags of the code lines of some bytes, a multiple of 128, from an address. -/
def codeTags (key : BitVec 256) (va : Dword) (bs : List Byte) : List Byte :=
  (List.range (bs.length / 128)).flatMap (fun i =>
    codeTag key (va + BitVec.ofNat 64 (128 * i)) ((bs.drop (128 * i)).take 128))

/-- The code region's offset at which a job allocates: upward from the cache's last allocation, on a code line. -/
def CodeCache.nextFree (c : CodeCache) : Nat := (c.used + 127) / 128 * 128

/-- The bytes a job places: its code, and after it its address map. -/
def translatedImage (t : Translated) (start : Nat) : List Byte :=
  padTo 128 (padTo 8 t.bytes ++ t.map.flatMap (fun e => leBytes 4 e.1 ++ leBytes 4 (start + e.2)))

/-- The code, its tags and its map are placed and the record is filled, all but its state; none if they do not fit or a
write faults. -/
def State.placeCode (s : State) (ctx record : Nat) (o : CodeObj) (t : Translated) : Option State :=
  let start := (s.codeCache ctx o).nextFree
  let bs := translatedImage t start
  let at_ := o.tcode + BitVec.ofNat 64 start
  if o.tsize < start + bs.length || t.bytes.length ≤ t.entry then none
  else match s.writeVa ctx at_ bs with
    | none => none
    | some s1 =>
      match s1.writeVa ctx (o.ttag + BitVec.ofNat 64 (start / 16)) (codeTags (s.ctx ctx).codeKey at_ bs) with
      | none => none
      | some s2 =>
        s2.writeVa ctx (BitVec.ofNat 64 (record + 8))
          (leBytes 8 (at_.toNat + t.entry) ++ leBytes 4 (start + (padTo 8 t.bytes).length) ++ leBytes 4 t.map.length)

/-- The cache after an allocation: the bytes given out, and the accords of the code (R352, R360). -/
def CodeCache.allocated (c : CodeCache) (t : Translated) : CodeCache :=
  { used := c.nextFree + (translatedImage t c.nextFree).length,
    accords := c.accords ++ t.accords.map (fun a => (c.nextFree + a.1, a.2.1, a.2.2)) }

/-- Every registration of the objects that share a cache knows its accords. -/
def State.setCache (s : State) (pa : Nat) (c : CodeCache) : State :=
  let known (n : Nat) (o : CodeObj) : CodeObj := if s.cachePlace n o = some pa then o.withAccords c else o
  { s with
    caches := tset s.caches pa c,
    ctxs := s.ctxs.map (fun p => (p.1, { p.2 with objs := tmap p.2.objs (known p.1) })) }

/-! What attar emits for a function (R357, R359, R361, R363). -/

/-- The operand of a SETM or SETMF as a constant. -/
def SSrcConstant (x : SSrc) : Option Nat := (SSrcDisplacement x).map (fun d => (BitVec.ofInt 64 d).toNat)

/-- SCOPE and ORD after an instruction, where they are known from the code. -/
def knownClass (i : Instr) (k : Option Nat × Option Nat) : Option Nat × Option Nat :=
  match i with
  | .setm x => let m : Option Half := (SSrcConstant x).map (BitVec.ofNat 16); (m.map modeScope, m.map modeOrd)
  | .setmf .scope x => ((SSrcConstant x).map (· % 8), k.2)
  | .setmf .ord x => (k.1, (SSrcConstant x).map (· % 4))
  | _ => k

/-- An order serves a load as an acquire, or a store as a release. -/
def ordFor (kind : AccessKind) (ord : Nat) : Bool := match kind with | .load => ord % 2 == 1 | _ => decide (2 ≤ ord)

/-- A load or store in native code, with SCOPE and ORD as far as they are known, is that of its source: a plain one of an image of
revision 1 an acquire or a release at die scope (R282, R363), a scoped one at the scope and with the order that it has there. -/
def classKept (mmRev : Nat) (kind : AccessKind) (src : Half) (k : Option Nat × Option Nat) : Bool :=
  if modeScope src = 0 then mmRev != 1 || (k.1 == some 3 && k.2.any (ordFor kind))
  else k.1 == some (modeScope src) && k.2.map (ordFor kind) == some (ordFor kind (modeOrd src))

/-- The Bintodal word that a native offset translates: that of the last map entry at or before it. -/
def sourceWord (map : List (Nat × Nat)) (ws : List (Nat × Nat)) (a : Nat) : Option Nat :=
  ((map.filter (fun e => e.2 ≤ a)).foldl (fun (b : Option (Nat × Nat)) e => match b with
    | some q => if q.2 ≤ e.2 then some e else b
    | none => some e) none).bind (fun e => (ws.find? (fun w => w.1 = e.1)).map Prod.snd)

/-- Every load and store of native code, from an offset on, has the class of the load or store that it translates. -/
def classesKept (mmRev : Nat) (bs : List Byte) (src : Nat → Option Nat) : Nat → Nat → Option Nat × Option Nat → Bool
  | 0, _, _ => true
  | n + 1, a, k =>
    if bs.length ≤ a then true
    else
      let w : Word := BitVec.ofNat 32 (leNat ((bs.drop a).take 4))
      let lit : Word := BitVec.ofNat 32 (leNat ((bs.drop (a + 4)).take 4))
      let next := a + if wordHasLiteral w then 8 else 4
      match decodeQuadiner w lit with
      | .error _ => classesKept mmRev bs src n next k
      | .ok i =>
        let ok := match accessKind i.opc, src a with
          | some kind, some v => (match decodeBintodal (BitVec.ofNat 64 v) with
            | .ok j => kind == .rmw || accessKind j.opc != some kind || classKept mmRev kind (bintodalMode (BitVec.ofNat 64 v)) k
            | .error _ => true)
          | _, _ => true
        ok && classesKept mmRev bs src n next (knownClass i k)

/-- The offsets between which a function of an image lies: from its entry to the next one's. -/
def Image.span (im : Image) (f : Nat) : Nat × Nat :=
  let lo := im.entries.getD f 0
  (lo, (im.entries.filter (fun e => lo < e)).foldl min im.size)

/-- The Ps of the accords of the function that holds an offset of an image. -/
def Image.accordsOf (im : Image) (f : Nat) : List Nat :=
  let (lo, hi) := im.span f
  (im.accords.filter (fun a => lo ≤ (a.1 - im.base).toNat && (a.1 - im.base).toNat < hi)).map (fun a => a.2.1)

/-- The instructions of a function of a Bintodal image, each with its offset: the words that are not padding (R104); none if a read of
the job faults (R359). -/
def State.functionWords (s : State) (ctx : Nat) (im : Image) (f : Nat) : Option (List (Nat × Nat)) :=
  let (lo, hi) := im.span f
  (s.wordsAt ctx im.base lo 8 ((hi - lo) / 8)).map (fun ws => (ws.zipIdx.map (fun w => (lo + 8 * w.2, w.1))).filter (fun w => w.2 != 0))

/-- A result is one that attar emits: a map of every instruction of the function in order, each to a native instruction; native accords
with the Ps of the function's, each a legal one in the code; and the class of every load and store kept. The rest of R361, that the code
has the effect and the MODE of the function, is the result's own. (DEDUCED, log 78.) -/
def legalResult (t : Translated) (im : Image) (ws : List (Nat × Nat)) (f at' : Nat) : Bool :=
  t.map.map Prod.fst == ws.map Prod.fst && t.map.all (fun e => e.2 % 4 == 0 && decide (e.2 < t.bytes.length)) &&
    (t.accords.map (fun a => a.2.1)).insertionSort (· ≤ ·) == (im.accordsOf f).insertionSort (· ≤ ·) &&
    t.accords.all (fun a => [256, 512, 1024, 2048, 4096, 8192, 16384, 32768, 65536].contains a.2.2 &&
      (at' + a.1) % (a.2.1 * a.2.2) == 0 && decide (a.1 + a.2.1 * a.2.2 ≤ t.bytes.length)) &&
    allApart (t.accords.map (fun a => (BitVec.ofNat 64 a.1, a.2.1, a.2.2))) &&
    classesKept im.mmRev t.bytes (sourceWord t.map ws) t.bytes.length 0 (none, none)

/-- The state of a claimed record becomes READY or DECLINED. -/
def State.settleRecord (s : State) (pa state : Nat) : State := s.publish pa (leBytes 8 (memNat s.mem pa 8 / 4 * 4 + state))

/-- TRANSLATION_JOB_DONE: the job of a claimed record reads the function and publishes its code and then READY, or DECLINED; a record whose
claiming stack is lost stays PENDING. -/
def execTranslationJobDone (ctx record : Nat) (result : Option Translated) (s : State) : Host.Outcome State Fault Refusal :=
  match s.enginePlace ctx (BitVec.ofNat 64 record) .rmw, (s.ctx ctx).recordOwner record with
  | .ok pa, some (_, o) =>
    let st := memNat s.mem pa 8
    let stack := st / 2 ^ 8 % 8
    let f := (record - o.xltab.toNat) / 32
    let c := s.codeCache ctx o
    let im := o.images.getD (st / 4 % 8) {}
    if s.homeWaits (lineOf pa) || (s.cachePlace ctx o).any (fun p => s.homeWaits (lineOf p)) then .next s
    else if st % 4 != 1 || s.dead.contains (2 * stack) && s.dead.contains (2 * stack + 1) then .next s
    else match result, s.cachePlace ctx o, s.functionWords ctx im f with
      | none, _, _ | some _, none, _ | some _, some _, none => .next (s.settleRecord pa 3)
      | some t, some place, some ws =>
        if !legalResult t im ws f (o.tcode.toNat + c.nextFree) then .next s
        else match s.placeCode ctx record o t with
          | none => .next (s.settleRecord pa 3)
          | some s1 => .next ((s1.setCache place (c.allocated t)).settleRecord pa 2)
  | _, _ => .next s

end Sys2Proof.Machine
end

