-- ==== Sys2Proof/Machine/Preempt.lean ====
section
/-! DEFINITION. Pre-emption, save and resume of a context (R50, R185, R208, R230, R261, R279, R304, R380 to R382), and the
mapping of spare cores (R342): the events HANDLER_PREEMPT_TIMEOUT and CORE_RETIRE. -/
namespace Sys2Proof.Machine

/-! The save area's header (R381). -/

/-- A byte string is written to the device's own part of DRAM, line by line, and is visible in the package. -/
def State.deviceWrite (s : State) (pa : Nat) (bs : List Byte) : State :=
  (List.range ((bs.length + 63) / 64)).foldl (fun (u : State) i =>
    (u.writeBytes (pa + 64 * i) ((bs.drop (64 * i)).take 64)).publishLine (lineOf (pa + 64 * i))) s

/-- The header of a save area: MAGIC, STATE, NFATAL and SAVES. -/
def Context.header (c : Context) (state : Nat) : List Byte :=
  leBytes 4 0xC5A00001 ++ leBytes 1 state ++ leBytes 1 c.nfatal ++ leBytes 2 0 ++ leBytes 8 c.saves

/-- The header is written with a STATE; at a lost home it is discarded. -/
def State.writeHeader (s : State) (ctx state : Nat) : State :=
  let c := s.ctx ctx
  if s.homeLost c.saveBase then s else s.deviceWrite c.saveBase (c.header state)

/-! Pre-emption (R380). -/

/-- STATE of a context's phase. -/
def CtxPhase.code : CtxPhase → Nat
  | .running => 0 | .saving => 1 | .saved => 2 | .restoring => 3

/-- The header is written whole, at a context's creation and when its home's die comes back: its reserved bytes are zero (R3, R381). -/
def State.initHeader (s : State) (ctx : Nat) : State :=
  let c := s.ctx ctx
  if s.homeLost c.saveBase then s else s.deviceWrite c.saveBase (c.header c.phase.code ++ List.replicate 4080 0)

/-- Pre-emption of a context is asked for: dispatch stops at once. -/
def State.beginPreempt (s : State) (ctx : Nat) : State :=
  (s.modCtx ctx (fun c => { c with phase := .saving, preemptAt := s.clk })).writeHeader ctx 1

/-- An operation of a split completes before its wave is saved: a decant operation, a conversion of an object, a
CARVE. -/
def Split.completes (sp : Split) : Bool :=
  match sp.wait with
  | some (.decant _) => true
  | some (.object _ _) => true
  | some (.carve _) => true
  | _ => false

/-- A split of the wave holds such an operation. -/
def Wave.completing (w : Wave) : Bool := (tvals w.splits).any Split.completes

/-- The time for which a handler may run on has passed. -/
def Context.handlerTimeout (c : Context) (clk : Nat) : Bool := decide (c.preemptAt + 15000 ≤ clk)

/-- The wave may issue: its context runs, or is being saved and the wave completes an operation or is in a handler that
may run on. -/
def State.mayIssue (s : State) (w : Wave) : Bool :=
  let c := s.ctx w.ctx
  match c.phase with
  | .running => true
  | .saving => w.completing || (w.handler && !w.halted && !c.handlerTimeout s.clk)
  | .saved => false
  | .restoring => false

/-- HANDLER_PREEMPT_TIMEOUT: a handler still running 10 us after pre-emption stops, to be saved in handler mode; a CARVE
in progress completes first (R308). -/
def execHandlerPreemptTimeout (wave : Nat) (s : State) : Host.Outcome State Fault Refusal :=
  let w := tgetD s.waves wave {}
  let c := s.ctx w.ctx
  if c.phase == .saving && w.handler && !w.completing && c.handlerTimeout s.clk then
    .next (s.modWave wave (fun w => { w with halted := true }))
  else .next s

/-! Save (R185, R208, R230, R261, R279, R381). -/

/-- The cores of a context's clusters. -/
def Context.cores (c : Context) : List Nat := c.clusters.flatMap (fun g => (List.range 8).map (fun k => g * 8 + k))

/-- A wave can be saved. -/
def Wave.savable (w : Wave) : Bool := (!w.handler || w.halted) && w.loads.isEmpty && !w.completing

/-- A core has nothing that others do not see: the implied release has completed (R279). (DESIGN CHOICE, log 52.) -/
def Core.clean (c : Core) : Bool := c.wq.isEmpty && c.outs.isEmpty && c.deps.isEmpty

/-- A slice holds no allowance entry of use: none held, none waiting or awaited (R261). -/
def Cluster.allowClear (c : Cluster) : Bool := (tvals c.allow).all (fun e => !e.held && e.waiters.isEmpty && e.later.isEmpty && !e.req)

/-- The save of a context can be made. -/
def State.saveReady (s : State) (ctx : Nat) : Bool :=
  let c := s.ctx ctx
  c.phase == .saving && !c.carveBusy && (tvals s.waves).all (fun w => w.ctx != ctx || w.savable) &&
    c.cores.all (fun k => (s.core k).clean) && c.clusters.all (fun g => (s.cluster g).allowClear) && !s.writingBack

/-- What the save waits for is pressed on: the implied release of each core, and the allowances (R261). (DEDUCED, log 51.) -/
def State.pressSave (s : State) (ctx : Nat) : State :=
  let c := s.ctx ctx
  if (tvals s.waves).all (fun w => w.ctx != ctx || w.savable) then
    let s1 := c.cores.foldl (fun (u : State) k => if (u.core k).clean then u else u.startFence k (u.core k).nextWrite 6 true true) s
    c.clusters.foldl (fun (u : State) g => (tkeys (u.cluster g).allow).foldl (fun (v : State) r =>
      let e := v.allowance g r
      if e.held && e.waiters.isEmpty && !e.req then v.returnEntry g r else v) u) s1
  else s

/-- A split as it is saved: at its instruction, which executes again. -/
def Split.saved (sp : Split) : Split := { sp with wait := none }

/-- A window as it is saved: the attempt of an INFLIGHT one is abandoned, which its record will count, and a stalled one is
INFLIGHT (R225, R230). -/
def Window.saved (x : Window) : Window :=
  match x.st with
  | .inflight => { x with replays := x.replays + 1, fault := 0, faddr := 0, seen := [], mark := 0 }
  | .stalled => { x with st := .inflight, taken := false, mark := 0 }
  | _ => x

/-- A gather command as it is saved: a gather or bag-reduce whose attempt has begun abandons it, which no cause has brought about
(R225); `now` names the one that the engine works at. -/
def GatherCmd.saved (now : Option Nat) (c : GatherCmd) : GatherCmd :=
  let begun := !c.stalled && c.op != .scatter && (now = some c.seq || !c.seen.isEmpty)
  { c with
    stalled := false, taken := false, seen := [], mark := 0, replays := if begun then c.replays + 1 else c.replays,
    fault := if begun then 0 else c.fault, faddr := if begun then 0 else c.faddr }

/-- The stalled work that a wave of a context started. -/
def State.stalledOf (s : State) (ctx wid : Nat) : Nat :=
  ((tvals s.blocks).flatMap (fun b => if b.ctx = ctx then (tvals b.windows).filter (fun x => x.st == .stalled && x.starter = wid) else [])).length +
    ((tvals s.clusters).flatMap (fun g => g.gather.filter (fun x => x.ctx = ctx && x.stalled && x.wave = wid))).length

/-- What the save area takes of a cluster: bins with the time that is left of their timers, gather commands, and the
matrix queues of the cores. -/
def State.saveCluster (s : State) (g : Nat) : SavedCluster :=
  let c := s.cluster g
  let ks := List.range 8
  { bins := tmap c.bins (fun b => { b with deadline := b.deadline - s.timeNs, sources := [] }),
    gather := c.gather.map (GatherCmd.saved (c.gatherNext.map (fun x => x.seq))),
    queues := ks.map (fun k => (k, (s.core (g * 8 + k)).mq)), mmaEnd := ks.map (fun k => (k, (s.core (g * 8 + k)).mmaEnd)) }

/-- A cluster after its context has left it: its engines are empty and no copy or translation stays in its cores. -/
def State.vacate (s : State) (g : Nat) : State :=
  let s1 := (List.range 8).foldl (fun (u : State) k => u.modCore (g * 8 + k) (fun c =>
    { c with l1 := [], icache := [], tlb := [], mq := [], mmaEnd := [], relLevel := 0 })) s
  s1.modCluster g (fun c => { c with owner := none, gather := [], bins := [] })

/-- The lines of the slices beneath clusters leave them. -/
def State.evictSlices (s : State) (gs : List Nat) : State :=
  (s.stackTbl.flatMap (fun p => (p.2.lines.filter (fun q => gs.contains q.2.slice)).map (fun q => (p.1, q.1)))).foldl
    (fun (u : State) p => u.evict p.1 p.2) s

/-- ELAPSED of a context stands still at its value. (DEDUCED, log 81.) -/
def State.stopElapsed (s : State) (ctx : Nat) : State :=
  let c := s.ctx ctx
  let e : Tbl Nat := c.clusters.foldl (fun t g => tset t g (s.elapsed ctx g)) c.elapsed
  s.modCtx ctx (fun c => { c with elapsed := e })

/-- A context's waves, blocks and launches are gone with it. (DEDUCED, log 83.) -/
def State.removeContext (s : State) (ctx : Nat) : State :=
  { s with
    waves := s.waves.filter (fun p => p.2.ctx != ctx), blocks := s.blocks.filter (fun p => p.2.ctx != ctx),
    launches := s.launches.filter (fun p => p.2.ctx != ctx), ctxs := tdel s.ctxs ctx }

/-- The save: waves stand at their instructions, the engines' work is in the save area, the clusters are free, and a
context that is to be destroyed is gone (R381, R424). -/
def State.saveContext (s0 : State) (ctx : Nat) : State :=
  let c := s0.ctx ctx
  let s := c.clusters.foldl (fun (u : State) g => u.finishEntry g) s0
  let again (p : Nat × Wave) : Nat × Wave :=
    if p.2.ctx = ctx then
      (p.1, { p.2 with splits := tmap p.2.splits Split.saved, engPending := p.2.engPending + s.stalledOf ctx p.1, halted := false })
    else p
  let kept : Tbl SavedCluster := c.clusters.foldl (fun t g => tset t g (s.saveCluster g)) []
  let s1 : State := { s with
    net := s.net.filter (fun i => match i with
      | .icacheFill _ n _ _ => n != ctx
      | _ => true),
    waves := s.waves.map again,
    blocks := tmap s.blocks (fun b => if b.ctx = ctx then { b with windows := tmap b.windows Window.saved } else b) }
  let s2 := c.clusters.foldl (fun (u : State) g => u.vacate g) ((s1.evictSlices c.clusters).stopElapsed ctx)
  let s3 := (s2.modCtx ctx (fun c => { c with phase := .saved, saved := kept, saves := c.saves + 1, preemptAt := s.clk })).writeHeader ctx 2
  if c.doomed then s3.removeContext ctx else s3

/-! Resume (R304, R342, R382). -/

/-- Something of a context is saved from a cluster. -/
def State.savedOn (s : State) (ctx g : Nat) : Bool :=
  (tvals s.waves).any (fun w => w.ctx = ctx && clusterOf w.core = g) || (tvals s.blocks).any (fun b => b.ctx = ctx && clusterOf b.core = g) ||
    (tgetD (s.ctx ctx).saved g {}).bins.any (fun b => !b.2.threads.isEmpty)

/-- A cluster that no context can own: it is withdrawn, or its die is lost or being reset. -/
def State.unusable (s : State) (g : Nat) : Bool :=
  (s.cluster g).withdrawn || s.dead.contains (g / 16) || s.offline.contains (g / 16) || (tget? s.resets (g / 16)).isSome

/-- The clusters from which a context resumes: those it held, but for unusable ones that hold nothing of it. -/
def State.heldClusters (s : State) (ctx : Nat) : List Nat :=
  ((s.ctx ctx).clusters.filter (fun g => !(s.unusable g && !s.savedOn ctx g))).insertionSort (· ≤ ·)

/-- The clusters of a context that were withdrawn while it was saved, with work of it (R342). -/
def State.homeless (s : State) (ctx : Nat) : List Nat := (s.heldClusters ctx).filter (fun g => (s.cluster g).withdrawn)

/-- The one-to-one mappings of stacks onto stacks with as many clusters. -/
def stackMaps (count count' : Nat → Nat) : List Nat → List Nat → List (List (Nat × Nat))
  | [], news => if news.all (fun y => count' y = 0) then [[]] else []
  | x :: xs, news => (news.filter (fun y => count' y = count x)).flatMap (fun y =>
      (stackMaps count count' xs (news.filter (fun z => z != y))).map (fun m => (x, y) :: m))

/-- What resumes on one cluster: blocks that a cluster held (of one cluster group, unless the whole cluster moves), or with `own` what
else it held, namely spawned waves, spawn bins and clocks. -/
structure Piece where
  cluster : Nat
  own : Bool := false
  blocks : List Nat := []
deriving DecidableEq, Repr

/-- Pieces with the clusters on which they resume. -/
abbrev Placing := List (Piece × Nat)

/-- The core to which a placing brings a block, or what no block holds, of a core; none if it does not place it. -/
def Placing.seat (m : Placing) (block : Option Nat) (core : Nat) : Option Nat :=
  (m.find? (fun p => match block with
    | some b => p.1.blocks.contains b
    | none => p.1.own && p.1.cluster = clusterOf core)).map (fun p => p.2 * 8 + core % 8)

/-- The core on which a block, or what no block holds, of a core resumes; an ended block stays with its cluster. -/
def Placing.core (m : Placing) (block : Option Nat) (core : Nat) : Nat := ((m.seat block core).orElse (fun _ => m.seat none core)).getD core

/-- How a context resumes: its pieces, the images of the stacks it held, and the clusters it owns then. -/
structure Plan where
  pieces : Placing
  images : List (Nat × Nat) := []
  clusters : List Nat := []
deriving DecidableEq, Repr

/-- The cluster groups of a context on a cluster (R9). -/
def State.groupsOn (s : State) (ctx g : Nat) : List (List Nat) :=
  ((s.blocks.filter (fun p => p.2.ctx = ctx && !p.2.released && clusterOf p.2.core = g)).map (fun p => tkeys (s.groupOf p.2))).dedup

/-- All that a context holds on a cluster. -/
def State.wholePiece (s : State) (ctx g : Nat) : Piece := ⟨g, true, (s.groupsOn ctx g).flatten⟩

/-- The cluster groups of a cluster, each for itself, after what else it holds. -/
def State.splitPieces (s : State) (ctx g : Nat) : List Piece := ⟨g, true, []⟩ :: (s.groupsOn ctx g).map (fun bs => ⟨g, false, bs⟩)

/-- Work of a block on the cluster of a piece belongs to the piece. -/
def State.inPiece (s : State) (ctx : Nat) (p : Piece) (block : Nat) : Bool :=
  if (s.groupsOn ctx p.cluster).flatten.contains block then p.blocks.contains block else p.own

/-- Two blocks of a gang stand on distinct cores within one unit of COLOC, and those of a rectangle at their relative cells (R8, R10,
R382). -/
def gangPair (l : Launch) (a b a' b' : Nat) : Bool :=
  let x := cellOf a
  let y := cellOf b
  let x' := cellOf a'
  let y' := cellOf b'
  a' != b' && unitOf l.coloc a' == unitOf l.coloc b' && (l.rectw == 0 || (x.1 + y'.1 == x'.1 + y.1 && x.2 + y'.2 == x'.2 + y.2))

/-- The blocks that a placing has placed keep to the rules of their gangs. -/
def State.gangsFit (s : State) (ctx : Nat) (m : Placing) : Bool :=
  let bs := s.blocks.filter (fun p => p.2.ctx = ctx && !p.2.released)
  bs.all (fun a => bs.all (fun b =>
    if a.1 = b.1 || a.2.launch != b.2.launch || a.2.gang != b.2.gang then true
    else match m.seat (some a.1) a.2.core, m.seat (some b.1) b.2.core with
      | some a', some b' => gangPair (s.launch a.2.launch) a.2.core b.2.core a' b'
      | _, _ => true))

/-- The saved blocks and waves of a context that a placing brings to a core, within what the core has room for (R8, R16, R292). -/
def State.coreHolds (s : State) (ctx : Nat) (m : Placing) (core : Nat) : Bool :=
  let bs := tvals (s.blocks.filter (fun p => p.2.ctx = ctx && !p.2.released && m.seat (some p.1) p.2.core == some core))
  let ws (p : Nat) : List Wave := (tvals s.waves).filter (fun w => w.ctx = ctx && w.part = p && m.seat w.block w.core == some core)
  bs.length ≤ 8 && (bs.map (fun b => tilesFor b.size b.lanepriv b.nwaves)).foldl (· + ·) 0 ≤ 48 &&
    (bs.map (fun b => b.accum)).foldl (· + ·) 0 ≤ 8 &&
    (List.range 8).all (fun p => ((ws p).map (fun w => w.nvregs)).foldl (· + ·) 0 ≤ 1024 && (ws p).length ≤ 16)

/-- The spawn bins, gather commands, matrix queues and last MMA times of a piece. -/
def State.pieceSaved (s : State) (ctx : Nat) (p : Piece) : SavedCluster :=
  let x := tgetD (s.ctx ctx).saved p.cluster {}
  { bins := if p.own then x.bins else [], gather := x.gather.filter (fun c => s.inPiece ctx p c.block),
    queues := tmap x.queues (fun q => q.filter (fun c => s.inPiece ctx p c.block)),
    mmaEnd := tmap x.mmaEnd (fun t => t.filter (fun e => s.inPiece ctx p (e.1 / 8))) }

/-- The engines of a cluster have room for what a placing brings there. -/
def State.enginesFit (s : State) (ctx : Nat) (m : Placing) (g' : Nat) : Bool :=
  let xs := (m.filter (fun p => p.2 = g')).map (fun p => s.pieceSaved ctx p.1)
  (xs.flatMap (fun x => (tvals x.bins).filter (fun b => !b.threads.isEmpty))).length ≤ 8 && (xs.flatMap (fun x => x.gather)).length ≤ 16

/-- A placing is sound where it placed last. -/
def State.placingFits (s : State) (ctx : Nat) (m : Placing) : Bool :=
  s.gangsFit ctx m && m.getLast?.all (fun p => (List.range 8).all (fun k => s.coreHolds ctx m (p.2 * 8 + k)) && s.enginesFit ctx m p.2)

/-- Pieces are placed one after another, each on the first of its candidates from which the rest can be placed too. -/
def placePieces (fits : Placing → Bool) (candidates : Placing → Piece → List Nat) : List Piece → Placing → Option Placing
  | [], m => some m
  | p :: ps, m => (candidates m p).findSome? (fun y => if fits (m ++ [(p, y)]) then placePieces fits candidates ps (m ++ [(p, y)]) else none)

/-- A list with one element of it first. -/
def preferring (y : Option Nat) (l : List Nat) : List Nat := l.filter (fun x => some x == y) ++ l.filter (fun x => some x != y)

/-- The cluster on which what no block holds of a cluster resumes. -/
def Placing.cluster (m : Placing) (g : Nat) : Option Nat := (m.seat none (g * 8)).map clusterOf

/-- Where a piece may resume under a mapping of stacks: a cluster of its stack's image, which takes what no block holds of one cluster
alone. -/
def stackCandidates (sm : List (Nat × Nat)) (news : List Nat) (m : Placing) (p : Piece) : List Nat :=
  match sm.find? (fun q => q.1 = p.cluster / 32) with
  | none => []
  | some q =>
    let here := news.filter (fun y => y / 32 = q.2)
    if p.own then preferring (some (q.2 * 32 + p.cluster % 32)) (here.filter (fun y => m.all (fun r => !(r.1.own && r.2 = y))))
    else preferring (m.cluster p.cluster) here

/-- A plan under R382 from some clusters onto others, if there is one: whole clusters move if they can, else each cluster group for
itself. (DEDUCED, log 80.) -/
def State.resumeMap (s : State) (ctx : Nat) (olds news : List Nat) : Option Plan :=
  let cnt (l : List Nat) (y : Nat) : Nat := (l.filter (fun g => g / 32 = y)).length
  let ms := stackMaps (cnt olds) (cnt news) (olds.map (· / 32)).dedup (List.range 8)
  let from_ (ps : List Piece) : Option Plan := ms.findSome? (fun sm =>
    (placePieces (s.placingFits ctx) (stackCandidates sm news) ps []).map (fun m => ⟨m, sm, news⟩))
  if news.all (· < 256) then (from_ (olds.map (s.wholePiece ctx))).orElse (fun _ => from_ (olds.flatMap (s.splitPieces ctx))) else none

/-- The plan of a context whose cluster has been withdrawn: its other clusters stay, and each cluster group of the withdrawn one, and
what else it held, goes to one of them that has room, of its own stack before the rest (R342). (DEDUCED, log 124.) -/
def State.gatherMap (s : State) (ctx : Nat) : Option Plan :=
  let gone := s.homeless ctx
  let rest := (s.heldClusters ctx).filter (fun g => !gone.contains g)
  let at_ (m : Placing) (p : Piece) : List Nat :=
    if gone.contains p.cluster then
      preferring (if p.own then none else m.cluster p.cluster)
        (rest.filter (fun y => y / 32 = p.cluster / 32) ++ rest.filter (fun y => y / 32 != p.cluster / 32))
    else [p.cluster]
  (placePieces (s.placingFits ctx) at_ (rest.map (s.wholePiece ctx) ++ gone.flatMap (s.splitPieces ctx)) []).map
    (fun m => ⟨m, (List.range 8).map (fun y => (y, y)), rest⟩)

/-- The matrix queues and last MMA times of the cores of a piece, at its new place. -/
def State.restoreCores (s : State) (g' : Nat) (x : SavedCluster) : State :=
  (List.range 8).foldl (fun (u : State) k => u.modCore (g' * 8 + k) (fun c =>
    { c with mq := (c.mq ++ tgetD x.queues k []).insertionSort (fun a b => a.enter ≤ b.enter), mmaEnd := c.mmaEnd ++ tgetD x.mmaEnd k [] })) s

/-- Bins enter a cluster, each in its own place or in the lowest empty one. -/
def addBins (bins : Tbl Bin) (new : Tbl Bin) : Tbl Bin :=
  new.foldl (fun t p =>
    let free (k : Nat) : Bool := (tgetD t k {}).threads.isEmpty
    if p.2.threads.isEmpty then t
    else tset t (if free p.1 then p.1 else ((List.range 8).find? free).getD p.1) p.2) bins

/-- The engines' work of a piece at its new place, in the order in which it came. -/
def State.restorePiece (s : State) (x : SavedCluster) (g' : Nat) : State :=
  (s.modCluster g' (fun c => { c with
    gather := (c.gather ++ x.gather).insertionSort (fun a b => a.seq ≤ b.seq),
    bins := addBins c.bins (tmap x.bins (fun b => { b with deadline := b.deadline + s.timeNs })) })).restoreCores g' x

/-- A cause as it names its work at the new place. -/
def TrapInfo.mapped (g' : Nat) (t : TrapInfo) : TrapInfo :=
  match t.origin with
  | .gather _ q => { t with origin := .gather g' q }
  | _ => t

/-- Stack scratchpads at their new stacks; one whose slices have changed in number reads 0 (R304). -/
def mapStacks {α : Type} (m : List (Nat × Nat)) (same : Nat → Nat → Bool) (t : Tbl α) : Tbl α :=
  t.foldl (fun u p => match m.find? (fun q => q.1 = p.1) with
    | some q => if same p.1 q.2 then tset u q.2 p.2 else u
    | none => u) []

/-- The context's own fields at the new place: clusters, ELAPSED, stack scratchpads. -/
def State.restoreContext (s : State) (ctx : Nat) (p : Plan) : State :=
  let same (y y' : Nat) : Bool := ((s.ctx ctx).clusters.filter (fun g => g / 32 = y)).length == (p.clusters.filter (fun g => g / 32 = y')).length
  let el (c : Context) : Tbl Nat := (p.pieces.filter (fun x => x.1.own)).foldr (fun x t => tset t x.2 (tgetD c.elapsed x.1.cluster 0)) []
  let at_ : Tbl Nat := p.clusters.foldl (fun t g => tset t g (s.clusterClk g)) []
  s.modCtx ctx (fun c => { c with
    clusters := p.clusters, phase := .restoring, saved := [], heldBy := [], retireHold := false,
    elapsed := el c, resumedAt := at_, stackSp := mapStacks p.images same c.stackSp, stackPoison := mapStacks p.images same c.stackPoison,
    queues := tmap c.queues (fun q => { q with reserving := none, skips := 0 }) })

/-- A saved context resumes under a plan (R382). -/
def State.resumeOn (s : State) (ctx : Nat) (p : Plan) : State :=
  let idle := s.clk - (s.ctx ctx).preemptAt
  let wave (w : Wave) : Wave :=
    if w.ctx = ctx then
      let k := p.pieces.core w.block w.core
      { w with core := k, since := w.since + idle, causes := w.causes.map (TrapInfo.mapped (clusterOf k)) }
    else w
  let block (b : Nat × Block) : Nat × Block :=
    if b.2.ctx = ctx then (b.1, { b.2 with core := p.pieces.core (some b.1) b.2.core, since := b.2.since + idle }) else b
  let s1 : State := { s with waves := tmap s.waves wave, blocks := s.blocks.map block }
  let s2 := p.clusters.foldl (fun (u : State) g => u.modCluster g (fun c => { c with owner := some ctx })) s1
  let s3 := p.pieces.foldl (fun (u : State) x => u.restorePiece (s.pieceSaved ctx x.1) x.2) s2
  (s3.restoreContext ctx p).writeHeader ctx 3

/-- The restoration of a context ends: its waves issue and its gangs dispatch again. -/
def State.endRestore (s : State) (ctx : Nat) : State :=
  (((s.modCtx ctx (fun c => { c with phase := .running })).writeHeader ctx 0).applyPower ctx).dispatch ctx

/-- The plan of a resume on the clusters named, or on those held before; none if they do not meet R382 or R342. -/
def State.resumePlan (s : State) (ctx : Nat) (named : List Nat) : Option Plan :=
  let olds := (s.ctx ctx).clusters.insertionSort (· ≤ ·)
  let held := s.heldClusters ctx
  let news := if named.isEmpty then held else named
  if !(s.homeless ctx).isEmpty && (named.isEmpty || named == held.filter (fun g => !(s.homeless ctx).contains g)) then s.gatherMap ctx
  else if news.any s.unusable then none
  else (s.resumeMap ctx olds news).orElse (fun _ => s.resumeMap ctx held news)

/-- The home of a save area does not answer, or a warm reset that has begun holds back the contexts whose save area it is (R410). -/
def State.saveHeld (s : State) (ctx : Nat) : Bool :=
  s.homeLost (s.ctx ctx).saveBase || s.resetting (homeDie (s.ctx ctx).saveBase)

/-- Resume under a plan onto free clusters; none if there is no such plan, or the context must not resume yet. -/
def State.resume (s : State) (ctx : Nat) (named : List Nat) : Option State :=
  if (s.ctx ctx).phase != .saved || s.saveHeld ctx then none
  else match s.resumePlan ctx named with
    | some p => if p.clusters.any (fun g => s.unusable g || (s.cluster g).owner.isSome) then none else some (s.resumeOn ctx p)
    | none => none

/-! Spare cores (R342). -/

/-- A physical core of a cluster that no context owns is retired: the spare stands for it, and a cluster that loses a second
core is withdrawn. -/
def State.retireCore (s : State) (cluster physical : Nat) : State :=
  let c := s.cluster cluster
  let r := physical :: c.retired
  if !c.retired.isEmpty then s.modCluster cluster (fun c => { c with retired := r, withdrawn := true })
  else if physical = 8 then s.modCluster cluster (fun c => { c with retired := r })
  else
    (s.modCluster cluster (fun c => { c with retired := r, spareFor := some physical })).logDry (cluster / 16) 0x0E 0
      (cluster * 8 + physical) (8 + physical * 256) 0

/-- The retirements whose cluster is free are made. -/
def State.retireDue (s : State) : State :=
  let due := s.retiring.filter (fun p => (s.cluster p.1).owner.isNone)
  due.foldl (fun (u : State) p => u.retireCore p.1 p.2) { s with retiring := s.retiring.filter (fun p => !due.contains p) }

/-- A saved context that the device itself pre-empted resumes, or waits for the warm reset of the die of its save area (R410). -/
def State.resumeAgain (s : State) (ctx : Nat) : State :=
  if s.saveHeld ctx then s.modCtx ctx (fun c => { c with heldBy := [homeDie c.saveBase] }) else (s.resume ctx []).getD s

/-- A context that was pre-empted for the retirement of a core resumes (R279, R342). -/
def State.afterRetire (s : State) (ctx : Nat) : State :=
  let c := s.ctx ctx
  if c.phase == .saved && c.retireHold && c.heldBy.isEmpty then s.resumeAgain ctx else s

/-- A turn of a context's save or restoration: the save is made when it can be, and pressed on before. -/
def State.saveTurn (s : State) (ctx : Nat) : State :=
  match (s.ctx ctx).phase with
  | .restoring => s.endRestore ctx
  | .saving => if s.saveReady ctx then ((s.saveContext ctx).retireDue).afterRetire ctx else s.pressSave ctx
  | _ => s

/-- A context is pre-empted, one that is being restored once that is done. -/
def State.preemptNow (s : State) (ctx : Nat) : State :=
  (if (s.ctx ctx).phase == .restoring then s.endRestore ctx else s).beginPreempt ctx

/-- CORE_RETIRE: a physical core is retired in the field once no context holds its cluster; the owning context is pre-empted first,
and resumes after it. -/
def execCoreRetire (cluster physical : Nat) (s : State) : Host.Outcome State Fault Refusal :=
  let c := s.cluster cluster
  if 8 < physical || 256 ≤ cluster || c.retired.contains physical || c.withdrawn || s.retiring.contains (cluster, physical) then .next s
  else
    let s1 : State := { s with retiring := s.retiring ++ [(cluster, physical)] }
    match c.owner with
    | none => .next s1.retireDue
    | some k => match (s.ctx k).phase with
      | .running | .restoring => .next ((s1.preemptNow k).modCtx k (fun x => { x with retireHold := true }))
      | _ => .next s1

end Sys2Proof.Machine
end

