-- ==== Sys2Proof/Machine/Reliability.lean ====
section
/-! DEFINITION. Lost dies and the rebuild (R409, R413 to R417), warm reset (R410 to R412) and the DRAM scrub (R404): the
events DIE_LOST, REBUILD_DONE, SMC_HEARTBEAT, DIE_WARM_RESET, WARM_RESET_STEP_DONE and DRAM_SCRUB. -/
namespace Sys2Proof.Machine

/-- The clusters of a die, and the slices beneath them. -/
def dieClusters (d : Nat) : List Nat := (List.range 16).map (fun i => d * 16 + i)

/-! Poison (R405). -/

/-- Every granule of a line is poisoned in its owner copy. -/
def State.poisonLine (s : State) (line : Nat) : State :=
  { s with poison := s.poison ++ ((List.range 8).map (fun g => line + 8 * g)).filter (fun g => !s.poison.contains g) }

/-- A granule of the line is poisoned. -/
def State.linePoisoned (s : State) (line : Nat) : Bool := (List.range 8).any (fun g => s.poison.contains (line + 8 * g))

/-- The rebuild of a lost die poisons lines: those that held no poison before are counted (R419). (DEDUCED, log 101.) -/
def State.rebuildPoison (s : State) (die : Nat) (lines : List Nat) : State :=
  let fresh := (lines.dedup.filter (fun l => !s.linePoisoned l)).length
  let s1 := lines.dedup.foldl (fun (u : State) l => u.poisonLine l) s
  { s1 with rebuilding := tset s1.rebuilding die (tgetD s1.rebuilding die 0 + fresh) }

/-! Units. -/

/-- The stack that a coherence message comes from or goes to. -/
def messageStack : Instr → Option Nat
  | .gets _ y _ | .getx _ y _ | .fwd _ y _ _ | .data _ y _ _ _ | .wb _ y | .xpub _ y _ | .xinv _ y | .xack _ y | .xdone _ y _ => some y
  | _ => none

/-- Messages are lost for good, in flight, dropped or waiting at their home entry. -/
def State.purge (s : State) (p : Instr → Bool) : State :=
  { s with
    net := s.net.filter (fun i => !p i), waiting := s.waiting.filter (fun i => !p i),
    fabric := { s.fabric with lost := s.fabric.lost.filter (fun x => !p x.1) } }

/-- No copy of a unit and no message of it is left, and its home holds it: its writes are visible everywhere. -/
def State.bringHome (s : State) (k : Nat) : State :=
  let ls := s.unitLines k
  let s1 := (s.sendHome k).purge (fun i => (messageUnit i).any (fun u => u = k || ls.contains u))
  ls.foldl (fun (u : State) l => (u.gatherTags l (u.ownSlice k)).settle l) s1

/-- Every unit that has a copy, a home entry or a message. -/
def State.knownUnits (s : State) : List Nat :=
  (tkeys s.homes ++ (tvals s.stackTbl).flatMap (fun t => (tvals t.lines).flatMap (fun c => tkeys c.parts)) ++
    (tvals s.cores).flatMap (fun c => (tkeys c.l1).flatMap s.lineUnits) ++ (s.net ++ s.waiting).filterMap messageUnit).dedup

/-- A unit has bytes homed on a die. -/
def State.unitOn (s : State) (die k : Nat) : Bool := (s.unitLines k).any (fun l => homeDie l = die)

/-! Loss of a die (R413 to R415). -/

/-- A wave or block of a core is on a die now. -/
def State.onDie (s : State) (die ctx core : Nat) : Bool := dieOf core == die && s.stands ctx

/-- The launches with a block, a wave or a waiting thread on a die. (DEDUCED, log 104.) -/
def State.launchesOn (s : State) (die : Nat) : List Nat :=
  (((tvals s.waves).filter (fun w => s.onDie die w.ctx w.core)).filterMap (fun w => w.launch) ++
    ((tvals s.blocks).filter (fun b => s.onDie die b.ctx b.core)).map (fun b => b.launch) ++
    (dieClusters die).flatMap (fun g => ((tvals (s.cluster g).bins).filter (fun b => !b.threads.isEmpty)).map (fun b => b.launch))).dedup

/-- The waves and blocks on a die are lost without a trap, and their launches fail. -/
def State.loseWaves (s : State) (die : Nat) : State :=
  let ls := s.launchesOn die
  let s0 := (s.waves.filter (fun p => s.onDie die p.2.ctx p.2.core)).foldl (fun (u : State) p => u.dropCarve p.1) s
  let s1 : State := { s0 with
    waves := s.waves.filter (fun p => !s.onDie die p.2.ctx p.2.core), blocks := s.blocks.filter (fun p => !s.onDie die p.2.ctx p.2.core) }
  ls.foldl (fun (u : State) k => u.abandonLaunch k) s1

/-- A context that stands loses clusters, with the stack scratchpad of stacks that lose one. (DEDUCED, log 105.) -/
def Context.withoutClusters (die : Nat) (c : Context) : Context :=
  if c.phase == .saved || c.clusters.all (fun g => g / 16 != die) then c
  else { c with
    clusters := c.clusters.filter (fun g => g / 16 != die), stackSp := tdel c.stackSp (die / 2), stackPoison := tdel c.stackPoison (die / 2) }

/-- The clusters of a die are withdrawn; the allowances and the homes of counters, which lie in the C-die, stay. -/
def Cluster.lose (c : Cluster) : Cluster := { c with owner := none, withdrawn := true, gather := [], bins := [] }

/-- Steps 1 and 2 of the rebuild: pending INV and IACK of the die are acknowledged for it. -/
def State.ackForDie (s : State) (die : Nat) : State :=
  let mine (i : Instr) : Option Nat := match i with
    | .inv l g _ => if g / 16 = die then some l else none
    | .iack l g => if g / 16 = die then some l else none
    | _ => none
  ((s.net.filterMap mine).dedup).foldl (fun (u : State) l => u.settle l) (s.purge (fun i => (mine i).isSome))

/-- Step 3: the lines that cores of the die wrote under unpublished releases are poisoned, their tags dropped, and the
forced publishes that wait on those cores answered. -/
def State.dropTags (s : State) (die : Nat) : State :=
  let lost (t : Tag) : Bool := dieOf t.core == die
  let lines := (tvals s.clusters).flatMap (fun c => (c.tags.filter lost).map (fun t => t.line))
  let s1 := s.rebuildPoison die lines
  let s2 : State := { s1 with clusters := tmap s1.clusters (fun c => { c with tags := c.tags.filter (fun t => !lost t) }) }
  (s.cores.filter (fun p => dieOf p.1 = die)).foldl (fun (u : State) p =>
    p.2.fpubs.foldl (fun (v : State) f => v.sendOnce (.fack p.1 f.epoch f.level f.requester)) u) s2

/-- Step 4: the units homed on the die are gone, with every copy of them. -/
def State.dropHomed (s : State) (die : Nat) : State :=
  (s.knownUnits.filter (s.unitOn die)).foldl (fun (u : State) k => u.bringHome k) s

/-- Step 6: the replay filters drop what they hold of the die's cores. -/
def State.dropFilters (s : State) (die : Nat) : State :=
  { s with fabric := { s.fabric with
    filters := s.fabric.filters.map (fun p =>
      if p.1 / 256 < 4096 && dieOf (p.1 / 256 % 2048) = die then (p.1, { p.2 with buffer := [] }) else p) } }

/-- The gangs of every context that can be placed now start. -/
def State.placeAll (s : State) : State := (tkeys s.ctxs).foldl (fun (u : State) c => u.placeGangs c) s

/-- A context is pre-empted by the warm reset of a die (R410). -/
def State.preemptFor (s : State) (die ctx : Nat) : State :=
  let c := s.ctx ctx
  if c.clusters.any (fun g => g / 16 = die) then
    match c.phase with
    | .running | .restoring => (s.preemptNow ctx).modCtx ctx (fun c => { c with heldBy := c.heldBy ++ [die] })
    | .saving => if c.heldBy.isEmpty && !c.retireHold then s else s.modCtx ctx (fun c => { c with heldBy := c.heldBy ++ [die] })
    | .saved => s
  else s

/-- A warm reset begins: dispatch to the die stops and its contexts are pre-empted. -/
def State.beginReset (s : State) (die : Nat) : State :=
  (tkeys s.ctxs).foldl (fun (u : State) c => u.preemptFor die c) { s with resets := tset s.resets die 0 }

/-- The stack-mate of a die. -/
def mateOf (die : Nat) : Nat := die / 2 * 2 + (1 - die % 2)

/-- The warm reset that waits for a die's begins. -/
def State.nextReset (s : State) (die : Nat) : State :=
  if s.resetQueue.contains (mateOf die) then
    ({ s with resetQueue := s.resetQueue.erase (mateOf die) } : State).beginReset (mateOf die)
  else s

/-- The contexts that a warm reset holds go on: once no reset holds them, those saved resume where they were (R410). -/
def State.releaseHeld (s : State) (die : Nat) : State :=
  (tkeys s.ctxs).foldl (fun (u : State) c =>
    if (u.ctx c).heldBy.contains die then
      let v := u.modCtx c (fun x => { x with heldBy := x.heldBy.erase die })
      if (v.ctx c).heldBy.isEmpty && (v.ctx c).phase == .saved then v.resumeAgain c else v
    else u) s

/-- A die is lost: what it ran is lost, and the rebuild restores the directories that named it. (DEDUCED, log 103.) -/
def State.loseDie (s : State) (die : Nat) : State :=
  if 16 ≤ die || s.dead.contains die then s
  else
    let s1 := (s.logDry (cdieRecord (die / 2)) 0x0A 0 0 die 0).loseWaves die
    let s2 : State := { s1 with
      dead := s1.dead ++ [die], offline := s1.offline.erase die, resets := tdel s1.resets die, resetQueue := s1.resetQueue.erase die,
      hot := s1.hot.erase die, missed := tdel s1.missed die, rebuilding := tset s1.rebuilding die 0,
      ctxs := tmap s1.ctxs (Context.withoutClusters die) }
    let s3 := ((s2.ackForDie die).dropTags die).dropHomed die
    let s4 := (dieClusters die).foldl (fun (u : State) g => u.modCluster g Cluster.lose) (s3.evictSlices (dieClusters die))
    let s5 := ({ s4 with cores := s4.cores.filter (fun p => dieOf p.1 != die) } : State).dropFilters die
    ((s5.releaseHeld die).nextReset die).placeAll

/-- The units that their home must take back when the C-die of a stack is lost. -/
def State.stackUnits (s : State) (stack : Nat) : List Nat :=
  s.knownUnits.filter (fun k =>
    let e := s.homeEntry k
    (s.partAt stack k).isSome || (e.owned && e.owner = stack) || e.shares k stack || e.waitX.contains stack || e.cut.contains stack ||
      e.xpub.any (fun x => x.1 = stack) || (s.net ++ s.waiting).any (fun i => messageUnit i = some k && messageStack i = some stack))

/-- The lines homed elsewhere whose latest value a stack alone held. -/
def State.dirtyLines (s : State) (stack : Nat) : List Nat :=
  ((tgetD s.stackTbl stack {}).lines.filter (fun p =>
    homeStack p.1 != stack && (tvals p.2.parts).any (fun x => x.st == .m || x.st == .o))).map Prod.fst

/-- A stack is lost with its C-die and both its Q-dies (R262, R395, R413): what it alone held of lines homed elsewhere is
lost, so those lines are poisoned at their homes; its link ports fail. (DEDUCED, log 102.) -/
def State.loseStack (s : State) (stack : Nat) : State :=
  if s.lostStacks.contains stack then s
  else
    let s1 := ({ s with lostStacks := s.lostStacks ++ [stack] } : State).logDry 0x30 0x0A 0 0 (cdieRecord stack) 0
    let s2 := (s.stackUnits stack).foldl (fun (u : State) k => u.bringHome k) s1
    let s3 := (s2.loseDie (2 * stack)).loseDie (2 * stack + 1)
    let s4 := s3.breakElements ((List.range 8).map (fun p => .port stack p))
    (s4.rebuildPoison (2 * stack) (s.dirtyLines stack)).sendOnce (.decantCdieLoss stack)

/-- DIE_LOST: a failure that the DMC of a Q-die reports, or, by the code of its drydown record, the loss of a C-die. -/
def execDieLost (die : Nat) (s : State) : Host.Outcome State Fault Refusal :=
  .next (if die < 16 then s.loseDie die else if 0x20 ≤ die && die < 0x28 then s.loseStack (die - 0x20) else s)

/-- REBUILD_DONE: the rebuild's end is recorded and the host is told (R416). -/
def execRebuildDone (die : Nat) (s : State) : Host.Outcome State Fault Refusal :=
  match tget? s.rebuilding die with
  | none => .next s
  | some n =>
    let k := min n (2 ^ 32 - 1)
    let s1 := ((s.logDry (cdieRecord (die / 2)) 0x0B 0 0 k 0).logDry 0x30 0x0B 0 0 k 0).emit (.tell 0x0B die k)
    .next { s1 with rebuilding := tdel s1.rebuilding die }

/-- SMC_HEARTBEAT: a die that misses three heartbeats in succession is lost (R413). -/
def execSmcHeartbeat (stack : Nat) (answered : List Nat) (s : State) : Host.Outcome State Fault Refusal :=
  .next ([2 * stack, 2 * stack + 1].foldl (fun (u : State) d =>
    if u.dead.contains d || 16 ≤ d then u
    else if answered.contains d then { u with missed := tdel u.missed d }
    else
      let n := tgetD u.missed d 0 + 1
      if 3 ≤ n then u.loseDie d else { u with missed := tset u.missed d n }) s)

/-! Warm reset (R410 to R412). -/

/-- A warm reset is asked for: none if the die is lost, or one is already in progress or waiting on it. (DEDUCED, log 87.) -/
def State.askReset (s : State) (die : Nat) : Option State :=
  if 16 ≤ die || s.dead.contains die || (tget? s.resets die).isSome || s.resetQueue.contains die then none
  else if (tget? s.resets (mateOf die)).isSome then some { s with resetQueue := s.resetQueue ++ [die] }
  else some (s.beginReset die)

/-- DIE_WARM_RESET: the die's DMC asks for a warm reset; one asked for while another is in progress is discarded. -/
def execDieWarmReset (die : Nat) (s : State) : Host.Outcome State Fault Refusal := .next ((s.askReset die).getD s)

/-- The link ports attributed to a die (R391). -/
def diePorts (die : Nat) : List Element := (List.range 4).map (fun i => .port (die / 2) (die % 2 * 4 + i))

/-- Step 1 begins: the die's link ports that still work are retired, phase 1 (R394). -/
def State.retirePorts (s : State) (die : Nat) : State :=
  ((diePorts die).filter s.fabric.works).foldl State.startRetire s

/-- No link port of the die works or is being retired, but for those that have been quiet long enough. -/
def State.portsQuiet (s : State) (die : Nat) : Bool :=
  (diePorts die).all (fun e => s.fabric.down.contains e || s.fabric.off.contains e || s.quietFor e)

/-- Step 1 ends: phase 2 of the retirement. -/
def State.endPorts (s : State) (die : Nat) : State := ((diePorts die).filter s.quietFor).foldl State.powerDown s

/-- The M, O and E copies of a unit are written back and invalidated; S copies stay, and ownership on its way goes home. -/
def State.disown (s : State) (k : Nat) : State :=
  let s1 := s.purge (fun i => messageUnit i == some k && (match i with
    | .fwd _ _ _ _ | .wb _ _ => true
    | .data _ _ _ excl _ => excl
    | _ => false))
  let s2 := (List.range 8).foldl (fun (u : State) y =>
    if (u.partAt y k).any (fun p => p.st.owns) then (u.dropPart y k).ownHome k y else u) s1
  let e := s2.homeEntry k
  (s2.unitLines k).foldl (fun (u : State) l => u.settle l) (if e.owned then s2.ownHome k e.owner else s2)

/-- Step 2: the units homed on the die go home, S copies are left to expire, and the die's L1s and slices are emptied. -/
def State.emptyDie (s : State) (die : Nat) : State :=
  let ks := s.knownUnits.filter (s.unitOn die)
  let s1 := ks.foldl (fun (u : State) k => u.disown k) (s.evictSlices (dieClusters die))
  { s1 with cores := s1.cores.map (fun p => if dieOf p.1 = die then (p.1, { p.2 with l1 := [] }) else p) }

/-- Step 5: the cores and clusters of the die stand as after reset, and the ticks of its cores count from 0 (R321); the slices,
allowances and homes of counters lie in the C-die and are untouched. -/
def State.resetLogic (s : State) (die : Nat) : State :=
  let s1 : State := { s with cores := s.cores.filter (fun p => dieOf p.1 != die) }
  (dieClusters die).foldl (fun (u : State) g =>
    (u.setStep g 16).modCluster g (fun c => { c with gather := [], bins := [], owner := none, coresFrom := u.clusterClk g })) s1

/-- The elevators of a die. -/
def dieElevators (die : Nat) : List Element := (List.range 16).map (fun i => .elevator (die / 2) (die % 2 * 16 + i))

/-- The headers of the save areas homed on a die are written anew: what was written while it did not answer was lost (R381, R411). -/
def State.freshHeaders (s : State) (die : Nat) : State :=
  (tkeys s.ctxs).foldl (fun (u : State) c => if homeDie (u.ctx c).saveBase = die then u.initHeader c else u) s

/-- Step 6: the link ports return, the routing entries of the die's ports and elevators are restored (R411, R434), the homes
answer again, contexts resume, and a reset of the stack-mate that waits begins. -/
def State.readmit (s : State) (die : Nat) : State :=
  let mine := diePorts die ++ dieElevators die
  let back (e : Element) : Bool := mine.contains e || mine.contains (farEnd e)
  let f := s.fabric
  let s1 : State := { s with
    fabric := { f with
      off := f.off.filter (fun e => !back e), around := f.around.filter (fun e => !back e), down := f.down.filter (fun e => !back e),
      leaving := f.leaving.filter (fun l => !back l.element), rewriteBy := f.rewriteBy.filter (fun p => !back p.1) },
    offline := s.offline.erase die, resets := tdel s.resets die }
  ((s1.freshHeaders die).releaseHeld die).nextReset die

/-- The action of a step. (DEDUCED, log 107.) -/
def State.resetStep (s : State) (die : Nat) : Nat → State
  | 1 => s.endPorts die
  | 2 => s.emptyDie die
  | 3 => { s with offline := s.offline ++ [die] }
  | 4 => s
  | 5 => s.resetLogic die
  | _ => s.readmit die

/-- WARM_RESET_STEP_DONE: a step completes and the next begins; step 1 begins once every context of the die is saved, and ends once its
link ports have been quiet. -/
def execWarmResetStepDone (die : Nat) (s : State) : Host.Outcome State Fault Refusal :=
  match tget? s.resets die with
  | none => .next s
  | some k =>
    if k = 0 && (dieClusters die).any (fun g => (s.cluster g).owner.isSome) then .next s
    else if k = 0 && !s.portsQuiet die then .next (s.retirePorts die)
    else
      let s1 := ({ s with resets := tset s.resets die (k + 1) } : State).logDry die 0x09 0 0 (k + 1) 0
      .next (s1.resetStep die (k + 1))

/-! DRAM scrub (R404). -/

/-- What the owner of a granule's unit holds of it in its slices, while no transfer of ownership is on its way. -/
def State.ownerPart (s : State) (a : Nat) : Option CopyState :=
  ((s.partAt (s.ownerStack (s.unitAt a)) (s.unitAt a)).map (fun p => p.st)).filter CopyState.owns

/-- Granules that are poisoned in the D-layers: one beneath a copy in M or O will be written back over; one beneath a clean copy shows once
that copy is gone; any other is poisoned for every reader. -/
def State.settleDram (s : State) : State :=
  s.dramBad.foldl (fun (u : State) a =>
    let drop (v : State) : State := { v with dramBad := v.dramBad.filter (fun x => x != a) }
    match u.ownerPart a with
    | some .e => u
    | some _ => drop u
    | none =>
      if u.ownerReady (u.unitAt a) then drop { u with poison := if u.poison.contains a then u.poison else u.poison ++ [a] } else u) s

/-- A line that the D-layers cannot correct: every granule of it is poisoned there. (DEDUCED, log 108.) -/
def State.poisonDram (s : State) (line : Nat) : State :=
  ({ s with dramBad := s.dramBad ++ ((List.range 8).map (fun g => line + 8 * g)).filter (fun g => !s.dramBad.contains g) } : State).settleDram

/-- DRAM_SCRUB: each correction is recorded, and every granule of a line that cannot be corrected is poisoned. -/
def execDramScrub (die : Nat) (corrected uncorrectable : List Nat) (s : State) : Host.Outcome State Fault Refusal :=
  let mine (l : Nat) : Bool := homeDie l == die && isDram l
  if s.dead.contains die then .next s
  else
    let s1 := (corrected.filter mine).foldl (fun (u : State) l =>
      u.logDry die 0x01 11 0 (Config.syndrome s.clk (lineOf l)) (lineOf l)) s
    .next ((uncorrectable.filter mine).foldl (fun (u : State) l =>
      (u.logDry die 0x02 11 0 8 (lineOf l)).poisonDram (lineOf l)) s1)

end Sys2Proof.Machine
end

