-- ==== Sys2Proof/Machine/Fabric.lean ====
section
/-! DEFINITION. The events of the fabric (R394 to R397): ELEMENT_FAILURE, ROUTE_REWRITE, ELEMENT_RETIRE, RETIRE_POWER_DOWN,
RETRANSMIT_TIMEOUT and REPLAY_FILTER_ARRIVAL. -/
namespace Sys2Proof.Machine

/-! Failure and retirement (R394, R395). -/

/-- After a link port has failed, the stacks that are cut off are lost. -/
def State.loseCutOff (s : State) (e : Element) : State :=
  if elementIsPort e then s.cutOff.foldl (fun (u : State) y => u.loseStack y) s else s

/-- ELEMENT_FAILURE: an elevator or link port fails with the packets inside it, and its routers set DOWN; the entries that name
it are rewritten within 2,000 clk. One that was being retired has no such entry left. (DEDUCED, log 97.) -/
def execElementFailure (element : Element) (s : State) : Host.Outcome State Fault Refusal :=
  if !elementValid element || s.fabric.down.contains element || s.fabric.off.contains element then .next s
  else
    let s1 := (s.breakElements [element]).logElement element 0x05 (if elementIsPort element then 1 else 0)
    .next (if s.fabric.around.contains element then s1.loseCutOff element else s1)

/-- ROUTE_REWRITE: the entries are rewritten round a failed element, and stacks that are cut off are lost. -/
def execRouteRewrite (element : Element) (s : State) : Host.Outcome State Fault Refusal :=
  if s.fabric.rewriteBy.all (fun p => p.1 != element) then .next s
  else .next (((s.modFabric (fun f => { f with rewriteBy := f.rewriteBy.filter (fun p => p.1 != element) })).routeAround
    element).loseCutOff element)

/-- ELEMENT_RETIRE: phase 1 of a retirement. -/
def execElementRetire (element : Element) (s : State) : Host.Outcome State Fault Refusal :=
  if !elementValid element || !s.fabric.works element then .next s
  else .next (s.startRetire element)

/-- An element that is being retired is not quiet while a packet that was on its way over it when its entries were rewritten has
not arrived (R394). -/
def State.watchLeaving (s : State) : State :=
  if s.fabric.leaving.isEmpty then s
  else s.modFabric (fun f => { f with leaving := f.leaving.map (fun l =>
    if l.inside.isEmpty then l
    else { l with inside := l.inside.filter (fun i => s.packets.contains i), since := s.clk }) })

/-- RETIRE_POWER_DOWN: phase 2, once the element has been quiet for 2,048 clk. -/
def execRetirePowerDown (element : Element) (s : State) : Host.Outcome State Fault Refusal :=
  if s.quietFor element then .next (s.powerDown element) else .next s

/-! Retransmission (R396). Sources 0 to 2,047 are the write queues of the cores, 2,048 to 4,095 their load queues; from 4,096
the slices, the directories and the counters' slices, 256 of each. -/

/-- The source of a lane. (DESIGN CHOICE, log 98.) -/
def laneSource (l : Nat × Nat × Nat) : Nat :=
  match l.1 with
  | 0 => 2048 + l.2.1
  | 1 => l.2.1
  | k => 4096 + (k - 2) * 256 + l.2.1

/-- A packet carries a request of a source to a home slice, or the response to one. -/
def State.carries (s : State) (source home : Nat) : Instr → Bool
  | .wr c i => c == source && (tget? (s.core c).wq i).any (fun e => homeSlice e.pa = home)
  | .loadDataReturn w l =>
    (tgetD s.waves w {}).core + 2048 == source &&
      (tget? (tgetD s.waves w {}).loads l).any (fun p => p.lanes.any (fun x => x.got.isNone && homeSlice x.pa = home))
  | .fwd k _ c x => (if x then c else c + 2048) == source && unitSlice k = home
  | .data k _ c x _ => (if x then c else c + 2048) == source && unitSlice k = home
  | i => (s.messageLane i).any (fun l => laneSource l = source && l.2.2 % 256 = home)

/-- The clk of entry of a source's requests to a home slice that are not answered. (DESIGN CHOICE, log 98.) -/
def State.unanswered (s : State) (source home : Nat) : List Nat :=
  (if source < 2048 then ((tvals (s.core source).wq).filter (fun e => homeSlice e.pa = home)).map (fun e => e.entered)
  else if source < 4096 then
    (((tvals s.waves).filter (fun w => w.core = source - 2048)).flatMap (fun w => tvals w.loads)).flatMap (fun p =>
      if p.lanes.any (fun x => x.got.isNone && homeSlice x.pa = home) then [p.issuedAt] else [])
  else []) ++ (s.fabric.lost.filter (fun p => s.carries source home p.1)).map Prod.snd

/-- The queued writes of a core to a home end in HOME_OFFLINE. -/
def State.loseWrites (s : State) (core home : Nat) : State :=
  ((s.core core).wq.filter (fun p => homeSlice p.2.pa = home)).foldl (fun (u : State) p =>
    (u.dequeue core p.1).loseStore p.2) s

/-- The lanes of a load that wait for a home hold undefined values. -/
def PLoad.lose (clk home : Nat) (p : PLoad) : PLoad :=
  { p with lanes := p.lanes.map (fun x =>
      if x.got.isNone && homeSlice x.pa = home then { x with got := some (Config.undefinedData clk x.lane).toNat, cause := 0x16 } else x) }

/-- The loads of a core from a home end in HOME_OFFLINE. -/
def State.loseLoads (s : State) (core home : Nat) : State :=
  (s.waves.filter (fun p => p.2.core = core)).foldl (fun (u : State) wp =>
    wp.2.loads.foldl (fun (v : State) lp =>
      let p := lp.2.lose v.clk home
      let v1 := v.modWave wp.1 (fun w => { w with loads := tset w.loads lp.1 p })
      if p.complete then v1.deliver wp.1 lp.1 p else v1) u) s

/-- The die that holds a source. -/
def sourceDie (source : Nat) : Nat := if source < 4096 then dieOf (source % 2048) else source % 256 / 16

/-- What a source's requests to a home lost is on its way again. -/
def State.sendAgain (s : State) (source home : Nat) : State :=
  s.modFabric (fun f => { f with lost := f.lost.filter (fun p => !s.carries source home p.1) })

/-- The rounds of retransmission of a source's requests to a home since the oldest that is not answered, the latest first. -/
def State.roundsOf (s : State) (source home oldest : Nat) : List Nat :=
  (tgetD s.fabric.resend (source * 256 + home) {}).rounds.filter (fun r => oldest ≤ r)

/-- The clk at which the next round of a source to a home falls, if it has a request that is not answered. -/
def State.resendAt (s : State) (source home : Nat) : Option Nat :=
  match s.unanswered source home with
  | [] => none
  | t :: ts => some ((s.roundsOf source home (ts.foldl min t)).headD (ts.foldl min t) + 1024)

/-- RETRANSMIT_TIMEOUT: once a source's oldest request to a home, or its last round, is 1,024 clk old, a round of retransmission;
each request is sent again at most 8 times, and the ninth wait of one ends all of them in HOME_OFFLINE. -/
def execRetransmitTimeout (source home : Nat) (s : State) : Host.Outcome State Fault Refusal :=
  match s.unanswered source home with
  | [] => .next s
  | t :: ts =>
    let oldest := ts.foldl min t
    let rounds := s.roundsOf source home oldest
    let wait := rounds.headD oldest
    if s.clk < wait + 1024 then .next s
    else if rounds.length < 8 then
      let s1 := (s.sendAgain source home).modFabric (fun f =>
        { f with resend := tset f.resend (source * 256 + home) ⟨s.clk :: rounds⟩ })
      .next (s1.logDry (sourceDie source) 0x07 0 home (source + 2 ^ 16 * (rounds.length + 1)) 0)
    else
      let s1 := (s.sendAgain source home).modFabric (fun f => { f with resend := tdel f.resend (source * 256 + home) })
      let s2 := if source < 2048 then s1.loseWrites source home else if source < 4096 then s1.loseLoads (source - 2048) home else s1
      .next (s2.logDry (sourceDie source) 0x08 0 home source 0)

/-! The replay filter (R397). -/

/-- The address of a request. -/
def requestAddr : FabRequest → Nat
  | .read a _ => a
  | .write a _ => a
  | .add a _ _ => a
/-- The bytes it covers. -/
def requestSize : FabRequest → Nat
  | .read _ n => n
  | .write _ bs => bs.length
  | .add _ n _ => n

/-- A request lies within one line of DRAM homed at a slice that answers. -/
def State.requestDue (s : State) (home : Nat) (r : FabRequest) : Bool :=
  isDram (requestAddr r) && homeSlice (requestAddr r) = home && 0 < requestSize r && requestAddr r % 64 + requestSize r ≤ 64 && !s.homeLost (requestAddr r)

/-- A write of a core's queue leaves it and is performed, at once visible in the package where its stack does not own it. -/
def State.performQueued (s : State) (core id : Nat) (e : WqEntry) : State :=
  let ks := s.unitsAt e.pa e.bytes.length
  if ks.all (fun k => s.ownerReady k && s.ownerStack k = stackOf core) then (s.dequeue core id).perform core e.pa e.bytes id e.epoch
  else (s.dequeue core id).publish e.pa e.bytes

/-- A write of a core's queue is performed after those that the core sent before it to its line (R314); another source's is
published. (DEDUCED, log 99.) -/
def State.performWrite (s : State) (source pa : Nat) (bs : List Byte) : State :=
  match (if source < 2048 then (s.core source).wq.find? (fun p => p.2.pa = pa && p.2.bytes == bs) else none) with
  | some (id, _) =>
    ((s.core source).wq.filter (fun p => p.1 ≤ id && lineOf p.2.pa = lineOf pa)).foldl (fun u p => u.performQueued source p.1 p.2) s
  | none => s.publish pa bs

/-- A request is performed at its home: the state after, and the response. An addition to a poisoned granule writes nothing
(R405). -/
def State.performRequest (s : State) (source : Nat) (r : FabRequest) : State × List Byte :=
  if s.homeLost (requestAddr r) then (s, [])
  else match r with
  | .read a n => (s, memBytes s.mem a n)
  | .write a bs => (s.performWrite source a bs, [])
  | .add a n x =>
    let old := memNat s.mem a n
    (if s.poisonedAt a then s else s.publish a (leBytes n ((old + x) % 2 ^ (8 * n))), leBytes n old)

/-- The filter of a source at a home. -/
def State.filter (s : State) (source home : Nat) : ReplayFilter := tgetD s.fabric.filters (source * 256 + home) {}
/-- Change a filter. -/
def State.setFilter (s : State) (source home : Nat) (x : ReplayFilter) : State :=
  s.modFabric (fun f => { f with filters := tset f.filters (source * 256 + home) x })

/-- The request with the expected number is performed and answered. -/
def State.performExpected (s : State) (source home : Nat) (r : FabRequest) : State :=
  let (s1, bs) := s.performRequest source r
  let x := s1.filter source home
  (s1.setFilter source home { x with
    expect := (x.expect + 1) % 2 ^ 16, buffer := tdel x.buffer x.expect,
    responses := ((x.expect, bs) :: x.responses).take 64 }).emit (.response source home x.expect bs)

/-- Buffered requests are performed while the next expected one is present. -/
def State.performBuffered (s : State) (source home : Nat) : Nat → State
  | 0 => s
  | n + 1 =>
    match tget? (s.filter source home).buffer (s.filter source home).expect with
    | some r => (s.performExpected source home r).performBuffered source home n
    | none => s

/-- REPLAY_FILTER_ARRIVAL: the expected request is performed with those that wait behind it, a later one is held, and a
duplicate is answered again. -/
def execReplayFilterArrival (source home : Nat) (seq : BitVec 16) (request : FabRequest) (s : State) :
    Host.Outcome State Fault Refusal :=
  let x := s.filter source home
  let ahead := (seq.toNat + 2 ^ 16 - x.expect) % 2 ^ 16
  if !s.requestDue home request then .next s
  else if ahead = 0 then .next ((s.performExpected source home request).performBuffered source home 64)
  else if ahead < 64 then
    .next (if (tget? x.buffer seq.toNat).isSome then s else s.setFilter source home { x with buffer := tset x.buffer seq.toNat request })
  else if 2 ^ 16 - 64 ≤ ahead then
    (match x.responses.find? (fun p => p.1 = seq.toNat) with
    | some p => .next (s.emit (.response source home seq.toNat p.2))
    | none => .next s)
  else .next s

end Sys2Proof.Machine
end

