-- ==== Sys2Proof/Machine/Trans.lean ====
section
/-! DEFINITION. The seven approximated functions of R142 and R143: the exact value of the function at the widened
input, computed to far more bits than f32 holds, then rounded once to f32 under RNE. -/
namespace Sys2Proof.Machine

/-- pi, scaled by 2^704. -/
def piFix : Nat := 0x3243f6a8885a308d313198a2e03707344a4093822299f31d0082efa98ec4e6c89452821e638d01377be5466cf34e90c6cc0ac29b7c97c50dd3f84d5b5b54709179216d5d98979fb1bd1310ba698dfb5ac2ffd72dbd01adfb7
/-- The natural logarithm of 2, scaled by 2^576. -/
def ln2Fix : Nat := 0xb17217f7d1cf79abc9e3b39803f2f6af40f343267298b62d8a0d175b8baafa2be7b876206debac98559552fb4afa1b10ed2eae35c138214427573b291169b8253e96ca16224ae8c5

/-- The fraction bits of the fixed-point work below. -/
def fixP : Nat := 512
/-- One, in that fixed point. -/
def fixOne : Int := 2 ^ fixP

/-- The truncated product of two fixed-point numbers. -/
def fixMul (a b : Int) : Int := a * b / fixOne

/-- A dyadic m x 2^e in fixed point, truncated. -/
def toFix (neg : Bool) (m : Nat) (e : Int) : Int :=
  let s : Int := e + fixP
  let q : Nat := if s ≥ 0 then m * 2 ^ s.toNat else m / 2 ^ (-s).toNat
  if neg then -(q : Int) else q

/-- A nonzero fixed-point result as a value that stands a little off a representable one. -/
def ofFix (v : Int) : FVal × Bool := (.fin (v < 0) v.natAbs (-(fixP : Int)), true)

/-- The exponential series from the term `t` = x^k / k!, summed over `fuel` terms. -/
def expTerms (x : Int) : Nat → Nat → Int → Int → Int
  | 0, _, _, acc => acc
  | fuel + 1, k, t, acc =>
    if t = 0 then acc else expTerms x fuel (k + 1) (fixMul t x / (k + 1)) (acc + t)

/-- e^x for a fixed-point x of magnitude below 1. -/
def expFix (x : Int) : Int := expTerms x 120 0 fixOne 0

/-- 2^w for a fixed-point w, in fixed point. -/
def exp2Fix (w : Int) : Int :=
  let n := w / fixOne
  let f := w % fixOne
  let r := expFix (fixMul f (ln2Fix / 2 ^ 64))
  if n ≥ 0 then r * 2 ^ n.toNat else r / 2 ^ (-n).toNat

/-- EXP2 (R142, R143). -/
def fExp2 (x : FVal) : FVal × Bool :=
  match x with
  | .nan => (.nan, false)
  | .inf n => (if n then .fin false 0 0 else .inf false, false)
  | .fin n m e =>
    if m = 0 then (.fin false 1 0, false)
    else if (Nat.log2 m : Int) + e ≥ 8 then (if n then .fin false 1 (-2000) else .fin false 1 2000, false)
    else
      let w := toFix n m e
      let fl := w / fixOne
      if w % fixOne = 0 ∧ e > -fixP then (.fin false 1 fl, false)
      else (.fin false (expFix (fixMul (w % fixOne) (ln2Fix / 2 ^ 64))).toNat (fl - fixP), true)

/-- The series of atanh from the power `p` = z^k over odd k. -/
def atanhTerms (z2 : Int) : Nat → Nat → Int → Int → Int
  | 0, _, _, acc => acc
  | fuel + 1, k, p, acc =>
    if p = 0 then acc else atanhTerms z2 fuel (k + 2) (fixMul p z2) (acc + p / k)

/-- The natural logarithm of a fixed-point t in [1, 2). -/
def lnFix (t : Int) : Int :=
  let z := (t - fixOne) * fixOne / (t + fixOne)
  2 * atanhTerms (fixMul z z) 180 1 z 0

/-- LOG2 (R142, R143). -/
def fLog2 (x : FVal) : FVal × Bool :=
  match x with
  | .nan => (.nan, false)
  | .inf n => (if n then .nan else .inf false, false)
  | .fin n m e =>
    if m = 0 then (.inf true, false)
    else if n then (.nan, false)
    else
      let lg := Nat.log2 m
      let k : Int := lg + e
      if m = 2 ^ lg then (fOfInt k, false)
      else
        let t := toFix false m (-(lg : Int))
        ofFix (k * fixOne + lnFix t * fixOne / (ln2Fix / 2 ^ 64))

/-- The series of sine or cosine from the term `t` = x^k / k!, signs alternating. -/
def trigTerms (x2 : Int) : Nat → Nat → Int → Int → Int
  | 0, _, _, acc => acc
  | fuel + 1, k, t, acc =>
    if t = 0 then acc else trigTerms x2 fuel (k + 2) (-(fixMul t x2 / ((k + 1) * (k + 2)))) (acc + t)

/-- sin of a fixed-point x of magnitude below 2. -/
def sinFix (x : Int) : Int := trigTerms (fixMul x x) 80 1 x 0
/-- cos of a fixed-point x of magnitude below 2. -/
def cosFix (x : Int) : Int := trigTerms (fixMul x x) 80 0 fixOne 0

/-- sin (quarter 0) or cos (quarter 1) of a finite nonzero radian value: reduced by whole quarter turns first. -/
def fTrig (quarter : Nat) (n : Bool) (m : Nat) (e : Int) : FVal × Bool :=
  let s : Int := e + 704
  let x : Int := (if n then -1 else 1) * ((if s ≥ 0 then m * 2 ^ s.toNat else m / 2 ^ (-s).toNat : Nat) : Int)
  let half : Int := piFix / 2
  let q := (2 * x + half) / (2 * half)
  let r := (x - q * half) / 2 ^ 192
  let v := match (q + quarter) % 4 with
    | 0 => sinFix r
    | 1 => cosFix r
    | 2 => -sinFix r
    | _ => -cosFix r
  ofFix v

/-- SIN (R142, R143). -/
def fSin (x : FVal) : FVal × Bool :=
  match x with
  | .nan => (.nan, false)
  | .inf _ => (.nan, false)
  | .fin n m e => if m = 0 then (.fin n 0 e, false) else fTrig 0 n m e

/-- COS (R142, R143). -/
def fCos (x : FVal) : FVal × Bool :=
  match x with
  | .nan => (.nan, false)
  | .inf _ => (.nan, false)
  | .fin n m e => if m = 0 then (.fin false 1 0, false) else fTrig 1 n m e

/-- TANH (R142, R143): (e^2x - 1) / (e^2x + 1), and a little under 1 from |x| = 16 on. -/
def fTanh (x : FVal) : FVal × Bool :=
  match x with
  | .nan => (.nan, false)
  | .inf n => (.fin n 1 0, false)
  | .fin n m e =>
    if m = 0 then (.fin n 0 e, false)
    else if (Nat.log2 m : Int) + e ≥ 4 then (.fin n (2 ^ 64 - 1) (-64), true)
    else
      let w := toFix false m (e + 1) * fixOne / (ln2Fix / 2 ^ 64)
      let y := exp2Fix w
      (.fin n ((y - fixOne) * fixOne / (y + fixOne)).toNat (-(fixP : Int)), true)

/-- RCP (R142, R143). -/
def fRcp (x : FVal) : FVal × Bool := fDiv (.fin false 1 0) x

/-- RSQ, the reciprocal square root (R142, R143). -/
def fRsq (x : FVal) : FVal × Bool :=
  match x with
  | .nan => (.nan, false)
  | .inf n => (if n then .nan else .fin false 0 0, false)
  | .fin n m e =>
    if m = 0 then (.inf n, false)
    else if n then (.nan, false)
    else
      let odd := e % 2 == 1
      let m' := if odd then 2 * m else m
      let e' := if odd then e - 1 else e
      let r := isqrt (2 ^ 240 / m')
      (.fin false r (-(e' / 2) - 120), r * r * m' != 2 ^ 240)

/-- The f32 approximation rounded once under RNE (R142), as a value. -/
def approxF32 (r : FVal × Bool) : FVal := fDecode fmtF32 (fEncode fmtF32 .rne false r.1 r.2)

end Sys2Proof.Machine
end

