-- ==== Sys2Proof/Machine/Float.lean ====
section
/-! DEFINITION. The floating instructions 0x60 to 0x6F (R141 to R143). -/
namespace Sys2Proof.Machine

/-- A floating element-wise instruction of one operand. -/
def floatUnary (i : Instr) (d : VDst) (a : VSrc) (g : RMode → FVal → FVal × Bool) (s : State) :
    Host.Outcome State Fault Refusal :=
  vecUnary i d a false (fun _ x => x) g s

/-- A function of R142 that is first rounded once to f32 under RNE. -/
def approx (g : FVal → FVal × Bool) (_ : RMode) (x : FVal) : FVal × Bool := exactly (approxF32 (g x))

def execSqrtv (d : VDst) (a : VSrc) (s : State) := floatUnary (.sqrtv d a) d a (fun _ x => fSqrt x) s
def execRcpv (d : VDst) (a : VSrc) (s : State) := floatUnary (.rcpv d a) d a (approx fRcp) s
def execRsqv (d : VDst) (a : VSrc) (s : State) := floatUnary (.rsqv d a) d a (approx fRsq) s
def execExp2v (d : VDst) (a : VSrc) (s : State) := floatUnary (.exp2v d a) d a (approx fExp2) s
def execLog2v (d : VDst) (a : VSrc) (s : State) := floatUnary (.log2v d a) d a (approx fLog2) s
def execSinv (d : VDst) (a : VSrc) (s : State) := floatUnary (.sinv d a) d a (approx fSin) s
def execCosv (d : VDst) (a : VSrc) (s : State) := floatUnary (.cosv d a) d a (approx fCos) s
def execTanhv (d : VDst) (a : VSrc) (s : State) := floatUnary (.tanhv d a) d a (approx fTanh) s
def execFloorv (d : VDst) (a : VSrc) (s : State) :=
  floatUnary (.floorv d a) d a (fun _ x => exactly (fIntegral .rdn x)) s
def execCeilv (d : VDst) (a : VSrc) (s : State) :=
  floatUnary (.ceilv d a) d a (fun _ x => exactly (fIntegral .rup x)) s
def execTruncv (d : VDst) (a : VSrc) (s : State) :=
  floatUnary (.truncv d a) d a (fun _ x => exactly (fIntegral .rtz x)) s
def execRintv (d : VDst) (a : VSrc) (s : State) :=
  floatUnary (.rintv d a) d a (fun m x => exactly (fIntegral m x)) s
/-- FRACV: x - FLOORV(x), rounded once; an infinity gives NaN. -/
def execFracv (d : VDst) (a : VSrc) (s : State) :=
  floatUnary (.fracv d a) d a (fun m x => exactly (fAdd m x (fNeg (fIntegral .rdn x)))) s
/-- COPYSV: |x| with the sign bit of y, whatever y's value; a NaN x gives the canonical NaN. -/
def execCopysv (d : VDst) (a b : VSrc) (s : State) :=
  issueOp (.copysv d a b) s (fun s =>
    let t := s.etype
    s.putElems d t (fun l e => match etFmt t with
      | some f =>
        let x := elemOf t (s.readV t a l) e
        let y := elemOf t (s.readV t b l) e
        if (fDecode f x).isNan then f.nanBits else x % f.signBit + y / f.signBit * f.signBit
      | none => 0))
/-- CLASSV: the class mask as an unsigned integer of the element width. -/
def execClassv (d : VDst) (a : VSrc) (s : State) :=
  issueOp (.classv d a) s (fun s =>
    let t := s.etype
    s.putElems d t (fun l e => match etFmt t with
      | some f => fClass f (elemOf t (s.readV t a l) e)
      | none => 0))
/-- x x 2^y. -/
def scaleBy (x : FVal) (y : Int) : FVal :=
  match x with
  | .fin n m e => if m = 0 then .fin n 0 0 else .fin n m (e + y)
  | v => v
/-- SCALBV: y is an element of int32 under f32, of int16 under bf16 and f16. -/
def execScalbv (d : VDst) (a b : VSrc) (s : State) :=
  issueOp (.scalbv d a b) s (fun s =>
    let t := s.etype
    let ty := operandTypeB 0x6F t
    s.putElems d t (fun l e => match etFmt t with
      | some f => roundTo f s.rmode (exactly (scaleBy (s.vFloat t f a l e) (s.vInt ty b l e)))
      | none => 0))

end Sys2Proof.Machine
end

