-- ==== Sys2Proof/Machine/HostPort.lean ====
section
/-! DEFINITION. The Ethernet port and remote access (R398 to R402): the events RDMA_WRITE, RDMA_READ, ATOMIC_COMPARE_SWAP,
ATOMIC_FETCH_ADD, ROCE_UNSUPPORTED_REQUEST, ROCE_ACKNOWLEDGEMENT, NEIGHBOUR_RESOLUTION, ETHERNET_FRAME_DROP and
PRIORITY_FLOW_CONTROL. -/
namespace Sys2Proof.Machine

/-! The memory-region table (R399). -/

/-- A bit field of a memory-region entry. -/
def regionField (e : BitVec 192) (lo n : Nat) : Nat := e.toNat / 2 ^ lo % 2 ^ n

/-- The entry that a remote key names: valid, and of its key byte. -/
def State.region (s : State) (rkey : Nat) : Option (BitVec 192) :=
  match tget? s.nd.regions (rkey / 256) with
  | some e => if rkey / 256 < 4096 && regionField e 0 1 = 1 && regionField e 16 8 = rkey % 256 then some e else none
  | none => none

/-- The region's context and its first address. -/
def regionCtx (e : BitVec 192) : Nat := regionField e 4 6
/-- See `regionCtx`. (DEDUCED, log 90.) -/
def regionBase (e : BitVec 192) : Dword := (BitVec.ofNat 52 (regionField e 64 52)).signExtend 64

/-- The entry permits an access of `n` bytes at an address: its bit, its bounds. -/
def regionPermits (e : BitVec 192) (bit : Nat) (va : Dword) (n : Nat) : Bool :=
  regionField e bit 1 = 1 && (va - regionBase e).toNat + n ≤ regionField e 128 40

/-- The parts of a range within its lines: address, offset in the range and length. -/
def lineParts (va : Dword) (n : Nat) : List (Dword × Nat × Nat) :=
  let o := va.toNat % 64
  (List.range ((o + n + 63) / 64)).filterMap (fun i =>
    let a := i * 64 - o
    let b := min n (i * 64 + 64 - o)
    if a < b then some (va + BitVec.ofNat 64 a, a, b - a) else none)

/-! The check of a request packet (R400). -/

/-- What a check gives: the parts with their physical addresses, or the kind of the NAK: 0 remote access error, 1 invalid
request, 2 remote operational error. -/
abbrev Parts := List (Nat × Nat × Nat)

/-- Every part of a range translates for a context; otherwise remote access error. -/
def State.translateParts (s : State) (ctx : Nat) (a : Access) : List (Dword × Nat × Nat) → Except Nat Parts
  | [] => .ok []
  | p :: ps =>
    match s.xlateWalk ctx p.1 a, s.translateParts ctx a ps with
    | .ok pa, .ok r => .ok ((pa, p.2) :: r)
    | _, _ => .error 0

/-- A granule of the range is poisoned. -/
def State.partPoisoned (s : State) (p : Nat × Nat × Nat) : Bool := s.poison.any (fun g => decide (g < p.1 + p.2.2 && p.1 < g + 8))

/-- The whole check: key, bounds and permission, translation, alignment, poison, home. (DEDUCED, log 91.) -/
def State.checkRemote (s : State) (rkey bit : Nat) (va : Dword) (n : Nat) (a : Access) : Except Nat Parts :=
  match s.region rkey with
  | none => .error 0
  | some e =>
    if !regionPermits e bit va n || (tget? s.ctxs (regionCtx e)).isNone then .error 0
    else match s.translateParts (regionCtx e) a (lineParts va n) with
      | .error k => .error k
      | .ok ps =>
        if bit = 3 && va.toNat % 8 != 0 then .error 1
        else if bit != 2 && ps.any s.partPoisoned then .error 2
        else if ps.any (fun p => s.homeLost p.1) then .error 2
        else .ok ps

/-- A line of the parts cannot be served yet: a conversion or a warm reset holds it, or a failed element lies between the N-die and its
owner (R395). (DEDUCED, log 92.) -/
def State.partsHeld (s : State) (ps : Parts) : Bool :=
  ps.any (fun p => s.converting (lineOf p.1) || s.homeHeld p.1 || !s.fabric.clear 512 (256 + s.ownSlice (s.unitAt p.1)))

/-- The queue pair takes requests: one of 4,096, not in error, with the port up. -/
def State.qpUp (s : State) (qp : Nat) : Bool := s.portUp && decide (qp < 4096) && !s.nd.qpError.contains qp

/-- A request is checked and answered: a NAK, or what it does. -/
def State.remote (s : State) (qp rkey bit : Nat) (va : Dword) (n : Nat) (a : Access) (f : State → Parts → State) :
    Host.Outcome State Fault Refusal :=
  if !s.qpUp qp then .next s
  else match s.checkRemote rkey bit va n a with
    | .error k => .next (s.emit (.roceNak qp k))
    | .ok ps => if s.partsHeld ps then .next s else .next (f s ps)

/-- What a line holds becomes visible in the package before a remote agent reads it. (DEDUCED, log 93.) -/
def State.showLine (s : State) (line : Nat) : State :=
  if (s.lineUnits line).any (fun k => (s.homeEntry k).unpub) || !(s.pending line).isEmpty || s.otherBytes 2048 line (memBytes s.mem line 64) then
    s.publishLine line
  else s

/-- RDMA_WRITE, in one frame: a relaxed store at package scope. -/
def execRdmaWrite (qp rkey : Nat) (va : Dword) (bytes : List Byte) (s : State) : Host.Outcome State Fault Refusal :=
  if frameLimit < bytes.length then .next s
  else s.remote qp rkey 2 va bytes.length .write (fun s ps =>
    (ps.foldl (fun (u : State) p => u.publish p.1 ((bytes.drop p.2.1).take p.2.2)) s).emit (.roceAck qp))

/-- RDMA_READ: the writes visible in the package. -/
def execRdmaRead (qp rkey : Nat) (va : Dword) (length : Nat) (s : State) :=
  s.remote qp rkey 1 va length .read (fun s ps =>
    (ps.foldl (fun (u : State) p => u.showLine (lineOf p.1)) s).emit
      (.roceData qp (ps.flatMap (fun p => memBytes s.mem p.1 p.2.2))))

/-- A remote read-modify-write of 8 bytes: the new value if there is one, and the old value in the response (R271, R280). -/
def State.remoteAtomic (s : State) (qp rkey : Nat) (va : Dword) (f : Nat → Option Nat) : Host.Outcome State Fault Refusal :=
  s.remote qp rkey 3 va 8 .rmw (fun s ps =>
    match ps with
    | p :: _ =>
      let old := memNat s.mem p.1 8
      let s1 := match f old with
        | some v => s.publish p.1 (leBytes 8 v)
        | none => s.showLine (lineOf p.1)
      s1.emit (.roceOld qp old)
    | [] => s)

/-- ATOMIC_COMPARE_SWAP. -/
def execAtomicCompareSwap (qp rkey : Nat) (va compare swap : Dword) (s : State) :=
  s.remoteAtomic qp rkey va (fun old => if old = compare.toNat then some swap.toNat else none)

/-- ATOMIC_FETCH_ADD. -/
def execAtomicFetchAdd (qp rkey : Nat) (va add : Dword) (s : State) :=
  s.remoteAtomic qp rkey va (fun old => some ((old + add.toNat) % 2 ^ 64))

/-- ROCE_UNSUPPORTED_REQUEST: NAK, invalid request (R399). -/
def execRoceUnsupportedRequest (qp : Nat) (s : State) : Host.Outcome State Fault Refusal :=
  if s.portUp then .next (s.emit (.roceNak qp 1)) else .next s

/-- ROCE_ACKNOWLEDGEMENT of a completion notice: a NAK puts its queue pair in an error state (R401). (DEDUCED, log 94; DESIGN CHOICE, log 161.) -/
def execRoceAcknowledgement (qp : Nat) (ok : Bool) (s : State) : Host.Outcome State Fault Refusal :=
  if ok || !s.portUp || s.nd.qpError.contains qp then .next s
  else .next { s with nd := { s.nd with qpError := s.nd.qpError ++ [qp] } }

/-- NEIGHBOUR_RESOLUTION: the N-die answers (R398). -/
def execNeighbourResolution (query : List Byte) (s : State) : Host.Outcome State Fault Refusal :=
  if s.portUp then .next (s.emit (.neighbour query)) else .next s

/-- ETHERNET_FRAME_DROP: a frame of another type, or one that fails its check, is dropped (R398, R403). -/
def execEthernetFrameDrop (_frame : List Byte) (s : State) : Host.Outcome State Fault Refusal := .next s

/-- PRIORITY_FLOW_CONTROL: a priority is paused, or goes on with the frames that have waited for it (R398). -/
def execPriorityFlowControl (priority : Nat) (pause : Bool) (s : State) : Host.Outcome State Fault Refusal :=
  if !s.portUp || 8 ≤ priority then .next s
  else
    let ps := s.nd.paused.filter (fun p => p != priority)
    if pause then .next { s with nd := { s.nd with paused := ps ++ [priority] } }
    else
      let nd : NDie := { s.nd with paused := ps }
      .next { s with nd := { nd with heldOut := s.nd.heldOut.filter nd.holds }, out := s.out ++ s.nd.heldOut.filter (fun o => !nd.holds o) }

end Sys2Proof.Machine
end

