-- ==== Sys2Proof/Machine/Power.lean ====
section
/-! DEFINITION. Boot (R422, R423, R436), power and heat (R429, R430): the events POWER_ON, POWER_REMOVAL, PACKAGE_RESET,
POWER_SAMPLE, THERMAL_LIMIT and THERMAL_RECOVER. -/
namespace Sys2Proof.Machine

/-! Boot. -/

/-- What fuses keep of a cluster: its retired cores and the spare that stands for one (R342). -/
def Cluster.fused (c : Cluster) : Cluster :=
  { retired := c.retired, spareFor := c.spareFor, withdrawn := decide (2 ≤ c.retired.length) }

/-- The package without power: only the fuses keep anything. DRAM and every register are lost, and the drydown records. -/
def State.unpowered (s : State) : State :=
  { clk := s.clk, clusters := tmap s.clusters Cluster.fused, agenda := s.agenda, out := s.out,
    nd := { bootStep := 0, svn := s.nd.svn, vendorKey := s.nd.vendorKey, identityKey := s.nd.identityKey, mgmtKey := s.nd.mgmtKey } }

/-- An image passes verification: its signature, under the fused key, and its security version (R423). -/
def State.imageOk (s : State) (image : Nat) : Bool :=
  Config.imageSigned s.clk image s.nd.vendorKey && decide (s.nd.svn ≤ Config.imageSvn s.clk image)

/-- A boot step succeeds: 2 verifies the image of the N-die, 3 those of the SMCs and the DMCs (R422). -/
def State.stepOk (s : State) (k : Nat) : Bool :=
  if k = 2 then s.imageOk 0 else if k = 3 then s.imageOk 1 && s.imageOk 2 else !Config.stepFails s.clk k

/-- The boot step that fails, if one does. -/
def State.bootFailure (s : State) : Option Nat := [1, 2, 3, 4, 5].find? (fun k => !s.stepOk k)

/-- The boot steps run: to the end, where TIME starts at 0, or to the step that fails (R422, R423). -/
def State.boot (s : State) : State :=
  match s.bootFailure with
  | some k => { s with nd := { s.nd with bootStep := k, bootFailed := true, bootClk := s.clk } }
  | none => { s with nd := { s.nd with bootStep := 5, bootFailed := false, bootClk := s.clk } }

/-- POWER_ON: power is applied to a package that had none. (DEDUCED, log 113.) -/
def execPowerOn (s : State) : Host.Outcome State Fault Refusal := if s.nd.bootStep = 0 then .next s.boot else .next s

/-- PACKAGE_RESET: everything but the drydown records starts anew, lost dies are re-admitted and boot runs again (R263,
R413, R418, R436). -/
def execPackageReset (s : State) : Host.Outcome State Fault Refusal :=
  if s.nd.bootStep = 0 then .next s else .next ({ s.unpowered with dry := s.dry } : State).boot

/-- POWER_REMOVAL. -/
def execPowerRemoval (s : State) : Host.Outcome State Fault Refusal := .next s.unpowered

/-! Power (R429). -/

/-- A cluster's clock follows the limits of power: its die is not lost, and its context, if it has one, is not STEADY. -/
def State.shared (s : State) (g : Nat) : Bool :=
  !s.dead.contains (g / 16) && (match (s.cluster g).owner with
    | some c => !(s.ctx c).steady
    | none => true)

/-- The limit of a unit in milliwatts. -/
def Power.limit (p : Power) (u : Nat) : Nat := if u = 0 then p.cap * 1000 else if u < 9 then 600000 else 230000

/-- The sum of a unit's readings in the last 100 us. (DEDUCED, log 111.) -/
def Power.total (p : Power) (u : Nat) : Nat := (p.samples.map (fun r => ((r.filter (fun x => x.1 = u)).map Prod.snd).foldl (· + ·) 0)).foldl (· + ·) 0

/-- The units measured. -/
def powerUnits : List Nat := List.range 25

/-- A cluster belongs to a unit. -/
def inUnit (u g : Nat) : Bool := u = 0 || (u < 9 && g / 32 = u - 1) || (9 ≤ u && g / 16 = u - 9)

/-- The highest step that heat allows a cluster. -/
def State.heatStep (s : State) (g : Nat) : Nat := if s.hot.contains (g / 16) then 8 else 16

/-- POWER_SAMPLE: where a mean of 100 us exceeds a limit the clusters concerned lose a step; while every mean lies below
95 % of its limit they gain one, at most once in 100 us. -/
def execPowerSample (readings : PowerReadings) (s : State) : Host.Outcome State Fault Refusal :=
  let p : Power := { s.power with samples := (readings.milliwatts :: s.power.samples).take 100 }
  let s1 : State := { s with power := p }
  let high := powerUnits.filter (fun u => p.limit u * 100 < p.total u)
  let calm := powerUnits.all (fun u => p.total u < p.limit u * 95)
  let gs := (List.range 256).filter s1.shared
  if !high.isEmpty then
    .next ((gs.filter (fun g => (s1.cluster g).owner.isSome && high.any (fun u => inUnit u g))).foldl
      (fun (u : State) g => u.setStep g (max 4 ((u.cluster g).step - 1))) s1)
  else if calm && (match p.raised with | some t => decide (t + 150000 ≤ s.clk) | none => true) && gs.any (fun g => (s1.cluster g).step < s1.heatStep g) then
    .next (gs.foldl (fun (u : State) g =>
      if (u.cluster g).step < u.heatStep g then u.setStep g ((u.cluster g).step + 1) else u)
      { s1 with power := { p with raised := some s.clk } })
  else .next s1

/-! Heat (R430). -/

/-- THERMAL_LIMIT: at 105 degrees the die's clusters fall to step 8; at 115 its DMC stops it, and it is lost. -/
def execThermalLimit (die celsius : Nat) (s : State) : Host.Outcome State Fault Refusal :=
  if 16 ≤ die || s.dead.contains die || celsius < 105 then .next s
  else if 115 ≤ celsius then .next (s.loseDie die)
  else
    let s1 : State := { s with hot := if s.hot.contains die then s.hot else s.hot ++ [die] }
    .next ((dieClusters die).foldl (fun (u : State) g => u.setStep g (min (u.cluster g).step 8)) s1)

/-- THERMAL_RECOVER: below 95 degrees heat holds the clusters no longer: those of a STEADY context go to step 12, and the power manager
raises the others step by step (R429). (DEDUCED, log 112.) -/
def execThermalRecover (die celsius : Nat) (s : State) : Host.Outcome State Fault Refusal :=
  if !s.hot.contains die || 95 ≤ celsius then .next s
  else
    let s1 : State := { s with hot := s.hot.erase die }
    .next ((dieClusters die).foldl (fun (u : State) g =>
      if !u.shared g && !u.dead.contains die then u.setStep g 12 else u) s1)

end Sys2Proof.Machine
end

