-- ==== Sys2Proof/Machine/Management.lean ====
section
/-! DEFINITION. The management path (R424 to R428): each command as an operation on the state, the events MGMT_* that perform
one command, and MANAGEMENT_FRAME, which performs the records of a frame in order. -/
namespace Sys2Proof.Machine

/-- What a command does: the state after, the reply datagrams, and what must end before the command is complete. -/
structure Done where
  state : State
  replies : List Out := []
  waits : Option JobWait := none

/-! Commands. None stands for status 0x10: a field outside its limits, or a target whose state refuses the command. -/

/-- The context exists. -/
def State.hasCtx (s : State) (ctx : Nat) : Bool := (tget? s.ctxs ctx).isSome

/-- A command on an existing context that changes its fields alone. -/
def State.onCtx (s : State) (ctx : Nat) (f : Context → Context) : Option Done :=
  if s.hasCtx ctx then some ⟨s.modCtx ctx f, [], none⟩ else none

/-- 0x01: the context gets its clusters, its page-table root, its save area and its keys. (DEDUCED, log 82.) -/
def State.createContext (s : State) (ctx : Nat) (clusters : List Nat) (ptroot saveBase saveSize : Nat) (lkey ckey : BitVec 256) :
    Option Done :=
  if 64 ≤ ctx || s.hasCtx ctx || clusters.any (fun g => decide (256 ≤ g) || (s.cluster g).owner.isSome || s.unusable g) ||
      ptroot % 65536 != 0 || !isDram ptroot || saveBase % 4096 != 0 || !isDram saveBase || !isDram (saveBase + saveSize - 1) ||
      homeDie saveBase != homeDie (saveBase + saveSize - 1) || saveSize < 65536 + 39124992 * clusters.dedup.length then none
  else
    let gs := clusters.dedup.insertionSort (· ≤ ·)
    let c : Context := {
      clusters := gs, ptroot := ptroot, saveBase := saveBase, saveSize := saveSize, launchKey := lkey, codeKey := ckey,
      resumedAt := gs.foldl (fun t g => tset t g (s.clusterClk g)) [] }
    let s1 := gs.foldl (fun (u : State) g => u.modCluster g (fun x => { x with owner := some ctx })) s
    some ⟨({ s1 with ctxs := tset s1.ctxs ctx c } : State).initHeader ctx, [], none⟩

/-- 0x02: the context is pre-empted, and is gone once it is saved. -/
def State.destroyContext (s : State) (ctx : Nat) : Option Done :=
  if !s.hasCtx ctx then none
  else match (s.ctx ctx).phase with
    | .saved => some ⟨s.removeContext ctx, [], none⟩
    | .saving => some ⟨s.modCtx ctx (fun c => { c with doomed := true, heldBy := [], retireHold := false }), [], some (.ctx ctx)⟩
    | .running | .restoring => some ⟨(s.preemptNow ctx).modCtx ctx (fun c => { c with doomed := true }), [], some (.ctx ctx)⟩

/-- 0x03, pre-empt. (DEDUCED, log 79.) -/
def State.preemptContext (s : State) (ctx : Nat) : Option Done :=
  if !s.hasCtx ctx then none
  else match (s.ctx ctx).phase with
    | .saved => none
    | .saving => some ⟨s.modCtx ctx (fun c => { c with heldBy := [], retireHold := false }), [], some (.ctx ctx)⟩
    | .running | .restoring => some ⟨s.preemptNow ctx, [], some (.ctx ctx)⟩

/-- 0x03, resume, on the clusters named or, with none, on those owned before. -/
def State.resumeContext (s : State) (ctx : Nat) (clusters : List Nat) : Option Done :=
  if !s.hasCtx ctx then none else (s.resume ctx (clusters.dedup.insertionSort (· ≤ ·))).map (fun u => ⟨u, [], some (.running ctx)⟩)

/-- 0x04: the keys of a saved context. -/
def State.setKeys (s : State) (ctx : Nat) (lkey ckey : BitVec 256) : Option Done :=
  if (s.ctx ctx).phase != .saved then none else s.onCtx ctx (fun c => { c with launchKey := lkey, codeKey := ckey })

/-- 0x05: the masked features. -/
def State.setMask (s : State) (ctx : Nat) (mask : Byte) : Option Done := s.onCtx ctx (fun c => { c with mask := mask })

/-- 0x06: the quantum of a queue. -/
def State.setQuantum (s : State) (ctx queue quantum : Nat) : Option Done :=
  if 64 ≤ queue || quantum = 0 || 2 ^ 31 ≤ quantum || !s.hasCtx ctx then none
  else some ⟨s.modQueue ctx queue (fun q => { q with quantum := quantum }), [], none⟩

/-- The fields of a memory-region entry: what is written to reserved bits is discarded (R3, R399). (DEDUCED, log 89.) -/
def regionMask : BitVec 192 := BitVec.ofNat 192 (2 ^ 168 - 2 ^ 128 + (2 ^ 116 - 2 ^ 64) + (2 ^ 24 - 2 ^ 16) + (2 ^ 10 - 1))

/-- 0x07: an entry of the memory-region table. -/
def State.setRegion (s : State) (index : Nat) (entry : BitVec 192) : Option Done :=
  if 4096 ≤ index then none
  else some ⟨{ s with nd := { s.nd with regions := tset s.nd.regions index (entry &&& regionMask) } }, [], none⟩

/-- 0x08: a code object is unregistered; a launch of it that is not fully dispatched registers it again, and keeps its image and
mode (R355, R358). (DEDUCED, log 84.) -/
def State.unregister (s : State) (ctx : Nat) (va : Dword) : Option Done :=
  match (s.ctx ctx).objectAt va with
  | none => none
  | some (k, _) =>
    let s1 := s.modCtx ctx (fun c => { c with objs := tdel c.objs k })
    let open_ (l : Launch) : Launch := if l.ctx = ctx && l.obj = some k then { l with obj := none } else l
    some ⟨{ s1 with launches := tmap s1.launches open_ }, [], none⟩

/-- 0x09: the module cap. -/
def State.setCap (s : State) (watts : Nat) : Option Done :=
  if watts < 1000 || 5000 < watts then none else some ⟨{ s with power := { s.power with cap := watts } }, [], none⟩

/-- 0x0A: a warm reset, complete once it has ended. -/
def State.warmReset (s : State) (die : Nat) : Option Done := (s.askReset die).map (fun u => ⟨u, [], some (.reset die)⟩)

/-- A reply datagram for each 8,192 bytes of a body (R427). -/
def replyParts (r : ReplyTo) (body : List Byte) : List Out :=
  let n := (body.length + 8191) / 8192
  (List.range n).map (fun p => .datagram r.source
    (leBytes 4 0x1A4C0003 ++ leBytes 1 1 ++ leBytes 1 r.record ++ leBytes 1 p ++ leBytes 1 n ++ leBytes 8 r.seq ++
      (body.drop (8192 * p)).take 8192))

/-- The 32 bytes of an event (R419). -/
def DryEvent.image (e : DryEvent) : List Byte :=
  leBytes 8 e.time ++ leBytes 1 e.kind ++ leBytes 1 e.store ++ leBytes 2 e.unit ++ leBytes 4 e.detail ++ leBytes 8 e.addr ++ leBytes 8 0

/-- The header of a drydown record (R418). (DESIGN CHOICE, log 110.) -/
def Drydown.header (d : Drydown) (unit : Nat) : List Byte :=
  leBytes 4 0xD7D00001 ++ leBytes 1 unit ++ leBytes 3 0 ++ leBytes 8 d.count ++ leBytes 48 0

/-- The code of a record's die (R418). -/
def dryUnit (u : Nat) : Bool := u < 16 || (0x20 ≤ u && u < 0x28) || u == 0x30

/-- 0x0B: a drydown record's header and events, from a slot upward and wrapping. -/
def State.readDrydown (s : State) (unit first count : Nat) (r : ReplyTo) : Option Done :=
  if !dryUnit unit || 4096 ≤ first || 4096 < count then none
  else
    let d := tgetD s.dry unit {}
    some ⟨s, replyParts r (d.header unit ++ (List.range count).flatMap (fun i => (tgetD d.slots ((first + i) % 4096) {}).image)), none⟩

/-- The first 132 bytes of an attestation report (R427). -/
def State.report (s : State) (nonce : BitVec 256) : List Byte :=
  leBytes 32 nonce.toNat ++ [0, 1, 2].flatMap (fun i => leBytes 32 (Config.imageDigest i).toNat) ++ leBytes 1 s.nd.svn ++
    leBytes 1 (s.nd.bootStep + if s.nd.bootFailed then 128 else 0) ++ leBytes 2 0

/-- 0x0C: the signed report. -/
def State.attest (s : State) (nonce : BitVec 256) (r : ReplyTo) : Option Done :=
  some ⟨s, replyParts r (s.report nonce ++ leBytes 2420 (Config.reportSignature s.nd.identityKey (s.report nonce)).toNat), none⟩

/-- 0x0D: the fused security version rises. -/
def State.raiseSvn (s : State) (svn : Nat) : Option Done :=
  if 255 < svn || svn < s.nd.svn then none else some ⟨{ s with nd := { s.nd with svn := svn } }, [], none⟩

/-- 0x0E: a control register of a context. -/
def State.writeContextReg (s : State) (ctx : Nat) (r : CReg) (v : Dword) : Option Done :=
  if s.hasCtx ctx then some ⟨s.writeCreg ctx r v, [], none⟩ else none

/-- 0x0F: the queue pair of a context's completion notices. -/
def State.bindQp (s : State) (ctx qp : Nat) : Option Done :=
  if 4096 ≤ qp then none else s.onCtx ctx (fun c => { c with noticeQp := some qp })

/-! The events of single commands. -/

/-- A command comes by the management path, which performs one after another; its replies leave at once. (DESIGN CHOICE, log 85.) -/
def State.command (s : State) (d : Option Done) : Host.Outcome State Fault Refusal :=
  if !s.portUp || s.nd.job.isSome then .next s
  else match d with
    | none => .next s
    | some x => .next (x.replies.foldl (fun (u : State) o => u.emit o) x.state)

def execMgmtCreateContext (ctx : Nat) (clusters : List Nat) (ptroot saveBase saveSize : Nat) (launchKey codeKey : BitVec 256) (s : State) :=
  s.command (s.createContext ctx clusters ptroot saveBase saveSize launchKey codeKey)
def execMgmtDestroyContext (ctx : Nat) (s : State) := s.command (s.destroyContext ctx)
def execMgmtPreempt (ctx : Nat) (s : State) := s.command (s.preemptContext ctx)
def execMgmtResume (ctx : Nat) (clusters : List Nat) (s : State) := s.command (s.resumeContext ctx clusters)
def execMgmtSetKeys (ctx : Nat) (launchKey codeKey : BitVec 256) (s : State) := s.command (s.setKeys ctx launchKey codeKey)
def execMgmtFeatureMask (ctx : Nat) (mask : Byte) (s : State) := s.command (s.setMask ctx mask)
def execMgmtQueueQuanta (ctx queue quantum : Nat) (s : State) := s.command (s.setQuantum ctx queue quantum)
def execMgmtMemoryRegion (index : Nat) (entry : BitVec 192) (s : State) := s.command (s.setRegion index entry)
/-- The object is named by its header address. -/
def execMgmtUnregisterCodeObject (ctx object : Nat) (s : State) := s.command (s.unregister ctx (BitVec.ofNat 64 object))
def execMgmtPowerCap (watts : Nat) (s : State) := s.command (s.setCap watts)
def execMgmtWarmReset (die : Nat) (s : State) := s.command (s.warmReset die)
def execMgmtReadDrydown (unit first count : Nat) (reply : ReplyTo) (s : State) := s.command (s.readDrydown unit first count reply)
/-- Attestation is answered also after a boot that has failed (R423). -/
def execMgmtAttest (nonce : BitVec 256) (reply : ReplyTo) (s : State) : Host.Outcome State Fault Refusal :=
  if s.nd.bootFailed then
    (match s.attest nonce reply with
    | some x => .next (x.replies.foldl (fun (u : State) o => u.emit o) s)
    | none => .next s)
  else s.command (s.attest nonce reply)
def execMgmtRaiseSvn (svn : Nat) (s : State) := s.command (s.raiseSvn svn)
def execMgmtWriteSillage (ctx : Nat) (value : Dword) (s : State) := s.command (s.writeContextReg ctx .sillage value)
def execMgmtWriteTrapvec (ctx : Nat) (value : Dword) (s : State) := s.command (s.writeContextReg ctx .trapvec value)
def execMgmtWriteSpawntmr (ctx : Nat) (value : Dword) (s : State) := s.command (s.writeContextReg ctx .spawntmr value)
def execMgmtWriteCtxmode (ctx : Nat) (value : Dword) (s : State) := s.command (s.writeContextReg ctx .ctxmode value)
def execMgmtWriteCring (ctx : Nat) (value : Dword) (s : State) := s.command (s.writeContextReg ctx .cring value)
def execMgmtBindNoticeQp (ctx qp : Nat) (s : State) := s.command (s.bindQp ctx qp)

/-! Management frames (R425, R426). -/

/-- The clusters of a mask of 256 bits. -/
def maskClusters (m : Nat) : List Nat := (List.range 256).filter (fun g => m.testBit g)

/-- The writable control register of a number. -/
def writableCreg : Nat → Option CReg
  | 4 => some .sillage | 5 => some .trapvec | 6 => some .spawntmr | 7 => some .ctxmode | 8 => some .cring
  | _ => none

/-- Everything from a byte of a record on is zero. -/
def zeroFrom (r : List Byte) (n : Nat) : Bool := (r.drop n).all (· == 0)

/-- A command record is performed (R426). -/
def State.performRecord (s : State) (reply : ReplyTo) (r : List Byte) : Option Done :=
  let f := recField r
  let c := f 1 1
  if f 2 6 != 0 then none
  else match f 0 1 with
    | 0x01 => s.createContext c (maskClusters (f 8 32)) (f 40 8) (f 48 8) (f 56 8) (BitVec.ofNat 256 (f 64 32)) (BitVec.ofNat 256 (f 96 32))
    | 0x02 => if zeroFrom r 8 then s.destroyContext c else none
    | 0x03 =>
      if f 8 1 = 0 then (if zeroFrom r 9 then s.preemptContext c else none)
      else if f 8 1 = 1 && f 9 7 = 0 && zeroFrom r 48 then s.resumeContext c (maskClusters (f 16 32))
      else none
    | 0x04 => if zeroFrom r 72 then s.setKeys c (BitVec.ofNat 256 (f 8 32)) (BitVec.ofNat 256 (f 40 32)) else none
    | 0x05 => if zeroFrom r 9 then s.setMask c (BitVec.ofNat 8 (f 8 1)) else none
    | 0x06 => if f 9 7 = 0 && zeroFrom r 20 then s.setQuantum c (f 8 1) (f 16 4) else none
    | 0x07 => if c = 0 && f 10 6 = 0 && zeroFrom r 40 then s.setRegion (f 8 2) (BitVec.ofNat 192 (f 16 24)) else none
    | 0x08 => if zeroFrom r 16 then s.unregister c (BitVec.ofNat 64 (f 8 8)) else none
    | 0x09 => if c = 0 && zeroFrom r 10 then s.setCap (f 8 2) else none
    | 0x0A => if c = 0 && zeroFrom r 9 then s.warmReset (f 8 1) else none
    | 0x0B => if c = 0 && zeroFrom r 13 then s.readDrydown (f 8 1) (f 9 2) (f 11 2) reply else none
    | 0x0C => if c = 0 && zeroFrom r 40 then s.attest (BitVec.ofNat 256 (f 8 32)) reply else none
    | 0x0D => if c = 0 && zeroFrom r 9 then s.raiseSvn (f 8 1) else none
    | 0x0E =>
      (match writableCreg (f 8 1) with
      | some x => if f 9 7 = 0 && zeroFrom r 24 then s.writeContextReg c x (BitVec.ofNat 64 (f 16 8)) else none
      | none => none)
    | 0x0F => if zeroFrom r 10 then s.bindQp c (f 8 2) else none
    | _ => none

/-- What a record waits for has ended. (DEDUCED, log 88.) -/
def State.waitOver (s : State) : JobWait → Bool
  | .ctx n => !s.hasCtx n || (s.ctx n).phase == .saved
  | .running n => !s.hasCtx n || (s.ctx n).phase != .restoring
  | .reset d => (tget? s.resets d).isNone && !s.resetQueue.contains d

/-- Change the N-die. -/
def State.modNd (s : State) (f : NDie → NDie) : State := { s with nd := f s.nd }

/-- Every record is done: the acknowledgement leaves, then the replies. -/
def State.endJob (s : State) (j : MgmtJob) : State :=
  let a := ackBytes j.payload (j.statuses.map (fun x => (0, x)))
  let seq := recField j.payload 8 8
  let s1 := (s.modNd (fun n => { n with job := none, acks := keepAck n.acks seq a })).emit (.datagram j.source a)
  j.replies.foldl (fun (u : State) o => u.emit o) s1

/-- The next record of a frame, if the one before is complete. -/
def State.runJob (s : State) (j : MgmtJob) : Nat → State
  | 0 => s.modNd (fun n => { n with job := some j })
  | fuel + 1 =>
    if j.waits.any (fun w => !s.waitOver w) then s.modNd (fun n => { n with job := some j })
    else if frameEntries j.payload ≤ j.statuses.length then s.endJob j
    else
      let i := j.statuses.length
      match s.performRecord ⟨j.source, recField j.payload 8 8, i⟩ (frameRecord j.payload i) with
      | none => s.runJob { j with statuses := j.statuses ++ [0x10], waits := none } fuel
      | some d => d.state.runJob { j with statuses := j.statuses ++ [0], waits := d.waits, replies := j.replies ++ d.replies } fuel

/-- A frame whose every record asks for attestation. -/
def attestsOnly (p : List Byte) : Bool :=
  !frameBad p && 0 < frameEntries p && (List.range (frameEntries p)).all (fun i => recField (frameRecord p i) 0 1 == 0x0C)

/-- A frame is checked in the management sequence (R425, R332 to R334), and its records are begun. -/
def State.startFrame (s : State) (source : Nat) (payload : List Byte) : State :=
  let key := if recField payload 5 1 = 0 then some s.nd.mgmtKey else none
  match frameRefused payload key "ILRUS-MGMT" s.nd.lastSeq s.nd.acks with
  | some a => s.emit (.datagram source a)
  | none => (s.modNd (fun n => { n with lastSeq := recField payload 8 8 })).runJob { source := source, payload := payload } 65

/-- A management frame that is being performed goes on; after it comes the oldest one received meanwhile. -/
def State.continueJob (s : State) : State :=
  match s.nd.job, s.nd.frames with
  | some j, _ => s.runJob j 65
  | none, f :: rest => (s.modNd (fun n => { n with frames := rest })).startFrame f.1 f.2
  | none, [] => s

/-- MANAGEMENT_FRAME: the frame is checked and its records are performed in order, after the frames received before it. After a
boot that has failed only attestation is answered. (DEDUCED, log 86.) -/
def execManagementFrame (source : Nat) (payload : List Byte) (s : State) : Host.Outcome State Fault Refusal :=
  if !(s.portUp || (s.nd.bootFailed && s.nd.bootStep < 5 && attestsOnly payload)) || frameLimit < payload.length ||
    recField payload 7 1 != 1 then .next s
  else if s.nd.job.isSome || !s.nd.frames.isEmpty then .next (s.modNd (fun n => { n with frames := n.frames ++ [(source, payload)] }))
  else .next (s.startFrame source payload)

end Sys2Proof.Machine
end

