-- ==== Sys2Proof/Machine/Object.lean ====
section
/-! DEFINITION. OBJDECL and OBJDROP, opcodes 0xEB and 0xEC (R239, R240, R328, R330): the lines of a range pass in and out of
the tracking by tile parts. -/
namespace Sys2Proof.Machine

/-! The parts of a range, page by page. -/

/-- The leaf pages of a table that meet the addresses lo to hi (bits 51 to 0): base address, size and entry. -/
def leavesFrom (m : Tbl Byte) (lo hi : Nat) : Nat → Nat → Nat → Nat → List (Nat × Nat × Nat)
  | 0, _, _, _ => []
  | fuel + 1, level, table, base =>
    let span := if level = 0 then 2 ^ 39 else pageSize level
    let i0 := (lo - base) / span
    let i1 := min (tableSize level / 8) ((hi - base + span - 1) / span)
    (List.range (i1 - i0)).flatMap (fun j =>
      let b := base + (i0 + j) * span
      let e := memNat m (table + 8 * (i0 + j)) 8
      if e % 2 = 0 then []
      else if e / 2 % 2 = 1 then (if level = 0 || leafMalformed e span then [] else [(b, span, e)])
      else
        let next := e / 2 ^ 8 % 2 ^ 32 * 256
        if level = 3 || e / 4 % 64 != 0 || e / 2 ^ 40 != 0 || next % tableSize (level + 1) != 0 || !isDram next then []
        else leavesFrom m lo hi fuel (level + 1) next b)

/-- The parts of the bytes lo to hi of a context's address space, as an object entry holds them. (DEDUCED, log 63.) -/
def State.framesOf (s : State) (ctx : Nat) (lo hi : Int) : List ObjFrame :=
  let part (a b : Int) : List ObjFrame :=
    if b ≤ a then []
    else
      let x := (a % 2 ^ 52).toNat
      let y := x + (b - a).toNat
      (leavesFrom s.mem x y 4 0 (s.ctx ctx).ptroot 0).map (fun p =>
        { va := p.1, leaf := p.2.2, size := p.2.1, lo := max x p.1 - p.1, hi := min y (p.1 + p.2.1) - p.1 })
  part (max lo (-(2 ^ 51))) (min hi 0) ++ part (max lo 0) (min hi (2 ^ 51))

/-- The stripes of a part, as offsets in the page. -/
def frameStripes (f : ObjFrame) : List Nat :=
  if f.hi ≤ f.lo then [] else (List.range ((f.hi - 1) / 4096 - f.lo / 4096 + 1)).map (fun k => (f.lo / 4096 + k) * 4096)

/-- The stacks that home part of a frame. -/
def frameStacks (f : ObjFrame) : List Nat := (((frameStripes f).take 16).map (fun o => homeStack (placeByte f.leaf o))).dedup

/-- Two parts share a byte of memory. -/
def framesMeet (f g : ObjFrame) : Bool :=
  (frameStripes f).any (fun o =>
    match pageOffset g.leaf g.size (placeByte f.leaf o) with
    | some p => decide (p + (max f.lo o - o) < g.hi && g.lo < p + (min f.hi (o + 4096) - o))
    | none => false)

/-! Shape records (R239). -/

/-- The shape record of 64 bytes, none outside its limits. -/
def parseShape (bs : List Byte) : Option Shape :=
  let f := recField bs
  let e := f 40 1
  let d0 := f 8 2
  let d1 := f 10 2
  let t0 := f 42 2
  let t1 := f 44 2
  let ok := [1, 2, 4, 8].contains e && f 0 8 % e == 0 && 1 ≤ d0 && 1 ≤ d1 && 1 ≤ f 12 2 && 1 ≤ f 14 2 && f 41 1 ≤ 2 &&
    1 ≤ t0 && t0 * e % 64 == 0 && d0 % t0 == 0 && 1 ≤ t1 && d1 % t1 == 0 && t0 * t1 * e ≤ 65536 && f 46 18 == 0
  if ok then some
    { base := BitVec.ofNat 64 (f 0 8), dims := [d0, d1, f 12 2, f 14 2],
      strides := [BitVec.ofNat 64 (f 16 8), BitVec.ofNat 64 (f 24 8), BitVec.ofNat 64 (f 32 8)],
      esize := e, cls := f 41 1, tile0 := t0, tile1 := t1 }
  else none

/-- The first byte of a shape's range and the byte after its last. -/
def Shape.range (x : Shape) : Int × Int :=
  let ends := (x.dims.drop 1).zip x.strides
  let far (p : Nat × Dword) : Int := (p.1 - 1 : Nat) * p.2.toInt
  (x.base.toInt + (ends.map (fun p => min 0 (far p))).foldl (· + ·) 0,
    x.base.toInt + (x.dims.headD 1) * x.esize + (ends.map (fun p => max 0 (far p))).foldl (· + ·) 0)

/-! The object tables (R328). -/

/-- An object number is free in a stack's table. -/
def State.numberFree (s : State) (stack n : Nat) : Bool := !(tgetD s.objects (stack * 4096 + n) {}).live

/-- The stacks that home part of an object: that of the issuing core when no byte of the range is mapped. -/
def State.objectStacks (s : State) (frames : List ObjFrame) : List Nat :=
  match (frames.flatMap frameStacks).dedup with
  | [] => [stackOf s.curWave.core]
  | ks => ks

/-- How often an object number has been declared. (DEDUCED, log 61.) -/
def State.generation (s : State) (n : Nat) : Nat :=
  (List.range 8).foldl (fun g k => max g (tgetD s.objects (k * 4096 + n) {}).gen) 0

/-- Change the live entries of an object. -/
def State.modObject (s : State) (n gen : Nat) (f : ObjEntry → ObjEntry) : State :=
  (List.range 8).foldl (fun (u : State) k =>
    let o := tgetD u.objects (k * 4096 + n) {}
    if o.live && o.gen = gen then { u with objects := tset u.objects (k * 4096 + n) (f o) } else u) s

/-- The live entry of an object number and generation (bits 31 to 16 of a handle) of a context. -/
def State.objectOf (s : State) (ctx n gen16 : Nat) : Option ObjEntry :=
  ((List.range 8).map (fun k => tgetD s.objects (k * 4096 + n) {})).find? (fun o =>
    o.live && !o.declaring && o.ctx = ctx && o.gen % 2 ^ 16 = gen16)

/-! Conversion (R330). -/

/-- The units with an entry at their home that have bytes in an object's range. -/
def State.trackedUnits (s : State) (o : ObjEntry) : List Nat := (tkeys s.homes).filter (fun k => (s.unitLines k).any o.meets)

/-- A coherence message concerns a line of an object's range. -/
def State.rangeBusy (s : State) (o : ObjEntry) : Bool :=
  (s.net ++ s.waiting).any (fun i => match messageUnit i with
    | some k => (s.unitLines k).any o.meets
    | none => false)

/-- One round of a conversion: done, with every unit of the range at home and no entry left; or not yet, the units that other
stacks own having been written back, and the sharers of the others sent XINV. -/
def State.convert (s : State) (o : ObjEntry) : Except State State :=
  let ks := s.trackedUnits o
  let owned := ks.filter (fun k => (s.homeEntry k).owned)
  if s.rangeBusy o || ks.any (fun k => !s.ownerReady k || (s.homeEntry k).xpub.isSome) then .error s
  else if !owned.isEmpty then
    .error (owned.foldl (fun (u : State) k => (u.writeBack (u.ownerStack k) k).dropPart (u.ownerStack k) k) s)
  else match ks with
    | [] => .ok s
    | ks => .error (ks.foldl (fun (u : State) k => u.sendOnce (.xpub k (unitHome k) 6)) s)

/-- After a conversion the home's slices hold its lines by the units they now have; what another stack may still hold of them
under a lease that has ended goes. -/
def State.rekey (s : State) (o : ObjEntry) : State :=
  s.stackTbl.foldl (fun (u : State) t => (t.2.lines.filter (fun p => o.meets p.1)).foldl (fun (u : State) p =>
    if homeStack p.1 != t.1 then u.setCopy t.1 p.1 none
    else
      let c := p.2
      u.setCopy t.1 p.1 (some { c with parts := (u.lineUnits p.1).foldl (fun ps k => tset ps k {}) [] })) u) s

/-- The conversion that an instruction waits for goes on; at its end the entries change and the instruction goes on. -/
def State.convertOn (s : State) (n : Nat) (o : ObjEntry) (f : ObjEntry → ObjEntry) (k : State → State) : State :=
  match s.convert o with
  | .error u => u.stall (.object n o.gen)
  | .ok u => k ((u.modObject n o.gen f).rekey o)

/-- The object whose conversion the issuing split waits for, by number and generation, and its entry while it is live. -/
def State.convertingObject (s : State) : Option (Nat × Option ObjEntry) :=
  match s.curSplit.wait with
  | some (.object n gen) =>
    some (n, ((List.range 8).map (fun k => tgetD s.objects (k * 4096 + n) {})).find? (fun o => o.live && o.gen = gen))
  | _ => none

/-- The handle of an object. -/
def handleOf (n gen : Nat) : Dword := BitVec.ofNat 64 (n + gen % 2 ^ 16 * 2 ^ 16)

/-- The range of a declared object is converted, and the handle is written. -/
def State.declareOn (s : State) (d : SDst) (n : Nat) (o : ObjEntry) : State :=
  s.convertOn n o (fun x => { x with declaring := false }) (fun u => (u.putS d (handleOf n o.gen)).finish)

/-- A checked shape record is declared (R239). (DEDUCED, log 62.) -/
def State.declare (s : State) (d : SDst) (x : Shape) : State :=
  let (lo, hi) := x.range
  let frames := s.framesOf s.curWave.ctx lo hi
  let ks := s.objectStacks frames
  match (List.range 4096).find? (fun n => ks.all (fun k => s.numberFree k n)) with
  | none => (s.putS d 0x8000000000000001#64).finish
  | some n =>
    if (tvals s.objects).any (fun o => o.live && o.frames.any (fun g => frames.any (framesMeet g))) then
      (s.putS d 0x8000000000000002#64).finish
    else
      let o : ObjEntry := { ctx := s.curWave.ctx, gen := s.generation n + 1, live := true, declaring := true, shape := x, frames := frames }
      (ks.foldl (fun (u : State) k => { u with objects := tset u.objects (k * 4096 + n) o }) s).declareOn d n o

/-- OBJDECL: the record is read and checked, the object's entries are made in every stack that homes part of it, and its
lines are converted; the wave stalls meanwhile. -/
def execObjdecl (d : SDst) (a : SSrc) (s : State) :=
  issueOp (.objdecl d a) s (fun s =>
    if s.activeMask = 0 then (s.putS d 0).finish
    else match s.convertingObject with
      | some (n, some o) => s.declareOn d n o
      | some (_, none) => s.finish
      | none => s.readRecord (s.readS64 a) (fun s bs =>
        match parseShape bs with
        | none => s.trapHere (s.info 0x01 0)
        | some x => s.declare d x))

/-- The range of a dropped object is converted, and its entries are removed. -/
def State.dropOn (s : State) (n : Nat) (o : ObjEntry) : State :=
  s.convertOn n o (fun x => { x with live := false, dropping := false, frames := [] }) (fun u => u.finish)

/-- OBJDROP: the object that the handle names is retired. A wave that drops one whose retirement another began stalls with it. -/
def execObjdrop (a : SSrc) (s : State) :=
  issueOp (.objdrop a) s (fun s =>
    let h := (s.readS64 a).toNat
    if s.activeMask = 0 then s.finish
    else match s.convertingObject with
      | some (n, some o) => s.dropOn n o
      | some (_, none) => s.finish
      | none =>
        match (if h / 2 ^ 12 % 16 = 0 && h < 2 ^ 32 then s.objectOf s.curWave.ctx (h % 4096) (h / 2 ^ 16) else none) with
        | none => s.trapHere (s.info 0x04 s.maskDetail)
        | some o =>
          let n := h % 4096
          (s.modObject n o.gen (fun x => { x with dropping := true })).dropOn n { o with dropping := true })

end Sys2Proof.Machine
end

