-- ==== Sys2Proof/Machine/Pred.lean ====
section
/-! DEFINITION. The predicate instructions and the control registers' readers of lanes, opcodes 0x30 to 0x36 (R115). -/
namespace Sys2Proof.Machine

/-- A predicate instruction over two selectors (R115). -/
def predBinary (i : Instr) (d : Fin 8) (a b : PSel) (f : LaneMask → LaneMask → LaneMask) (s : State) :
    Host.Outcome State Fault Refusal :=
  issueOp i s (fun s => (s.putP d (f (s.curWave.psel a) (s.curWave.psel b))).finish)

def execPand (d : Fin 8) (a b : PSel) (s : State) := predBinary (.pand d a b) d a b (fun x y => x &&& y) s
def execPor (d : Fin 8) (a b : PSel) (s : State) := predBinary (.por d a b) d a b (fun x y => x ||| y) s
def execPxor (d : Fin 8) (a b : PSel) (s : State) := predBinary (.pxor d a b) d a b (fun x y => x ^^^ y) s
def execPandn (d : Fin 8) (a b : PSel) (s : State) := predBinary (.pandn d a b) d a b (fun x y => x &&& ~~~y) s
/-- PFROMS: bit l of A, typed int64. -/
def execPfroms (d : Fin 8) (a : SSrc) (s : State) :=
  issueOp (.pfroms d a) s (fun s => (s.putP d ((s.readS64 a).setWidth 32)).finish)
/-- PTOS: the selected predicate in the lanes of active(w), zero elsewhere. -/
def execPtos (d : SDst) (a : PSel) (s : State) :=
  issueOp (.ptos d a) s (fun s => (s.putS d ((s.curWave.psel a &&& s.activeMask).setWidth 64)).finish)
/-- MASKRD: the lanes of the issuing split and plane, whatever the guard. -/
def execMaskrd (d : SDst) (s : State) :=
  issueOp (.maskrd d) s (fun s => (s.putS d (s.issue.lanes.setWidth 64)).finish)

end Sys2Proof.Machine
end

