-- ==== Sys2Proof/Machine/Dispatch.lean ====
section
/-! DEFINITION. What each instruction and each event does: one direct call of its meaning. -/
namespace Sys2Proof.Machine

/-- The meaning of an instruction or event in a state. -/
def exec (i : Instr) (s : State) : Host.Outcome State Fault Refusal :=
  match i with
  | .trapz d a b => Sys2Proof.Machine.execTrapz d a b s
  | .nop => Sys2Proof.Machine.execNop s
  | .adds d a b => Sys2Proof.Machine.execAdds d a b s
  | .subs d a b => Sys2Proof.Machine.execSubs d a b s
  | .muls d a b => Sys2Proof.Machine.execMuls d a b s
  | .mulhs d a b => Sys2Proof.Machine.execMulhs d a b s
  | .divs d a b => Sys2Proof.Machine.execDivs d a b s
  | .rems d a b => Sys2Proof.Machine.execRems d a b s
  | .ands d a b => Sys2Proof.Machine.execAnds d a b s
  | .ors d a b => Sys2Proof.Machine.execOrs d a b s
  | .xors d a b => Sys2Proof.Machine.execXors d a b s
  | .andns d a b => Sys2Proof.Machine.execAndns d a b s
  | .shls d a b => Sys2Proof.Machine.execShls d a b s
  | .shrs d a b => Sys2Proof.Machine.execShrs d a b s
  | .sras d a b => Sys2Proof.Machine.execSras d a b s
  | .rols d a b => Sys2Proof.Machine.execRols d a b s
  | .mins d a b => Sys2Proof.Machine.execMins d a b s
  | .maxs d a b => Sys2Proof.Machine.execMaxs d a b s
  | .movs d a => Sys2Proof.Machine.execMovs d a s
  | .nots d a => Sys2Proof.Machine.execNots d a s
  | .negs d a => Sys2Proof.Machine.execNegs d a s
  | .clzs d a => Sys2Proof.Machine.execClzs d a s
  | .popcs d a => Sys2Proof.Machine.execPopcs d a s
  | .seqs d a b => Sys2Proof.Machine.execSeqs d a b s
  | .snes d a b => Sys2Proof.Machine.execSnes d a b s
  | .slts d a b => Sys2Proof.Machine.execSlts d a b s
  | .sles d a b => Sys2Proof.Machine.execSles d a b s
  | .leas d a b => Sys2Proof.Machine.execLeas d a b s
  | .bfxs d a b => Sys2Proof.Machine.execBfxs d a b s
  | .br a b => Sys2Proof.Machine.execBr a b s
  | .brz a b => Sys2Proof.Machine.execBrz a b s
  | .brnz a b => Sys2Proof.Machine.execBrnz a b s
  | .call d b => Sys2Proof.Machine.execCall d b s
  | .ret a => Sys2Proof.Machine.execRet a s
  | .rejoin b => Sys2Proof.Machine.execRejoin b s
  | .exit => Sys2Proof.Machine.execExit s
  | .yield => Sys2Proof.Machine.execYield s
  | .plset a => Sys2Proof.Machine.execPlset a s
  | .plget d => Sys2Proof.Machine.execPlget d s
  | .trap b => Sys2Proof.Machine.execTrap b s
  | .brk => Sys2Proof.Machine.execBrk s
  | .crrd d b => Sys2Proof.Machine.execCrrd d b s
  | .setm b => Sys2Proof.Machine.execSetm b s
  | .setmf a b => Sys2Proof.Machine.execSetmf a b s
  | .getm d => Sys2Proof.Machine.execGetm d s
  | .pand d a b => Sys2Proof.Machine.execPand d a b s
  | .por d a b => Sys2Proof.Machine.execPor d a b s
  | .pxor d a b => Sys2Proof.Machine.execPxor d a b s
  | .pandn d a b => Sys2Proof.Machine.execPandn d a b s
  | .pfroms d a => Sys2Proof.Machine.execPfroms d a s
  | .ptos d a => Sys2Proof.Machine.execPtos d a s
  | .maskrd d => Sys2Proof.Machine.execMaskrd d s
  | .addv d a b => Sys2Proof.Machine.execAddv d a b s
  | .subv d a b => Sys2Proof.Machine.execSubv d a b s
  | .mulv d a b => Sys2Proof.Machine.execMulv d a b s
  | .mulhv d a b => Sys2Proof.Machine.execMulhv d a b s
  | .divv d a b => Sys2Proof.Machine.execDivv d a b s
  | .remv d a b => Sys2Proof.Machine.execRemv d a b s
  | .minv d a b => Sys2Proof.Machine.execMinv d a b s
  | .maxv d a b => Sys2Proof.Machine.execMaxv d a b s
  | .absv d a => Sys2Proof.Machine.execAbsv d a s
  | .negv d a => Sys2Proof.Machine.execNegv d a s
  | .madv d a b => Sys2Proof.Machine.execMadv d a b s
  | .msubv d a b => Sys2Proof.Machine.execMsubv d a b s
  | .andv d a b => Sys2Proof.Machine.execAndv d a b s
  | .orv d a b => Sys2Proof.Machine.execOrv d a b s
  | .xorv d a b => Sys2Proof.Machine.execXorv d a b s
  | .andnv d a b => Sys2Proof.Machine.execAndnv d a b s
  | .notv d a => Sys2Proof.Machine.execNotv d a s
  | .shlv d a b => Sys2Proof.Machine.execShlv d a b s
  | .shrv d a b => Sys2Proof.Machine.execShrv d a b s
  | .srav d a b => Sys2Proof.Machine.execSrav d a b s
  | .rolv d a b => Sys2Proof.Machine.execRolv d a b s
  | .clzv d a => Sys2Proof.Machine.execClzv d a s
  | .popcv d a => Sys2Proof.Machine.execPopcv d a s
  | .movv d a => Sys2Proof.Machine.execMovv d a s
  | .bfxv d a b => Sys2Proof.Machine.execBfxv d a b s
  | .dot4v d a b => Sys2Proof.Machine.execDot4v d a b s
  | .dot2v d a b => Sys2Proof.Machine.execDot2v d a b s
  | .avgv d a b => Sys2Proof.Machine.execAvgv d a b s
  | .sqrtv d a => Sys2Proof.Machine.execSqrtv d a s
  | .rcpv d a => Sys2Proof.Machine.execRcpv d a s
  | .rsqv d a => Sys2Proof.Machine.execRsqv d a s
  | .exp2v d a => Sys2Proof.Machine.execExp2v d a s
  | .log2v d a => Sys2Proof.Machine.execLog2v d a s
  | .sinv d a => Sys2Proof.Machine.execSinv d a s
  | .cosv d a => Sys2Proof.Machine.execCosv d a s
  | .tanhv d a => Sys2Proof.Machine.execTanhv d a s
  | .floorv d a => Sys2Proof.Machine.execFloorv d a s
  | .ceilv d a => Sys2Proof.Machine.execCeilv d a s
  | .truncv d a => Sys2Proof.Machine.execTruncv d a s
  | .rintv d a => Sys2Proof.Machine.execRintv d a s
  | .fracv d a => Sys2Proof.Machine.execFracv d a s
  | .copysv d a b => Sys2Proof.Machine.execCopysv d a b s
  | .classv d a => Sys2Proof.Machine.execClassv d a s
  | .scalbv d a b => Sys2Proof.Machine.execScalbv d a b s
  | .cvtv d a b => Sys2Proof.Machine.execCvtv d a b s
  | .packsxv d a b => Sys2Proof.Machine.execPacksxv d a b s
  | .unpksxv d a b => Sys2Proof.Machine.execUnpksxv d a b s
  | .cmpeqv d a b => Sys2Proof.Machine.execCmpeqv d a b s
  | .cmpnev d a b => Sys2Proof.Machine.execCmpnev d a b s
  | .cmpltv d a b => Sys2Proof.Machine.execCmpltv d a b s
  | .cmplev d a b => Sys2Proof.Machine.execCmplev d a b s
  | .cmpgtv d a b => Sys2Proof.Machine.execCmpgtv d a b s
  | .cmpgev d a b => Sys2Proof.Machine.execCmpgev d a b s
  | .cmpunv d a b => Sys2Proof.Machine.execCmpunv d a b s
  | .selv d a b => Sys2Proof.Machine.execSelv d a b s
  | .shflv d a b => Sys2Proof.Machine.execShflv d a b s
  | .shupv d a b => Sys2Proof.Machine.execShupv d a b s
  | .shdnv d a b => Sys2Proof.Machine.execShdnv d a b s
  | .shxrv d a b => Sys2Proof.Machine.execShxrv d a b s
  | .bcastv d a b => Sys2Proof.Machine.execBcastv d a b s
  | .voteall d a => Sys2Proof.Machine.execVoteall d a s
  | .voteany d a => Sys2Proof.Machine.execVoteany d a s
  | .ballot d a => Sys2Proof.Machine.execBallot d a s
  | .redaddv d a => Sys2Proof.Machine.execRedaddv d a s
  | .redminv d a => Sys2Proof.Machine.execRedminv d a s
  | .redmaxv d a => Sys2Proof.Machine.execRedmaxv d a s
  | .redandv d a => Sys2Proof.Machine.execRedandv d a s
  | .redorv d a => Sys2Proof.Machine.execRedorv d a s
  | .scanv d a => Sys2Proof.Machine.execScanv d a s
  | .movsv d a => Sys2Proof.Machine.execMovsv d a s
  | .movvs d a b => Sys2Proof.Machine.execMovvs d a b s
  | .firstl d => Sys2Proof.Machine.execFirstl d s
  | .ldv d a b => Sys2Proof.Machine.execLdv d a b s
  | .stv d a b => Sys2Proof.Machine.execStv d a b s
  | .lds d a b => Sys2Proof.Machine.execLds d a b s
  | .sts d a b => Sys2Proof.Machine.execSts d a b s
  | .ldvb d a b => Sys2Proof.Machine.execLdvb d a b s
  | .stvb d a b => Sys2Proof.Machine.execStvb d a b s
  | .pref a b => Sys2Proof.Machine.execPref a b s
  | .aadd d a b => Sys2Proof.Machine.execAadd d a b s
  | .amin d a b => Sys2Proof.Machine.execAmin d a b s
  | .amax d a b => Sys2Proof.Machine.execAmax d a b s
  | .aand d a b => Sys2Proof.Machine.execAand d a b s
  | .aor d a b => Sys2Proof.Machine.execAor d a b s
  | .axor d a b => Sys2Proof.Machine.execAxor d a b s
  | .axchg d a b => Sys2Proof.Machine.execAxchg d a b s
  | .aincw d a b => Sys2Proof.Machine.execAincw d a b s
  | .adecw d a b => Sys2Proof.Machine.execAdecw d a b s
  | .cas d a b => Sys2Proof.Machine.execCas d a b s
  | .cas128 d a b => Sys2Proof.Machine.execCas128 d a b s
  | .aadds d a b => Sys2Proof.Machine.execAadds d a b s
  | .cass d a b => Sys2Proof.Machine.execCass d a b s
  | .fence b => Sys2Proof.Machine.execFence b s
  | .waita d a b => Sys2Proof.Machine.execWaita d a b s
  | .drain b => Sys2Proof.Machine.execDrain b s
  | .rdadd a b => Sys2Proof.Machine.execRdadd a b s
  | .rdmin a b => Sys2Proof.Machine.execRdmin a b s
  | .rdmax a b => Sys2Proof.Machine.execRdmax a b s
  | .rdand a b => Sys2Proof.Machine.execRdand a b s
  | .rdor a b => Sys2Proof.Machine.execRdor a b s
  | .rdxor a b => Sys2Proof.Machine.execRdxor a b s
  | .ldp d a b => Sys2Proof.Machine.execLdp d a b s
  | .stp d a b => Sys2Proof.Machine.execStp d a b s
  | .ldc d a b => Sys2Proof.Machine.execLdc d a b s
  | .stc d a b => Sys2Proof.Machine.execStc d a b s
  | .ldk d a b => Sys2Proof.Machine.execLdk d a b s
  | .stk d a b => Sys2Proof.Machine.execStk d a b s
  | .ldl d a b => Sys2Proof.Machine.execLdl d a b s
  | .stl d a b => Sys2Proof.Machine.execStl d a b s
  | .aaddc d a b => Sys2Proof.Machine.execAaddc d a b s
  | .casc d a b => Sys2Proof.Machine.execCasc d a b s
  | .townGive a b => Sys2Proof.Machine.execTownGive a b s
  | .townTake a b => Sys2Proof.Machine.execTownTake a b s
  | .twait d a b => Sys2Proof.Machine.execTwait d a b s
  | .barv d a => Sys2Proof.Machine.execBarv d a s
  | .barw a b => Sys2Proof.Machine.execBarw a b s
  | .ldps d a b => Sys2Proof.Machine.execLdps d a b s
  | .stps d a b => Sys2Proof.Machine.execStps d a b s
  | .mma d a b => Sys2Proof.Machine.execMma d a b s
  | .mmz d => Sys2Proof.Machine.execMmz d s
  | .mmd d a b => Sys2Proof.Machine.execMmd d a b s
  | .wload d a b => Sys2Proof.Machine.execWload d a b s
  | .mmsync => Sys2Proof.Machine.execMmsync s
  | .wbind d a => Sys2Proof.Machine.execWbind d a s
  | .wtouch b => Sys2Proof.Machine.execWtouch b s
  | .wunbind b => Sys2Proof.Machine.execWunbind b s
  | .gather a => Sys2Proof.Machine.execGather a s
  | .spawn a b => Sys2Proof.Machine.execSpawn a b s
  | .dcinit d a b => Sys2Proof.Machine.execDcinit d a b s
  | .dctake d a b => Sys2Proof.Machine.execDctake d a b s
  | .dcgive d a b => Sys2Proof.Machine.execDcgive d a b s
  | .dcread d a => Sys2Proof.Machine.execDcread d a s
  | .dcreadx d a => Sys2Proof.Machine.execDcreadx d a s
  | .dcdrop d a => Sys2Proof.Machine.execDcdrop d a s
  | .objdecl d a => Sys2Proof.Machine.execObjdecl d a s
  | .objdrop a => Sys2Proof.Machine.execObjdrop a s
  | .wstat d b => Sys2Proof.Machine.execWstat d b s
  | .crwr a b => Sys2Proof.Machine.execCrwr a b s
  | .carve d a => Sys2Proof.Machine.execCarve d a s
  | .tret => Sys2Proof.Machine.execTret s
  | .tlbinv a b => Sys2Proof.Machine.execTlbinv a b s
  | .icinv a b => Sys2Proof.Machine.execIcinv a b s
  | .splitRotation wave => Sys2Proof.Machine.execSplitRotation wave s
  | .loadDataReturn wave load => Sys2Proof.Machine.execLoadDataReturn wave load s
  | .waveExchange out into => Sys2Proof.Machine.execWaveExchange out into s
  | .waitaPeriodicWake wave => Sys2Proof.Machine.execWaitaPeriodicWake wave s
  | .drainComplete wave => Sys2Proof.Machine.execDrainComplete wave s
  | .waveEnd wave => Sys2Proof.Machine.execWaveEnd wave s
  | .mmaExecute core => Sys2Proof.Machine.execMmaExecute core s
  | .mmzExecute core => Sys2Proof.Machine.execMmzExecute core s
  | .mmdExecute core => Sys2Proof.Machine.execMmdExecute core s
  | .wloadExecute core => Sys2Proof.Machine.execWloadExecute core s
  | .copyComplete block window => Sys2Proof.Machine.execCopyComplete block window s
  | .copyAbandon block window => Sys2Proof.Machine.execCopyAbandon block window s
  | .gatherComplete cluster => Sys2Proof.Machine.execGatherComplete cluster s
  | .gatherAbandon cluster => Sys2Proof.Machine.execGatherAbandon cluster s
  | .spawnBinTimer cluster bin => Sys2Proof.Machine.execSpawnBinTimer cluster bin s
  | .spawnWaveStart cluster bin => Sys2Proof.Machine.execSpawnWaveStart cluster bin s
  | .decantReq record slice sum first => Sys2Proof.Machine.execDecantReq record slice sum first s
  | .decantGiveMsg record slice units op => Sys2Proof.Machine.execDecantGiveMsg record slice units op s
  | .decantReturn record slice units => Sys2Proof.Machine.execDecantReturn record slice units s
  | .decantAnswer record slice units => Sys2Proof.Machine.execDecantAnswer record slice units s
  | .decantReadAtHome record slice kind op => Sys2Proof.Machine.execDecantReadAtHome record slice kind op s
  | .decantRecall record slice => Sys2Proof.Machine.execDecantRecall record slice s
  | .decantGrant record slice units => Sys2Proof.Machine.execDecantGrant record slice units s
  | .decantServe record slice units => Sys2Proof.Machine.execDecantServe record slice units s
  | .decantStatusReply record slice op lo hi detail => Sys2Proof.Machine.execDecantStatusReply record slice op lo hi detail s
  | .decantCdieLoss stack => Sys2Proof.Machine.execDecantCdieLoss stack s
  | .wr core write => Sys2Proof.Machine.execWr core write s
  | .pack core write level => Sys2Proof.Machine.execPack core write level s
  | .inv line cluster writer => Sys2Proof.Machine.execInv line cluster writer s
  | .iack line cluster => Sys2Proof.Machine.execIack line cluster s
  | .gets line stack core => Sys2Proof.Machine.execGets line stack core s
  | .getx line stack core => Sys2Proof.Machine.execGetx line stack core s
  | .fwd line stack core excl => Sys2Proof.Machine.execFwd line stack core excl s
  | .data line stack core excl bytes => Sys2Proof.Machine.execData line stack core excl bytes s
  | .wb line stack => Sys2Proof.Machine.execWb line stack s
  | .xpub line stack level => Sys2Proof.Machine.execXpub line stack level s
  | .xinv line stack => Sys2Proof.Machine.execXinv line stack s
  | .xack line stack => Sys2Proof.Machine.execXack line stack s
  | .xdone line stack level => Sys2Proof.Machine.execXdone line stack level s
  | .fpub core epoch level requester => Sys2Proof.Machine.execFpub core epoch level requester s
  | .fack core epoch level requester => Sys2Proof.Machine.execFack core epoch level requester s
  | .rebase isCore unit => Sys2Proof.Machine.execRebase isCore unit s
  | .icacheFill core ctx line wave => Sys2Proof.Machine.execIcacheFill core ctx line wave s
  | .waitWordPoll ctx queue => Sys2Proof.Machine.execWaitWordPoll ctx queue s
  | .queueReserving ctx queue => Sys2Proof.Machine.execQueueReserving ctx queue s
  | .launchDrain launch => Sys2Proof.Machine.execLaunchDrain launch s
  | .translationRequest stack ctx record image => Sys2Proof.Machine.execTranslationRequest stack ctx record image s
  | .handlerPreemptTimeout wave => Sys2Proof.Machine.execHandlerPreemptTimeout wave s
  | .invalidationComplete wave => Sys2Proof.Machine.execInvalidationComplete wave s
  | .launchFrame source payload => Sys2Proof.Machine.execLaunchFrame source payload s
  | .managementFrame source payload => Sys2Proof.Machine.execManagementFrame source payload s
  | .translationJobDone ctx record result => Sys2Proof.Machine.execTranslationJobDone ctx record result s
  | .coreRetire cluster physical => Sys2Proof.Machine.execCoreRetire cluster physical s
  | .elementFailure element => Sys2Proof.Machine.execElementFailure element s
  | .routeRewrite element => Sys2Proof.Machine.execRouteRewrite element s
  | .elementRetire element => Sys2Proof.Machine.execElementRetire element s
  | .retirePowerDown element => Sys2Proof.Machine.execRetirePowerDown element s
  | .retransmitTimeout source home => Sys2Proof.Machine.execRetransmitTimeout source home s
  | .replayFilterArrival source home seq request => Sys2Proof.Machine.execReplayFilterArrival source home seq request s
  | .rdmaWrite qp rkey va bytes => Sys2Proof.Machine.execRdmaWrite qp rkey va bytes s
  | .rdmaRead qp rkey va length => Sys2Proof.Machine.execRdmaRead qp rkey va length s
  | .atomicCompareSwap qp rkey va compare swap => Sys2Proof.Machine.execAtomicCompareSwap qp rkey va compare swap s
  | .atomicFetchAdd qp rkey va add => Sys2Proof.Machine.execAtomicFetchAdd qp rkey va add s
  | .roceUnsupportedRequest qp => Sys2Proof.Machine.execRoceUnsupportedRequest qp s
  | .neighbourResolution query => Sys2Proof.Machine.execNeighbourResolution query s
  | .ethernetFrameDrop frame => Sys2Proof.Machine.execEthernetFrameDrop frame s
  | .dramScrub die corrected uncorrectable => Sys2Proof.Machine.execDramScrub die corrected uncorrectable s
  | .smcHeartbeat stack answered => Sys2Proof.Machine.execSmcHeartbeat stack answered s
  | .dieLost die => Sys2Proof.Machine.execDieLost die s
  | .rebuildDone die => Sys2Proof.Machine.execRebuildDone die s
  | .thermalLimit die celsius => Sys2Proof.Machine.execThermalLimit die celsius s
  | .thermalRecover die celsius => Sys2Proof.Machine.execThermalRecover die celsius s
  | .powerSample readings => Sys2Proof.Machine.execPowerSample readings s
  | .powerOn => Sys2Proof.Machine.execPowerOn s
  | .packageReset => Sys2Proof.Machine.execPackageReset s
  | .mgmtCreateContext ctx clusters ptroot saveBase saveSize launchKey codeKey => Sys2Proof.Machine.execMgmtCreateContext ctx clusters ptroot saveBase saveSize launchKey codeKey s
  | .mgmtDestroyContext ctx => Sys2Proof.Machine.execMgmtDestroyContext ctx s
  | .mgmtPreempt ctx => Sys2Proof.Machine.execMgmtPreempt ctx s
  | .mgmtResume ctx clusters => Sys2Proof.Machine.execMgmtResume ctx clusters s
  | .mgmtSetKeys ctx launchKey codeKey => Sys2Proof.Machine.execMgmtSetKeys ctx launchKey codeKey s
  | .mgmtFeatureMask ctx mask => Sys2Proof.Machine.execMgmtFeatureMask ctx mask s
  | .mgmtQueueQuanta ctx queue quantum => Sys2Proof.Machine.execMgmtQueueQuanta ctx queue quantum s
  | .mgmtMemoryRegion index entry => Sys2Proof.Machine.execMgmtMemoryRegion index entry s
  | .mgmtUnregisterCodeObject ctx object => Sys2Proof.Machine.execMgmtUnregisterCodeObject ctx object s
  | .mgmtPowerCap watts => Sys2Proof.Machine.execMgmtPowerCap watts s
  | .mgmtWarmReset die => Sys2Proof.Machine.execMgmtWarmReset die s
  | .mgmtReadDrydown unit first count reply => Sys2Proof.Machine.execMgmtReadDrydown unit first count reply s
  | .mgmtAttest nonce reply => Sys2Proof.Machine.execMgmtAttest nonce reply s
  | .mgmtRaiseSvn svn => Sys2Proof.Machine.execMgmtRaiseSvn svn s
  | .mgmtWriteSillage ctx value => Sys2Proof.Machine.execMgmtWriteSillage ctx value s
  | .mgmtWriteTrapvec ctx value => Sys2Proof.Machine.execMgmtWriteTrapvec ctx value s
  | .mgmtWriteSpawntmr ctx value => Sys2Proof.Machine.execMgmtWriteSpawntmr ctx value s
  | .mgmtWriteCtxmode ctx value => Sys2Proof.Machine.execMgmtWriteCtxmode ctx value s
  | .mgmtWriteCring ctx value => Sys2Proof.Machine.execMgmtWriteCring ctx value s
  | .mgmtBindNoticeQp ctx qp => Sys2Proof.Machine.execMgmtBindNoticeQp ctx qp s
  | .dieWarmReset die => Sys2Proof.Machine.execDieWarmReset die s
  | .warmResetStepDone die => Sys2Proof.Machine.execWarmResetStepDone die s
  | .powerRemoval => Sys2Proof.Machine.execPowerRemoval s
  | .roceAcknowledgement qp ok => Sys2Proof.Machine.execRoceAcknowledgement qp ok s
  | .priorityFlowControl priority pause => Sys2Proof.Machine.execPriorityFlowControl priority pause s

end Sys2Proof.Machine
end

