-- ==== Sys2Proof/Machine/Errors.lean ====
section
/-! DEFINITION. Errors that strike storages and paths (R403, R404, R407): what each row of R403 does with an error that its
code cannot correct, and the drydown entries of those it corrects. When one strikes is the outside's to say. -/
namespace Sys2Proof.Machine

/-- A mark on a granule, once. -/
def markGranule (a : Nat) (bad : List Nat) : List Nat := if bad.contains (a / 8 * 8) then bad else bad ++ [a / 8 * 8]

/-- A word of a wave's storage exists: p0 reads 1 and holds nothing, and vector registers are those of its allocation. -/
def Wave.hasCell (w : Wave) : RegCell → Bool
  | .v r l => decide (r < w.nvregs ∧ l < 32)
  | .s r => decide (r < 64)
  | .p k => decide (1 ≤ k ∧ k < 8)
  | .mode h => h == w.handler
  | .split h => h == w.handler

/-- A register of a wave: the error stays until it is written (R407). -/
def Wave.strike (c : RegCell) (w : Wave) : Wave :=
  if w.hasCell c && !w.struck.contains c && !w.ended then { w with struck := w.struck ++ [c] } else w

/-- A latch of a wave that holds a result. -/
def Wave.strikeLatch (plane k : Nat) (w : Wave) : Wave :=
  match w.latch plane k with
  | .scalar _ | .vec _ _ => if k < 8 && plane < 4 then { w with latches := tset w.latches (plane * 8 + k) .struck } else w
  | _ => w

/-- The record of poison made in a unit of a die. -/
def State.logPoison (s : State) (record store unit n addr : Nat) : State := s.logDry record 0x02 store unit n addr

/-- A granule of a block's scratchpad or lane-private slices. -/
def State.strikeBlock (s : State) (b a : Nat) (bound : Block → Nat) (f : Block → Block) : State :=
  match tget? s.blocks b with
  | some x => if a < bound x then (s.modBlock b f).logPoison (dieOf x.core) 2 x.core 1 a else s
  | none => s

/-- A granule of stack scratchpad. -/
def State.strikeStack (s : State) (ctx stack a : Nat) : State :=
  match tget? s.ctxs ctx with
  | some c =>
    if a < c.stackSize stack then
      (s.modCtx ctx (fun c => { c with stackPoison := tset c.stackPoison stack (markGranule a (tgetD c.stackPoison stack [])) })).logPoison
        (cdieRecord stack) 2 ((c.stackPlace stack a).1 % 32) 1 a
    else s
  | none => s

/-- A granule of the owning copy of a line in a slice. -/
def State.strikeOwned (s : State) (pa : Nat) : State :=
  let k := s.unitAt pa
  match s.copyAt (s.ownerStack k) (lineOf pa) with
  | some c =>
    if c.ownsPart k then
      ({ s with poison := markGranule pa s.poison } : State).logPoison (cdieRecord (s.ownerStack k)) 4 c.slice 1 (pa / 8 * 8)
    else s
  | none => s

/-- A directory entry is taken to name every possible holder in its unit: INV goes to the L1s of a cluster, die or stack, and
XINV from the home to every other stack. No value changes. -/
def State.strikeDirectory (s : State) (line level unit : Nat) : State :=
  if level ≤ 4 then
    s.cores.foldl (fun (u : State) p => if unitOf level p.1 == unit then u.dropL1 line p.1 else u) s
  else
    (s.lineUnits line).foldl (fun (u : State) k => (List.range 8).foldl (fun (u : State) y =>
      if (u.partAt y k).any (fun p => !p.st.owns) then u.dropUnit y k else u) u) s

/-- An entry that names holders in a whole package: INV and XINV go to all of them. -/
def State.strikeHolders (s : State) (line : Nat) : State :=
  s.cores.foldl (fun (u : State) p => u.dropL1 line p.1) (s.strikeDirectory line 6 0)

/-- An entry of an object table: every line of its range that anything holds under a lease is invalidated. -/
def State.strikeObject (s : State) (stack n : Nat) : State :=
  let o := tgetD s.objects (stack * 4096 + n) {}
  if !o.live then s
  else
    let lines := ((tvals s.cores).flatMap (fun c => tkeys c.l1) ++ (tvals s.stackTbl).flatMap (fun t => tkeys t.lines)).dedup
    (lines.filter o.meets).foldl (fun (u : State) l => u.strikeHolders l) s

/-- A routing entry is treated as DOWN, until the fabric manager rewrites it as it rewrites those of a failed element (R395). -/
def State.strikeEntry (s : State) (router region : Nat) : State :=
  if 513 ≤ router || 513 ≤ region || s.fabric.struck router region then s
  else s.modFabric (fun f => { f with badEntries := f.badEntries ++ [((router, region), s.clk + 2000)] })

/-- An allowance is lost as under R262: its units are lost and its home ends the entry, unless a GRANT to it is on its way,
counts it lost, and sets STATE DAMAGED. (DEDUCED, log 117.) -/
def State.strikeAllowance (s : State) (g r : Nat) : State :=
  match s.counter r with
  | none => s
  | some c =>
    let e := s.allowance g r
    if !e.held then s
    else
      let n := min 65535 (memNat s.mem (r + 6) 2 + 1)
      let granted := s.net.any (fun i => match i with
        | .decantGrant q h _ => q == r && h == g
        | _ => false)
      let s1 := s.setImage (r + 4) ([0x02, 0x00] ++ leBytes 2 n)
      if granted then s1.setAllowance g r { e with a := 0 }
      else
        let from_ := c.recallFrom.filter (· != g)
        let c1 : HomeCounter := { c with
          active := tdel c.active g, recallFrom := from_, mode := if c.mode == .recalling && from_.isEmpty then .direct else c.mode }
        let s2 := s1.setAllowance g r { e with held := false, a := 0 }
        (({ s2 with net := s2.net.filter (fun i => match i with
            | .decantRecall q h => !(q == r && h == g)
            | _ => true) } : State).modCounter r (fun _ => c1)).runHome r

/-- An error strikes (R403): each row's action, or the entry of a correction (R404). -/
def State.strike (s : State) : SoftError → State
  | .corrected record store unit addr => s.logDry record 0x01 store unit (Config.syndrome s.clk addr) addr
  | .linkRetry stack port n => if 16 < n then s.logDry (cdieRecord stack) 0x04 13 port n 0 else s
  | .reg w c => s.modWave w (Wave.strike c)
  | .latch w plane k => s.modWave w (Wave.strikeLatch plane k)
  | .scratch b a => s.strikeBlock b a (fun x => x.size) (fun x => { x with spoison := markGranule a x.spoison })
  | .lanePriv b k => s.strikeBlock b (k % 4096) (fun x => x.lanepriv) (fun x => { x with lpoison := markGranule k x.lpoison })
  | .stackScratch c y a => s.strikeStack c y a
  | .l1 core line => s.dropL1 line core
  | .codeLine core key => s.modCore core (fun c => { c with icache := tdel c.icache key })
  | .sharedCopy y line => (s.lineUnits line).foldl (fun (u : State) k =>
      if (u.partAt y k).any (fun p => !p.st.owns) then u.dropPart y k else u) s
  | .ownedCopy pa => s.strikeOwned pa
  | .weight b k => s.modBlock b (fun x => { x with slots := tmodify x.slots k (fun z => { z with poison := true }) })
  | .accum b a => s.modBlock b (fun x =>
      if a < x.accum && !x.accPoison.contains a then { x with accPoison := a :: x.accPoison } else x)
  | .queued core id => match tget? (s.core core).wq id with
    | some e => (s.dequeue core id).loseStore e
    | none => s
  | .directory line level unit => s.strikeDirectory (lineOf line) level unit
  | .location line => s.strikeDirectory (lineOf line) 6 0
  | .tag line => s.strikeHolders (lineOf line)
  | .object y n => s.strikeObject y n
  | .routing router region => s.strikeEntry router region
  | .allowance g r => s.strikeAllowance g r
  | .homeEntry r => s.decantBreak r
  | .dram line =>
    if isDram line && !s.dead.contains (homeDie line) then (s.logPoison (homeDie line) 11 0 8 (lineOf line)).poisonDram (lineOf line)
    else s

end Sys2Proof.Machine
end

