-- ==== Sys2Proof/Machine/Turn.lean ====
section
/-! DEFINITION. A turn of the machine: one wave comes up for issue, or one event happens, and time passes (R47, R50, R380).
Which turn comes next is the outside's to say while the agenda names one; without it, the machine takes its own. Also where
an instruction of the opcode table is placed so that the next step runs it. -/
namespace Sys2Proof.Machine

/-! Turns. -/

/-- A wave in handler mode that can issue comes before the other waves of its partition (R50). (DESIGN CHOICE, log 149.) -/
def State.handlerFirst (s : State) (w : Wave) : Bool :=
  !w.handler && s.waves.any (fun p =>
    p.2.handler && p.2.core = w.core && p.2.part = w.part && s.mayIssue p.2 && p.2.active && s.ready p.2)

/-- The wave may come up for issue: it is active, its context lets it issue, and no handler comes first. -/
def State.mayTurn (s : State) (wid : Nat) : Bool :=
  match tget? s.waves wid with
  | some w => w.active && s.mayIssue w && !s.handlerFirst w
  | none => false

/-- The port of its partition on which an opcode issues: 0 the S port, 1 the V port, 2 the M port (R109, R136, R186, R187,
R212, R247, R305, R374, R379). -/
def portOf (opc : Nat) : Nat := if inRanges [(0x40, 0x9B)] opc then 1 else if inRanges [(0xA0, 0xED)] opc then 2 else 0

/-- The port on which a wave's next instruction is ready to issue (R47). -/
def State.readyPort (s : State) (wid : Nat) : Option Nat :=
  if !s.mayTurn wid then none
  else match s.prepare wid with
    | .wait _ => none
    | .trap _ => some 0
    | .run i u => if interlocked i u then none else some (portOf i.opc)

/-- The key of a port of a partition. -/
def portKey (core part port : Nat) : Nat := (core * 8 + part) * 3 + port

/-- The waves of the active set of a partition in the order that follows a wave, which comes last. -/
def State.portOrder (s : State) (core part last : Nat) : List Nat :=
  let ws := tkeys (s.waves.filter (fun p => p.2.active && p.2.core = core && p.2.part = part))
  ws.filter (fun k => last < k) ++ ws.filter (fun k => k ≤ last)

/-- The wave that issues when a wave comes up: the first, in the round-robin order of the port on which its next instruction
is ready, that is ready on it (R47). -/
def State.chosen (s : State) (wid : Nat) : Nat :=
  match tget? s.waves wid, s.readyPort wid with
  | some w, some p =>
    match tget? s.portWave (portKey w.core w.part p) with
    | some last => (((s.portOrder w.core w.part last).takeWhile (fun k => k != wid)).find? (fun k => s.readyPort k == some p)).getD wid
    | none => wid
  | _, _ => wid

/-- A wave has issued on a port of its partition. -/
def State.noteIssue (s : State) (wid port : Nat) : State :=
  let w := tgetD s.waves wid {}
  { s with lastWave := wid, portWave := tset s.portWave (portKey w.core w.part port) wid }

/-- The next instruction of a wave is fetched and checked, and run if it can be. -/
def State.runWave (s : State) (wid : Nat) : Host.Outcome State Fault Refusal :=
  match s.prepare wid with
  | .wait u => .next u
  | .trap u => .next (u.noteIssue wid 0)
  | .run i u => if interlocked i u then .next u else exec i (u.noteIssue wid (portOf i.opc))

/-- A wave comes up: the wave that its port chooses issues. -/
def State.issueWave (s : State) (wid : Nat) : Host.Outcome State Fault Refusal :=
  if !s.mayTurn wid then .next s else s.runWave (s.chosen wid)

/-- A turn of upkeep. -/
def State.runUpkeep (s : State) : Upkeep → Host.Outcome State Fault Refusal
  | .rewrite e => execRouteRewrite e s
  | .powerDown e => execRetirePowerDown e s
  | .resetStep d => execWarmResetStepDone d s
  | .rebuilt d => execRebuildDone d s
  | .resend x home => execRetransmitTimeout x home s
  | .entry router region =>
    .next (s.modFabric (fun f => { f with badEntries := f.badEntries.filter (fun p => p.1 != (router, region)) }))

/-- What a turn does. -/
def State.runTurn (s : State) : Turn → Host.Outcome State Fault Refusal
  | .wave w _ => s.issueWave w
  | .event i _ => if i.operands.isNone then exec i s else .next s
  | .upkeep u _ => s.runUpkeep u
  | .save c _ => .next (s.saveTurn c)
  | .strike e _ => .next (s.strike e)
  | .engine e _ => .next (s.engineStep e)
  | .idle _ => .next s

/-- The clk that a turn takes. (DESIGN CHOICE, log 6.) -/
def turnClk : Turn → Nat
  | .wave _ dt => dt + 1
  | .event _ dt => dt + 1
  | .upkeep _ dt => dt + 1
  | .save _ dt => dt + 1
  | .strike _ dt => dt + 1
  | .engine _ dt => dt + 1
  | .idle dt => dt + 1

/-- A turn of at most `n` clk, and the time that it leaves. -/
def Turn.upTo (n : Nat) : Turn → Turn × Option Turn
  | .wave w dt => if n < dt + 1 then (.wave w (n - 1), some (.idle (dt - n))) else (.wave w dt, none)
  | .event i dt => if n < dt + 1 then (.event i (n - 1), some (.idle (dt - n))) else (.event i dt, none)
  | .upkeep u dt => if n < dt + 1 then (.upkeep u (n - 1), some (.idle (dt - n))) else (.upkeep u dt, none)
  | .save c dt => if n < dt + 1 then (.save c (n - 1), some (.idle (dt - n))) else (.save c dt, none)
  | .strike e dt => if n < dt + 1 then (.strike e (n - 1), some (.idle (dt - n))) else (.strike e dt, none)
  | .engine e dt => if n < dt + 1 then (.engine e (n - 1), some (.idle (dt - n))) else (.engine e dt, none)
  | .idle dt => if n < dt + 1 then (.idle (n - 1), some (.idle (dt - n))) else (.idle dt, none)

/-- A split that issued from a wait still stands in it, or has gone into one in which its access is only held back. -/
def Split.heldBack (was : Split) (sp : Split) : Bool :=
  match sp.wait with
  | none => false
  | some .retry => true
  | some .held => true
  | some .loads => true
  | some _ => was.wait.isSome && was.pos == sp.pos && was.begun == sp.begun

/-- The next instruction of a wave can issue, namely a line of its code is to be fetched, or it neither waits for a load's data
nor is held back (R343); and the messages in flight once its access has asked for what it lacks. -/
def State.canRun (s : State) (wid : Nat) : Bool × List Instr :=
  match s.prepare wid with
  | .wait u => let w := tgetD u.waves wid {}; (w.rotateDue || (u.pickSlot w).isSome, s.net)
  | .trap _ => (true, s.net)
  | .run i u => if interlocked i u then (false, s.net) else match exec i u with
    | .next t =>
      if (tget? (tgetD t.waves wid {}).splits (tgetD u.waves wid {}).issuing).any ((tgetD u.waves wid {}).split).heldBack then
        (false, t.net)
      else (true, s.net)
    | _ => (true, s.net)

/-- A pending wave is ready, or not yet, with what its access asks for meanwhile (R51). -/
def State.ageWave (s : State) (wid : Nat) : State :=
  let r := s.canRun wid
  ({ s with net := r.2 } : State).modWave wid (fun w => if r.1 then { w with ready := true } else { w with ready := false, readyAt := s.clk })

/-- The age of a pending wave counts from the moment it becomes ready (R343): while no split of it can issue, that moment has
not come. (DEDUCED, log 66.) -/
def State.ageReady (s : State) : State := (tkeys (s.waves.filter (fun x => !x.2.active))).foldl State.ageWave s

/-- The end of a turn: a management frame that waited goes on, queues whose head has failed and slices with operations that wait go on, what engines no longer use is gone, retirements see whether their
element is quiet (R394), time passes, and the pending waves' ages follow (R343). -/
def State.afterTurn (s : State) (dt : Nat) : State :=
  let u := s.continueJob.settleFailed.reap.watchLeaving.dropOrigins.pumpAll.settleDram
  ({ u.askFences with clk := u.clk + dt } : State).ageReady

/-! The machine's own turns. -/

/-- What may happen in a wave. -/
def waveTurns (p : Nat × Wave) : List Instr :=
  (tkeys p.2.loads).map (fun l => .loadDataReturn p.1 l) ++
    [.waitaPeriodicWake p.1, .drainComplete p.1, .invalidationComplete p.1, .splitRotation p.1, .handlerPreemptTimeout p.1, .waveEnd p.1]

/-- What may happen in a core. -/
def coreTurns (p : Nat × Core) : List Instr :=
  (tkeys p.2.wq).map (fun i => .wr p.1 i) ++ [.mmaExecute p.1, .mmzExecute p.1, .mmdExecute p.1, .wloadExecute p.1, .rebase true p.1]

/-- What may happen in a block. -/
def blockTurns (p : Nat × Block) : List Instr := (tkeys p.2.windows).flatMap (fun w => [.copyComplete p.1 w, .copyAbandon p.1 w])

/-- What may happen in a cluster and its slice. -/
def clusterTurns (p : Nat × Cluster) : List Instr :=
  [.gatherComplete p.1, .gatherAbandon p.1, .rebase false p.1] ++
    (tkeys p.2.bins).flatMap (fun k => [.spawnBinTimer p.1 k, .spawnWaveStart p.1 k])

/-- The exchanges of a partition's active and pending waves. -/
def State.exchanges (s : State) : List Instr :=
  (s.waves.filter (fun a => a.2.active)).flatMap (fun a =>
    (s.waves.filter (fun b => !b.2.active && b.2.core = a.2.core && b.2.part = a.2.part)).map (fun b => .waveExchange a.1 b.1))

/-- The rounds of retransmission that send a lost packet again (R396). -/
def State.resends (s : State) : Instr → List Upkeep
  | .wr c i => ((tget? (s.core c).wq i).map (fun e => Upkeep.resend c (homeSlice e.pa))).toList
  | .loadDataReturn w l =>
    let v := tgetD s.waves w {}
    ((tgetD v.loads l {}).lanes.map (fun x => homeSlice x.pa)).eraseDups.map (fun h => Upkeep.resend (v.core + 2048) h)
  | i => ((s.messageLane i).map (fun l => Upkeep.resend (laneSource l) (l.2.2 % 256))).toList

/-- What may happen of itself. -/
def State.ownEvents (s : State) : List Instr :=
  s.net ++ s.waiting ++ s.waves.flatMap waveTurns ++ s.exchanges ++ s.cores.flatMap coreTurns ++ s.blocks.flatMap blockTurns ++
    s.clusters.flatMap clusterTurns ++
    s.ctxs.flatMap (fun p => (tkeys p.2.queues).flatMap (fun q => [.waitWordPoll p.1 q, .queueReserving p.1 q])) ++
    (tkeys s.launches).map (fun l => .launchDrain l)

/-- The rounds of retransmission that are due once their clk has come: of what a failed element has dropped, and of what it holds at a
router (R396). -/
def State.allResends (s : State) : List Upkeep :=
  (s.fabric.lost.flatMap (fun p => s.resends p.1) ++
    (if s.fabric.whole then [] else (s.packets.filter (fun i => (s.packetPath i).any s.fabric.isDown)).flatMap s.resends)).eraseDups

/-- The upkeep that may be due. -/
def State.ownUpkeep (s : State) : List Upkeep :=
  (tkeys s.resets).map (fun d => .resetStep d) ++ (tkeys s.rebuilding).map (fun d => .rebuilt d) ++
    s.fabric.leaving.map (fun l => .powerDown l.element) ++ s.fabric.rewriteBy.map (fun p => .rewrite p.1) ++
    s.fabric.badEntries.map (fun p => .entry p.1.1 p.1.2) ++ s.allResends

/-- The waves that can issue, in the order that follows the wave that issued last (R47). -/
def State.issueOrder (s : State) : List Nat :=
  let ws := tkeys (s.waves.filter (fun p => s.mayTurn p.1 && s.ready p.2))
  ws.filter (fun k => s.lastWave < k) ++ ws.filter (fun k => k ≤ s.lastWave)

/-- The turn that the machine takes of itself: on an even clk a wave, on an odd one an event or a save, each in its turn. -/
def State.ownTurn (s : State) : Turn :=
  let es : List Turn := s.ownEvents.map (fun i => .event i 0) ++ s.ownUpkeep.map (fun u => .upkeep u 0) ++
    (tkeys s.ctxs).map (fun c => .save c 0)
  let e : Turn := es.getD (s.clk / 2 % max 1 es.length) (.idle 0)
  match s.issueOrder with
  | w :: _ => if s.clk % 2 = 0 then .wave w 0 else e
  | [] => e

/-! What the spec gives a bound in time happens by then, whatever the agenda names. -/

/-- The clk at which a spawn bin launches (R52, R345), and what starts its wave. -/
def State.binDeadlines (s : State) : List (Nat × List Turn) :=
  s.clusters.flatMap (fun g => (g.2.bins.filter (fun b => !b.2.threads.isEmpty)).map (fun b =>
    (s.nd.bootClk + (3 * b.2.deadline + 1) / 2, [.event (.spawnBinTimer g.1 b.1) 0, .event (.spawnWaveStart g.1 b.1) 0])))

/-- A message of coherence or of a publication. -/
def coherent : Instr → Bool
  | .fpub _ _ _ _ | .fack _ _ _ _ | .pack _ _ _ => true
  | i => (messageUnit i).isSome

/-- The turns that bring queued writes to their performance. -/
def State.writeTurns (s : State) : List Turn :=
  let ws : List Instr := s.cores.flatMap (fun c => (tkeys c.2.wq).map (fun i => Instr.wr c.1 i))
  ((s.net ++ s.waiting).filter coherent ++ ws).map (fun i => .event i 0)

/-- The clk by which a queued write is performed, 64 ticks of its cluster after it entered (R314), and what brings it there. -/
def State.writeDeadlines (s : State) : List (Nat × List Turn) :=
  s.cores.flatMap (fun c => c.2.wq.map (fun e =>
    (e.2.entered + 65536 / max 1 (s.cluster (clusterOf c.1)).step, .event (.wr c.1 e.1) 0 :: s.writeTurns)))

/-- The clk by which a stalled wave and a ready pending one are exchanged: 4 clk after the one has stood stalled for 16 and the
other is ready (R48, R343). -/
def State.exchangeDeadlines (s : State) : List (Nat × List Turn) :=
  (s.waves.filter (fun a => a.2.active && s.waves.any (fun b => !b.2.active && b.2.core = a.2.core && b.2.part = a.2.part))).flatMap (fun a =>
    (s.waves.filter (fun b => s.pendingReady b.2 && b.2.core = a.2.core && b.2.part = a.2.part)).map (fun b =>
      (max ((tvals a.2.splits).foldl (fun m sp => max m sp.since) 0 + 16) b.2.readyAt + 4, [.event (.waveExchange a.1 b.1) 0])))

/-- The clk by which entries are rewritten round a failed element (R395), and at which what was lost or is held is sent again (R396). -/
def State.fabricDeadlines (s : State) : List (Nat × List Turn) :=
  s.fabric.rewriteBy.map (fun p => (p.2, [.upkeep (.rewrite p.1) 0])) ++
    s.fabric.badEntries.map (fun p => (p.2, [.upkeep (.entry p.1.1 p.1.2) 0])) ++
    s.allResends.filterMap (fun u => match u with
      | .resend x home => (s.resendAt x home).map (fun t => (t, [.upkeep u 0]))
      | _ => none)

/-- The clk by which the wait words of a head launch are read again, 2 µs after they were last (R338), and what brings it there. -/
def State.pollDeadlines (s : State) : List (Nat × List Turn) :=
  s.ctxs.flatMap (fun c => (c.2.queues.filter (fun q => q.2.pending.head?.any (fun k => !(s.launch k).ready && !(s.launch k).failed))).map (fun q =>
    (q.2.polled + 3000, .event (.waitWordPoll c.1 q.1) 0 :: s.writeTurns)))

/-- The deadlines, each with the turns that meet it. (DEDUCED, log 125.) -/
def State.deadlines (s : State) : List (Nat × List Turn) :=
  s.pollDeadlines ++ s.binDeadlines ++ s.writeDeadlines ++ s.exchangeDeadlines ++ s.fabricDeadlines

/-- A turn that changes anything. -/
def State.acts (s : State) (t : Turn) : Bool :=
  match s.runTurn t with
  | .next u => u != s
  | _ => false

/-- A turn that is overdue: what stands in its way, an exception of R314, ends first. -/
def State.overdue (s : State) : Option Turn :=
  ((s.deadlines.filter (fun d => d.1 ≤ s.clk)).flatMap Prod.snd).find? s.acts

/-- The clk until the next deadline. -/
def State.slack (s : State) : Option Nat :=
  (s.deadlines.filter (fun d => s.clk < d.1)).foldl (fun m d => some (match m with
    | some n => min n (d.1 - s.clk)
    | none => d.1 - s.clk)) none

/-- The turn that the agenda names next, else the machine's own, and what is left of the agenda. -/
def State.freeTurn (s : State) : Turn × List Turn :=
  match s.agenda with
  | t :: ts => (t, ts)
  | [] => (s.ownTurn, [])

/-- The turn that comes next, the clk that it takes and what is left of the agenda: an overdue one first, which takes none, so that
what it belongs to is met; no other passes a deadline. -/
def State.nextTurn (s : State) : Turn × Nat × List Turn :=
  match s.overdue, s.slack with
  | some t, _ => (t, 0, s.agenda)
  | none, none => (s.freeTurn.1, turnClk s.freeTurn.1, s.freeTurn.2)
  | none, some n =>
    let r := s.freeTurn.1.upTo n
    (r.1, turnClk r.1, r.2.toList ++ s.freeTurn.2)

/-- One turn. -/
def State.turn (s : State) : Host.Outcome State Fault Refusal :=
  let (t, dt, rest) := s.nextTurn
  match ({ s with agenda := rest } : State).runTurn t with
  | .next u => .next (u.afterTurn dt)
  | .fault f => .fault f
  | .refused r => .refused r

/-! Placing one instruction (the words of the opcode table). -/

/-- The virtual address at which the instruction is placed. -/
def placeVa : Dword := 0x10000

/-- The role that may issue an opcode. -/
def placeRole (opc : Nat) : Role :=
  if roleAllows .v true opc then .v else if roleAllows .c true opc then .c else .x

/-- A code object with one image of 128 bytes at the place. -/
def placeObject : CodeObj := { images := [{ base := placeVa, size := 128 }] }

/-- A leaf entry with R, W and X for the 64 KiB of DRAM from 0x10000 of die 0. -/
def placeLeaf : Dword := 0x1001F

/-- A block with a full set of accumulator tiles and 64 KiB of scratchpad. -/
def placeBlock (launch wave : Nat) : Block := { launch := launch, size := 65536, accum := 8, waves := [wave] }

/-- A wave that stands at the place, all 32 lanes in one split. -/
def placeWave (launch block opc : Nat) : Wave :=
  { launch := some launch, block := some block, role := placeRole opc, nvregs := 128,
    handler := inRanges [(0xF0, 0xFF)] opc, splits := [(0, { pos := placeVa, mask := BitVec.allOnes 32 })] }

/-- A code line of a core's instruction cache, with its translation. -/
def Core.withCode (bs : List Byte) (c : Core) : Core :=
  { c with
    icache := tset c.icache (codeKeyOf 0 placeVa) bs, tlb := tset c.tlb (cacheKey 0 placeVa 65536) ⟨65536, placeLeaf⟩ }

/-- An instruction of `bs` bytes stands in the instruction cache of core 0, and the next turn is that of a wave of context 0 that
stands at it. (DESIGN CHOICE, log 4.) -/
def State.place (s : State) (opc : Nat) (bs : List Byte) : State :=
  let w := s.nextWave
  let b := s.nextBlock
  let l := s.nextLaunch
  let c := s.ctx 0
  let line := bs ++ List.replicate (128 - bs.length) 0
  { (s.modCore 0 (Core.withCode line)).modCluster 0 (fun x => { x with owner := some 0 }) with
    ctxs := tset s.ctxs 0 { c with clusters := if c.clusters.contains 0 then c.clusters else 0 :: c.clusters, objs := tset c.objs 0 placeObject },
    launches := tset s.launches l {}, nextLaunch := l + 1, blocks := tset s.blocks b (placeBlock l w), nextBlock := b + 1,
    waves := tset s.waves w (placeWave l b opc), nextWave := w + 1, agenda := .wave w 0 :: s.agenda }

end Sys2Proof.Machine
end

