-- ==== Sys2Proof/Machine/Step.lean ====
section
/-! DEFINITION. One step of the package, and the placing of an instruction where the next step fetches it. -/
namespace Sys2Proof.Machine

/-- One step: the turn that comes next. -/
def step (s : State) : Host.Outcome State Fault Refusal := s.turn

/-- The state with an instruction of the opcode table where the next step fetches it (bits numbered as the table numbers
them, those above `nbits` zero). -/
def State.withFetchWord (s : State) (nbits w : Nat) : State :=
  let v := w % 2 ^ nbits
  s.place (v / 2 ^ 24 % 256) (leBytes 8 v)

end Sys2Proof.Machine
end

