-- ==== Sys2Proof/Safety.lean ====
section
/-! DEFINITION. The terms in which claims are stated: the form of memory that every step keeps, when a wave instruction has
its own effect, and what an instruction of a wave leaves unchanged. -/
namespace Sys2Proof.Machine

/-- DRAM stands in its canonical form: rising addresses, no entry for a zero byte. -/
def State.memCanonical (s : State) : Prop := Memory.wf s.mem = true

/-- The wave named by `State.issue` is resident, no load in flight holds an operand of the instruction, no deferred cause is
due at it, the checks of R90 before issue pass, it reads no word with an uncorrectable error (R407), and the wave has not ended: the
instruction has its own effect. -/
def State.issues (s : State) (i : Instr) : Prop :=
  s.waveAlive = true ∧ interlocked i s = false ∧ dueCause i s = none ∧ preIssue i s = none ∧ struckCause i s = none ∧ s.curWave.ended = false

/-- The state in which an instruction has its effect: the wave's next instruction is no longer the one at which it resumed. -/
def State.begun (s : State) : State := s.modCur (fun w => { w with resumed := false })

/-- Nothing but the wave that issues has changed: all memory, every scratchpad, cache, queue and control register, and every
other wave stand as before. -/
def State.onlyCur (s t : State) : Prop :=
  ({ t with waves := s.waves } : State) = s ∧ ∀ k, k ≠ s.issue.wave → tget? t.waves k = tget? s.waves k

/-- The issuing split has moved past its copy (R37), and nothing else of the splits has changed. -/
def State.splitsOn (s t : State) : Prop :=
  t.curWave.splits = tmodify s.curWave.splits s.curWave.issuing (Split.advance s.issue.len)

/-- The latch of a plane's set after a result: every set that the instruction names moves on by one place, with the result
in place 0 (R22, R41). -/
def Wave.latchAfter (w : Wave) (planes : List Nat) (v : LatchVal) (p k : Nat) : LatchVal :=
  if planes.contains p then (if k = 0 then v else w.latch p (k - 1)) else w.latch p k

/-- The latches after an instruction with a result: the moved sets, or all lost in Bintodal code (R22, R95). -/
def State.latchesTake (s t : State) (v : LatchVal) : Prop :=
  match s.issue.form with
  | .quadiner => ∀ p k, k < 8 → t.curWave.latch p k = s.curWave.latchAfter s.latchPlanes v p k
  | .bintodal => ∀ p k, t.curWave.latch p k = .lost

/-- The latches after an instruction without a result: as before, or all lost in Bintodal code. -/
def State.latchesKept (s t : State) : Prop :=
  match s.issue.form with
  | .quadiner => t.curWave.latches = s.curWave.latches
  | .bintodal => ∀ p k, t.curWave.latch p k = .lost

/-- An instruction whose one result is the value `v` of scalar destination `d` has had its effect, and no other (R110): with
no lane in active(w) the register keeps its value, and the latch takes it. -/
def State.scalarDone (s t : State) (d : SDst) (v : Dword) : Prop :=
  s.onlyCur t ∧ s.splitsOn t ∧ t.curWave.resumed = false ∧
  ({ t.curWave with sregs := s.curWave.sregs, struck := s.curWave.struck, latches := s.curWave.latches, splits := s.curWave.splits, resumed := s.curWave.resumed } : Wave)
    = s.curWave ∧
  t.curWave.struck = (match sdstReg d with
    | some r => if s.activeMask ≠ 0 then mendS r s.curWave.struck else s.curWave.struck
    | none => s.curWave.struck) ∧
  (∀ r, t.curWave.sreg r = if s.activeMask ≠ 0 ∧ sdstReg d = some r then v else s.curWave.sreg r) ∧
  s.latchesTake t (.scalar (if s.activeMask ≠ 0 then v else match d with | .reg r => s.curWave.sreg r.val | .nw => 0))

/-- The lane word that a vector result `f` in the lanes of `m` leaves in lane `l` of register `r` (R17, R22). -/
def Wave.vregAfter (w : Wave) (m : LaneMask) (d : VDst) (wide : Bool) (f : Nat → Dword) (r l : Nat) : Word :=
  match d with
  | .nw => w.vreg r l
  | .reg q =>
    if m.getLsbD l && r == q.val then (f l).setWidth 32
    else if m.getLsbD l && wide && r == q.val + 1 then (f l).extractLsb' 32 32
    else w.vreg r l

/-- An instruction whose one result is the value `f l` of vector destination `d` in each lane `l` of `m` has had its effect,
and no other: registers outside `d` and lanes outside `m` stand as before (R22, R23). -/
def State.vectorDone (s t : State) (m : LaneMask) (d : VDst) (wide : Bool) (f : Nat → Dword) : Prop :=
  s.onlyCur t ∧ s.splitsOn t ∧ t.curWave.resumed = false ∧
  ({ t.curWave with vregs := s.curWave.vregs, struck := s.curWave.struck, latches := s.curWave.latches, splits := s.curWave.splits, resumed := s.curWave.resumed } : Wave)
    = s.curWave ∧
  t.curWave.struck = (match d with | .reg q => mendV wide q.val m s.curWave.struck | .nw => s.curWave.struck) ∧
  (∀ r l, l < 32 → t.curWave.vreg r l = s.curWave.vregAfter m d wide f r l) ∧
  s.latchesTake t (.vec wide ((List.range 32).map (fun l => match d with
    | .reg q => t.curWave.vlane wide q.val l
    | .nw => if m.getLsbD l then f l else 0)))

/-- An instruction whose one result is the predicate `v` in the lanes of active(w) has had its effect, and no other; p0 keeps
reading 1 (R19), and with no active lane nothing is written (R153). -/
def State.predDone (s t : State) (d : Fin 8) (v : LaneMask) : Prop :=
  s.onlyCur t ∧ s.splitsOn t ∧ t.curWave.resumed = false ∧ s.latchesKept t ∧
  ({ t.curWave with preds := s.curWave.preds, struck := s.curWave.struck, latches := s.curWave.latches, splits := s.curWave.splits, resumed := s.curWave.resumed } : Wave)
    = s.curWave ∧
  t.curWave.struck = (if d.val = 0 ∨ s.activeMask = 0 then s.curWave.struck else mendP d.val s.curWave.struck) ∧
  ∀ p, t.curWave.pred p =
    if p = d.val ∧ p ≠ 0 then (s.curWave.pred p &&& ~~~s.activeMask) ||| (v &&& s.activeMask) else s.curWave.pred p

/-- An instruction without a result has made the change `f` of the wave, has moved on, and has changed nothing else. -/
def State.effectDone (s t : State) (f : Wave → Wave) : Prop :=
  s.onlyCur t ∧ s.splitsOn t ∧ t.curWave.resumed = false ∧ s.latchesKept t ∧
  ({ t.curWave with latches := s.curWave.latches, splits := s.curWave.splits, resumed := s.curWave.resumed } : Wave) = f s.curWave

/-- Lane `l` of a wave stands at a position: in a live split there, or in a deferred entry (R26, R34). -/
def Wave.stands (w : Wave) (l : Nat) (pos : Dword) : Prop :=
  (∃ k sp, tget? w.splits k = some sp ∧ sp.mask.getLsbD l = true ∧ sp.pos = pos) ∨
    ∃ d ∈ w.deferred, d.mask.getLsbD l = true ∧ d.pos = pos

/-- The fields of a wave that no control transfer, wait or exit changes: everything but scalar registers, their errors and latches, the
splits, the deferred list and its count, retired lanes, and the marks of the wave's end. -/
def Wave.keptBy (w v : Wave) : Prop :=
  ({ v with sregs := w.sregs, struck := w.struck, latches := w.latches, splits := w.splits, issuing := w.issuing, deferred := w.deferred, passes := w.passes,
            passSlot := w.passSlot, retired := w.retired, resumed := w.resumed, ended := w.ended, failed := w.failed } : Wave) = w

end Sys2Proof.Machine
end

