-- ==== Sys2Proof/Certificates/Slice0/Obligations.lean ====
section
/-! DEFINITION. The statements for the provers: what the instructions and events of the package do, rule by rule, and what every
step keeps. The tables of results come first in each part, and the statements after them. -/

namespace Sys2Proof.Claims
open Sys2Proof.Machine

/-! Results of scalar, vector and predicate instructions, row by row. -/

/-- An exact integer result fitted to MODE.ETYPE, saturating where the row says so, and extended to 64 bits (R113). -/
def fitted (s : State) (saturates : Bool) (r : Int) : Dword := extend64 s.etype (fitInt s.etype (saturates && s.sat) r)

/-- The rows of R114: destination and value, x and y being the operands as integers of MODE.ETYPE. -/
def scalarRow (s : State) : Instr → Option (SDst × Dword)
  | .adds d a b => some (d, fitted s true (s.scalarInt a + s.scalarInt b))
  | .subs d a b => some (d, fitted s true (s.scalarInt a - s.scalarInt b))
  | .muls d a b => some (d, fitted s true (s.scalarInt a * s.scalarInt b))
  | .mulhs d a b => some (d, fitted s false (s.scalarInt a * s.scalarInt b / 2 ^ etWidth s.etype))
  | .divs d a b => some (d, fitted s false (divInt s.etype s.sat (s.scalarInt a) (s.scalarInt b)))
  | .rems d a b => some (d, fitted s false (remInt (s.scalarInt a) (s.scalarInt b)))
  | .ands d a b => some (d, fitted s false (bitAnd s.etype (s.scalarInt a) (s.scalarInt b)))
  | .ors d a b => some (d, fitted s false (bitOr s.etype (s.scalarInt a) (s.scalarInt b)))
  | .xors d a b => some (d, fitted s false (bitXor s.etype (s.scalarInt a) (s.scalarInt b)))
  | .andns d a b => some (d, fitted s false (bitAndNot s.etype (s.scalarInt a) (s.scalarInt b)))
  | .shls d a b => some (d, fitted s false (shiftLeft s.etype (s.scalarInt a) (s.scalarInt b)))
  | .shrs d a b => some (d, fitted s false (shiftRight s.etype (s.scalarInt a) (s.scalarInt b)))
  | .sras d a b => some (d, fitted s false (shiftArith s.etype (s.scalarInt a) (s.scalarInt b)))
  | .rols d a b => some (d, fitted s false (rotateLeft s.etype (s.scalarInt a) (s.scalarInt b)))
  | .mins d a b => some (d, fitted s false (min (s.scalarInt a) (s.scalarInt b)))
  | .maxs d a b => some (d, fitted s false (max (s.scalarInt a) (s.scalarInt b)))
  | .movs d a => some (d, fitted s false (s.scalarInt a))
  | .nots d a => some (d, fitted s false (bitNot s.etype (s.scalarInt a)))
  | .negs d a => some (d, fitted s true (-s.scalarInt a))
  | .clzs d a => some (d, fitted s false (clzBits (etWidth s.etype) (bitsOf s.etype (s.scalarInt a)) : Nat))
  | .popcs d a => some (d, fitted s false (popBits (etWidth s.etype) (bitsOf s.etype (s.scalarInt a)) : Nat))
  | .seqs d a b => some (d, fitted s false (if s.scalarInt a = s.scalarInt b then 1 else 0))
  | .snes d a b => some (d, fitted s false (if s.scalarInt a = s.scalarInt b then 0 else 1))
  | .slts d a b => some (d, fitted s false (if s.scalarInt a < s.scalarInt b then 1 else 0))
  | .sles d a b => some (d, fitted s false (if s.scalarInt a ≤ s.scalarInt b then 1 else 0))
  | .leas d a b => some (d, s.readS64 a + s.readS64 b * BitVec.ofNat 64 (etWidth s.etype / 8))
  | .bfxs d a b => some (d, fitted s false (bitField s.etype (s.scalarInt a) (s.readS64 b).toNat))
  | _ => none

/-- The exact running sum, minimum or the like of element 0 of the lanes of active(w), or the value rounded at each step under
a floating type (R154). -/
def laneTotal (s : State) (a : VSrc) (saturates : Bool) (gi : EType → Int → Int → Int) (gf : RMode → FVal → FVal → FVal) : Dword :=
  match etFmt s.etype with
  | some f => BitVec.ofNat 64 (reduceFloat f s.rmode gf (s.activeMask.lanes.map (fun l => elemOf s.etype (s.readV s.etype a l) 0)))
  | none => fitted s saturates (reduceInt (gi s.etype) (s.activeMask.lanes.map (fun l => s.vInt s.etype a l 0)))

/-- Scalar results that are read from the wave's other state: masks, MODE, control registers, lanes (R115, R118, R131, R153 to
R155). -/
def scalarReadRow (s : State) : Instr → Option (SDst × Dword)
  | .getm d => some (d, s.curSplit.offMode.setWidth 64)
  | .crrd d b => some (d, s.creg b)
  | .ptos d a => some (d, (s.curWave.psel a &&& s.activeMask).setWidth 64)
  | .maskrd d => some (d, s.issue.lanes.setWidth 64)
  | .ballot d a => some (d, (s.curWave.psel a &&& s.activeMask).setWidth 64)
  | .firstl d => some (d, BitVec.ofNat 64 (s.activeMask.lanes.headD 0))
  | .movvs d a b => some (d, elemToS (wordType s.etype) (elemOf (wordType s.etype) (s.readV s.etype a ((s.readS64 b).toNat % 32)) 0))
  | .redaddv d a => some (d, laneTotal s a true (fun _ x y => x + y) fAdd)
  | .redminv d a => some (d, laneTotal s a false (fun _ x y => min x y) (fun _ x y => fMin x y))
  | .redmaxv d a => some (d, laneTotal s a false (fun _ x y => max x y) (fun _ x y => fMax x y))
  | .redandv d a => some (d, laneTotal s a false bitAnd (fun _ x _ => x))
  | .redorv d a => some (d, laneTotal s a false bitOr (fun _ x _ => x))
  | _ => none

/-- A vector result: the lanes written, the destination, whether it is a pair, and the value of each lane. -/
structure VRow where
  lanes : LaneMask
  dst : VDst
  wide : Bool
  value : Nat → Dword

/-- An element-wise result in active(w): an integer of MODE.ETYPE fitted, or a floating value rounded once (R139 to R141). -/
def elemRow (s : State) (d : VDst) (saturates : Bool) (fi : Nat → Nat → Int) (ff : FFmt → Nat → Nat → FVal × Bool) : VRow :=
  ⟨s.activeMask, d, etIs64 s.etype, fun l => packElems s.etype (fun e => match etFmt s.etype with
    | some f => fEncode f s.rmode false (ff f l e).1 (ff f l e).2
    | none => fitInt s.etype (saturates && s.sat) (fi l e))⟩

/-- The element-wise rows over the exact operands x and y (R139, R140 and R141). -/
def elementRow (s : State) (i : Instr) : Option VRow :=
  let x (a : VSrc) (l e : Nat) : Int := s.vInt s.etype a l e
  let v (f : FFmt) (a : VSrc) (l e : Nat) : FVal := s.vFloat s.etype f a l e
  let n : Nat := etWidth s.etype
  match i with
  | .addv d a b => some (elemRow s d true (fun l e => x a l e + x b l e) (fun f l e => (fAdd s.rmode (v f a l e) (v f b l e), false)))
  | .subv d a b => some (elemRow s d true (fun l e => x a l e - x b l e) (fun f l e => (fAdd s.rmode (v f a l e) (fNeg (v f b l e)), false)))
  | .mulv d a b => some (elemRow s d true (fun l e => x a l e * x b l e) (fun f l e => (fMul (v f a l e) (v f b l e), false)))
  | .divv d a b => some (elemRow s d false (fun l e => divInt s.etype s.sat (x a l e) (x b l e)) (fun f l e => fDiv (v f a l e) (v f b l e)))
  | .minv d a b => some (elemRow s d false (fun l e => min (x a l e) (x b l e)) (fun f l e => (fMin (v f a l e) (v f b l e), false)))
  | .maxv d a b => some (elemRow s d false (fun l e => max (x a l e) (x b l e)) (fun f l e => (fMax (v f a l e) (v f b l e), false)))
  | .absv d a => some (elemRow s d true (fun l e => |x a l e|) (fun f l e => ((v f a l e).withSign false, false)))
  | .negv d a => some (elemRow s d true (fun l e => -x a l e) (fun f l e => (fNeg (v f a l e), false)))
  | .madv d a b => some (elemRow s (.reg d) true (fun l e => x (.reg d) l e + x a l e * x b l e)
      (fun f l e => (fAdd s.rmode (fMul (v f a l e) (v f b l e)) (v f (.reg d) l e), false)))
  | .msubv d a b => some (elemRow s (.reg d) true (fun l e => x (.reg d) l e - x a l e * x b l e)
      (fun f l e => (fAdd s.rmode (fNeg (fMul (v f a l e) (v f b l e))) (v f (.reg d) l e), false)))
  | .sqrtv d a => some (elemRow s d false (fun l e => x a l e) (fun f l e => fSqrt (v f a l e)))
  | .rcpv d a => some (elemRow s d false (fun l e => x a l e) (fun f l e => (approxF32 (fRcp (v f a l e)), false)))
  | .rsqv d a => some (elemRow s d false (fun l e => x a l e) (fun f l e => (approxF32 (fRsq (v f a l e)), false)))
  | .exp2v d a => some (elemRow s d false (fun l e => x a l e) (fun f l e => (approxF32 (fExp2 (v f a l e)), false)))
  | .log2v d a => some (elemRow s d false (fun l e => x a l e) (fun f l e => (approxF32 (fLog2 (v f a l e)), false)))
  | .sinv d a => some (elemRow s d false (fun l e => x a l e) (fun f l e => (approxF32 (fSin (v f a l e)), false)))
  | .cosv d a => some (elemRow s d false (fun l e => x a l e) (fun f l e => (approxF32 (fCos (v f a l e)), false)))
  | .tanhv d a => some (elemRow s d false (fun l e => x a l e) (fun f l e => (approxF32 (fTanh (v f a l e)), false)))
  | .floorv d a => some (elemRow s d false (fun l e => x a l e) (fun f l e => (fIntegral .rdn (v f a l e), false)))
  | .ceilv d a => some (elemRow s d false (fun l e => x a l e) (fun f l e => (fIntegral .rup (v f a l e), false)))
  | .truncv d a => some (elemRow s d false (fun l e => x a l e) (fun f l e => (fIntegral .rtz (v f a l e), false)))
  | .rintv d a => some (elemRow s d false (fun l e => x a l e) (fun f l e => (fIntegral s.rmode (v f a l e), false)))
  | .fracv d a => some (elemRow s d false (fun l e => x a l e)
      (fun f l e => (fAdd s.rmode (v f a l e) (fNeg (fIntegral .rdn (v f a l e))), false)))
  | .mulhv d a b => some (elemRow s d false (fun l e => x a l e * x b l e / 2 ^ n) (fun f l e => (v f a l e, false)))
  | .remv d a b => some (elemRow s d false (fun l e => remInt (x a l e) (x b l e)) (fun f l e => (v f a l e, false)))
  | .shlv d a b => some (elemRow s d false (fun l e => shiftLeft s.etype (x a l e) (x b l e)) (fun f l e => (v f a l e, false)))
  | .shrv d a b => some (elemRow s d false (fun l e => shiftRight s.etype (x a l e) (x b l e)) (fun f l e => (v f a l e, false)))
  | .srav d a b => some (elemRow s d false (fun l e => shiftArith s.etype (x a l e) (x b l e)) (fun f l e => (v f a l e, false)))
  | .rolv d a b => some (elemRow s d false (fun l e => rotateLeft s.etype (x a l e) (x b l e)) (fun f l e => (v f a l e, false)))
  | .clzv d a => some (elemRow s d false (fun l e => (clzBits n (bitsOf s.etype (x a l e)) : Nat)) (fun f l e => (v f a l e, false)))
  | .popcv d a => some (elemRow s d false (fun l e => (popBits n (bitsOf s.etype (x a l e)) : Nat)) (fun f l e => (v f a l e, false)))
  | .bfxv d a b => some (elemRow s d false (fun l e => bitField s.etype (x a l e) (bitsOf s.etype (x b l e))) (fun f l e => (v f a l e, false)))
  | .avgv d a b => some (elemRow s d false (fun l e => (x a l e + x b l e + 1) / 2) (fun f l e => (v f a l e, false)))
  | _ => none

/-- A vector result in active(w) of MODE.ETYPE's width. -/
def activeRow (s : State) (d : VDst) (f : Nat → Dword) : VRow := ⟨s.activeMask, d, etIs64 s.etype, f⟩
/-- A vector result in active(w) of one register. -/
def wordRow (s : State) (d : VDst) (f : Nat → Dword) : VRow := ⟨s.activeMask, d, false, f⟩
/-- A vector result made of raw element bits. -/
def bitsRow (s : State) (d : VDst) (g : Nat → Nat → Nat) : VRow := activeRow s d (fun l => packElems s.etype (g l))

/-- The rows on raw bits, moves, conversions, dot products and the cross-lane rows (R138 to R148, R150, R152, R154 and R155). -/
def vectorRow (s : State) (i : Instr) : Option VRow :=
  let t : EType := s.etype
  let u (a : VSrc) (l e : Nat) : Nat := elemOf t (s.readV t a l) e
  let src (b : VSrc) (l : Nat) : Nat := (s.readV .uint32 b l).toNat % 32
  match i with
  | .andv d a b => some (bitsRow s d (fun l e => u a l e &&& u b l e))
  | .orv d a b => some (bitsRow s d (fun l e => u a l e ||| u b l e))
  | .xorv d a b => some (bitsRow s d (fun l e => u a l e ^^^ u b l e))
  | .andnv d a b => some (bitsRow s d (fun l e => u a l e &&& (2 ^ etWidth t - 1 - u b l e)))
  | .notv d a => some (bitsRow s d (fun l e => 2 ^ etWidth t - 1 - u a l e))
  | .movv d a => some (activeRow s d (s.readV t a))
  | .copysv d a b => some (bitsRow s d (fun l e => match etFmt t with
      | some f => if (fDecode f (u a l e)).isNan then f.nanBits else u a l e % f.signBit + u b l e / f.signBit * f.signBit
      | none => 0))
  | .classv d a => some (bitsRow s d (fun l e => match etFmt t with
      | some f => fClass f (u a l e)
      | none => 0))
  | .scalbv d a b => some (bitsRow s d (fun l e => match etFmt t with
      | some f => fEncode f s.rmode false (scaleBy (s.vFloat t f a l e) (s.vInt (operandTypeB 0x6F t) b l e)) false
      | none => 0))
  | .dot4v d a b => some (wordRow s (.reg d) (fun l => dotLane s d a b 4 l))
  | .dot2v d a b => some (wordRow s (.reg d) (fun l => dotLane s d a b 2 l))
  | .cvtv d a tgt => some ⟨s.activeMask, d, etIs64 tgt, fun l => BitVec.ofNat 64 (convertElem t tgt s.rmode s.sat (u a l 0))⟩
  | .packsxv d a f => some (wordRow s d (fun l =>
      let x (k : Nat) : FVal := fDecode fmtF32 ((s.readV .f32 a k).toNat % 2 ^ 32)
      let half (k : Nat) : List Byte := sxPack f s.rmode s.sat ((List.range 16).map (fun i => x (16 * k + i)))
      BitVec.ofNat 64 (leNat (half 0 ++ half 1) / 2 ^ (32 * l) % 2 ^ 32)))
  | .unpksxv d a f => some (wordRow s d (fun l =>
      let bytes := (List.range 32).flatMap (fun k => leBytes 4 ((s.readV .f32 a k).toNat % 2 ^ 32))
      BitVec.ofNat 64 (fEncode fmtF32 .rne false (sxElem f ((bytes.drop (sxSize f * (l / 16))).take (sxSize f)) (l % 16)) false)))
  | .selv d a b => some ⟨s.issue.lanes, d, etIs64 t, fun l => if s.activeMask.getLsbD l then s.readV t a l else s.readV t b l⟩
  | .shflv d a b => some (activeRow s d (fun l => s.readV t a (src b l)))
  | .shupv d a b => some (activeRow s d (fun l => s.readV t a (if l < src b l then l else l - src b l)))
  | .shdnv d a b => some (activeRow s d (fun l => s.readV t a (if l + src b l > 31 then l else l + src b l)))
  | .shxrv d a b => some (activeRow s d (fun l => s.readV t a (l ^^^ src b l)))
  | .bcastv d a b => some (activeRow s d (fun _ => s.readV t a (src b 0)))
  | .scanv d a => some (activeRow s d (fun l =>
      let ls := s.activeMask.lanes.filter (fun k => k ≤ l)
      BitVec.ofNat 64 (match etFmt t with
        | some f => reduceFloat f s.rmode fAdd (ls.map (fun k => u a k 0))
        | none => fitInt t s.sat (reduceInt (· + ·) (ls.map (fun k => s.vInt t a k 0))))))
  | .movsv d a => some ⟨s.activeMask, d, etIs64 (wordType t),
      fun _ => replicate (wordType t) ((s.readS t a).toNat % 2 ^ etWidth (wordType t))⟩
  | .plget d => some (wordRow s d (fun l => BitVec.ofNat 64 (s.curWave.plane l)))
  | _ => none
where
  /-- The 32-bit result of a dot product in a lane: the accumulator is the destination (R145). -/
  dotLane (s : State) (d : Fin 128) (a b : VSrc) (n l : Nat) : Dword :=
    let t := s.etype
    let c := (s.curWave.vreg d.val l).toNat
    match etFmt t with
    | some f =>
      let p (e : Nat) : FVal := fMul (s.vFloat t f a l e) (s.vFloat t f b l e)
      BitVec.ofNat 64 (fEncode fmtF32 s.rmode false (fAdd s.rmode (fAdd s.rmode (fDecode fmtF32 c) (p 0)) (p 1)) false)
    | none => BitVec.ofNat 64 (fitInt (dotType t) s.sat (intVal (dotType t) c + dotInt s t a b l n))

/-- The rows whose result is a predicate (R115, R149 and R153). -/
def predRow (s : State) (i : Instr) : Option (Fin 8 × LaneMask) :=
  let cmp (a b : VSrc) (ok : Ordering → Bool) (nan : Bool) : LaneMask :=
    lanesWhere (fun l => match s.cmpElem a b l with | some o => ok o | none => nan)
  match i with
  | .pand d a b => some (d, s.curWave.psel a &&& s.curWave.psel b)
  | .por d a b => some (d, s.curWave.psel a ||| s.curWave.psel b)
  | .pxor d a b => some (d, s.curWave.psel a ^^^ s.curWave.psel b)
  | .pandn d a b => some (d, s.curWave.psel a &&& ~~~s.curWave.psel b)
  | .pfroms d a => some (d, (s.readS64 a).setWidth 32)
  | .cmpeqv d a b => some (d, cmp a b (· == .eq) false)
  | .cmpnev d a b => some (d, cmp a b (· != .eq) true)
  | .cmpltv d a b => some (d, cmp a b (· == .lt) false)
  | .cmplev d a b => some (d, cmp a b (· != .gt) false)
  | .cmpgtv d a b => some (d, cmp a b (· == .gt) false)
  | .cmpgev d a b => some (d, cmp a b (· != .lt) false)
  | .cmpunv d a b => some (d, cmp a b (fun _ => false) true)
  | .voteall d a => some (d, if s.activeMask &&& ~~~(s.curWave.psel a) = 0 then BitVec.allOnes 32 else 0)
  | .voteany d a => some (d, if s.activeMask &&& s.curWave.psel a = 0 then 0 else BitVec.allOnes 32)
  | _ => none

end Sys2Proof.Claims

open Sys2Proof Sys2Proof.Machine Sys2Proof.Claims

/-- Every scalar arithmetic row of R114 completes, with its exact result fitted and extended (R113) in the destination and in
latch 0, and changes nothing else: a frame and a result in one. -/
def Obligations.ScalarRowsComplete : Prop :=
  ∀ (i : Instr) (s : State) (d : SDst) (v : Dword), scalarRow s i = some (d, v) → s.issues i →
    ∃ t, exec i s = .next t ∧ s.scalarDone t d v

/-- GETM, CRRD, PTOS, MASKRD, BALLOT, FIRSTL, MOVVS and the lane reductions complete with the value the rule names in the
destination and in latch 0, and change nothing else. -/
def Obligations.ScalarReadsComplete : Prop :=
  ∀ (i : Instr) (s : State) (d : SDst) (v : Dword), scalarReadRow s i = some (d, v) → s.issues i →
    ∃ t, exec i s = .next t ∧ s.scalarDone t d v

/-- Every element-wise arithmetic row completes: each element of each lane of active(w) holds the exact integer result fitted,
or the floating result rounded once; every other lane, register, flag, special register and byte of memory is unchanged. -/
def Obligations.ElementRowsComplete : Prop :=
  ∀ (i : Instr) (s : State) (r : VRow), elementRow s i = some r → s.issues i →
    ∃ t, exec i s = .next t ∧ s.vectorDone t r.lanes r.dst r.wide r.value

/-- The rows on raw bits, moves, conversions, dot products, selects, shuffles, SCANV and PLGET complete with the value of each
lane that their rules name, and change nothing else. -/
def Obligations.VectorRowsComplete : Prop :=
  ∀ (i : Instr) (s : State) (r : VRow), vectorRow s i = some r → s.issues i →
    ∃ t, exec i s = .next t ∧ s.vectorDone t r.lanes r.dst r.wide r.value

/-- The predicate rows, compares and votes complete: the destination takes the result in the lanes of active(w) alone, p0 keeps
reading 1, and nothing else changes. -/
def Obligations.PredicateRowsComplete : Prop :=
  ∀ (i : Instr) (s : State) (d : Fin 8) (v : LaneMask), predRow s i = some (d, v) → s.issues i →
    ∃ t, exec i s = .next t ∧ s.predDone t d v

namespace Sys2Proof.Claims
open Sys2Proof.Machine

/-! Control transfers, waits, exits, traps and the return from them. -/

/-- What an instruction without a result changes of its wave: NOP nothing, SETM and SETMF MODE, PLSET plane numbers; with no
lane in active(w) nothing (R110, R116, R117, R126, R128). -/
def effectRow (s : State) : Instr → Option (Wave → Wave)
  | .nop => some (fun w => w)
  | .setm b => some (fun w => if s.activeMask = 0 then w else { w with mode := (s.readS64 b).setWidth 16 })
  | .setmf a b => some (fun w =>
      if s.activeMask = 0 then w else { w with mode := setModeField s.curSplit.offMode a (s.readS64 b) })
  | .plset a => some (fun w => { w with
      planes := s.activeMask.lanes.foldl (fun t l => tset t l ((s.readV .uint32 a l).toNat % 4)) w.planes })
  | _ => none

/-- The taken set, the target and the link register of a transfer (R120, R121): the target that an operand gives, for RET the
address in A. -/
def transferRow (s : State) : Instr → Option (LaneMask × Except Nat Dword × Option SDst)
  | .br a b => some (s.activeMask &&& s.curWave.psel a, s.target b, none)
  | .brz a b => some (if s.readS64 a = 0 then s.activeMask else 0, s.target b, none)
  | .brnz a b => some (if s.readS64 a = 0 then 0 else s.activeMask, s.target b, none)
  | .call d b => some (s.activeMask, s.target b, some d)
  | .ret a => some (s.activeMask, s.absoluteTarget (s.readS64 a), none)
  | _ => none

/-- The scalar register that a transfer links, with the position after it. -/
def linked (s : State) (link : Option SDst) (r : Nat) : Dword :=
  match link with
  | some d => if s.activeMask ≠ 0 ∧ sdstReg d = some r then s.issue.pc + BitVec.ofNat 64 s.issue.len else s.curWave.sreg r
  | none => s.curWave.sreg r

/-- The privileged instructions (R13). -/
def privileged : Instr → Bool
  | .crwr _ _ | .carve _ _ | .tret | .tlbinv _ _ | .icinv _ _ => true
  | _ => false

/-- The state of a wave in its handler (R369): one split of every lane that has not retired at TRAPVEC.ADDR, extended from bit 51
(R160), in plane 0, with MODE 0 and every latch lost. -/
def inHandler (w v : Wave) (trapvec : Dword) : Prop :=
  v.handler = true ∧ v.mode = 0 ∧ v.issuing = 0 ∧ v.deferred = [] ∧ (∀ l, v.plane l = 0) ∧ (∀ p k, v.latch p k = .lost) ∧
  v.splits = [(0, { pos := ((trapvec &&& 0x000FFFFFFFFFFFFC#64).setWidth 52).signExtend 64, mask := ~~~w.retired })]

/-- Nothing of the wave's core is on its way, no load of the wave is in flight and no lost store is still to be reported: a release or
an acquire of it has nothing to wait for (R177, R283, R323). -/
def coreQuiet (s : State) : Prop :=
  s.curSplit.wait = none ∧ s.curWave.loads = [] ∧ (s.core s.curWave.core).wq = [] ∧ (s.core s.curWave.core).outs = [] ∧
  (s.core s.curWave.core).deps = [] ∧ ∀ t ∈ s.curWave.causes, t.origin.lostWrite = false

/-- The registers, role, retired lanes and work in flight of a wave, which taking an exception leaves alone. -/
def keepsRegisters (w v : Wave) : Prop :=
  v.vregs = w.vregs ∧ v.sregs = w.sregs ∧ v.preds = w.preds ∧ v.retired = w.retired ∧ v.role = w.role ∧ v.loads = w.loads ∧
  v.causes = w.causes ∧ v.mxPending = w.mxPending ∧ v.engPending = w.engPending ∧ v.block = w.block ∧ v.ended = w.ended

/-- The fields of the trap frame, byte ranges and values (R370). -/
def frameFields (w : Wave) (t : TrapInfo) (resume : Dword) (fatal : Bool) : List (Nat × Nat × Nat) :=
  [(0, 8, resume.toNat), (8, 8, t.pc.toNat), (16, 8, t.faddr.toNat), (24, 8, t.iword.toNat), (32, 4, t.lit.toNat),
   (36, 1, t.cause), (37, 1, t.lane), (38, 1, t.plane),
   (39, 1, (if t.deferred then 1 else 0) + (if t.bintodal then 2 else 0) + (if w.handler then 4 else 0) + (if fatal then 8 else 0)),
   (40, 4, t.detail), (44, 2, w.mode.toNat), (46, 1, w.issuing), (47, 1, w.deferred.length), (56, 8, 0)]

end Sys2Proof.Claims

/-- NOP, SETM, SETMF and PLSET complete with the change of their rules and no other: registers, latches, memory and every other
wave stand as before. Rests on the model's own choice, log entry 16. -/
def Obligations.EffectRowsComplete : Prop :=
  ∀ (i : Instr) (s : State) (f : Wave → Wave), effectRow s i = some f → s.issues i →
    ∃ t, exec i s = .next t ∧ s.effectDone t f

/-- YIELD moves on with no other effect; issue passes after the last copy of its offset, and is owed until then (R29, R125). -/
def Obligations.YieldCompletes : Prop :=
  ∀ s : State, s.issues .yield →
    ∃ u, s.effectDone u (fun w => w) ∧
      exec .yield s = .next (if s.curSplit.lastCopy then u.passCur else u.modSplit (fun sp => { sp with yields := true }))

/-- Issue passes to the next slot in ascending order, wrapping, whose live split can issue, else stays; when the issuing slot
changes every latch of the wave is lost, and passing changes no register, mask, position or plane number, and no pass is owed any more (R25,
R29, R49). -/
def Obligations.PassRoundRobin : Prop :=
  ∀ (s : State) (w : Wave), w.deferred = [] →
    let can (k : Nat) : Bool := (tget? w.splits (k % 4)).any (s.canIssue w)
    let v := s.pass w
    v.splits = tmodify w.splits w.issuing (fun sp => { sp with yields := false }) ∧
    v.vregs = w.vregs ∧ v.sregs = w.sregs ∧ v.preds = w.preds ∧ v.planes = w.planes ∧ v.mode = w.mode ∧
    v.issuing = (if can (w.issuing + 1) then (w.issuing + 1) % 4 else if can (w.issuing + 2) then (w.issuing + 2) % 4
      else if can (w.issuing + 3) then (w.issuing + 3) % 4 else if can w.issuing then w.issuing % 4 else w.issuing) ∧
    (v.issuing ≠ w.issuing → ∀ p k, v.latch p k = .lost) ∧ (v.issuing = w.issuing → v.latches = w.latches)

/-- BR, BRZ, BRNZ, RET and CALL complete outside translated launches: with an empty taken set the split goes on; otherwise every
taken lane stands at the target and every other lane of the split at the next instruction, CALL has written its link, and no other
register, memory or wave changes (R26, R119 to R121). Rests on the model's own choice, log entry 138. -/
def Obligations.TransfersComplete : Prop :=
  ∀ (i : Instr) (s : State) (taken : LaneMask) (x : Except Nat Dword) (link : Option SDst) (p : Dword),
    transferRow s i = some (taken, x, link) → s.issues i → s.bintodalLaunch s.curWave = none →
    (taken = 0 ∨ x = .ok p ∧ (s.curWave.place taken p s.issue.len).isSome = true) →
    ∃ t, exec i s = .next t ∧ s.onlyCur t ∧ s.curWave.keptBy t.curWave ∧ t.curWave.retired = s.curWave.retired ∧
      (∀ r, t.curWave.sreg r = linked s link r) ∧
      ∀ l, l < 32 → s.curSplit.mask.getLsbD l = true →
        t.curWave.stands l (if taken.getLsbD l then p else (Split.advance s.issue.len s.curSplit).pos)

/-- A transfer with lanes to take whose target is refused takes that cause at itself, and one that finds no place for them takes
SPLIT_OVERFLOW; neither has any other effect, CALL's write included (R26, R119, R120). Rests on the model's own choices, log entries 19 and 127. -/
def Obligations.TransfersTrap : Prop :=
  ∀ (i : Instr) (s : State) (taken : LaneMask) (x : Except Nat Dword) (link : Option SDst),
    transferRow s i = some (taken, x, link) → s.issues i → taken ≠ 0 →
    (∀ c, x = .error c → exec i s = .next (s.begun.trapHere (s.info c 0))) ∧
    (∀ p, x = .ok p → s.curWave.place taken p s.issue.len = none → exec i s = .next (s.begun.trapHere (s.info 0x09 0)))

/-- The target of a transfer (R119): an immediate is a displacement from the instruction, times 1 or 8, or from the accord's base
and then inside its stride; a register or latch, and whatever operand RET has, is an absolute address, taken to plane 0; and the
position is aligned to the form of the image that holds it, else MISALIGNED. Rests on the model's own choices, log entries 138 and 150. -/
def Obligations.TransferTarget : Prop :=
  ∀ (s : State) (x : SSrc),
    let aligned (p : Dword) : Except Nat Dword := if p.toNat % formAlign (s.curCtx.formAt p) = 0 then .ok p else .error 0x0B
    (∀ v, s.absoluteTarget v = aligned (s.curCtx.position v)) ∧
    (SSrcRelative x = false → s.target x = aligned (s.curCtx.position (s.readS64 x))) ∧
    (SSrcRelative x = true → s.curCtx.accordAt s.issue.pc = none →
      s.target x = aligned (s.issue.pc + BitVec.ofInt 64 ((s.readS64 x).toInt * s.gran))) ∧
    ∀ (ba : Dword) (n st : Nat), s.curCtx.accordAt s.issue.pc = some (ba, n, st) → SSrcRelative x = true →
      let off := (s.readS64 x).toInt * s.gran
      (off < 0 ∨ (st : Int) ≤ off → s.target x = .error 0x01) ∧
      (0 ≤ off → off < st → (ba + BitVec.ofInt 64 off).toNat % formAlign (s.curCtx.formAt (ba + BitVec.ofInt 64 off)) = 0 →
        s.target x = .ok (ba + BitVec.ofInt 64 off))

/-- REJOIN completes when every lane of its mask that has not retired belongs to the issuing split; otherwise the split waits at
it with that mask, or, when no split can ever move, the wave takes REJOIN_DEADLOCK (R31, R32, R123). Rests on the model's own choices, log entries 36, 133 and 151. -/
def Obligations.RejoinCompletes : Prop :=
  ∀ (b : SSrc) (s : State), s.issues (.rejoin b) →
    let m : LaneMask := (s.readS64 b).setWidth 32
    let u := s.begun.stall (.rejoin m)
    ((∀ l, l < 32 → m.getLsbD l = true → s.curWave.retired.getLsbD l = true ∨ s.curSplit.mask.getLsbD l = true) →
      ∃ t, exec (.rejoin b) s = .next t ∧ s.effectDone t (fun w => w)) ∧
    ((∃ l, l < 32 ∧ m.getLsbD l = true ∧ s.curWave.retired.getLsbD l = false ∧ s.curSplit.mask.getLsbD l = false) →
      exec (.rejoin b) s = .next (if u.curWave.deadlocked then u.trapHere (s.info 0x0A 0) else u.bintodalLatches.passCur))

/-- EXIT retires the lanes of active(w); when it retires the last lane the wave ends once its matrix and engine work has
completed, its loads have returned and no store of it is queued, and waits at the EXIT until then. Registers, memory and every other
wave stand as before (R30, R124, R408). Rests on the model's own choices, log entries 141 and 152. -/
def Obligations.ExitCompletes : Prop :=
  ∀ s : State, s.issues .exit →
    let m := s.activeMask
    let last := ~~~s.curWave.retired &&& ~~~m = 0
    let settled : Prop := s.curWave.mxPending = 0 ∧ s.curWave.engPending = 0 ∧ s.curWave.loads = [] ∧
      ∀ e ∈ (s.core s.curWave.core).wq, e.2.wave ≠ s.issue.wave
    (¬last → ∃ t, exec .exit s = .next t ∧ s.onlyCur t ∧ s.curWave.keptBy t.curWave ∧ t.curWave.sregs = s.curWave.sregs ∧
      t.curWave.retired = s.curWave.retired ||| m ∧ t.curWave.ended = s.curWave.ended) ∧
    (last → settled → s.curWave.causes = [] →
      ∃ t, exec .exit s = .next t ∧ s.onlyCur t ∧ s.curWave.keptBy t.curWave ∧ t.curWave.sregs = s.curWave.sregs ∧
        t.curWave.retired = BitVec.allOnes 32 ∧ t.curWave.splits = [] ∧ t.curWave.deferred = [] ∧ t.curWave.ended = true) ∧
    (last → ¬settled → exec .exit s = .next (s.begun.stall (.ending s.issue.wave)))

/-- TRAPZ takes TRAP_INSTR with detail 0xFFFFFFFF at itself whatever the guard; TRAP k and BRK take TRAP_INSTR with detail k and
BREAKPOINT with the next instruction as the resume address when active(w) is not empty, and otherwise only move on (R128 to R130). -/
def Obligations.TrapInstructionsTrap : Prop :=
  ∀ s : State,
    (∀ d a b, s.issues (.trapz d a b) → exec (.trapz d a b) s = .next (s.begun.trapWave s.issue.wave (s.info 0x14 0xFFFFFFFF) s.issue.pc)) ∧
    (∀ k, s.issues (.trap k) →
      (s.activeMask ≠ 0 → exec (.trap k) s =
        .next (s.begun.trapWave s.issue.wave (s.info 0x14 k.val) (s.issue.pc + BitVec.ofNat 64 s.issue.len))) ∧
      (s.activeMask = 0 → ∃ t, exec (.trap k) s = .next t ∧ s.effectDone t (fun w => w))) ∧
    (s.issues .brk →
      (s.activeMask ≠ 0 → exec .brk s =
        .next (s.begun.trapWave s.issue.wave (s.info 0x15 0) (s.issue.pc + BitVec.ofNat 64 s.issue.len))) ∧
      (s.activeMask = 0 → ∃ t, exec .brk s = .next t ∧ s.effectDone t (fun w => w)))

/-- Taking an exception outside handler mode with TRAPVEC.EN = 1 (R369, R42, R25): the wave enters the handler with MODE, splits,
deferred list and plane numbers saved; its registers, all memory, every special register and every other wave stand as before, but
for the record of a poison trap in the die's drydown record (R419). Rests on the model's own choice, log entry 37. -/
def Obligations.TrapEntersHandler : Prop :=
  ∀ (s : State) (wid : Nat) (w : Wave) (t : TrapInfo) (r : Dword),
    tget? s.waves wid = some w → w.handler = false → (s.ctx w.ctx).trapvec.toNat % 2 = 1 →
    ∃ v, tget? (s.trapWave wid t r).waves wid = some v ∧ inHandler w v (s.ctx w.ctx).trapvec ∧ keepsRegisters w v ∧
      v.frameResume = r ∧ v.frameMode = w.mode ∧ v.savedSplits = w.splits ∧ v.savedDeferred = w.deferred ∧ v.savedPlanes = w.planes ∧
      v.savedIssuing = w.issuing ∧
      (∀ k, k ≠ wid → tget? (s.trapWave wid t r).waves k = tget? s.waves k) ∧
      ({ s.trapWave wid t r with waves := s.waves, dry := s.dry } : State) = s ∧
      (t.cause ≠ 0x11 → (s.trapWave wid t r).dry = s.dry)

/-- The trap frame that entry writes holds each field of R370 at its bytes. -/
def Obligations.TrapFrameFields : Prop :=
  ∀ (s : State) (wid : Nat) (w : Wave) (t : TrapInfo) (r : Dword),
    tget? s.waves wid = some w → w.handler = false → (s.ctx w.ctx).trapvec.toNat % 2 = 1 →
    ∃ v, tget? (s.trapWave wid t r).waves wid = some v ∧
      ∀ f ∈ frameFields w t r false, memNat v.frame f.1 f.2.1 = f.2.2 % 256 ^ f.2.1

/-- A fatal trap (R372), in handler mode or with TRAPVEC.EN = 0: every lane retires, the wave fails with its launch, the host is
told of it and, in handler mode, of each cause still pending (R367); and the only bytes of memory that change are the 256 of the
fault-log entry of each and the count of entries (R381). Rests on the model's own choices, log entries 24 and 53. -/
def Obligations.FatalTrap : Prop :=
  ∀ (s : State) (wid : Nat) (w : Wave) (t : TrapInfo) (r : Dword),
    tget? s.waves wid = some w → (tget? s.ctxs w.ctx).isSome = true → (w.handler = true ∨ (s.ctx w.ctx).trapvec.toNat % 2 = 0) →
    let c := s.ctx w.ctx
    let left := if w.handler then w.causes else []
    let slot (j : Nat) := c.saveBase + 4096 + 256 * ((c.fatals + j) % 16)
    let u := s.trapWave wid t r
    (∃ v, tget? u.waves wid = some v ∧ v.retired = BitVec.allOnes 32 ∧ v.splits = [] ∧ v.deferred = [] ∧ v.ended = true ∧
      v.failed = true ∧ (∀ f ∈ frameFields w t r true, memNat v.frame f.1 f.2.1 = f.2.2 % 256 ^ f.2.1) ∧
      (left.length < 16 → ∀ i, i < 256 → memByte u.mem (slot 0 + i) = memByte v.frame i)) ∧
    memByte u.mem (c.saveBase + 5) = BitVec.ofNat 8 (min 255 (c.nfatal + left.length + 1)) ∧
    (∀ a, a ≠ c.saveBase + 5 → (∀ j, j ≤ left.length → a < slot j ∨ slot j + 256 ≤ a) → memByte u.mem a = memByte s.mem a) ∧
    (∀ k, k ≠ wid → tget? u.waves k = tget? s.waves k) ∧
    u.out = s.out ++ (t :: left).map (fun x => .tell 0x0C w.core (w.ctx + 256 * x.cause)) ∧
    ∀ l, w.launch = some l → (tget? s.launches l).isSome = true → (u.launch l).failed = true

/-- TRET, once its fence at package scope is met, as it is with nothing of the core on its way, and the position it reads is aligned
(R374): it completes: MODE is the frame's, handler mode ends, the splits, deferred list and planes saved at entry are back without the
lanes that retired, the issuing slot stands at the frame's RESUME, and every latch is lost. Registers and memory stand as before. Rests
on the model's own choice, log entry 22. Rests on the model's own choice, log entry 22. -/
def Obligations.TretReturns : Prop :=
  ∀ s : State, s.issues .tret → (coreQuiet s ∨ s.begun.gate 6 true true = none) →
    let w := s.curWave
    let r := s.curCtx.position (BitVec.ofNat 64 (memNat w.frame 0 8))
    r.toNat % formAlign (s.curCtx.formAt r) = 0 →
    ∃ t, exec .tret s = .next t ∧ t.curWave.handler = false ∧ t.curWave.mode = BitVec.ofNat 16 (memNat w.frame 44 2) ∧
      t.curWave.planes = w.savedPlanes ∧ (∀ p k, t.curWave.latch p k = .lost) ∧
      t.curWave.vregs = w.vregs ∧ t.curWave.sregs = w.sregs ∧ t.curWave.preds = w.preds ∧ t.curWave.retired = w.retired ∧
      (∀ a, memByte t.mem a = memByte s.mem a) ∧
      (∀ sp, tget? w.savedSplits w.savedIssuing = some sp → sp.mask &&& ~~~w.retired ≠ 0 → w.savedDeferred = [] →
        (sp.begun = true → ∃ x ∈ sp.copies, x.2 &&& ~~~w.retired ≠ 0) → ∃ sp', tget? t.curWave.splits w.savedIssuing = some sp' ∧ sp'.pos = r ∧ sp'.mask = sp.mask &&& ~~~w.retired ∧
          t.curWave.issuing = w.savedIssuing)

/-- The checks of steps 6 to 11 of R90 come before any effect: an instruction of a wave for which they find a cause takes that
cause at itself, with RESUME = PC, and does nothing else. After them, one that reads a word of its wave with an uncorrectable error
takes MEM_POISON at itself, with FADDR 0, and does nothing else (R407). Rests on the model's own choice, log entry 109. -/
def Obligations.ChecksBeforeEffect : Prop :=
  ∀ (i : Instr) (s : State), i.operands.isSome = true → s.waveAlive = true → interlocked i s = false → dueCause i s = none →
    (∀ t, preIssue i s = some t → exec i s = .next (s.trapWave s.issue.wave t s.issue.pc)) ∧
    (preIssue i s = none → ∀ c ∈ s.curWave.struck, readsCell i s c = true →
      ∃ t, struckCause i s = some t ∧ t.cause = 0x11 ∧ t.faddr = 0 ∧ t.deferred = false ∧
        exec i s = .next (s.trapWave s.issue.wave t s.issue.pc))

/-- Outside handler mode the privileged opcodes raise ILLEGAL_ROLE with the role's code, before any effect (R13, R371). -/
def Obligations.PrivilegedOutsideHandler : Prop :=
  ∀ (i : Instr) (s : State), privileged i = true → s.waveAlive = true → interlocked i s = false → dueCause i s = none →
    s.curWave.handler = false → exec i s = .next (s.trapHere (s.info 0x03 (roleCode s.curWave.role)))

/-- An instruction of a wave waits, with nothing changed, while a load in flight will write one of its registers or a latch it
reads (R24, R171). -/
def Obligations.InterlockWaits : Prop :=
  ∀ (i : Instr) (s : State), i.operands.isSome = true → s.waveAlive = true → interlocked i s = true → exec i s = .next s

/-- The one stop of the model: an instruction of a wave without a resident wave, which no step issues. Rests on the model's own choice, log entry 115. -/
def Obligations.NoWaveStops : Prop :=
  ∀ (i : Instr) (s : State), i.operands.isSome = true → s.waveAlive = false → exec i s = .fault .noWave

namespace Sys2Proof.Claims
open Sys2Proof.Machine

/-! Loads, stores, atomics, reductions, fences, waits and barriers. -/

/-- What a memory instruction returns to: a vector, a scalar or a quad destination, or nothing. -/
inductive Dest where
  | vec (d : VDst) | scalar (d : SDst) | quad (q : Fin 32) | none

/-- Opcode, request and destination of the loads (R157 to R161). -/
def loadRow (s : State) : Instr → Option (Nat × MemReq × Dest)
  | .ldv d a b => some (0xA0, { z := accessBytes s.etype, window := true, lanes := s.activeLanes (fun l => s.pairLane a l + s.readS64 b) }, .vec d)
  | .lds d a b => some (0xA2, { z := accessBytes s.etype, window := true, lanes := oneAccess (s.readS64 a + s.readS64 b) }, .scalar d)
  | .ldvb d a b => some (0xA4, { z := wordBytes s.etype, window := true, lanes := s.activeLanes (fun l =>
      s.readS64 a + s.readS64 b + BitVec.ofNat 64 (l * wordBytes s.etype)) }, .vec d)
  | .ldp d a b => some (0xC0, { space := .core, z := accessBytes s.etype, touches := true, lanes := s.activeLanes (s.spadLane a b) }, .vec d)
  | .ldc d a b => some (0xC2, { space := .cluster, z := accessBytes s.etype, touches := true, lanes := s.activeLanes (s.spadLane a b) }, .vec d)
  | .ldk d a b => some (0xC4, { space := .stack, z := accessBytes s.etype, lanes := s.activeLanes (s.spadLane a b) }, .vec d)
  | .ldl d a b => some (0xC6, { space := .lane, z := accessBytes s.etype, lanes := s.activeLanes (s.spadLane a b) }, .vec d)
  | .ldps d a b => some (0xCE, { space := .core, z := accessBytes s.etype, touches := true, lanes := oneAccess (s.readS64 a + s.readS64 b) }, .scalar d)
  | _ => none

/-- Opcode, request and data by lane of the stores (R157 to R161, R170). -/
def storeRow (s : State) : Instr → Option (Nat × MemReq × (Nat → Nat))
  | .stv d a b => some (0xA1, { access := .write, z := accessBytes s.etype, window := true, lanes := s.activeLanes (fun l => s.pairLane a l + s.readS64 b) }, lanes d)
  | .sts d a b => some (0xA3, { access := .write, z := accessBytes s.etype, window := true, lanes := oneAccess (s.readS64 a + s.readS64 b) }, whole d)
  | .stvb d a b => some (0xA5, { access := .write, z := wordBytes s.etype, window := true, lanes := s.activeLanes (fun l =>
      s.readS64 a + s.readS64 b + BitVec.ofNat 64 (l * wordBytes s.etype)) }, lanes d)
  | .stp d a b => some (0xC1, { space := .core, access := .write, z := accessBytes s.etype, lanes := s.activeLanes (s.spadLane a b) }, lanes d)
  | .stc d a b => some (0xC3, { space := .cluster, access := .write, z := accessBytes s.etype, lanes := s.activeLanes (s.spadLane a b) }, lanes d)
  | .stk d a b => some (0xC5, { space := .stack, access := .write, z := accessBytes s.etype, lanes := s.activeLanes (s.spadLane a b) }, lanes d)
  | .stl d a b => some (0xC7, { space := .lane, access := .write, z := accessBytes s.etype, lanes := s.activeLanes (s.spadLane a b) }, lanes d)
  | .stps d a b => some (0xCF, { space := .core, access := .write, z := accessBytes s.etype, lanes := oneAccess (s.readS64 a + s.readS64 b) }, whole d)
  | _ => none
where
  /-- The word or pair of a vector register in a lane. -/
  lanes (d : Fin 128) (l : Nat) : Nat := (s.curWave.vlane (etIs64 s.etype) d.val l).toNat
  /-- A scalar register. -/
  whole (d : Fin 64) (_ : Nat) : Nat := (s.curWave.sreg d.val).toNat

/-- Opcode, request, operator group and destination of the read-modify-writes (R172 to R176). -/
def atomicRow (s : State) : Instr → Option (Nat × MemReq × Group × Dest)
  | .aadd d a b => some (0xA8, at_ a, s.addGroup (x b), .vec d)
  | .amin d a b => some (0xA9, at_ a, op (rmwPick s.etype min fMin) b, .vec d)
  | .amax d a b => some (0xAA, at_ a, op (rmwPick s.etype max fMax) b, .vec d)
  | .aand d a b => some (0xAB, at_ a, op (· &&& ·) b, .vec d)
  | .aor d a b => some (0xAC, at_ a, op (· ||| ·) b, .vec d)
  | .axor d a b => some (0xAD, at_ a, op (· ^^^ ·) b, .vec d)
  | .axchg d a b => some (0xAE, at_ a, op (fun _ y => y) b, .vec d)
  | .aincw d a b => some (0xAF, at_ a, op (fun m y => if y ≤ m then 0 else m + 1) b, .vec d)
  | .adecw d a b => some (0xB0, at_ a, op (fun m y => if m = 0 || y < m then y else m - 1) b, .vec d)
  | .cas d a b => some (0xB1, at_ a, casGroup (storeRow.lanes s d) (x b), .vec (.reg d))
  | .cas128 d a b => some (0xB2, { access := .rmw, z := 16, lanes := s.activeLanes (s.pairLane a) },
      casGroup (s.quadLane d) (s.quadLane b), .quad d)
  | .aadds d a b => some (0xB3, one a, s.addGroup (fun _ => s.scalarOperand b), .scalar d)
  | .cass d a b => some (0xB4, one a, casGroup (fun _ => (s.curWave.sreg d.val).toNat % 2 ^ etWidth s.etype) (fun _ => s.scalarOperand b),
      .scalar (.reg d))
  | .rdadd a b => some (0xB8, at_ a, s.addGroup (x b), .none)
  | .rdmin a b => some (0xB9, at_ a, op (rmwPick s.etype min fMin) b, .none)
  | .rdmax a b => some (0xBA, at_ a, op (rmwPick s.etype max fMax) b, .none)
  | .rdand a b => some (0xBB, at_ a, op (· &&& ·) b, .none)
  | .rdor a b => some (0xBC, at_ a, op (· ||| ·) b, .none)
  | .rdxor a b => some (0xBD, at_ a, op (· ^^^ ·) b, .none)
  | .aaddc d a b => some (0xC8, cl a, s.addGroup (x b), .vec d)
  | .casc d a b => some (0xC9, cl a, casGroup (storeRow.lanes s d) (x b), .vec (.reg d))
  | _ => none
where
  /-- Addresses from a register pair. -/
  at_ (a : Fin 64) : MemReq := { access := .rmw, z := wordBytes s.etype, lanes := s.activeLanes (s.pairLane a) }
  /-- One address from a scalar operand. -/
  one (a : SSrc) : MemReq := { access := .rmw, z := wordBytes s.etype, lanes := oneAccess (s.readS64 a) }
  /-- Cluster-memory addresses from a lane word. -/
  cl (a : VSrc) : MemReq :=
    { space := .cluster, access := .rmw, z := wordBytes s.etype, lanes := s.activeLanes (fun l => (s.readVWord s.etype a l).setWidth 64) }
  /-- The operand of a lane. -/
  x (b : VSrc) (l : Nat) : Nat := (s.readV s.etype b l).toNat % 2 ^ etWidth s.etype
  /-- An operator applied lane by lane. -/
  op (f : Nat → Nat → Nat) (b : VSrc) : Group := sequentialGroup (fun l m => f m (x b l))

/-- Which byte of an access of `z` bytes at a place another place is. -/
def byteIn (z : Nat) (c q : Cell) : Option Nat :=
  let k (a b : Nat) : Option Nat := if a ≤ b ∧ b < a + z then some (b - a) else none
  match c, q with
  | .dram a, .dram b => k a b
  | .frame a, .frame b => k a b
  | .spad x a, .spad y b => if x = y then k a b else none
  | .lanep x a, .lanep y b => if x = y then k a b else none
  | .stk c x a, .stk d y b => if c = d ∧ x = y then k a b else none
  | _, _ => none

/-- The byte at a place. -/
def cellByte (s : State) : Cell → Byte
  | .dram a => memByte s.mem a
  | .frame o => memByte s.curWave.frame o
  | .spad b a => memByte (s.block b).scratch a
  | .lanep b k => memByte (s.block b).lanes k
  | .stk c k a => memByte (tgetD (s.ctx c).stackSp k []) a

/-- A byte of the trap frame that discards writes: all but RESUME and MODE (R3, R370). -/
def readOnlyPlace : Cell → Bool
  | .frame o => decide (8 ≤ o ∧ o ≠ 44 ∧ o ≠ 45)
  | _ => false

/-- A place in DRAM. -/
def inDram : Cell → Option Nat
  | .dram pa => some pa
  | _ => none

/-- The byte that the lanes of a store leave at a place: the highest lane that covers it wins (R170). -/
def storedByte (z : Nat) (cells : List (Nat × Dword × Cell)) (data : Nat → Nat) (q : Cell) (old : Byte) : Byte :=
  cells.foldl (fun v p => match byteIn z p.2.2 q with
    | some k => BitVec.ofNat 8 (data p.1 / 256 ^ k)
    | none => v) old

/-- Nothing but the issuing wave and the caches, queues and messages of the memory system has changed; of the wave, only registers
and their errors, latches, loads in flight, pending causes and the marks of work begun. -/
def memoryFrame (s u : State) : Prop :=
  ({ u with
      waves := s.waves, cores := s.cores, clusters := s.clusters, stackTbl := s.stackTbl, homes := s.homes, net := s.net,
      waiting := s.waiting } : State) = s ∧
  (∀ k, k ≠ s.issue.wave → tget? u.waves k = tget? s.waves k) ∧
  ({ u.curWave with vregs := s.curWave.vregs, sregs := s.curWave.sregs, struck := s.curWave.struck, latches := s.curWave.latches, loads := s.curWave.loads,
                    nextLoad := s.curWave.nextLoad, causes := s.curWave.causes, resumed := s.curWave.resumed } : Wave) = s.curWave

/-- The registers after a result by lane: vector and quad destinations in the lanes of active(w), a scalar destination whole. -/
def resultIn (s u : State) (d : Dest) (val : Nat → Nat) (sval : Dword) : Prop :=
  match d with
  | .vec d => (∀ r l, l < 32 → u.curWave.vreg r l = s.curWave.vregAfter s.activeMask d (etIs64 s.etype) (fun l => BitVec.ofNat 64 (val l)) r l) ∧
      u.curWave.sregs = s.curWave.sregs
  | .scalar d => (∀ r, u.curWave.sreg r = if sdstReg d = some r then sval else s.curWave.sreg r) ∧ u.curWave.vregs = s.curWave.vregs
  | .quad q => (∀ r l, l < 32 → u.curWave.vreg r l = if s.activeMask.getLsbD l = true ∧ 4 * q.val ≤ r ∧ r < 4 * q.val + 4
      then BitVec.ofNat 32 (val l / 2 ^ (32 * (r - 4 * q.val))) else s.curWave.vreg r l) ∧ u.curWave.sregs = s.curWave.sregs
  | .none => u.curWave.vregs = s.curWave.vregs ∧ u.curWave.sregs = s.curWave.sregs

/-- A scalar load's value, extended from its width by sign or by zero (R170). -/
def loadExtend (z : Nat) (signed : Bool) (v : Nat) : Dword :=
  if signed && z < 8 then BitVec.ofInt 64 (BitVec.ofNat (8 * z) v).toInt else BitVec.ofNat 64 v

/-- The old value of a lane of a read-modify-write: what its group gives from the value in memory. -/
def oldOf (s : State) (z : Nat) (f : Group) (cells : List (Nat × Dword × Cell)) (l : Nat) : Nat :=
  ((((groupCells cells).flatMap (fun g => (f (s.readCell g.1 z).1 g.2).1)).find? (fun p => p.1 = l)).map Prod.snd).getD 0

end Sys2Proof.Claims

/-- A load whose checks pass completes its issue (R165, R170, R171): it enters flight with one access per active lane at the address
checked, takes what lies outside DRAM at once, and once every lane has its value the destination holds it; a load that still waits
leaves registers alone. DRAM, scratchpads and every other wave stand as before. Rests on the model's own choice, log entry 39. -/
def Obligations.LoadsComplete : Prop :=
  ∀ (i : Instr) (s : State) (opc : Nat) (r : MemReq) (dst : Dest) (cells : List (Nat × Dword × Cell)),
    loadRow s.begun i = some (opc, r, dst) → s.issues i → s.activeMask ≠ 0 → s.begun.held r.space = false →
    s.begun.acquiring s.begun.curWave = false → s.begun.check r = .ok cells → (s.begun.scratchWait r.space (s.begun.accessClass opc)).isNone = true →
    ∃ (u : State) (p : PLoad), exec i s = .next u.finishYield ∧ memoryFrame s u ∧
      p.lanes.length = cells.length ∧ p.level = (s.begun.accessClass opc).level ∧ p.acquire = (s.begun.accessClass opc).acquire ∧
      (∀ (k : Nat) (c : Nat × Dword × Cell) (x : LoadLane), cells[k]? = some c → p.lanes[k]? = some x → x.lane = c.1 ∧ x.va = c.2.1 ∧ x.z = r.z ∧
        (∀ pa, inDram c.2.2 = some pa → x.pa = pa) ∧
        (inDram c.2.2 = none → (s.readCell c.2.2 r.z).2 = false → x.got = some (s.readCell c.2.2 r.z).1)) ∧
      (p.complete = true → tget? u.curWave.loads s.curWave.nextLoad = none ∧
        resultIn s u dst (fun l => (p.value l).toNat) (loadExtend r.z (etSigned s.etype) (p.value 32).toNat)) ∧
      (p.complete = false → tget? u.curWave.loads s.curWave.nextLoad = some p ∧ resultIn s u .none (fun _ => 0) 0)

/-- What a served read returns (R313, R244): at core scope the core's L1 copy while its lease holds, else the stack's copy of the units
read; at cluster to stack scope the stack's copy; wider, the bytes at the owner, as always for the line of a live decant record. A read
wider than the core is served only once the core's own stores to the line have left its queue. Serving changes no memory, no scratchpad
and no register. Rests on the model's own choices, log entries 39 and 40. -/
def Obligations.ReadServesView : Prop :=
  ∀ (s : State) (core ctx line : Nat) (ks : List Nat) (cls : AccessClass) (v : LineView) (u : State),
    s.readLine core ctx line ks cls = .yes v u →
    ({ u with
        cores := s.cores, clusters := s.clusters, stackTbl := s.stackTbl, homes := s.homes, net := s.net, waiting := s.waiting } : State) = s ∧
    (2 ≤ cls.level → (s.core core).queued line = false) ∧
    (s.liveRecord line = true → v = s.ownerView line) ∧
    (s.liveRecord line = false →
      (cls.level ≤ 1 → ∀ w, s.l1View core ctx line = some w → v = w) ∧
      (cls.level ≤ 1 → s.l1View core ctx line = none → ∃ t0, s.stackView core ctx line ks = some (v, t0)) ∧
      (2 ≤ cls.level → cls.level ≤ 4 → ∃ t0, s.stackView core ctx line ks = some (v, t0)) ∧
      (5 ≤ cls.level → v = s.ownerView line))

/-- A store whose checks pass, with the wave's loads returned, its release met and room in the queue, completes: what lies outside DRAM
is written at once, the higher lane last; each DRAM access enters the core's write queue behind the stores already there, without the bytes
that only the device writes (R3), and with the cause that its loss would have (R408); every other byte, and all of DRAM, stands as before
(R165, R170, R268, R314). Rests on the model's own choice, log entry 23. -/
def Obligations.StoresComplete : Prop :=
  ∀ (i : Instr) (s : State) (opc : Nat) (r : MemReq) (data : Nat → Nat) (cells : List (Nat × Dword × Cell)),
    storeRow s.begun i = some (opc, r, data) → s.issues i → s.activeMask ≠ 0 → s.begun.held r.space = false →
    s.begun.acquiring s.begun.curWave = false → s.begun.check r = .ok cells → s.curWave.loads = [] →
    ((s.begun.accessClass opc).release = true → (s.begun.gate (s.begun.accessClass opc).level true false).isNone = true) →
    (r.space = .global → (s.core s.curWave.core).wq.length + cells.length ≤ 64) →
    let c := s.curWave.core
    let ds := cells.filterMap (fun p => (inDram p.2.2).map (fun pa => (p.1, p.2.1, pa)))
    ∃ u : State, exec i s = .next u.finishYield ∧
      ({ u with waves := s.waves, cores := s.cores, blocks := s.blocks, ctxs := s.ctxs } : State) = s ∧
      (∀ k, k ≠ s.issue.wave → tget? u.waves k = tget? s.waves k) ∧
      ({ u.curWave with frame := s.curWave.frame, struck := s.curWave.struck, resumed := s.curWave.resumed } : Wave) = s.curWave ∧
      (∀ q, inDram q = none → cellByte u q = if readOnlyPlace q then cellByte s q else storedByte r.z cells data q (cellByte s q)) ∧
      (∀ b, ({ u.block b with scratch := (s.block b).scratch, spoison := (s.block b).spoison, lanes := (s.block b).lanes,
                              lpoison := (s.block b).lpoison } : Block) = s.block b) ∧
      (∀ k, k ≠ c → u.core k = s.core k) ∧ (u.core c).nextWrite = (s.core c).nextWrite + ds.length ∧
      (∀ k, k < (s.core c).nextWrite → tget? (u.core c).wq k = tget? (s.core c).wq k) ∧
      ∀ j x, ds[j]? = some x → ∃ e, tget? (u.core c).wq ((s.core c).nextWrite + j) = some e ∧ e.pa = x.2.2 ∧ e.trap.faddr = x.2.1 ∧
        e.trap.cause = 0x16 ∧ e.trap.pc = s.issue.pc ∧ e.bytes = s.ownBytes x.2.2 (leBytes r.z (data x.1)) ∧ e.wave = s.issue.wave ∧ e.epoch = (u.core c).epoch

/-- An atomic, compare-and-swap or reduction whose checks pass and whose lines can be read at their owner completes (R172 to R176): the
lanes of one place form one group, the word there becomes what the group stores, each lane returns the value it found, and every byte
outside the words accessed stands as before. Reductions return nothing, and CAS128 returns a quad. Rests on the model's own choices, log entries 17 and 44. -/
def Obligations.AtomicsComplete : Prop :=
  ∀ (i : Instr) (s : State) (opc : Nat) (r : MemReq) (f : Group) (dst : Dest) (cells : List (Nat × Dword × Cell)),
    atomicRow s.begun i = some (opc, r, f, dst) → s.issues i → s.activeMask ≠ 0 → s.begun.held r.space = false →
    s.begun.acquiring s.begun.curWave = false → s.begun.check r = .ok cells → s.curWave.loads = [] →
    ((s.begun.accessClass opc).release = true → (s.begun.gate (s.begun.accessClass opc).level true false).isNone = true) →
    (s.begun.scratchWait r.space (s.begun.accessClass opc)).isNone = true →
    (r.space = .global → (s.core s.curWave.core).wq.length + (groupCells cells).length ≤ 64) →
    ((s.begun.cacheAll r).rmwLines (s.begun.accessClass opc) r.z cells).2 = true →
    (∀ p ∈ cells, (s.readCell p.2.2 r.z).2 = false ∧ ∀ pa, inDram p.2.2 = some pa → s.homeLost pa = false ∧ pa % r.z = 0 ∧
      (∀ k, k < r.z → s.deviceByte (pa + k) = false) ∧ tget? (s.cluster (homeSlice (lineOf pa))).counters (lineOf pa) = none) →
    ∃ u : State, exec i s = .next u.finishYield ∧
      resultIn s u dst (oldOf s r.z f cells)
        (if etIsInt s.etype then extend64 s.etype (oldOf s r.z f cells 32) else BitVec.ofNat 64 (oldOf s r.z f cells 32)) ∧
      (∀ g ∈ groupCells cells, (u.readCell g.1 r.z).1 = match (f (s.readCell g.1 r.z).1 g.2).2 with
        | some v => v % 256 ^ r.z
        | none => (s.readCell g.1 r.z).1) ∧
      (∀ q, (∀ p ∈ cells, byteIn r.z p.2.2 q = none) → cellByte u q = cellByte s q) ∧
      (∀ k, k ≠ s.issue.wave → tget? u.waves k = tget? s.waves k) ∧ u.curWave.preds = s.curWave.preds ∧ u.curWave.mode = s.curWave.mode ∧
      u.curWave.splits = s.curWave.splits ∧ u.launches = s.launches ∧ u.clk = s.clk

/-- The checks of a memory instruction come before any effect and in order (R165): a misaligned address, lowest lane first, then a
non-canonical global address, else the cause of the lowest lane that fails range, translation, permission or ownership. Rests on the model's own choices, log entries 25 and 26. -/
def Obligations.AccessChecksTrap : Prop :=
  ∀ (i : Instr) (s : State) (r : MemReq),
    ((∃ opc d, loadRow s.begun i = some (opc, r, d)) ∨ (∃ opc d, storeRow s.begun i = some (opc, r, d)) ∨
      ∃ opc f d, atomicRow s.begun i = some (opc, r, f, d)) →
    s.issues i → s.activeMask ≠ 0 → s.begun.held r.space = false → s.begun.acquiring s.begun.curWave = false →
    (∀ t, s.begun.check r = .trap t → exec i s = .next (s.begun.trapHere t)) ∧
    (∀ pre l va post, r.lanes = pre ++ (l, va) :: post → (∀ p ∈ pre, p.2.toNat % r.z = 0) → va.toNat % r.z ≠ 0 →
      exec i s = .next (s.begun.trapHere (s.info 0x0B 0 va (trapLane l)))) ∧
    (r.space = .global → (∀ p ∈ r.lanes, p.2.toNat % r.z = 0) → ∀ pre l va post, r.lanes = pre ++ (l, va) :: post →
      (∀ p ∈ pre, (s.begun.inFrame p.2 || canonical p.2) = true) → s.begun.inFrame va = false → canonical va = false →
      exec i s = .next (s.begun.trapHere (s.info 0x0C (2 + r.access.bits) va (trapLane l))))

namespace Sys2Proof.Claims
open Sys2Proof.Machine

/-- Nothing architectural has changed: memory, scratchpads, registers and every other wave stand as before; the caches, queues and
messages of the memory system may have moved. -/
def architecturalSame (s u : State) : Prop :=
  memoryFrame s u ∧ ({ u.curWave with resumed := s.curWave.resumed } : Wave) = s.curWave

/-- The barrier word after an arrival: EXPECT, COUNT and PHASE (R181, R182). -/
def barrierAfter (v : Nat) : Nat :=
  if v % 2 ^ 16 ≤ v / 2 ^ 16 % 2 ^ 16 + 1 then v % 2 ^ 16 + (1 - v / 2 ^ 32 % 2) * 2 ^ 32
  else v % 2 ^ 16 + (v / 2 ^ 16 % 2 ^ 16 + 1) * 2 ^ 16 + v / 2 ^ 32 % 2 * 2 ^ 32

/-- The request of a WAITA (R179). -/
def waitaRequest (s : State) (d : Space) (a : SSrc) : MemReq :=
  { space := (match d with | .global => .global | .core => .core | .cluster => .cluster | .stack => .stack),
    z := wordBytes s.etype, lanes := oneAccess (s.readS64 a) }

/-- The value a WAITA compares (R179). -/
def waitaValue (s : State) (b : SSrc) : Nat :=
  (s.readS (if etIs64 s.etype then .int64 else s.etype) b).toNat % 2 ^ (8 * wordBytes s.etype)

/-- The level of a scope, 1 core to 6 package (R20). -/
def levelOf : Scope → Nat
  | .core => 1 | .cluster => 2 | .die => 3 | .stack => 4 | .interposer => 5 | .package => 6

end Sys2Proof.Claims

/-- PREF faults at nothing: whatever its address it moves on, and changes no register and no memory (R166). FENCE (R177, R323): once the wave's loads have returned, the writes before it are published at its level and the dependencies it
needs are, it completes, and a release opens a new epoch or, at package scope, closes every narrower one; until then its split waits
and issue passes. Rests on the model's own choices, log entries 15 and 131. -/
def Obligations.PrefAndFenceComplete : Prop :=
  (∀ (a b : SSrc) (s : State), s.issues (.pref a b) → ∃ u : State, exec (.pref a b) s = .next u.finishYield ∧ architecturalSame s u) ∧
  ∀ (f : FenceOp) (s : State), s.issues (.fence f) → s.activeMask ≠ 0 →
    let c := s.core s.curWave.core
    let level := levelOf f.scope
    let gate := s.begun.gate level (f.ord != .acquire) (f.ord != .release)
    (s.curSplit.wait = none → s.curWave.loads = [] → c.outcomesKnown s.issue.wave c.nextWrite = true →
      (f.ord ≠ .acquire → c.published c.nextWrite level = true ∧ ∀ t ∈ s.curWave.causes, t.origin.lostWrite = false) →
      depsReady c.deps s.curWave.core level (f.ord != .acquire || f.ord == .release) = true → gate = none) ∧
    (gate = none → ∃ u : State, exec (.fence f) s = .next u.finishYield ∧ architecturalSame s u ∧
      (f.ord = .acquire → u.cores = s.cores) ∧
      (f.ord ≠ .acquire → f.scope = .package →
        u.core s.curWave.core = if c.relMark ≤ s.releaseMark then { c with relLevel := 0 } else c) ∧
      (f.ord ≠ .acquire → f.scope ≠ .package →
        u.core s.curWave.core = { c with epoch := c.epoch + 1, relLevel := level, relMark := c.nextWrite })) ∧
    ∀ g, gate = some g → exec (.fence f) s = .next g.passCur

/-- DRAIN and its event (R180): the split sleeps with the clk of issue as its mark; DRAIN_COMPLETE notes when the unit has become quiet
and ends the wait once it has been quiet for the hold time; the DRAIN then completes with no other effect. Rests on the model's own choices, log entries 58 and 131. -/
def Obligations.DrainCompletes : Prop :=
  ∀ (x : Scope) (s : State),
    (s.issues (.drain x) → s.activeMask ≠ 0 → (∀ l m t, s.curSplit.wait ≠ some (.drain l m t)) → s.curSplit.wait ≠ some .quiet →
      exec (.drain x) s = .next (s.begun.sleepYield (.drain (levelOf x) s.clk none))) ∧
    (s.issues (.drain x) → s.curSplit.wait = some .quiet → ∃ u : State, exec (.drain x) s = .next u.finishYield ∧ architecturalSame s u) ∧
    ∀ (wid k l m : Nat) (since : Option Nat) (w : Wave) (sp : Split), tget? s.waves wid = some w → tget? w.splits k = some sp →
      sp.wait = some (.drain l m since) →
      ∃ t v, exec (.drainComplete wid) s = .next t ∧ ({ t with waves := s.waves } : State) = s ∧
        (∀ j, j ≠ wid → tget? t.waves j = tget? s.waves j) ∧ tget? t.waves wid = some v ∧ ({ v with splits := w.splits } : Wave) = w ∧
        (s.unitQuiet l w.core w.ctx m = false → tget? v.splits k = some { sp with wait := some (.drain l m none) }) ∧
        (s.unitQuiet l w.core w.ctx m = true → since = none → tget? v.splits k = some { sp with wait := some (.drain l m (some s.clk)) }) ∧
        (∀ c, s.unitQuiet l w.core w.ctx m = true → since = some c → c + holdTime l ≤ s.clk →
          tget? v.splits k = some { sp with wait := some .quiet })

/-- WAITA (R179): a read that finds the word equal to B puts the split to sleep at the place, be it the core's own queued store that it
finds (R270); one that finds it different completes and changes nothing; one that has been woken reads the word again with the value and the
class that it first had; WAITA_PERIODIC_WAKE makes a sleeper read again once a sillage period has passed, and no sooner. Rests on the model's own choices, log entries 45, 46 and 131. -/
def Obligations.WaitaCompletes : Prop :=
  (∀ (d : Space) (a b : SSrc) (s : State) (va : Dword) (c : Cell), s.issues (.waita d a b) → s.activeMask ≠ 0 →
    let r := waitaRequest s.begun d a
    let val := waitaValue s.begun b
    let z := wordBytes s.etype
    let x : Watch := { space := d, place := (cellPlace c).1, owner := (cellPlace c).2, z := z, val := val, va := va,
                       level := (s.begun.accessClass 0xB6).level, acquire := (s.begun.accessClass 0xB6).acquire }
    (∀ y t p q, s.curSplit.wait ≠ some (.waita y t p q)) → x.cell = c →
    s.begun.held r.space = false → s.begun.acquiring s.begun.curWave = false → s.begun.check r = .ok [(32, va, c)] →
    (inDram c = none → (s.begun.scratchWait r.space (s.begun.accessClass 0xB6)).isNone = true → (s.readCell c z).2 = false →
      ((s.readCell c z).1 = val →
        exec (.waita d a b) s = .next (s.begun.sleepYield (.waita x s.clk false false))) ∧
      ((s.readCell c z).1 ≠ val → ∃ u : State, exec (.waita d a b) s = .next u.finishYield ∧ architecturalSame s u)) ∧
    ∀ pa, c = .dram pa → s.homeLost pa = false → (tvals s.curWave.loads).any (fun p => p.waitsOn (lineOf pa)) = false →
      let own := if (s.begun.accessClass 0xB6).level ≤ 1 then (s.core s.curWave.core).forward pa z else .none
      (∀ v, own = .bytes v → (v = val → ∃ u : State, exec (.waita d a b) s = .next (u.sleepYield (.waita x s.clk false false)) ∧
          architecturalSame s u) ∧
        (v ≠ val → ∃ u : State, exec (.waita d a b) s = .next u.finishYield ∧ architecturalSame s u)) ∧
      ∀ v u, own = .none → (s.begun.cacheAll r).readNow (lineOf pa) (s.unitsAt pa z) (s.begun.accessClass 0xB6) = .yes v u → v.bad = [] →
      (leNat ((v.bytes.drop (pa % 64)).take z) = val →
        exec (.waita d a b) s = .next (u.sleepYield (.waita x s.clk false false)) ∧ architecturalSame s u) ∧
      (leNat ((v.bytes.drop (pa % 64)).take z) ≠ val → ∃ x : State, exec (.waita d a b) s = .next x.finishYield ∧ architecturalSame s x)) ∧
  (∀ (d : Space) (a b : SSrc) (s : State) (r : Watch) (since : Nat) (woken reading : Bool), s.issues (.waita d a b) →
    s.curSplit.wait = some (.waita r since woken reading) → s.begun.acquiring s.begun.curWave = false → inDram r.cell = none →
    (s.begun.scratchWait (waitSpace r.space) ⟨r.level, r.acquire, false⟩).isNone = true → (s.readCell r.cell r.z).2 = false →
    ((s.readCell r.cell r.z).1 = r.val → exec (.waita d a b) s = .next (s.begun.sleepYield (.waita r s.clk false false))) ∧
    ((s.readCell r.cell r.z).1 ≠ r.val → ∃ u : State, exec (.waita d a b) s = .next u.finishYield ∧ architecturalSame s u)) ∧
  ∀ (s : State) (wid k : Nat) (w : Wave) (sp : Split) (r : Watch) (since : Nat) (woken reading : Bool),
    tget? s.waves wid = some w → tget? w.splits k = some sp → sp.wait = some (.waita r since woken reading) →
    ∃ t x, exec (.waitaPeriodicWake wid) s = .next t ∧ ({ t with waves := s.waves } : State) = s ∧
      (∀ j, j ≠ wid → tget? t.waves j = tget? s.waves j) ∧ tget? t.waves wid = some x ∧ ({ x with splits := w.splits } : Wave) = w ∧
      tget? x.splits k = some { sp with
        wait := some (.waita r since (if since + 64 * s.period w.ctx ≤ s.clk then true else woken) reading) }

/-- BARV and BARW (R181 to R183): an arrival counts, and the last one clears COUNT and turns PHASE; D takes the phase arrived in; no
other byte changes. BARW sleeps while PHASE equals B[0], and completes without effect once it differs; a woken one reads its word again with the
B that it first had. Rests on the model's own choices, log entries 46 and 131. -/
def Obligations.BarriersComplete : Prop :=
  (∀ (d : SDst) (a : SSrc) (s : State) (va : Dword) (c : Cell), s.issues (.barv d a) → s.activeMask ≠ 0 →
    s.begun.check { space := .cluster, access := .rmw, z := 8, lanes := oneAccess (s.readS64 a) } = .ok [(32, va, c)] →
    s.begun.acquiring s.begun.curWave = false → s.curWave.loads = [] → (s.begun.gate 2 true false).isNone = true → (s.readCell c 8).2 = false →
    ∃ u : State, exec (.barv d a) s = .next u.finishYield ∧
      (u.readCell c 8).1 = barrierAfter (s.readCell c 8).1 ∧ (∀ q, byteIn 8 c q = none → cellByte u q = cellByte s q) ∧
      (∀ r, u.curWave.sreg r = if sdstReg d = some r then BitVec.ofNat 64 ((s.readCell c 8).1 / 2 ^ 32 % 2) else s.curWave.sreg r) ∧
      u.curWave.vregs = s.curWave.vregs ∧ u.curWave.preds = s.curWave.preds ∧ u.curWave.splits = s.curWave.splits ∧
      (∀ k, k ≠ s.issue.wave → tget? u.waves k = tget? s.waves k)) ∧
  ∀ (a b : SSrc) (s : State) (va : Dword) (k o ph : Nat), s.issues (.barw a b) → s.begun.acquiring s.begun.curWave = false →
    (s.curSplit.wait = some (.barw k o ph va) ∨
      ((∀ i j p v, s.curSplit.wait ≠ some (.barw i j p v)) ∧ s.activeMask ≠ 0 ∧ ph = (s.readS64 b).toNat % 2 ∧
        s.begun.check { space := .cluster, z := 8, lanes := oneAccess (s.readS64 a) } = .ok [(32, va, .spad k o)])) →
    (s.readCell (.spad k o) 8).2 = false →
    ((s.readCell (.spad k o) 8).1 / 2 ^ 32 % 2 = ph → exec (.barw a b) s = .next (s.begun.sleepYield (.barw k o ph va))) ∧
    ((s.readCell (.spad k o) 8).1 / 2 ^ 32 % 2 ≠ ph → (s.begun.scratchWait .cluster ⟨2, true, false⟩).isNone = true →
      ∃ u : State, exec (.barw a b) s = .next u.finishYield ∧ architecturalSame s u)

/-- LOAD_DATA_RETURN (R167, R171): a load in flight takes the lanes that can be served and keeps those it had; complete, it lands in
its wave, which has not ended, and leaves flight; else it stays. DRAM, scratchpads and every other wave stand as before. Rests on the model's own choices, log entries 8 and 39. -/
def Obligations.LoadDataReturns : Prop :=
  ∀ (s : State) (wid lid : Nat) (p : PLoad), tget? (tgetD s.waves wid {}).loads lid = some p → (tgetD s.waves wid {}).ended = false →
    ∃ (t : State) (q : PLoad), exec (.loadDataReturn wid lid) s = .next t ∧
      q.lanes.map (fun x => (x.lane, x.pa, x.va, x.z)) = p.lanes.map (fun x => (x.lane, x.pa, x.va, x.z)) ∧
      (∀ (k : Nat) (x y : LoadLane), p.lanes[k]? = some x → q.lanes[k]? = some y → x.got.isSome = true → y = x) ∧
      ({ t with
          waves := s.waves, cores := s.cores, clusters := s.clusters, stackTbl := s.stackTbl, homes := s.homes, net := s.net,
          waiting := s.waiting } : State) = s ∧
      (∀ k, k ≠ wid → tget? t.waves k = tget? s.waves k) ∧
      (q.complete = true → tget? (tgetD t.waves wid {}).loads lid = none ∧
        (tgetD t.waves wid {}).vregs = ((tgetD s.waves wid {}).land lid q).vregs ∧
        (tgetD t.waves wid {}).sregs = ((tgetD s.waves wid {}).land lid q).sregs) ∧
      (q.complete = false → tgetD t.waves wid {} = { tgetD s.waves wid {} with loads := tset (tgetD s.waves wid {}).loads lid q })

namespace Sys2Proof.Claims
open Sys2Proof.Machine

/-! Matrix commands, tile ownership, copy windows, gathers and spawn bins. -/

/-- The accumulator elements, scratchpad bytes, DRAM and registers that queueing engine work leaves alone, and every other wave. -/
def workFrame (s u : State) : Prop :=
  u.mem = s.mem ∧ (∀ b, (u.block b).scratch = (s.block b).scratch ∧ (u.block b).acc = (s.block b).acc ∧ (u.block b).lanes = (s.block b).lanes) ∧
  (∀ k, k ≠ s.issue.wave → tget? u.waves k = tget? s.waves k) ∧
  u.curWave.vregs = s.curWave.vregs ∧ u.curWave.sregs = s.curWave.sregs ∧ u.curWave.preds = s.curWave.preds ∧
  u.curWave.mode = s.curWave.mode ∧ u.curWave.splits = s.curWave.splits ∧ u.curWave.latches = s.curWave.latches

/-- A matrix command has entered the queue of its core behind those already there (R199), and holds its tiles (R197, R198): each that
no copy window holds is the matrix unit's, and counts the command. -/
def commandQueued (s u : State) (op : MxOp) (ts : List Nat) (mark : Bool) : Prop :=
  workFrame s u ∧ u.curWave.mxPending = s.curWave.mxPending + 1 ∧
  (∃ c : MxCmd, (u.core s.curWave.core).mq = (s.core s.curWave.core).mq ++ [c] ∧ c.op = op ∧ c.wave = s.issue.wave ∧
    c.block = s.curBlockId ∧ c.tiles = ts ∧ c.enter = s.clk) ∧
  ((∀ t ∈ ts, (s.curBlock.tile t).holder = .none ∨ (s.curBlock.tile t).holder = .matrix) →
    ∀ t, (u.block s.curBlockId).tile t = if t ∈ ts
      then { s.curBlock.tile t with engine := true, holder := .matrix, count := (s.curBlock.tile t).count + 1,
                                    mark := (s.curBlock.tile t).mark || mark }
      else s.curBlock.tile t)

/-- An operand address of a matrix instruction: aligned to 128 bytes, with its span inside the block's scratchpad (R193). -/
def operandInside (s : State) (a n : Nat) : Prop := a % 128 = 0 ∧ a + n ≤ s.curBlock.size

/-- No copy or gather of another owner holds the operand tiles (R197). -/
def tilesFree (s : State) (ts : List Nat) : Prop := ∀ t ∈ ts, (s.mxTile t).2 = true

/-- The taking of THREAD tiles by WBIND, a release at core scope (R218), has nothing to wait for. -/
def takesAtOnce (s : State) (ts : List Nat) : Prop :=
  (∀ t ∈ ts, (s.curBlock.tile t).engine = true) ∨ s.gate 1 true false = none

/-- A tile that a matrix command takes without a release: the matrix unit's, or an ENGINE one that no engine holds. -/
def takenFree (s : State) (t : Nat) : Bool := (s.curBlock.tile t).holder == .matrix || (s.curBlock.tile t).offered

/-- The taking of tiles by a matrix command, a release at core scope where it takes THREAD tiles or those of a window (R197, R206), has
nothing to wait for. -/
def handsAtOnce (s : State) (ts : List Nat) : Prop := ts.all (takenFree s) = true ∨ s.gate 1 true false = none

/-- The state once the tiles have been handed over. -/
def handed (s : State) (ts : List Nat) : State := if ts.all (takenFree s) then s else s.released s.curWave.core 1

/-- A 64-byte record is read at issue as a plain load (R213), after the wave's earlier loads of its line and the core's stores to it. -/
def recordRead (s : State) (a : Dword) (u : State) (bs : List Byte) : Prop :=
  a.toNat % 64 = 0 ∧ s.inFrame a = false ∧ s.held .global = false ∧ s.acquiring s.curWave = false ∧
  ∃ pa v, s.xlate s.curWave.core s.curWave.ctx a .read = .ok pa ∧ s.homeLost pa = false ∧
    (tvals s.curWave.loads).any (fun p => p.waitsOn pa) = false ∧ (s.core s.curWave.core).queued pa = false ∧
    (s.cacheXlate s.curWave.core s.curWave.ctx a).readLine s.curWave.core s.curWave.ctx pa (s.lineUnits pa) s.plainClass = .yes v u ∧
    v.bad = [] ∧ v.bytes = bs

/-- The wave's block is resident. -/
def blockHere (s : State) : Prop := s.curWave.block.isSome = true ∧ (tget? s.blocks s.curBlockId).isSome = true

/-- What a command leaves in flight when it completes: the queue without it, its tiles counted down, a marked tile whose count ends
back with the threads with PHASE turned, and one pending command fewer (R198, R205). -/
def commandDone (s t : State) (core : Nat) (c : MxCmd) : Prop :=
  (t.core core).mq = (s.core core).mq.drop 1 ∧ (tgetD t.waves c.wave {}).mxPending = (tgetD s.waves c.wave {}).mxPending - 1 ∧
  (∀ k ∈ c.tiles, c.tiles.count k = 1 → let x := (s.block c.block).tile k
    (t.block c.block).tile k = if x.count - 1 = 0 ∧ x.mark = true
      then { x with engine := false, phase := !x.phase, holder := .none, count := 0, mark := false } else { x with count := x.count - 1 }) ∧
  (∀ k, k ∉ c.tiles → (t.block c.block).tile k = (s.block c.block).tile k) ∧
  t.mem = s.mem ∧ (∀ b, b ≠ c.block → t.block b = s.block b) ∧ (∀ k, k ≠ c.wave → tget? t.waves k = tget? s.waves k)

end Sys2Proof.Claims

/-- MMZ, MMD and WLOAD complete at issue (R202 to R204), with no acquire of the wave in flight and nothing to wait for before tiles
are handed over or the vectors are read: the command with its issue-time operands is queued; MMZ empties the drain record, MMD has read MODE, the record and
its vectors, WLOAD has set the slot's issued format. Rests on the model's own choice, log entry 142. -/
def Obligations.MatrixIssue : Prop :=
  ∀ s : State, blockHere s → s.activeMask ≠ 0 → (s.core s.curWave.core).mq.length < 16 → s.begun.acquiring s.begun.curWave = false →
    (∀ d : Fin 8, s.issues (.mmz d) → ∃ u : State, exec (.mmz d) s = .next u.finish ∧ commandQueued s u (.mmz d.val) [] false ∧
      ∀ k, tgetD (u.block s.curBlockId).drains k {} = if k = d.val then {} else tgetD s.curBlock.drains k {}) ∧
    (∀ (d : Fin 8) (a : SSrc) (flag : Bool) (n : Nat), s.issues (.mmd d a flag) → mmdBytes s.etype = some n →
      let addr := (s.readS64 a).toNat
      let rcd := tgetD s.curBlock.drains d.val {}
      let vecs := [rcd.ascale, rcd.bscale, rcd.bias].filterMap id
      operandInside s addr n → tilesFree s (spanTiles addr n) → handsAtOnce s.begun (spanTiles addr n) →
      (vecs = [] ∨ ((handed s.begun (spanTiles addr n)).scratchWait .core (handed s.begun (spanTiles addr n)).plainClass).isNone = true) →
      (∀ v ∈ vecs, ∀ k ∈ spanTiles v 128, (s.curBlock.tile k).engine = false) →
      ∃ u : State, exec (.mmd d a flag) s = .next u.finish ∧ commandQueued s u (.mmd d.val addr s.issue.mode flag (rcd.act == 1)
        (rcd.ascale.map s.curBlock.vec32) (rcd.bscale.map s.curBlock.vec32) (rcd.bias.map s.curBlock.vec32)
        (vecs.any (fun v => (s.curBlock.poisoned v 128).isSome))) (spanTiles addr n) true) ∧
    ∀ (d : Fin 16) (a : SSrc) (f : Fin 80), s.issues (.wload d a f) → mxFormat f.val = true → d.val < 2 * s.curBlock.accum →
      let addr := (s.readS64 a).toNat
      operandInside s addr (imageBytes f.val) → tilesFree s (spanTiles addr (imageBytes f.val)) →
      handsAtOnce s.begun (spanTiles addr (imageBytes f.val)) →
      ∃ u : State, exec (.wload d a f) s = .next u.finish ∧ commandQueued s u (.wload d.val addr f.val) (spanTiles addr (imageBytes f.val)) true ∧
        ∀ k, tgetD (u.block s.curBlockId).slots k {} = if k = d.val then { tgetD s.curBlock.slots k {} with issued := some f.val }
          else tgetD s.curBlock.slots k {}

/-- MMA completes at issue when its format block passes the checks (R192, R193, R200, R201): the command is queued, and the drain
record of its tile takes the scales, the bias and the activation of the block. MMSYNC completes once no command of the wave is left. Rests on the model's own choice, log entry 142. -/
def Obligations.MmaIssue : Prop :=
  ∀ (d : Fin 8) (a : SSrc) (b : Fin 16) (s : State), blockHere s → s.activeMask ≠ 0 →
    (s.issues (.mma d a b) → (s.core s.curWave.core).mq.length < 16 → s.begun.acquiring s.begun.curWave = false →
      let r (k : Nat) : Nat := (s.curWave.sreg (4 * b.val + k)).toNat
      let afmt := r 0 % 16
      let bfmt := r 0 / 16 % 16
      let slot := r 0 / 2 ^ 24 % 16
      let addr := (s.readS64 a).toNat
      let vecs := [r 1 % 2 ^ 32, r 1 / 2 ^ 32, r 2 % 2 ^ 32]
      r 0 / 2 ^ 29 % 8 = 0 → r 0 / 2 ^ 36 = 0 → r 2 / 2 ^ 32 = 0 → r 3 = 0 → r 0 / 2 ^ 32 % 16 < 2 →
      r 0 / 256 % 256 = (if 13 ≤ afmt then 16 else 0) → r 0 / 65536 % 256 = (if 13 ≤ bfmt then 16 else 0) →
      mxFormat afmt = true → mxFormat bfmt = true → slot < 2 * s.curBlock.accum →
      (tgetD s.curBlock.slots slot {}).issued = some bfmt → operandInside s addr (aBytes afmt) →
      (∀ v ∈ vecs, v ≠ 0xFFFFFFFF → operandInside s v 128) → tilesFree s (spanTiles addr (aBytes afmt)) →
      handsAtOnce s.begun (spanTiles addr (aBytes afmt)) →
      ∃ u : State, exec (.mma d a b) s = .next u.finish ∧
        commandQueued s u (.mma d.val addr afmt bfmt slot (decide (r 0 / 2 ^ 28 % 2 = 1))) (spanTiles addr (aBytes afmt))
          (decide (r 0 / 2 ^ 28 % 2 = 1)) ∧
        ∀ k, tgetD (u.block s.curBlockId).drains k {} = if k = d.val
          then ⟨noneIfOnes (r 1 % 2 ^ 32), noneIfOnes (r 1 / 2 ^ 32), noneIfOnes (r 2 % 2 ^ 32), r 0 / 2 ^ 32 % 16⟩
          else tgetD s.curBlock.drains k {}) ∧
    (s.issues .mmsync → (s.curWave.mxPending = 0 → ∃ t : State, exec .mmsync s = .next t ∧ s.effectDone t (fun w => w)) ∧
      (s.curWave.mxPending ≠ 0 → exec .mmsync s = .next (s.begun.stall .retry)))

/-- The head command of a matrix queue completes (R73, R198, R200 to R204, R207): an MMA accumulates the products of A and B into each
element, an MMZ clears its tile to +0, an MMD writes exactly the drained bytes, a WLOAD replaces the image of its slot. Rests on the model's own choices, log entries 31, 33, 65 and 132. -/
def Obligations.MatrixExecute : Prop :=
  ∀ (s : State) (core : Nat) (c : MxCmd), s.mxHead core = some c → (tget? s.blocks c.block).isSome = true →
    (tgetD s.waves c.wave {}).ended = false →
    let b := s.block c.block
    (∀ acc a afmt bfmt slot rel, c.op = .mma acc a afmt bfmt slot rel →
      ∃ t : State, exec (.mmaExecute core) s = .next t ∧ commandDone s t core c ∧ (t.block c.block).scratch = b.scratch ∧
        (∀ i j, i < 32 → j < 32 → tgetD (t.block c.block).acc (acc * 1024 + 32 * i + j) 0 =
          BitVec.ofNat 32 (accumulate (tgetD b.acc (acc * 1024 + 32 * i + j) 0).toNat ((List.range 128).map (fun k =>
            product (b.aElem a afmt i k) ((tgetD b.slots slot {}).bElem k j))))) ∧
        ∀ k, k / 1024 ≠ acc → tgetD (t.block c.block).acc k 0 = tgetD b.acc k 0) ∧
    (∀ acc, c.op = .mmz acc → ∃ t : State, exec (.mmzExecute core) s = .next t ∧ commandDone s t core c ∧ (t.block c.block).scratch = b.scratch ∧
      (∀ k, tgetD (t.block c.block).acc k 0 = if k / 1024 = acc then 0 else tgetD b.acc k 0) ∧ acc ∉ (t.block c.block).accPoison) ∧
    (∀ acc dst m flag relu rs cs bias poison, c.op = .mmd acc dst m flag relu rs cs bias poison →
      let bytes := drainBytes (modeEtype m) (modeRound m) (modeSat m) (fun i j => drainElem (modeRound m) relu (rs.map (fun v => v.getD i 0))
        (cs.map (fun v => v.getD j 0)) (bias.map (fun v => v.getD j 0)) (tgetD b.acc (acc * 1024 + 32 * i + j) 0).toNat)
      ∃ t : State, exec (.mmdExecute core) s = .next t ∧ commandDone s t core c ∧
        (∀ a, memByte (t.block c.block).scratch a =
          if dst ≤ a ∧ a < dst + bytes.length then bytes.getD (a - dst) 0 else memByte b.scratch a) ∧
        ∀ k, tgetD (t.block c.block).acc k 0 = if flag = true ∧ k / 1024 = acc then 0 else tgetD b.acc k 0) ∧
    ∀ slot src fmt, c.op = .wload slot src fmt → ∃ t : State, exec (.wloadExecute core) s = .next t ∧ commandDone s t core c ∧
      (t.block c.block).scratch = b.scratch ∧ (t.block c.block).acc = b.acc ∧
      ∀ k, tgetD (t.block c.block).slots k {} = if k = slot
        then { tgetD b.slots k {} with
                fmt := fmt, bytes := memBytes b.scratch src (storedBytes fmt (memNat b.scratch src 8)),
                poison := (b.poisoned src (storedBytes fmt (memNat b.scratch src 8))).isSome }
        else tgetD b.slots k {}

/-- TOWN and TWAIT (R214, R215): a give makes THREAD tiles ENGINE-owned and held by nothing, a take makes offered tiles THREAD-owned,
each names an aligned span inside the scratchpad, and no other tile changes; TWAIT returns the state word once the tile is in the state
it names, or at once under NOWAIT, and sleeps otherwise; a woken one looks at the tile and for the state that it first named. Rests on the model's own choices, log entries 114 and 131. -/
def Obligations.TileHandOver : Prop :=
  ∀ (s : State) (a b : SSrc), blockHere s → s.activeMask ≠ 0 →
    let av := (s.readS64 a).toNat
    let n := (s.readS64 b).toNat
    let inSpan (t : Nat) : Prop := av / 8192 ≤ t ∧ t < av / 8192 + n
    (av % 8192 = 0 → 1 ≤ n → n ≤ 48 → av + 8192 * n ≤ s.curBlock.size →
      (s.issues (.townGive a b) → (∀ t, inSpan t → (s.curBlock.tile t).engine = false) → s.begun.gate 1 true false = none →
        ∃ u : State, exec (.townGive a b) s = .next u.finishYield ∧ workFrame s u ∧ ∀ t,
          (inSpan t → (u.block s.curBlockId).tile t = { s.curBlock.tile t with engine := true, holder := .none }) ∧
          (¬inSpan t → (u.block s.curBlockId).tile t = s.curBlock.tile t)) ∧
      (s.issues (.townTake a b) → (∀ t, inSpan t → (s.curBlock.tile t).engine = true ∧ (s.curBlock.tile t).holder = .none) →
        ∃ u : State, exec (.townTake a b) s = .next u.finishYield ∧ workFrame s u ∧ ∀ t,
          (inSpan t → (u.block s.curBlockId).tile t = { s.curBlock.tile t with engine := false }) ∧
          (¬inSpan t → (u.block s.curBlockId).tile t = s.curBlock.tile t))) ∧
    ∀ d : SDst, s.issues (.twait d a b) → ∀ (k e : Nat) (now : Bool),
      (s.curSplit.wait = some (.twait k e) ∧ now = false) ∨
        ((∀ i j, s.curSplit.wait ≠ some (.twait i j)) ∧ av < s.curBlock.size ∧ k = av / 8192 ∧ e = n % 4 ∧ now = decide (n / 4 % 2 = 1)) →
      let x := s.curBlock.tile k
      let word := (if x.engine then 1 else 0) + (if x.phase then 2 else 0) + s.curWave.ctx % 64 * 4
      (now = true ∨ (x.engine = decide (e / 2 % 2 = 1) ∧ x.phase = decide (e % 2 = 1)) →
        ∃ u : State, exec (.twait d a b) s = .next u.finishYield ∧ u.mem = s.mem ∧ u.blocks = s.blocks ∧
          (∀ r, u.curWave.sreg r = if sdstReg d = some r then BitVec.ofNat 64 word else s.curWave.sreg r) ∧
          u.curWave.vregs = s.curWave.vregs ∧ u.curWave.preds = s.curWave.preds) ∧
      (now = false → ¬(x.engine = decide (e / 2 % 2 = 1) ∧ x.phase = decide (e % 2 = 1)) →
        exec (.twait d a b) s = .next (s.begun.sleepYield (.twait k e)))

/-- WBIND, WTOUCH, WUNBIND and WSTAT (R216 to R222): a binding whose descriptor and destination pass the checks makes the window ABSENT
and its tiles the window's; a touch starts the copy of an ABSENT window and does nothing to a bound one beyond; unbinding frees the
window, and an ABSENT one hands back the tiles it holds; WSTAT reads state, status and place. Rests on the model's own choice, log entry 153. -/
def Obligations.WindowsComplete : Prop :=
  ∀ s : State, blockHere s → s.activeMask ≠ 0 →
    let k := s.curBlockId
    (∀ (d : Fin 16) (a : SSrc) (x : State) (bs : List Byte) (wd : WinDesc), s.issues (.wbind d a) → recordRead s.begun (s.readS64 a) x bs →
      parseWindow bs = some wd → (s.curBlock.window d.val).st ≠ .inflight → (s.curBlock.window d.val).st ≠ .stalled →
      wd.dest + wd.tiles * 8192 ≤ s.curBlock.size → (∀ f, wd.flagAddr = some f → f < s.curBlock.size) →
      (∀ t ∈ wd.span, (s.curBlock.tile t).engine = false ∨ (s.curBlock.tile t).holder = .none ∨
        ((s.curBlock.tile t).holder = .copy d.val ∧ (s.curBlock.window d.val).st = .absent)) →
      takesAtOnce x wd.span →
      ∃ u : State, exec (.wbind d a) s = .next u.finish ∧ workFrame s u ∧
        (∀ w, (u.block k).window w = if w = d.val then { s.curBlock.window w with st := .absent, desc := wd, bound := true }
          else s.curBlock.window w) ∧
        (∀ t ∈ wd.span, (u.block k).tile t = { s.curBlock.tile t with engine := true, holder := .copy d.val }) ∧
        (∀ t, t ∉ wd.span → (s.curBlock.tile t).holder ≠ .copy d.val → (u.block k).tile t = s.curBlock.tile t)) ∧
    (∀ w : Fin 16, s.issues (.wtouch w) →
      ((s.curBlock.window w.val).st = .free → exec (.wtouch w) s = .next (s.begun.trapHere (s.info 0x04 s.curSplit.mask.toNat))) ∧
      ((s.curBlock.window w.val).st = .absent → s.begun.acquiring s.begun.curWave = false → s.curWave.loads = [] → ∃ u : State, exec (.wtouch w) s = .next u.finish ∧ workFrame s u ∧
        u.curWave.engPending = s.curWave.engPending + 1 ∧ ((u.block k).window w.val).st = .inflight ∧
        ((u.block k).window w.val).desc = (s.curBlock.window w.val).desc ∧ ((u.block k).window w.val).starter = s.issue.wave ∧
        ((u.block k).window w.val).started = s.clk ∧ (∀ j, j ≠ w.val → (u.block k).window j = s.curBlock.window j)) ∧
      ((s.curBlock.window w.val).st ≠ .free → (s.curBlock.window w.val).st ≠ .absent → s.begun.acquiring s.begun.curWave = false → s.curWave.loads = [] →
        ∃ t : State, exec (.wtouch w) s = .next t ∧ s.effectDone t (fun v => v))) ∧
    (∀ w : Fin 16, s.issues (.wunbind w) →
      ((s.curBlock.window w.val).st = .free → ∃ t : State, exec (.wunbind w) s = .next t ∧ s.effectDone t (fun v => v)) ∧
      ((s.curBlock.window w.val).st = .absent ∨ (s.curBlock.window w.val).st = .present →
        ∃ u : State, exec (.wunbind w) s = .next u.finish ∧ workFrame s u ∧
          (∀ j, (u.block k).window j = if j = w.val then { s.curBlock.window j with st := .free } else s.curBlock.window j) ∧
          (∀ t, (u.block k).tile t =
            if (s.curBlock.window w.val).st = .absent ∧ t ∈ (s.curBlock.window w.val).desc.span ∧ (s.curBlock.tile t).holder = .copy w.val
            then { s.curBlock.tile t with engine := false, holder := .none } else s.curBlock.tile t))) ∧
    ∀ (d : SDst) (w : Fin 16), s.issues (.wstat d w) →
      let x := s.curBlock.window w.val
      let code := match x.st with | .free => 0 | .absent => 1 | .inflight => 2 | .present => 3 | .stalled => 4
      ∃ t : State, exec (.wstat d w) s = .next t ∧ s.scalarDone t d (BitVec.ofNat 64 (code + x.last * 2 ^ 8 +
        (if x.bound then x.desc.dest / 8192 * 2 ^ 16 + (x.desc.tiles - 1) * 2 ^ 24 else 0)))

/-- GATHER, SPAWN and the timer of a bin (R231, R232, R236, R345): a gather whose descriptor passes takes its tiles and enters its
engine's queue behind the commands there; a thread enters the bin of its key or the lowest empty one that no other waits for, which
launches when full; with no bin for it the oldest is flushed and the wave waits, and then enters that one; a bin whose timer has expired launches with what it holds. Rests on the model's own choices, log entries 20 and 153. -/
def Obligations.GatherAndSpawnComplete : Prop :=
  (∀ (s : State) (a : SSrc) (x : State) (bs : List Byte) (c : GatherCmd), blockHere s → s.activeMask ≠ 0 → s.issues (.gather a) →
    recordRead s.begun (s.readS64 a) x bs → parseGather bs = some c → c.spad + c.spanBytes ≤ s.curBlock.size →
    (∀ f, c.flagAddr = some f → f < s.curBlock.size) →
    (∀ t ∈ c.tiles, (s.curBlock.tile t).engine = true ∧ (s.curBlock.tile t).holder = .none) →
    (x.cluster (clusterOf s.curWave.core)).gather.length < 16 → s.curWave.loads = [] →
    ∃ u : State, exec (.gather a) s = .next u.finish ∧ workFrame s u ∧ u.curWave.engPending = s.curWave.engPending + 1 ∧
      (∃ e : GatherCmd, (u.cluster (clusterOf s.curWave.core)).gather = (x.cluster (clusterOf s.curWave.core)).gather ++ [e] ∧
        e.idx = c.idx ∧ e.table = c.table ∧ e.offs = c.offs ∧ e.trows = c.trows ∧ e.count = c.count ∧ e.nseg = c.nseg ∧ e.rowb = c.rowb ∧
        e.op = c.op ∧ e.spad = c.spad ∧ e.wave = s.issue.wave ∧ e.block = s.curBlockId ∧ e.ctx = s.curWave.ctx ∧ e.commit = 0) ∧
      ∀ t, (u.block s.curBlockId).tile t =
        if t ∈ c.tiles then { s.curBlock.tile t with holder := .gather } else s.curBlock.tile t) ∧
  (∀ (s : State) (a b : SSrc), s.activeMask ≠ 0 → s.issues (.spawn a b) →
    let key := s.readS64 a
    let arg := s.readS64 b
    let g := clusterOf s.curWave.core
    let bins := s.cluster g
    key.toNat % 4 = 0 → key.toNat < 2 ^ 55 →
    (∀ j, (s.curSplit.wait = some (.bin j) ∧ (tgetD bins.bins j {}).threads = []) ∨ ((∀ k, s.curSplit.wait ≠ some (.bin k)) ∧
        s.begun.gate 2 true false = none ∧ bins.binFor key (s.curWave.launch.getD 0) (s.begun.binAwaited g) = some j) →
      ∃ u : State, exec (.spawn a b) s = .next u.finish ∧ workFrame s u ∧
        (tgetD (u.cluster g).bins j {}).threads = (tgetD bins.bins j {}).threads ++ [(arg.setWidth 32, arg.extractLsb' 32 32)] ∧
        (tgetD (u.cluster g).bins j {}).launching = decide (32 ≤ (tgetD bins.bins j {}).threads.length + 1) ∧
        ((tgetD bins.bins j {}).threads = [] → (tgetD (u.cluster g).bins j {}).key = key ∧
          (tgetD (u.cluster g).bins j {}).deadline = s.timeNs + max 1 (s.curCtx.spawntmr.toNat % 2 ^ 16)) ∧
        ∀ i, i ≠ j → tgetD (u.cluster g).bins i {} = tgetD bins.bins i {}) ∧
    ((∀ k, s.curSplit.wait ≠ some (.bin k)) → s.begun.gate 2 true false = none →
      bins.binFor key (s.curWave.launch.getD 0) (s.begun.binAwaited g) = none → ∃ u : State, exec (.spawn a b) s = .next (u.stall (.bin bins.oldestBin)) ∧
      workFrame s u ∧ tget? (u.cluster g).bins bins.oldestBin =
        (tget? bins.bins bins.oldestBin).map (fun x => { x with launching := true }))) ∧
  ∀ (s : State) (g j : Nat) (x : Bin), tget? (s.cluster g).bins j = some x →
    ∃ t : State, exec (.spawnBinTimer g j) s = .next t ∧
      ({ t with clusters := s.clusters } : State) = s ∧ (∀ i, i ≠ g → t.cluster i = s.cluster i) ∧
      ({ t.cluster g with bins := (s.cluster g).bins } : Cluster) = s.cluster g ∧
      (∀ i, i ≠ j → tget? (t.cluster g).bins i = tget? (s.cluster g).bins i) ∧
      tget? (t.cluster g).bins j = some (if x.threads ≠ [] ∧ x.deadline ≤ s.timeNs then { x with launching := true } else x)

namespace Sys2Proof.Claims
open Sys2Proof.Machine

/-! Decant counters, objects, the privileged instructions, and the events of engines and waves. -/

/-- The address of a decant instruction that waits for a slice, its kind and its count (R246). -/
def decantRow (s : State) : Instr → Option (Dword × Nat × Nat)
  | .dctake _ a b => some (s.readS64 a, 0, (s.readS64 b).toNat)
  | .dcgive _ a b => some (s.readS64 a, 1, (s.readS64 b).toNat)
  | .dcread _ a => some (s.readS64 a, 2, 0)
  | .dcreadx _ a => some (s.readS64 a, 3, 0)
  | .dcdrop _ a => some (s.readS64 a, 4, 0)
  | _ => none

/-- The scalar registers that a decant instruction writes, each with whether it takes the second word of the result (R246). -/
def decantDst : Instr → Nat → Option Bool
  | .dctake d _ _, r | .dcgive d _ _, r | .dcreadx d _, r | .dcdrop d _, r => if sdstReg d = some r then some false else none
  | .dcread d _, r => if r = 2 * d.val then some false else if r = 2 * d.val + 1 then some true else none
  | _, _ => none

/-- The waits of a decant instruction before it is filed are over: the wave's loads, and the release of one that writes (R249, R255). -/
def decantClear (s : State) (writes : Bool) : Prop :=
  s.begun.acquiring s.begun.curWave = false ∧ s.curWave.loads = [] ∧ (writes = true → 2 ≤ modeOrd s.issue.mode → s.gate 6 true false = none)

/-- No message of a decant counter is in flight, and none waits at a slice or at the counter's home. -/
def decantQuiet (s : State) (g r : Nat) : Prop :=
  (∀ i ∈ s.net, decantLane i = none) ∧ (s.allowance g r).later = [] ∧ ∀ c, s.counter r = some c → c.queue = []

/-- The bytes of a context's completion ring that the next record takes, if the ring is on and its page can be written (R224, R225). -/
def ringSlot (s : State) (ctx : Nat) : Option Nat :=
  let c := s.ctx ctx
  let n := c.cring.toNat % 64
  if n < 6 ∨ 16 < n then none
  else match s.enginePlace ctx (ringBase c.cring + BitVec.ofNat 64 (64 * ((c.ringSeq - 1) % 2 ^ n))) .write with
    | .ok pa => some pa
    | .error _ => none

/-- DRAM is as before but for the bytes of the completion record, if one was written. -/
def onlyRecord (s t : State) (slot : Option Nat) : Prop :=
  ∀ a, (∀ p, slot = some p → a < p ∨ p + 64 ≤ a) → memByte t.mem a = memByte s.mem a

/-- The 4 bytes of a completion flag. -/
def flagByte (flag : Option Nat) (v : Word) (a : Nat) : Option Byte :=
  match flag with
  | some f => if f ≤ a ∧ a < f + 4 then (leBytes 4 v.toNat)[a - f]? else none
  | none => none

end Sys2Proof.Claims

/-- DCINIT, DCTAKE, DCGIVE, DCREAD, DCREADX and DCDROP (R246 to R252): DCINIT writes the 64-byte image and makes the home entry;
another operation is filed and its wave waits at it, a take within the slice's allowance and a give within CAP being done at once;
a done operation writes its result, and one that failed traps. Rests on the model's own choices, log entries 55 and 56. -/
def Obligations.DecantInstructions : Prop :=
  (∀ (d : Fin 64) (a b : SSrc) (s : State) (r : Nat), s.issues (.dcinit d a b) → s.activeMask ≠ 0 → decantClear s.begun true →
    (s.readS64 b).toNat < 2 ^ 48 → (s.curWave.sreg d.val).toNat < 2 ^ 40 → s.begun.decantCheck (s.readS64 a) false = .ok r → r % 64 = 0 →
    s.counter r = none → s.recordState r ∈ [0, 1, 2, 15] → (s.cluster (homeSlice r)).counters.length < 1024 → s.lineBusy r = false →
    (∀ k, k < 64 → s.deviceByte (r + k) = false) →
    ∃ u : State, exec (.dcinit d a b) s = .next u.finish ∧
      (∀ k, k < 64 → memByte u.mem (r + k) = (freshRecord (s.readS64 b).toNat (s.curWave.sreg d.val).toNat).getD k 0) ∧
      (∀ k, (k < r ∨ r + 64 ≤ k) → memByte u.mem k = memByte s.mem k) ∧ u.counter r = some {} ∧
      u.curWave.sregs = s.curWave.sregs ∧ u.curWave.vregs = s.curWave.vregs ∧ (∀ k, k ≠ s.issue.wave → tget? u.waves k = tget? s.waves k)) ∧
  (∀ (i : Instr) (s : State) (va : Dword) (kind n r : Nat), decantRow s.begun i = some (va, kind, n) → s.issues i → s.activeMask ≠ 0 →
    (∀ op, s.curSplit.wait ≠ some (.decant op)) → n < 2 ^ 48 → s.begun.decantCheck va false = .ok r →
    decantClear s.begun (decide (kind ≠ 2)) → (s.core s.curWave.core).queued (lineOf r) = false →
    let g := clusterOf s.curWave.core
    let op := s.nextDecant
    let e := s.allowance g r
    ∃ u : State, exec i s = .next (u.stall (.decant op)) ∧ u.nextDecant = op + 1 ∧ u.mem = s.mem ∧
      (∃ x, tget? u.decants op = some x ∧ x.wave = s.issue.wave ∧ x.kind = kind ∧ x.n = n ∧ x.cluster = g ∧ x.record = r) ∧
      (kind = 0 → e.held = true → e.waiters = [] → n ≤ e.a → (u.allowance g r).a = e.a - n ∧
        ∃ x, tget? u.decants op = some x ∧ x.done = true ∧ x.lo = decantResult n 0) ∧
      (kind = 1 → e.held = true → e.waiters = [] → e.a + n ≤ s.cap r → (u.allowance g r).a = e.a + n ∧
        ∃ x, tget? u.decants op = some x ∧ x.done = true ∧ x.lo = decantResult n 0) ∧
      (kind = 0 → (e.held = false ∨ e.waiters ≠ [] ∨ e.a < n) → op ∈ (u.allowance g r).waiters) ∧
      (decantQuiet s g r →
        (kind = 1 → (e.held = false ∨ s.cap r < e.a + n) → .decantGiveMsg r g n op ∈ u.net) ∧
        (kind = 2 → .decantReadAtHome r g .read op ∈ u.net) ∧ (kind = 3 → .decantReadAtHome r g .exact op ∈ u.net) ∧
        (kind = 4 → .decantReadAtHome r g .drop op ∈ u.net))) ∧
  ∀ (i : Instr) (s : State) (va : Dword) (kind n op : Nat) (x : DecantOp), decantRow s.begun i = some (va, kind, n) → s.issues i →
    s.activeMask ≠ 0 → s.curSplit.wait = some (.decant op) → tget? s.decants op = some x →
    (x.done = false → exec i s = .next s.begun) ∧
    (x.done = true → x.trap = none → ∃ u : State, exec i s = .next u.finish ∧ ({ u with waves := s.waves, decants := s.decants } : State) = s ∧
      u.decants = tdel s.decants op ∧ (∀ k, k ≠ s.issue.wave → tget? u.waves k = tget? s.waves k) ∧
      u.curWave.vregs = s.curWave.vregs ∧ u.curWave.preds = s.curWave.preds ∧
      ∀ r, u.curWave.sreg r = match decantDst i r with
        | some false => x.lo
        | some true => x.hi
        | none => s.curWave.sreg r) ∧
    ∀ c dt, x.done = true → x.trap = some (c, dt) →
      exec i s = .next (({ s.begun with decants := tdel s.decants op } : State).trapHere (s.info c dt x.va))

/-- OBJDECL and OBJDROP (R239, R240, R328, R330), where no unit of the range has an entry at its home and no message concerns it: a declaration makes the object's
entries in every stack that homes part of it and returns the handle, or an error code with no free number or an overlap; a drop ends
the object that the handle names, and a dead handle traps. Rests on the model's own choices, log entries 61, 62 and 63. -/
def Obligations.ObjectsComplete : Prop :=
  (∀ (d : SDst) (a : SSrc) (s x : State) (bs : List Byte) (sh : Shape), s.issues (.objdecl d a) → s.activeMask ≠ 0 →
    s.curSplit.wait = none → recordRead s.begun (s.readS64 a) x bs → parseShape bs = some sh →
    let frames := x.framesOf s.curWave.ctx sh.range.1 sh.range.2
    let ks := x.objectStacks frames
    let free := (List.range 4096).find? (fun n => ks.all (fun k => x.numberFree k n))
    let overlap := (tvals x.objects).any (fun o => o.live && o.frames.any (fun g => frames.any (framesMeet g)))
    (free = none → ∃ u : State, exec (.objdecl d a) s = .next u.finish ∧ u.objects = s.objects ∧ u.mem = s.mem ∧
      (∀ r, u.curWave.sreg r = if sdstReg d = some r then 0x8000000000000001#64 else s.curWave.sreg r)) ∧
    (∀ n, free = some n → overlap = true → ∃ u : State, exec (.objdecl d a) s = .next u.finish ∧ u.objects = s.objects ∧ u.mem = s.mem ∧
      (∀ r, u.curWave.sreg r = if sdstReg d = some r then 0x8000000000000002#64 else s.curWave.sreg r)) ∧
    ∀ n, free = some n → overlap = false →
      let o : ObjEntry := { ctx := s.curWave.ctx, gen := x.generation n + 1, live := true, declaring := true, shape := sh, frames := frames }
      let y : State := { x with objects := ks.foldl (fun t k => tset t (k * 4096 + n) o) x.objects }
      y.trackedUnits o = [] → y.rangeBusy o = false →
      ∃ u : State, exec (.objdecl d a) s = .next u.finish ∧ u.mem = s.mem ∧ u.curWave.vregs = s.curWave.vregs ∧
        (∀ r, u.curWave.sreg r = if sdstReg d = some r then BitVec.ofNat 64 (n + (x.generation n + 1) % 2 ^ 16 * 2 ^ 16)
          else s.curWave.sreg r) ∧
        ∀ k, k < 8 → ∀ m, m < 4096 → tgetD u.objects (k * 4096 + m) {} =
          if m = n ∧ k ∈ ks then { ctx := s.curWave.ctx, gen := x.generation n + 1, live := true, shape := sh, frames := frames }
          else tgetD s.objects (k * 4096 + m) {}) ∧
  ∀ (a : SSrc) (s : State), s.issues (.objdrop a) → s.activeMask ≠ 0 → s.curSplit.wait = none →
    let h := (s.readS64 a).toNat
    ((2 ^ 32 ≤ h ∨ h / 2 ^ 12 % 16 ≠ 0 ∨ s.objectOf s.curWave.ctx (h % 4096) (h / 2 ^ 16) = none) →
      exec (.objdrop a) s = .next (s.begun.trapHere (s.info 0x04 s.curSplit.mask.toNat))) ∧
    ∀ o, h < 2 ^ 32 → h / 2 ^ 12 % 16 = 0 → s.objectOf s.curWave.ctx (h % 4096) (h / 2 ^ 16) = some o → s.trackedUnits o = [] →
      s.rangeBusy o = false →
      ∃ u : State, exec (.objdrop a) s = .next u.finish ∧ u.mem = s.mem ∧ u.curWave.sregs = s.curWave.sregs ∧
        ∀ k, k < 8 → (tgetD u.objects (k * 4096 + h % 4096) {}).live =
          ((tgetD s.objects (k * 4096 + h % 4096) {}).live && (tgetD s.objects (k * 4096 + h % 4096) {}).gen != o.gen)

/-- The privileged instructions (R131, R133, R302 to R307, R379): CRWR keeps the writable fields of a control register and discards
the rest; CARVE refuses a size beyond 16 ways and otherwise changes SPWAYS once it is the oldest of its context and nothing of the context is on its way; TLBINV and ICINV
drop what they name in every core, hold, and end when the idle tree reports. Rests on the model's own choices, log entries 58, 134, 146 and 159. -/
def Obligations.PrivilegedComplete : Prop :=
  (∀ (r : CReg) (b : SSrc) (s : State), s.issues (.crwr r b) → s.activeMask ≠ 0 → (tget? s.ctxs s.curWave.ctx).isSome = true →
    let v := s.readS64 b
    let c := s.curCtx
    ∃ u : State, exec (.crwr r b) s = .next u.finish ∧ u.mem = s.mem ∧ u.curWave.sregs = s.curWave.sregs ∧ u.curWave.vregs = s.curWave.vregs ∧
      (∀ k, k ≠ s.curWave.ctx → u.ctx k = s.ctx k) ∧ u.ctx s.curWave.ctx = match r with
        | .sillage => { c with sillage := v &&& 0x7FFF#64 }
        | .trapvec => { c with trapvec := v &&& 0x000FFFFFFFFFFFFD#64 }
        | .spawntmr => { c with spawntmr := v &&& 0xFFFF#64 }
        | .ctxmode => { c with ctxmode := v &&& 0x1F#64 }
        | .cring => { c with cring := v &&& 0x000FFFFFFFFFF03F#64, ringSeq := 1 }
        | _ => c) ∧
  (∀ (d : SDst) (a : SSrc) (s : State), s.issues (.carve d a) → s.activeMask ≠ 0 → s.curSplit.wait = none →
    (tget? s.ctxs s.curWave.ctx).isSome = true →
    let n := (s.readS64 a).toNat
    let ctx := s.curWave.ctx
    (16 < n → exec (.carve d a) s = .next (s.begun.trapHere (s.info 0x17 1))) ∧
    (n ≤ 16 → s.begun.enterCarve.gate 6 true true = none → (s.curCtx.carves = [] ∨ s.curCtx.carves.head? = some s.issue.wave) →
      s.curCtx.carveBusy = false → s.sliceQuiet ctx = true →
      s.linesInWays ctx (16 - n) (16 - s.curCtx.spways) = [] → s.writingBack = false →
      ∃ u : State, exec (.carve d a) s = .next u.finish ∧ u.mem = s.mem ∧ (u.ctx ctx).spways = n ∧ (u.ctx ctx).carveBusy = false ∧
        (∀ r, u.curWave.sreg r = if sdstReg d = some r then s.curCtx.waypart (stackOf s.curWave.core) else s.curWave.sreg r) ∧
        ∀ k a, a < min s.curCtx.spways n * 524288 * s.curCtx.nslice k →
          memByte (tgetD (u.ctx ctx).stackSp k []) a = memByte (tgetD s.curCtx.stackSp k []) a)) ∧
  (∀ (a : SSrc) (all : Bool) (s : State), s.activeMask ≠ 0 →
    let hit (lo size : Nat) : Prop := all = true ∨ (lo ≤ (s.readS64 a).toNat ∧ (s.readS64 a).toNat < lo + size)
    let line : Nat := (s.readS64 a).toNat / 128 * 128
    (s.issues (.tlbinv a all) →
      (s.curSplit.wait = none → s.begun.gate 6 true true = none → ∃ u : State, exec (.tlbinv a all) s = .next (u.stall (.hold s.clk none)) ∧
        u.mem = s.mem ∧ ∀ k c, tget? u.cores k = some c → ∀ p ∈ c.tlb, p.1 / 2 ^ 64 = s.curWave.ctx → ¬hit (p.1 % 2 ^ 64) p.2.size) ∧
      (s.curSplit.wait = some .quiet → ∃ u : State, exec (.tlbinv a all) s = .next u.finish ∧ u.mem = s.mem ∧
        u.curWave.sregs = s.curWave.sregs ∧
        ∀ k c, tget? u.cores k = some c → ∀ p ∈ c.tlb, p.1 / 2 ^ 64 = s.curWave.ctx → ¬hit (p.1 % 2 ^ 64) p.2.size)) ∧
    (s.issues (.icinv a all) →
      (s.curSplit.wait = none → s.begun.gate 6 true true = none → ∃ u : State, exec (.icinv a all) s = .next (u.stall (.hold s.clk none)) ∧
        u.mem = s.mem ∧ ∀ k c, tget? u.cores k = some c → ∀ p ∈ c.icache, p.1 / 2 ^ 64 = s.curWave.ctx → all = false ∧ p.1 % 2 ^ 64 ≠ line) ∧
      (s.curSplit.wait = some .quiet → ∃ u : State, exec (.icinv a all) s = .next u.finish ∧ u.mem = s.mem ∧
        u.curWave.sregs = s.curWave.sregs ∧
        ∀ k c, tget? u.cores k = some c → ∀ p ∈ c.icache, p.1 / 2 ^ 64 = s.curWave.ctx → all = false ∧ p.1 % 2 ^ 64 ≠ line))) ∧
  ∀ (s : State) (wid k m : Nat) (since : Option Nat) (w : Wave) (sp : Split), tget? s.waves wid = some w → tget? w.splits k = some sp →
    sp.wait = some (.hold m since) →
    ∃ (t : State) (v : Wave), exec (.invalidationComplete wid) s = .next t ∧ ({ t with waves := s.waves } : State) = s ∧
      (∀ j, j ≠ wid → tget? t.waves j = tget? s.waves j) ∧ tget? t.waves wid = some v ∧ ({ v with splits := w.splits } : Wave) = w ∧
      (s.accessesDone w.ctx m = false → tget? v.splits k = some { sp with wait := some (.hold m none) }) ∧
      (s.accessesDone w.ctx m = true → since = none → tget? v.splits k = some { sp with wait := some (.hold m (some s.clk)) }) ∧
      (∀ c, s.accessesDone w.ctx m = true → since = some c → c + 2048 ≤ s.clk → tget? v.splits k = some { sp with wait := some .quiet })

/-- COPY_COMPLETE and COPY_ABANDON (R216, R220 to R228): a copy whose record cannot follow yet presses the release of step 4; else every
resident target holds the bytes of the source rows, each word as it was read, and the flag, and no other scratchpad byte changes; the window is PRESENT with its status and its tiles go back with PHASE turned; only the completion
record is written to DRAM. A copy that meets a fault writes nothing, stalls its window and files the cause with its starting wave. Rests on the model's own choices, log entries 47, 64, 137, 143, 144 and 154. -/
def Obligations.CopiesEnd : Prop :=
  ∀ (s : State) (block window : Nat), s.copyReady block window = true →
    (tgetD s.waves ((s.block block).window window).starter {}).ended = false →
    let b := s.block block
    let x := b.window window
    let d := x.desc
    let ready := s.recordReady b.ctx b.core x.mark
    (s.copyFault block window = none → ready = false → exec (.copyComplete block window) s = .next (s.startFence b.core x.mark 6 true false)) ∧
    (s.copyFault block window = none → x.bad = none → ready = true →
      (∀ p, ringSlot s b.ctx = some p → s.counter (lineOf p) = none ∧ p % 64 = 0) →
      let words := d.words.zipIdx.map (fun p => (tget? x.seen p.2).getD
        (memNat s.mem (s.placed b.ctx p.1 .read) 4, s.poisonedAt (s.placed b.ctx p.1 .read)))
      let data := words.flatMap (fun v => leBytes 4 v.1)
      let gone := x.targets.any (fun k => (tget? s.blocks k).all (fun y => y.ctx != b.ctx || y.released))
      ∃ t : State, exec (.copyComplete block window) s = .next t ∧
        (∀ k y, tget? s.blocks k = some y → ∀ a, memByte (t.block k).scratch a =
          if k ∈ x.targets ∧ y.ctx = b.ctx ∧ y.released = false
          then (flagByte d.flagAddr d.flagVal a).getD (if d.dest ≤ a ∧ a < d.dest + data.length then data.getD (a - d.dest) 0
            else memByte y.scratch a)
          else memByte y.scratch a) ∧
        ((t.block block).window window).st = .present ∧
        ((t.block block).window window).last = (if gone then 4 else if words.any (fun v => v.2) then 5 else 0) ∧
        (∀ k, k ∉ d.span ∨ (b.tile k).holder ≠ .copy window → (t.block block).tile k = b.tile k) ∧
        (block ∈ x.targets → b.released = false → ∀ k ∈ d.span, (b.tile k).holder = .copy window → (b.tile k).count = 0 →
          (t.block block).tile k = { b.tile k with engine := false, holder := .none, phase := !(b.tile k).phase }) ∧
        (tgetD t.waves x.starter {}).engPending = (tgetD s.waves x.starter {}).engPending - 1 ∧
        onlyRecord s t (ringSlot s b.ctx)) ∧
    ∀ va e, s.copyFault block window = some (va, e) →
      ∃ t : State, exec (.copyAbandon block window) s = .next t ∧ t.mem = s.mem ∧ (∀ k, (t.block k).scratch = (s.block k).scratch) ∧
        (t.block block).window window = { x with
          st := .stalled, replays := x.replays + 1, fault := e.cause, faddr := va, taken := false, seen := [] } ∧
        ∀ w, tget? s.waves x.starter = some w → ∃ v c, tget? t.waves x.starter = some v ∧ v.causes = insertCause c w.causes ∧ c.cause = e.cause ∧
          c.faddr = va ∧ c.detail = e.detail + window * 256 + 4096 ∧ v.engPending = w.engPending - 1 ∧ v.sregs = w.sregs ∧ v.vregs = w.vregs

/-- GATHER_COMPLETE and GATHER_ABANDON (R231 to R235): a command whose record cannot follow yet presses the release of step 4; else it
leaves its queue: while its block stands, a gather or bag-reduce has written its rows and no other scratchpad byte but the flag; a
scatter-add has applied its rows to the table; only the completion record is written to DRAM besides. A command that meets a fault
stays, stalled, with the cause filed with its wave. Rests on the model's own choices, log entries 18, 47, 49, 50, 137, 143, 145 and 155. -/
def Obligations.GathersEnd : Prop :=
  ∀ (s : State) (g : Nat) (c : GatherCmd), s.gatherDue g = some c → (tgetD s.waves c.wave {}).ended = false →
    let core := (s.block c.block).core
    let applied (n : Nat) : State × GatherCmd := State.scatterRun n s c
    (s.gatherFault c = none → s.recordReady c.ctx core c.mark = false →
      exec (.gatherComplete g) s = .next (s.startFence core c.mark 6 true false)) ∧
    (s.gatherFault c = none → s.recordReady c.ctx core c.mark = true → ∃ t : State, exec (.gatherComplete g) s = .next t ∧
      (t.cluster g).gather = (s.cluster g).gather.filter (fun y => decide (y.seq ≠ c.seq)) ∧
      (tgetD t.waves c.wave {}).engPending = (tgetD s.waves c.wave {}).engPending - 1 ∧
      (∀ k, k ≠ c.block → (t.block k).scratch = (s.block k).scratch) ∧
      (c.op ≠ .scatter → (∀ p, ringSlot s c.ctx = some p → s.counter (lineOf p) = none ∧ p % 64 = 0) →
        onlyRecord s t (ringSlot s c.ctx)) ∧
      (c.op ≠ .scatter → s.holds c.block c.ctx = true →
        (∀ row ∈ s.gatherRows c, row.2.1.length = c.rowb → ∀ j, j < c.rowb → flagByte c.flagAddr c.flagVal (c.spad + row.1 * c.rowb + j) = none →
          memByte (t.block c.block).scratch (c.spad + row.1 * c.rowb + j) = row.2.1.getD j 0) ∧
        ∀ a, (∀ row ∈ s.gatherRows c, a < c.spad + row.1 * c.rowb ∨ c.spad + row.1 * c.rowb + row.2.1.length ≤ a) →
          memByte (t.block c.block).scratch a = (flagByte c.flagAddr c.flagVal a).getD (memByte (s.block c.block).scratch a)) ∧
      (c.op = .scatter → c.row = [] →
        ((s.ctx c.ctx).cring = 0 → t.mem = (applied (s.gatherStop c - c.commit)).1.mem) ∧
        (s.holds c.block c.ctx = true → ∀ a, memByte (t.block c.block).scratch a =
          (flagByte c.flagAddr c.flagVal a).getD (memByte (s.block c.block).scratch a)))) ∧
    ∀ p va e, s.gatherFault c = some (p, va, e) →
      ∃ t : State, exec (.gatherAbandon g) s = .next t ∧ (∀ k, (t.block k).scratch = (s.block k).scratch) ∧
        (∃ y ∈ (t.cluster g).gather, y.seq = c.seq ∧ y.stalled = true ∧ y.replays = c.replays + 1 ∧ y.fault = e.cause ∧ y.faddr = va) ∧
        (c.row = [] → t.mem = if c.op = .scatter then (applied (p - c.commit)).1.mem else s.mem) ∧
        (c.op ≠ .scatter → c.row = [] → ∀ w, tget? s.waves c.wave = some w → ∃ v x, tget? t.waves c.wave = some v ∧
          v.causes = insertCause x w.causes ∧ x.cause = e.cause ∧ x.faddr = va ∧ x.detail = e.detail + 8192 ∧
          v.engPending = w.engPending - 1)

namespace Sys2Proof.Claims
open Sys2Proof.Machine

/-! Messages: decant counters, writes, copies of lines and forced publishes. -/

/-- A decant message is the next to arrive of its slice, home and direction (R256). -/
def firstOfLane (s : State) (i : Instr) : Prop :=
  s.next? i = true ∧ s.net.find? (fun j => decantLane j == decantLane i) = some i

/-- The state in which a message has left the network. -/
def arrived (s : State) (i : Instr) : State := { s with net := s.net.erase i }

/-- A message is on its way, or waits at its home entry. -/
def underWay (s : State) (i : Instr) : Prop := i ∈ s.net ∨ i ∈ s.waiting

/-- A message reaches the entry of its unit: it is the first of those that wait there, or none waits and it is the next to arrive
(R317, R393). -/
def reaches (s : State) (k : Nat) (i : Instr) : Prop :=
  s.waiting.find? (fun j => messageUnit j == some k) = some i ∨
    (s.waiting.find? (fun j => messageUnit j == some k) = none ∧ s.next? i = true)

/-- Only the caches, the queues, the slices, the home entries and the messages, with where forwarded data came from, have changed: no
memory, no scratchpad, no register. -/
def transportFrame (s t : State) : Prop :=
  ({ t with cores := s.cores, clusters := s.clusters, stackTbl := s.stackTbl, homes := s.homes, net := s.net, waiting := s.waiting,
            fabric := { t.fabric with dataFrom := s.fabric.dataFrom } } : State) = s

/-- The entry of a unit can serve a stack's request for it: its home is there and holds nothing back, its owner, another stack, holds
it or writes it back, and no publication of it runs (R317). -/
def homeServes (s : State) (k stack : Nat) : Prop :=
  s.unitValid k = true ∧ s.unitLost k = false ∧ s.ownerStack k ≠ stack ∧ (s.ownerReady k = true ∨ s.goingHome k = true) ∧ (s.homeEntry k).xpub = none ∧
  s.unitHeld k = false ∧ (s.unitLines k).all s.dramClear = true

end Sys2Proof.Claims

/-- The messages of a decant counter at its home and at a slice (R256 to R263): a counter that is not live answers with its fault; a
REQ within RESERVE is granted at least what it asks, RESERVE falling by exactly the grant; a GIVE, a RETURN and an ANSWER raise RESERVE
by their units; a RECALL is answered with the entry's units; a GRANT adds its units to the entry; a reply ends its operation, or the
take that the slice's REQ named. Rests on the model's own choices, log entries 54, 55, 57, 135, 156 and 157. -/
def Obligations.DecantMessages : Prop :=
  ∀ (s : State) (r g : Nat),
    let v := s.reserve r
    let e := s.allowance g r
    let idle : Prop := ∀ c, s.counter r = some c → c.queue = []
    (∀ i sum first n op kind, (i = .decantReq r g sum first ∧ op = e.first ∨ i = .decantGiveMsg r g n op ∨ i = .decantReadAtHome r g kind op) →
      firstOfLane s i → s.counter r = none → exec i s = .next ((arrived s i).send
        (.decantStatusReply r g op 0 0 (if s.homeLost r then 0x16 else s.deadDetail r)))) ∧
    (∀ c, s.counter r = some c → c.queue = [] → c.mode = .normal →
      (∀ sum first, firstOfLane s (.decantReq r g sum first) → sum ≤ v →
        (arrived s (.decantReq r g sum first)).keeps r v (demand c.active g sum).length = true →
        ∃ (t : State) (n : Nat), exec (.decantReq r g sum first) s = .next t ∧ sum ≤ n ∧ t.reserve r + n = v ∧ .decantGrant r g n ∈ t.net ∧
          ∀ a, (a < r + 8 ∨ r + 14 ≤ a) → memByte t.mem a = memByte s.mem a) ∧
      (∀ n op, firstOfLane s (.decantGiveMsg r g n op) → (arrived s (.decantGiveMsg r g n op)).keeps r (v + n) c.active.length = true →
        ∃ t : State, exec (.decantGiveMsg r g n op) s = .next t ∧ t.reserve r = v + n ∧
          .decantStatusReply r g op (decantResult n 0).toNat 0 0 ∈ t.net) ∧
      (∀ op, firstOfLane s (.decantReadAtHome r g .read op) →
        let out := (arrived s (.decantReadAtHome r g .read op)).outUnits r c
        ∃ t : State, exec (.decantReadAtHome r g .read op) s = .next t ∧ t.mem = s.mem ∧
          .decantStatusReply r g op v (decantResult (min (2 ^ 48 - 1) (v + out)) (s.readStatus r)) 0 ∈ t.net) ∧
      (∀ n i, (i = .decantReturn r g n ∨ i = .decantAnswer r g n) → firstOfLane s i → v + n < 2 ^ 48 →
        ∃ t : State, exec i s = .next t ∧ t.reserve r = v + n ∧ ∃ x, t.counter r = some x ∧ tget? x.active g = none)) ∧
    (firstOfLane s (.decantRecall r g) →
      (e.held = true → ∃ t : State, exec (.decantRecall r g) s = .next t ∧ (t.allowance g r).held = false ∧ .decantAnswer r g e.a ∈ t.net ∧
        t.mem = s.mem) ∧
      (e.held = false → exec (.decantRecall r g) s = .next (arrived s (.decantRecall r g)))) ∧
    (∀ n, firstOfLane s (.decantGrant r g n) → e.held = true → e.waiters = [] → idle →
      ∃ t : State, exec (.decantGrant r g n) s = .next t ∧ (t.allowance g r).a = e.a + n ∧ (t.allowance g r).held = true ∧
        (t.allowance g r).req = false ∧ t.mem = s.mem) ∧
    (∀ n op x, firstOfLane s (.decantServe r g n) → e.waiters = [op] → tget? s.decants op = some x → x.n ≤ n → e.sum ≤ n → idle →
      ∃ t : State, exec (.decantServe r g n) s = .next t ∧ (t.allowance g r).waiters = [] ∧ (t.allowance g r).req = false ∧
        (n ≠ x.n → .decantReturn r g (n - x.n) ∈ t.net) ∧ tget? t.decants op = some { x with done := true, lo := decantResult x.n 0, hi := 0 }) ∧
    (∀ op lo hi dt x, firstOfLane s (.decantStatusReply r g op lo hi dt) → tget? s.decants op = some x →
      (¬(e.req = true ∧ e.first = op) → e.later = [] →
        ∃ t : State, exec (.decantStatusReply r g op lo hi dt) s = .next t ∧ ({ t with decants := s.decants, net := s.net } : State) = s ∧
          tget? t.decants op = some { x with
            done := true, lo := BitVec.ofNat 64 lo, hi := hi,
            trap := if dt = 0 then none else if dt = 0x16 then some (0x16, 0) else some (0x13, dt) }) ∧
      (e.req = true → e.first = op → e.waiters = [op] → dt = 0 →
        ∃ t : State, exec (.decantStatusReply r g op lo hi dt) s = .next t ∧ t.mem = s.mem ∧ (t.allowance g r).waiters = [] ∧
          (t.allowance g r).req = false ∧ tget? t.decants op = some { x with done := true, lo := decantResult 0 1, hi := 0 })) ∧
    ∀ stack, s.next? (.decantCdieLoss stack) = true → ∃ t : State, exec (.decantCdieLoss stack) s = .next t ∧
      (∀ p ∈ t.decants, p.2.cluster / 32 ≠ stack) ∧ ∀ k, k / 32 = stack → (t.cluster k).allow = []

/-- WR, PACK, INV and IACK (R314 to R318, R322, R329): the oldest queued write of a line is performed once its stack owns every unit that
holds its bytes, and exactly those bytes change; one at a lost home is never visible and files the cause it carries; otherwise the first unit
that is not owned is asked for. PACK raises the level known and ends the write at package level; INV drops the cluster's copies but the
writer's; IACK only ends what was pending. Rests on the model's own choices, log entries 40, 119 and 158. -/
def Obligations.WritesAreVisible : Prop :=
  ∀ (s : State) (core : Nat),
    (∀ id e, tget? (s.core core).wq id = some e → (∀ p ∈ (s.core core).wq, p.1 < id → lineOf p.2.pa ≠ lineOf e.pa) →
      s.writeDropped core id = false →
      let line := lineOf e.pa
      let y := stackOf core
      let ks := s.unitsAt e.pa e.bytes.length
      (s.homeLost line = true → ∃ t : State, exec (.wr core id) s = .next t ∧ tget? (t.core core).wq id = none ∧
        ∀ w, tget? s.waves e.wave = some w → w.ended = false → t.mem = s.mem ∧ ∃ v, tget? t.waves e.wave = some v ∧
          v.causes = insertCause e.trap w.causes) ∧
      (s.homeLost line = false → s.converting line = false → s.homeHeld line = false → s.tagFull core line ks = none → s.counter line = none →
        ((∀ k ∈ ks, (s.ownerStack k = y ∨ s.cacheWays (clusterOf core) = 0) ∧ s.ownerReady k = true ∧ s.ownerClear core k = true) →
          (∀ i, i < e.bytes.length → s.deviceByte (e.pa + i) = false) → ∃ t : State, exec (.wr core id) s = .next t ∧
          (∀ a, memByte t.mem a = if e.pa ≤ a ∧ a < e.pa + e.bytes.length then e.bytes.getD (a - e.pa) 0 else memByte s.mem a) ∧
          tget? (t.core core).wq id = none ∧ (tget? (t.core core).outs id).isSome = true ∧ t.waves = s.waves ∧ t.blocks = s.blocks ∧
          t.ctxs = s.ctxs) ∧
        (∀ k, 0 < s.cacheWays (clusterOf core) → ks.find? (fun j => s.ownerStack j ≠ y) = some k → s.asked k y = false →
          exec (.wr core id) s = .next (s.send (.getx k y core))))) ∧
    (∀ id level o, s.next? (.pack core id level) = true → tget? (s.core core).outs id = some o →
      ∃ t : State, exec (.pack core id level) s = .next t ∧
      transportFrame s t ∧ tget? (t.core core).outs id = if max o.level level < 6 then some { o with level := max o.level level } else none) ∧
    (∀ line g w, s.next? (.inv line g w) = true → ∃ t : State, exec (.inv line g w) s = .next t ∧ transportFrame s t ∧ underWay t (.iack line g) ∧
      ∀ k, clusterOf k = g → k ≠ w → tget? (t.core k).l1 line = none) ∧
    ∀ line g, s.next? (.iack line g) = true → ∃ t : State, exec (.iack line g) s = .next t ∧ transportFrame s t

/-- GETS, GETX, FWD, DATA, WB and the messages of a publication (R312, R313, R317, R318, R329), for lines and for tile parts: requests
that the entry can serve are answered with the owner's bytes or forwarded; GETX moves ownership, and the old owner stays a sharer; a copy
that no publication cuts off enters the L1 that wants it with the owner's bytes; publication cuts the sharers and then clears their bits.
No message changes memory, a scratchpad or a register, but for loads that DATA completes, and what a load reports of a wave that a fatal
trap has stopped. Rests on the model's own choices, log entries 40, 42, 43, 119 and 123. -/
def Obligations.LineTransfers : Prop :=
  ∀ (s : State) (k stack core : Nat),
    let h := unitHome k
    let x := s.ownerStack k
    (reaches s k (.gets k stack core) → homeServes s k stack →
      let alone : Prop := (∀ y ∈ (s.homeEntry k).sharers k, y = stack) ∧ s.holdsUnit h k = false ∧ 0 < s.cacheWays (clusterOf core)
      ∃ t : State, exec (.gets k stack core) s = .next t ∧ transportFrame s t ∧
        (x = h → alone → .data k stack core true (s.unitData k) ∈ t.net ∧ (tgetD t.homes k {}).owned = true ∧ (tgetD t.homes k {}).owner = stack) ∧
        (x = h → ¬alone → .data k stack core false (s.unitData k) ∈ t.net ∧ (tgetD t.homes k {}).shares k stack = true) ∧
        (x ≠ h → .fwd k stack core false ∈ t.net ∧ (tgetD t.homes k {}).shares k stack = true)) ∧
    (reaches s k (.getx k stack core) → homeServes s k stack →
      ∃ t : State, exec (.getx k stack core) s = .next t ∧ transportFrame s t ∧
        (tgetD t.homes k {}).owned = decide (stack ≠ h) ∧ (stack ≠ h → (tgetD t.homes k {}).owner = stack) ∧
        (x = h → .data k stack core true (s.unitData k) ∈ t.net) ∧
        (x ≠ h → .fwd k stack core true ∈ t.net ∧ (tgetD t.homes k {}).shares k x = true)) ∧
    (∀ excl, s.next? (.fwd k stack core excl) = true → ∃ t : State, exec (.fwd k stack core excl) s = .next t ∧ transportFrame s t ∧
      .data k stack core excl (s.unitData k) ∈ t.net) ∧
    (∀ excl bs, s.next? (.data k stack core excl bs) = true → ∃ t : State, exec (.data k stack core excl bs) s = .next t ∧
      ((∀ p ∈ s.waves, p.2.loads ≠ [] → p.2.ended = false) → t.mem = s.mem ∧ t.blocks = s.blocks ∧ t.ctxs = s.ctxs ∧ t.poison = s.poison) ∧
      (excl = false → isTile k = false → s.unitValid k = true → s.dead.contains (dieOf core) = false → x ≠ stack →
        (s.homeEntry k).shares k stack = true → (s.homeEntry k).cut.contains stack = false → s.wantsLine core k = true →
        ∃ l, tget? (t.core core).l1 k = some l ∧ l.data = memBytes s.mem k 64)) ∧
    (reaches s k (.wb k stack) → s.tagged k = false → (s.homeEntry k).owned = true → (s.homeEntry k).owner = stack →
      ∃ t : State, exec (.wb k stack) s = .next t ∧ transportFrame s t ∧ (tgetD t.homes k {}).owned = false) ∧
    (∀ level, reaches s k (.xpub k stack level) → (s.ownerReady k = true ∨ s.goingHome k = true) → (s.homeEntry k).xpub = none →
      let cut := (List.range 8).filter (fun y => y ≠ x ∧ (6 ≤ level ∨ y / 4 = stack / 4) ∧
        ((s.homeEntry k).shares k y = true ∨ y = h ∧ s.holdsUnit y k = true))
      ∃ t : State, exec (.xpub k stack level) s = .next t ∧ transportFrame s t ∧
        (tgetD t.homes k {}).xpub = some (stack, level) ∧ (tgetD t.homes k {}).waitX = cut ∧
        (cut = [] → underWay t (.xdone k stack level)) ∧ ∀ y ∈ cut, underWay t (.xinv k y)) ∧
    (s.next? (.xinv k stack) = true → ∃ t : State, exec (.xinv k stack) s = .next t ∧ transportFrame s t ∧ underWay t (.xack k stack) ∧
      ((s.partAt stack k).any (fun p => p.st.owns) = false → t.partAt stack k = none ∧
        ∀ line ∈ s.unitLines k, ∀ c, c / 256 = stack → tget? (t.core c).l1 line = none)) ∧
    (∀ y level, s.next? (.xack k stack) = true → (s.homeEntry k).xpub = some (y, level) →
      ∃ t : State, exec (.xack k stack) s = .next t ∧ transportFrame s t ∧
        (tgetD t.homes k {}).waitX = (s.homeEntry k).waitX.filter (fun z => z != stack) ∧
        ((s.homeEntry k).waitX = [stack] → underWay t (.xdone k y level))) ∧
    ∀ level, s.next? (.xdone k stack level) = true → ∃ t : State, exec (.xdone k stack level) s = .next t ∧ transportFrame s t ∧
      (tgetD t.homes k {}).xpub = none ∧ ∀ y ∈ (s.homeEntry k).cut, y < 8 → (tgetD t.homes k {}).shares k y = false

/-- FPUB, FACK and REBASE (R321, R324 to R327, R409): a core of a lost die is answered for at once, another notes the request or has it
answered; the answer ends the dependencies it covers at package level; a rebase drops the leases older than the new base. None changes
memory, a scratchpad or a register, but for the loss mark. Rests on the model's own choice, log entry 60. -/
def Obligations.ForcedPublishes : Prop :=
  ∀ (s : State) (core epoch level requester : Nat),
    (s.next? (.fpub core epoch level requester) = true → ∃ t : State, exec (.fpub core epoch level requester) s = .next t ∧ transportFrame s t ∧
      (s.dead.contains (dieOf core) = true → underWay t (.fack core epoch level requester)) ∧
      (s.dead.contains (dieOf core) = false → underWay t (.fack core epoch level requester) ∨
        ∃ f ∈ (t.core core).fpubs, f.epoch = epoch ∧ f.level = level ∧ f.requester = requester)) ∧
    (s.next? (.fack core epoch level requester) = true → s.dead.contains (dieOf core) = false →
      ∃ t : State, exec (.fack core epoch level requester) s = .next t ∧ transportFrame s t ∧
        (level = 6 → (∀ d ∈ (t.core requester).deps, d.core = core → epoch < d.epoch) ∧
          ∀ g c, tget? t.clusters g = some c → ∀ x ∈ c.tags, x.core = core → epoch < x.epoch)) ∧
    (let now := s.coreTick core
     (now < (s.core core).base + 65535 → exec (.rebase true core) s = .next s) ∧
     ((s.core core).base + 65535 ≤ now → ∃ t : State, exec (.rebase true core) s = .next t ∧ transportFrame s t ∧
      (t.core core).base = now - 32767 ∧ ∀ p ∈ (t.core core).l1, ((now - 32767 : Nat) : Int) ≤ p.2.t0)) ∧
    (s.tickOf core < (s.cluster core).base + 65535 → exec (.rebase false core) s = .next s) ∧
    ((s.cluster core).base + 65535 ≤ s.tickOf core → ∃ t : State, exec (.rebase false core) s = .next t ∧ transportFrame s t ∧
      (t.cluster core).base = s.tickOf core - 32767 ∧ ∀ x ∈ (t.cluster core).tags, s.tickOf core - 32767 ≤ x.tick)

/-- SPLIT_ROTATION (R27), HANDLER_PREEMPT_TIMEOUT (R380), WAVE_EXCHANGE (R343), WAVE_END (R12, R16, R344), SPAWN_WAVE_START (R44,
R237, R346) and CORE_RETIRE (R342), where they are due: the oldest deferred entry takes the slot of the split that made the fourth
pass; a handler stops; a stalled wave and the pending wave that has been ready longest change places; a wave that is over is gone, its block ends with its last wave and
is charged to its queue, and the dispatcher runs if that frees something; a bin's wave starts with its threads' pairs in V0 and V1; a bin's start lets the gangs behind it be placed; the spare stands for the
first core retired, a second withdraws the cluster, and a running owner of the cluster is pre-empted first. Rests on the model's own
choices, log entries 66 and 67. -/
def Obligations.WaveLifeEvents : Prop :=
  ∀ (s : State) (wid : Nat) (w : Wave), tget? s.waves wid = some w →
    (∀ d ds sp, w.rotateDue = true → w.deferred = d :: ds → tget? w.splits w.passSlot = some sp →
      ∃ v : Wave, exec (.splitRotation wid) s = .next { s with waves := tset s.waves wid v } ∧
        tget? v.splits w.passSlot = some d.split ∧ v.issuing = w.passSlot ∧ v.passes = 0 ∧
        (∀ p k, v.latch p k = .lost) ∧ (∀ k, k ≠ w.passSlot → tget? v.splits k = tget? w.splits k) ∧
        ((sp.begun = true ∨ ∀ e ∈ ds, e.pos = sp.pos → e.begun = true) → v.deferred = ds ++ [sp.park]) ∧
        (sp.begun = false → ∀ k e, ds.findIdx? (fun e => e.pos == sp.pos && !e.begun) = some k → ds[k]? = some e →
          v.deferred = ds.set k { e with mask := e.mask ||| sp.mask }) ∧
        ({ v with splits := w.splits, deferred := w.deferred, issuing := w.issuing, passes := w.passes, latches := w.latches } : Wave) = w) ∧
    ((s.ctx w.ctx).phase = .saving → w.handler = true → w.completing = false → (s.ctx w.ctx).preemptAt + 15000 ≤ s.clk →
      exec (.handlerPreemptTimeout wid) s = .next { s with waves := tset s.waves wid { w with halted := true } }) ∧
    (∀ into b, tget? s.waves into = some b → w.core = b.core → w.part = b.part → w.active = true → w.handler = false →
      s.stands w.ctx = true → s.stoodStalled w = true → s.readyLongest b = true →
      ∃ t : State, exec (.waveExchange wid into) s = .next t ∧ ({ t with waves := s.waves } : State) = s ∧
        (∃ v, tget? t.waves wid = some v ∧ v.active = false ∧ v.readyAt = s.clk ∧ (∀ p k, v.latch p k = .lost) ∧
          ({ v with active := w.active, readyAt := w.readyAt, latches := w.latches } : Wave) = w) ∧
        tget? t.waves into = some { b with active := true } ∧ ∀ k, k ≠ wid → k ≠ into → tget? t.waves k = tget? s.waves k) ∧
    (s.over wid w = true → s.stands w.ctx = true → ∃ u : State,
      exec (.waveEnd wid) s = .next (if w.block.all (fun b => (tget? u.blocks b).all (fun x => x.ended)) then u.dispatch w.ctx else u) ∧
      tget? u.waves wid = none ∧ u.mem = s.mem ∧ u.cores = s.cores ∧
      ∀ b x, w.block = some b → tget? s.blocks b = some x →
        (x.waves.all (fun v => v == wid) = true → (∀ y, tget? u.blocks b = some y → y.ended = true) ∧
          ∀ c q, tget? s.ctxs (s.launch x.launch).ctx = some c → q = c.queue (s.launch x.launch).queue →
            ((u.ctx (s.launch x.launch).ctx).queue (s.launch x.launch).queue).deficit = q.deficit - (s.clk - x.since : Nat)) ∧
        (x.waves.all (fun v => v == wid) = false → tget? u.blocks b = some { x with waves := x.waves.filter (fun v => v != wid) })) ∧
    (∀ cluster bin free core p, let b := tgetD (s.cluster cluster).bins bin {}
      b.launching = true → b.threads ≠ [] → b.threads.length ≤ 32 → (s.ctx b.ctx).phase = .running →
      s.spawnPlace cluster = some (free, core, p) → 16 * (b.key.toNat / 2 ^ 52 % 8 + 1) ≤ free →
      s.depWait core (s.spawnDeps core b) = none →
      ∃ (u : State) (v : Wave), exec (.spawnWaveStart cluster bin) s = .next (u.placeGangs b.ctx) ∧ tget? u.waves s.nextWave = some v ∧
        v.core = core ∧ v.part = p ∧ v.ctx = b.ctx ∧ v.launch = some b.launch ∧ v.block = none ∧ v.spawned = true ∧
        v.nvregs = 16 * (b.key.toNat / 2 ^ 52 % 8 + 1) ∧ (∀ l, v.retired.getLsbD l = decide (b.threads.length ≤ l ∧ l < 32)) ∧
        (∀ l x, b.threads[l]? = some x → tget? v.vregs l = some x.1 ∧ tget? v.vregs (32 + l) = some x.2) ∧
        tget? (u.cluster cluster).bins bin = none ∧ u.nextWave = s.nextWave + 1 ∧ u.mem = s.mem ∧
        ∀ k, k ≠ s.nextWave → tget? u.waves k = tget? s.waves k) ∧
    ∀ g physical, let c := s.cluster g
      physical ≤ 8 → g < 256 → c.retired.contains physical = false → c.withdrawn = false → s.retiring.contains (g, physical) = false →
      (∀ p ∈ s.retiring, (s.cluster p.1).owner ≠ none) →
      (c.owner = none → ∃ t : State, exec (.coreRetire g physical) s = .next t ∧ (t.cluster g).retired = physical :: c.retired ∧
        ((t.cluster g).withdrawn = true ↔ c.retired ≠ []) ∧
        (c.retired = [] → physical < 8 → (t.cluster g).spareFor = some physical) ∧ (∀ k, k ≠ g → t.cluster k = s.cluster k) ∧
        ({ t with clusters := s.clusters, dry := s.dry } : State) = s) ∧
      ∀ k x, c.owner = some k → tget? s.ctxs k = some x → x.phase = .running →
        ∃ t : State, exec (.coreRetire g physical) s = .next t ∧ (t.ctx k).phase = .saving ∧ (t.ctx k).retireHold = true ∧
          t.retiring = s.retiring ++ [(g, physical)] ∧ t.clusters = s.clusters ∧ t.waves = s.waves

/-- ICACHE_FILL (R364, R365), WAIT_WORD_POLL (R338), QUEUE_RESERVING (R341), LAUNCH_DRAIN (R280, R337, R401) and LAUNCH_FRAME (R332 to
R336), with TRANSLATION_REQUEST and TRANSLATION_JOB_DONE (R357, R358): a code line enters the core's cache only if its tag matches; the
head's wait words, once their homes answer, make it ready or fail it, and the dispatcher runs if a head has become ready; a reserving queue takes the unit of the least need; a drained launch signals and gives notice
once, after what its context wrote is visible; a refused frame is answered and changes nothing else, and an accepted one files its
records; a translation record is claimed and then settled, as DECLINED where a read of the function faults or no cache is there. Rests on
the model's own choices, log entries 59, 71, 75, 76, 78 and 147. -/
def Obligations.LaunchAndTranslation : Prop :=
  ∀ s : State,
    (∀ core ctx line wave, let i : Instr := .icacheFill core ctx line wave
      s.next? i = true → ((s.ctx ctx).carveBusy = false ∨ (s.ctx ctx).carves.head? = some wave) →
      let u : State := arrived s i
      let va := BitVec.ofNat 64 line
      u.engineWaits core ctx .fetch [va] = false →
      (∀ e, u.enginePlace ctx va .fetch = .error e → ∃ t : State, exec i s = .next t ∧ ∀ k, (t.core k).icache = (s.core k).icache) ∧
      ∀ pa v, u.enginePlace ctx va .fetch = .ok pa →
        (u.fillLines core ctx pa = (v, none) → ∃ t : State, exec i s = .next t ∧ transportFrame s t ∧ i ∈ t.net) ∧
        ∀ vs, u.fillLines core ctx pa = (v, some vs) →
          (∀ bs, v.fillCheck ctx va vs = .ok bs → ∃ t : State, exec i s = .next t ∧ transportFrame s t ∧
            tget? (t.core core).icache (codeKeyOf ctx va) = some bs ∧ ∀ k, k ≠ core → (t.core k).icache = (s.core k).icache) ∧
          ∀ e, v.fillCheck ctx va vs = .error e → ∃ t : State, exec i s = .next t ∧ ∀ k, (t.core k).icache = (s.core k).icache) ∧
    (∀ ctx q k rest, ((s.ctx ctx).queue q).pending = k :: rest → (s.launch k).ready = false → (s.launch k).failed = false →
      (tget? s.launches k).isSome = true →
      ((s.waitLines (s.launch k)).any s.homeWaits = true → exec (.waitWordPoll ctx q) s = .next (s.runIfReady s ctx)) ∧
      ((s.waitLines (s.launch k)).any s.homeWaits = false → ∃ u : State, exec (.waitWordPoll ctx q) s = .next (u.runIfReady s ctx) ∧
        ((s.waitLines (s.launch k)).flatMap s.tagsOf = [] →
          (u.launch k).ready = (s.waits (s.launch k) == .ready) ∧ u.mem = s.mem ∧ u.waves = s.waves ∧
          ((u.launch k).failed = true ↔ s.waits (s.launch k) ≠ .ready ∧ s.waits (s.launch k) ≠ .waiting)) ∧
        ((s.waitLines (s.launch k)).flatMap s.tagsOf ≠ [] → transportFrame s u))) ∧
    (∀ ctx q k c x y, tget? s.ctxs ctx = some c → s.readyHead ctx q = some k → 64 ≤ (c.queue q).skips → (c.queue q).reserving = none →
      s.reserveUnit ctx (s.launch k) = some x → y = (s.launch k).coloc →
      ∃ t : State, exec (.queueReserving ctx q) s = .next t ∧ ((t.ctx ctx).queue q).reserving = some (y, x) ∧
        ({ t with ctxs := s.ctxs } : State) = s ∧ ∀ n, n ≠ q → (t.ctx ctx).queue n = (s.ctx ctx).queue n) ∧
    (∀ k l, tget? s.launches k = some l → l.drained = false → s.launchOver k = true →
      let at' := l.overAt.getD s.clk
      (s.shownCtx l.ctx at' = false → ∃ t : State, exec (.launchDrain k) s = .next t ∧ (t.launch k).drained = false ∧
        (t.launch k).overAt = some at' ∧ t.mem = s.mem ∧ t.out = s.out) ∧
      (s.shownCtx l.ctx at' = true →
        (∃ t : State, exec (.launchDrain k) s = .next t) ∧
        (l.signal = 0 → ∃ t : State, exec (.launchDrain k) s = .next t ∧ (t.launch k).drained = true ∧
          (t.launch k).siglost = false ∧ t.mem = s.mem ∧
          (l.notice = 0 → t.out = s.out) ∧
          (∀ qp, l.notice ≠ 0 → (s.ctx l.ctx).noticeQp = some qp → s.nd.qpError.contains qp = false →
            let n : Out := .notice qp l.notice (noticeBytes l false s.timeNs)
            (s.nd.holds n = false → t.out = s.out ++ [n]) ∧ (s.nd.holds n = true → t.nd.heldOut = s.nd.heldOut ++ [n]))) ∧
        ∀ pa, l.signal ≠ 0 → s.signalWaits l = false → s.enginePlace l.ctx l.signal .rmw = .ok pa → pa % 8 = 0 → s.poisonedAt pa = false →
          s.counter (lineOf pa) = none → (∀ a, pa ≤ a → a < pa + 8 → s.deviceByte a = false) →
          ∃ u : State, exec (.launchDrain k) s = .next
              (((u.rereadWaits pa).modLaunch k (fun x => { x with drained := true, siglost := false })).sendNotice l false) ∧
            memNat u.mem pa 8 = signalled (memNat s.mem pa 8) l.failed ∧
            ∀ a, (a < pa ∨ pa + 8 ≤ a) → memByte u.mem a = memByte s.mem a)) ∧
    (∀ source p a, let n := recField p 5 1
      s.portUp = true → recField p 7 1 ≠ 1 →
      (9216 < p.length → exec (.launchFrame source p) s = .next s) ∧
      (p.length ≤ 9216 →
        frameRefused p ((tget? s.ctxs n).map (fun x => x.launchKey)) "ILRUS-LAUNCH" (s.ctx n).lastSeq (s.ctx n).acks = some a →
        exec (.launchFrame source p) s = .next (s.emit (.datagram source a)))) ∧
    (∀ source p c, let n := recField p 5 1
      s.portUp = true → recField p 7 1 ≠ 1 → tget? s.ctxs n = some c →
      frameRefused p (some c.launchKey) "ILRUS-LAUNCH" c.lastSeq c.acks = none →
      ∃ (u : State) (es : List (Nat × Nat)), exec (.launchFrame source p) s = .next (u.runIfReady s n) ∧ es.length = frameEntries p ∧
        (s.nd.holds (.datagram source (ackBytes p es)) = false → u.out = s.out ++ [.datagram source (ackBytes p es)]) ∧ (u.ctx n).lastSeq = recField p 8 8 ∧
        tget? (u.ctx n).acks (recField p 8 8) = some (ackBytes p es) ∧ u.mem = s.mem ∧ u.waves = s.waves ∧ u.cores = s.cores) ∧
    (∀ stack ctx rcd image pa, let i : Instr := .translationRequest stack ctx rcd image
      s.next? i = true → stack < 8 → image < 8 →
      let u := arrived s i
      u.enginePlace ctx (BitVec.ofNat 64 rcd) .rmw = .ok pa → s.homeWaits (lineOf pa) = false → pa % 8 = 0 → s.poisonedAt pa = false → s.counter (lineOf pa) = none →
      (∀ a, pa ≤ a → a < pa + 8 → s.deviceByte a = false) →
      ∃ t : State, exec i s = .next t ∧
        memNat t.mem pa 8 = (if memNat s.mem pa 8 % 4 = 0 then 1 + image * 4 + stack * 256 else memNat s.mem pa 8) ∧
        ∀ a, (a < pa ∨ pa + 8 ≤ a) → memByte t.mem a = memByte s.mem a) ∧
    ∀ ctx rcd pa k o, s.enginePlace ctx (BitVec.ofNat 64 rcd) .rmw = .ok pa → (s.ctx ctx).recordOwner rcd = some (k, o) →
      let st := memNat s.mem pa 8
      let c := s.codeCache ctx o
      let im := o.images.getD (st / 4 % 8) {}
      let f := (rcd - o.xltab.toNat) / 32
      s.homeWaits (lineOf pa) = false → (s.cachePlace ctx o).any (fun p => s.homeWaits (lineOf p)) = false →
      st % 4 = 1 → (s.dead.contains (2 * (st / 2 ^ 8 % 8)) && s.dead.contains (2 * (st / 2 ^ 8 % 8) + 1)) = false → pa % 8 = 0 →
      (s.counter (lineOf pa) = none → (∀ a, pa ≤ a → a < pa + 8 → s.deviceByte a = false) →
        ∀ r, (r = none ∨ s.cachePlace ctx o = none ∨ s.functionWords ctx im f = none) →
        ∃ t : State, exec (.translationJobDone ctx rcd r) s = .next t ∧ memNat t.mem pa 8 % 4 = 3 ∧
          ∀ a, (a < pa ∨ pa + 8 ≤ a) → memByte t.mem a = memByte s.mem a) ∧
      ∀ place x ws u, s.cachePlace ctx o = some place → s.functionWords ctx im f = some ws →
        legalResult x im ws f (o.tcode.toNat + c.nextFree) = true →
        s.placeCode ctx rcd o x = some u → u.counter (lineOf pa) = none → (∀ a, pa ≤ a → a < pa + 8 → u.deviceByte a = false) →
        ∃ t : State, exec (.translationJobDone ctx rcd (some x)) s = .next t ∧ memNat t.mem pa 8 % 4 = 2 ∧
          tget? t.caches place = some (c.allocated x)

namespace Sys2Proof.Claims
open Sys2Proof.Machine

/-! The management path, the fabric, the Ethernet port, reliability and power. -/

/-- The state in which a context has changed and nothing else. -/
def withContext (s : State) (n : Nat) (c : Context) : State := { s with ctxs := tset s.ctxs n c }

/-- Datagrams leave the package one after another. -/
def emitAll (s : State) (os : List Out) : State := os.foldl State.emit s

/-- The path of management commands is free (R425). -/
def commandsTaken (s : State) : Prop := s.portUp = true ∧ s.nd.job = none

/-- The 128-byte record of a report: the nonce, the image digests, SVN and the boot state (R427). -/
def reportBody (s : State) (nonce : BitVec 256) : List Byte :=
  s.report nonce ++ leBytes 2420 (Config.reportSignature s.nd.identityKey (s.report nonce)).toNat

/-- The context that CREATE_CONTEXT makes (R424). -/
def madeContext (s : State) (c : Context) (gs : List Nat) (ptroot saveBase saveSize : Nat) (lkey ckey : BitVec 256) : Prop :=
  c.clusters = gs ∧ c.ptroot = ptroot ∧ c.saveBase = saveBase ∧ c.saveSize = saveSize ∧ c.launchKey = lkey ∧ c.codeKey = ckey ∧
  c.phase = .running ∧ c.queues = [] ∧ c.objs = [] ∧ ∀ g ∈ gs, tget? c.resumedAt g = some (s.clusterClk g)

end Sys2Proof.Claims

/-- The management commands on contexts (R424, R426, R380 to R382), where the path is free and the command's fields and target allow
it: a context is created on free clusters, pre-empted, resumed under a plan for its clusters, or destroyed; its keys, mask, quanta, code
objects, control registers and notice queue pair are set, and nothing else changes. Rests on the model's own choices, log entries 79, 80, 82, 83, 84, 85 and 124. -/
def Obligations.ContextCommands : Prop :=
  ∀ s : State, commandsTaken s →
    (∀ n gs ptroot base size lkey ckey, n < 64 → s.hasCtx n = false →
      gs.all (fun g => decide (g < 256) && (s.cluster g).owner.isNone && !s.unusable g) = true → ptroot % 65536 = 0 → isDram ptroot = true →
      base % 4096 = 0 → isDram base = true → isDram (base + size - 1) = true → homeDie base = homeDie (base + size - 1) →
      65536 + 39124992 * gs.dedup.length ≤ size →
      ∃ (u : State) (c : Context), exec (.mgmtCreateContext n gs ptroot base size lkey ckey) s = .next (u.initHeader n) ∧
        tget? u.ctxs n = some c ∧ madeContext s c (gs.dedup.insertionSort (· ≤ ·)) ptroot base size lkey ckey ∧
        (∀ g ∈ gs, (u.cluster g).owner = some n) ∧ (∀ g, g ∉ gs → u.cluster g = s.cluster g) ∧
        ({ u with ctxs := s.ctxs, clusters := s.clusters } : State) = s) ∧
    ∀ n c, tget? s.ctxs n = some c →
      (c.phase = .saved → ∃ t : State, exec (.mgmtDestroyContext n) s = .next t ∧ tget? t.ctxs n = none ∧ (∀ p ∈ t.waves, p.2.ctx ≠ n) ∧
        (∀ p ∈ t.blocks, p.2.ctx ≠ n) ∧ t.mem = s.mem ∧ ∀ k, k ≠ n → t.ctx k = s.ctx k) ∧
      (c.phase = .saving → exec (.mgmtDestroyContext n) s = .next (withContext s n { c with doomed := true, heldBy := [], retireHold := false }) ∧
        exec (.mgmtPreempt n) s = .next (withContext s n { c with heldBy := [], retireHold := false })) ∧
      (c.phase = .restoring → exec (.mgmtPreempt n) s = .next ((s.endRestore n).beginPreempt n) ∧
        exec (.mgmtDestroyContext n) s = .next (((s.endRestore n).beginPreempt n).modCtx n (fun x => { x with doomed := true }))) ∧
      (c.phase = .running → exec (.mgmtPreempt n) s = .next ((withContext s n { c with phase := .saving, preemptAt := s.clk }).writeHeader n 1) ∧
        ∃ t : State, exec (.mgmtDestroyContext n) s = .next t ∧ (t.ctx n).phase = .saving ∧ (t.ctx n).doomed = true) ∧
      (∀ gs, let named := gs.dedup.insertionSort (· ≤ ·)
        (c.phase ≠ .saved ∨ s.saveHeld n = true ∨ s.resumePlan n named = none → exec (.mgmtResume n gs) s = .next s) ∧
        ∀ p, c.phase = .saved → s.saveHeld n = false → s.resumePlan n named = some p →
          p.clusters.all (fun g => !s.unusable g && (s.cluster g).owner.isNone) = true →
          ∃ t : State, exec (.mgmtResume n gs) s = .next t ∧ (t.ctx n).phase = .restoring ∧ (t.ctx n).clusters = p.clusters ∧
            (∀ b x, tget? s.blocks b = some x → x.ctx = n → ∃ y, tget? t.blocks b = some y ∧ y.core = p.pieces.core (some b) x.core) ∧
            ∀ k w, tget? s.waves k = some w → w.ctx = n → ∃ v, tget? t.waves k = some v ∧ v.core = p.pieces.core w.block w.core ∧
              v.splits = w.splits ∧ v.vregs = w.vregs ∧ v.sregs = w.sregs ∧ v.preds = w.preds ∧ v.mode = w.mode ∧ v.handler = w.handler ∧
              v.frame = w.frame) ∧
      (c.phase = .saved → ∀ lkey ckey,
        exec (.mgmtSetKeys n lkey ckey) s = .next (withContext s n { c with launchKey := lkey, codeKey := ckey })) ∧
      (∀ mask, exec (.mgmtFeatureMask n mask) s = .next (withContext s n { c with mask := mask })) ∧
      (∀ q x, q < 64 → 0 < x → x < 2 ^ 31 → exec (.mgmtQueueQuanta n q x) s = .next
        (withContext s n { c with queues := tset c.queues q { c.queue q with quantum := x } })) ∧
      (∀ va k o, c.objectAt (BitVec.ofNat 64 va) = some (k, o) → ∃ t : State, exec (.mgmtUnregisterCodeObject n va) s = .next t ∧
        tget? (t.ctx n).objs k = none ∧ (∀ l x, tget? t.launches l = some x → x.ctx = n → x.obj ≠ some k) ∧ t.mem = s.mem ∧
        t.waves = s.waves) ∧
      (∀ v, exec (.mgmtWriteSillage n v) s = .next (withContext s n { c with sillage := v &&& 0x7FFF#64 }) ∧
        exec (.mgmtWriteTrapvec n v) s = .next (withContext s n { c with trapvec := v &&& 0x000FFFFFFFFFFFFD#64 }) ∧
        exec (.mgmtWriteSpawntmr n v) s = .next (withContext s n { c with spawntmr := v &&& 0xFFFF#64 }) ∧
        exec (.mgmtWriteCring n v) s = .next (withContext s n { c with cring := v &&& 0x000FFFFFFFFFF03F#64, ringSeq := 1 }) ∧
        exec (.mgmtWriteCtxmode n v) s = .next ((withContext s n { c with ctxmode := v &&& 0x1F#64 }).applyPower n)) ∧
      ∀ qp, qp < 4096 → exec (.mgmtBindNoticeQp n qp) s = .next (withContext s n { c with noticeQp := some qp })

/-- The management commands on the package (R424 to R427): regions, the cap, the security version, a warm reset, the drydown records and
attestation; and MANAGEMENT_FRAME: a refused frame is answered, one that comes while another is performed waits, and a frame of one
record performs it and is acknowledged with its status, before its replies, unless the record waits for an end. Rests on the model's own choices, log entries 11, 76, 85, 86, 88, 89, 110 and 147. -/
def Obligations.PackageCommands : Prop :=
  ∀ s : State,
    (commandsTaken s →
      (∀ i e, i < 4096 → exec (.mgmtMemoryRegion i e) s = .next { s with
        nd := { s.nd with regions := tset s.nd.regions i (e &&& regionMask) } }) ∧
      (∀ w, 1000 ≤ w → w ≤ 5000 → exec (.mgmtPowerCap w) s = .next { s with power := { s.power with cap := w } }) ∧
      (∀ v, s.nd.svn ≤ v → v ≤ 255 → exec (.mgmtRaiseSvn v) s = .next { s with nd := { s.nd with svn := v } }) ∧
      (∀ die u, s.askReset die = some u → exec (.mgmtWarmReset die) s = .next u) ∧
      (∀ unit first count r, dryUnit unit = true → first < 4096 → count ≤ 4096 →
        let d := tgetD s.dry unit {}
        exec (.mgmtReadDrydown unit first count r) s = .next (emitAll s (replyParts r
          (d.header unit ++ (List.range count).flatMap (fun i => (tgetD d.slots ((first + i) % 4096) {}).image))))) ∧
      ∀ nonce r, s.nd.bootFailed = false → exec (.mgmtAttest nonce r) s = .next (emitAll s (replyParts r (reportBody s nonce)))) ∧
    (∀ nonce r, s.nd.bootFailed = true → exec (.mgmtAttest nonce r) s = .next (emitAll s (replyParts r (reportBody s nonce)))) ∧
    ∀ source p, s.portUp = true → recField p 7 1 = 1 →
      let key := if recField p 5 1 = 0 then some s.nd.mgmtKey else none
      let seq := recField p 8 8
      let u : State := { s with nd := { s.nd with lastSeq := seq } }
      (9216 < p.length → exec (.managementFrame source p) s = .next s) ∧
      (p.length ≤ 9216 → s.nd.job ≠ none ∨ s.nd.frames ≠ [] →
        exec (.managementFrame source p) s = .next { s with nd := { s.nd with frames := s.nd.frames ++ [(source, p)] } }) ∧
      (p.length ≤ 9216 → s.nd.job = none → s.nd.frames = [] →
        (∀ a, frameRefused p key "ILRUS-MGMT" s.nd.lastSeq s.nd.acks = some a →
          exec (.managementFrame source p) s = .next (s.emit (.datagram source a))) ∧
        (frameRefused p key "ILRUS-MGMT" s.nd.lastSeq s.nd.acks = none → frameEntries p = 1 →
          (u.performRecord ⟨source, seq, 0⟩ (frameRecord p 0) = none → ∃ v : State,
            exec (.managementFrame source p) s = .next (v.emit (.datagram source (ackBytes p [(0, 0x10)]))) ∧ v.nd.lastSeq = seq ∧
            tget? v.nd.acks seq = some (ackBytes p [(0, 0x10)]) ∧ ({ v with nd := s.nd } : State) = s) ∧
          ∀ d, u.performRecord ⟨source, seq, 0⟩ (frameRecord p 0) = some d →
            (d.waits = none → ∃ v : State,
              exec (.managementFrame source p) s = .next (emitAll v (.datagram source (ackBytes p [(0, 0)]) :: d.replies)) ∧
              ({ v with nd := d.state.nd } : State) = d.state) ∧
            ∀ w, d.waits = some w → d.state.waitOver w = false → ∃ t : State, exec (.managementFrame source p) s = .next t ∧
              t.nd.job = some { source := source, payload := p, statuses := [0], waits := some w, replies := d.replies } ∧ t.out = d.state.out))

/-- The fabric (R390 to R397): an element that fails has DOWN set in the entries that cross it, and the rewrite takes it out of them; an
element retires in two phases, the second after 2,048 clk; an unanswered source sends again for eight rounds and then ends in
HOME_OFFLINE; the replay filter performs the expected request once, holds later ones and answers duplicates again. Rests on the model's own choices, log entries 95, 96, 97, 98, 99 and 140. -/
def Obligations.FabricEvents : Prop :=
  ∀ s : State,
    (∀ e, elementValid e = true →
      (s.fabric.down.contains e = false → s.fabric.off.contains e = false →
        (s.fabric.around.contains e = false → ∃ t : State, exec (.elementFailure e) s = .next t ∧
          t.fabric.down = s.fabric.down ++ [e] ∧ t.fabric.around = s.fabric.around ∧
          t.fabric.rewriteBy = s.fabric.rewriteBy ++ [(e, s.clk + 2000)] ∧ ({ t with fabric := s.fabric, dry := s.dry } : State) = s ∧
          ∀ router region h, hopOf s.fabric.around router region = some h → hopElement router h = some e → 32 ≤ t.fabric.entry router region) ∧
        (s.fabric.around.contains e = true → (∃ t : State, exec (.elementFailure e) s = .next t) ∧
          (elementIsPort e = false → ∃ t : State, exec (.elementFailure e) s = .next t ∧ t.fabric.down = s.fabric.down ++ [e] ∧
            ({ t with fabric := s.fabric, dry := s.dry } : State) = s))) ∧
      (s.fabric.rewriteBy.any (fun p => p.1 == e) = true →
        (∃ t : State, exec (.routeRewrite e) s = .next t) ∧
        (elementIsPort e = false ∨ s.cutOff = [] → ∃ t : State, exec (.routeRewrite e) s = .next t ∧
          e ∈ t.fabric.around ∧ (∀ p ∈ t.fabric.rewriteBy, p.1 ≠ e) ∧ ({ t with fabric := s.fabric, dry := s.dry } : State) = s ∧
          ∀ router region h, hopOf t.fabric.around router region = some h → hopElement router h ≠ some e)) ∧
      (s.fabric.works e = true → ∃ t : State, exec (.elementRetire e) s = .next t ∧
        t.fabric.leaving = s.fabric.leaving ++ [⟨e, s.clk, s.crossing e⟩] ∧
        t.fabric.around.contains e = true ∧ t.fabric.off = s.fabric.off ∧
        ({ t with fabric := s.fabric, dry := s.dry } : State) = s) ∧
      (∀ x ∈ s.fabric.leaving, x.element = e →
        (x.inside = [] → x.since + 2048 ≤ s.clk → ∃ t : State, exec (.retirePowerDown e) s = .next t ∧ t.fabric.off = s.fabric.off ++ [e] ∧
          (∀ y ∈ t.fabric.leaving, y.element ≠ e) ∧ ({ t with fabric := s.fabric, dry := s.dry } : State) = s) ∧
        (s.fabric.leaving = [x] → x.inside ≠ [] ∨ s.clk < x.since + 2048 → exec (.retirePowerDown e) s = .next s))) ∧
    (∀ source home y ys, s.unanswered source home = y :: ys →
      let oldest := ys.foldl min y
      let rounds := (tgetD s.fabric.resend (source * 256 + home) {}).rounds.filter (fun r => oldest ≤ r)
      (s.clk < rounds.headD oldest + 1024 → exec (.retransmitTimeout source home) s = .next s) ∧
      (rounds.headD oldest + 1024 ≤ s.clk →
        (rounds.length < 8 → ∃ t : State, exec (.retransmitTimeout source home) s = .next t ∧
          tget? t.fabric.resend (source * 256 + home) = some ⟨s.clk :: rounds⟩ ∧ t.mem = s.mem ∧ t.waves = s.waves ∧
          ∀ p ∈ t.fabric.lost, s.carries source home p.1 = false) ∧
        (8 ≤ rounds.length → ∃ t : State, exec (.retransmitTimeout source home) s = .next t ∧
          tget? t.fabric.resend (source * 256 + home) = none ∧ ((∀ p ∈ s.waves, p.2.ended = false) → t.mem = s.mem ∧
            (source < 2048 → t.unanswered source home = []))))) ∧
    ∀ source home (seq : BitVec 16) r, s.requestDue home r = true → s.counter (lineOf (requestAddr r)) = none →
      (2048 ≤ source ∨ (s.core source).wq = []) →
      (∀ a, requestAddr r ≤ a → a < requestAddr r + requestSize r → s.deviceByte a = false) →
      let x := s.filter source home
      let ahead := (seq.toNat + 2 ^ 16 - x.expect) % 2 ^ 16
      x.expect < 2 ^ 16 →
      (ahead = 0 → tget? x.buffer ((x.expect + 1) % 2 ^ 16) = none → ∃ (t : State) (bs : List Byte),
        exec (.replayFilterArrival source home seq r) s = .next t ∧ t.out = s.out ++ [.response source home x.expect bs] ∧
        (t.filter source home).expect = (x.expect + 1) % 2 ^ 16 ∧
        (∀ a, (a < requestAddr r ∨ requestAddr r + requestSize r ≤ a) → memByte t.mem a = memByte s.mem a) ∧
        match r with
        | .read a n => bs = memBytes s.mem a n ∧ t.mem = s.mem
        | .write a b => bs = [] ∧ ∀ i, i < b.length → memByte t.mem (a + i) = b.getD i 0
        | .add a n y => bs = leBytes n (memNat s.mem a n) ∧
          memNat t.mem a n = if s.poisonedAt a then memNat s.mem a n else (memNat s.mem a n + y) % 2 ^ (8 * n)) ∧
      (0 < ahead → ahead < 64 → tget? x.buffer seq.toNat = none → ∃ t : State, exec (.replayFilterArrival source home seq r) s = .next t ∧
        tget? (t.filter source home).buffer seq.toNat = some r ∧ ({ t with fabric := s.fabric } : State) = s) ∧
      (2 ^ 16 - 64 ≤ ahead → ∀ bs, x.responses.find? (fun p => p.1 = seq.toNat) = some (seq.toNat, bs) →
        exec (.replayFilterArrival source home seq r) s = .next { s with out := s.out ++ [.response source home seq.toNat bs] })

/-- The Ethernet port (R398 to R402): a remote request whose key, bounds, permission, translation, alignment, poison and home allow it is
performed and answered, one that they do not is answered with a NAK and changes nothing; a frame past the limit is dropped; a frame of a
paused priority waits until it goes on; a NAK of a notice puts its queue pair in error. Rests on the model's own choices, log entries 90, 91, 92, 93, 94, 147 and 148. -/
def Obligations.PortEvents : Prop :=
  ∀ (s : State) (qp rkey : Nat) (va : Dword), s.portUp = true →
    (s.qpUp qp = true →
      (∀ bs, (9216 < bs.length → exec (.rdmaWrite qp rkey va bs) s = .next s) ∧
        (∀ k, bs.length ≤ 9216 → s.checkRemote rkey 2 va bs.length .write = .error k →
          exec (.rdmaWrite qp rkey va bs) s = .next (s.emit (.roceNak qp k))) ∧
        ∀ ps, bs.length ≤ 9216 → s.checkRemote rkey 2 va bs.length .write = .ok ps → s.partsHeld ps = false →
          (∀ p ∈ ps, s.counter (lineOf p.1) = none) →
          ∃ t : State, exec (.rdmaWrite qp rkey va bs) s = .next (t.emit (.roceAck qp)) ∧ t.nd = s.nd ∧ t.out = s.out ∧ t.waves = s.waves ∧
            t.blocks = s.blocks ∧ (∀ a, (∀ p ∈ ps, a < p.1 ∨ p.1 + p.2.2 ≤ a) → memByte t.mem a = memByte s.mem a) ∧
            ∀ p, ps = [p] → ∀ i, i < bs.length → s.deviceByte (p.1 + i) = false → memByte t.mem (p.1 + i) = bs.getD i 0) ∧
      (∀ n, (∀ k, s.checkRemote rkey 1 va n .read = .error k → exec (.rdmaRead qp rkey va n) s = .next (s.emit (.roceNak qp k))) ∧
        ∀ ps, s.checkRemote rkey 1 va n .read = .ok ps → s.partsHeld ps = false → ∃ t : State,
          exec (.rdmaRead qp rkey va n) s = .next (t.emit (.roceData qp (ps.flatMap (fun p => memBytes s.mem p.1 p.2.2)))) ∧
          t.nd = s.nd ∧ t.out = s.out ∧ t.mem = s.mem ∧ t.waves = s.waves ∧ t.blocks = s.blocks) ∧
      ∀ x y, (∀ k, s.checkRemote rkey 3 va 8 .rmw = .error k →
          exec (.atomicCompareSwap qp rkey va x y) s = .next (s.emit (.roceNak qp k)) ∧
          exec (.atomicFetchAdd qp rkey va x) s = .next (s.emit (.roceNak qp k))) ∧
        ∀ p ps, s.checkRemote rkey 3 va 8 .rmw = .ok (p :: ps) → s.partsHeld (p :: ps) = false → s.counter (lineOf p.1) = none →
          (∀ a, p.1 ≤ a → a < p.1 + 8 → s.deviceByte a = false) →
          let old := memNat s.mem p.1 8
          (∃ t : State, exec (.atomicCompareSwap qp rkey va x y) s = .next (t.emit (.roceOld qp old)) ∧ t.nd = s.nd ∧ t.out = s.out ∧
            t.waves = s.waves ∧
            memNat t.mem p.1 8 = (if old = x.toNat then y.toNat else old) ∧
            ∀ a, (a < p.1 ∨ p.1 + 8 ≤ a) → memByte t.mem a = memByte s.mem a) ∧
          ∃ t : State, exec (.atomicFetchAdd qp rkey va x) s = .next (t.emit (.roceOld qp old)) ∧ t.nd = s.nd ∧ t.out = s.out ∧
            t.waves = s.waves ∧
            memNat t.mem p.1 8 = (old + x.toNat) % 2 ^ 64 ∧ ∀ a, (a < p.1 ∨ p.1 + 8 ≤ a) → memByte t.mem a = memByte s.mem a) ∧
    exec (.roceUnsupportedRequest qp) s = .next (s.emit (.roceNak qp 1)) ∧
    exec (.roceAcknowledgement qp true) s = .next s ∧
    (s.nd.qpError.contains qp = false →
      exec (.roceAcknowledgement qp false) s = .next { s with nd := { s.nd with qpError := s.nd.qpError ++ [qp] } }) ∧
    (∀ query, exec (.neighbourResolution query) s = .next (s.emit (.neighbour query))) ∧
    (∀ f, exec (.ethernetFrameDrop f) s = .next s) ∧
    (∀ o, s.nd.holds o = true → s.emit o = { s with nd := { s.nd with heldOut := s.nd.heldOut ++ [o] } }) ∧
    (∀ o, s.nd.holds o = false → s.emit o = { s with out := s.out ++ [o] }) ∧
    ∀ priority pause, priority < 8 → ∃ t : State, exec (.priorityFlowControl priority pause) s = .next t ∧
      (∀ p, p ∈ t.nd.paused ↔ (p = priority ∧ pause = true) ∨ (p ≠ priority ∧ p ∈ s.nd.paused)) ∧
      (pause = true → ({ t with nd := { t.nd with paused := s.nd.paused } } : State) = s) ∧
      (pause = false → t.nd.heldOut = s.nd.heldOut.filter t.nd.holds ∧ t.out = s.out ++ s.nd.heldOut.filter (fun o => !t.nd.holds o) ∧
        ({ t with nd := s.nd, out := s.out } : State) = s)

/-- Lost dies, warm reset and the scrub (R404, R408 to R417). Rests on the model's own choices, log entries 87, 101, 102, 104, 107 and 108. -/
def Obligations.ReliabilityEvents : Prop :=
  ∀ s : State,
    (∀ die, die < 16 → s.dead.contains die = false → s.resetQueue = [] → (∀ p ∈ s.ctxs, p.2.heldBy = []) →
      ∃ u : State, exec (.dieLost die) s = .next u.placeAll ∧ u.dead = s.dead ++ [die] ∧ u.mem = s.mem ∧
        (∀ p ∈ u.waves, dieOf p.2.core = die → s.stands p.2.ctx = false) ∧ (∀ p ∈ u.blocks, dieOf p.2.core = die → s.stands p.2.ctx = false) ∧
        (∀ k ∈ s.launchesOn die, ∀ l, tget? u.launches k = some l → l.failed = true) ∧
        (∀ g, g / 16 = die → (u.cluster g).withdrawn = true ∧ (u.cluster g).owner = none) ∧
        (∀ c x, tget? u.ctxs c = some x → x.phase ≠ .saved → ∀ g ∈ x.clusters, g / 16 ≠ die) ∧
        ∀ g c x i, tget? s.clusters g = some c → x ∈ c.tags → dieOf x.core = die → i < 8 → u.poison.contains (x.line + 8 * i) = true) ∧
    (∀ die, s.dead.contains die = true → die < 16 → exec (.dieLost die) s = .next s) ∧
    (∀ y, y < 8 → (s.lostStacks.contains y = true → exec (.dieLost (0x20 + y)) s = .next s) ∧
      (s.lostStacks.contains y = false → ∃ t : State, exec (.dieLost (0x20 + y)) s = .next t ∧ underWay t (.decantCdieLoss y))) ∧
    (∀ die n, tget? s.rebuilding die = some n → let k := min n (2 ^ 32 - 1)
      ∃ t : State, exec (.rebuildDone die) s = .next t ∧ t.out = s.out ++ [.tell 0x0B die k] ∧ tget? t.rebuilding die = none ∧
        ({ t with out := s.out, dry := s.dry, rebuilding := s.rebuilding } : State) = s) ∧
    (∀ y answered, y < 8 →
      ((∀ d, d = 2 * y ∨ d = 2 * y + 1 → answered.contains d = true ∨ tgetD s.missed d 0 < 2) → ∃ t : State,
        exec (.smcHeartbeat y answered) s = .next t ∧ ({ t with missed := s.missed } : State) = s ∧
        ∀ d, d = 2 * y ∨ d = 2 * y + 1 → s.dead.contains d = false →
          tgetD t.missed d 0 = if answered.contains d then 0 else tgetD s.missed d 0 + 1) ∧
      (s.dead.contains (2 * y) = true → answered.contains (2 * y + 1) = false → 2 ≤ tgetD s.missed (2 * y + 1) 0 →
        exec (.smcHeartbeat y answered) s = exec (.dieLost (2 * y + 1)) s)) ∧
    (∀ die, (s.askReset die = none → exec (.dieWarmReset die) s = .next s) ∧
      (die < 16 → s.dead.contains die = false → tget? s.resets die = none → s.resetQueue.contains die = false →
        ((tget? s.resets (mateOf die)).isSome = true →
          exec (.dieWarmReset die) s = .next { s with resetQueue := s.resetQueue ++ [die] }) ∧
        (tget? s.resets (mateOf die) = none → ∃ t : State, exec (.dieWarmReset die) s = .next t ∧ tget? t.resets die = some 0 ∧
          ∀ c x, tget? s.ctxs c = some x → x.clusters.any (fun g => g / 16 = die) = true → x.phase = .running →
            (t.ctx c).phase = .saving ∧ die ∈ (t.ctx c).heldBy))) ∧
    (∀ die k, tget? s.resets die = some k →
      (k = 0 → (dieClusters die).any (fun g => (s.cluster g).owner.isSome) = true → exec (.warmResetStepDone die) s = .next s) ∧
      (k = 0 → (dieClusters die).all (fun g => (s.cluster g).owner.isNone) = true → s.portsQuiet die = false →
        ∃ t : State, exec (.warmResetStepDone die) s = .next t ∧ ({ t with fabric := s.fabric, dry := s.dry } : State) = s ∧
          t.fabric.off = s.fabric.off ∧ ∀ e ∈ diePorts die, s.fabric.works e = true → t.fabric.leaving.any (fun l => l.element == e) = true) ∧
      (k < 5 → (k = 0 → (dieClusters die).all (fun g => (s.cluster g).owner.isNone) = true ∧ s.portsQuiet die = true) →
        ∃ t : State, exec (.warmResetStepDone die) s = .next t ∧ tget? t.resets die = some (k + 1) ∧ t.mem = s.mem ∧
          (k = 0 → ∀ i, i < 4 → t.fabric.off.contains (.port (die / 2) (die % 2 * 4 + i)) = true ∨
            s.fabric.down.contains (.port (die / 2) (die % 2 * 4 + i)) = true) ∧
          (k = 1 → ∀ core, dieOf core = die → (t.core core).l1 = []) ∧ (k = 2 → t.offline = s.offline ++ [die]) ∧
          (k = 4 → ∀ core, dieOf core = die → tget? t.cores core = none)) ∧
      (k = 5 → s.resetQueue = [] → (∀ p ∈ s.ctxs, p.2.heldBy = []) → ∃ t : State, exec (.warmResetStepDone die) s = .next t ∧
        tget? t.resets die = none ∧ t.offline = s.offline.erase die ∧
        ((∀ p ∈ s.ctxs, homeDie p.2.saveBase ≠ die) → t.mem = s.mem) ∧
        ∀ e, (e ∈ diePorts die ++ dieElevators die ∨ farEnd e ∈ diePorts die ++ dieElevators die) →
          e ∉ t.fabric.off ∧ e ∉ t.fabric.down ∧ e ∉ t.fabric.around)) ∧
    ∀ die good bad, s.dead.contains die = false → ∃ t : State, exec (.dramScrub die good bad) s = .next t ∧
      ({ t with dry := s.dry, poison := s.poison, dramBad := s.dramBad } : State) = s ∧
      (∀ l ∈ bad, homeDie l = die → isDram l = true → ∀ i, i < 8 → let a := lineOf l + 8 * i
        (s.ownerPart a = none → s.ownerReady (s.unitAt a) = true → t.poison.contains a = true) ∧
        (s.ownerPart a = some .e → t.dramBad.contains a = true)) ∧
      (tgetD t.dry die {}).count = (tgetD s.dry die {}).count + ((good ++ bad).filter (fun l => homeDie l == die && isDram l)).length

/-- Power, heat and boot (R422, R423, R429, R430, R436): a mean above a limit takes a step from the clusters of the unit, and calm gives
one back at most once in 100 us; 105 degrees hold a die at step 8 until it is below 95, and 115 lose it; power on runs boot, which stops at
the step that fails, as that of an image below the fused security version does, a package
reset keeps the drydown records, and power removal leaves no memory and no register. Rests on the model's own choices, log entries 10, 111, 112 and 113. -/
def Obligations.PowerEvents : Prop :=
  ∀ s : State,
    (∀ die c, die < 16 → s.dead.contains die = false →
      (c < 105 → exec (.thermalLimit die c) s = .next s) ∧ (115 ≤ c → exec (.thermalLimit die c) s = exec (.dieLost die) s) ∧
      (105 ≤ c → c < 115 → ∃ t : State, exec (.thermalLimit die c) s = .next t ∧ die ∈ t.hot ∧
        (∀ g, (t.cluster g).step = if g / 16 = die then min (s.cluster g).step 8 else (s.cluster g).step) ∧
        ({ t with hot := s.hot, clusters := s.clusters, dry := s.dry } : State) = s)) ∧
    (∀ die c, s.hot.contains die = true → s.dead.contains die = false → (95 ≤ c → exec (.thermalRecover die c) s = .next s) ∧
      (c < 95 → ∃ t : State, exec (.thermalRecover die c) s = .next t ∧ t.hot = s.hot.erase die ∧
        (∀ g, (t.cluster g).step = if g / 16 = die ∧ s.shared g = false then 12 else (s.cluster g).step) ∧
        ({ t with hot := s.hot, clusters := s.clusters, dry := s.dry } : State) = s)) ∧
    (∀ r, let p : Power := { s.power with samples := (r.milliwatts :: s.power.samples).take 100 }
      let high := powerUnits.filter (fun u => p.limit u * 100 < p.total u)
      let calm := powerUnits.all (fun u => p.total u < p.limit u * 95)
      (high ≠ [] → ∃ t : State, exec (.powerSample r) s = .next t ∧ t.power = p ∧ t.mem = s.mem ∧ t.waves = s.waves ∧
        ∀ g, (t.cluster g).step = if g < 256 ∧ s.shared g = true ∧ (s.cluster g).owner ≠ none ∧ high.any (fun u => inUnit u g) = true then
          max 4 ((s.cluster g).step - 1) else (s.cluster g).step) ∧
      (calm = false → high = [] → exec (.powerSample r) s = .next { s with power := p }) ∧
      (calm = true → high = [] → (∀ x, s.power.raised = some x → x + 150000 ≤ s.clk) → ∃ t : State, exec (.powerSample r) s = .next t ∧
        t.mem = s.mem ∧ t.waves = s.waves ∧ (t.power = p ∨ t.power = { p with raised := some s.clk }) ∧
        ∀ g, (t.cluster g).step = if g < 256 ∧ s.shared g = true ∧ (s.cluster g).step < s.heatStep g then
          (s.cluster g).step + 1 else (s.cluster g).step)) ∧
    (∀ i, i = .powerOn ∧ s.nd.bootStep = 0 ∨ i = .packageReset ∧ s.nd.bootStep ≠ 0 → ∃ t : State, exec i s = .next t ∧ t.nd.bootClk = s.clk ∧
      (s.bootFailure = none → t.nd.bootStep = 5 ∧ t.nd.bootFailed = false ∧ t.timeNs = 0) ∧
      (∀ k, s.bootFailure = some k → t.nd.bootStep = k ∧ t.nd.bootFailed = true) ∧
      (Config.stepFails s.clk 1 = false → Config.imageSvn s.clk 0 < s.nd.svn → t.nd.bootStep = 2 ∧ t.nd.bootFailed = true) ∧
      (i = .powerOn → ({ t with nd := s.nd } : State) = s) ∧
      (i = .packageReset → t.dry = s.dry ∧ t.waves = [] ∧ t.blocks = [] ∧ t.ctxs = [] ∧ t.dead = [] ∧ t.poison = [] ∧ t.nd.svn = s.nd.svn)) ∧
    ∃ t : State, exec .powerRemoval s = .next t ∧ t.mem = [] ∧ t.waves = [] ∧ t.blocks = [] ∧ t.ctxs = [] ∧ t.launches = [] ∧ t.cores = [] ∧
      t.dry = [] ∧ t.net = [] ∧ t.nd.bootStep = 0 ∧ t.nd.svn = s.nd.svn ∧ t.nd.vendorKey = s.nd.vendorKey ∧
      t.nd.identityKey = s.nd.identityKey ∧ ∀ g, (t.cluster g).retired = (s.cluster g).retired

namespace Sys2Proof.Claims
open Sys2Proof.Machine

/-! One step, the encodings, and what every step keeps. -/

/-- The bytes of code from a position as a core holds them: the rest of its code line, and the next line if that is cached too. -/
def codeAt (s : State) (core ctx : Nat) (pos : Dword) : List Byte :=
  (tgetD (s.core core).icache (codeKeyOf ctx pos) []).drop (pos.toNat % 128) ++
    (if 124 ≤ pos.toNat % 128 then tgetD (s.core core).icache (codeKeyOf ctx (pos + 4)) [] else [])

/-- The state in which the instruction of a split issues: the copy for plane 0 is the first one, with the word, the literal and the
length of what was fetched, and MODE as the instruction begins with it; an instruction that a load in flight holds up has not issued
yet. -/
def issued (s : State) (wid : Nat) (w : Wave) (sp : Split) (form : CodeForm) (word : Dword) (lit : Word) (len : Nat) (i : Instr) : State :=
  let opc := opcOf form word
  let held : Split := { sp with offMode := w.mode, copies := [(0, sp.mask)], len := len }
  let start (x : Split) : State := { s.modWave wid (fun w => { w with splits := tset w.splits w.issuing x }) with
    issue := {
      wave := wid, plane := 0, inv := planeInvariant opc && opc != 0, lanes := sp.mask,
      mode := match form with | .quadiner => w.mode | .bintodal => bintodalMode word,
      form := form, pc := sp.pos, len := len, iword := word, lit := lit, mmrev := (s.ctx w.ctx).mmrevAt sp.pos } }
  if interlocked i (start held) then start held else start { held with opc := opc, since := s.clk }

/-- What the turn of a wave makes of the outcome of its instruction: time passes, and what has waited for the turn's end goes on. -/
def turned (o : Host.Outcome State Fault Refusal) (dt : Nat) : Host.Outcome State Fault Refusal :=
  match o with
  | .next u => .next (u.afterTurn dt)
  | .fault f => .fault f
  | .refused r => .refused r

end Sys2Proof.Claims

/-- The state after reset (R43, R348, R422, R429, R436): boot has completed and TIME is 0; nothing is resident, filed or in flight; no page is poisoned
and no die lost; DRAM lists nothing, which is its canonical form; the cap is 5,000 W and the clocks run at step 16. A wave of a launched
block starts as R43 says: its four scalar registers, every other register, predicate and plane number 0, MODE 0, the latches lost, and one
split of all 32 lanes at the entry address. That reset is the end of boot, and what the empty memory reads as, are the model's choice (log
entries 1 and 2). -/
def Obligations.ResetState : Prop :=
  let r := State.reset
  (r.nd.bootStep = 5 ∧ r.nd.bootFailed = false ∧ r.timeNs = 0 ∧ r.waves = [] ∧ r.blocks = [] ∧ r.ctxs = [] ∧ r.launches = [] ∧ r.net = [] ∧
    r.homes = [] ∧ r.poison = [] ∧ r.dead = [] ∧ r.offline = [] ∧ r.resets = [] ∧ r.power.cap = 5000 ∧ r.mem = [] ∧ r.memCanonical ∧
    ∀ g, (r.cluster g).step = 16 ∧ (r.cluster g).owner = none) ∧
  ∀ l k b core index rank gang i clk entry d active, let w := startWave l k b core index rank gang i clk entry d active
    w.sreg 0 = l.args ∧ w.sreg 1 = BitVec.ofNat 64 index ∧ w.sreg 2 = BitVec.ofNat 64 rank ∧ w.sreg 3 = BitVec.ofNat 64 gang ∧
    (∀ n, 4 ≤ n → w.sreg n = 0) ∧ w.vregs = [] ∧ w.preds = [] ∧ w.mode = 0 ∧ (∀ n, w.plane n = 0) ∧ (∀ p n, w.latch p n = .lost) ∧
    w.retired = 0 ∧ w.handler = false ∧ w.splits = [(0, { pos := entry, mask := BitVec.allOnes 32 })] ∧ w.role = d.role ∧
    w.nvregs = d.nvregs ∧ w.index = i

/-- A STEP RUNS THE DECODED INSTRUCTION (R34, R37, R78, R90, R92): where the next turn is that of a wave of one split in plane 0 that may
issue and that its port chooses (R47), its position is aligned, its code is translated and cached, and the bytes there decode to an instruction that passes the checks
before issue, the step is exec of that instruction in the state where it issues, after which time passes; one that the data of a load in
flight hold up does not issue, and time passes. Rests on the model's own choices, log entries 5, 6 and 77. -/
def Obligations.StepRunsDecoded : Prop :=
  ∀ (s : State) (wid x dt slot : Nat) (rest : List Turn) (w : Wave) (sp : Split) (i : Instr), s.nextTurn = (.wave wid x, dt, rest) →
    let s0 : State := { s with agenda := rest }
    let s1 := (s0.modWave wid (fun _ => w)).cacheFetch w sp
    let c := s1.ctx w.ctx
    let form := c.formAt sp.pos
    let bytes := codeAt s1 w.core w.ctx sp.pos
    let word := BitVec.ofNat 64 (leNat (bytes.take 4))
    let long := wordHasLiteral (BitVec.ofNat 32 (leNat (bytes.take 4)))
    let lit := if long then BitVec.ofNat 32 (leNat ((bytes.drop 4).take 4)) else 0
    tget? s.waves wid = some w → s0.mayTurn wid = true → s0.chosen wid = wid → w.splits = [(slot, sp)] → slot < 4 → w.issuing = slot → w.deferred = [] →
    w.causes = [] → w.copiesFrom sp.mask 0 = [(0, sp.mask)] → sp.wait = none → sp.begun = false → sp.yields = false → sp.copies = [] →
    sp.pos.toNat % formAlign form = 0 → (∃ pa, s1.xlate w.core w.ctx sp.pos .fetch = .ok pa) →
    (∃ l, tget? (s1.core w.core).icache (codeKeyOf w.ctx sp.pos) = some l ∧ l.length = 128) →
    (form = .quadiner → long = true → literalBeyond (c.accordAt sp.pos) sp.pos = false ∧
      (∃ pa, s1.xlate w.core w.ctx (sp.pos + 4) .fetch = .ok pa) ∧
      ∃ l, tget? (s1.core w.core).icache (codeKeyOf w.ctx (sp.pos + 4)) = some l ∧ l.length = 128) →
    (form = .quadiner → decodeQuadiner (word.setWidth 32) lit = .ok i →
      let u := issued s1 wid w sp form word lit (if long then 8 else 4) i
      preIssue i u = none →
        step s = turned (if interlocked i u then .next u else exec i (u.noteIssue wid (portOf i.opc))) dt) ∧
    (form = .bintodal → decodeBintodal (BitVec.ofNat 64 (leNat (bytes.take 8))) = .ok i →
      let u := issued s1 wid w sp form (BitVec.ofNat 64 (leNat (bytes.take 8))) 0 8 i
      preIssue i u = none →
        step s = turned (if interlocked i u then .next u else exec i (u.noteIssue wid (portOf i.opc))) dt)

/-- The words of R78 and R92 for a few instructions, laid out as the device stores them, decode to them; a reserved opcode (R87), a
field value that no kind takes (R80, R81), two literals (R84) and a stray IMM16 (R93) do not decode. -/
def Obligations.DecodeWords : Prop :=
  decodeTableWord 32 0x02010203 = some (.adds (.reg 1) (.reg 2) (.reg 3)) ∧
  decodeTableWord 64 0xDEADBEEF0304FF91 = some (.subs (.reg 4) (.lit 0xDEADBEEF) (.inl 1)) ∧
  decodeTableWord 32 0x40050689 = some (.addv (.reg 5) (.reg 6) .lane) ∧
  decodeTableWord 32 0x01000000 = some .nop ∧
  decodeTableWord 32 0x00FFFFFF = some (.trapz 0xFF 0xFF 0xFF) ∧
  decodeTableWord 32 0x1D000000 = none ∧ decodeTableWord 32 0x02410203 = none ∧ decodeTableWord 32 0x02014003 = none ∧
  decodeTableWord 64 0x000000010201FFFF = none ∧
  decodeBintodal 0x0201FF0300000007 = .ok (.adds (.reg 1) (.imm 7) (.reg 3)) ∧
  decodeBintodal 0x0201020300000007 = .error .strayImm16 ∧
  decodeBintodal 0x0201800300000000 = .error .badA

/-- DECODE AND ENCODE AGREE (R78, R84, R92, R93), in both forms: the bytes of every well-formed instruction, with every operand at every
value that the encoding admits, decode to it and leave the bytes after it. -/
def Obligations.EncodeDecodeRoundTrip : Prop :=
  ∀ (form : CodeForm) (mode : Half) (i : Instr) (rest : List Byte), i.wf form = true →
    ∃ bs, encode form mode i = some bs ∧ decodeBytes form (bs ++ rest) = .ok (i, rest) ∧
      bs.length = if form = .bintodal ∨ i.operands.any (fun o => o.ext.isSome) = true then 8 else 4

/-- EVERY STEP KEEPS THE FORM OF MEMORY: whatever the turn, a step from a state whose DRAM stands in canonical form (rising addresses, no
entry for a zero byte) leaves it so. Rests on the model's own choice, log entry 2. -/
def Obligations.StepKeepsMemCanonical : Prop :=
  ∀ s t : State, s.memCanonical → step s = .next t → t.memCanonical
end

