-- ==== Sys2Proof/Laws/Memory.lean ====
section
/-! SUPPORT. The laws of the tables and of the bytes of memory: reading after writing, and the canonical form. -/

namespace Sys2Proof.Machine

/-! Reading a table after a change. -/

theorem tget?_tset {α : Type} (t : Tbl α) (n m : Nat) (v : α) : tget? (tset t n v) m = if m = n then some v else tget? t m := by
  induction t with
  | nil => simp [tset, tget?, eq_comm]
  | cons q t ih =>
    obtain ⟨k, w⟩ := q
    by_cases hm : m = n
    · subst hm
      simp only [tset, if_true] at ih ⊢
      split
      · simp [tget?]
      · split
        · simp [tget?]
        · have : k ≠ m := by omega
          simp [tget?, this, ih]
    · have hn : n ≠ m := fun h => hm h.symm
      simp only [tset, hm, if_false] at ih ⊢
      split
      · simp [tget?, hn]
      · split
        · rename_i h; subst h; simp [tget?, hn]
        · simp only [tget?, ih]

@[simp] theorem tget?_tset_same {α : Type} (t : Tbl α) (n : Nat) (v : α) : tget? (tset t n v) n = some v := by simp [tget?_tset]
theorem tget?_tset_other {α : Type} (t : Tbl α) {n m : Nat} (v : α) (h : m ≠ n) : tget? (tset t n v) m = tget? t m := by
  simp [tget?_tset, h]

theorem tgetD_tset {α : Type} (t : Tbl α) (n m : Nat) (v d : α) : tgetD (tset t n v) m d = if m = n then v else tgetD t m d := by
  simp only [tgetD, tget?_tset]; split <;> rfl
@[simp] theorem tgetD_tset_same {α : Type} (t : Tbl α) (n : Nat) (v d : α) : tgetD (tset t n v) n d = v := by simp [tgetD_tset]
theorem tgetD_tset_other {α : Type} (t : Tbl α) {n m : Nat} (v d : α) (h : m ≠ n) : tgetD (tset t n v) m d = tgetD t m d := by
  simp [tgetD_tset, h]

theorem tget?_tdel {α : Type} (t : Tbl α) (n m : Nat) : tget? (tdel t n) m = if m = n then none else tget? t m := by
  induction t with
  | nil => simp [tdel, tget?]
  | cons q t ih =>
    obtain ⟨k, w⟩ := q
    simp only [tdel] at ih ⊢
    rw [List.filter_cons]
    by_cases hk : k = n
    · subst hk
      simp only [bne_self_eq_false, Bool.false_eq_true, if_false, ih, tget?]
      split
      · rfl
      · rename_i h; rw [if_neg fun e => h e.symm]
    · have hb : (k != n) = true := by simpa using hk
      simp only [hb, if_true, tget?, ih]
      split
      · rename_i h; subst h; rw [if_neg hk]
      · rfl

theorem tgetD_tdel {α : Type} (t : Tbl α) (n m : Nat) (d : α) : tgetD (tdel t n) m d = if m = n then d else tgetD t m d := by
  simp only [tgetD, tget?_tdel]; split <;> rfl

theorem tget?_tmodify {α : Type} (t : Tbl α) (n m : Nat) (f : α → α) :
    tget? (tmodify t n f) m = if m = n then (tget? t n).map f else tget? t m := by
  simp only [tmodify]
  split
  · rename_i h; rw [tget?_tset, h]; rfl
  · rename_i h; split
    · rename_i e; subst e; simp [h]
    · rfl

theorem tgetD_tmodify_other {α : Type} (t : Tbl α) {n m : Nat} (f : α → α) (d : α) (h : m ≠ n) :
    tgetD (tmodify t n f) m d = tgetD t m d := by
  simp [tgetD, tget?_tmodify, h]
theorem tgetD_tmodify_same {α : Type} (t : Tbl α) (n : Nat) (f : α → α) (d : α) (h : (tget? t n).isSome = true) :
    tgetD (tmodify t n f) n d = f (tgetD t n d) := by
  obtain ⟨v, hv⟩ := Option.isSome_iff_exists.1 h
  simp [tgetD, tget?_tmodify, hv]

/-! Reading a byte after a write. -/

theorem memByte_memSet (m : Tbl Byte) (a n : Nat) (b : Byte) : memByte (memSet m a b) n = if n = a then b else memByte m n := by
  simp only [memByte, memSet]
  split
  · rename_i h; subst h; rw [tgetD_tdel]
  · rw [tgetD_tset]

theorem memByte_memPut (m : Tbl Byte) (a n : Nat) (bs : List Byte) :
    memByte (memPut m a bs) n = if a ≤ n ∧ n < a + bs.length then bs.getD (n - a) 0 else memByte m n := by
  induction bs generalizing m a with
  | nil => rw [memPut, if_neg]; simp only [List.length_nil]; omega
  | cons b bs ih =>
    simp only [memPut, ih, memByte_memSet, List.length_cons]
    by_cases h1 : n = a
    · subst h1; rw [if_neg (by omega), if_pos rfl, if_pos (by omega)]; simp
    · by_cases h2 : a + 1 ≤ n ∧ n < a + 1 + bs.length
      · rw [if_pos h2, if_pos (by omega)]
        obtain ⟨k, hk⟩ : ∃ k, n - a = k + 1 := ⟨n - a - 1, by omega⟩
        rw [hk, show n - (a + 1) = k by omega]; simp
      · rw [if_neg h2, if_neg h1, if_neg (by omega)]

/-- A write leaves every byte outside it alone. -/
theorem memByte_memPut_outside (m : Tbl Byte) (a n : Nat) (bs : List Byte) (h : n < a ∨ a + bs.length ≤ n) :
    memByte (memPut m a bs) n = memByte m n := by
  rw [memByte_memPut, if_neg (by omega)]
/-- A write is read back. -/
theorem memByte_memPut_inside (m : Tbl Byte) (a i : Nat) (bs : List Byte) (h : i < bs.length) :
    memByte (memPut m a bs) (a + i) = bs.getD i 0 := by
  rw [memByte_memPut, if_pos (by omega), Nat.add_sub_cancel_left]

/-! The canonical form. -/

theorem tsorted_cons {α : Type} {p : Nat × α} {t : Tbl α} :
    tsorted (p :: t) = true ↔ (∀ q ∈ t.head?, p.1 < q.1) ∧ tsorted t = true := by
  cases t with
  | nil => simp [tsorted]
  | cons q t => simp [tsorted]

theorem tset_head {α : Type} (t : Tbl α) (n : Nat) (v : α) (k : Nat) (hk : k < n) (h : ∀ q ∈ t.head?, k < q.1) :
    ∀ q ∈ (tset t n v).head?, k < q.1 := by
  cases t with
  | nil => simp [tset, hk]
  | cons q t =>
    obtain ⟨a, w⟩ := q
    simp only [tset]
    split
    · simpa using hk
    · split
      · simpa using hk
      · simpa using h

/-- Setting an entry keeps the keys rising. -/
theorem tset_sorted {α : Type} (t : Tbl α) (n : Nat) (v : α) (h : tsorted t = true) : tsorted (tset t n v) = true := by
  induction t with
  | nil => simp [tset, tsorted]
  | cons q t ih =>
    obtain ⟨a, w⟩ := q
    have h0 := h
    rw [tsorted_cons] at h
    simp only [tset]
    split
    · rename_i hn; rw [tsorted_cons]; exact ⟨by simpa using hn, h0⟩
    · split
      · rename_i hn; subst hn; rw [tsorted_cons]; exact h
      · rename_i h1 h2; rw [tsorted_cons]; exact ⟨tset_head t n v a (by omega) h.1, ih h.2⟩

theorem tsorted_lt {α : Type} {p : Nat × α} {t : Tbl α} (h : tsorted (p :: t) = true) : ∀ q ∈ t, p.1 < q.1 := by
  induction t generalizing p with
  | nil => simp
  | cons q t ih =>
    rw [tsorted_cons] at h
    intro r hr
    have hq : p.1 < q.1 := h.1 q (by simp)
    rcases List.mem_cons.1 hr with rfl | hr
    · exact hq
    · exact Nat.lt_trans hq (ih h.2 r hr)

/-- Removing entries keeps the keys rising. -/
theorem filter_sorted {α : Type} (f : Nat × α → Bool) (t : Tbl α) (h : tsorted t = true) : tsorted (t.filter f) = true := by
  induction t with
  | nil => simp [tsorted]
  | cons p t ih =>
    have hl := tsorted_lt h
    rw [tsorted_cons] at h
    rw [List.filter_cons]
    split
    · rw [tsorted_cons]
      exact ⟨fun q hq => hl q (List.mem_of_mem_filter (List.mem_of_mem_head? hq)), ih h.2⟩
    · exact ih h.2

theorem tset_all {α : Type} (g : Nat × α → Bool) (t : Tbl α) (n : Nat) (v : α) (hv : g (n, v) = true) (h : t.all g = true) :
    (tset t n v).all g = true := by
  induction t with
  | nil => simp [tset, hv]
  | cons q t ih =>
    obtain ⟨a, w⟩ := q
    simp only [List.all_cons, Bool.and_eq_true] at h
    simp only [tset]
    split
    · simp [hv, h.1, h.2]
    · split
      · simp [hv, h.2]
      · simp [h.1, ih h.2]

/-- Writing a byte keeps the canonical form. -/
theorem memSet_wf (m : Tbl Byte) (a : Nat) (b : Byte) (h : Memory.wf m = true) : Memory.wf (memSet m a b) = true := by
  simp only [Memory.wf, Bool.and_eq_true] at h ⊢
  simp only [memSet]
  split
  · refine ⟨filter_sorted _ _ h.1, ?_⟩
    rw [List.all_eq_true] at h ⊢
    exact fun x hx => h.2 x (List.mem_of_mem_filter hx)
  · rename_i hb
    exact ⟨tset_sorted _ _ _ h.1, tset_all _ _ _ _ (by simpa using hb) h.2⟩

/-- Writing bytes keeps the canonical form. -/
theorem memPut_wf (m : Tbl Byte) (a : Nat) (bs : List Byte) (h : Memory.wf m = true) : Memory.wf (memPut m a bs) = true := by
  induction bs generalizing m a with
  | nil => exact h
  | cons b bs ih => exact ih _ _ (memSet_wf m a b h)

end Sys2Proof.Machine
end

