-- ==== Sys2Proof/Laws/Canonical.lean ====
section
/-! SUPPORT. What it means that an operation keeps the canonical form of memory, for each kind of answer an operation gives. -/

namespace Sys2Proof.Machine

/-! The outcomes of operations. -/

/-- The next state, if there is one, keeps the canonical form. -/
def KeepsMem (o : Host.Outcome State Fault Refusal) : Prop :=
  match o with
  | .next t => t.memCanonical
  | _ => True
/-- See `KeepsMem`. -/
def Ready.keepsMem : Ready → Prop
  | .wait s => s.memCanonical
  | .trap s => s.memCanonical
  | .run _ s => s.memCanonical
def OptMem (o : Option State) : Prop := match o with | some t => t.memCanonical | none => True
def DoneMem (o : Option Done) : Prop := match o with | some t => t.state.memCanonical | none => True
def ExMem (o : Except State State) : Prop := match o with | .ok t => t.memCanonical | .error t => t.memCanonical
def OptPMem (o : Option (State × Nat)) : Prop := match o with | some t => t.1.memCanonical | none => True
def PairMem {α : Type} (p : State × α) : Prop := p.1.memCanonical

theorem next_wf (t : State) (h : t.memCanonical) : KeepsMem (.next t) := h
theorem fault_wf (f) : KeepsMem (.fault f) := trivial
theorem refused_wf (f) : KeepsMem (.refused f) := trivial
theorem some_wf (t : State) (h : t.memCanonical) : OptMem (some t) := h
theorem none_wf : OptMem none := trivial
theorem dsome_wf (t : State) (a b) (h : t.memCanonical) : DoneMem (some ⟨t, a, b⟩) := h
theorem dnone_wf : DoneMem none := trivial
theorem ok_wf (t : State) (h : t.memCanonical) : ExMem (.ok t) := h
theorem error_wf (t : State) (h : t.memCanonical) : ExMem (.error t) := h
theorem psome_wf (t : State) (n) (h : t.memCanonical) : OptPMem (some (t, n)) := h
theorem pnone_wf : OptPMem none := trivial
theorem pair_wf {α : Type} (t : State) (x : α) (h : t.memCanonical) : PairMem (t, x) := h
theorem wait_wf (t : State) (h : t.memCanonical) : (Ready.wait t).keepsMem := h
theorem trap_wf (t : State) (h : t.memCanonical) : (Ready.trap t).keepsMem := h
theorem run_wf (i) (t : State) (h : t.memCanonical) : (Ready.run i t).keepsMem := h
theorem of_pair {α : Type} {p : State × α} {a b} (h : PairMem p) (e : p = (a, b)) : a.memCanonical := by subst e; exact h
theorem of_fst {α : Type} {p : State × α} (h : PairMem p) : p.1.memCanonical := h
theorem of_some {o : Option State} {a} (h : OptMem o) (e : o = some a) : a.memCanonical := by subst e; exact h
theorem of_dsome {o : Option Done} {a} (h : DoneMem o) (e : o = some a) : a.state.memCanonical := by subst e; exact h
theorem of_psome {o : Option (State × Nat)} {a b} (h : OptPMem o) (e : o = some (a, b)) : a.memCanonical := by subst e; exact h
theorem of_ok {o : Except State State} {a} (h : ExMem o) (e : o = .ok a) : a.memCanonical := by subst e; exact h
theorem of_error {o : Except State State} {a} (h : ExMem o) (e : o = .error a) : a.memCanonical := by subst e; exact h
theorem of_wait {o : Ready} {a} (h : o.keepsMem) (e : o = .wait a) : a.memCanonical := by subst e; exact h
theorem of_trap {o : Ready} {a} (h : o.keepsMem) (e : o = .trap a) : a.memCanonical := by subst e; exact h
theorem of_run {o : Ready} {i a} (h : o.keepsMem) (e : o = .run i a) : a.memCanonical := by subst e; exact h
theorem of_next {o : Host.Outcome State Fault Refusal} {a} (h : KeepsMem o) (e : o = .next a) : a.memCanonical := by subst e; exact h
theorem opt_map_wf {o : Option State} (f : State → State) (hf : ∀ u, u.memCanonical → (f u).memCanonical) (h : OptMem o) :
    OptMem (o.map f) := by cases o <;> [trivial; exact hf _ h]
theorem done_map_wf {o : Option State} (f : State → Done) (hf : ∀ u, u.memCanonical → (f u).state.memCanonical) (h : OptMem o) :
    DoneMem (o.map f) := by cases o <;> [trivial; exact hf _ h]
theorem State.wf_of_mem (s : State) (h : Memory.wf s.mem = true) : s.memCanonical := h
theorem State.mem_of_wf (s : State) (h : s.memCanonical) : Memory.wf s.mem = true := h
theorem foldl_wf {α : Type} (f : State → α → State) (hf : ∀ u a, u.memCanonical → (f u a).memCanonical) (l : List α)
    (s : State) (h : s.memCanonical) : (l.foldl f s).memCanonical := by
  induction l generalizing s with
  | nil => exact h
  | cons a t ih => exact ih _ (hf _ _ h)

theorem opt_map2_wf {α : Type} {o : Option α} (f : α → State) (hf : ∀ u, (f u).memCanonical) : OptMem (o.map f) := by
  cases o <;> [trivial; exact hf _]
def Served.keepsMem : Served → Prop
  | .yes _ s => s.memCanonical
  | .notYet s => s.memCanonical
theorem yes_wf (v) (t : State) (h : t.memCanonical) : (Served.yes v t).keepsMem := h
theorem notYet_wf (t : State) (h : t.memCanonical) : (Served.notYet t).keepsMem := h
theorem of_yes {o : Served} {v a} (h : o.keepsMem) (e : o = .yes v a) : a.memCanonical := by subst e; exact h
theorem of_notYet {o : Served} {a} (h : o.keepsMem) (e : o = .notYet a) : a.memCanonical := by subst e; exact h
theorem getD_wf {o : Option State} {a : State} (h : OptMem o) (ha : a.memCanonical) : (o.getD a).memCanonical := by
  cases o <;> [exact ha; exact h]
theorem reset_wf : ({} : State).memCanonical := rfl
theorem foldl_fst_wf {α β : Type} (f : State × β → α → State × β) (hf : ∀ u a, u.1.memCanonical → (f u a).1.memCanonical) (l : List α)
    (s : State × β) (h : s.1.memCanonical) : (l.foldl f s).1.memCanonical := by
  induction l generalizing s with
  | nil => exact h
  | cons a t ih => exact ih _ (hf _ _ h)

end Sys2Proof.Machine
end

