-- ==== Sys2Proof/Laws/Exec.lean ====
section
/-! SUPPORT. What the dispatcher does with each instruction, one lemma for each arm. -/

namespace Sys2Proof.Machine

@[simp] theorem exec_trapz (d : BitVec 8) (a : BitVec 8) (b : BitVec 8) (s : State) : exec (.trapz d a b) s = execTrapz d a b s := rfl
@[simp] theorem exec_nop  (s : State) : exec (.nop) s = execNop s := rfl
@[simp] theorem exec_adds (d : SDst) (a : SSrc) (b : SSrc) (s : State) : exec (.adds d a b) s = execAdds d a b s := rfl
@[simp] theorem exec_subs (d : SDst) (a : SSrc) (b : SSrc) (s : State) : exec (.subs d a b) s = execSubs d a b s := rfl
@[simp] theorem exec_muls (d : SDst) (a : SSrc) (b : SSrc) (s : State) : exec (.muls d a b) s = execMuls d a b s := rfl
@[simp] theorem exec_mulhs (d : SDst) (a : SSrc) (b : SSrc) (s : State) : exec (.mulhs d a b) s = execMulhs d a b s := rfl
@[simp] theorem exec_divs (d : SDst) (a : SSrc) (b : SSrc) (s : State) : exec (.divs d a b) s = execDivs d a b s := rfl
@[simp] theorem exec_rems (d : SDst) (a : SSrc) (b : SSrc) (s : State) : exec (.rems d a b) s = execRems d a b s := rfl
@[simp] theorem exec_ands (d : SDst) (a : SSrc) (b : SSrc) (s : State) : exec (.ands d a b) s = execAnds d a b s := rfl
@[simp] theorem exec_ors (d : SDst) (a : SSrc) (b : SSrc) (s : State) : exec (.ors d a b) s = execOrs d a b s := rfl
@[simp] theorem exec_xors (d : SDst) (a : SSrc) (b : SSrc) (s : State) : exec (.xors d a b) s = execXors d a b s := rfl
@[simp] theorem exec_andns (d : SDst) (a : SSrc) (b : SSrc) (s : State) : exec (.andns d a b) s = execAndns d a b s := rfl
@[simp] theorem exec_shls (d : SDst) (a : SSrc) (b : SSrc) (s : State) : exec (.shls d a b) s = execShls d a b s := rfl
@[simp] theorem exec_shrs (d : SDst) (a : SSrc) (b : SSrc) (s : State) : exec (.shrs d a b) s = execShrs d a b s := rfl
@[simp] theorem exec_sras (d : SDst) (a : SSrc) (b : SSrc) (s : State) : exec (.sras d a b) s = execSras d a b s := rfl
@[simp] theorem exec_rols (d : SDst) (a : SSrc) (b : SSrc) (s : State) : exec (.rols d a b) s = execRols d a b s := rfl
@[simp] theorem exec_mins (d : SDst) (a : SSrc) (b : SSrc) (s : State) : exec (.mins d a b) s = execMins d a b s := rfl
@[simp] theorem exec_maxs (d : SDst) (a : SSrc) (b : SSrc) (s : State) : exec (.maxs d a b) s = execMaxs d a b s := rfl
@[simp] theorem exec_movs (d : SDst) (a : SSrc) (s : State) : exec (.movs d a) s = execMovs d a s := rfl
@[simp] theorem exec_nots (d : SDst) (a : SSrc) (s : State) : exec (.nots d a) s = execNots d a s := rfl
@[simp] theorem exec_negs (d : SDst) (a : SSrc) (s : State) : exec (.negs d a) s = execNegs d a s := rfl
@[simp] theorem exec_clzs (d : SDst) (a : SSrc) (s : State) : exec (.clzs d a) s = execClzs d a s := rfl
@[simp] theorem exec_popcs (d : SDst) (a : SSrc) (s : State) : exec (.popcs d a) s = execPopcs d a s := rfl
@[simp] theorem exec_seqs (d : SDst) (a : SSrc) (b : SSrc) (s : State) : exec (.seqs d a b) s = execSeqs d a b s := rfl
@[simp] theorem exec_snes (d : SDst) (a : SSrc) (b : SSrc) (s : State) : exec (.snes d a b) s = execSnes d a b s := rfl
@[simp] theorem exec_slts (d : SDst) (a : SSrc) (b : SSrc) (s : State) : exec (.slts d a b) s = execSlts d a b s := rfl
@[simp] theorem exec_sles (d : SDst) (a : SSrc) (b : SSrc) (s : State) : exec (.sles d a b) s = execSles d a b s := rfl
@[simp] theorem exec_leas (d : SDst) (a : SSrc) (b : SSrc) (s : State) : exec (.leas d a b) s = execLeas d a b s := rfl
@[simp] theorem exec_bfxs (d : SDst) (a : SSrc) (b : SSrc) (s : State) : exec (.bfxs d a b) s = execBfxs d a b s := rfl
@[simp] theorem exec_br (a : PSel) (b : SSrc) (s : State) : exec (.br a b) s = execBr a b s := rfl
@[simp] theorem exec_brz (a : SSrc) (b : SSrc) (s : State) : exec (.brz a b) s = execBrz a b s := rfl
@[simp] theorem exec_brnz (a : SSrc) (b : SSrc) (s : State) : exec (.brnz a b) s = execBrnz a b s := rfl
@[simp] theorem exec_call (d : SDst) (b : SSrc) (s : State) : exec (.call d b) s = execCall d b s := rfl
@[simp] theorem exec_ret (a : SSrc) (s : State) : exec (.ret a) s = execRet a s := rfl
@[simp] theorem exec_rejoin (b : SSrc) (s : State) : exec (.rejoin b) s = execRejoin b s := rfl
@[simp] theorem exec_exit  (s : State) : exec (.exit) s = execExit s := rfl
@[simp] theorem exec_yield  (s : State) : exec (.yield) s = execYield s := rfl
@[simp] theorem exec_plset (a : VSrc) (s : State) : exec (.plset a) s = execPlset a s := rfl
@[simp] theorem exec_plget (d : VDst) (s : State) : exec (.plget d) s = execPlget d s := rfl
@[simp] theorem exec_trap (b : Fin 64) (s : State) : exec (.trap b) s = execTrap b s := rfl
@[simp] theorem exec_brk  (s : State) : exec (.brk) s = execBrk s := rfl
@[simp] theorem exec_crrd (d : SDst) (b : CReg) (s : State) : exec (.crrd d b) s = execCrrd d b s := rfl
@[simp] theorem exec_setm (b : SSrc) (s : State) : exec (.setm b) s = execSetm b s := rfl
@[simp] theorem exec_setmf (a : ModeField) (b : SSrc) (s : State) : exec (.setmf a b) s = execSetmf a b s := rfl
@[simp] theorem exec_getm (d : SDst) (s : State) : exec (.getm d) s = execGetm d s := rfl
@[simp] theorem exec_pand (d : Fin 8) (a : PSel) (b : PSel) (s : State) : exec (.pand d a b) s = execPand d a b s := rfl
@[simp] theorem exec_por (d : Fin 8) (a : PSel) (b : PSel) (s : State) : exec (.por d a b) s = execPor d a b s := rfl
@[simp] theorem exec_pxor (d : Fin 8) (a : PSel) (b : PSel) (s : State) : exec (.pxor d a b) s = execPxor d a b s := rfl
@[simp] theorem exec_pandn (d : Fin 8) (a : PSel) (b : PSel) (s : State) : exec (.pandn d a b) s = execPandn d a b s := rfl
@[simp] theorem exec_pfroms (d : Fin 8) (a : SSrc) (s : State) : exec (.pfroms d a) s = execPfroms d a s := rfl
@[simp] theorem exec_ptos (d : SDst) (a : PSel) (s : State) : exec (.ptos d a) s = execPtos d a s := rfl
@[simp] theorem exec_maskrd (d : SDst) (s : State) : exec (.maskrd d) s = execMaskrd d s := rfl
@[simp] theorem exec_addv (d : VDst) (a : VSrc) (b : VSrc) (s : State) : exec (.addv d a b) s = execAddv d a b s := rfl
@[simp] theorem exec_subv (d : VDst) (a : VSrc) (b : VSrc) (s : State) : exec (.subv d a b) s = execSubv d a b s := rfl
@[simp] theorem exec_mulv (d : VDst) (a : VSrc) (b : VSrc) (s : State) : exec (.mulv d a b) s = execMulv d a b s := rfl
@[simp] theorem exec_mulhv (d : VDst) (a : VSrc) (b : VSrc) (s : State) : exec (.mulhv d a b) s = execMulhv d a b s := rfl
@[simp] theorem exec_divv (d : VDst) (a : VSrc) (b : VSrc) (s : State) : exec (.divv d a b) s = execDivv d a b s := rfl
@[simp] theorem exec_remv (d : VDst) (a : VSrc) (b : VSrc) (s : State) : exec (.remv d a b) s = execRemv d a b s := rfl
@[simp] theorem exec_minv (d : VDst) (a : VSrc) (b : VSrc) (s : State) : exec (.minv d a b) s = execMinv d a b s := rfl
@[simp] theorem exec_maxv (d : VDst) (a : VSrc) (b : VSrc) (s : State) : exec (.maxv d a b) s = execMaxv d a b s := rfl
@[simp] theorem exec_absv (d : VDst) (a : VSrc) (s : State) : exec (.absv d a) s = execAbsv d a s := rfl
@[simp] theorem exec_negv (d : VDst) (a : VSrc) (s : State) : exec (.negv d a) s = execNegv d a s := rfl
@[simp] theorem exec_madv (d : Fin 128) (a : VSrc) (b : VSrc) (s : State) : exec (.madv d a b) s = execMadv d a b s := rfl
@[simp] theorem exec_msubv (d : Fin 128) (a : VSrc) (b : VSrc) (s : State) : exec (.msubv d a b) s = execMsubv d a b s := rfl
@[simp] theorem exec_andv (d : VDst) (a : VSrc) (b : VSrc) (s : State) : exec (.andv d a b) s = execAndv d a b s := rfl
@[simp] theorem exec_orv (d : VDst) (a : VSrc) (b : VSrc) (s : State) : exec (.orv d a b) s = execOrv d a b s := rfl
@[simp] theorem exec_xorv (d : VDst) (a : VSrc) (b : VSrc) (s : State) : exec (.xorv d a b) s = execXorv d a b s := rfl
@[simp] theorem exec_andnv (d : VDst) (a : VSrc) (b : VSrc) (s : State) : exec (.andnv d a b) s = execAndnv d a b s := rfl
@[simp] theorem exec_notv (d : VDst) (a : VSrc) (s : State) : exec (.notv d a) s = execNotv d a s := rfl
@[simp] theorem exec_shlv (d : VDst) (a : VSrc) (b : VSrc) (s : State) : exec (.shlv d a b) s = execShlv d a b s := rfl
@[simp] theorem exec_shrv (d : VDst) (a : VSrc) (b : VSrc) (s : State) : exec (.shrv d a b) s = execShrv d a b s := rfl
@[simp] theorem exec_srav (d : VDst) (a : VSrc) (b : VSrc) (s : State) : exec (.srav d a b) s = execSrav d a b s := rfl
@[simp] theorem exec_rolv (d : VDst) (a : VSrc) (b : VSrc) (s : State) : exec (.rolv d a b) s = execRolv d a b s := rfl
@[simp] theorem exec_clzv (d : VDst) (a : VSrc) (s : State) : exec (.clzv d a) s = execClzv d a s := rfl
@[simp] theorem exec_popcv (d : VDst) (a : VSrc) (s : State) : exec (.popcv d a) s = execPopcv d a s := rfl
@[simp] theorem exec_movv (d : VDst) (a : VSrc) (s : State) : exec (.movv d a) s = execMovv d a s := rfl
@[simp] theorem exec_bfxv (d : VDst) (a : VSrc) (b : VSrc) (s : State) : exec (.bfxv d a b) s = execBfxv d a b s := rfl
@[simp] theorem exec_dot4v (d : Fin 128) (a : VSrc) (b : VSrc) (s : State) : exec (.dot4v d a b) s = execDot4v d a b s := rfl
@[simp] theorem exec_dot2v (d : Fin 128) (a : VSrc) (b : VSrc) (s : State) : exec (.dot2v d a b) s = execDot2v d a b s := rfl
@[simp] theorem exec_avgv (d : VDst) (a : VSrc) (b : VSrc) (s : State) : exec (.avgv d a b) s = execAvgv d a b s := rfl
@[simp] theorem exec_sqrtv (d : VDst) (a : VSrc) (s : State) : exec (.sqrtv d a) s = execSqrtv d a s := rfl
@[simp] theorem exec_rcpv (d : VDst) (a : VSrc) (s : State) : exec (.rcpv d a) s = execRcpv d a s := rfl
@[simp] theorem exec_rsqv (d : VDst) (a : VSrc) (s : State) : exec (.rsqv d a) s = execRsqv d a s := rfl
@[simp] theorem exec_exp2v (d : VDst) (a : VSrc) (s : State) : exec (.exp2v d a) s = execExp2v d a s := rfl
@[simp] theorem exec_log2v (d : VDst) (a : VSrc) (s : State) : exec (.log2v d a) s = execLog2v d a s := rfl
@[simp] theorem exec_sinv (d : VDst) (a : VSrc) (s : State) : exec (.sinv d a) s = execSinv d a s := rfl
@[simp] theorem exec_cosv (d : VDst) (a : VSrc) (s : State) : exec (.cosv d a) s = execCosv d a s := rfl
@[simp] theorem exec_tanhv (d : VDst) (a : VSrc) (s : State) : exec (.tanhv d a) s = execTanhv d a s := rfl
@[simp] theorem exec_floorv (d : VDst) (a : VSrc) (s : State) : exec (.floorv d a) s = execFloorv d a s := rfl
@[simp] theorem exec_ceilv (d : VDst) (a : VSrc) (s : State) : exec (.ceilv d a) s = execCeilv d a s := rfl
@[simp] theorem exec_truncv (d : VDst) (a : VSrc) (s : State) : exec (.truncv d a) s = execTruncv d a s := rfl
@[simp] theorem exec_rintv (d : VDst) (a : VSrc) (s : State) : exec (.rintv d a) s = execRintv d a s := rfl
@[simp] theorem exec_fracv (d : VDst) (a : VSrc) (s : State) : exec (.fracv d a) s = execFracv d a s := rfl
@[simp] theorem exec_copysv (d : VDst) (a : VSrc) (b : VSrc) (s : State) : exec (.copysv d a b) s = execCopysv d a b s := rfl
@[simp] theorem exec_classv (d : VDst) (a : VSrc) (s : State) : exec (.classv d a) s = execClassv d a s := rfl
@[simp] theorem exec_scalbv (d : VDst) (a : VSrc) (b : VSrc) (s : State) : exec (.scalbv d a b) s = execScalbv d a b s := rfl
@[simp] theorem exec_cvtv (d : VDst) (a : VSrc) (b : EType) (s : State) : exec (.cvtv d a b) s = execCvtv d a b s := rfl
@[simp] theorem exec_packsxv (d : VDst) (a : VSrc) (b : SxFmt) (s : State) : exec (.packsxv d a b) s = execPacksxv d a b s := rfl
@[simp] theorem exec_unpksxv (d : VDst) (a : VSrc) (b : SxFmt) (s : State) : exec (.unpksxv d a b) s = execUnpksxv d a b s := rfl
@[simp] theorem exec_cmpeqv (d : Fin 8) (a : VSrc) (b : VSrc) (s : State) : exec (.cmpeqv d a b) s = execCmpeqv d a b s := rfl
@[simp] theorem exec_cmpnev (d : Fin 8) (a : VSrc) (b : VSrc) (s : State) : exec (.cmpnev d a b) s = execCmpnev d a b s := rfl
@[simp] theorem exec_cmpltv (d : Fin 8) (a : VSrc) (b : VSrc) (s : State) : exec (.cmpltv d a b) s = execCmpltv d a b s := rfl
@[simp] theorem exec_cmplev (d : Fin 8) (a : VSrc) (b : VSrc) (s : State) : exec (.cmplev d a b) s = execCmplev d a b s := rfl
@[simp] theorem exec_cmpgtv (d : Fin 8) (a : VSrc) (b : VSrc) (s : State) : exec (.cmpgtv d a b) s = execCmpgtv d a b s := rfl
@[simp] theorem exec_cmpgev (d : Fin 8) (a : VSrc) (b : VSrc) (s : State) : exec (.cmpgev d a b) s = execCmpgev d a b s := rfl
@[simp] theorem exec_cmpunv (d : Fin 8) (a : VSrc) (b : VSrc) (s : State) : exec (.cmpunv d a b) s = execCmpunv d a b s := rfl
@[simp] theorem exec_selv (d : VDst) (a : VSrc) (b : VSrc) (s : State) : exec (.selv d a b) s = execSelv d a b s := rfl
@[simp] theorem exec_shflv (d : VDst) (a : VSrc) (b : VSrc) (s : State) : exec (.shflv d a b) s = execShflv d a b s := rfl
@[simp] theorem exec_shupv (d : VDst) (a : VSrc) (b : VSrc) (s : State) : exec (.shupv d a b) s = execShupv d a b s := rfl
@[simp] theorem exec_shdnv (d : VDst) (a : VSrc) (b : VSrc) (s : State) : exec (.shdnv d a b) s = execShdnv d a b s := rfl
@[simp] theorem exec_shxrv (d : VDst) (a : VSrc) (b : VSrc) (s : State) : exec (.shxrv d a b) s = execShxrv d a b s := rfl
@[simp] theorem exec_bcastv (d : VDst) (a : VSrc) (b : VSrc) (s : State) : exec (.bcastv d a b) s = execBcastv d a b s := rfl
@[simp] theorem exec_voteall (d : Fin 8) (a : PSel) (s : State) : exec (.voteall d a) s = execVoteall d a s := rfl
@[simp] theorem exec_voteany (d : Fin 8) (a : PSel) (s : State) : exec (.voteany d a) s = execVoteany d a s := rfl
@[simp] theorem exec_ballot (d : SDst) (a : PSel) (s : State) : exec (.ballot d a) s = execBallot d a s := rfl
@[simp] theorem exec_redaddv (d : SDst) (a : VSrc) (s : State) : exec (.redaddv d a) s = execRedaddv d a s := rfl
@[simp] theorem exec_redminv (d : SDst) (a : VSrc) (s : State) : exec (.redminv d a) s = execRedminv d a s := rfl
@[simp] theorem exec_redmaxv (d : SDst) (a : VSrc) (s : State) : exec (.redmaxv d a) s = execRedmaxv d a s := rfl
@[simp] theorem exec_redandv (d : SDst) (a : VSrc) (s : State) : exec (.redandv d a) s = execRedandv d a s := rfl
@[simp] theorem exec_redorv (d : SDst) (a : VSrc) (s : State) : exec (.redorv d a) s = execRedorv d a s := rfl
@[simp] theorem exec_scanv (d : VDst) (a : VSrc) (s : State) : exec (.scanv d a) s = execScanv d a s := rfl
@[simp] theorem exec_movsv (d : VDst) (a : SSrc) (s : State) : exec (.movsv d a) s = execMovsv d a s := rfl
@[simp] theorem exec_movvs (d : SDst) (a : VSrc) (b : SSrc) (s : State) : exec (.movvs d a b) s = execMovvs d a b s := rfl
@[simp] theorem exec_firstl (d : SDst) (s : State) : exec (.firstl d) s = execFirstl d s := rfl
@[simp] theorem exec_ldv (d : VDst) (a : Fin 64) (b : SSrc) (s : State) : exec (.ldv d a b) s = execLdv d a b s := rfl
@[simp] theorem exec_stv (d : Fin 128) (a : Fin 64) (b : SSrc) (s : State) : exec (.stv d a b) s = execStv d a b s := rfl
@[simp] theorem exec_lds (d : SDst) (a : SSrc) (b : SSrc) (s : State) : exec (.lds d a b) s = execLds d a b s := rfl
@[simp] theorem exec_sts (d : Fin 64) (a : SSrc) (b : SSrc) (s : State) : exec (.sts d a b) s = execSts d a b s := rfl
@[simp] theorem exec_ldvb (d : VDst) (a : SSrc) (b : SSrc) (s : State) : exec (.ldvb d a b) s = execLdvb d a b s := rfl
@[simp] theorem exec_stvb (d : Fin 128) (a : SSrc) (b : SSrc) (s : State) : exec (.stvb d a b) s = execStvb d a b s := rfl
@[simp] theorem exec_pref (a : SSrc) (b : SSrc) (s : State) : exec (.pref a b) s = execPref a b s := rfl
@[simp] theorem exec_aadd (d : VDst) (a : Fin 64) (b : VSrc) (s : State) : exec (.aadd d a b) s = execAadd d a b s := rfl
@[simp] theorem exec_amin (d : VDst) (a : Fin 64) (b : VSrc) (s : State) : exec (.amin d a b) s = execAmin d a b s := rfl
@[simp] theorem exec_amax (d : VDst) (a : Fin 64) (b : VSrc) (s : State) : exec (.amax d a b) s = execAmax d a b s := rfl
@[simp] theorem exec_aand (d : VDst) (a : Fin 64) (b : VSrc) (s : State) : exec (.aand d a b) s = execAand d a b s := rfl
@[simp] theorem exec_aor (d : VDst) (a : Fin 64) (b : VSrc) (s : State) : exec (.aor d a b) s = execAor d a b s := rfl
@[simp] theorem exec_axor (d : VDst) (a : Fin 64) (b : VSrc) (s : State) : exec (.axor d a b) s = execAxor d a b s := rfl
@[simp] theorem exec_axchg (d : VDst) (a : Fin 64) (b : VSrc) (s : State) : exec (.axchg d a b) s = execAxchg d a b s := rfl
@[simp] theorem exec_aincw (d : VDst) (a : Fin 64) (b : VSrc) (s : State) : exec (.aincw d a b) s = execAincw d a b s := rfl
@[simp] theorem exec_adecw (d : VDst) (a : Fin 64) (b : VSrc) (s : State) : exec (.adecw d a b) s = execAdecw d a b s := rfl
@[simp] theorem exec_cas (d : Fin 128) (a : Fin 64) (b : VSrc) (s : State) : exec (.cas d a b) s = execCas d a b s := rfl
@[simp] theorem exec_cas128 (d : Fin 32) (a : Fin 64) (b : Fin 32) (s : State) : exec (.cas128 d a b) s = execCas128 d a b s := rfl
@[simp] theorem exec_aadds (d : SDst) (a : SSrc) (b : SSrc) (s : State) : exec (.aadds d a b) s = execAadds d a b s := rfl
@[simp] theorem exec_cass (d : Fin 64) (a : SSrc) (b : SSrc) (s : State) : exec (.cass d a b) s = execCass d a b s := rfl
@[simp] theorem exec_fence (b : FenceOp) (s : State) : exec (.fence b) s = execFence b s := rfl
@[simp] theorem exec_waita (d : Space) (a : SSrc) (b : SSrc) (s : State) : exec (.waita d a b) s = execWaita d a b s := rfl
@[simp] theorem exec_drain (b : Scope) (s : State) : exec (.drain b) s = execDrain b s := rfl
@[simp] theorem exec_rdadd (a : Fin 64) (b : VSrc) (s : State) : exec (.rdadd a b) s = execRdadd a b s := rfl
@[simp] theorem exec_rdmin (a : Fin 64) (b : VSrc) (s : State) : exec (.rdmin a b) s = execRdmin a b s := rfl
@[simp] theorem exec_rdmax (a : Fin 64) (b : VSrc) (s : State) : exec (.rdmax a b) s = execRdmax a b s := rfl
@[simp] theorem exec_rdand (a : Fin 64) (b : VSrc) (s : State) : exec (.rdand a b) s = execRdand a b s := rfl
@[simp] theorem exec_rdor (a : Fin 64) (b : VSrc) (s : State) : exec (.rdor a b) s = execRdor a b s := rfl
@[simp] theorem exec_rdxor (a : Fin 64) (b : VSrc) (s : State) : exec (.rdxor a b) s = execRdxor a b s := rfl
@[simp] theorem exec_ldp (d : VDst) (a : VSrc) (b : SSrc) (s : State) : exec (.ldp d a b) s = execLdp d a b s := rfl
@[simp] theorem exec_stp (d : Fin 128) (a : VSrc) (b : SSrc) (s : State) : exec (.stp d a b) s = execStp d a b s := rfl
@[simp] theorem exec_ldc (d : VDst) (a : VSrc) (b : SSrc) (s : State) : exec (.ldc d a b) s = execLdc d a b s := rfl
@[simp] theorem exec_stc (d : Fin 128) (a : VSrc) (b : SSrc) (s : State) : exec (.stc d a b) s = execStc d a b s := rfl
@[simp] theorem exec_ldk (d : VDst) (a : VSrc) (b : SSrc) (s : State) : exec (.ldk d a b) s = execLdk d a b s := rfl
@[simp] theorem exec_stk (d : Fin 128) (a : VSrc) (b : SSrc) (s : State) : exec (.stk d a b) s = execStk d a b s := rfl
@[simp] theorem exec_ldl (d : VDst) (a : VSrc) (b : SSrc) (s : State) : exec (.ldl d a b) s = execLdl d a b s := rfl
@[simp] theorem exec_stl (d : Fin 128) (a : VSrc) (b : SSrc) (s : State) : exec (.stl d a b) s = execStl d a b s := rfl
@[simp] theorem exec_aaddc (d : VDst) (a : VSrc) (b : VSrc) (s : State) : exec (.aaddc d a b) s = execAaddc d a b s := rfl
@[simp] theorem exec_casc (d : Fin 128) (a : VSrc) (b : VSrc) (s : State) : exec (.casc d a b) s = execCasc d a b s := rfl
@[simp] theorem exec_townGive (a : SSrc) (b : SSrc) (s : State) : exec (.townGive a b) s = execTownGive a b s := rfl
@[simp] theorem exec_townTake (a : SSrc) (b : SSrc) (s : State) : exec (.townTake a b) s = execTownTake a b s := rfl
@[simp] theorem exec_twait (d : SDst) (a : SSrc) (b : SSrc) (s : State) : exec (.twait d a b) s = execTwait d a b s := rfl
@[simp] theorem exec_barv (d : SDst) (a : SSrc) (s : State) : exec (.barv d a) s = execBarv d a s := rfl
@[simp] theorem exec_barw (a : SSrc) (b : SSrc) (s : State) : exec (.barw a b) s = execBarw a b s := rfl
@[simp] theorem exec_ldps (d : SDst) (a : SSrc) (b : SSrc) (s : State) : exec (.ldps d a b) s = execLdps d a b s := rfl
@[simp] theorem exec_stps (d : Fin 64) (a : SSrc) (b : SSrc) (s : State) : exec (.stps d a b) s = execStps d a b s := rfl
@[simp] theorem exec_mma (d : Fin 8) (a : SSrc) (b : Fin 16) (s : State) : exec (.mma d a b) s = execMma d a b s := rfl
@[simp] theorem exec_mmz (d : Fin 8) (s : State) : exec (.mmz d) s = execMmz d s := rfl
@[simp] theorem exec_mmd (d : Fin 8) (a : SSrc) (b : Bool) (s : State) : exec (.mmd d a b) s = execMmd d a b s := rfl
@[simp] theorem exec_wload (d : Fin 16) (a : SSrc) (b : Fin 80) (s : State) : exec (.wload d a b) s = execWload d a b s := rfl
@[simp] theorem exec_mmsync  (s : State) : exec (.mmsync) s = execMmsync s := rfl
@[simp] theorem exec_wbind (d : Fin 16) (a : SSrc) (s : State) : exec (.wbind d a) s = execWbind d a s := rfl
@[simp] theorem exec_wtouch (b : Fin 16) (s : State) : exec (.wtouch b) s = execWtouch b s := rfl
@[simp] theorem exec_wunbind (b : Fin 16) (s : State) : exec (.wunbind b) s = execWunbind b s := rfl
@[simp] theorem exec_gather (a : SSrc) (s : State) : exec (.gather a) s = execGather a s := rfl
@[simp] theorem exec_spawn (a : SSrc) (b : SSrc) (s : State) : exec (.spawn a b) s = execSpawn a b s := rfl
@[simp] theorem exec_dcinit (d : Fin 64) (a : SSrc) (b : SSrc) (s : State) : exec (.dcinit d a b) s = execDcinit d a b s := rfl
@[simp] theorem exec_dctake (d : SDst) (a : SSrc) (b : SSrc) (s : State) : exec (.dctake d a b) s = execDctake d a b s := rfl
@[simp] theorem exec_dcgive (d : SDst) (a : SSrc) (b : SSrc) (s : State) : exec (.dcgive d a b) s = execDcgive d a b s := rfl
@[simp] theorem exec_dcread (d : Fin 32) (a : SSrc) (s : State) : exec (.dcread d a) s = execDcread d a s := rfl
@[simp] theorem exec_dcreadx (d : SDst) (a : SSrc) (s : State) : exec (.dcreadx d a) s = execDcreadx d a s := rfl
@[simp] theorem exec_dcdrop (d : SDst) (a : SSrc) (s : State) : exec (.dcdrop d a) s = execDcdrop d a s := rfl
@[simp] theorem exec_objdecl (d : SDst) (a : SSrc) (s : State) : exec (.objdecl d a) s = execObjdecl d a s := rfl
@[simp] theorem exec_objdrop (a : SSrc) (s : State) : exec (.objdrop a) s = execObjdrop a s := rfl
@[simp] theorem exec_wstat (d : SDst) (b : Fin 16) (s : State) : exec (.wstat d b) s = execWstat d b s := rfl
@[simp] theorem exec_crwr (a : CReg) (b : SSrc) (s : State) : exec (.crwr a b) s = execCrwr a b s := rfl
@[simp] theorem exec_carve (d : SDst) (a : SSrc) (s : State) : exec (.carve d a) s = execCarve d a s := rfl
@[simp] theorem exec_tret  (s : State) : exec (.tret) s = execTret s := rfl
@[simp] theorem exec_tlbinv (a : SSrc) (b : Bool) (s : State) : exec (.tlbinv a b) s = execTlbinv a b s := rfl
@[simp] theorem exec_icinv (a : SSrc) (b : Bool) (s : State) : exec (.icinv a b) s = execIcinv a b s := rfl
@[simp] theorem exec_splitRotation (wave : Nat) (s : State) : exec (.splitRotation wave) s = execSplitRotation wave s := rfl
@[simp] theorem exec_loadDataReturn (wave : Nat) (load : Nat) (s : State) : exec (.loadDataReturn wave load) s = execLoadDataReturn wave load s := rfl
@[simp] theorem exec_waveExchange (out : Nat) (into : Nat) (s : State) : exec (.waveExchange out into) s = execWaveExchange out into s := rfl
@[simp] theorem exec_waitaPeriodicWake (wave : Nat) (s : State) : exec (.waitaPeriodicWake wave) s = execWaitaPeriodicWake wave s := rfl
@[simp] theorem exec_drainComplete (wave : Nat) (s : State) : exec (.drainComplete wave) s = execDrainComplete wave s := rfl
@[simp] theorem exec_waveEnd (wave : Nat) (s : State) : exec (.waveEnd wave) s = execWaveEnd wave s := rfl
@[simp] theorem exec_mmaExecute (core : Nat) (s : State) : exec (.mmaExecute core) s = execMmaExecute core s := rfl
@[simp] theorem exec_mmzExecute (core : Nat) (s : State) : exec (.mmzExecute core) s = execMmzExecute core s := rfl
@[simp] theorem exec_mmdExecute (core : Nat) (s : State) : exec (.mmdExecute core) s = execMmdExecute core s := rfl
@[simp] theorem exec_wloadExecute (core : Nat) (s : State) : exec (.wloadExecute core) s = execWloadExecute core s := rfl
@[simp] theorem exec_copyComplete (block : Nat) (window : Nat) (s : State) : exec (.copyComplete block window) s = execCopyComplete block window s := rfl
@[simp] theorem exec_copyAbandon (block : Nat) (window : Nat) (s : State) : exec (.copyAbandon block window) s = execCopyAbandon block window s := rfl
@[simp] theorem exec_gatherComplete (cluster : Nat) (s : State) : exec (.gatherComplete cluster) s = execGatherComplete cluster s := rfl
@[simp] theorem exec_gatherAbandon (cluster : Nat) (s : State) : exec (.gatherAbandon cluster) s = execGatherAbandon cluster s := rfl
@[simp] theorem exec_spawnBinTimer (cluster : Nat) (bin : Nat) (s : State) : exec (.spawnBinTimer cluster bin) s = execSpawnBinTimer cluster bin s := rfl
@[simp] theorem exec_spawnWaveStart (cluster : Nat) (bin : Nat) (s : State) : exec (.spawnWaveStart cluster bin) s = execSpawnWaveStart cluster bin s := rfl
@[simp] theorem exec_decantReq (record : Nat) (slice : Nat) (sum : Nat) (first : Nat) (s : State) : exec (.decantReq record slice sum first) s = execDecantReq record slice sum first s := rfl
@[simp] theorem exec_decantGiveMsg (record : Nat) (slice : Nat) (units : Nat) (op : Nat) (s : State) : exec (.decantGiveMsg record slice units op) s = execDecantGiveMsg record slice units op s := rfl
@[simp] theorem exec_decantReturn (record : Nat) (slice : Nat) (units : Nat) (s : State) : exec (.decantReturn record slice units) s = execDecantReturn record slice units s := rfl
@[simp] theorem exec_decantAnswer (record : Nat) (slice : Nat) (units : Nat) (s : State) : exec (.decantAnswer record slice units) s = execDecantAnswer record slice units s := rfl
@[simp] theorem exec_decantReadAtHome (record : Nat) (slice : Nat) (kind : DecantRead) (op : Nat) (s : State) : exec (.decantReadAtHome record slice kind op) s = execDecantReadAtHome record slice kind op s := rfl
@[simp] theorem exec_decantRecall (record : Nat) (slice : Nat) (s : State) : exec (.decantRecall record slice) s = execDecantRecall record slice s := rfl
@[simp] theorem exec_decantGrant (record : Nat) (slice : Nat) (units : Nat) (s : State) : exec (.decantGrant record slice units) s = execDecantGrant record slice units s := rfl
@[simp] theorem exec_decantServe (record : Nat) (slice : Nat) (units : Nat) (s : State) : exec (.decantServe record slice units) s = execDecantServe record slice units s := rfl
@[simp] theorem exec_decantStatusReply (record : Nat) (slice : Nat) (op : Nat) (lo : Nat) (hi : Dword) (detail : Nat) (s : State) : exec (.decantStatusReply record slice op lo hi detail) s = execDecantStatusReply record slice op lo hi detail s := rfl
@[simp] theorem exec_decantCdieLoss (stack : Nat) (s : State) : exec (.decantCdieLoss stack) s = execDecantCdieLoss stack s := rfl
@[simp] theorem exec_wr (core : Nat) (write : Nat) (s : State) : exec (.wr core write) s = execWr core write s := rfl
@[simp] theorem exec_pack (core : Nat) (write : Nat) (level : Nat) (s : State) : exec (.pack core write level) s = execPack core write level s := rfl
@[simp] theorem exec_inv (line : Nat) (cluster : Nat) (writer : Nat) (s : State) : exec (.inv line cluster writer) s = execInv line cluster writer s := rfl
@[simp] theorem exec_iack (line : Nat) (cluster : Nat) (s : State) : exec (.iack line cluster) s = execIack line cluster s := rfl
@[simp] theorem exec_gets (line : Nat) (stack : Nat) (core : Nat) (s : State) : exec (.gets line stack core) s = execGets line stack core s := rfl
@[simp] theorem exec_getx (line : Nat) (stack : Nat) (core : Nat) (s : State) : exec (.getx line stack core) s = execGetx line stack core s := rfl
@[simp] theorem exec_fwd (line : Nat) (stack : Nat) (core : Nat) (excl : Bool) (s : State) : exec (.fwd line stack core excl) s = execFwd line stack core excl s := rfl
@[simp] theorem exec_data (line : Nat) (stack : Nat) (core : Nat) (excl : Bool) (bytes : (List Byte)) (s : State) : exec (.data line stack core excl bytes) s = execData line stack core excl bytes s := rfl
@[simp] theorem exec_wb (line : Nat) (stack : Nat) (s : State) : exec (.wb line stack) s = execWb line stack s := rfl
@[simp] theorem exec_xpub (line : Nat) (stack : Nat) (level : Nat) (s : State) : exec (.xpub line stack level) s = execXpub line stack level s := rfl
@[simp] theorem exec_xinv (line : Nat) (stack : Nat) (s : State) : exec (.xinv line stack) s = execXinv line stack s := rfl
@[simp] theorem exec_xack (line : Nat) (stack : Nat) (s : State) : exec (.xack line stack) s = execXack line stack s := rfl
@[simp] theorem exec_xdone (line : Nat) (stack : Nat) (level : Nat) (s : State) : exec (.xdone line stack level) s = execXdone line stack level s := rfl
@[simp] theorem exec_fpub (core : Nat) (epoch : Nat) (level : Nat) (requester : Nat) (s : State) : exec (.fpub core epoch level requester) s = execFpub core epoch level requester s := rfl
@[simp] theorem exec_fack (core : Nat) (epoch : Nat) (level : Nat) (requester : Nat) (s : State) : exec (.fack core epoch level requester) s = execFack core epoch level requester s := rfl
@[simp] theorem exec_rebase (isCore : Bool) (unit : Nat) (s : State) : exec (.rebase isCore unit) s = execRebase isCore unit s := rfl
@[simp] theorem exec_icacheFill (core : Nat) (ctx : Nat) (line : Nat) (wave : Nat) (s : State) : exec (.icacheFill core ctx line wave) s = execIcacheFill core ctx line wave s := rfl
@[simp] theorem exec_waitWordPoll (ctx : Nat) (queue : Nat) (s : State) : exec (.waitWordPoll ctx queue) s = execWaitWordPoll ctx queue s := rfl
@[simp] theorem exec_queueReserving (ctx : Nat) (queue : Nat) (s : State) : exec (.queueReserving ctx queue) s = execQueueReserving ctx queue s := rfl
@[simp] theorem exec_launchDrain (launch : Nat) (s : State) : exec (.launchDrain launch) s = execLaunchDrain launch s := rfl
@[simp] theorem exec_translationRequest (stack : Nat) (ctx : Nat) (record : Nat) (image : Nat) (s : State) : exec (.translationRequest stack ctx record image) s = execTranslationRequest stack ctx record image s := rfl
@[simp] theorem exec_handlerPreemptTimeout (wave : Nat) (s : State) : exec (.handlerPreemptTimeout wave) s = execHandlerPreemptTimeout wave s := rfl
@[simp] theorem exec_invalidationComplete (wave : Nat) (s : State) : exec (.invalidationComplete wave) s = execInvalidationComplete wave s := rfl
@[simp] theorem exec_launchFrame (source : Nat) (payload : (List Byte)) (s : State) : exec (.launchFrame source payload) s = execLaunchFrame source payload s := rfl
@[simp] theorem exec_managementFrame (source : Nat) (payload : (List Byte)) (s : State) : exec (.managementFrame source payload) s = execManagementFrame source payload s := rfl
@[simp] theorem exec_translationJobDone (ctx : Nat) (record : Nat) (result : (Option Translated)) (s : State) : exec (.translationJobDone ctx record result) s = execTranslationJobDone ctx record result s := rfl
@[simp] theorem exec_coreRetire (cluster : Nat) (physical : Nat) (s : State) : exec (.coreRetire cluster physical) s = execCoreRetire cluster physical s := rfl
@[simp] theorem exec_elementFailure (element : Element) (s : State) : exec (.elementFailure element) s = execElementFailure element s := rfl
@[simp] theorem exec_routeRewrite (element : Element) (s : State) : exec (.routeRewrite element) s = execRouteRewrite element s := rfl
@[simp] theorem exec_elementRetire (element : Element) (s : State) : exec (.elementRetire element) s = execElementRetire element s := rfl
@[simp] theorem exec_retirePowerDown (element : Element) (s : State) : exec (.retirePowerDown element) s = execRetirePowerDown element s := rfl
@[simp] theorem exec_retransmitTimeout (source : Nat) (home : Nat) (s : State) : exec (.retransmitTimeout source home) s = execRetransmitTimeout source home s := rfl
@[simp] theorem exec_replayFilterArrival (source : Nat) (home : Nat) (seq : (BitVec 16)) (request : FabRequest) (s : State) : exec (.replayFilterArrival source home seq request) s = execReplayFilterArrival source home seq request s := rfl
@[simp] theorem exec_rdmaWrite (qp : Nat) (rkey : Nat) (va : Dword) (bytes : (List Byte)) (s : State) : exec (.rdmaWrite qp rkey va bytes) s = execRdmaWrite qp rkey va bytes s := rfl
@[simp] theorem exec_rdmaRead (qp : Nat) (rkey : Nat) (va : Dword) (length : Nat) (s : State) : exec (.rdmaRead qp rkey va length) s = execRdmaRead qp rkey va length s := rfl
@[simp] theorem exec_atomicCompareSwap (qp : Nat) (rkey : Nat) (va : Dword) (compare : Dword) (swap : Dword) (s : State) : exec (.atomicCompareSwap qp rkey va compare swap) s = execAtomicCompareSwap qp rkey va compare swap s := rfl
@[simp] theorem exec_atomicFetchAdd (qp : Nat) (rkey : Nat) (va : Dword) (add : Dword) (s : State) : exec (.atomicFetchAdd qp rkey va add) s = execAtomicFetchAdd qp rkey va add s := rfl
@[simp] theorem exec_roceUnsupportedRequest (qp : Nat) (s : State) : exec (.roceUnsupportedRequest qp) s = execRoceUnsupportedRequest qp s := rfl
@[simp] theorem exec_neighbourResolution (query : (List Byte)) (s : State) : exec (.neighbourResolution query) s = execNeighbourResolution query s := rfl
@[simp] theorem exec_ethernetFrameDrop (frame : (List Byte)) (s : State) : exec (.ethernetFrameDrop frame) s = execEthernetFrameDrop frame s := rfl
@[simp] theorem exec_dramScrub (die : Nat) (corrected : (List Nat)) (uncorrectable : (List Nat)) (s : State) : exec (.dramScrub die corrected uncorrectable) s = execDramScrub die corrected uncorrectable s := rfl
@[simp] theorem exec_smcHeartbeat (stack : Nat) (answered : (List Nat)) (s : State) : exec (.smcHeartbeat stack answered) s = execSmcHeartbeat stack answered s := rfl
@[simp] theorem exec_dieLost (die : Nat) (s : State) : exec (.dieLost die) s = execDieLost die s := rfl
@[simp] theorem exec_rebuildDone (die : Nat) (s : State) : exec (.rebuildDone die) s = execRebuildDone die s := rfl
@[simp] theorem exec_thermalLimit (die : Nat) (celsius : Nat) (s : State) : exec (.thermalLimit die celsius) s = execThermalLimit die celsius s := rfl
@[simp] theorem exec_thermalRecover (die : Nat) (celsius : Nat) (s : State) : exec (.thermalRecover die celsius) s = execThermalRecover die celsius s := rfl
@[simp] theorem exec_powerSample (readings : PowerReadings) (s : State) : exec (.powerSample readings) s = execPowerSample readings s := rfl
@[simp] theorem exec_powerOn  (s : State) : exec (.powerOn) s = execPowerOn s := rfl
@[simp] theorem exec_packageReset  (s : State) : exec (.packageReset) s = execPackageReset s := rfl
@[simp] theorem exec_mgmtCreateContext (ctx : Nat) (clusters : (List Nat)) (ptroot : Nat) (saveBase : Nat) (saveSize : Nat) (launchKey : (BitVec 256)) (codeKey : (BitVec 256)) (s : State) : exec (.mgmtCreateContext ctx clusters ptroot saveBase saveSize launchKey codeKey) s = execMgmtCreateContext ctx clusters ptroot saveBase saveSize launchKey codeKey s := rfl
@[simp] theorem exec_mgmtDestroyContext (ctx : Nat) (s : State) : exec (.mgmtDestroyContext ctx) s = execMgmtDestroyContext ctx s := rfl
@[simp] theorem exec_mgmtPreempt (ctx : Nat) (s : State) : exec (.mgmtPreempt ctx) s = execMgmtPreempt ctx s := rfl
@[simp] theorem exec_mgmtResume (ctx : Nat) (clusters : (List Nat)) (s : State) : exec (.mgmtResume ctx clusters) s = execMgmtResume ctx clusters s := rfl
@[simp] theorem exec_mgmtSetKeys (ctx : Nat) (launchKey : (BitVec 256)) (codeKey : (BitVec 256)) (s : State) : exec (.mgmtSetKeys ctx launchKey codeKey) s = execMgmtSetKeys ctx launchKey codeKey s := rfl
@[simp] theorem exec_mgmtFeatureMask (ctx : Nat) (mask : Byte) (s : State) : exec (.mgmtFeatureMask ctx mask) s = execMgmtFeatureMask ctx mask s := rfl
@[simp] theorem exec_mgmtQueueQuanta (ctx : Nat) (queue : Nat) (quantum : Nat) (s : State) : exec (.mgmtQueueQuanta ctx queue quantum) s = execMgmtQueueQuanta ctx queue quantum s := rfl
@[simp] theorem exec_mgmtMemoryRegion (index : Nat) (entry : (BitVec 192)) (s : State) : exec (.mgmtMemoryRegion index entry) s = execMgmtMemoryRegion index entry s := rfl
@[simp] theorem exec_mgmtUnregisterCodeObject (ctx : Nat) (object : Nat) (s : State) : exec (.mgmtUnregisterCodeObject ctx object) s = execMgmtUnregisterCodeObject ctx object s := rfl
@[simp] theorem exec_mgmtPowerCap (watts : Nat) (s : State) : exec (.mgmtPowerCap watts) s = execMgmtPowerCap watts s := rfl
@[simp] theorem exec_mgmtWarmReset (die : Nat) (s : State) : exec (.mgmtWarmReset die) s = execMgmtWarmReset die s := rfl
@[simp] theorem exec_mgmtReadDrydown (unit : Nat) (first : Nat) (count : Nat) (reply : ReplyTo) (s : State) : exec (.mgmtReadDrydown unit first count reply) s = execMgmtReadDrydown unit first count reply s := rfl
@[simp] theorem exec_mgmtAttest (nonce : (BitVec 256)) (reply : ReplyTo) (s : State) : exec (.mgmtAttest nonce reply) s = execMgmtAttest nonce reply s := rfl
@[simp] theorem exec_mgmtRaiseSvn (svn : Nat) (s : State) : exec (.mgmtRaiseSvn svn) s = execMgmtRaiseSvn svn s := rfl
@[simp] theorem exec_mgmtWriteSillage (ctx : Nat) (value : Dword) (s : State) : exec (.mgmtWriteSillage ctx value) s = execMgmtWriteSillage ctx value s := rfl
@[simp] theorem exec_mgmtWriteTrapvec (ctx : Nat) (value : Dword) (s : State) : exec (.mgmtWriteTrapvec ctx value) s = execMgmtWriteTrapvec ctx value s := rfl
@[simp] theorem exec_mgmtWriteSpawntmr (ctx : Nat) (value : Dword) (s : State) : exec (.mgmtWriteSpawntmr ctx value) s = execMgmtWriteSpawntmr ctx value s := rfl
@[simp] theorem exec_mgmtWriteCtxmode (ctx : Nat) (value : Dword) (s : State) : exec (.mgmtWriteCtxmode ctx value) s = execMgmtWriteCtxmode ctx value s := rfl
@[simp] theorem exec_mgmtWriteCring (ctx : Nat) (value : Dword) (s : State) : exec (.mgmtWriteCring ctx value) s = execMgmtWriteCring ctx value s := rfl
@[simp] theorem exec_mgmtBindNoticeQp (ctx : Nat) (qp : Nat) (s : State) : exec (.mgmtBindNoticeQp ctx qp) s = execMgmtBindNoticeQp ctx qp s := rfl
@[simp] theorem exec_dieWarmReset (die : Nat) (s : State) : exec (.dieWarmReset die) s = execDieWarmReset die s := rfl
@[simp] theorem exec_warmResetStepDone (die : Nat) (s : State) : exec (.warmResetStepDone die) s = execWarmResetStepDone die s := rfl
@[simp] theorem exec_powerRemoval  (s : State) : exec (.powerRemoval) s = execPowerRemoval s := rfl
@[simp] theorem exec_roceAcknowledgement (qp : Nat) (ok : Bool) (s : State) : exec (.roceAcknowledgement qp ok) s = execRoceAcknowledgement qp ok s := rfl
@[simp] theorem exec_priorityFlowControl (priority : Nat) (pause : Bool) (s : State) : exec (.priorityFlowControl priority pause) s = execPriorityFlowControl priority pause s := rfl

end Sys2Proof.Machine
end

