-- ==== Sys2Proof/Laws/Frames.lean ====
section
/-! SUPPORT. What the caches, queues and messages of the memory system can change: the cores, the slices, the home entries and
the network, and nothing else. -/

namespace Sys2Proof.Machine

/-- `u` is `s` but for the cores, the clusters, the slices' lines, the home entries and the messages in flight or waiting; and
the live decant counters of every home are as in `s`. -/
structure State.sameArch (s u : State) : Prop where
  rest : ({ u with
    cores := s.cores, clusters := s.clusters, stackTbl := s.stackTbl, homes := s.homes, net := s.net, waiting := s.waiting } : State) = s
  counters : ∀ g, (u.cluster g).counters = (s.cluster g).counters
/-- See `State.sameArch`. -/
def Served.sameArch (s : State) : Served → Prop
  | .yes _ u => s.sameArch u
  | .notYet u => s.sameArch u
def OptSame (s : State) (o : Option State) : Prop := match o with | some t => s.sameArch t | none => True
def PairSame {α : Type} (s : State) (p : State × α) : Prop := s.sameArch p.1

theorem State.sameArch_refl (s : State) : s.sameArch s := ⟨rfl, fun _ => rfl⟩
theorem some_same {s0 : State} (t : State) (h : s0.sameArch t) : OptSame s0 (some t) := h
theorem none_same {s0 : State} : OptSame s0 none := trivial
theorem opt_map_same {s0 : State} {α : Type} (o : Option α) (f : α → State) (h : ∀ a, s0.sameArch (f a)) : OptSame s0 (o.map f) := by
  cases o with
  | none => trivial
  | some a => exact h a
theorem pair_same {s0 : State} {α : Type} (t : State) (x : α) (h : s0.sameArch t) : PairSame s0 (t, x) := h
theorem yes_same {s0 : State} (v) (t : State) (h : s0.sameArch t) : (Served.yes v t).sameArch s0 := h
theorem notYet_same {s0 : State} (t : State) (h : s0.sameArch t) : (Served.notYet t).sameArch s0 := h
theorem of_pair_same {s0 : State} {α : Type} {p : State × α} {a b} (h : PairSame s0 p) (e : p = (a, b)) : s0.sameArch a := by
  subst e; exact h
theorem of_fst_same {s0 : State} {α : Type} {p : State × α} (h : PairSame s0 p) : s0.sameArch p.1 := h
theorem of_some_same {s0 : State} {o : Option State} {a} (h : OptSame s0 o) (e : o = some a) : s0.sameArch a := by subst e; exact h
theorem of_yes_same {s0 : State} {o : Served} {v a} (h : o.sameArch s0) (e : o = .yes v a) : s0.sameArch a := by subst e; exact h
theorem of_notYet_same {s0 : State} {o : Served} {a} (h : o.sameArch s0) (e : o = .notYet a) : s0.sameArch a := by subst e; exact h
theorem State.sameArch_mk {s0 : State} (s : State) (cores : Tbl Core) (lines : Tbl Stack) (homes : Tbl HomeEntry)
    (net waiting : List Instr) (h : s0.sameArch s) :
    s0.sameArch { s with cores := cores, stackTbl := lines, homes := homes, net := net, waiting := waiting } := ⟨h.1, h.2⟩
theorem State.modCluster_same {s0 : State} (s : State) (g : Nat) (f : Cluster → Cluster) (hf : ∀ c, (f c).counters = c.counters)
    (h : s0.sameArch s) : s0.sameArch (s.modCluster g f) := by
  refine ⟨h.1, fun k => ?_⟩
  rw [← h.2 k]
  simp only [State.cluster, State.modCluster, tgetD_tset]
  split
  · rename_i e; subst e; exact hf _
  · rfl
theorem foldl_same {s0 : State} {α : Type} (f : State → α → State) (hf : ∀ u a, s0.sameArch u → s0.sameArch (f u a)) (l : List α)
    (s : State) (h : s0.sameArch s) : s0.sameArch (l.foldl f s) := by
  induction l generalizing s with
  | nil => exact h
  | cons a l ih => exact ih _ (hf _ _ h)
theorem foldl_pair_same {s0 : State} {α β : Type} (f : State × β → α → State × β)
    (hf : ∀ u b a, s0.sameArch u → PairSame s0 (f (u, b) a)) (l : List α) (s : State) (b : β) (h : s0.sameArch s) :
    PairSame s0 (l.foldl f (s, b)) := by
  induction l generalizing s b with
  | nil => exact h
  | cons a l ih => exact ih _ _ (hf _ _ _ h)

theorem State.send_same {s0 : State} (s : State) (i : Instr) (hs : s0.sameArch s) :
    s0.sameArch (State.send s i) := by
  unfold State.send
  repeat' first
    | with_reducible assumption
    | with_reducible apply foldl_same
    | with_reducible apply foldl_pair_same
    | intro _
    | split
    | with_reducible apply State.sameArch_mk

theorem State.sendOnce_same {s0 : State} (s : State) (i : Instr) (hs : s0.sameArch s) :
    s0.sameArch (State.sendOnce s i) := by
  unfold State.sendOnce
  repeat' first
    | with_reducible assumption
    | with_reducible apply State.send_same
    | with_reducible apply foldl_same
    | with_reducible apply foldl_pair_same
    | intro _
    | split

theorem State.settle_same {s0 : State} (s : State) (line : Nat) (hs : s0.sameArch s) :
    s0.sameArch (State.settle s line) := by
  unfold State.settle
  repeat' first
    | with_reducible assumption
    | with_reducible apply State.sendOnce_same
    | with_reducible apply foldl_same
    | with_reducible apply foldl_pair_same
    | intro _
    | split
    | with_reducible apply State.sameArch_mk

theorem State.askFpub_same {s0 : State} (s : State) (core : Nat) (epoch : Nat) (level : Nat) (requester : Nat) (hs : s0.sameArch s) :
    s0.sameArch (State.askFpub s core epoch level requester) := by
  unfold State.askFpub
  repeat' first
    | with_reducible assumption
    | with_reducible apply State.sendOnce_same
    | with_reducible apply foldl_same
    | with_reducible apply foldl_pair_same
    | intro _
    | split

theorem State.depWait_same {s0 : State} (s : State) (core : Nat) (new : List Dep) (hs : s0.sameArch s) :
    OptSame s0 (State.depWait s core new) := by
  unfold State.depWait
  repeat' first
    | with_reducible assumption
    | with_reducible apply State.askFpub_same
    | with_reducible apply foldl_same
    | with_reducible apply foldl_pair_same
    | with_reducible apply some_same
    | exact none_same
    | with_reducible apply opt_map_same
    | with_reducible apply opt_map2_same
    | intro _
    | split
    | (refine of_some_same ?_ (by with_reducible assumption))
    | with_reducible apply State.sameArch_mk
    | dsimp only

theorem State.readBlock_same {s0 : State} (s : State) (core : Nat) (ctx : Nat) (line : Nat) (ks : List Nat) (cls : AccessClass) (hs : s0.sameArch s) :
    OptSame s0 (State.readBlock s core ctx line ks cls) := by
  unfold State.readBlock
  repeat' first
    | with_reducible assumption
    | with_reducible apply State.askFpub_same
    | with_reducible apply State.depWait_same
    | with_reducible apply foldl_same
    | with_reducible apply foldl_pair_same
    | with_reducible apply some_same
    | exact none_same
    | with_reducible apply opt_map_same
    | with_reducible apply opt_map2_same
    | intro _
    | split
    | (refine of_some_same ?_ (by with_reducible assumption))
    | with_reducible apply State.sameArch_mk
    | dsimp only

theorem State.modCore_same {s0 : State} (s : State) (c : Nat) (f : Core → Core) (hs : s0.sameArch s) :
    s0.sameArch (State.modCore s c f) := by
  unfold State.modCore
  repeat' first
    | with_reducible assumption
    | with_reducible apply foldl_same
    | with_reducible apply foldl_pair_same
    | intro _
    | split
    | with_reducible apply State.sameArch_mk

theorem State.recordDeps_same {s0 : State} (s : State) (core : Nat) (line : Nat) (hs : s0.sameArch s) :
    s0.sameArch (State.recordDeps s core line) := by
  unfold State.recordDeps
  repeat' first
    | with_reducible assumption
    | with_reducible apply State.modCore_same
    | with_reducible apply foldl_same
    | with_reducible apply foldl_pair_same
    | intro _
    | split
    | with_reducible apply State.sameArch_mk

theorem State.noteRead_same {s0 : State} (s : State) (core : Nat) (line : Nat) (v : LineView) (hs : s0.sameArch s) :
    s0.sameArch (State.noteRead s core line v) := by
  unfold State.noteRead
  repeat' first
    | with_reducible assumption
    | with_reducible apply State.modCore_same
    | with_reducible apply foldl_same
    | with_reducible apply foldl_pair_same
    | intro _
    | split

theorem State.dropL1_same {s0 : State} (s : State) (line : Nat) (core : Nat) (hs : s0.sameArch s) :
    s0.sameArch (State.dropL1 s line core) := by
  unfold State.dropL1
  repeat' first
    | with_reducible assumption
    | with_reducible apply State.modCore_same
    | with_reducible apply foldl_same
    | with_reducible apply foldl_pair_same
    | intro _
    | split

theorem State.directoryRoom_same {s0 : State} (s : State) (p : Nat → Bool) (q : Nat → Bool) (entries : Nat) (line : Nat) (hs : s0.sameArch s) :
    s0.sameArch (State.directoryRoom s p q entries line) := by
  unfold State.directoryRoom
  repeat' first
    | with_reducible assumption
    | with_reducible apply State.dropL1_same
    | with_reducible apply foldl_same
    | with_reducible apply foldl_pair_same
    | intro _
    | split
    | with_reducible apply State.sameArch_mk

theorem State.fillL1_same {s0 : State} (s : State) (core : Nat) (line : Nat) (x : L1Line) (hs : s0.sameArch s) :
    s0.sameArch (State.fillL1 s core line x) := by
  unfold State.fillL1
  repeat' first
    | with_reducible assumption
    | with_reducible apply State.directoryRoom_same
    | with_reducible apply State.modCore_same

theorem State.fillFrom_same {s0 : State} (s : State) (core : Nat) (ctx : Nat) (line : Nat) (hs : s0.sameArch s) :
    s0.sameArch (State.fillFrom s core ctx line) := by
  unfold State.fillFrom
  repeat' first
    | with_reducible assumption
    | with_reducible apply State.fillL1_same
    | with_reducible apply State.dropL1_same
    | with_reducible apply foldl_same
    | with_reducible apply foldl_pair_same
    | intro _
    | split

theorem State.forceTag_same {s0 : State} (s : State) (t : Tag) (hs : s0.sameArch s) :
    s0.sameArch (State.forceTag s t) := by
  unfold State.forceTag
  repeat' first
    | with_reducible assumption
    | with_reducible apply State.askFpub_same

theorem State.setCopy_same {s0 : State} (s : State) (stack : Nat) (line : Nat) (c : Option SliceLine) (hs : s0.sameArch s) :
    s0.sameArch (State.setCopy s stack line c) := by
  unfold State.setCopy
  repeat' first
    | with_reducible assumption
    | with_reducible apply foldl_same
    | with_reducible apply foldl_pair_same
    | intro _
    | split
    | with_reducible apply State.sameArch_mk

theorem State.moveTags_same {s0 : State} (s : State) (line : Nat) (a : Nat) (b : Nat) (hs : s0.sameArch s) :
    s0.sameArch (State.moveTags s line a b) := by
  unfold State.moveTags
  repeat' first
    | with_reducible assumption
    | with_reducible apply State.modCluster_same
    | (intro _; rfl)
    | with_reducible apply State.modCluster_same
    | with_reducible apply foldl_same
    | with_reducible apply foldl_pair_same
    | intro _
    | split
    | with_reducible apply State.sameArch_mk

theorem State.dropPart_same {s0 : State} (s : State) (stack : Nat) (k : Nat) (hs : s0.sameArch s) :
    s0.sameArch (State.dropPart s stack k) := by
  unfold State.dropPart
  repeat' first
    | with_reducible assumption
    | with_reducible apply State.setCopy_same
    | with_reducible apply foldl_same
    | with_reducible apply foldl_pair_same
    | intro _
    | split

theorem State.writeBack_same {s0 : State} (s : State) (stack : Nat) (k : Nat) (hs : s0.sameArch s) :
    s0.sameArch (State.writeBack s stack k) := by
  unfold State.writeBack
  repeat' first
    | with_reducible assumption
    | with_reducible apply State.askFpub_same
    | with_reducible apply State.sendOnce_same
    | with_reducible apply foldl_same
    | with_reducible apply foldl_pair_same
    | intro _
    | split
    | with_reducible apply State.sameArch_mk

theorem State.evict_same {s0 : State} (s : State) (stack : Nat) (line : Nat) (hs : s0.sameArch s) :
    s0.sameArch (State.evict s stack line) := by
  unfold State.evict
  repeat' first
    | with_reducible assumption
    | with_reducible apply State.setCopy_same
    | with_reducible apply State.dropPart_same
    | with_reducible apply State.writeBack_same
    | with_reducible apply foldl_same
    | with_reducible apply foldl_pair_same
    | intro _
    | split

theorem State.placeCopy_same {s0 : State} (s : State) (g : Nat) (line : Nat) (c : SliceLine) (cls0 : Nat) (hs : s0.sameArch s) :
    s0.sameArch (State.placeCopy s g line c cls0) := by
  unfold State.placeCopy
  repeat' first
    | with_reducible assumption
    | with_reducible apply State.setCopy_same
    | with_reducible apply State.evict_same
    | with_reducible apply foldl_same
    | with_reducible apply foldl_pair_same
    | intro _
    | split
    | with_reducible apply State.sameArch_mk

theorem State.touchCopy_same {s0 : State} (s : State) (core : Nat) (line : Nat) (counts : optParam Bool true) (hs : s0.sameArch s) :
    s0.sameArch (State.touchCopy s core line counts) := by
  unfold State.touchCopy
  repeat' first
    | with_reducible assumption
    | with_reducible apply State.forceTag_same
    | with_reducible apply State.setCopy_same
    | with_reducible apply State.moveTags_same
    | with_reducible apply State.placeCopy_same
    | with_reducible apply foldl_same
    | with_reducible apply foldl_pair_same
    | intro _
    | split
    | with_reducible apply State.sameArch_mk

theorem State.insertCopy_same {s0 : State} (s : State) (g : Nat) (line : Nat) (c : SliceLine) (hs : s0.sameArch s) :
    s0.sameArch (State.insertCopy s g line c) := by
  unfold State.insertCopy
  repeat' first
    | with_reducible assumption
    | with_reducible apply State.placeCopy_same

theorem State.enterSlice_same {s0 : State} (s : State) (core : Nat) (line : Nat) (ks : List Nat) (counts : optParam Bool true) (hs : s0.sameArch s) :
    s0.sameArch (State.enterSlice s core line ks counts) := by
  unfold State.enterSlice
  repeat' first
    | with_reducible assumption
    | with_reducible apply State.touchCopy_same
    | with_reducible apply State.setCopy_same
    | with_reducible apply State.insertCopy_same
    | with_reducible apply foldl_same
    | with_reducible apply foldl_pair_same
    | intro _
    | split
    | with_reducible apply State.sameArch_mk

theorem State.askCopy_same {s0 : State} (s : State) (core : Nat) (k : Nat) (hs : s0.sameArch s) :
    s0.sameArch (State.askCopy s core k) := by
  unfold State.askCopy
  repeat' first
    | with_reducible assumption
    | with_reducible apply State.send_same
    | with_reducible apply foldl_same
    | with_reducible apply foldl_pair_same
    | intro _
    | split

theorem State.askCopies_same {s0 : State} (s : State) (core : Nat) (ctx : Nat) (line : Nat) (ks : List Nat) (hs : s0.sameArch s) :
    s0.sameArch (State.askCopies s core ctx line ks) := by
  unfold State.askCopies
  repeat' first
    | with_reducible assumption
    | with_reducible apply State.askCopy_same
    | with_reducible apply foldl_same
    | with_reducible apply foldl_pair_same
    | intro _
    | split

theorem State.sliceRead_same {s0 : State} (s : State) (core : Nat) (ctx : Nat) (line : Nat) (ks : List Nat) (hs : s0.sameArch s) :
    (State.sliceRead s core ctx line ks).sameArch s0 := by
  unfold State.sliceRead
  repeat' first
    | with_reducible assumption
    | with_reducible apply State.noteRead_same
    | with_reducible apply State.recordDeps_same
    | with_reducible apply State.fillFrom_same
    | with_reducible apply State.enterSlice_same
    | with_reducible apply State.askCopies_same
    | with_reducible apply foldl_same
    | with_reducible apply foldl_pair_same
    | with_reducible apply yes_same
    | with_reducible apply notYet_same
    | intro _
    | split

theorem State.install_same {s0 : State} (s : State) (g : Nat) (k : Nat) (st : CopyState) (fresh : optParam (Option Nat) none) (hs : s0.sameArch s) :
    s0.sameArch (State.install s g k st fresh) := by
  unfold State.install
  repeat' first
    | with_reducible assumption
    | with_reducible apply State.setCopy_same
    | with_reducible apply State.insertCopy_same
    | with_reducible apply foldl_same
    | with_reducible apply foldl_pair_same
    | intro _
    | split

theorem State.sendHome_same {s0 : State} (s : State) (k : Nat) (hs : s0.sameArch s) :
    s0.sameArch (State.sendHome s k) := by
  unfold State.sendHome
  repeat' first
    | with_reducible assumption
    | with_reducible apply State.dropL1_same
    | with_reducible apply State.dropPart_same
    | with_reducible apply foldl_same
    | with_reducible apply foldl_pair_same
    | intro _
    | split
    | with_reducible apply State.sameArch_mk

theorem State.homeRoom_same {s0 : State} (s : State) (k : Nat) (hs : s0.sameArch s) :
    s0.sameArch (State.homeRoom s k) := by
  unfold State.homeRoom
  repeat' first
    | with_reducible assumption
    | with_reducible apply State.sendHome_same
    | with_reducible apply foldl_same
    | with_reducible apply foldl_pair_same
    | intro _
    | split
    | with_reducible apply State.sameArch_mk

theorem State.setHome_same {s0 : State} (s : State) (k : Nat) (e : HomeEntry) (hs : s0.sameArch s) :
    s0.sameArch (State.setHome s k e) := by
  unfold State.setHome
  repeat' first
    | with_reducible assumption
    | with_reducible apply foldl_same
    | with_reducible apply foldl_pair_same
    | intro _
    | split
    | with_reducible apply State.sameArch_mk

theorem State.grant_same {s0 : State} (s : State) (k : Nat) (y : Nat) (ctx : Nat) (hs : s0.sameArch s) :
    s0.sameArch (State.grant s k y ctx) := by
  unfold State.grant
  repeat' first
    | with_reducible assumption
    | with_reducible apply State.homeRoom_same
    | with_reducible apply State.setHome_same

theorem State.bringIn_same {s0 : State} (s : State) (core : Nat) (ctx : Nat) (line : Nat) (ks : List Nat) (counts : optParam Bool true) (hs : s0.sameArch s) :
    s0.sameArch (State.bringIn s core ctx line ks counts) := by
  unfold State.bringIn
  repeat' first
    | with_reducible assumption
    | with_reducible apply State.enterSlice_same
    | with_reducible apply State.install_same
    | with_reducible apply State.grant_same
    | with_reducible apply foldl_same
    | with_reducible apply foldl_pair_same
    | intro _
    | split

theorem State.ownerRead_same {s0 : State} (s : State) (core : Nat) (ctx : Nat) (line : Nat) (ks : List Nat) (level : Nat) (hs : s0.sameArch s) :
    (State.ownerRead s core ctx line ks level).sameArch s0 := by
  unfold State.ownerRead
  repeat' first
    | with_reducible assumption
    | with_reducible apply State.sendOnce_same
    | with_reducible apply State.noteRead_same
    | with_reducible apply State.recordDeps_same
    | with_reducible apply State.fillFrom_same
    | with_reducible apply State.bringIn_same
    | with_reducible apply foldl_same
    | with_reducible apply foldl_pair_same
    | with_reducible apply yes_same
    | with_reducible apply notYet_same
    | intro _
    | split
    | with_reducible apply State.sameArch_mk
    | dsimp only

theorem State.readLine_same {s0 : State} (s : State) (core : Nat) (ctx : Nat) (line : Nat) (ks : List Nat) (cls : AccessClass) (hs : s0.sameArch s) :
    (State.readLine s core ctx line ks cls).sameArch s0 := by
  unfold State.readLine
  repeat' first
    | with_reducible assumption
    | with_reducible apply State.readBlock_same
    | with_reducible apply State.recordDeps_same
    | with_reducible apply State.noteRead_same
    | with_reducible apply State.modCore_same
    | with_reducible apply State.sliceRead_same
    | with_reducible apply State.ownerRead_same
    | with_reducible apply foldl_same
    | with_reducible apply foldl_pair_same
    | with_reducible apply some_same
    | exact none_same
    | with_reducible apply yes_same
    | with_reducible apply notYet_same
    | intro _
    | split
    | (refine of_yes_same ?_ (by with_reducible assumption))
    | (refine of_notYet_same ?_ (by with_reducible assumption))
    | (refine of_some_same ?_ (by with_reducible assumption))

theorem State.gainUnits_same {s0 : State} (s : State) (core : Nat) (ks : List Nat) (hs : s0.sameArch s) :
    OptSame s0 (State.gainUnits s core ks) := by
  unfold State.gainUnits
  repeat' first
    | with_reducible assumption
    | with_reducible apply State.send_same
    | with_reducible apply foldl_same
    | with_reducible apply foldl_pair_same
    | with_reducible apply some_same
    | exact none_same
    | with_reducible apply opt_map_same
    | with_reducible apply opt_map2_same
    | intro _
    | split

theorem State.readSpan_same {s0 : State} (s : State) (core : Nat) (ctx : Nat) (line : Nat) (ks : List Nat) (cls : AccessClass) (span : Bool) (hs : s0.sameArch s) :
    (State.readSpan s core ctx line ks cls span).sameArch s0 := by
  unfold State.readSpan
  repeat' first
    | with_reducible assumption
    | with_reducible apply State.readLine_same
    | with_reducible apply State.gainUnits_same
    | with_reducible apply foldl_same
    | with_reducible apply foldl_pair_same
    | with_reducible apply some_same
    | exact none_same
    | with_reducible apply yes_same
    | with_reducible apply notYet_same
    | intro _
    | split
    | (refine of_yes_same ?_ (by with_reducible assumption))
    | (refine of_notYet_same ?_ (by with_reducible assumption))
    | (refine of_some_same ?_ (by with_reducible assumption))

theorem State.serveLoad_same {s0 : State} (s : State) (wid : Nat) (lid : Nat) (p0 : PLoad) (hs : s0.sameArch s) :
    PairSame s0 (State.serveLoad s wid lid p0) := by
  unfold State.serveLoad
  repeat' first
    | with_reducible assumption
    | with_reducible apply State.readSpan_same
    | with_reducible apply foldl_same
    | with_reducible apply foldl_pair_same
    | with_reducible apply pair_same
    | intro _
    | split
    | (refine of_yes_same ?_ (by with_reducible assumption))
    | (refine of_notYet_same ?_ (by with_reducible assumption))

theorem State.askDeps_same {s0 : State} (s : State) (core : Nat) (level : Nat) (release : Bool) (hs : s0.sameArch s) :
    s0.sameArch (State.askDeps s core level release) := by
  unfold State.askDeps
  repeat' first
    | with_reducible assumption
    | with_reducible apply State.askFpub_same
    | with_reducible apply foldl_same
    | with_reducible apply foldl_pair_same
    | intro _
    | split

theorem State.sendInvs_same {s0 : State} (s : State) (line : Nat) (core : Nat) (gs : List Nat) (hs : s0.sameArch s) :
    s0.sameArch (State.sendInvs s line core gs) := by
  unfold State.sendInvs
  repeat' first
    | with_reducible assumption
    | with_reducible apply State.sendOnce_same
    | with_reducible apply foldl_same
    | with_reducible apply foldl_pair_same
    | intro _

theorem State.pressOut_same {s0 : State} (s : State) (core : Nat) (level : Nat) (o : Nat × OutWrite) (hs : s0.sameArch s) :
    s0.sameArch (State.pressOut s core level o) := by
  unfold State.pressOut
  repeat' first
    | with_reducible assumption
    | with_reducible apply State.sendOnce_same
    | with_reducible apply State.sendInvs_same
    | with_reducible apply foldl_same
    | with_reducible apply foldl_pair_same
    | intro _
    | split
    | with_reducible apply State.sameArch_mk

theorem State.press_same {s0 : State} (s : State) (core : Nat) (mark : Nat) (level : Nat) (hs : s0.sameArch s) :
    s0.sameArch (State.press s core mark level) := by
  unfold State.press
  repeat' first
    | with_reducible assumption
    | with_reducible apply State.pressOut_same
    | with_reducible apply foldl_same
    | with_reducible apply foldl_pair_same
    | intro _
    | split

theorem State.startFence_same {s0 : State} (s : State) (core : Nat) (mark : Nat) (level : Nat) (release : Bool) (acquire : Bool) (hs : s0.sameArch s) :
    s0.sameArch (State.startFence s core mark level release acquire) := by
  unfold State.startFence
  repeat' first
    | with_reducible assumption
    | with_reducible apply State.askDeps_same
    | with_reducible apply State.press_same
    | with_reducible apply foldl_same
    | with_reducible apply foldl_pair_same
    | intro _
    | split

theorem State.released_same {s0 : State} (s : State) (core : Nat) (level : Nat) (hs : s0.sameArch s) :
    s0.sameArch (State.released s core level) := by
  unfold State.released
  repeat' first
    | with_reducible assumption
    | with_reducible apply State.modCore_same

theorem State.turnPart_same {s0 : State} (s : State) (stack : Nat) (k : Nat) (f : CopyState → CopyState) (hs : s0.sameArch s) :
    s0.sameArch (State.turnPart s stack k f) := by
  unfold State.turnPart
  repeat' first
    | with_reducible assumption
    | with_reducible apply State.setCopy_same
    | with_reducible apply foldl_same
    | with_reducible apply foldl_pair_same
    | intro _
    | split

theorem State.publishUnit_same {s0 : State} (s : State) (k : Nat) (hs : s0.sameArch s) :
    s0.sameArch (State.publishUnit s k) := by
  unfold State.publishUnit
  repeat' first
    | with_reducible assumption
    | with_reducible apply State.dropL1_same
    | with_reducible apply State.turnPart_same
    | with_reducible apply State.dropPart_same
    | with_reducible apply State.settle_same
    | with_reducible apply State.setHome_same
    | with_reducible apply foldl_same
    | with_reducible apply foldl_pair_same
    | intro _
    | split

theorem State.publishLine_same {s0 : State} (s : State) (line : Nat) (hs : s0.sameArch s) :
    s0.sameArch (State.publishLine s line) := by
  unfold State.publishLine
  repeat' first
    | with_reducible assumption
    | with_reducible apply State.publishUnit_same
    | with_reducible apply foldl_same

theorem State.scratchAcquire_same {s0 : State} (s : State) (sp : MSpace) (c : AccessClass) (hs : s0.sameArch s) :
    OptSame s0 (State.scratchAcquire s sp c) := by
  unfold State.scratchAcquire
  repeat' first
    | with_reducible assumption
    | with_reducible apply State.askFpub_same
    | with_reducible apply foldl_same
    | with_reducible apply foldl_pair_same
    | with_reducible apply some_same
    | exact none_same
    | with_reducible apply opt_map_same
    | with_reducible apply opt_map2_same
    | intro _
    | split
    | (refine of_some_same ?_ (by with_reducible assumption))
    | with_reducible apply State.sameArch_mk
    | dsimp only

theorem State.scratchDeps_same {s0 : State} (s : State) (sp : MSpace) (hs : s0.sameArch s) :
    s0.sameArch (State.scratchDeps s sp) := by
  unfold State.scratchDeps
  repeat' first
    | with_reducible assumption
    | with_reducible apply State.modCore_same
    | with_reducible apply foldl_same
    | with_reducible apply foldl_pair_same
    | intro _
    | split
    | with_reducible apply State.sameArch_mk

theorem State.gatherTags_same {s0 : State} (s : State) (line : Nat) (g : Nat) (hs : s0.sameArch s) :
    s0.sameArch (State.gatherTags s line g) := by
  unfold State.gatherTags
  repeat' first
    | with_reducible assumption
    | with_reducible apply State.moveTags_same
    | with_reducible apply foldl_same
    | with_reducible apply foldl_pair_same
    | intro _

theorem State.cacheXlate_same {s0 : State} (s : State) (core : Nat) (ctx : Nat) (va : Dword) (hs : s0.sameArch s) :
    s0.sameArch (State.cacheXlate s core ctx va) := by
  unfold State.cacheXlate
  repeat' first
    | with_reducible assumption
    | with_reducible apply State.modCore_same
    | with_reducible apply foldl_same
    | with_reducible apply foldl_pair_same
    | intro _
    | split

theorem State.cacheAll_same {s0 : State} (s : State) (r : MemReq) (hs : s0.sameArch s) :
    s0.sameArch (State.cacheAll s r) := by
  unfold State.cacheAll
  repeat' first
    | with_reducible assumption
    | with_reducible apply State.cacheXlate_same
    | with_reducible apply foldl_same
    | with_reducible apply foldl_pair_same
    | intro _
    | split

theorem State.dirtyCopy_same {s0 : State} (s : State) (core : Nat) (line : Nat) (k : Nat) (hs : s0.sameArch s) :
    s0.sameArch (State.dirtyCopy s core line k) := by
  unfold State.dirtyCopy
  repeat' first
    | with_reducible assumption
    | with_reducible apply State.touchCopy_same
    | with_reducible apply State.setCopy_same
    | with_reducible apply State.insertCopy_same
    | with_reducible apply State.dropPart_same
    | with_reducible apply foldl_same
    | with_reducible apply foldl_pair_same
    | intro _
    | split
    | with_reducible apply State.sameArch_mk

theorem State.dropOwn_same {s0 : State} (s : State) (core : Nat) (line : Nat) (ks : List Nat) (hs : s0.sameArch s) :
    s0.sameArch (State.dropOwn s core line ks) := by
  unfold State.dropOwn
  repeat' first
    | with_reducible assumption
    | with_reducible apply State.dropL1_same
    | with_reducible apply State.dropPart_same
    | with_reducible apply foldl_same
    | with_reducible apply foldl_pair_same
    | intro _
    | split

theorem State.dropStack_same {s0 : State} (s : State) (y : Nat) (line : Nat) (hs : s0.sameArch s) :
    s0.sameArch (State.dropStack s y line) := by
  unfold State.dropStack
  repeat' first
    | with_reducible assumption
    | with_reducible apply State.dropL1_same
    | with_reducible apply State.setCopy_same
    | with_reducible apply foldl_same
    | with_reducible apply foldl_pair_same
    | intro _

theorem State.invalidateOthers_same {s0 : State} (s : State) (core : Nat) (pa : Nat) (n : Nat) (ks : List Nat) (hs : s0.sameArch s) :
    s0.sameArch (State.invalidateOthers s core pa n ks) := by
  unfold State.invalidateOthers
  repeat' first
    | with_reducible assumption
    | with_reducible apply State.modCore_same
    | with_reducible apply State.sendInvs_same

theorem State.rmwBlock_same {s0 : State} (s : State) (core : Nat) (line : Nat) (ks : List Nat) (c : AccessClass) (hs : s0.sameArch s) :
    OptSame s0 (State.rmwBlock s core line ks c) := by
  unfold State.rmwBlock
  repeat' first
    | with_reducible assumption
    | with_reducible apply State.gainUnits_same
    | with_reducible apply State.forceTag_same
    | with_reducible apply State.readBlock_same
    | with_reducible apply State.sendOnce_same
    | with_reducible apply foldl_same
    | with_reducible apply foldl_pair_same
    | with_reducible apply some_same
    | exact none_same
    | with_reducible apply opt_map_same
    | with_reducible apply opt_map2_same
    | intro _
    | split
    | (refine of_some_same ?_ (by with_reducible assumption))
    | with_reducible apply State.sameArch_mk
    | dsimp only

theorem State.rmwLines_same {s0 : State} (s : State) (c : AccessClass) (z : Nat) (cells : List (Nat × Dword × Cell)) (hs : s0.sameArch s) :
    PairSame s0 (State.rmwLines s c z cells) := by
  unfold State.rmwLines
  refine foldl_pair_same _ (fun u b a hu => ?_) _ _ _ hs
  dsimp only
  split
  · exact pair_same _ _ hu
  · split
    · exact pair_same _ _ (of_some_same (State.rmwBlock_same _ _ _ _ _ hu) (by assumption))
    · exact pair_same _ _ (State.noteRead_same _ _ _ _ (State.recordDeps_same _ _ _ (State.dropOwn_same _ _ _ _ hu)))

theorem State.markUnpub_same {s0 : State} (s : State) (k : Nat) (hs : s0.sameArch s) :
    s0.sameArch (State.markUnpub s k) := by
  unfold State.markUnpub
  repeat' first
    | with_reducible assumption
    | with_reducible apply State.setHome_same
    | with_reducible apply foldl_same
    | with_reducible apply foldl_pair_same
    | intro _
    | split
    | with_reducible apply State.sameArch_mk

theorem State.recordTag_same {s0 : State} (s : State) (core : Nat) (line : Nat) (ks : List Nat) (epoch : Nat) (hs : s0.sameArch s) :
    s0.sameArch (State.recordTag s core line ks epoch) := by
  unfold State.recordTag
  repeat' first
    | with_reducible assumption
    | with_reducible apply State.modCluster_same
    | (intro _; rfl)
    | with_reducible apply State.modCluster_same
    | with_reducible apply foldl_same
    | with_reducible apply foldl_pair_same
    | intro _
    | split
    | with_reducible apply State.sameArch_mk

theorem State.readNow_same {s0 : State} (s : State) (line : Nat) (ks : List Nat) (c : AccessClass) (hs : s0.sameArch s) :
    (State.readNow s line ks c).sameArch s0 := by
  unfold State.readNow
  repeat' first
    | with_reducible assumption
    | with_reducible apply State.readSpan_same
    | with_reducible apply State.readLine_same
    | with_reducible apply foldl_same
    | with_reducible apply foldl_pair_same
    | with_reducible apply yes_same
    | with_reducible apply notYet_same
    | intro _
    | split
    | (refine of_yes_same ?_ (by with_reducible assumption))
    | (refine of_notYet_same ?_ (by with_reducible assumption))

theorem State.repress_same {s0 : State} (s : State) (core : Nat) (hs : s0.sameArch s) :
    s0.sameArch (State.repress s core) := by
  unfold State.repress
  repeat' first
    | with_reducible assumption
    | with_reducible apply State.press_same
    | with_reducible apply foldl_same
    | with_reducible apply foldl_pair_same
    | intro _
    | split

theorem State.retryFpubs_same {s0 : State} (s : State) (core : Nat) (hs : s0.sameArch s) :
    s0.sameArch (State.retryFpubs s core) := by
  unfold State.retryFpubs
  repeat' first
    | with_reducible assumption
    | with_reducible apply State.sendOnce_same
    | with_reducible apply State.modCore_same
    | with_reducible apply State.press_same
    | with_reducible apply State.askFpub_same
    | with_reducible apply foldl_same
    | with_reducible apply foldl_pair_same
    | intro _
    | split
    | with_reducible apply State.sameArch_mk

end Sys2Proof.Machine
end

