-- ==== Sys2Proof/Laws/State.lean ====
section
/-! SUPPORT. What each update of the state leaves alone and what it changes: one lemma for each field and update. -/

namespace Sys2Proof.Machine

@[simp] theorem State.modWave_clk (s : State) (k : Nat) (f : Wave → Wave) : (s.modWave k f).clk = s.clk := rfl
@[simp] theorem State.modWave_issue (s : State) (k : Nat) (f : Wave → Wave) : (s.modWave k f).issue = s.issue := rfl
@[simp] theorem State.modWave_nextWave (s : State) (k : Nat) (f : Wave → Wave) : (s.modWave k f).nextWave = s.nextWave := rfl
@[simp] theorem State.modWave_blocks (s : State) (k : Nat) (f : Wave → Wave) : (s.modWave k f).blocks = s.blocks := rfl
@[simp] theorem State.modWave_nextBlock (s : State) (k : Nat) (f : Wave → Wave) : (s.modWave k f).nextBlock = s.nextBlock := rfl
@[simp] theorem State.modWave_cores (s : State) (k : Nat) (f : Wave → Wave) : (s.modWave k f).cores = s.cores := rfl
@[simp] theorem State.modWave_clusters (s : State) (k : Nat) (f : Wave → Wave) : (s.modWave k f).clusters = s.clusters := rfl
@[simp] theorem State.modWave_stackTbl (s : State) (k : Nat) (f : Wave → Wave) : (s.modWave k f).stackTbl = s.stackTbl := rfl
@[simp] theorem State.modWave_homes (s : State) (k : Nat) (f : Wave → Wave) : (s.modWave k f).homes = s.homes := rfl
@[simp] theorem State.modWave_ctxs (s : State) (k : Nat) (f : Wave → Wave) : (s.modWave k f).ctxs = s.ctxs := rfl
@[simp] theorem State.modWave_launches (s : State) (k : Nat) (f : Wave → Wave) : (s.modWave k f).launches = s.launches := rfl
@[simp] theorem State.modWave_nextLaunch (s : State) (k : Nat) (f : Wave → Wave) : (s.modWave k f).nextLaunch = s.nextLaunch := rfl
@[simp] theorem State.modWave_objects (s : State) (k : Nat) (f : Wave → Wave) : (s.modWave k f).objects = s.objects := rfl
@[simp] theorem State.modWave_decants (s : State) (k : Nat) (f : Wave → Wave) : (s.modWave k f).decants = s.decants := rfl
@[simp] theorem State.modWave_nextDecant (s : State) (k : Nat) (f : Wave → Wave) : (s.modWave k f).nextDecant = s.nextDecant := rfl
@[simp] theorem State.modWave_mem (s : State) (k : Nat) (f : Wave → Wave) : (s.modWave k f).mem = s.mem := rfl
@[simp] theorem State.modWave_poison (s : State) (k : Nat) (f : Wave → Wave) : (s.modWave k f).poison = s.poison := rfl
@[simp] theorem State.modWave_dramBad (s : State) (k : Nat) (f : Wave → Wave) : (s.modWave k f).dramBad = s.dramBad := rfl
@[simp] theorem State.modWave_dead (s : State) (k : Nat) (f : Wave → Wave) : (s.modWave k f).dead = s.dead := rfl
@[simp] theorem State.modWave_offline (s : State) (k : Nat) (f : Wave → Wave) : (s.modWave k f).offline = s.offline := rfl
@[simp] theorem State.modWave_dry (s : State) (k : Nat) (f : Wave → Wave) : (s.modWave k f).dry = s.dry := rfl
@[simp] theorem State.modWave_resets (s : State) (k : Nat) (f : Wave → Wave) : (s.modWave k f).resets = s.resets := rfl
@[simp] theorem State.modWave_resetQueue (s : State) (k : Nat) (f : Wave → Wave) : (s.modWave k f).resetQueue = s.resetQueue := rfl
@[simp] theorem State.modWave_rebuilding (s : State) (k : Nat) (f : Wave → Wave) : (s.modWave k f).rebuilding = s.rebuilding := rfl
@[simp] theorem State.modWave_missed (s : State) (k : Nat) (f : Wave → Wave) : (s.modWave k f).missed = s.missed := rfl
@[simp] theorem State.modWave_hot (s : State) (k : Nat) (f : Wave → Wave) : (s.modWave k f).hot = s.hot := rfl
@[simp] theorem State.modWave_power (s : State) (k : Nat) (f : Wave → Wave) : (s.modWave k f).power = s.power := rfl
@[simp] theorem State.modWave_fabric (s : State) (k : Nat) (f : Wave → Wave) : (s.modWave k f).fabric = s.fabric := rfl
@[simp] theorem State.modWave_nd (s : State) (k : Nat) (f : Wave → Wave) : (s.modWave k f).nd = s.nd := rfl
@[simp] theorem State.modWave_out (s : State) (k : Nat) (f : Wave → Wave) : (s.modWave k f).out = s.out := rfl
@[simp] theorem State.modWave_net (s : State) (k : Nat) (f : Wave → Wave) : (s.modWave k f).net = s.net := rfl
@[simp] theorem State.modWave_agenda (s : State) (k : Nat) (f : Wave → Wave) : (s.modWave k f).agenda = s.agenda := rfl
@[simp] theorem State.modWave_lastWave (s : State) (k : Nat) (f : Wave → Wave) : (s.modWave k f).lastWave = s.lastWave := rfl

@[simp] theorem State.modCur_clk (s : State) (f : Wave → Wave) : (s.modCur f).clk = s.clk := rfl
@[simp] theorem State.modCur_issue (s : State) (f : Wave → Wave) : (s.modCur f).issue = s.issue := rfl
@[simp] theorem State.modCur_nextWave (s : State) (f : Wave → Wave) : (s.modCur f).nextWave = s.nextWave := rfl
@[simp] theorem State.modCur_blocks (s : State) (f : Wave → Wave) : (s.modCur f).blocks = s.blocks := rfl
@[simp] theorem State.modCur_nextBlock (s : State) (f : Wave → Wave) : (s.modCur f).nextBlock = s.nextBlock := rfl
@[simp] theorem State.modCur_cores (s : State) (f : Wave → Wave) : (s.modCur f).cores = s.cores := rfl
@[simp] theorem State.modCur_clusters (s : State) (f : Wave → Wave) : (s.modCur f).clusters = s.clusters := rfl
@[simp] theorem State.modCur_stackTbl (s : State) (f : Wave → Wave) : (s.modCur f).stackTbl = s.stackTbl := rfl
@[simp] theorem State.modCur_homes (s : State) (f : Wave → Wave) : (s.modCur f).homes = s.homes := rfl
@[simp] theorem State.modCur_ctxs (s : State) (f : Wave → Wave) : (s.modCur f).ctxs = s.ctxs := rfl
@[simp] theorem State.modCur_launches (s : State) (f : Wave → Wave) : (s.modCur f).launches = s.launches := rfl
@[simp] theorem State.modCur_nextLaunch (s : State) (f : Wave → Wave) : (s.modCur f).nextLaunch = s.nextLaunch := rfl
@[simp] theorem State.modCur_objects (s : State) (f : Wave → Wave) : (s.modCur f).objects = s.objects := rfl
@[simp] theorem State.modCur_decants (s : State) (f : Wave → Wave) : (s.modCur f).decants = s.decants := rfl
@[simp] theorem State.modCur_nextDecant (s : State) (f : Wave → Wave) : (s.modCur f).nextDecant = s.nextDecant := rfl
@[simp] theorem State.modCur_mem (s : State) (f : Wave → Wave) : (s.modCur f).mem = s.mem := rfl
@[simp] theorem State.modCur_poison (s : State) (f : Wave → Wave) : (s.modCur f).poison = s.poison := rfl
@[simp] theorem State.modCur_dramBad (s : State) (f : Wave → Wave) : (s.modCur f).dramBad = s.dramBad := rfl
@[simp] theorem State.modCur_dead (s : State) (f : Wave → Wave) : (s.modCur f).dead = s.dead := rfl
@[simp] theorem State.modCur_offline (s : State) (f : Wave → Wave) : (s.modCur f).offline = s.offline := rfl
@[simp] theorem State.modCur_dry (s : State) (f : Wave → Wave) : (s.modCur f).dry = s.dry := rfl
@[simp] theorem State.modCur_resets (s : State) (f : Wave → Wave) : (s.modCur f).resets = s.resets := rfl
@[simp] theorem State.modCur_resetQueue (s : State) (f : Wave → Wave) : (s.modCur f).resetQueue = s.resetQueue := rfl
@[simp] theorem State.modCur_rebuilding (s : State) (f : Wave → Wave) : (s.modCur f).rebuilding = s.rebuilding := rfl
@[simp] theorem State.modCur_missed (s : State) (f : Wave → Wave) : (s.modCur f).missed = s.missed := rfl
@[simp] theorem State.modCur_hot (s : State) (f : Wave → Wave) : (s.modCur f).hot = s.hot := rfl
@[simp] theorem State.modCur_power (s : State) (f : Wave → Wave) : (s.modCur f).power = s.power := rfl
@[simp] theorem State.modCur_fabric (s : State) (f : Wave → Wave) : (s.modCur f).fabric = s.fabric := rfl
@[simp] theorem State.modCur_nd (s : State) (f : Wave → Wave) : (s.modCur f).nd = s.nd := rfl
@[simp] theorem State.modCur_out (s : State) (f : Wave → Wave) : (s.modCur f).out = s.out := rfl
@[simp] theorem State.modCur_net (s : State) (f : Wave → Wave) : (s.modCur f).net = s.net := rfl
@[simp] theorem State.modCur_agenda (s : State) (f : Wave → Wave) : (s.modCur f).agenda = s.agenda := rfl
@[simp] theorem State.modCur_lastWave (s : State) (f : Wave → Wave) : (s.modCur f).lastWave = s.lastWave := rfl

@[simp] theorem State.modSplit_clk (s : State) (f : Split → Split) : (s.modSplit f).clk = s.clk := rfl
@[simp] theorem State.modSplit_issue (s : State) (f : Split → Split) : (s.modSplit f).issue = s.issue := rfl
@[simp] theorem State.modSplit_nextWave (s : State) (f : Split → Split) : (s.modSplit f).nextWave = s.nextWave := rfl
@[simp] theorem State.modSplit_blocks (s : State) (f : Split → Split) : (s.modSplit f).blocks = s.blocks := rfl
@[simp] theorem State.modSplit_nextBlock (s : State) (f : Split → Split) : (s.modSplit f).nextBlock = s.nextBlock := rfl
@[simp] theorem State.modSplit_cores (s : State) (f : Split → Split) : (s.modSplit f).cores = s.cores := rfl
@[simp] theorem State.modSplit_clusters (s : State) (f : Split → Split) : (s.modSplit f).clusters = s.clusters := rfl
@[simp] theorem State.modSplit_stackTbl (s : State) (f : Split → Split) : (s.modSplit f).stackTbl = s.stackTbl := rfl
@[simp] theorem State.modSplit_homes (s : State) (f : Split → Split) : (s.modSplit f).homes = s.homes := rfl
@[simp] theorem State.modSplit_ctxs (s : State) (f : Split → Split) : (s.modSplit f).ctxs = s.ctxs := rfl
@[simp] theorem State.modSplit_launches (s : State) (f : Split → Split) : (s.modSplit f).launches = s.launches := rfl
@[simp] theorem State.modSplit_nextLaunch (s : State) (f : Split → Split) : (s.modSplit f).nextLaunch = s.nextLaunch := rfl
@[simp] theorem State.modSplit_objects (s : State) (f : Split → Split) : (s.modSplit f).objects = s.objects := rfl
@[simp] theorem State.modSplit_decants (s : State) (f : Split → Split) : (s.modSplit f).decants = s.decants := rfl
@[simp] theorem State.modSplit_nextDecant (s : State) (f : Split → Split) : (s.modSplit f).nextDecant = s.nextDecant := rfl
@[simp] theorem State.modSplit_mem (s : State) (f : Split → Split) : (s.modSplit f).mem = s.mem := rfl
@[simp] theorem State.modSplit_poison (s : State) (f : Split → Split) : (s.modSplit f).poison = s.poison := rfl
@[simp] theorem State.modSplit_dramBad (s : State) (f : Split → Split) : (s.modSplit f).dramBad = s.dramBad := rfl
@[simp] theorem State.modSplit_dead (s : State) (f : Split → Split) : (s.modSplit f).dead = s.dead := rfl
@[simp] theorem State.modSplit_offline (s : State) (f : Split → Split) : (s.modSplit f).offline = s.offline := rfl
@[simp] theorem State.modSplit_dry (s : State) (f : Split → Split) : (s.modSplit f).dry = s.dry := rfl
@[simp] theorem State.modSplit_resets (s : State) (f : Split → Split) : (s.modSplit f).resets = s.resets := rfl
@[simp] theorem State.modSplit_resetQueue (s : State) (f : Split → Split) : (s.modSplit f).resetQueue = s.resetQueue := rfl
@[simp] theorem State.modSplit_rebuilding (s : State) (f : Split → Split) : (s.modSplit f).rebuilding = s.rebuilding := rfl
@[simp] theorem State.modSplit_missed (s : State) (f : Split → Split) : (s.modSplit f).missed = s.missed := rfl
@[simp] theorem State.modSplit_hot (s : State) (f : Split → Split) : (s.modSplit f).hot = s.hot := rfl
@[simp] theorem State.modSplit_power (s : State) (f : Split → Split) : (s.modSplit f).power = s.power := rfl
@[simp] theorem State.modSplit_fabric (s : State) (f : Split → Split) : (s.modSplit f).fabric = s.fabric := rfl
@[simp] theorem State.modSplit_nd (s : State) (f : Split → Split) : (s.modSplit f).nd = s.nd := rfl
@[simp] theorem State.modSplit_out (s : State) (f : Split → Split) : (s.modSplit f).out = s.out := rfl
@[simp] theorem State.modSplit_net (s : State) (f : Split → Split) : (s.modSplit f).net = s.net := rfl
@[simp] theorem State.modSplit_agenda (s : State) (f : Split → Split) : (s.modSplit f).agenda = s.agenda := rfl
@[simp] theorem State.modSplit_lastWave (s : State) (f : Split → Split) : (s.modSplit f).lastWave = s.lastWave := rfl

@[simp] theorem State.modCore_clk (s : State) (k : Nat) (f : Core → Core) : (s.modCore k f).clk = s.clk := rfl
@[simp] theorem State.modCore_issue (s : State) (k : Nat) (f : Core → Core) : (s.modCore k f).issue = s.issue := rfl
@[simp] theorem State.modCore_waves (s : State) (k : Nat) (f : Core → Core) : (s.modCore k f).waves = s.waves := rfl
@[simp] theorem State.modCore_nextWave (s : State) (k : Nat) (f : Core → Core) : (s.modCore k f).nextWave = s.nextWave := rfl
@[simp] theorem State.modCore_blocks (s : State) (k : Nat) (f : Core → Core) : (s.modCore k f).blocks = s.blocks := rfl
@[simp] theorem State.modCore_nextBlock (s : State) (k : Nat) (f : Core → Core) : (s.modCore k f).nextBlock = s.nextBlock := rfl
@[simp] theorem State.modCore_clusters (s : State) (k : Nat) (f : Core → Core) : (s.modCore k f).clusters = s.clusters := rfl
@[simp] theorem State.modCore_stackTbl (s : State) (k : Nat) (f : Core → Core) : (s.modCore k f).stackTbl = s.stackTbl := rfl
@[simp] theorem State.modCore_homes (s : State) (k : Nat) (f : Core → Core) : (s.modCore k f).homes = s.homes := rfl
@[simp] theorem State.modCore_ctxs (s : State) (k : Nat) (f : Core → Core) : (s.modCore k f).ctxs = s.ctxs := rfl
@[simp] theorem State.modCore_launches (s : State) (k : Nat) (f : Core → Core) : (s.modCore k f).launches = s.launches := rfl
@[simp] theorem State.modCore_nextLaunch (s : State) (k : Nat) (f : Core → Core) : (s.modCore k f).nextLaunch = s.nextLaunch := rfl
@[simp] theorem State.modCore_objects (s : State) (k : Nat) (f : Core → Core) : (s.modCore k f).objects = s.objects := rfl
@[simp] theorem State.modCore_decants (s : State) (k : Nat) (f : Core → Core) : (s.modCore k f).decants = s.decants := rfl
@[simp] theorem State.modCore_nextDecant (s : State) (k : Nat) (f : Core → Core) : (s.modCore k f).nextDecant = s.nextDecant := rfl
@[simp] theorem State.modCore_mem (s : State) (k : Nat) (f : Core → Core) : (s.modCore k f).mem = s.mem := rfl
@[simp] theorem State.modCore_poison (s : State) (k : Nat) (f : Core → Core) : (s.modCore k f).poison = s.poison := rfl
@[simp] theorem State.modCore_dramBad (s : State) (k : Nat) (f : Core → Core) : (s.modCore k f).dramBad = s.dramBad := rfl
@[simp] theorem State.modCore_dead (s : State) (k : Nat) (f : Core → Core) : (s.modCore k f).dead = s.dead := rfl
@[simp] theorem State.modCore_offline (s : State) (k : Nat) (f : Core → Core) : (s.modCore k f).offline = s.offline := rfl
@[simp] theorem State.modCore_dry (s : State) (k : Nat) (f : Core → Core) : (s.modCore k f).dry = s.dry := rfl
@[simp] theorem State.modCore_resets (s : State) (k : Nat) (f : Core → Core) : (s.modCore k f).resets = s.resets := rfl
@[simp] theorem State.modCore_resetQueue (s : State) (k : Nat) (f : Core → Core) : (s.modCore k f).resetQueue = s.resetQueue := rfl
@[simp] theorem State.modCore_rebuilding (s : State) (k : Nat) (f : Core → Core) : (s.modCore k f).rebuilding = s.rebuilding := rfl
@[simp] theorem State.modCore_missed (s : State) (k : Nat) (f : Core → Core) : (s.modCore k f).missed = s.missed := rfl
@[simp] theorem State.modCore_hot (s : State) (k : Nat) (f : Core → Core) : (s.modCore k f).hot = s.hot := rfl
@[simp] theorem State.modCore_power (s : State) (k : Nat) (f : Core → Core) : (s.modCore k f).power = s.power := rfl
@[simp] theorem State.modCore_fabric (s : State) (k : Nat) (f : Core → Core) : (s.modCore k f).fabric = s.fabric := rfl
@[simp] theorem State.modCore_nd (s : State) (k : Nat) (f : Core → Core) : (s.modCore k f).nd = s.nd := rfl
@[simp] theorem State.modCore_out (s : State) (k : Nat) (f : Core → Core) : (s.modCore k f).out = s.out := rfl
@[simp] theorem State.modCore_net (s : State) (k : Nat) (f : Core → Core) : (s.modCore k f).net = s.net := rfl
@[simp] theorem State.modCore_agenda (s : State) (k : Nat) (f : Core → Core) : (s.modCore k f).agenda = s.agenda := rfl
@[simp] theorem State.modCore_lastWave (s : State) (k : Nat) (f : Core → Core) : (s.modCore k f).lastWave = s.lastWave := rfl

@[simp] theorem State.modCluster_clk (s : State) (k : Nat) (f : Cluster → Cluster) : (s.modCluster k f).clk = s.clk := rfl
@[simp] theorem State.modCluster_issue (s : State) (k : Nat) (f : Cluster → Cluster) : (s.modCluster k f).issue = s.issue := rfl
@[simp] theorem State.modCluster_waves (s : State) (k : Nat) (f : Cluster → Cluster) : (s.modCluster k f).waves = s.waves := rfl
@[simp] theorem State.modCluster_nextWave (s : State) (k : Nat) (f : Cluster → Cluster) : (s.modCluster k f).nextWave = s.nextWave := rfl
@[simp] theorem State.modCluster_blocks (s : State) (k : Nat) (f : Cluster → Cluster) : (s.modCluster k f).blocks = s.blocks := rfl
@[simp] theorem State.modCluster_nextBlock (s : State) (k : Nat) (f : Cluster → Cluster) : (s.modCluster k f).nextBlock = s.nextBlock := rfl
@[simp] theorem State.modCluster_cores (s : State) (k : Nat) (f : Cluster → Cluster) : (s.modCluster k f).cores = s.cores := rfl
@[simp] theorem State.modCluster_stackTbl (s : State) (k : Nat) (f : Cluster → Cluster) : (s.modCluster k f).stackTbl = s.stackTbl := rfl
@[simp] theorem State.modCluster_homes (s : State) (k : Nat) (f : Cluster → Cluster) : (s.modCluster k f).homes = s.homes := rfl
@[simp] theorem State.modCluster_ctxs (s : State) (k : Nat) (f : Cluster → Cluster) : (s.modCluster k f).ctxs = s.ctxs := rfl
@[simp] theorem State.modCluster_launches (s : State) (k : Nat) (f : Cluster → Cluster) : (s.modCluster k f).launches = s.launches := rfl
@[simp] theorem State.modCluster_nextLaunch (s : State) (k : Nat) (f : Cluster → Cluster) : (s.modCluster k f).nextLaunch = s.nextLaunch := rfl
@[simp] theorem State.modCluster_objects (s : State) (k : Nat) (f : Cluster → Cluster) : (s.modCluster k f).objects = s.objects := rfl
@[simp] theorem State.modCluster_decants (s : State) (k : Nat) (f : Cluster → Cluster) : (s.modCluster k f).decants = s.decants := rfl
@[simp] theorem State.modCluster_nextDecant (s : State) (k : Nat) (f : Cluster → Cluster) : (s.modCluster k f).nextDecant = s.nextDecant := rfl
@[simp] theorem State.modCluster_mem (s : State) (k : Nat) (f : Cluster → Cluster) : (s.modCluster k f).mem = s.mem := rfl
@[simp] theorem State.modCluster_poison (s : State) (k : Nat) (f : Cluster → Cluster) : (s.modCluster k f).poison = s.poison := rfl
@[simp] theorem State.modCluster_dramBad (s : State) (k : Nat) (f : Cluster → Cluster) : (s.modCluster k f).dramBad = s.dramBad := rfl
@[simp] theorem State.modCluster_dead (s : State) (k : Nat) (f : Cluster → Cluster) : (s.modCluster k f).dead = s.dead := rfl
@[simp] theorem State.modCluster_offline (s : State) (k : Nat) (f : Cluster → Cluster) : (s.modCluster k f).offline = s.offline := rfl
@[simp] theorem State.modCluster_dry (s : State) (k : Nat) (f : Cluster → Cluster) : (s.modCluster k f).dry = s.dry := rfl
@[simp] theorem State.modCluster_resets (s : State) (k : Nat) (f : Cluster → Cluster) : (s.modCluster k f).resets = s.resets := rfl
@[simp] theorem State.modCluster_resetQueue (s : State) (k : Nat) (f : Cluster → Cluster) : (s.modCluster k f).resetQueue = s.resetQueue := rfl
@[simp] theorem State.modCluster_rebuilding (s : State) (k : Nat) (f : Cluster → Cluster) : (s.modCluster k f).rebuilding = s.rebuilding := rfl
@[simp] theorem State.modCluster_missed (s : State) (k : Nat) (f : Cluster → Cluster) : (s.modCluster k f).missed = s.missed := rfl
@[simp] theorem State.modCluster_hot (s : State) (k : Nat) (f : Cluster → Cluster) : (s.modCluster k f).hot = s.hot := rfl
@[simp] theorem State.modCluster_power (s : State) (k : Nat) (f : Cluster → Cluster) : (s.modCluster k f).power = s.power := rfl
@[simp] theorem State.modCluster_fabric (s : State) (k : Nat) (f : Cluster → Cluster) : (s.modCluster k f).fabric = s.fabric := rfl
@[simp] theorem State.modCluster_nd (s : State) (k : Nat) (f : Cluster → Cluster) : (s.modCluster k f).nd = s.nd := rfl
@[simp] theorem State.modCluster_out (s : State) (k : Nat) (f : Cluster → Cluster) : (s.modCluster k f).out = s.out := rfl
@[simp] theorem State.modCluster_net (s : State) (k : Nat) (f : Cluster → Cluster) : (s.modCluster k f).net = s.net := rfl
@[simp] theorem State.modCluster_agenda (s : State) (k : Nat) (f : Cluster → Cluster) : (s.modCluster k f).agenda = s.agenda := rfl
@[simp] theorem State.modCluster_lastWave (s : State) (k : Nat) (f : Cluster → Cluster) : (s.modCluster k f).lastWave = s.lastWave := rfl

@[simp] theorem State.modBlock_clk (s : State) (k : Nat) (f : Block → Block) : (s.modBlock k f).clk = s.clk := rfl
@[simp] theorem State.modBlock_issue (s : State) (k : Nat) (f : Block → Block) : (s.modBlock k f).issue = s.issue := rfl
@[simp] theorem State.modBlock_waves (s : State) (k : Nat) (f : Block → Block) : (s.modBlock k f).waves = s.waves := rfl
@[simp] theorem State.modBlock_nextWave (s : State) (k : Nat) (f : Block → Block) : (s.modBlock k f).nextWave = s.nextWave := rfl
@[simp] theorem State.modBlock_nextBlock (s : State) (k : Nat) (f : Block → Block) : (s.modBlock k f).nextBlock = s.nextBlock := rfl
@[simp] theorem State.modBlock_cores (s : State) (k : Nat) (f : Block → Block) : (s.modBlock k f).cores = s.cores := rfl
@[simp] theorem State.modBlock_clusters (s : State) (k : Nat) (f : Block → Block) : (s.modBlock k f).clusters = s.clusters := rfl
@[simp] theorem State.modBlock_stackTbl (s : State) (k : Nat) (f : Block → Block) : (s.modBlock k f).stackTbl = s.stackTbl := rfl
@[simp] theorem State.modBlock_homes (s : State) (k : Nat) (f : Block → Block) : (s.modBlock k f).homes = s.homes := rfl
@[simp] theorem State.modBlock_ctxs (s : State) (k : Nat) (f : Block → Block) : (s.modBlock k f).ctxs = s.ctxs := rfl
@[simp] theorem State.modBlock_launches (s : State) (k : Nat) (f : Block → Block) : (s.modBlock k f).launches = s.launches := rfl
@[simp] theorem State.modBlock_nextLaunch (s : State) (k : Nat) (f : Block → Block) : (s.modBlock k f).nextLaunch = s.nextLaunch := rfl
@[simp] theorem State.modBlock_objects (s : State) (k : Nat) (f : Block → Block) : (s.modBlock k f).objects = s.objects := rfl
@[simp] theorem State.modBlock_decants (s : State) (k : Nat) (f : Block → Block) : (s.modBlock k f).decants = s.decants := rfl
@[simp] theorem State.modBlock_nextDecant (s : State) (k : Nat) (f : Block → Block) : (s.modBlock k f).nextDecant = s.nextDecant := rfl
@[simp] theorem State.modBlock_mem (s : State) (k : Nat) (f : Block → Block) : (s.modBlock k f).mem = s.mem := rfl
@[simp] theorem State.modBlock_poison (s : State) (k : Nat) (f : Block → Block) : (s.modBlock k f).poison = s.poison := rfl
@[simp] theorem State.modBlock_dramBad (s : State) (k : Nat) (f : Block → Block) : (s.modBlock k f).dramBad = s.dramBad := rfl
@[simp] theorem State.modBlock_dead (s : State) (k : Nat) (f : Block → Block) : (s.modBlock k f).dead = s.dead := rfl
@[simp] theorem State.modBlock_offline (s : State) (k : Nat) (f : Block → Block) : (s.modBlock k f).offline = s.offline := rfl
@[simp] theorem State.modBlock_dry (s : State) (k : Nat) (f : Block → Block) : (s.modBlock k f).dry = s.dry := rfl
@[simp] theorem State.modBlock_resets (s : State) (k : Nat) (f : Block → Block) : (s.modBlock k f).resets = s.resets := rfl
@[simp] theorem State.modBlock_resetQueue (s : State) (k : Nat) (f : Block → Block) : (s.modBlock k f).resetQueue = s.resetQueue := rfl
@[simp] theorem State.modBlock_rebuilding (s : State) (k : Nat) (f : Block → Block) : (s.modBlock k f).rebuilding = s.rebuilding := rfl
@[simp] theorem State.modBlock_missed (s : State) (k : Nat) (f : Block → Block) : (s.modBlock k f).missed = s.missed := rfl
@[simp] theorem State.modBlock_hot (s : State) (k : Nat) (f : Block → Block) : (s.modBlock k f).hot = s.hot := rfl
@[simp] theorem State.modBlock_power (s : State) (k : Nat) (f : Block → Block) : (s.modBlock k f).power = s.power := rfl
@[simp] theorem State.modBlock_fabric (s : State) (k : Nat) (f : Block → Block) : (s.modBlock k f).fabric = s.fabric := rfl
@[simp] theorem State.modBlock_nd (s : State) (k : Nat) (f : Block → Block) : (s.modBlock k f).nd = s.nd := rfl
@[simp] theorem State.modBlock_out (s : State) (k : Nat) (f : Block → Block) : (s.modBlock k f).out = s.out := rfl
@[simp] theorem State.modBlock_net (s : State) (k : Nat) (f : Block → Block) : (s.modBlock k f).net = s.net := rfl
@[simp] theorem State.modBlock_agenda (s : State) (k : Nat) (f : Block → Block) : (s.modBlock k f).agenda = s.agenda := rfl
@[simp] theorem State.modBlock_lastWave (s : State) (k : Nat) (f : Block → Block) : (s.modBlock k f).lastWave = s.lastWave := rfl

@[simp] theorem State.modCtx_clk (s : State) (k : Nat) (f : Context → Context) : (s.modCtx k f).clk = s.clk := rfl
@[simp] theorem State.modCtx_issue (s : State) (k : Nat) (f : Context → Context) : (s.modCtx k f).issue = s.issue := rfl
@[simp] theorem State.modCtx_waves (s : State) (k : Nat) (f : Context → Context) : (s.modCtx k f).waves = s.waves := rfl
@[simp] theorem State.modCtx_nextWave (s : State) (k : Nat) (f : Context → Context) : (s.modCtx k f).nextWave = s.nextWave := rfl
@[simp] theorem State.modCtx_blocks (s : State) (k : Nat) (f : Context → Context) : (s.modCtx k f).blocks = s.blocks := rfl
@[simp] theorem State.modCtx_nextBlock (s : State) (k : Nat) (f : Context → Context) : (s.modCtx k f).nextBlock = s.nextBlock := rfl
@[simp] theorem State.modCtx_cores (s : State) (k : Nat) (f : Context → Context) : (s.modCtx k f).cores = s.cores := rfl
@[simp] theorem State.modCtx_clusters (s : State) (k : Nat) (f : Context → Context) : (s.modCtx k f).clusters = s.clusters := rfl
@[simp] theorem State.modCtx_stackTbl (s : State) (k : Nat) (f : Context → Context) : (s.modCtx k f).stackTbl = s.stackTbl := rfl
@[simp] theorem State.modCtx_homes (s : State) (k : Nat) (f : Context → Context) : (s.modCtx k f).homes = s.homes := rfl
@[simp] theorem State.modCtx_launches (s : State) (k : Nat) (f : Context → Context) : (s.modCtx k f).launches = s.launches := rfl
@[simp] theorem State.modCtx_nextLaunch (s : State) (k : Nat) (f : Context → Context) : (s.modCtx k f).nextLaunch = s.nextLaunch := rfl
@[simp] theorem State.modCtx_objects (s : State) (k : Nat) (f : Context → Context) : (s.modCtx k f).objects = s.objects := rfl
@[simp] theorem State.modCtx_decants (s : State) (k : Nat) (f : Context → Context) : (s.modCtx k f).decants = s.decants := rfl
@[simp] theorem State.modCtx_nextDecant (s : State) (k : Nat) (f : Context → Context) : (s.modCtx k f).nextDecant = s.nextDecant := rfl
@[simp] theorem State.modCtx_mem (s : State) (k : Nat) (f : Context → Context) : (s.modCtx k f).mem = s.mem := rfl
@[simp] theorem State.modCtx_poison (s : State) (k : Nat) (f : Context → Context) : (s.modCtx k f).poison = s.poison := rfl
@[simp] theorem State.modCtx_dramBad (s : State) (k : Nat) (f : Context → Context) : (s.modCtx k f).dramBad = s.dramBad := rfl
@[simp] theorem State.modCtx_dead (s : State) (k : Nat) (f : Context → Context) : (s.modCtx k f).dead = s.dead := rfl
@[simp] theorem State.modCtx_offline (s : State) (k : Nat) (f : Context → Context) : (s.modCtx k f).offline = s.offline := rfl
@[simp] theorem State.modCtx_dry (s : State) (k : Nat) (f : Context → Context) : (s.modCtx k f).dry = s.dry := rfl
@[simp] theorem State.modCtx_resets (s : State) (k : Nat) (f : Context → Context) : (s.modCtx k f).resets = s.resets := rfl
@[simp] theorem State.modCtx_resetQueue (s : State) (k : Nat) (f : Context → Context) : (s.modCtx k f).resetQueue = s.resetQueue := rfl
@[simp] theorem State.modCtx_rebuilding (s : State) (k : Nat) (f : Context → Context) : (s.modCtx k f).rebuilding = s.rebuilding := rfl
@[simp] theorem State.modCtx_missed (s : State) (k : Nat) (f : Context → Context) : (s.modCtx k f).missed = s.missed := rfl
@[simp] theorem State.modCtx_hot (s : State) (k : Nat) (f : Context → Context) : (s.modCtx k f).hot = s.hot := rfl
@[simp] theorem State.modCtx_power (s : State) (k : Nat) (f : Context → Context) : (s.modCtx k f).power = s.power := rfl
@[simp] theorem State.modCtx_fabric (s : State) (k : Nat) (f : Context → Context) : (s.modCtx k f).fabric = s.fabric := rfl
@[simp] theorem State.modCtx_nd (s : State) (k : Nat) (f : Context → Context) : (s.modCtx k f).nd = s.nd := rfl
@[simp] theorem State.modCtx_out (s : State) (k : Nat) (f : Context → Context) : (s.modCtx k f).out = s.out := rfl
@[simp] theorem State.modCtx_net (s : State) (k : Nat) (f : Context → Context) : (s.modCtx k f).net = s.net := rfl
@[simp] theorem State.modCtx_agenda (s : State) (k : Nat) (f : Context → Context) : (s.modCtx k f).agenda = s.agenda := rfl
@[simp] theorem State.modCtx_lastWave (s : State) (k : Nat) (f : Context → Context) : (s.modCtx k f).lastWave = s.lastWave := rfl

@[simp] theorem State.modLaunch_clk (s : State) (k : Nat) (f : Launch → Launch) : (s.modLaunch k f).clk = s.clk := rfl
@[simp] theorem State.modLaunch_issue (s : State) (k : Nat) (f : Launch → Launch) : (s.modLaunch k f).issue = s.issue := rfl
@[simp] theorem State.modLaunch_waves (s : State) (k : Nat) (f : Launch → Launch) : (s.modLaunch k f).waves = s.waves := rfl
@[simp] theorem State.modLaunch_nextWave (s : State) (k : Nat) (f : Launch → Launch) : (s.modLaunch k f).nextWave = s.nextWave := rfl
@[simp] theorem State.modLaunch_blocks (s : State) (k : Nat) (f : Launch → Launch) : (s.modLaunch k f).blocks = s.blocks := rfl
@[simp] theorem State.modLaunch_nextBlock (s : State) (k : Nat) (f : Launch → Launch) : (s.modLaunch k f).nextBlock = s.nextBlock := rfl
@[simp] theorem State.modLaunch_cores (s : State) (k : Nat) (f : Launch → Launch) : (s.modLaunch k f).cores = s.cores := rfl
@[simp] theorem State.modLaunch_clusters (s : State) (k : Nat) (f : Launch → Launch) : (s.modLaunch k f).clusters = s.clusters := rfl
@[simp] theorem State.modLaunch_stackTbl (s : State) (k : Nat) (f : Launch → Launch) : (s.modLaunch k f).stackTbl = s.stackTbl := rfl
@[simp] theorem State.modLaunch_homes (s : State) (k : Nat) (f : Launch → Launch) : (s.modLaunch k f).homes = s.homes := rfl
@[simp] theorem State.modLaunch_ctxs (s : State) (k : Nat) (f : Launch → Launch) : (s.modLaunch k f).ctxs = s.ctxs := rfl
@[simp] theorem State.modLaunch_nextLaunch (s : State) (k : Nat) (f : Launch → Launch) : (s.modLaunch k f).nextLaunch = s.nextLaunch := rfl
@[simp] theorem State.modLaunch_objects (s : State) (k : Nat) (f : Launch → Launch) : (s.modLaunch k f).objects = s.objects := rfl
@[simp] theorem State.modLaunch_decants (s : State) (k : Nat) (f : Launch → Launch) : (s.modLaunch k f).decants = s.decants := rfl
@[simp] theorem State.modLaunch_nextDecant (s : State) (k : Nat) (f : Launch → Launch) : (s.modLaunch k f).nextDecant = s.nextDecant := rfl
@[simp] theorem State.modLaunch_mem (s : State) (k : Nat) (f : Launch → Launch) : (s.modLaunch k f).mem = s.mem := rfl
@[simp] theorem State.modLaunch_poison (s : State) (k : Nat) (f : Launch → Launch) : (s.modLaunch k f).poison = s.poison := rfl
@[simp] theorem State.modLaunch_dramBad (s : State) (k : Nat) (f : Launch → Launch) : (s.modLaunch k f).dramBad = s.dramBad := rfl
@[simp] theorem State.modLaunch_dead (s : State) (k : Nat) (f : Launch → Launch) : (s.modLaunch k f).dead = s.dead := rfl
@[simp] theorem State.modLaunch_offline (s : State) (k : Nat) (f : Launch → Launch) : (s.modLaunch k f).offline = s.offline := rfl
@[simp] theorem State.modLaunch_dry (s : State) (k : Nat) (f : Launch → Launch) : (s.modLaunch k f).dry = s.dry := rfl
@[simp] theorem State.modLaunch_resets (s : State) (k : Nat) (f : Launch → Launch) : (s.modLaunch k f).resets = s.resets := rfl
@[simp] theorem State.modLaunch_resetQueue (s : State) (k : Nat) (f : Launch → Launch) : (s.modLaunch k f).resetQueue = s.resetQueue := rfl
@[simp] theorem State.modLaunch_rebuilding (s : State) (k : Nat) (f : Launch → Launch) : (s.modLaunch k f).rebuilding = s.rebuilding := rfl
@[simp] theorem State.modLaunch_missed (s : State) (k : Nat) (f : Launch → Launch) : (s.modLaunch k f).missed = s.missed := rfl
@[simp] theorem State.modLaunch_hot (s : State) (k : Nat) (f : Launch → Launch) : (s.modLaunch k f).hot = s.hot := rfl
@[simp] theorem State.modLaunch_power (s : State) (k : Nat) (f : Launch → Launch) : (s.modLaunch k f).power = s.power := rfl
@[simp] theorem State.modLaunch_fabric (s : State) (k : Nat) (f : Launch → Launch) : (s.modLaunch k f).fabric = s.fabric := rfl
@[simp] theorem State.modLaunch_nd (s : State) (k : Nat) (f : Launch → Launch) : (s.modLaunch k f).nd = s.nd := rfl
@[simp] theorem State.modLaunch_out (s : State) (k : Nat) (f : Launch → Launch) : (s.modLaunch k f).out = s.out := rfl
@[simp] theorem State.modLaunch_net (s : State) (k : Nat) (f : Launch → Launch) : (s.modLaunch k f).net = s.net := rfl
@[simp] theorem State.modLaunch_agenda (s : State) (k : Nat) (f : Launch → Launch) : (s.modLaunch k f).agenda = s.agenda := rfl
@[simp] theorem State.modLaunch_lastWave (s : State) (k : Nat) (f : Launch → Launch) : (s.modLaunch k f).lastWave = s.lastWave := rfl

@[simp] theorem State.memWrite_clk (s : State) (a : Nat) (bs : List Byte) : (s.memWrite a bs).clk = s.clk := rfl
@[simp] theorem State.memWrite_issue (s : State) (a : Nat) (bs : List Byte) : (s.memWrite a bs).issue = s.issue := rfl
@[simp] theorem State.memWrite_waves (s : State) (a : Nat) (bs : List Byte) : (s.memWrite a bs).waves = s.waves := rfl
@[simp] theorem State.memWrite_nextWave (s : State) (a : Nat) (bs : List Byte) : (s.memWrite a bs).nextWave = s.nextWave := rfl
@[simp] theorem State.memWrite_blocks (s : State) (a : Nat) (bs : List Byte) : (s.memWrite a bs).blocks = s.blocks := rfl
@[simp] theorem State.memWrite_nextBlock (s : State) (a : Nat) (bs : List Byte) : (s.memWrite a bs).nextBlock = s.nextBlock := rfl
@[simp] theorem State.memWrite_cores (s : State) (a : Nat) (bs : List Byte) : (s.memWrite a bs).cores = s.cores := rfl
@[simp] theorem State.memWrite_clusters (s : State) (a : Nat) (bs : List Byte) : (s.memWrite a bs).clusters = s.clusters := rfl
@[simp] theorem State.memWrite_stackTbl (s : State) (a : Nat) (bs : List Byte) : (s.memWrite a bs).stackTbl = s.stackTbl := rfl
@[simp] theorem State.memWrite_homes (s : State) (a : Nat) (bs : List Byte) : (s.memWrite a bs).homes = s.homes := rfl
@[simp] theorem State.memWrite_ctxs (s : State) (a : Nat) (bs : List Byte) : (s.memWrite a bs).ctxs = s.ctxs := rfl
@[simp] theorem State.memWrite_launches (s : State) (a : Nat) (bs : List Byte) : (s.memWrite a bs).launches = s.launches := rfl
@[simp] theorem State.memWrite_nextLaunch (s : State) (a : Nat) (bs : List Byte) : (s.memWrite a bs).nextLaunch = s.nextLaunch := rfl
@[simp] theorem State.memWrite_objects (s : State) (a : Nat) (bs : List Byte) : (s.memWrite a bs).objects = s.objects := rfl
@[simp] theorem State.memWrite_decants (s : State) (a : Nat) (bs : List Byte) : (s.memWrite a bs).decants = s.decants := rfl
@[simp] theorem State.memWrite_nextDecant (s : State) (a : Nat) (bs : List Byte) : (s.memWrite a bs).nextDecant = s.nextDecant := rfl
@[simp] theorem State.memWrite_poison (s : State) (a : Nat) (bs : List Byte) : (s.memWrite a bs).poison = s.poison := rfl
@[simp] theorem State.memWrite_dramBad (s : State) (a : Nat) (bs : List Byte) : (s.memWrite a bs).dramBad = s.dramBad := rfl
@[simp] theorem State.memWrite_dead (s : State) (a : Nat) (bs : List Byte) : (s.memWrite a bs).dead = s.dead := rfl
@[simp] theorem State.memWrite_offline (s : State) (a : Nat) (bs : List Byte) : (s.memWrite a bs).offline = s.offline := rfl
@[simp] theorem State.memWrite_dry (s : State) (a : Nat) (bs : List Byte) : (s.memWrite a bs).dry = s.dry := rfl
@[simp] theorem State.memWrite_resets (s : State) (a : Nat) (bs : List Byte) : (s.memWrite a bs).resets = s.resets := rfl
@[simp] theorem State.memWrite_resetQueue (s : State) (a : Nat) (bs : List Byte) : (s.memWrite a bs).resetQueue = s.resetQueue := rfl
@[simp] theorem State.memWrite_rebuilding (s : State) (a : Nat) (bs : List Byte) : (s.memWrite a bs).rebuilding = s.rebuilding := rfl
@[simp] theorem State.memWrite_missed (s : State) (a : Nat) (bs : List Byte) : (s.memWrite a bs).missed = s.missed := rfl
@[simp] theorem State.memWrite_hot (s : State) (a : Nat) (bs : List Byte) : (s.memWrite a bs).hot = s.hot := rfl
@[simp] theorem State.memWrite_power (s : State) (a : Nat) (bs : List Byte) : (s.memWrite a bs).power = s.power := rfl
@[simp] theorem State.memWrite_fabric (s : State) (a : Nat) (bs : List Byte) : (s.memWrite a bs).fabric = s.fabric := rfl
@[simp] theorem State.memWrite_nd (s : State) (a : Nat) (bs : List Byte) : (s.memWrite a bs).nd = s.nd := rfl
@[simp] theorem State.memWrite_out (s : State) (a : Nat) (bs : List Byte) : (s.memWrite a bs).out = s.out := rfl
@[simp] theorem State.memWrite_net (s : State) (a : Nat) (bs : List Byte) : (s.memWrite a bs).net = s.net := rfl
@[simp] theorem State.memWrite_agenda (s : State) (a : Nat) (bs : List Byte) : (s.memWrite a bs).agenda = s.agenda := rfl
@[simp] theorem State.memWrite_lastWave (s : State) (a : Nat) (bs : List Byte) : (s.memWrite a bs).lastWave = s.lastWave := rfl

@[simp] theorem State.modWave_waves (s : State) (k : Nat) (f : Wave → Wave) : (s.modWave k f).waves = tmodify s.waves k f := rfl
@[simp] theorem State.modCur_waves (s : State) (f : Wave → Wave) : (s.modCur f).waves = tmodify s.waves s.issue.wave f := rfl
@[simp] theorem State.memWrite_mem (s : State) (a : Nat) (bs : List Byte) : (s.memWrite a bs).mem = memPut s.mem a bs := rfl

/-! The wave that issues. -/

theorem State.curWave_modCur (s : State) (f : Wave → Wave) (h : s.waveAlive = true) : (s.modCur f).curWave = f s.curWave :=
  tgetD_tmodify_same _ _ _ _ h
@[simp] theorem State.waveAlive_modCur (s : State) (f : Wave → Wave) : (s.modCur f).waveAlive = s.waveAlive := by
  simp only [State.waveAlive, State.modCur_waves, State.modCur_issue, tget?_tmodify, if_true, Option.isSome_map]
theorem State.tget?_modCur_other (s : State) (f : Wave → Wave) {k : Nat} (h : k ≠ s.issue.wave) :
    tget? (s.modCur f).waves k = tget? s.waves k := by
  simp [tget?_tmodify, h]

/-! Cores, clusters, blocks, contexts and launches. -/

theorem State.core_modCore (s : State) (c k : Nat) (f : Core → Core) : (s.modCore c f).core k = if k = c then f (s.core c) else s.core k :=
  tgetD_tset _ _ _ _ _
theorem State.cluster_modCluster (s : State) (c k : Nat) (f : Cluster → Cluster) :
    (s.modCluster c f).cluster k = if k = c then f (s.cluster c) else s.cluster k := tgetD_tset _ _ _ _ _
theorem State.block_modBlock (s : State) (b k : Nat) (f : Block → Block) (h : (tget? s.blocks b).isSome = true) :
    (s.modBlock b f).block k = if k = b then f (s.block b) else s.block k := by
  split
  · subst k; exact tgetD_tmodify_same _ _ _ _ h
  · exact tgetD_tmodify_other _ _ _ (by assumption)
theorem State.ctx_modCtx (s : State) (b k : Nat) (f : Context → Context) (h : (tget? s.ctxs b).isSome = true) :
    (s.modCtx b f).ctx k = if k = b then f (s.ctx b) else s.ctx k := by
  split
  · subst k; exact tgetD_tmodify_same _ _ _ _ h
  · exact tgetD_tmodify_other _ _ _ (by assumption)
theorem State.launch_modLaunch (s : State) (b k : Nat) (f : Launch → Launch) (h : (tget? s.launches b).isSome = true) :
    (s.modLaunch b f).launch k = if k = b then f (s.launch b) else s.launch k := by
  split
  · subst k; exact tgetD_tmodify_same _ _ _ _ h
  · exact tgetD_tmodify_other _ _ _ (by assumption)

/-! Registers after a write. -/

theorem Wave.sreg_tset (w : Wave) (r k : Nat) (v : Dword) :
    ({ w with sregs := tset w.sregs r v } : Wave).sreg k = if k = r then v else w.sreg k := tgetD_tset _ _ _ _ _
theorem Wave.vreg_setVWord (w : Wave) (r l q k : Nat) (v : Word) (hl : l < 32) (hk : k < 32) :
    ({ w with vregs := setVWord w.vregs r l v } : Wave).vreg q k = if q = r ∧ k = l then v else w.vreg q k := by
  simp only [Wave.vreg, setVWord, tgetD_tset]
  by_cases h : q = r ∧ k = l
  · rw [if_pos h, if_pos (by rw [h.1, h.2])]
  · rw [if_neg h, if_neg (by omega)]

end Sys2Proof.Machine
end

