-- ==== Sys2Proof/Laws/Results.lean ====
section
/-! SUPPORT. What writing a result does, said once for each kind of result: latches, scalar, vector and predicate results, and
moving on to the next instruction. -/

namespace Sys2Proof.Machine

/-! Latches. -/

/-- One place of a latch set that takes what the place before it held. -/
theorem tget?_moveLatch (t u : Tbl LatchVal) (b k m : Nat) :
    tget? (moveLatch t b u k) m = if m = b + k then tget? t (b + k - 1) else tget? u m := by
  simp only [moveLatch]
  split
  · rename_i h; rw [tget?_tset, h]
  · rename_i h; rw [tget?_tdel, h]

/-- One plane's set after a result. -/
theorem tget?_pushLatch (t : Tbl LatchVal) (p q k : Nat) (v : LatchVal) (hk : k < 8) :
    tget? (pushLatch t p v) (q * 8 + k) =
      if q = p then (if k = 0 then some v else tget? t (q * 8 + (k - 1))) else tget? t (q * 8 + k) := by
  simp only [pushLatch, List.foldl_cons, List.foldl_nil, tget?_tset, tget?_moveLatch]
  by_cases hq : q = p
  · subst hq
    obtain rfl | rfl | rfl | rfl | rfl | rfl | rfl | rfl : k = 0 ∨ k = 1 ∨ k = 2 ∨ k = 3 ∨ k = 4 ∨ k = 5 ∨ k = 6 ∨ k = 7 := by omega
    all_goals simp
  · rw [if_neg hq]
    repeat rw [if_neg (by omega)]

theorem latch_pushLatch_foldl (planes : List Nat) (hd : planes.Nodup) (v : LatchVal) (t : Tbl LatchVal) (q k : Nat) (hk : k < 8) :
    tget? (planes.foldl (fun t p => pushLatch t p v) t) (q * 8 + k) =
      if planes.contains q then (if k = 0 then some v else tget? t (q * 8 + (k - 1))) else tget? t (q * 8 + k) := by
  induction planes generalizing t with
  | nil => simp
  | cons p ps ih =>
    rw [List.nodup_cons] at hd
    rw [List.foldl_cons, ih hd.2]
    by_cases hq : q = p
    · subst hq
      have hn : ps.contains q = false := by simpa using hd.1
      simp only [hn, Bool.false_eq_true, if_false, List.contains_cons, beq_self_eq_true, Bool.true_or, if_true]
      rw [tget?_pushLatch _ _ _ _ _ hk, if_pos rfl]
    · have hc : (p :: ps).contains q = ps.contains q := by simp [hq]
      rw [hc, tget?_pushLatch _ _ _ _ _ hk, if_neg hq]
      split
      · split
        · rfl
        · rw [tget?_pushLatch _ _ _ _ _ (by omega), if_neg hq]
      · rfl

theorem State.latchPlanes_nodup (s : State) : s.latchPlanes.Nodup := by
  simp only [State.latchPlanes]
  split
  · exact List.nodup_range.filter _
  · exact List.nodup_singleton _

/-- The latches of a wave whose sets have moved on. -/
theorem Wave.latch_moved (w : Wave) (planes : List Nat) (hd : planes.Nodup) (v : LatchVal) (p k : Nat) (hk : k < 8) :
    ({ w with latches := planes.foldl (fun t p => pushLatch t p v) w.latches } : Wave).latch p k = w.latchAfter planes v p k := by
  simp only [Wave.latch, Wave.latchAfter, tgetD, latch_pushLatch_foldl _ hd _ _ _ _ hk]
  split
  · split <;> rfl
  · rfl

/-! Moving on. -/

/-- The wave after its copy has taken effect. -/
theorem State.curWave_finish (s : State) (h : s.waveAlive = true) :
    s.finish.curWave = { s.curWave with
      latches := (match s.issue.form with | .quadiner => s.curWave.latches | .bintodal => []),
      splits := tmodify s.curWave.splits s.curWave.issuing (Split.advance s.issue.len) } := by
  simp only [State.finish, State.bintodalLatches]
  cases hf : s.issue.form
  · simp [State.modSplit, State.curWave_modCur _ _ h]
  · simp only [State.modSplit]
    rw [State.curWave_modCur _ _ (by simpa using h), State.curWave_modCur _ _ h]
    rfl

/-- The wave that issues, with the mark of a resumed wave cleared. -/
theorem State.curWave_unresume (s : State) :
    (s.modCur (fun w => { w with resumed := false })).curWave = { s.curWave with resumed := false } := by
  by_cases h : s.waveAlive = true
  · exact s.curWave_modCur _ h
  · have hn : tget? s.waves s.issue.wave = none := by
      simpa only [State.waveAlive, Option.isSome_iff_ne_none, ne_eq, not_not] using h
    simp [State.curWave, tgetD, tget?_tmodify, hn]

theorem State.onlyCur_refl (s : State) : s.onlyCur s := ⟨rfl, fun _ _ => rfl⟩
theorem State.onlyCur_modCur (s t : State) (f : Wave → Wave) (h : s.onlyCur t) : s.onlyCur (t.modCur f) := by
  obtain ⟨h1, h2⟩ := h
  have hi : t.issue = s.issue := by have h := congrArg State.issue h1; exact h
  refine ⟨h1, fun k hk => ?_⟩
  rw [State.tget?_modCur_other _ _ (by rw [hi]; exact hk), h2 k hk]
theorem State.onlyCur_latchResult (s t : State) (v : LatchVal) (h : s.onlyCur t) : s.onlyCur (t.latchResult v) := by
  simp only [State.latchResult]; split
  · exact h
  · exact State.onlyCur_modCur _ _ _ h
theorem State.onlyCur_finish (s t : State) (h : s.onlyCur t) : s.onlyCur t.finish := by
  simp only [State.finish, State.bintodalLatches, State.modSplit]
  refine State.onlyCur_modCur _ _ _ ?_
  split
  · exact h
  · exact State.onlyCur_modCur _ _ _ h

/-! Results. An instruction has its effect in the state `s.begun`. -/

theorem State.begun_curWave (s : State) : s.begun.curWave = { s.curWave with resumed := false } := s.curWave_unresume
@[simp] theorem State.begun_issue (s : State) : s.begun.issue = s.issue := rfl
@[simp] theorem State.begun_alive (s : State) : s.begun.waveAlive = s.waveAlive := s.waveAlive_modCur _
@[simp] theorem State.begun_etype (s : State) : s.begun.etype = s.etype := rfl
@[simp] theorem State.begun_rmode (s : State) : s.begun.rmode = s.rmode := rfl
@[simp] theorem State.begun_sat (s : State) : s.begun.sat = s.sat := rfl
@[simp] theorem State.begun_clk (s : State) : s.begun.clk = s.clk := rfl
@[simp] theorem State.begun_sreg (s : State) (r : Nat) : s.begun.curWave.sreg r = s.curWave.sreg r := by rw [s.begun_curWave]; rfl
@[simp] theorem State.begun_vreg (s : State) (r l : Nat) : s.begun.curWave.vreg r l = s.curWave.vreg r l := by rw [s.begun_curWave]; rfl
@[simp] theorem State.begun_vlane (s : State) (w : Bool) (r l : Nat) : s.begun.curWave.vlane w r l = s.curWave.vlane w r l := by
  rw [s.begun_curWave]; rfl
@[simp] theorem State.begun_pred (s : State) (p : Nat) : s.begun.curWave.pred p = s.curWave.pred p := by rw [s.begun_curWave]; rfl
@[simp] theorem State.begun_latch (s : State) (p k : Nat) : s.begun.curWave.latch p k = s.curWave.latch p k := by
  rw [s.begun_curWave]; rfl
@[simp] theorem State.begun_plane (s : State) (l : Nat) : s.begun.curWave.plane l = s.curWave.plane l := by rw [s.begun_curWave]; rfl
@[simp] theorem State.begun_psel (s : State) (x : PSel) : s.begun.curWave.psel x = s.curWave.psel x := by rw [s.begun_curWave]; rfl
@[simp] theorem State.begun_split (s : State) : s.begun.curSplit = s.curSplit := by
  simp only [State.curSplit, s.begun_curWave]; rfl
@[simp] theorem State.begun_index (s : State) : s.begun.curWave.index = s.curWave.index := by rw [s.begun_curWave]
@[simp] theorem State.begun_core (s : State) : s.begun.curWave.core = s.curWave.core := by rw [s.begun_curWave]
@[simp] theorem State.begun_activeMask (s : State) : s.begun.activeMask = s.activeMask := by
  simp only [State.activeMask, s.begun_curWave]; rfl
@[simp] theorem State.begun_latchPlanes (s : State) : s.begun.latchPlanes = s.latchPlanes := by
  simp only [State.latchPlanes, State.begun_issue, State.begun_plane]
@[simp] theorem State.begun_readS (s : State) (t : EType) (x : SSrc) : s.begun.readS t x = s.readS t x := by
  cases x <;> simp only [State.readS, State.issuePlane, State.begun_issue, State.begun_sreg, State.begun_latch, State.begun_index,
    State.begun_core, State.begun_rmode]
@[simp] theorem State.begun_readS64 (s : State) (x : SSrc) : s.begun.readS64 x = s.readS64 x := s.begun_readS .int64 x
@[simp] theorem State.begun_readV (s : State) (t : EType) (x : VSrc) (l : Nat) : s.begun.readV t x l = s.readV t x l := by
  cases x <;> simp only [State.readV, State.begun_issue, State.begun_vlane, State.begun_latch, State.begun_index, State.begun_plane,
    State.begun_core, State.begun_rmode, State.begun_clk]
@[simp] theorem State.begun_scalarInt (s : State) (x : SSrc) : s.begun.scalarInt x = s.scalarInt x := by
  simp only [State.scalarInt, State.begun_etype, State.begun_readS]
@[simp] theorem State.begun_vInt (s : State) (t : EType) (x : VSrc) (l e : Nat) : s.begun.vInt t x l e = s.vInt t x l e := by
  simp only [State.vInt, State.begun_readV]
@[simp] theorem State.begun_vFloat (s : State) (t : EType) (f : FFmt) (x : VSrc) (l e : Nat) :
    s.begun.vFloat t f x l e = s.vFloat t f x l e := by
  simp only [State.vFloat, State.begun_readV]
@[simp] theorem State.begun_creg (s : State) (r : CReg) : s.begun.creg r = s.creg r := by
  cases r <;> simp only [State.creg, State.curCtx, s.begun_curWave] <;> rfl
theorem State.onlyCur_begun (s : State) : s.onlyCur s.begun := State.onlyCur_modCur _ _ _ s.onlyCur_refl

/-- An instruction that issues has its effect in `s.begun`. -/
theorem issueOp_issues (i : Instr) (s : State) (body : State → State) (h : s.issues i) : issueOp i s body = .next (body s.begun) := by
  obtain ⟨h1, h2, h3, h4, h5, -⟩ := h
  simp only [issueOp, h1, h2, h3, h4, h5]; rfl
/-- An instruction whose checks before issue fail takes the first cause, with RESUME at itself (R90). -/
theorem issueOp_traps (i : Instr) (s : State) (body : State → State) (t : TrapInfo) (h1 : s.waveAlive = true)
    (h2 : interlocked i s = false) (h3 : dueCause i s = none) (h4 : preIssue i s = some t) :
    issueOp i s body = .next (s.trapHere t) := by
  simp only [issueOp, h1, h2, h3, h4]; rfl
/-- An instruction that reads a word with an uncorrectable error takes MEM_POISON, with RESUME at itself (R407). -/
theorem issueOp_struck (i : Instr) (s : State) (body : State → State) (t : TrapInfo) (h1 : s.waveAlive = true)
    (h2 : interlocked i s = false) (h3 : dueCause i s = none) (h4 : preIssue i s = none) (h5 : struckCause i s = some t) :
    issueOp i s body = .next (s.trapHere t) := by
  simp only [issueOp, h1, h2, h3, h4, h5]; rfl
/-- Without a resident wave there is nothing to issue. -/
theorem issueOp_noWave (i : Instr) (s : State) (body : State → State) (h : s.waveAlive = false) :
    issueOp i s body = .fault .noWave := by
  simp only [issueOp, h]; rfl

/-- The latches of a result at the next instruction. -/
def State.latchesThen (s : State) (v : LatchVal) : Tbl LatchVal :=
  match s.issue.form with
  | .quadiner => s.latchPlanes.foldl (fun t p => pushLatch t p v) s.curWave.latches
  | .bintodal => []

/-- The wave after a result latch, at the next instruction. -/
theorem State.curWave_latchFinish (s : State) (v : LatchVal) (h : s.waveAlive = true) :
    (s.latchResult v).finish.curWave = { s.curWave with
      latches := s.latchesThen v, splits := tmodify s.curWave.splits s.curWave.issuing (Split.advance s.issue.len) } := by
  simp only [State.latchResult, State.latchesThen]
  cases hf : s.issue.form
  · rw [State.curWave_finish _ (by simpa using h), s.curWave_modCur _ h, State.modCur_issue, hf]
  · rw [State.curWave_finish _ h, hf]

/-- A wave with the latches of a result. -/
theorem State.latchesTake_of (s t : State) (v : LatchVal) (h : t.curWave.latches = s.latchesThen v) : s.latchesTake t v := by
  simp only [State.latchesTake, State.latchesThen] at h ⊢
  cases hf : s.issue.form
  · intro p k hk
    rw [← Wave.latch_moved _ _ s.latchPlanes_nodup v p k hk]
    simp only [hf] at h
    simp only [Wave.latch, h]
  · intro p k
    simp only [hf] at h
    simp [Wave.latch, h, tgetD, tget?]

theorem State.latchesThen_of (s u : State) (v : LatchVal) (hi : u.issue = s.issue) (hp : ∀ l, u.curWave.plane l = s.curWave.plane l)
    (hl : u.curWave.latches = s.curWave.latches) : u.latchesThen v = s.latchesThen v := by
  simp only [State.latchesThen, State.latchPlanes, hi, hp, hl]

/-- The wave after a result that changes the wave by `f` first. -/
theorem State.curWave_result (s : State) (f : Wave → Wave) (v : LatchVal) (h : s.waveAlive = true)
    (hp : (f { s.curWave with resumed := false }).planes = s.curWave.planes)
    (hl : (f { s.curWave with resumed := false }).latches = s.curWave.latches) :
    ((s.begun.modCur f).latchResult v).finish.curWave = { f { s.curWave with resumed := false } with
      latches := s.latchesThen v,
      splits := tmodify (f { s.curWave with resumed := false }).splits (f { s.curWave with resumed := false }).issuing
        (Split.advance s.issue.len) } := by
  have e : (s.begun.modCur f).curWave = f { s.curWave with resumed := false } := by
    rw [State.curWave_modCur _ _ (by simpa using h), s.begun_curWave]
  rw [State.curWave_latchFinish _ _ (by simpa using h),
    s.latchesThen_of (s.begun.modCur f) v rfl (by intro l; simp only [e, Wave.plane, hp]) (by rw [e, hl]), e]
  rfl

theorem State.onlyCur_result (s : State) (f : Wave → Wave) (v : LatchVal) : s.onlyCur ((s.begun.modCur f).latchResult v).finish :=
  State.onlyCur_finish _ _ (State.onlyCur_latchResult _ _ _ (State.onlyCur_modCur _ _ _ s.onlyCur_begun))

/-- A scalar result (R110). -/
theorem State.scalarDone_putS (s : State) (d : SDst) (v : Dword) (h : s.waveAlive = true) :
    s.scalarDone (s.begun.putS d v).finish d v := by
  have hb : s.begun.waveAlive = true := by simpa using h
  have hl (v) : s.begun.latchesThen v = s.latchesThen v := s.latchesThen_of _ _ rfl (by simp) (by rw [s.begun_curWave])
  cases d with
  | reg r =>
    simp only [State.putS, State.begun_activeMask]
    by_cases hm : s.activeMask = 0
    · rw [if_pos hm]
      have e := State.curWave_latchFinish s.begun (.scalar (s.begun.curWave.sreg r.val)) hb
      generalize hz : (s.begun.latchResult (.scalar (s.begun.curWave.sreg r.val))).finish = z at e ⊢
      rw [hl, s.begun_sreg, s.begun_curWave] at e
      refine ⟨?_, ?_, ?_, ?_, ?_, ?_, State.latchesTake_of _ _ _ ?_⟩
      · rw [← hz]; exact State.onlyCur_finish _ _ (State.onlyCur_latchResult _ _ _ s.onlyCur_begun)
      · rw [State.splitsOn, e]; rfl
      · rw [e]
      · rw [e]
      · rw [e]; simp [hm, sdstReg]
      · intro k; rw [e]; simp [hm, Wave.sreg]
      · rw [e]; simp [hm]
    · rw [if_neg hm]
      have e := s.curWave_result (fun w => { w with sregs := tset w.sregs r.val v, struck := mendS r.val w.struck }) (.scalar v) h rfl rfl
      have ho := s.onlyCur_result (fun w => { w with sregs := tset w.sregs r.val v, struck := mendS r.val w.struck }) (.scalar v)
      generalize hz : ((s.begun.modCur (fun w => { w with sregs := tset w.sregs r.val v, struck := mendS r.val w.struck })).latchResult (.scalar v)).finish = z at e ho ⊢
      refine ⟨?_, ?_, ?_, ?_, ?_, ?_, State.latchesTake_of _ _ _ ?_⟩
      · exact ho
      · rw [State.splitsOn, e]
      · rw [e]
      · rw [e]
      · rw [e]; simp only [sdstReg]; rw [if_pos hm]
      · intro k; rw [e]; simp only [Wave.sreg, tgetD_tset, sdstReg, ne_eq, hm, not_false_eq_true, true_and, Option.some.injEq]
        simp only [eq_comm]
      · rw [if_pos hm, e]
  | nw =>
    simp only [State.putS, State.begun_activeMask]
    have e := State.curWave_latchFinish s.begun (.scalar (if s.activeMask = 0 then 0 else v)) hb
    generalize hz : (s.begun.latchResult (.scalar (if s.activeMask = 0 then 0 else v))).finish = z at e ⊢
    rw [hl, s.begun_curWave] at e
    refine ⟨?_, ?_, ?_, ?_, ?_, ?_, State.latchesTake_of _ _ _ ?_⟩
    · rw [← hz]; exact State.onlyCur_finish _ _ (State.onlyCur_latchResult _ _ _ s.onlyCur_begun)
    · rw [State.splitsOn, e]; rfl
    · rw [e]
    · rw [e]
    · rw [e]; simp [sdstReg]
    · intro k; rw [e]; simp [Wave.sreg, sdstReg]
    · rw [e]; simp only [ne_eq, ite_not]

/-- Writing the lanes of a list of a register or pair. -/
theorem tgetD_setVLane (wide : Bool) (q l r k : Nat) (v : Dword) (t : Tbl Word) (hl : l < 32) (hk : k < 32) :
    tgetD (setVLane wide q l v t) (r * 32 + k) 0 =
      if k = l ∧ r = q then v.setWidth 32 else if k = l ∧ wide = true ∧ r = q + 1 then v.extractLsb' 32 32
      else tgetD t (r * 32 + k) 0 := by
  cases wide <;> simp only [setVLane, setVWord, tgetD_tset, Bool.false_eq_true, if_false, if_true, false_and, and_false, true_and]
  · by_cases h : k = l ∧ r = q
    · rw [if_pos h, if_pos (by rw [h.1, h.2])]
    · rw [if_neg h, if_neg (by omega)]
  · by_cases h : k = l ∧ r = q
    · rw [if_pos h, if_neg (by omega), if_pos (by rw [h.1, h.2])]
    · by_cases h' : k = l ∧ r = q + 1
      · rw [if_neg h, if_pos h', if_pos (by rw [h'.1, h'.2])]
      · rw [if_neg h, if_neg h', if_neg (by omega), if_neg (by omega)]

theorem tgetD_setVLanes (wide : Bool) (q r k : Nat) (f : Nat → Dword) (ls : List Nat) (hls : ∀ l ∈ ls, l < 32) (t : Tbl Word) (hk : k < 32) :
    tgetD (ls.foldl (fun u l => setVLane wide q l (f l) u) t) (r * 32 + k) 0 =
      if k ∈ ls ∧ r = q then (f k).setWidth 32 else if k ∈ ls ∧ wide = true ∧ r = q + 1 then (f k).extractLsb' 32 32
      else tgetD t (r * 32 + k) 0 := by
  induction ls generalizing t with
  | nil => simp
  | cons l ls ih =>
    rw [List.foldl_cons, ih (fun x hx => hls x (List.mem_cons_of_mem _ hx)), tgetD_setVLane _ _ _ _ _ _ _ (hls l (by simp)) hk]
    by_cases hm : k ∈ ls
    · simp only [hm, true_and, List.mem_cons, or_true]
      by_cases h1 : r = q
      · simp [h1]
      · by_cases h2 : wide = true ∧ r = q + 1
        · simp [h2]
        · simp [h1, h2]
    · simp only [hm, false_and, if_false, List.mem_cons, or_false]
      by_cases h1 : k = l
      · subst h1; rfl
      · simp [h1]

/-- The lanes of a mask are below 32. -/
theorem LaneMask.lanes_lt (m : LaneMask) : ∀ l ∈ m.lanes, l < 32 := by
  intro l hl
  simp only [LaneMask.lanes, List.mem_filter, List.mem_range] at hl
  exact hl.1
theorem LaneMask.mem_lanes (m : LaneMask) (l : Nat) (h : l < 32) : l ∈ m.lanes ↔ m.getLsbD l = true := by
  simp [LaneMask.lanes, h]

/-- The registers after a vector result. -/
theorem Wave.vreg_setVLanes (w : Wave) (m : LaneMask) (wide : Bool) (q : Fin 128) (f : Nat → Dword) (r k : Nat) (hk : k < 32) :
    tgetD (setVLanes wide q.val m f w.vregs) (r * 32 + k) 0 = w.vregAfter m (.reg q) wide f r k := by
  simp only [setVLanes, tgetD_setVLanes _ _ _ _ _ _ (LaneMask.lanes_lt m) _ hk, LaneMask.mem_lanes m k hk, Wave.vregAfter,
    Bool.and_eq_true, beq_iff_eq, and_assoc]
  rfl

/-- A vector result (R22, R23). -/
theorem State.vectorDone_putVMask (s : State) (m : LaneMask) (d : VDst) (wide : Bool) (f : Nat → Dword) (h : s.waveAlive = true) :
    s.vectorDone (s.begun.putVMask m d wide f).finish m d wide f := by
  have hb : s.begun.waveAlive = true := by simpa using h
  cases d with
  | reg q =>
    simp only [State.putVMask]
    generalize hv : LatchVal.vec wide _ = v
    have e := s.curWave_result (fun w => { w with vregs := setVLanes wide q.val m f w.vregs, struck := mendV wide q.val m w.struck }) v h rfl rfl
    have ho := s.onlyCur_result (fun w => { w with vregs := setVLanes wide q.val m f w.vregs, struck := mendV wide q.val m w.struck }) v
    generalize hz : ((s.begun.modCur (fun w => { w with vregs := setVLanes wide q.val m f w.vregs, struck := mendV wide q.val m w.struck })).latchResult v).finish = z at e ho ⊢
    refine ⟨ho, ?_, ?_, ?_, ?_, ?_, State.latchesTake_of _ _ _ ?_⟩
    · rw [State.splitsOn, e]
    · rw [e]
    · rw [e]
    · rw [e]
    · intro r k hk; rw [e]; exact s.curWave.vreg_setVLanes m wide q f r k hk
    · have hx (l) : z.curWave.vlane wide q.val l = (s.begun.modCur (fun w => { w with vregs := setVLanes wide q.val m f w.vregs, struck := mendV wide q.val m w.struck })).curWave.vlane wide q.val l := by
        rw [State.curWave_modCur _ _ hb, s.begun_curWave, e]; rfl
      simp only [hx, hv]; rw [e]
  | nw =>
    simp only [State.putVMask]
    generalize hv : LatchVal.vec wide _ = v
    have e := State.curWave_latchFinish s.begun v hb
    have ho : s.onlyCur (s.begun.latchResult v).finish := State.onlyCur_finish _ _ (State.onlyCur_latchResult _ _ _ s.onlyCur_begun)
    generalize hz : (s.begun.latchResult v).finish = z at e ho ⊢
    rw [s.latchesThen_of s.begun v rfl (by simp) (by rw [s.begun_curWave]), s.begun_curWave] at e
    refine ⟨ho, ?_, ?_, ?_, ?_, ?_, State.latchesTake_of _ _ _ ?_⟩
    · rw [State.splitsOn, e]; rfl
    · rw [e]
    · rw [e]
    · rw [e]
    · intro r k hk; rw [e]; rfl
    · rw [e, hv]

/-- The wave at the next instruction, for one that has no result. -/
theorem State.curWave_finishBegun (s : State) (h : s.waveAlive = true) :
    s.begun.finish.curWave = { s.curWave with
      resumed := false,
      latches := (match s.issue.form with | .quadiner => s.curWave.latches | .bintodal => []),
      splits := tmodify s.curWave.splits s.curWave.issuing (Split.advance s.issue.len) } := by
  rw [State.curWave_finish _ (by simpa using h), s.begun_curWave]; rfl

/-- The latches of an instruction without a result. -/
theorem State.latchesKept_of (s t : State)
    (h : t.curWave.latches = (match s.issue.form with | .quadiner => s.curWave.latches | .bintodal => [])) : s.latchesKept t := by
  simp only [State.latchesKept]
  cases hf : s.issue.form
  · simpa only [hf] using h
  · intro p k; simp only [hf] at h; simp [Wave.latch, h, tgetD, tget?]

/-- A predicate result (R19, R115). -/
theorem State.predDone_putP (s : State) (d : Fin 8) (v : LaneMask) (h : s.waveAlive = true) :
    s.predDone (s.begun.putP d v).finish d v := by
  have hb : s.begun.waveAlive = true := by simpa using h
  simp only [State.putP]
  by_cases hd : d.val = 0
  · rw [if_pos hd]
    have e := s.curWave_finishBegun h
    have ho : s.onlyCur s.begun.finish := State.onlyCur_finish _ _ s.onlyCur_begun
    generalize s.begun.finish = z at e ho ⊢
    refine ⟨ho, ?_, ?_, State.latchesKept_of _ _ ?_, ?_, ?_, ?_⟩
    · rw [State.splitsOn, e]
    · rw [e]
    · rw [e]
    · rw [e]
    · rw [e, if_pos (Or.inl hd)]
    · intro p; rw [if_neg (by omega), e]; rfl
  · rw [if_neg hd]
    have e := State.curWave_finish (s.begun.modCur (fun w => { w with
      preds := tset w.preds d.val ((w.pred d.val &&& ~~~s.begun.activeMask) ||| (v &&& s.begun.activeMask)),
      struck := if s.begun.activeMask = 0 then w.struck else mendP d.val w.struck })) (by simpa using h)
    have ho : s.onlyCur (s.begun.modCur (fun w => { w with
      preds := tset w.preds d.val ((w.pred d.val &&& ~~~s.begun.activeMask) ||| (v &&& s.begun.activeMask)),
      struck := if s.begun.activeMask = 0 then w.struck else mendP d.val w.struck })).finish :=
      State.onlyCur_finish _ _ (State.onlyCur_modCur _ _ _ s.onlyCur_begun)
    rw [State.curWave_modCur _ _ hb, s.begun_curWave] at e
    generalize State.finish _ = z at e ho ⊢
    refine ⟨ho, ?_, ?_, State.latchesKept_of _ _ ?_, ?_, ?_, ?_⟩
    · rw [State.splitsOn, e]; rfl
    · rw [e]
    · rw [e]; rfl
    · rw [e]
    · rw [e]; simp [hd, State.begun_activeMask]
    · intro p; rw [e]
      simp only [Wave.pred, tgetD_tset, State.begun_activeMask]
      by_cases hp : p = 0
      · simp [hp]
      · by_cases hq : p = d.val
        · subst hq; simp [hp]
        · simp [hp, hq]

end Sys2Proof.Machine
end

