-- ==== Sys2Proof/Laws/Issue.lean ====
section
/-! SUPPORT. Every instruction of a wave is issued by `issueOp`: it waits, traps or has its effect in that order. -/

namespace Sys2Proof.Machine

/-- The instruction is issued by `issueOp`, with some effect. -/
def Instr.issued (i : Instr) : Prop := ∃ body : State → State → State, ∀ s, exec i s = issueOp i s (body s)

theorem issued_trapz (d : BitVec 8) (a : BitVec 8) (b : BitVec 8) : Instr.issued (.trapz d a b) := ⟨_, fun s => by rw [exec_trapz]; unfold execTrapz; rfl⟩
theorem issued_nop : Instr.issued .nop := ⟨_, fun s => by rw [exec_nop]; unfold execNop; rfl⟩
theorem issued_adds (d : SDst) (a : SSrc) (b : SSrc) : Instr.issued (.adds d a b) := ⟨_, fun s => by rw [exec_adds]; unfold execAdds scalarBinary; rfl⟩
theorem issued_subs (d : SDst) (a : SSrc) (b : SSrc) : Instr.issued (.subs d a b) := ⟨_, fun s => by rw [exec_subs]; unfold execSubs scalarBinary; rfl⟩
theorem issued_muls (d : SDst) (a : SSrc) (b : SSrc) : Instr.issued (.muls d a b) := ⟨_, fun s => by rw [exec_muls]; unfold execMuls scalarBinary; rfl⟩
theorem issued_mulhs (d : SDst) (a : SSrc) (b : SSrc) : Instr.issued (.mulhs d a b) := ⟨_, fun s => by rw [exec_mulhs]; unfold execMulhs scalarBinary; rfl⟩
theorem issued_divs (d : SDst) (a : SSrc) (b : SSrc) : Instr.issued (.divs d a b) := ⟨_, fun s => by rw [exec_divs]; unfold execDivs scalarBinary; rfl⟩
theorem issued_rems (d : SDst) (a : SSrc) (b : SSrc) : Instr.issued (.rems d a b) := ⟨_, fun s => by rw [exec_rems]; unfold execRems scalarBinary; rfl⟩
theorem issued_ands (d : SDst) (a : SSrc) (b : SSrc) : Instr.issued (.ands d a b) := ⟨_, fun s => by rw [exec_ands]; unfold execAnds scalarBinary; rfl⟩
theorem issued_ors (d : SDst) (a : SSrc) (b : SSrc) : Instr.issued (.ors d a b) := ⟨_, fun s => by rw [exec_ors]; unfold execOrs scalarBinary; rfl⟩
theorem issued_xors (d : SDst) (a : SSrc) (b : SSrc) : Instr.issued (.xors d a b) := ⟨_, fun s => by rw [exec_xors]; unfold execXors scalarBinary; rfl⟩
theorem issued_andns (d : SDst) (a : SSrc) (b : SSrc) : Instr.issued (.andns d a b) := ⟨_, fun s => by rw [exec_andns]; unfold execAndns scalarBinary; rfl⟩
theorem issued_shls (d : SDst) (a : SSrc) (b : SSrc) : Instr.issued (.shls d a b) := ⟨_, fun s => by rw [exec_shls]; unfold execShls scalarBinary; rfl⟩
theorem issued_shrs (d : SDst) (a : SSrc) (b : SSrc) : Instr.issued (.shrs d a b) := ⟨_, fun s => by rw [exec_shrs]; unfold execShrs scalarBinary; rfl⟩
theorem issued_sras (d : SDst) (a : SSrc) (b : SSrc) : Instr.issued (.sras d a b) := ⟨_, fun s => by rw [exec_sras]; unfold execSras scalarBinary; rfl⟩
theorem issued_rols (d : SDst) (a : SSrc) (b : SSrc) : Instr.issued (.rols d a b) := ⟨_, fun s => by rw [exec_rols]; unfold execRols scalarBinary; rfl⟩
theorem issued_mins (d : SDst) (a : SSrc) (b : SSrc) : Instr.issued (.mins d a b) := ⟨_, fun s => by rw [exec_mins]; unfold execMins scalarBinary; rfl⟩
theorem issued_maxs (d : SDst) (a : SSrc) (b : SSrc) : Instr.issued (.maxs d a b) := ⟨_, fun s => by rw [exec_maxs]; unfold execMaxs scalarBinary; rfl⟩
theorem issued_movs (d : SDst) (a : SSrc) : Instr.issued (.movs d a) := ⟨_, fun s => by rw [exec_movs]; unfold execMovs scalarUnary; rfl⟩
theorem issued_nots (d : SDst) (a : SSrc) : Instr.issued (.nots d a) := ⟨_, fun s => by rw [exec_nots]; unfold execNots scalarUnary; rfl⟩
theorem issued_negs (d : SDst) (a : SSrc) : Instr.issued (.negs d a) := ⟨_, fun s => by rw [exec_negs]; unfold execNegs scalarUnary; rfl⟩
theorem issued_clzs (d : SDst) (a : SSrc) : Instr.issued (.clzs d a) := ⟨_, fun s => by rw [exec_clzs]; unfold execClzs scalarUnary; rfl⟩
theorem issued_popcs (d : SDst) (a : SSrc) : Instr.issued (.popcs d a) := ⟨_, fun s => by rw [exec_popcs]; unfold execPopcs scalarUnary; rfl⟩
theorem issued_seqs (d : SDst) (a : SSrc) (b : SSrc) : Instr.issued (.seqs d a b) := ⟨_, fun s => by rw [exec_seqs]; unfold execSeqs scalarBinary; rfl⟩
theorem issued_snes (d : SDst) (a : SSrc) (b : SSrc) : Instr.issued (.snes d a b) := ⟨_, fun s => by rw [exec_snes]; unfold execSnes scalarBinary; rfl⟩
theorem issued_slts (d : SDst) (a : SSrc) (b : SSrc) : Instr.issued (.slts d a b) := ⟨_, fun s => by rw [exec_slts]; unfold execSlts scalarBinary; rfl⟩
theorem issued_sles (d : SDst) (a : SSrc) (b : SSrc) : Instr.issued (.sles d a b) := ⟨_, fun s => by rw [exec_sles]; unfold execSles scalarBinary; rfl⟩
theorem issued_leas (d : SDst) (a : SSrc) (b : SSrc) : Instr.issued (.leas d a b) := ⟨_, fun s => by rw [exec_leas]; unfold execLeas; rfl⟩
theorem issued_bfxs (d : SDst) (a : SSrc) (b : SSrc) : Instr.issued (.bfxs d a b) := ⟨_, fun s => by rw [exec_bfxs]; unfold execBfxs; rfl⟩
theorem issued_br (a : PSel) (b : SSrc) : Instr.issued (.br a b) := ⟨_, fun s => by rw [exec_br]; unfold execBr; rfl⟩
theorem issued_brz (a : SSrc) (b : SSrc) : Instr.issued (.brz a b) := ⟨_, fun s => by rw [exec_brz]; unfold execBrz; rfl⟩
theorem issued_brnz (a : SSrc) (b : SSrc) : Instr.issued (.brnz a b) := ⟨_, fun s => by rw [exec_brnz]; unfold execBrnz; rfl⟩
theorem issued_call (d : SDst) (b : SSrc) : Instr.issued (.call d b) := ⟨_, fun s => by rw [exec_call]; unfold execCall; rfl⟩
theorem issued_ret (a : SSrc) : Instr.issued (.ret a) := ⟨_, fun s => by rw [exec_ret]; unfold execRet; rfl⟩
theorem issued_rejoin (b : SSrc) : Instr.issued (.rejoin b) := ⟨_, fun s => by rw [exec_rejoin]; unfold execRejoin; rfl⟩
theorem issued_exit : Instr.issued .exit := ⟨_, fun s => by rw [exec_exit]; unfold execExit; rfl⟩
theorem issued_yield : Instr.issued .yield := ⟨_, fun s => by rw [exec_yield]; unfold execYield; rfl⟩
theorem issued_plset (a : VSrc) : Instr.issued (.plset a) := ⟨_, fun s => by rw [exec_plset]; unfold execPlset; rfl⟩
theorem issued_plget (d : VDst) : Instr.issued (.plget d) := ⟨_, fun s => by rw [exec_plget]; unfold execPlget; rfl⟩
theorem issued_trap (b : Fin 64) : Instr.issued (.trap b) := ⟨_, fun s => by rw [exec_trap]; unfold execTrap; rfl⟩
theorem issued_brk : Instr.issued .brk := ⟨_, fun s => by rw [exec_brk]; unfold execBrk; rfl⟩
theorem issued_crrd (d : SDst) (b : CReg) : Instr.issued (.crrd d b) := ⟨_, fun s => by rw [exec_crrd]; unfold execCrrd; rfl⟩
theorem issued_setm (b : SSrc) : Instr.issued (.setm b) := ⟨_, fun s => by rw [exec_setm]; unfold execSetm; rfl⟩
theorem issued_setmf (a : ModeField) (b : SSrc) : Instr.issued (.setmf a b) := ⟨_, fun s => by rw [exec_setmf]; unfold execSetmf; rfl⟩
theorem issued_getm (d : SDst) : Instr.issued (.getm d) := ⟨_, fun s => by rw [exec_getm]; unfold execGetm; rfl⟩
theorem issued_pand (d : Fin 8) (a : PSel) (b : PSel) : Instr.issued (.pand d a b) := ⟨_, fun s => by rw [exec_pand]; unfold execPand predBinary; rfl⟩
theorem issued_por (d : Fin 8) (a : PSel) (b : PSel) : Instr.issued (.por d a b) := ⟨_, fun s => by rw [exec_por]; unfold execPor predBinary; rfl⟩
theorem issued_pxor (d : Fin 8) (a : PSel) (b : PSel) : Instr.issued (.pxor d a b) := ⟨_, fun s => by rw [exec_pxor]; unfold execPxor predBinary; rfl⟩
theorem issued_pandn (d : Fin 8) (a : PSel) (b : PSel) : Instr.issued (.pandn d a b) := ⟨_, fun s => by rw [exec_pandn]; unfold execPandn predBinary; rfl⟩
theorem issued_pfroms (d : Fin 8) (a : SSrc) : Instr.issued (.pfroms d a) := ⟨_, fun s => by rw [exec_pfroms]; unfold execPfroms; rfl⟩
theorem issued_ptos (d : SDst) (a : PSel) : Instr.issued (.ptos d a) := ⟨_, fun s => by rw [exec_ptos]; unfold execPtos; rfl⟩
theorem issued_maskrd (d : SDst) : Instr.issued (.maskrd d) := ⟨_, fun s => by rw [exec_maskrd]; unfold execMaskrd; rfl⟩
theorem issued_addv (d : VDst) (a : VSrc) (b : VSrc) : Instr.issued (.addv d a b) := ⟨_, fun s => by rw [exec_addv]; unfold execAddv vecBinary; rfl⟩
theorem issued_subv (d : VDst) (a : VSrc) (b : VSrc) : Instr.issued (.subv d a b) := ⟨_, fun s => by rw [exec_subv]; unfold execSubv vecBinary; rfl⟩
theorem issued_mulv (d : VDst) (a : VSrc) (b : VSrc) : Instr.issued (.mulv d a b) := ⟨_, fun s => by rw [exec_mulv]; unfold execMulv vecBinary; rfl⟩
theorem issued_mulhv (d : VDst) (a : VSrc) (b : VSrc) : Instr.issued (.mulhv d a b) := ⟨_, fun s => by rw [exec_mulhv]; unfold execMulhv vecBinary; rfl⟩
theorem issued_divv (d : VDst) (a : VSrc) (b : VSrc) : Instr.issued (.divv d a b) := ⟨_, fun s => by rw [exec_divv]; unfold execDivv vecBinary; rfl⟩
theorem issued_remv (d : VDst) (a : VSrc) (b : VSrc) : Instr.issued (.remv d a b) := ⟨_, fun s => by rw [exec_remv]; unfold execRemv vecBinary; rfl⟩
theorem issued_minv (d : VDst) (a : VSrc) (b : VSrc) : Instr.issued (.minv d a b) := ⟨_, fun s => by rw [exec_minv]; unfold execMinv vecBinary; rfl⟩
theorem issued_maxv (d : VDst) (a : VSrc) (b : VSrc) : Instr.issued (.maxv d a b) := ⟨_, fun s => by rw [exec_maxv]; unfold execMaxv vecBinary; rfl⟩
theorem issued_absv (d : VDst) (a : VSrc) : Instr.issued (.absv d a) := ⟨_, fun s => by rw [exec_absv]; unfold execAbsv vecUnary; rfl⟩
theorem issued_negv (d : VDst) (a : VSrc) : Instr.issued (.negv d a) := ⟨_, fun s => by rw [exec_negv]; unfold execNegv vecUnary; rfl⟩
theorem issued_madv (d : Fin 128) (a : VSrc) (b : VSrc) : Instr.issued (.madv d a b) := ⟨_, fun s => by rw [exec_madv]; unfold execMadv vecFused; rfl⟩
theorem issued_msubv (d : Fin 128) (a : VSrc) (b : VSrc) : Instr.issued (.msubv d a b) := ⟨_, fun s => by rw [exec_msubv]; unfold execMsubv vecFused; rfl⟩
theorem issued_andv (d : VDst) (a : VSrc) (b : VSrc) : Instr.issued (.andv d a b) := ⟨_, fun s => by rw [exec_andv]; unfold execAndv vecBits; rfl⟩
theorem issued_orv (d : VDst) (a : VSrc) (b : VSrc) : Instr.issued (.orv d a b) := ⟨_, fun s => by rw [exec_orv]; unfold execOrv vecBits; rfl⟩
theorem issued_xorv (d : VDst) (a : VSrc) (b : VSrc) : Instr.issued (.xorv d a b) := ⟨_, fun s => by rw [exec_xorv]; unfold execXorv vecBits; rfl⟩
theorem issued_andnv (d : VDst) (a : VSrc) (b : VSrc) : Instr.issued (.andnv d a b) := ⟨_, fun s => by rw [exec_andnv]; unfold execAndnv vecBits; rfl⟩
theorem issued_notv (d : VDst) (a : VSrc) : Instr.issued (.notv d a) := ⟨_, fun s => by rw [exec_notv]; unfold execNotv vecBits; rfl⟩
theorem issued_shlv (d : VDst) (a : VSrc) (b : VSrc) : Instr.issued (.shlv d a b) := ⟨_, fun s => by rw [exec_shlv]; unfold execShlv vecBinary; rfl⟩
theorem issued_shrv (d : VDst) (a : VSrc) (b : VSrc) : Instr.issued (.shrv d a b) := ⟨_, fun s => by rw [exec_shrv]; unfold execShrv vecBinary; rfl⟩
theorem issued_srav (d : VDst) (a : VSrc) (b : VSrc) : Instr.issued (.srav d a b) := ⟨_, fun s => by rw [exec_srav]; unfold execSrav vecBinary; rfl⟩
theorem issued_rolv (d : VDst) (a : VSrc) (b : VSrc) : Instr.issued (.rolv d a b) := ⟨_, fun s => by rw [exec_rolv]; unfold execRolv vecBinary; rfl⟩
theorem issued_clzv (d : VDst) (a : VSrc) : Instr.issued (.clzv d a) := ⟨_, fun s => by rw [exec_clzv]; unfold execClzv vecUnary; rfl⟩
theorem issued_popcv (d : VDst) (a : VSrc) : Instr.issued (.popcv d a) := ⟨_, fun s => by rw [exec_popcv]; unfold execPopcv vecUnary; rfl⟩
theorem issued_movv (d : VDst) (a : VSrc) : Instr.issued (.movv d a) := ⟨_, fun s => by rw [exec_movv]; unfold execMovv; rfl⟩
theorem issued_bfxv (d : VDst) (a : VSrc) (b : VSrc) : Instr.issued (.bfxv d a b) := ⟨_, fun s => by rw [exec_bfxv]; unfold execBfxv vecBinary; rfl⟩
theorem issued_dot4v (d : Fin 128) (a : VSrc) (b : VSrc) : Instr.issued (.dot4v d a b) := ⟨_, fun s => by rw [exec_dot4v]; unfold execDot4v vecDot; rfl⟩
theorem issued_dot2v (d : Fin 128) (a : VSrc) (b : VSrc) : Instr.issued (.dot2v d a b) := ⟨_, fun s => by rw [exec_dot2v]; unfold execDot2v vecDot; rfl⟩
theorem issued_avgv (d : VDst) (a : VSrc) (b : VSrc) : Instr.issued (.avgv d a b) := ⟨_, fun s => by rw [exec_avgv]; unfold execAvgv vecBinary; rfl⟩
theorem issued_sqrtv (d : VDst) (a : VSrc) : Instr.issued (.sqrtv d a) := ⟨_, fun s => by rw [exec_sqrtv]; unfold execSqrtv floatUnary vecUnary; rfl⟩
theorem issued_rcpv (d : VDst) (a : VSrc) : Instr.issued (.rcpv d a) := ⟨_, fun s => by rw [exec_rcpv]; unfold execRcpv floatUnary vecUnary; rfl⟩
theorem issued_rsqv (d : VDst) (a : VSrc) : Instr.issued (.rsqv d a) := ⟨_, fun s => by rw [exec_rsqv]; unfold execRsqv floatUnary vecUnary; rfl⟩
theorem issued_exp2v (d : VDst) (a : VSrc) : Instr.issued (.exp2v d a) := ⟨_, fun s => by rw [exec_exp2v]; unfold execExp2v floatUnary vecUnary; rfl⟩
theorem issued_log2v (d : VDst) (a : VSrc) : Instr.issued (.log2v d a) := ⟨_, fun s => by rw [exec_log2v]; unfold execLog2v floatUnary vecUnary; rfl⟩
theorem issued_sinv (d : VDst) (a : VSrc) : Instr.issued (.sinv d a) := ⟨_, fun s => by rw [exec_sinv]; unfold execSinv floatUnary vecUnary; rfl⟩
theorem issued_cosv (d : VDst) (a : VSrc) : Instr.issued (.cosv d a) := ⟨_, fun s => by rw [exec_cosv]; unfold execCosv floatUnary vecUnary; rfl⟩
theorem issued_tanhv (d : VDst) (a : VSrc) : Instr.issued (.tanhv d a) := ⟨_, fun s => by rw [exec_tanhv]; unfold execTanhv floatUnary vecUnary; rfl⟩
theorem issued_floorv (d : VDst) (a : VSrc) : Instr.issued (.floorv d a) := ⟨_, fun s => by rw [exec_floorv]; unfold execFloorv floatUnary vecUnary; rfl⟩
theorem issued_ceilv (d : VDst) (a : VSrc) : Instr.issued (.ceilv d a) := ⟨_, fun s => by rw [exec_ceilv]; unfold execCeilv floatUnary vecUnary; rfl⟩
theorem issued_truncv (d : VDst) (a : VSrc) : Instr.issued (.truncv d a) := ⟨_, fun s => by rw [exec_truncv]; unfold execTruncv floatUnary vecUnary; rfl⟩
theorem issued_rintv (d : VDst) (a : VSrc) : Instr.issued (.rintv d a) := ⟨_, fun s => by rw [exec_rintv]; unfold execRintv floatUnary vecUnary; rfl⟩
theorem issued_fracv (d : VDst) (a : VSrc) : Instr.issued (.fracv d a) := ⟨_, fun s => by rw [exec_fracv]; unfold execFracv floatUnary vecUnary; rfl⟩
theorem issued_copysv (d : VDst) (a : VSrc) (b : VSrc) : Instr.issued (.copysv d a b) := ⟨_, fun s => by rw [exec_copysv]; unfold execCopysv; rfl⟩
theorem issued_classv (d : VDst) (a : VSrc) : Instr.issued (.classv d a) := ⟨_, fun s => by rw [exec_classv]; unfold execClassv; rfl⟩
theorem issued_scalbv (d : VDst) (a : VSrc) (b : VSrc) : Instr.issued (.scalbv d a b) := ⟨_, fun s => by rw [exec_scalbv]; unfold execScalbv; rfl⟩
theorem issued_cvtv (d : VDst) (a : VSrc) (b : EType) : Instr.issued (.cvtv d a b) := ⟨_, fun s => by rw [exec_cvtv]; unfold execCvtv; rfl⟩
theorem issued_packsxv (d : VDst) (a : VSrc) (b : SxFmt) : Instr.issued (.packsxv d a b) := ⟨_, fun s => by rw [exec_packsxv]; unfold execPacksxv; rfl⟩
theorem issued_unpksxv (d : VDst) (a : VSrc) (b : SxFmt) : Instr.issued (.unpksxv d a b) := ⟨_, fun s => by rw [exec_unpksxv]; unfold execUnpksxv; rfl⟩
theorem issued_cmpeqv (d : Fin 8) (a : VSrc) (b : VSrc) : Instr.issued (.cmpeqv d a b) := ⟨_, fun s => by rw [exec_cmpeqv]; unfold execCmpeqv vecCompare; rfl⟩
theorem issued_cmpnev (d : Fin 8) (a : VSrc) (b : VSrc) : Instr.issued (.cmpnev d a b) := ⟨_, fun s => by rw [exec_cmpnev]; unfold execCmpnev vecCompare; rfl⟩
theorem issued_cmpltv (d : Fin 8) (a : VSrc) (b : VSrc) : Instr.issued (.cmpltv d a b) := ⟨_, fun s => by rw [exec_cmpltv]; unfold execCmpltv vecCompare; rfl⟩
theorem issued_cmplev (d : Fin 8) (a : VSrc) (b : VSrc) : Instr.issued (.cmplev d a b) := ⟨_, fun s => by rw [exec_cmplev]; unfold execCmplev vecCompare; rfl⟩
theorem issued_cmpgtv (d : Fin 8) (a : VSrc) (b : VSrc) : Instr.issued (.cmpgtv d a b) := ⟨_, fun s => by rw [exec_cmpgtv]; unfold execCmpgtv vecCompare; rfl⟩
theorem issued_cmpgev (d : Fin 8) (a : VSrc) (b : VSrc) : Instr.issued (.cmpgev d a b) := ⟨_, fun s => by rw [exec_cmpgev]; unfold execCmpgev vecCompare; rfl⟩
theorem issued_cmpunv (d : Fin 8) (a : VSrc) (b : VSrc) : Instr.issued (.cmpunv d a b) := ⟨_, fun s => by rw [exec_cmpunv]; unfold execCmpunv vecCompare; rfl⟩
theorem issued_selv (d : VDst) (a : VSrc) (b : VSrc) : Instr.issued (.selv d a b) := ⟨_, fun s => by rw [exec_selv]; unfold execSelv; rfl⟩
theorem issued_shflv (d : VDst) (a : VSrc) (b : VSrc) : Instr.issued (.shflv d a b) := ⟨_, fun s => by rw [exec_shflv]; unfold execShflv vecShuffle; rfl⟩
theorem issued_shupv (d : VDst) (a : VSrc) (b : VSrc) : Instr.issued (.shupv d a b) := ⟨_, fun s => by rw [exec_shupv]; unfold execShupv vecShuffle; rfl⟩
theorem issued_shdnv (d : VDst) (a : VSrc) (b : VSrc) : Instr.issued (.shdnv d a b) := ⟨_, fun s => by rw [exec_shdnv]; unfold execShdnv vecShuffle; rfl⟩
theorem issued_shxrv (d : VDst) (a : VSrc) (b : VSrc) : Instr.issued (.shxrv d a b) := ⟨_, fun s => by rw [exec_shxrv]; unfold execShxrv vecShuffle; rfl⟩
theorem issued_bcastv (d : VDst) (a : VSrc) (b : VSrc) : Instr.issued (.bcastv d a b) := ⟨_, fun s => by rw [exec_bcastv]; unfold execBcastv vecShuffle; rfl⟩
theorem issued_voteall (d : Fin 8) (a : PSel) : Instr.issued (.voteall d a) := ⟨_, fun s => by rw [exec_voteall]; unfold execVoteall; rfl⟩
theorem issued_voteany (d : Fin 8) (a : PSel) : Instr.issued (.voteany d a) := ⟨_, fun s => by rw [exec_voteany]; unfold execVoteany; rfl⟩
theorem issued_ballot (d : SDst) (a : PSel) : Instr.issued (.ballot d a) := ⟨_, fun s => by rw [exec_ballot]; unfold execBallot; rfl⟩
theorem issued_redaddv (d : SDst) (a : VSrc) : Instr.issued (.redaddv d a) := ⟨_, fun s => by rw [exec_redaddv]; unfold execRedaddv vecReduce; rfl⟩
theorem issued_redminv (d : SDst) (a : VSrc) : Instr.issued (.redminv d a) := ⟨_, fun s => by rw [exec_redminv]; unfold execRedminv vecReduce; rfl⟩
theorem issued_redmaxv (d : SDst) (a : VSrc) : Instr.issued (.redmaxv d a) := ⟨_, fun s => by rw [exec_redmaxv]; unfold execRedmaxv vecReduce; rfl⟩
theorem issued_redandv (d : SDst) (a : VSrc) : Instr.issued (.redandv d a) := ⟨_, fun s => by rw [exec_redandv]; unfold execRedandv vecReduce; rfl⟩
theorem issued_redorv (d : SDst) (a : VSrc) : Instr.issued (.redorv d a) := ⟨_, fun s => by rw [exec_redorv]; unfold execRedorv vecReduce; rfl⟩
theorem issued_scanv (d : VDst) (a : VSrc) : Instr.issued (.scanv d a) := ⟨_, fun s => by rw [exec_scanv]; unfold execScanv; rfl⟩
theorem issued_movsv (d : VDst) (a : SSrc) : Instr.issued (.movsv d a) := ⟨_, fun s => by rw [exec_movsv]; unfold execMovsv; rfl⟩
theorem issued_movvs (d : SDst) (a : VSrc) (b : SSrc) : Instr.issued (.movvs d a b) := ⟨_, fun s => by rw [exec_movvs]; unfold execMovvs; rfl⟩
theorem issued_firstl (d : SDst) : Instr.issued (.firstl d) := ⟨_, fun s => by rw [exec_firstl]; unfold execFirstl; rfl⟩
theorem issued_ldv (d : VDst) (a : Fin 64) (b : SSrc) : Instr.issued (.ldv d a b) := ⟨_, fun s => by rw [exec_ldv]; unfold execLdv; rfl⟩
theorem issued_stv (d : Fin 128) (a : Fin 64) (b : SSrc) : Instr.issued (.stv d a b) := ⟨_, fun s => by rw [exec_stv]; unfold execStv; rfl⟩
theorem issued_lds (d : SDst) (a : SSrc) (b : SSrc) : Instr.issued (.lds d a b) := ⟨_, fun s => by rw [exec_lds]; unfold execLds; rfl⟩
theorem issued_sts (d : Fin 64) (a : SSrc) (b : SSrc) : Instr.issued (.sts d a b) := ⟨_, fun s => by rw [exec_sts]; unfold execSts; rfl⟩
theorem issued_ldvb (d : VDst) (a : SSrc) (b : SSrc) : Instr.issued (.ldvb d a b) := ⟨_, fun s => by rw [exec_ldvb]; unfold execLdvb; rfl⟩
theorem issued_stvb (d : Fin 128) (a : SSrc) (b : SSrc) : Instr.issued (.stvb d a b) := ⟨_, fun s => by rw [exec_stvb]; unfold execStvb; rfl⟩
theorem issued_pref (a : SSrc) (b : SSrc) : Instr.issued (.pref a b) := ⟨_, fun s => by rw [exec_pref]; unfold execPref; rfl⟩
theorem issued_aadd (d : VDst) (a : Fin 64) (b : VSrc) : Instr.issued (.aadd d a b) := ⟨_, fun s => by rw [exec_aadd]; unfold execAadd vecAtomic; rfl⟩
theorem issued_amin (d : VDst) (a : Fin 64) (b : VSrc) : Instr.issued (.amin d a b) := ⟨_, fun s => by rw [exec_amin]; unfold execAmin vecAtomic; rfl⟩
theorem issued_amax (d : VDst) (a : Fin 64) (b : VSrc) : Instr.issued (.amax d a b) := ⟨_, fun s => by rw [exec_amax]; unfold execAmax vecAtomic; rfl⟩
theorem issued_aand (d : VDst) (a : Fin 64) (b : VSrc) : Instr.issued (.aand d a b) := ⟨_, fun s => by rw [exec_aand]; unfold execAand vecAtomic; rfl⟩
theorem issued_aor (d : VDst) (a : Fin 64) (b : VSrc) : Instr.issued (.aor d a b) := ⟨_, fun s => by rw [exec_aor]; unfold execAor vecAtomic; rfl⟩
theorem issued_axor (d : VDst) (a : Fin 64) (b : VSrc) : Instr.issued (.axor d a b) := ⟨_, fun s => by rw [exec_axor]; unfold execAxor vecAtomic; rfl⟩
theorem issued_axchg (d : VDst) (a : Fin 64) (b : VSrc) : Instr.issued (.axchg d a b) := ⟨_, fun s => by rw [exec_axchg]; unfold execAxchg vecAtomic; rfl⟩
theorem issued_aincw (d : VDst) (a : Fin 64) (b : VSrc) : Instr.issued (.aincw d a b) := ⟨_, fun s => by rw [exec_aincw]; unfold execAincw vecAtomic; rfl⟩
theorem issued_adecw (d : VDst) (a : Fin 64) (b : VSrc) : Instr.issued (.adecw d a b) := ⟨_, fun s => by rw [exec_adecw]; unfold execAdecw vecAtomic; rfl⟩
theorem issued_cas (d : Fin 128) (a : Fin 64) (b : VSrc) : Instr.issued (.cas d a b) := ⟨_, fun s => by rw [exec_cas]; unfold execCas vecAtomic; rfl⟩
theorem issued_cas128 (d : Fin 32) (a : Fin 64) (b : Fin 32) : Instr.issued (.cas128 d a b) := ⟨_, fun s => by rw [exec_cas128]; unfold execCas128; rfl⟩
theorem issued_aadds (d : SDst) (a : SSrc) (b : SSrc) : Instr.issued (.aadds d a b) := ⟨_, fun s => by rw [exec_aadds]; unfold execAadds scalarAtomic; rfl⟩
theorem issued_cass (d : Fin 64) (a : SSrc) (b : SSrc) : Instr.issued (.cass d a b) := ⟨_, fun s => by rw [exec_cass]; unfold execCass scalarAtomic; rfl⟩
theorem issued_fence (b : FenceOp) : Instr.issued (.fence b) := ⟨_, fun s => by rw [exec_fence]; unfold execFence; rfl⟩
theorem issued_waita (d : Space) (a : SSrc) (b : SSrc) : Instr.issued (.waita d a b) := ⟨_, fun s => by rw [exec_waita]; unfold execWaita; rfl⟩
theorem issued_drain (b : Scope) : Instr.issued (.drain b) := ⟨_, fun s => by rw [exec_drain]; unfold execDrain; rfl⟩
theorem issued_rdadd (a : Fin 64) (b : VSrc) : Instr.issued (.rdadd a b) := ⟨_, fun s => by rw [exec_rdadd]; unfold execRdadd vecReduction; rfl⟩
theorem issued_rdmin (a : Fin 64) (b : VSrc) : Instr.issued (.rdmin a b) := ⟨_, fun s => by rw [exec_rdmin]; unfold execRdmin vecReduction; rfl⟩
theorem issued_rdmax (a : Fin 64) (b : VSrc) : Instr.issued (.rdmax a b) := ⟨_, fun s => by rw [exec_rdmax]; unfold execRdmax vecReduction; rfl⟩
theorem issued_rdand (a : Fin 64) (b : VSrc) : Instr.issued (.rdand a b) := ⟨_, fun s => by rw [exec_rdand]; unfold execRdand vecReduction; rfl⟩
theorem issued_rdor (a : Fin 64) (b : VSrc) : Instr.issued (.rdor a b) := ⟨_, fun s => by rw [exec_rdor]; unfold execRdor vecReduction; rfl⟩
theorem issued_rdxor (a : Fin 64) (b : VSrc) : Instr.issued (.rdxor a b) := ⟨_, fun s => by rw [exec_rdxor]; unfold execRdxor vecReduction; rfl⟩
theorem issued_ldp (d : VDst) (a : VSrc) (b : SSrc) : Instr.issued (.ldp d a b) := ⟨_, fun s => by rw [exec_ldp]; unfold execLdp spadLoad; rfl⟩
theorem issued_stp (d : Fin 128) (a : VSrc) (b : SSrc) : Instr.issued (.stp d a b) := ⟨_, fun s => by rw [exec_stp]; unfold execStp spadStore; rfl⟩
theorem issued_ldc (d : VDst) (a : VSrc) (b : SSrc) : Instr.issued (.ldc d a b) := ⟨_, fun s => by rw [exec_ldc]; unfold execLdc spadLoad; rfl⟩
theorem issued_stc (d : Fin 128) (a : VSrc) (b : SSrc) : Instr.issued (.stc d a b) := ⟨_, fun s => by rw [exec_stc]; unfold execStc spadStore; rfl⟩
theorem issued_ldk (d : VDst) (a : VSrc) (b : SSrc) : Instr.issued (.ldk d a b) := ⟨_, fun s => by rw [exec_ldk]; unfold execLdk spadLoad; rfl⟩
theorem issued_stk (d : Fin 128) (a : VSrc) (b : SSrc) : Instr.issued (.stk d a b) := ⟨_, fun s => by rw [exec_stk]; unfold execStk spadStore; rfl⟩
theorem issued_ldl (d : VDst) (a : VSrc) (b : SSrc) : Instr.issued (.ldl d a b) := ⟨_, fun s => by rw [exec_ldl]; unfold execLdl spadLoad; rfl⟩
theorem issued_stl (d : Fin 128) (a : VSrc) (b : SSrc) : Instr.issued (.stl d a b) := ⟨_, fun s => by rw [exec_stl]; unfold execStl spadStore; rfl⟩
theorem issued_aaddc (d : VDst) (a : VSrc) (b : VSrc) : Instr.issued (.aaddc d a b) := ⟨_, fun s => by rw [exec_aaddc]; unfold execAaddc clusterAtomic; rfl⟩
theorem issued_casc (d : Fin 128) (a : VSrc) (b : VSrc) : Instr.issued (.casc d a b) := ⟨_, fun s => by rw [exec_casc]; unfold execCasc clusterAtomic; rfl⟩
theorem issued_townGive (a : SSrc) (b : SSrc) : Instr.issued (.townGive a b) := ⟨_, fun s => by rw [exec_townGive]; unfold execTownGive; rfl⟩
theorem issued_townTake (a : SSrc) (b : SSrc) : Instr.issued (.townTake a b) := ⟨_, fun s => by rw [exec_townTake]; unfold execTownTake; rfl⟩
theorem issued_twait (d : SDst) (a : SSrc) (b : SSrc) : Instr.issued (.twait d a b) := ⟨_, fun s => by rw [exec_twait]; unfold execTwait; rfl⟩
theorem issued_barv (d : SDst) (a : SSrc) : Instr.issued (.barv d a) := ⟨_, fun s => by rw [exec_barv]; unfold execBarv; rfl⟩
theorem issued_barw (a : SSrc) (b : SSrc) : Instr.issued (.barw a b) := ⟨_, fun s => by rw [exec_barw]; unfold execBarw; rfl⟩
theorem issued_ldps (d : SDst) (a : SSrc) (b : SSrc) : Instr.issued (.ldps d a b) := ⟨_, fun s => by rw [exec_ldps]; unfold execLdps; rfl⟩
theorem issued_stps (d : Fin 64) (a : SSrc) (b : SSrc) : Instr.issued (.stps d a b) := ⟨_, fun s => by rw [exec_stps]; unfold execStps; rfl⟩
theorem issued_mma (d : Fin 8) (a : SSrc) (b : Fin 16) : Instr.issued (.mma d a b) := ⟨_, fun s => by rw [exec_mma]; unfold execMma mxIssue; rfl⟩
theorem issued_mmz (d : Fin 8) : Instr.issued (.mmz d) := ⟨_, fun s => by rw [exec_mmz]; unfold execMmz mxIssue; rfl⟩
theorem issued_mmd (d : Fin 8) (a : SSrc) (b : Bool) : Instr.issued (.mmd d a b) := ⟨_, fun s => by rw [exec_mmd]; unfold execMmd mxIssue; rfl⟩
theorem issued_wload (d : Fin 16) (a : SSrc) (b : Fin 80) : Instr.issued (.wload d a b) := ⟨_, fun s => by rw [exec_wload]; unfold execWload mxIssue; rfl⟩
theorem issued_mmsync : Instr.issued .mmsync := ⟨_, fun s => by rw [exec_mmsync]; unfold execMmsync; rfl⟩
theorem issued_wbind (d : Fin 16) (a : SSrc) : Instr.issued (.wbind d a) := ⟨_, fun s => by rw [exec_wbind]; unfold execWbind; rfl⟩
theorem issued_wtouch (b : Fin 16) : Instr.issued (.wtouch b) := ⟨_, fun s => by rw [exec_wtouch]; unfold execWtouch; rfl⟩
theorem issued_wunbind (b : Fin 16) : Instr.issued (.wunbind b) := ⟨_, fun s => by rw [exec_wunbind]; unfold execWunbind; rfl⟩
theorem issued_gather (a : SSrc) : Instr.issued (.gather a) := ⟨_, fun s => by rw [exec_gather]; unfold execGather; rfl⟩
theorem issued_spawn (a : SSrc) (b : SSrc) : Instr.issued (.spawn a b) := ⟨_, fun s => by rw [exec_spawn]; unfold execSpawn; rfl⟩
theorem issued_dcinit (d : Fin 64) (a : SSrc) (b : SSrc) : Instr.issued (.dcinit d a b) := ⟨_, fun s => by rw [exec_dcinit]; unfold execDcinit; rfl⟩
theorem issued_dctake (d : SDst) (a : SSrc) (b : SSrc) : Instr.issued (.dctake d a b) := ⟨_, fun s => by rw [exec_dctake]; unfold execDctake; rfl⟩
theorem issued_dcgive (d : SDst) (a : SSrc) (b : SSrc) : Instr.issued (.dcgive d a b) := ⟨_, fun s => by rw [exec_dcgive]; unfold execDcgive; rfl⟩
theorem issued_dcread (d : Fin 32) (a : SSrc) : Instr.issued (.dcread d a) := ⟨_, fun s => by rw [exec_dcread]; unfold execDcread; rfl⟩
theorem issued_dcreadx (d : SDst) (a : SSrc) : Instr.issued (.dcreadx d a) := ⟨_, fun s => by rw [exec_dcreadx]; unfold execDcreadx; rfl⟩
theorem issued_dcdrop (d : SDst) (a : SSrc) : Instr.issued (.dcdrop d a) := ⟨_, fun s => by rw [exec_dcdrop]; unfold execDcdrop; rfl⟩
theorem issued_objdecl (d : SDst) (a : SSrc) : Instr.issued (.objdecl d a) := ⟨_, fun s => by rw [exec_objdecl]; unfold execObjdecl; rfl⟩
theorem issued_objdrop (a : SSrc) : Instr.issued (.objdrop a) := ⟨_, fun s => by rw [exec_objdrop]; unfold execObjdrop; rfl⟩
theorem issued_wstat (d : SDst) (b : Fin 16) : Instr.issued (.wstat d b) := ⟨_, fun s => by rw [exec_wstat]; unfold execWstat; rfl⟩
theorem issued_crwr (a : CReg) (b : SSrc) : Instr.issued (.crwr a b) := ⟨_, fun s => by rw [exec_crwr]; unfold execCrwr; rfl⟩
theorem issued_carve (d : SDst) (a : SSrc) : Instr.issued (.carve d a) := ⟨_, fun s => by rw [exec_carve]; unfold execCarve; rfl⟩
theorem issued_tret : Instr.issued .tret := ⟨_, fun s => by rw [exec_tret]; unfold execTret; rfl⟩
theorem issued_tlbinv (a : SSrc) (b : Bool) : Instr.issued (.tlbinv a b) := ⟨_, fun s => by rw [exec_tlbinv]; unfold execTlbinv; rfl⟩
theorem issued_icinv (a : SSrc) (b : Bool) : Instr.issued (.icinv a b) := ⟨_, fun s => by rw [exec_icinv]; unfold execIcinv; rfl⟩

/-- An instruction with operands is issued by `issueOp`, whatever its effect. -/
theorem exec_eq_issueOp (i : Instr) (h : i.operands.isSome = true) : Instr.issued i := by
  cases i
  case trapz => exact issued_trapz _ _ _
  case nop => exact issued_nop
  case adds => exact issued_adds _ _ _
  case subs => exact issued_subs _ _ _
  case muls => exact issued_muls _ _ _
  case mulhs => exact issued_mulhs _ _ _
  case divs => exact issued_divs _ _ _
  case rems => exact issued_rems _ _ _
  case ands => exact issued_ands _ _ _
  case ors => exact issued_ors _ _ _
  case xors => exact issued_xors _ _ _
  case andns => exact issued_andns _ _ _
  case shls => exact issued_shls _ _ _
  case shrs => exact issued_shrs _ _ _
  case sras => exact issued_sras _ _ _
  case rols => exact issued_rols _ _ _
  case mins => exact issued_mins _ _ _
  case maxs => exact issued_maxs _ _ _
  case movs => exact issued_movs _ _
  case nots => exact issued_nots _ _
  case negs => exact issued_negs _ _
  case clzs => exact issued_clzs _ _
  case popcs => exact issued_popcs _ _
  case seqs => exact issued_seqs _ _ _
  case snes => exact issued_snes _ _ _
  case slts => exact issued_slts _ _ _
  case sles => exact issued_sles _ _ _
  case leas => exact issued_leas _ _ _
  case bfxs => exact issued_bfxs _ _ _
  case br => exact issued_br _ _
  case brz => exact issued_brz _ _
  case brnz => exact issued_brnz _ _
  case call => exact issued_call _ _
  case ret => exact issued_ret _
  case rejoin => exact issued_rejoin _
  case exit => exact issued_exit
  case yield => exact issued_yield
  case plset => exact issued_plset _
  case plget => exact issued_plget _
  case trap => exact issued_trap _
  case brk => exact issued_brk
  case crrd => exact issued_crrd _ _
  case setm => exact issued_setm _
  case setmf => exact issued_setmf _ _
  case getm => exact issued_getm _
  case pand => exact issued_pand _ _ _
  case por => exact issued_por _ _ _
  case pxor => exact issued_pxor _ _ _
  case pandn => exact issued_pandn _ _ _
  case pfroms => exact issued_pfroms _ _
  case ptos => exact issued_ptos _ _
  case maskrd => exact issued_maskrd _
  case addv => exact issued_addv _ _ _
  case subv => exact issued_subv _ _ _
  case mulv => exact issued_mulv _ _ _
  case mulhv => exact issued_mulhv _ _ _
  case divv => exact issued_divv _ _ _
  case remv => exact issued_remv _ _ _
  case minv => exact issued_minv _ _ _
  case maxv => exact issued_maxv _ _ _
  case absv => exact issued_absv _ _
  case negv => exact issued_negv _ _
  case madv => exact issued_madv _ _ _
  case msubv => exact issued_msubv _ _ _
  case andv => exact issued_andv _ _ _
  case orv => exact issued_orv _ _ _
  case xorv => exact issued_xorv _ _ _
  case andnv => exact issued_andnv _ _ _
  case notv => exact issued_notv _ _
  case shlv => exact issued_shlv _ _ _
  case shrv => exact issued_shrv _ _ _
  case srav => exact issued_srav _ _ _
  case rolv => exact issued_rolv _ _ _
  case clzv => exact issued_clzv _ _
  case popcv => exact issued_popcv _ _
  case movv => exact issued_movv _ _
  case bfxv => exact issued_bfxv _ _ _
  case dot4v => exact issued_dot4v _ _ _
  case dot2v => exact issued_dot2v _ _ _
  case avgv => exact issued_avgv _ _ _
  case sqrtv => exact issued_sqrtv _ _
  case rcpv => exact issued_rcpv _ _
  case rsqv => exact issued_rsqv _ _
  case exp2v => exact issued_exp2v _ _
  case log2v => exact issued_log2v _ _
  case sinv => exact issued_sinv _ _
  case cosv => exact issued_cosv _ _
  case tanhv => exact issued_tanhv _ _
  case floorv => exact issued_floorv _ _
  case ceilv => exact issued_ceilv _ _
  case truncv => exact issued_truncv _ _
  case rintv => exact issued_rintv _ _
  case fracv => exact issued_fracv _ _
  case copysv => exact issued_copysv _ _ _
  case classv => exact issued_classv _ _
  case scalbv => exact issued_scalbv _ _ _
  case cvtv => exact issued_cvtv _ _ _
  case packsxv => exact issued_packsxv _ _ _
  case unpksxv => exact issued_unpksxv _ _ _
  case cmpeqv => exact issued_cmpeqv _ _ _
  case cmpnev => exact issued_cmpnev _ _ _
  case cmpltv => exact issued_cmpltv _ _ _
  case cmplev => exact issued_cmplev _ _ _
  case cmpgtv => exact issued_cmpgtv _ _ _
  case cmpgev => exact issued_cmpgev _ _ _
  case cmpunv => exact issued_cmpunv _ _ _
  case selv => exact issued_selv _ _ _
  case shflv => exact issued_shflv _ _ _
  case shupv => exact issued_shupv _ _ _
  case shdnv => exact issued_shdnv _ _ _
  case shxrv => exact issued_shxrv _ _ _
  case bcastv => exact issued_bcastv _ _ _
  case voteall => exact issued_voteall _ _
  case voteany => exact issued_voteany _ _
  case ballot => exact issued_ballot _ _
  case redaddv => exact issued_redaddv _ _
  case redminv => exact issued_redminv _ _
  case redmaxv => exact issued_redmaxv _ _
  case redandv => exact issued_redandv _ _
  case redorv => exact issued_redorv _ _
  case scanv => exact issued_scanv _ _
  case movsv => exact issued_movsv _ _
  case movvs => exact issued_movvs _ _ _
  case firstl => exact issued_firstl _
  case ldv => exact issued_ldv _ _ _
  case stv => exact issued_stv _ _ _
  case lds => exact issued_lds _ _ _
  case sts => exact issued_sts _ _ _
  case ldvb => exact issued_ldvb _ _ _
  case stvb => exact issued_stvb _ _ _
  case pref => exact issued_pref _ _
  case aadd => exact issued_aadd _ _ _
  case amin => exact issued_amin _ _ _
  case amax => exact issued_amax _ _ _
  case aand => exact issued_aand _ _ _
  case aor => exact issued_aor _ _ _
  case axor => exact issued_axor _ _ _
  case axchg => exact issued_axchg _ _ _
  case aincw => exact issued_aincw _ _ _
  case adecw => exact issued_adecw _ _ _
  case cas => exact issued_cas _ _ _
  case cas128 => exact issued_cas128 _ _ _
  case aadds => exact issued_aadds _ _ _
  case cass => exact issued_cass _ _ _
  case fence => exact issued_fence _
  case waita => exact issued_waita _ _ _
  case drain => exact issued_drain _
  case rdadd => exact issued_rdadd _ _
  case rdmin => exact issued_rdmin _ _
  case rdmax => exact issued_rdmax _ _
  case rdand => exact issued_rdand _ _
  case rdor => exact issued_rdor _ _
  case rdxor => exact issued_rdxor _ _
  case ldp => exact issued_ldp _ _ _
  case stp => exact issued_stp _ _ _
  case ldc => exact issued_ldc _ _ _
  case stc => exact issued_stc _ _ _
  case ldk => exact issued_ldk _ _ _
  case stk => exact issued_stk _ _ _
  case ldl => exact issued_ldl _ _ _
  case stl => exact issued_stl _ _ _
  case aaddc => exact issued_aaddc _ _ _
  case casc => exact issued_casc _ _ _
  case townGive => exact issued_townGive _ _
  case townTake => exact issued_townTake _ _
  case twait => exact issued_twait _ _ _
  case barv => exact issued_barv _ _
  case barw => exact issued_barw _ _
  case ldps => exact issued_ldps _ _ _
  case stps => exact issued_stps _ _ _
  case mma => exact issued_mma _ _ _
  case mmz => exact issued_mmz _
  case mmd => exact issued_mmd _ _ _
  case wload => exact issued_wload _ _ _
  case mmsync => exact issued_mmsync
  case wbind => exact issued_wbind _ _
  case wtouch => exact issued_wtouch _
  case wunbind => exact issued_wunbind _
  case gather => exact issued_gather _
  case spawn => exact issued_spawn _ _
  case dcinit => exact issued_dcinit _ _ _
  case dctake => exact issued_dctake _ _ _
  case dcgive => exact issued_dcgive _ _ _
  case dcread => exact issued_dcread _ _
  case dcreadx => exact issued_dcreadx _ _
  case dcdrop => exact issued_dcdrop _ _
  case objdecl => exact issued_objdecl _ _
  case objdrop => exact issued_objdrop _
  case wstat => exact issued_wstat _ _
  case crwr => exact issued_crwr _ _
  case carve => exact issued_carve _ _
  case tret => exact issued_tret
  case tlbinv => exact issued_tlbinv _ _
  case icinv => exact issued_icinv _ _
  all_goals exact absurd h (by simp [Instr.operands])

end Sys2Proof.Machine
end

