-- ==== Sys2Proof/Laws/KeepsLocal.lean ====
section
/-! SUPPORT. The memory keeps its canonical form, operation by operation: the shared operations of a core and the instructions that use no memory. -/

namespace Sys2Proof.Machine

theorem State.modLaunch_wf (s : State) (l : Nat) (f : Launch → Launch) (hs : s.memCanonical) :
    (State.modLaunch s l f).memCanonical := by
  unfold State.modLaunch
  repeat' first
    | with_reducible assumption
    | with_reducible apply foldl_wf
    | intro _
    | split
    | (refine State.wf_of_mem _ ?_; dsimp only; refine State.mem_of_wf _ ?_)

theorem State.abandonLaunch_wf (s : State) (k : Nat) (hs : s.memCanonical) :
    (State.abandonLaunch s k).memCanonical := by
  unfold State.abandonLaunch
  repeat' first
    | with_reducible assumption
    | with_reducible apply State.modLaunch_wf

theorem State.modCore_wf (s : State) (c : Nat) (f : Core → Core) (hs : s.memCanonical) :
    (State.modCore s c f).memCanonical := by
  unfold State.modCore
  repeat' first
    | with_reducible assumption
    | with_reducible apply foldl_wf
    | intro _
    | split
    | (refine State.wf_of_mem _ ?_; dsimp only; refine State.mem_of_wf _ ?_)

theorem State.modCluster_wf (s : State) (g : Nat) (f : Cluster → Cluster) (hs : s.memCanonical) :
    (State.modCluster s g f).memCanonical := by
  unfold State.modCluster
  repeat' first
    | with_reducible assumption
    | with_reducible apply foldl_wf
    | intro _
    | split
    | (refine State.wf_of_mem _ ?_; dsimp only; refine State.mem_of_wf _ ?_)

theorem State.modWave_wf (s : State) (w : Nat) (f : Wave → Wave) (hs : s.memCanonical) :
    (State.modWave s w f).memCanonical := by
  unfold State.modWave
  repeat' first
    | with_reducible assumption
    | with_reducible apply foldl_wf
    | intro _
    | split
    | (refine State.wf_of_mem _ ?_; dsimp only; refine State.mem_of_wf _ ?_)

theorem State.memWrite_wf (s : State) (pa : Nat) (bs : List Byte) (hs : s.memCanonical) : (s.memWrite pa bs).memCanonical :=
  memPut_wf _ _ _ hs

theorem State.modCtx_wf (s : State) (c : Nat) (f : Context → Context) (hs : s.memCanonical) :
    (State.modCtx s c f).memCanonical := by
  unfold State.modCtx
  repeat' first
    | with_reducible assumption
    | with_reducible apply foldl_wf
    | intro _
    | split
    | (refine State.wf_of_mem _ ?_; dsimp only; refine State.mem_of_wf _ ?_)

theorem State.logDry_wf (s : State) (die : Nat) (kind : Nat) (store : Nat) (unit : Nat) (detail : Nat) (addr : Nat) (hs : s.memCanonical) :
    (State.logDry s die kind store unit detail addr).memCanonical := by
  unfold State.logDry
  repeat' first
    | with_reducible assumption
    | with_reducible apply foldl_wf
    | intro _
    | split
    | (refine State.wf_of_mem _ ?_; dsimp only; refine State.mem_of_wf _ ?_)

theorem State.reportFatal_wf (s : State) (w : Wave) (t : TrapInfo) (resume : Dword) (hs : s.memCanonical) :
    (State.reportFatal s w t resume).memCanonical := by
  unfold State.reportFatal
  repeat' first
    | with_reducible assumption
    | with_reducible apply State.memWrite_wf
    | with_reducible apply State.modCtx_wf
    | with_reducible apply State.logDry_wf
    | with_reducible apply foldl_wf
    | intro _
    | split
    | (refine State.wf_of_mem _ ?_; dsimp only; refine State.mem_of_wf _ ?_)

theorem State.failLaunch_wf (s : State) (l : Option Nat) (hs : s.memCanonical) :
    (State.failLaunch s l).memCanonical := by
  unfold State.failLaunch
  repeat' first
    | with_reducible assumption
    | with_reducible apply State.abandonLaunch_wf
    | with_reducible apply foldl_wf
    | intro _
    | split

theorem State.dropCarve_wf (s : State) (wid : Nat) (hs : s.memCanonical) :
    (State.dropCarve s wid).memCanonical := by
  unfold State.dropCarve
  repeat' first
    | with_reducible assumption
    | with_reducible apply State.modCtx_wf

theorem State.fatalTrap_wf (s : State) (wid : Nat) (t : TrapInfo) (resume : Dword) (hs : s.memCanonical) :
    (State.fatalTrap s wid t resume).memCanonical := by
  unfold State.fatalTrap
  repeat' first
    | with_reducible assumption
    | with_reducible apply State.reportFatal_wf
    | with_reducible apply State.failLaunch_wf
    | with_reducible apply State.dropCarve_wf
    | with_reducible apply State.modWave_wf
    | with_reducible apply foldl_wf
    | intro _

theorem State.trapWave_wf (s : State) (wid : Nat) (t : TrapInfo) (resume : Dword) (hs : s.memCanonical) :
    (State.trapWave s wid t resume).memCanonical := by
  unfold State.trapWave
  repeat' first
    | with_reducible assumption
    | with_reducible apply State.logDry_wf
    | with_reducible apply State.fatalTrap_wf
    | with_reducible apply State.modWave_wf
    | with_reducible apply foldl_wf
    | intro _
    | split
    | (refine State.wf_of_mem _ ?_; dsimp only; refine State.mem_of_wf _ ?_)

theorem State.trapHere_wf (s : State) (t : TrapInfo) (hs : s.memCanonical) :
    (State.trapHere s t).memCanonical := by
  unfold State.trapHere
  repeat' first
    | with_reducible assumption
    | with_reducible apply State.trapWave_wf

theorem State.modBlock_wf (s : State) (b : Nat) (f : Block → Block) (hs : s.memCanonical) :
    (State.modBlock s b f).memCanonical := by
  unfold State.modBlock
  repeat' first
    | with_reducible assumption
    | with_reducible apply foldl_wf
    | intro _
    | split
    | (refine State.wf_of_mem _ ?_; dsimp only; refine State.mem_of_wf _ ?_)

theorem State.markTaken_wf (s : State) (t : TrapInfo) (hs : s.memCanonical) :
    (State.markTaken s t).memCanonical := by
  unfold State.markTaken
  repeat' first
    | with_reducible assumption
    | with_reducible apply State.modBlock_wf
    | with_reducible apply State.modCluster_wf
    | with_reducible apply foldl_wf
    | intro _
    | split

theorem State.modCur_wf (s : State) (f : Wave → Wave) (hs : s.memCanonical) :
    (State.modCur s f).memCanonical := by
  unfold State.modCur
  repeat' first
    | with_reducible assumption
    | with_reducible apply State.modWave_wf

theorem State.withdrawOp_wf (s : State) (op : Nat) (d : DecantOp) (hs : s.memCanonical) :
    (State.withdrawOp s op d).memCanonical := by
  unfold State.withdrawOp
  repeat' first
    | with_reducible assumption
    | with_reducible apply State.modCluster_wf
    | with_reducible apply foldl_wf
    | intro _
    | split
    | (refine State.wf_of_mem _ ?_; dsimp only; refine State.mem_of_wf _ ?_)

theorem State.withdrawObject_wf (s : State) (n : Nat) (gen : Nat) (hs : s.memCanonical) :
    (State.withdrawObject s n gen).memCanonical := by
  unfold State.withdrawObject
  repeat' first
    | with_reducible assumption
    | with_reducible apply foldl_wf
    | intro _
    | split
    | (refine State.wf_of_mem _ ?_; dsimp only; refine State.mem_of_wf _ ?_)

theorem State.withdraw_wf (s : State) (hs : s.memCanonical) :
    (State.withdraw s).memCanonical := by
  unfold State.withdraw
  repeat' first
    | with_reducible assumption
    | with_reducible apply State.withdrawOp_wf
    | with_reducible apply State.withdrawObject_wf
    | with_reducible apply foldl_wf
    | intro _
    | split

theorem State.trapDeferred_wf (s : State) (t : TrapInfo) (hs : s.memCanonical) :
    (State.trapDeferred s t).memCanonical := by
  unfold State.trapDeferred
  repeat' first
    | with_reducible assumption
    | with_reducible apply State.trapHere_wf
    | with_reducible apply State.markTaken_wf
    | with_reducible apply State.modCur_wf
    | with_reducible apply State.withdraw_wf

theorem State.modSplit_wf (s : State) (f : Split → Split) (hs : s.memCanonical) :
    (State.modSplit s f).memCanonical := by
  unfold State.modSplit
  repeat' first
    | with_reducible assumption
    | with_reducible apply State.modCur_wf

theorem State.stall_wf (s : State) (k : Wait) (hs : s.memCanonical) :
    (State.stall s k).memCanonical := by
  unfold State.stall
  repeat' first
    | with_reducible assumption
    | with_reducible apply State.modSplit_wf

theorem State.enterFunction_wf (s : State) (wid : Nat) (pos : Dword) (hs : s.memCanonical) :
    (State.enterFunction s wid pos).memCanonical := by
  unfold State.enterFunction
  repeat' first
    | with_reducible assumption
    | with_reducible apply State.modWave_wf
    | with_reducible apply foldl_wf
    | intro _
    | split
    | (refine State.wf_of_mem _ ?_; dsimp only; refine State.mem_of_wf _ ?_)

theorem State.passCur_wf (s : State) (hs : s.memCanonical) :
    (State.passCur s).memCanonical := by
  unfold State.passCur
  repeat' first
    | with_reducible assumption
    | with_reducible apply State.modCur_wf

theorem State.bintodalLatches_wf (s : State) (hs : s.memCanonical) :
    (State.bintodalLatches s).memCanonical := by
  unfold State.bintodalLatches
  repeat' first
    | with_reducible assumption
    | with_reducible apply State.modCur_wf
    | with_reducible apply foldl_wf
    | intro _
    | split

theorem State.finish_wf (s : State) (hs : s.memCanonical) :
    (State.finish s).memCanonical := by
  unfold State.finish
  repeat' first
    | with_reducible assumption
    | with_reducible apply State.modSplit_wf
    | with_reducible apply State.bintodalLatches_wf

theorem State.finishYield_wf (s : State) (hs : s.memCanonical) :
    (State.finishYield s).memCanonical := by
  unfold State.finishYield
  repeat' first
    | with_reducible assumption
    | with_reducible apply State.passCur_wf
    | with_reducible apply State.finish_wf
    | with_reducible apply State.modSplit_wf
    | with_reducible apply foldl_wf
    | intro _
    | split

theorem State.sleepYield_wf (s : State) (k : Wait) (hs : s.memCanonical) :
    (State.sleepYield s k).memCanonical := by
  unfold State.sleepYield
  repeat' first
    | with_reducible assumption
    | with_reducible apply State.passCur_wf
    | with_reducible apply State.modSplit_wf

theorem State.begun_wf (s : State) (hs : s.memCanonical) :
    (State.begun s).memCanonical := by
  unfold State.begun
  repeat' first
    | with_reducible assumption
    | with_reducible apply State.modCur_wf

theorem State.cacheXlate_wf (s : State) (core : Nat) (ctx : Nat) (va : Dword) (hs : s.memCanonical) :
    (State.cacheXlate s core ctx va).memCanonical := by
  unfold State.cacheXlate
  repeat' first
    | with_reducible assumption
    | with_reducible apply State.modCore_wf
    | with_reducible apply foldl_wf
    | intro _
    | split

theorem State.latchResult_wf (s : State) (v : LatchVal) (hs : s.memCanonical) :
    (State.latchResult s v).memCanonical := by
  unfold State.latchResult
  repeat' first
    | with_reducible assumption
    | with_reducible apply State.modCur_wf
    | with_reducible apply foldl_wf
    | intro _
    | split

theorem State.putS_wf (s : State) (d : SDst) (v : Dword) (hs : s.memCanonical) :
    (State.putS s d v).memCanonical := by
  unfold State.putS
  repeat' first
    | with_reducible assumption
    | with_reducible apply State.latchResult_wf
    | with_reducible apply State.modCur_wf
    | with_reducible apply foldl_wf
    | intro _
    | split

theorem issueOp_wf (i : Instr) (s : State) (body : State → State) (hs : s.memCanonical) (hbody : ∀ (y0 : State), y0.memCanonical → (body y0).memCanonical) :
    KeepsMem (issueOp i s body) := by
  unfold issueOp
  repeat' first
    | with_reducible assumption
    | with_reducible apply hbody
    | with_reducible apply State.trapDeferred_wf
    | with_reducible apply State.trapHere_wf
    | with_reducible apply State.modCur_wf
    | with_reducible apply foldl_wf
    | with_reducible apply next_wf
    | with_reducible apply fault_wf
    | with_reducible apply refused_wf
    | intro _
    | split

theorem execTrapz_wf (d : BitVec 8) (a : BitVec 8) (b : BitVec 8) (s : State) (hs : s.memCanonical) :
    KeepsMem (execTrapz d a b s) := by
  unfold execTrapz
  repeat' first
    | with_reducible assumption
    | with_reducible apply issueOp_wf
    | with_reducible apply State.trapHere_wf
    | with_reducible apply foldl_wf
    | with_reducible apply next_wf
    | with_reducible apply fault_wf
    | with_reducible apply refused_wf
    | intro _

theorem execNop_wf (s : State) (hs : s.memCanonical) :
    KeepsMem (execNop s) := by
  unfold execNop
  repeat' first
    | with_reducible assumption
    | with_reducible apply issueOp_wf
    | with_reducible apply State.finish_wf

theorem State.scalarFit_wf (s : State) (d : SDst) (saturates : Bool) (r : Int) (hs : s.memCanonical) :
    (State.scalarFit s d saturates r).memCanonical := by
  unfold State.scalarFit
  repeat' first
    | with_reducible assumption
    | with_reducible apply State.finish_wf
    | with_reducible apply State.putS_wf

theorem scalarBinary_wf (i : Instr) (d : SDst) (a : SSrc) (b : SSrc) (saturates : Bool) (f : EType → Int → Int → Int) (s : State) (hs : s.memCanonical) :
    KeepsMem (scalarBinary i d a b saturates f s) := by
  unfold scalarBinary
  repeat' first
    | with_reducible assumption
    | with_reducible apply issueOp_wf
    | with_reducible apply State.scalarFit_wf
    | with_reducible apply foldl_wf
    | with_reducible apply next_wf
    | with_reducible apply fault_wf
    | with_reducible apply refused_wf
    | intro _

theorem execAdds_wf (d : SDst) (a : SSrc) (b : SSrc) (s : State) (hs : s.memCanonical) :
    KeepsMem (execAdds d a b s) := by
  unfold execAdds
  repeat' first
    | with_reducible assumption
    | with_reducible apply scalarBinary_wf

theorem execSubs_wf (d : SDst) (a : SSrc) (b : SSrc) (s : State) (hs : s.memCanonical) :
    KeepsMem (execSubs d a b s) := by
  unfold execSubs
  repeat' first
    | with_reducible assumption
    | with_reducible apply scalarBinary_wf

theorem execMuls_wf (d : SDst) (a : SSrc) (b : SSrc) (s : State) (hs : s.memCanonical) :
    KeepsMem (execMuls d a b s) := by
  unfold execMuls
  repeat' first
    | with_reducible assumption
    | with_reducible apply scalarBinary_wf

theorem execMulhs_wf (d : SDst) (a : SSrc) (b : SSrc) (s : State) (hs : s.memCanonical) :
    KeepsMem (execMulhs d a b s) := by
  unfold execMulhs
  repeat' first
    | with_reducible assumption
    | with_reducible apply scalarBinary_wf

theorem execDivs_wf (d : SDst) (a : SSrc) (b : SSrc) (s : State) (hs : s.memCanonical) :
    KeepsMem (execDivs d a b s) := by
  unfold execDivs
  repeat' first
    | with_reducible assumption
    | with_reducible apply scalarBinary_wf

theorem execRems_wf (d : SDst) (a : SSrc) (b : SSrc) (s : State) (hs : s.memCanonical) :
    KeepsMem (execRems d a b s) := by
  unfold execRems
  repeat' first
    | with_reducible assumption
    | with_reducible apply scalarBinary_wf

theorem execAnds_wf (d : SDst) (a : SSrc) (b : SSrc) (s : State) (hs : s.memCanonical) :
    KeepsMem (execAnds d a b s) := by
  unfold execAnds
  repeat' first
    | with_reducible assumption
    | with_reducible apply scalarBinary_wf

theorem execOrs_wf (d : SDst) (a : SSrc) (b : SSrc) (s : State) (hs : s.memCanonical) :
    KeepsMem (execOrs d a b s) := by
  unfold execOrs
  repeat' first
    | with_reducible assumption
    | with_reducible apply scalarBinary_wf

theorem execXors_wf (d : SDst) (a : SSrc) (b : SSrc) (s : State) (hs : s.memCanonical) :
    KeepsMem (execXors d a b s) := by
  unfold execXors
  repeat' first
    | with_reducible assumption
    | with_reducible apply scalarBinary_wf

theorem execAndns_wf (d : SDst) (a : SSrc) (b : SSrc) (s : State) (hs : s.memCanonical) :
    KeepsMem (execAndns d a b s) := by
  unfold execAndns
  repeat' first
    | with_reducible assumption
    | with_reducible apply scalarBinary_wf

theorem execShls_wf (d : SDst) (a : SSrc) (b : SSrc) (s : State) (hs : s.memCanonical) :
    KeepsMem (execShls d a b s) := by
  unfold execShls
  repeat' first
    | with_reducible assumption
    | with_reducible apply scalarBinary_wf

theorem execShrs_wf (d : SDst) (a : SSrc) (b : SSrc) (s : State) (hs : s.memCanonical) :
    KeepsMem (execShrs d a b s) := by
  unfold execShrs
  repeat' first
    | with_reducible assumption
    | with_reducible apply scalarBinary_wf

theorem execSras_wf (d : SDst) (a : SSrc) (b : SSrc) (s : State) (hs : s.memCanonical) :
    KeepsMem (execSras d a b s) := by
  unfold execSras
  repeat' first
    | with_reducible assumption
    | with_reducible apply scalarBinary_wf

theorem execRols_wf (d : SDst) (a : SSrc) (b : SSrc) (s : State) (hs : s.memCanonical) :
    KeepsMem (execRols d a b s) := by
  unfold execRols
  repeat' first
    | with_reducible assumption
    | with_reducible apply scalarBinary_wf

theorem execMins_wf (d : SDst) (a : SSrc) (b : SSrc) (s : State) (hs : s.memCanonical) :
    KeepsMem (execMins d a b s) := by
  unfold execMins
  repeat' first
    | with_reducible assumption
    | with_reducible apply scalarBinary_wf

theorem execMaxs_wf (d : SDst) (a : SSrc) (b : SSrc) (s : State) (hs : s.memCanonical) :
    KeepsMem (execMaxs d a b s) := by
  unfold execMaxs
  repeat' first
    | with_reducible assumption
    | with_reducible apply scalarBinary_wf

theorem scalarUnary_wf (i : Instr) (d : SDst) (a : SSrc) (saturates : Bool) (f : EType → Int → Int) (s : State) (hs : s.memCanonical) :
    KeepsMem (scalarUnary i d a saturates f s) := by
  unfold scalarUnary
  repeat' first
    | with_reducible assumption
    | with_reducible apply issueOp_wf
    | with_reducible apply State.scalarFit_wf
    | with_reducible apply foldl_wf
    | with_reducible apply next_wf
    | with_reducible apply fault_wf
    | with_reducible apply refused_wf
    | intro _

theorem execMovs_wf (d : SDst) (a : SSrc) (s : State) (hs : s.memCanonical) :
    KeepsMem (execMovs d a s) := by
  unfold execMovs
  repeat' first
    | with_reducible assumption
    | with_reducible apply scalarUnary_wf

theorem execNots_wf (d : SDst) (a : SSrc) (s : State) (hs : s.memCanonical) :
    KeepsMem (execNots d a s) := by
  unfold execNots
  repeat' first
    | with_reducible assumption
    | with_reducible apply scalarUnary_wf

theorem execNegs_wf (d : SDst) (a : SSrc) (s : State) (hs : s.memCanonical) :
    KeepsMem (execNegs d a s) := by
  unfold execNegs
  repeat' first
    | with_reducible assumption
    | with_reducible apply scalarUnary_wf

theorem execClzs_wf (d : SDst) (a : SSrc) (s : State) (hs : s.memCanonical) :
    KeepsMem (execClzs d a s) := by
  unfold execClzs
  repeat' first
    | with_reducible assumption
    | with_reducible apply scalarUnary_wf

theorem execPopcs_wf (d : SDst) (a : SSrc) (s : State) (hs : s.memCanonical) :
    KeepsMem (execPopcs d a s) := by
  unfold execPopcs
  repeat' first
    | with_reducible assumption
    | with_reducible apply scalarUnary_wf

theorem execSeqs_wf (d : SDst) (a : SSrc) (b : SSrc) (s : State) (hs : s.memCanonical) :
    KeepsMem (execSeqs d a b s) := by
  unfold execSeqs
  repeat' first
    | with_reducible assumption
    | with_reducible apply scalarBinary_wf

theorem execSnes_wf (d : SDst) (a : SSrc) (b : SSrc) (s : State) (hs : s.memCanonical) :
    KeepsMem (execSnes d a b s) := by
  unfold execSnes
  repeat' first
    | with_reducible assumption
    | with_reducible apply scalarBinary_wf

theorem execSlts_wf (d : SDst) (a : SSrc) (b : SSrc) (s : State) (hs : s.memCanonical) :
    KeepsMem (execSlts d a b s) := by
  unfold execSlts
  repeat' first
    | with_reducible assumption
    | with_reducible apply scalarBinary_wf

theorem execSles_wf (d : SDst) (a : SSrc) (b : SSrc) (s : State) (hs : s.memCanonical) :
    KeepsMem (execSles d a b s) := by
  unfold execSles
  repeat' first
    | with_reducible assumption
    | with_reducible apply scalarBinary_wf

theorem execLeas_wf (d : SDst) (a : SSrc) (b : SSrc) (s : State) (hs : s.memCanonical) :
    KeepsMem (execLeas d a b s) := by
  unfold execLeas
  repeat' first
    | with_reducible assumption
    | with_reducible apply issueOp_wf
    | with_reducible apply State.finish_wf
    | with_reducible apply State.putS_wf
    | with_reducible apply foldl_wf
    | with_reducible apply next_wf
    | with_reducible apply fault_wf
    | with_reducible apply refused_wf
    | intro _

theorem execBfxs_wf (d : SDst) (a : SSrc) (b : SSrc) (s : State) (hs : s.memCanonical) :
    KeepsMem (execBfxs d a b s) := by
  unfold execBfxs
  repeat' first
    | with_reducible assumption
    | with_reducible apply issueOp_wf
    | with_reducible apply State.scalarFit_wf
    | with_reducible apply foldl_wf
    | with_reducible apply next_wf
    | with_reducible apply fault_wf
    | with_reducible apply refused_wf
    | intro _

theorem State.safeBackEdge_wf (s : State) (pc : Dword) (target : Dword) (hs : s.memCanonical) :
    (State.safeBackEdge s pc target).memCanonical := by
  unfold State.safeBackEdge
  repeat' first
    | with_reducible assumption
    | with_reducible apply State.modSplit_wf
    | with_reducible apply foldl_wf
    | intro _
    | split
    | (refine State.wf_of_mem _ ?_; dsimp only; refine State.mem_of_wf _ ?_)

theorem State.transferTo_wf (s : State) (taken : LaneMask) (dest : Except Nat Dword) (call : Bool) (link : State → State) (hs : s.memCanonical) (hlink : ∀ (y0 : State), y0.memCanonical → (link y0).memCanonical) :
    (State.transferTo s taken dest call link).memCanonical := by
  unfold State.transferTo
  repeat' first
    | with_reducible assumption
    | with_reducible apply hlink
    | with_reducible apply State.finish_wf
    | with_reducible apply State.trapHere_wf
    | with_reducible apply State.bintodalLatches_wf
    | with_reducible apply State.modCur_wf
    | with_reducible apply State.safeBackEdge_wf
    | with_reducible apply State.enterFunction_wf
    | with_reducible apply foldl_wf
    | intro _
    | split

theorem State.transfer_wf (s : State) (taken : LaneMask) (x : SSrc) (call : Bool) (link : State → State) (hs : s.memCanonical) (hlink : ∀ (y0 : State), y0.memCanonical → (link y0).memCanonical) :
    (State.transfer s taken x call link).memCanonical := by
  unfold State.transfer
  repeat' first
    | with_reducible assumption
    | with_reducible apply hlink
    | with_reducible apply State.transferTo_wf

theorem execBr_wf (a : PSel) (b : SSrc) (s : State) (hs : s.memCanonical) :
    KeepsMem (execBr a b s) := by
  unfold execBr
  repeat' first
    | with_reducible assumption
    | with_reducible apply issueOp_wf
    | with_reducible apply State.transfer_wf
    | with_reducible apply foldl_wf
    | with_reducible apply next_wf
    | with_reducible apply fault_wf
    | with_reducible apply refused_wf
    | intro _

theorem execBrz_wf (a : SSrc) (b : SSrc) (s : State) (hs : s.memCanonical) :
    KeepsMem (execBrz a b s) := by
  unfold execBrz
  repeat' first
    | with_reducible assumption
    | with_reducible apply issueOp_wf
    | with_reducible apply State.transfer_wf
    | with_reducible apply foldl_wf
    | with_reducible apply next_wf
    | with_reducible apply fault_wf
    | with_reducible apply refused_wf
    | intro _

theorem execBrnz_wf (a : SSrc) (b : SSrc) (s : State) (hs : s.memCanonical) :
    KeepsMem (execBrnz a b s) := by
  unfold execBrnz
  repeat' first
    | with_reducible assumption
    | with_reducible apply issueOp_wf
    | with_reducible apply State.transfer_wf
    | with_reducible apply foldl_wf
    | with_reducible apply next_wf
    | with_reducible apply fault_wf
    | with_reducible apply refused_wf
    | intro _

theorem execCall_wf (d : SDst) (b : SSrc) (s : State) (hs : s.memCanonical) :
    KeepsMem (execCall d b s) := by
  unfold execCall
  repeat' first
    | with_reducible assumption
    | with_reducible apply issueOp_wf
    | with_reducible apply State.transfer_wf
    | with_reducible apply State.putS_wf
    | with_reducible apply foldl_wf
    | with_reducible apply next_wf
    | with_reducible apply fault_wf
    | with_reducible apply refused_wf
    | intro _

theorem execRet_wf (a : SSrc) (s : State) (hs : s.memCanonical) :
    KeepsMem (execRet a s) := by
  unfold execRet
  repeat' first
    | with_reducible assumption
    | with_reducible apply issueOp_wf
    | with_reducible apply State.transferTo_wf
    | with_reducible apply foldl_wf
    | with_reducible apply next_wf
    | with_reducible apply fault_wf
    | with_reducible apply refused_wf
    | intro _

theorem execRejoin_wf (b : SSrc) (s : State) (hs : s.memCanonical) :
    KeepsMem (execRejoin b s) := by
  unfold execRejoin
  repeat' first
    | with_reducible assumption
    | with_reducible apply issueOp_wf
    | with_reducible apply State.finish_wf
    | with_reducible apply State.stall_wf
    | with_reducible apply State.trapHere_wf
    | with_reducible apply State.passCur_wf
    | with_reducible apply State.bintodalLatches_wf
    | with_reducible apply foldl_wf
    | with_reducible apply next_wf
    | with_reducible apply fault_wf
    | with_reducible apply refused_wf
    | intro _
    | split
    | (refine of_next ?_ (by with_reducible assumption))
    | (refine State.wf_of_mem _ ?_; dsimp only; refine State.mem_of_wf _ ?_)

theorem State.leaveEmpty_wf (s : State) (hs : s.memCanonical) :
    (State.leaveEmpty s).memCanonical := by
  unfold State.leaveEmpty
  repeat' first
    | with_reducible assumption
    | with_reducible apply State.modCur_wf
    | with_reducible apply foldl_wf
    | intro _
    | split

theorem execExit_wf (s : State) (hs : s.memCanonical) :
    KeepsMem (execExit s) := by
  unfold execExit
  repeat' first
    | with_reducible assumption
    | with_reducible apply issueOp_wf
    | with_reducible apply State.fatalTrap_wf
    | with_reducible apply State.modCur_wf
    | with_reducible apply State.stall_wf
    | with_reducible apply State.finish_wf
    | with_reducible apply State.leaveEmpty_wf
    | with_reducible apply foldl_wf
    | with_reducible apply next_wf
    | with_reducible apply fault_wf
    | with_reducible apply refused_wf
    | intro _
    | split
    | (refine of_next ?_ (by with_reducible assumption))
    | (refine State.wf_of_mem _ ?_; dsimp only; refine State.mem_of_wf _ ?_)

theorem execYield_wf (s : State) (hs : s.memCanonical) :
    KeepsMem (execYield s) := by
  unfold execYield
  repeat' first
    | with_reducible assumption
    | with_reducible apply issueOp_wf
    | with_reducible apply State.finishYield_wf

theorem execPlset_wf (a : VSrc) (s : State) (hs : s.memCanonical) :
    KeepsMem (execPlset a s) := by
  unfold execPlset
  repeat' first
    | with_reducible assumption
    | with_reducible apply issueOp_wf
    | with_reducible apply State.finish_wf
    | with_reducible apply State.modCur_wf
    | with_reducible apply foldl_wf
    | with_reducible apply next_wf
    | with_reducible apply fault_wf
    | with_reducible apply refused_wf
    | intro _

theorem State.putVMask_wf (s : State) (m : LaneMask) (d : VDst) (wide : Bool) (f : Nat → Dword) (hs : s.memCanonical) :
    (State.putVMask s m d wide f).memCanonical := by
  unfold State.putVMask
  repeat' first
    | with_reducible assumption
    | with_reducible apply State.modCur_wf
    | with_reducible apply State.latchResult_wf
    | with_reducible apply foldl_wf
    | intro _
    | split

theorem State.putV_wf (s : State) (d : VDst) (wide : Bool) (f : Nat → Dword) (hs : s.memCanonical) :
    (State.putV s d wide f).memCanonical := by
  unfold State.putV
  repeat' first
    | with_reducible assumption
    | with_reducible apply State.putVMask_wf

theorem execPlget_wf (d : VDst) (s : State) (hs : s.memCanonical) :
    KeepsMem (execPlget d s) := by
  unfold execPlget
  repeat' first
    | with_reducible assumption
    | with_reducible apply issueOp_wf
    | with_reducible apply State.finish_wf
    | with_reducible apply State.putV_wf
    | with_reducible apply foldl_wf
    | with_reducible apply next_wf
    | with_reducible apply fault_wf
    | with_reducible apply refused_wf
    | intro _

theorem State.trapNext_wf (s : State) (t : TrapInfo) (hs : s.memCanonical) :
    (State.trapNext s t).memCanonical := by
  unfold State.trapNext
  repeat' first
    | with_reducible assumption
    | with_reducible apply State.trapWave_wf

theorem execTrap_wf (b : Fin 64) (s : State) (hs : s.memCanonical) :
    KeepsMem (execTrap b s) := by
  unfold execTrap
  repeat' first
    | with_reducible assumption
    | with_reducible apply issueOp_wf
    | with_reducible apply State.finish_wf
    | with_reducible apply State.trapNext_wf
    | with_reducible apply foldl_wf
    | with_reducible apply next_wf
    | with_reducible apply fault_wf
    | with_reducible apply refused_wf
    | intro _
    | split

theorem execBrk_wf (s : State) (hs : s.memCanonical) :
    KeepsMem (execBrk s) := by
  unfold execBrk
  repeat' first
    | with_reducible assumption
    | with_reducible apply issueOp_wf
    | with_reducible apply State.finish_wf
    | with_reducible apply State.trapNext_wf
    | with_reducible apply foldl_wf
    | with_reducible apply next_wf
    | with_reducible apply fault_wf
    | with_reducible apply refused_wf
    | intro _
    | split

theorem execCrrd_wf (d : SDst) (b : CReg) (s : State) (hs : s.memCanonical) :
    KeepsMem (execCrrd d b s) := by
  unfold execCrrd
  repeat' first
    | with_reducible assumption
    | with_reducible apply issueOp_wf
    | with_reducible apply State.finish_wf
    | with_reducible apply State.putS_wf
    | with_reducible apply foldl_wf
    | with_reducible apply next_wf
    | with_reducible apply fault_wf
    | with_reducible apply refused_wf
    | intro _

theorem State.setMode_wf (s : State) (m : Half) (hs : s.memCanonical) :
    (State.setMode s m).memCanonical := by
  unfold State.setMode
  repeat' first
    | with_reducible assumption
    | with_reducible apply State.modCur_wf
    | with_reducible apply foldl_wf
    | intro _
    | split

theorem execSetm_wf (b : SSrc) (s : State) (hs : s.memCanonical) :
    KeepsMem (execSetm b s) := by
  unfold execSetm
  repeat' first
    | with_reducible assumption
    | with_reducible apply issueOp_wf
    | with_reducible apply State.finish_wf
    | with_reducible apply State.setMode_wf
    | with_reducible apply foldl_wf
    | with_reducible apply next_wf
    | with_reducible apply fault_wf
    | with_reducible apply refused_wf
    | intro _

theorem execSetmf_wf (a : ModeField) (b : SSrc) (s : State) (hs : s.memCanonical) :
    KeepsMem (execSetmf a b s) := by
  unfold execSetmf
  repeat' first
    | with_reducible assumption
    | with_reducible apply issueOp_wf
    | with_reducible apply State.finish_wf
    | with_reducible apply State.setMode_wf
    | with_reducible apply foldl_wf
    | with_reducible apply next_wf
    | with_reducible apply fault_wf
    | with_reducible apply refused_wf
    | intro _

theorem execGetm_wf (d : SDst) (s : State) (hs : s.memCanonical) :
    KeepsMem (execGetm d s) := by
  unfold execGetm
  repeat' first
    | with_reducible assumption
    | with_reducible apply issueOp_wf
    | with_reducible apply State.finish_wf
    | with_reducible apply State.putS_wf
    | with_reducible apply foldl_wf
    | with_reducible apply next_wf
    | with_reducible apply fault_wf
    | with_reducible apply refused_wf
    | intro _

theorem State.putP_wf (s : State) (p : Fin 8) (v : LaneMask) (hs : s.memCanonical) :
    (State.putP s p v).memCanonical := by
  unfold State.putP
  repeat' first
    | with_reducible assumption
    | with_reducible apply State.modCur_wf
    | with_reducible apply foldl_wf
    | intro _
    | split

theorem predBinary_wf (i : Instr) (d : Fin 8) (a : PSel) (b : PSel) (f : LaneMask → LaneMask → LaneMask) (s : State) (hs : s.memCanonical) :
    KeepsMem (predBinary i d a b f s) := by
  unfold predBinary
  repeat' first
    | with_reducible assumption
    | with_reducible apply issueOp_wf
    | with_reducible apply State.finish_wf
    | with_reducible apply State.putP_wf
    | with_reducible apply foldl_wf
    | with_reducible apply next_wf
    | with_reducible apply fault_wf
    | with_reducible apply refused_wf
    | intro _

theorem execPand_wf (d : Fin 8) (a : PSel) (b : PSel) (s : State) (hs : s.memCanonical) :
    KeepsMem (execPand d a b s) := by
  unfold execPand
  repeat' first
    | with_reducible assumption
    | with_reducible apply predBinary_wf

theorem execPor_wf (d : Fin 8) (a : PSel) (b : PSel) (s : State) (hs : s.memCanonical) :
    KeepsMem (execPor d a b s) := by
  unfold execPor
  repeat' first
    | with_reducible assumption
    | with_reducible apply predBinary_wf

theorem execPxor_wf (d : Fin 8) (a : PSel) (b : PSel) (s : State) (hs : s.memCanonical) :
    KeepsMem (execPxor d a b s) := by
  unfold execPxor
  repeat' first
    | with_reducible assumption
    | with_reducible apply predBinary_wf

theorem execPandn_wf (d : Fin 8) (a : PSel) (b : PSel) (s : State) (hs : s.memCanonical) :
    KeepsMem (execPandn d a b s) := by
  unfold execPandn
  repeat' first
    | with_reducible assumption
    | with_reducible apply predBinary_wf

theorem execPfroms_wf (d : Fin 8) (a : SSrc) (s : State) (hs : s.memCanonical) :
    KeepsMem (execPfroms d a s) := by
  unfold execPfroms
  repeat' first
    | with_reducible assumption
    | with_reducible apply issueOp_wf
    | with_reducible apply State.finish_wf
    | with_reducible apply State.putP_wf
    | with_reducible apply foldl_wf
    | with_reducible apply next_wf
    | with_reducible apply fault_wf
    | with_reducible apply refused_wf
    | intro _

theorem execPtos_wf (d : SDst) (a : PSel) (s : State) (hs : s.memCanonical) :
    KeepsMem (execPtos d a s) := by
  unfold execPtos
  repeat' first
    | with_reducible assumption
    | with_reducible apply issueOp_wf
    | with_reducible apply State.finish_wf
    | with_reducible apply State.putS_wf
    | with_reducible apply foldl_wf
    | with_reducible apply next_wf
    | with_reducible apply fault_wf
    | with_reducible apply refused_wf
    | intro _

theorem execMaskrd_wf (d : SDst) (s : State) (hs : s.memCanonical) :
    KeepsMem (execMaskrd d s) := by
  unfold execMaskrd
  repeat' first
    | with_reducible assumption
    | with_reducible apply issueOp_wf
    | with_reducible apply State.finish_wf
    | with_reducible apply State.putS_wf
    | with_reducible apply foldl_wf
    | with_reducible apply next_wf
    | with_reducible apply fault_wf
    | with_reducible apply refused_wf
    | intro _

theorem State.putElems_wf (s : State) (d : VDst) (t : EType) (f : Nat → Nat → Nat) (hs : s.memCanonical) :
    (State.putElems s d t f).memCanonical := by
  unfold State.putElems
  repeat' first
    | with_reducible assumption
    | with_reducible apply State.finish_wf
    | with_reducible apply State.putV_wf

theorem vecBinary_wf (i : Instr) (d : VDst) (a : VSrc) (b : VSrc) (saturates : Bool) (fi : EType → Int → Int → Int) (ff : RMode → FVal → FVal → FVal × Bool) (s : State) (hs : s.memCanonical) :
    KeepsMem (vecBinary i d a b saturates fi ff s) := by
  unfold vecBinary
  repeat' first
    | with_reducible assumption
    | with_reducible apply issueOp_wf
    | with_reducible apply State.putElems_wf
    | with_reducible apply foldl_wf
    | with_reducible apply next_wf
    | with_reducible apply fault_wf
    | with_reducible apply refused_wf
    | intro _

theorem execAddv_wf (d : VDst) (a : VSrc) (b : VSrc) (s : State) (hs : s.memCanonical) :
    KeepsMem (execAddv d a b s) := by
  unfold execAddv
  repeat' first
    | with_reducible assumption
    | with_reducible apply vecBinary_wf

theorem execSubv_wf (d : VDst) (a : VSrc) (b : VSrc) (s : State) (hs : s.memCanonical) :
    KeepsMem (execSubv d a b s) := by
  unfold execSubv
  repeat' first
    | with_reducible assumption
    | with_reducible apply vecBinary_wf

theorem execMulv_wf (d : VDst) (a : VSrc) (b : VSrc) (s : State) (hs : s.memCanonical) :
    KeepsMem (execMulv d a b s) := by
  unfold execMulv
  repeat' first
    | with_reducible assumption
    | with_reducible apply vecBinary_wf

theorem execMulhv_wf (d : VDst) (a : VSrc) (b : VSrc) (s : State) (hs : s.memCanonical) :
    KeepsMem (execMulhv d a b s) := by
  unfold execMulhv
  repeat' first
    | with_reducible assumption
    | with_reducible apply vecBinary_wf

theorem execDivv_wf (d : VDst) (a : VSrc) (b : VSrc) (s : State) (hs : s.memCanonical) :
    KeepsMem (execDivv d a b s) := by
  unfold execDivv
  repeat' first
    | with_reducible assumption
    | with_reducible apply vecBinary_wf

theorem execRemv_wf (d : VDst) (a : VSrc) (b : VSrc) (s : State) (hs : s.memCanonical) :
    KeepsMem (execRemv d a b s) := by
  unfold execRemv
  repeat' first
    | with_reducible assumption
    | with_reducible apply vecBinary_wf

theorem execMinv_wf (d : VDst) (a : VSrc) (b : VSrc) (s : State) (hs : s.memCanonical) :
    KeepsMem (execMinv d a b s) := by
  unfold execMinv
  repeat' first
    | with_reducible assumption
    | with_reducible apply vecBinary_wf

theorem execMaxv_wf (d : VDst) (a : VSrc) (b : VSrc) (s : State) (hs : s.memCanonical) :
    KeepsMem (execMaxv d a b s) := by
  unfold execMaxv
  repeat' first
    | with_reducible assumption
    | with_reducible apply vecBinary_wf

theorem vecUnary_wf (i : Instr) (d : VDst) (a : VSrc) (saturates : Bool) (fi : EType → Int → Int) (ff : RMode → FVal → FVal × Bool) (s : State) (hs : s.memCanonical) :
    KeepsMem (vecUnary i d a saturates fi ff s) := by
  unfold vecUnary
  repeat' first
    | with_reducible assumption
    | with_reducible apply issueOp_wf
    | with_reducible apply State.putElems_wf
    | with_reducible apply foldl_wf
    | with_reducible apply next_wf
    | with_reducible apply fault_wf
    | with_reducible apply refused_wf
    | intro _

theorem execAbsv_wf (d : VDst) (a : VSrc) (s : State) (hs : s.memCanonical) :
    KeepsMem (execAbsv d a s) := by
  unfold execAbsv
  repeat' first
    | with_reducible assumption
    | with_reducible apply vecUnary_wf

theorem execNegv_wf (d : VDst) (a : VSrc) (s : State) (hs : s.memCanonical) :
    KeepsMem (execNegv d a s) := by
  unfold execNegv
  repeat' first
    | with_reducible assumption
    | with_reducible apply vecUnary_wf

theorem vecFused_wf (i : Instr) (d : Fin 128) (a : VSrc) (b : VSrc) (sub : Bool) (s : State) (hs : s.memCanonical) :
    KeepsMem (vecFused i d a b sub s) := by
  unfold vecFused
  repeat' first
    | with_reducible assumption
    | with_reducible apply issueOp_wf
    | with_reducible apply State.putElems_wf
    | with_reducible apply foldl_wf
    | with_reducible apply next_wf
    | with_reducible apply fault_wf
    | with_reducible apply refused_wf
    | intro _

theorem execMadv_wf (d : Fin 128) (a : VSrc) (b : VSrc) (s : State) (hs : s.memCanonical) :
    KeepsMem (execMadv d a b s) := by
  unfold execMadv
  repeat' first
    | with_reducible assumption
    | with_reducible apply vecFused_wf

theorem execMsubv_wf (d : Fin 128) (a : VSrc) (b : VSrc) (s : State) (hs : s.memCanonical) :
    KeepsMem (execMsubv d a b s) := by
  unfold execMsubv
  repeat' first
    | with_reducible assumption
    | with_reducible apply vecFused_wf

theorem vecBits_wf (i : Instr) (d : VDst) (a : VSrc) (b : VSrc) (g : EType → Nat → Nat → Nat) (s : State) (hs : s.memCanonical) :
    KeepsMem (vecBits i d a b g s) := by
  unfold vecBits
  repeat' first
    | with_reducible assumption
    | with_reducible apply issueOp_wf
    | with_reducible apply State.putElems_wf
    | with_reducible apply foldl_wf
    | with_reducible apply next_wf
    | with_reducible apply fault_wf
    | with_reducible apply refused_wf
    | intro _

theorem execAndv_wf (d : VDst) (a : VSrc) (b : VSrc) (s : State) (hs : s.memCanonical) :
    KeepsMem (execAndv d a b s) := by
  unfold execAndv
  repeat' first
    | with_reducible assumption
    | with_reducible apply vecBits_wf

theorem execOrv_wf (d : VDst) (a : VSrc) (b : VSrc) (s : State) (hs : s.memCanonical) :
    KeepsMem (execOrv d a b s) := by
  unfold execOrv
  repeat' first
    | with_reducible assumption
    | with_reducible apply vecBits_wf

theorem execXorv_wf (d : VDst) (a : VSrc) (b : VSrc) (s : State) (hs : s.memCanonical) :
    KeepsMem (execXorv d a b s) := by
  unfold execXorv
  repeat' first
    | with_reducible assumption
    | with_reducible apply vecBits_wf

theorem execAndnv_wf (d : VDst) (a : VSrc) (b : VSrc) (s : State) (hs : s.memCanonical) :
    KeepsMem (execAndnv d a b s) := by
  unfold execAndnv
  repeat' first
    | with_reducible assumption
    | with_reducible apply vecBits_wf

theorem execNotv_wf (d : VDst) (a : VSrc) (s : State) (hs : s.memCanonical) :
    KeepsMem (execNotv d a s) := by
  unfold execNotv
  repeat' first
    | with_reducible assumption
    | with_reducible apply vecBits_wf

theorem execShlv_wf (d : VDst) (a : VSrc) (b : VSrc) (s : State) (hs : s.memCanonical) :
    KeepsMem (execShlv d a b s) := by
  unfold execShlv
  repeat' first
    | with_reducible assumption
    | with_reducible apply vecBinary_wf

theorem execShrv_wf (d : VDst) (a : VSrc) (b : VSrc) (s : State) (hs : s.memCanonical) :
    KeepsMem (execShrv d a b s) := by
  unfold execShrv
  repeat' first
    | with_reducible assumption
    | with_reducible apply vecBinary_wf

theorem execSrav_wf (d : VDst) (a : VSrc) (b : VSrc) (s : State) (hs : s.memCanonical) :
    KeepsMem (execSrav d a b s) := by
  unfold execSrav
  repeat' first
    | with_reducible assumption
    | with_reducible apply vecBinary_wf

theorem execRolv_wf (d : VDst) (a : VSrc) (b : VSrc) (s : State) (hs : s.memCanonical) :
    KeepsMem (execRolv d a b s) := by
  unfold execRolv
  repeat' first
    | with_reducible assumption
    | with_reducible apply vecBinary_wf

theorem execClzv_wf (d : VDst) (a : VSrc) (s : State) (hs : s.memCanonical) :
    KeepsMem (execClzv d a s) := by
  unfold execClzv
  repeat' first
    | with_reducible assumption
    | with_reducible apply vecUnary_wf

theorem execPopcv_wf (d : VDst) (a : VSrc) (s : State) (hs : s.memCanonical) :
    KeepsMem (execPopcv d a s) := by
  unfold execPopcv
  repeat' first
    | with_reducible assumption
    | with_reducible apply vecUnary_wf

theorem execMovv_wf (d : VDst) (a : VSrc) (s : State) (hs : s.memCanonical) :
    KeepsMem (execMovv d a s) := by
  unfold execMovv
  repeat' first
    | with_reducible assumption
    | with_reducible apply issueOp_wf
    | with_reducible apply State.finish_wf
    | with_reducible apply State.putV_wf
    | with_reducible apply foldl_wf
    | with_reducible apply next_wf
    | with_reducible apply fault_wf
    | with_reducible apply refused_wf
    | intro _

theorem execBfxv_wf (d : VDst) (a : VSrc) (b : VSrc) (s : State) (hs : s.memCanonical) :
    KeepsMem (execBfxv d a b s) := by
  unfold execBfxv
  repeat' first
    | with_reducible assumption
    | with_reducible apply vecBinary_wf

theorem vecDot_wf (i : Instr) (d : Fin 128) (a : VSrc) (b : VSrc) (n : Nat) (s : State) (hs : s.memCanonical) :
    KeepsMem (vecDot i d a b n s) := by
  unfold vecDot
  repeat' first
    | with_reducible assumption
    | with_reducible apply issueOp_wf
    | with_reducible apply State.finish_wf
    | with_reducible apply State.putV_wf
    | with_reducible apply foldl_wf
    | with_reducible apply next_wf
    | with_reducible apply fault_wf
    | with_reducible apply refused_wf
    | intro _

theorem execDot4v_wf (d : Fin 128) (a : VSrc) (b : VSrc) (s : State) (hs : s.memCanonical) :
    KeepsMem (execDot4v d a b s) := by
  unfold execDot4v
  repeat' first
    | with_reducible assumption
    | with_reducible apply vecDot_wf

theorem execDot2v_wf (d : Fin 128) (a : VSrc) (b : VSrc) (s : State) (hs : s.memCanonical) :
    KeepsMem (execDot2v d a b s) := by
  unfold execDot2v
  repeat' first
    | with_reducible assumption
    | with_reducible apply vecDot_wf

theorem execAvgv_wf (d : VDst) (a : VSrc) (b : VSrc) (s : State) (hs : s.memCanonical) :
    KeepsMem (execAvgv d a b s) := by
  unfold execAvgv
  repeat' first
    | with_reducible assumption
    | with_reducible apply vecBinary_wf

theorem floatUnary_wf (i : Instr) (d : VDst) (a : VSrc) (g : RMode → FVal → FVal × Bool) (s : State) (hs : s.memCanonical) :
    KeepsMem (floatUnary i d a g s) := by
  unfold floatUnary
  repeat' first
    | with_reducible assumption
    | with_reducible apply vecUnary_wf

theorem execSqrtv_wf (d : VDst) (a : VSrc) (s : State) (hs : s.memCanonical) :
    KeepsMem (execSqrtv d a s) := by
  unfold execSqrtv
  repeat' first
    | with_reducible assumption
    | with_reducible apply floatUnary_wf

theorem execRcpv_wf (d : VDst) (a : VSrc) (s : State) (hs : s.memCanonical) :
    KeepsMem (execRcpv d a s) := by
  unfold execRcpv
  repeat' first
    | with_reducible assumption
    | with_reducible apply floatUnary_wf

theorem execRsqv_wf (d : VDst) (a : VSrc) (s : State) (hs : s.memCanonical) :
    KeepsMem (execRsqv d a s) := by
  unfold execRsqv
  repeat' first
    | with_reducible assumption
    | with_reducible apply floatUnary_wf

theorem execExp2v_wf (d : VDst) (a : VSrc) (s : State) (hs : s.memCanonical) :
    KeepsMem (execExp2v d a s) := by
  unfold execExp2v
  repeat' first
    | with_reducible assumption
    | with_reducible apply floatUnary_wf

theorem execLog2v_wf (d : VDst) (a : VSrc) (s : State) (hs : s.memCanonical) :
    KeepsMem (execLog2v d a s) := by
  unfold execLog2v
  repeat' first
    | with_reducible assumption
    | with_reducible apply floatUnary_wf

theorem execSinv_wf (d : VDst) (a : VSrc) (s : State) (hs : s.memCanonical) :
    KeepsMem (execSinv d a s) := by
  unfold execSinv
  repeat' first
    | with_reducible assumption
    | with_reducible apply floatUnary_wf

theorem execCosv_wf (d : VDst) (a : VSrc) (s : State) (hs : s.memCanonical) :
    KeepsMem (execCosv d a s) := by
  unfold execCosv
  repeat' first
    | with_reducible assumption
    | with_reducible apply floatUnary_wf

theorem execTanhv_wf (d : VDst) (a : VSrc) (s : State) (hs : s.memCanonical) :
    KeepsMem (execTanhv d a s) := by
  unfold execTanhv
  repeat' first
    | with_reducible assumption
    | with_reducible apply floatUnary_wf

theorem execFloorv_wf (d : VDst) (a : VSrc) (s : State) (hs : s.memCanonical) :
    KeepsMem (execFloorv d a s) := by
  unfold execFloorv
  repeat' first
    | with_reducible assumption
    | with_reducible apply floatUnary_wf

theorem execCeilv_wf (d : VDst) (a : VSrc) (s : State) (hs : s.memCanonical) :
    KeepsMem (execCeilv d a s) := by
  unfold execCeilv
  repeat' first
    | with_reducible assumption
    | with_reducible apply floatUnary_wf

theorem execTruncv_wf (d : VDst) (a : VSrc) (s : State) (hs : s.memCanonical) :
    KeepsMem (execTruncv d a s) := by
  unfold execTruncv
  repeat' first
    | with_reducible assumption
    | with_reducible apply floatUnary_wf

theorem execRintv_wf (d : VDst) (a : VSrc) (s : State) (hs : s.memCanonical) :
    KeepsMem (execRintv d a s) := by
  unfold execRintv
  repeat' first
    | with_reducible assumption
    | with_reducible apply floatUnary_wf

theorem execFracv_wf (d : VDst) (a : VSrc) (s : State) (hs : s.memCanonical) :
    KeepsMem (execFracv d a s) := by
  unfold execFracv
  repeat' first
    | with_reducible assumption
    | with_reducible apply floatUnary_wf

theorem execCopysv_wf (d : VDst) (a : VSrc) (b : VSrc) (s : State) (hs : s.memCanonical) :
    KeepsMem (execCopysv d a b s) := by
  unfold execCopysv
  repeat' first
    | with_reducible assumption
    | with_reducible apply issueOp_wf
    | with_reducible apply State.putElems_wf
    | with_reducible apply foldl_wf
    | with_reducible apply next_wf
    | with_reducible apply fault_wf
    | with_reducible apply refused_wf
    | intro _

theorem execClassv_wf (d : VDst) (a : VSrc) (s : State) (hs : s.memCanonical) :
    KeepsMem (execClassv d a s) := by
  unfold execClassv
  repeat' first
    | with_reducible assumption
    | with_reducible apply issueOp_wf
    | with_reducible apply State.putElems_wf
    | with_reducible apply foldl_wf
    | with_reducible apply next_wf
    | with_reducible apply fault_wf
    | with_reducible apply refused_wf
    | intro _

theorem execScalbv_wf (d : VDst) (a : VSrc) (b : VSrc) (s : State) (hs : s.memCanonical) :
    KeepsMem (execScalbv d a b s) := by
  unfold execScalbv
  repeat' first
    | with_reducible assumption
    | with_reducible apply issueOp_wf
    | with_reducible apply State.putElems_wf
    | with_reducible apply foldl_wf
    | with_reducible apply next_wf
    | with_reducible apply fault_wf
    | with_reducible apply refused_wf
    | intro _

theorem execCvtv_wf (d : VDst) (a : VSrc) (b : EType) (s : State) (hs : s.memCanonical) :
    KeepsMem (execCvtv d a b s) := by
  unfold execCvtv
  repeat' first
    | with_reducible assumption
    | with_reducible apply issueOp_wf
    | with_reducible apply State.finish_wf
    | with_reducible apply State.putV_wf
    | with_reducible apply foldl_wf
    | with_reducible apply next_wf
    | with_reducible apply fault_wf
    | with_reducible apply refused_wf
    | intro _

theorem execPacksxv_wf (d : VDst) (a : VSrc) (b : SxFmt) (s : State) (hs : s.memCanonical) :
    KeepsMem (execPacksxv d a b s) := by
  unfold execPacksxv
  repeat' first
    | with_reducible assumption
    | with_reducible apply issueOp_wf
    | with_reducible apply State.finish_wf
    | with_reducible apply State.putV_wf
    | with_reducible apply foldl_wf
    | with_reducible apply next_wf
    | with_reducible apply fault_wf
    | with_reducible apply refused_wf
    | intro _

theorem execUnpksxv_wf (d : VDst) (a : VSrc) (b : SxFmt) (s : State) (hs : s.memCanonical) :
    KeepsMem (execUnpksxv d a b s) := by
  unfold execUnpksxv
  repeat' first
    | with_reducible assumption
    | with_reducible apply issueOp_wf
    | with_reducible apply State.finish_wf
    | with_reducible apply State.putV_wf
    | with_reducible apply foldl_wf
    | with_reducible apply next_wf
    | with_reducible apply fault_wf
    | with_reducible apply refused_wf
    | intro _

theorem vecCompare_wf (i : Instr) (d : Fin 8) (a : VSrc) (b : VSrc) (p : Option Ordering → Bool) (s : State) (hs : s.memCanonical) :
    KeepsMem (vecCompare i d a b p s) := by
  unfold vecCompare
  repeat' first
    | with_reducible assumption
    | with_reducible apply issueOp_wf
    | with_reducible apply State.finish_wf
    | with_reducible apply State.putP_wf
    | with_reducible apply foldl_wf
    | with_reducible apply next_wf
    | with_reducible apply fault_wf
    | with_reducible apply refused_wf
    | intro _

theorem execCmpeqv_wf (d : Fin 8) (a : VSrc) (b : VSrc) (s : State) (hs : s.memCanonical) :
    KeepsMem (execCmpeqv d a b s) := by
  unfold execCmpeqv
  repeat' first
    | with_reducible assumption
    | with_reducible apply vecCompare_wf

theorem execCmpnev_wf (d : Fin 8) (a : VSrc) (b : VSrc) (s : State) (hs : s.memCanonical) :
    KeepsMem (execCmpnev d a b s) := by
  unfold execCmpnev
  repeat' first
    | with_reducible assumption
    | with_reducible apply vecCompare_wf

theorem execCmpltv_wf (d : Fin 8) (a : VSrc) (b : VSrc) (s : State) (hs : s.memCanonical) :
    KeepsMem (execCmpltv d a b s) := by
  unfold execCmpltv
  repeat' first
    | with_reducible assumption
    | with_reducible apply vecCompare_wf

theorem execCmplev_wf (d : Fin 8) (a : VSrc) (b : VSrc) (s : State) (hs : s.memCanonical) :
    KeepsMem (execCmplev d a b s) := by
  unfold execCmplev
  repeat' first
    | with_reducible assumption
    | with_reducible apply vecCompare_wf

theorem execCmpgtv_wf (d : Fin 8) (a : VSrc) (b : VSrc) (s : State) (hs : s.memCanonical) :
    KeepsMem (execCmpgtv d a b s) := by
  unfold execCmpgtv
  repeat' first
    | with_reducible assumption
    | with_reducible apply vecCompare_wf

theorem execCmpgev_wf (d : Fin 8) (a : VSrc) (b : VSrc) (s : State) (hs : s.memCanonical) :
    KeepsMem (execCmpgev d a b s) := by
  unfold execCmpgev
  repeat' first
    | with_reducible assumption
    | with_reducible apply vecCompare_wf

theorem execCmpunv_wf (d : Fin 8) (a : VSrc) (b : VSrc) (s : State) (hs : s.memCanonical) :
    KeepsMem (execCmpunv d a b s) := by
  unfold execCmpunv
  repeat' first
    | with_reducible assumption
    | with_reducible apply vecCompare_wf

theorem execSelv_wf (d : VDst) (a : VSrc) (b : VSrc) (s : State) (hs : s.memCanonical) :
    KeepsMem (execSelv d a b s) := by
  unfold execSelv
  repeat' first
    | with_reducible assumption
    | with_reducible apply issueOp_wf
    | with_reducible apply State.finish_wf
    | with_reducible apply State.putVMask_wf
    | with_reducible apply foldl_wf
    | with_reducible apply next_wf
    | with_reducible apply fault_wf
    | with_reducible apply refused_wf
    | intro _

theorem vecShuffle_wf (i : Instr) (d : VDst) (a : VSrc) (b : VSrc) (src : Nat → Nat → Nat) (s : State) (hs : s.memCanonical) :
    KeepsMem (vecShuffle i d a b src s) := by
  unfold vecShuffle
  repeat' first
    | with_reducible assumption
    | with_reducible apply issueOp_wf
    | with_reducible apply State.finish_wf
    | with_reducible apply State.putV_wf
    | with_reducible apply foldl_wf
    | with_reducible apply next_wf
    | with_reducible apply fault_wf
    | with_reducible apply refused_wf
    | intro _

theorem execShflv_wf (d : VDst) (a : VSrc) (b : VSrc) (s : State) (hs : s.memCanonical) :
    KeepsMem (execShflv d a b s) := by
  unfold execShflv
  repeat' first
    | with_reducible assumption
    | with_reducible apply vecShuffle_wf

theorem execShupv_wf (d : VDst) (a : VSrc) (b : VSrc) (s : State) (hs : s.memCanonical) :
    KeepsMem (execShupv d a b s) := by
  unfold execShupv
  repeat' first
    | with_reducible assumption
    | with_reducible apply vecShuffle_wf

theorem execShdnv_wf (d : VDst) (a : VSrc) (b : VSrc) (s : State) (hs : s.memCanonical) :
    KeepsMem (execShdnv d a b s) := by
  unfold execShdnv
  repeat' first
    | with_reducible assumption
    | with_reducible apply vecShuffle_wf

theorem execShxrv_wf (d : VDst) (a : VSrc) (b : VSrc) (s : State) (hs : s.memCanonical) :
    KeepsMem (execShxrv d a b s) := by
  unfold execShxrv
  repeat' first
    | with_reducible assumption
    | with_reducible apply vecShuffle_wf

theorem execBcastv_wf (d : VDst) (a : VSrc) (b : VSrc) (s : State) (hs : s.memCanonical) :
    KeepsMem (execBcastv d a b s) := by
  unfold execBcastv
  repeat' first
    | with_reducible assumption
    | with_reducible apply vecShuffle_wf

theorem execVoteall_wf (d : Fin 8) (a : PSel) (s : State) (hs : s.memCanonical) :
    KeepsMem (execVoteall d a s) := by
  unfold execVoteall
  repeat' first
    | with_reducible assumption
    | with_reducible apply issueOp_wf
    | with_reducible apply State.finish_wf
    | with_reducible apply State.putP_wf
    | with_reducible apply foldl_wf
    | with_reducible apply next_wf
    | with_reducible apply fault_wf
    | with_reducible apply refused_wf
    | intro _

theorem execVoteany_wf (d : Fin 8) (a : PSel) (s : State) (hs : s.memCanonical) :
    KeepsMem (execVoteany d a s) := by
  unfold execVoteany
  repeat' first
    | with_reducible assumption
    | with_reducible apply issueOp_wf
    | with_reducible apply State.finish_wf
    | with_reducible apply State.putP_wf
    | with_reducible apply foldl_wf
    | with_reducible apply next_wf
    | with_reducible apply fault_wf
    | with_reducible apply refused_wf
    | intro _

theorem execBallot_wf (d : SDst) (a : PSel) (s : State) (hs : s.memCanonical) :
    KeepsMem (execBallot d a s) := by
  unfold execBallot
  repeat' first
    | with_reducible assumption
    | with_reducible apply issueOp_wf
    | with_reducible apply State.finish_wf
    | with_reducible apply State.putS_wf
    | with_reducible apply foldl_wf
    | with_reducible apply next_wf
    | with_reducible apply fault_wf
    | with_reducible apply refused_wf
    | intro _

theorem vecReduce_wf (i : Instr) (d : SDst) (a : VSrc) (saturates : Bool) (gi : EType → Int → Int → Int) (gf : RMode → FVal → FVal → FVal) (s : State) (hs : s.memCanonical) :
    KeepsMem (vecReduce i d a saturates gi gf s) := by
  unfold vecReduce
  repeat' first
    | with_reducible assumption
    | with_reducible apply issueOp_wf
    | with_reducible apply State.finish_wf
    | with_reducible apply State.putS_wf
    | with_reducible apply foldl_wf
    | with_reducible apply next_wf
    | with_reducible apply fault_wf
    | with_reducible apply refused_wf
    | intro _

theorem execRedaddv_wf (d : SDst) (a : VSrc) (s : State) (hs : s.memCanonical) :
    KeepsMem (execRedaddv d a s) := by
  unfold execRedaddv
  repeat' first
    | with_reducible assumption
    | with_reducible apply vecReduce_wf

theorem execRedminv_wf (d : SDst) (a : VSrc) (s : State) (hs : s.memCanonical) :
    KeepsMem (execRedminv d a s) := by
  unfold execRedminv
  repeat' first
    | with_reducible assumption
    | with_reducible apply vecReduce_wf

theorem execRedmaxv_wf (d : SDst) (a : VSrc) (s : State) (hs : s.memCanonical) :
    KeepsMem (execRedmaxv d a s) := by
  unfold execRedmaxv
  repeat' first
    | with_reducible assumption
    | with_reducible apply vecReduce_wf

theorem execRedandv_wf (d : SDst) (a : VSrc) (s : State) (hs : s.memCanonical) :
    KeepsMem (execRedandv d a s) := by
  unfold execRedandv
  repeat' first
    | with_reducible assumption
    | with_reducible apply vecReduce_wf

theorem execRedorv_wf (d : SDst) (a : VSrc) (s : State) (hs : s.memCanonical) :
    KeepsMem (execRedorv d a s) := by
  unfold execRedorv
  repeat' first
    | with_reducible assumption
    | with_reducible apply vecReduce_wf

theorem execScanv_wf (d : VDst) (a : VSrc) (s : State) (hs : s.memCanonical) :
    KeepsMem (execScanv d a s) := by
  unfold execScanv
  repeat' first
    | with_reducible assumption
    | with_reducible apply issueOp_wf
    | with_reducible apply State.finish_wf
    | with_reducible apply State.putV_wf
    | with_reducible apply foldl_wf
    | with_reducible apply next_wf
    | with_reducible apply fault_wf
    | with_reducible apply refused_wf
    | intro _

theorem execMovsv_wf (d : VDst) (a : SSrc) (s : State) (hs : s.memCanonical) :
    KeepsMem (execMovsv d a s) := by
  unfold execMovsv
  repeat' first
    | with_reducible assumption
    | with_reducible apply issueOp_wf
    | with_reducible apply State.finish_wf
    | with_reducible apply State.putV_wf
    | with_reducible apply foldl_wf
    | with_reducible apply next_wf
    | with_reducible apply fault_wf
    | with_reducible apply refused_wf
    | intro _

theorem execMovvs_wf (d : SDst) (a : VSrc) (b : SSrc) (s : State) (hs : s.memCanonical) :
    KeepsMem (execMovvs d a b s) := by
  unfold execMovvs
  repeat' first
    | with_reducible assumption
    | with_reducible apply issueOp_wf
    | with_reducible apply State.finish_wf
    | with_reducible apply State.putS_wf
    | with_reducible apply foldl_wf
    | with_reducible apply next_wf
    | with_reducible apply fault_wf
    | with_reducible apply refused_wf
    | intro _

theorem execFirstl_wf (d : SDst) (s : State) (hs : s.memCanonical) :
    KeepsMem (execFirstl d s) := by
  unfold execFirstl
  repeat' first
    | with_reducible assumption
    | with_reducible apply issueOp_wf
    | with_reducible apply State.finish_wf
    | with_reducible apply State.putS_wf
    | with_reducible apply foldl_wf
    | with_reducible apply next_wf
    | with_reducible apply fault_wf
    | with_reducible apply refused_wf
    | intro _

theorem State.reset_wf : State.reset.memCanonical := rfl

end Sys2Proof.Machine
end

