-- ==== Sys2Proof/Laws/KeepsMemory.lean ====
section
/-! SUPPORT. The memory keeps its canonical form, operation by operation: coherence, the memory instructions and their events. -/

namespace Sys2Proof.Machine

theorem State.send_wf (s : State) (i : Instr) (hs : s.memCanonical) :
    (State.send s i).memCanonical := by
  unfold State.send
  repeat' first
    | with_reducible assumption
    | with_reducible apply foldl_wf
    | intro _
    | split
    | (refine State.wf_of_mem _ ?_; dsimp only; refine State.mem_of_wf _ ?_)

theorem State.sendOnce_wf (s : State) (i : Instr) (hs : s.memCanonical) :
    (State.sendOnce s i).memCanonical := by
  unfold State.sendOnce
  repeat' first
    | with_reducible assumption
    | with_reducible apply State.send_wf
    | with_reducible apply foldl_wf
    | intro _
    | split

theorem State.settle_wf (s : State) (line : Nat) (hs : s.memCanonical) :
    (State.settle s line).memCanonical := by
  unfold State.settle
  repeat' first
    | with_reducible assumption
    | with_reducible apply State.sendOnce_wf
    | with_reducible apply foldl_wf
    | intro _
    | split
    | (refine State.wf_of_mem _ ?_; dsimp only; refine State.mem_of_wf _ ?_)

theorem State.askFpub_wf (s : State) (core : Nat) (epoch : Nat) (level : Nat) (requester : Nat) (hs : s.memCanonical) :
    (State.askFpub s core epoch level requester).memCanonical := by
  unfold State.askFpub
  repeat' first
    | with_reducible assumption
    | with_reducible apply State.sendOnce_wf
    | with_reducible apply foldl_wf
    | intro _
    | split

theorem State.depWait_wf (s : State) (core : Nat) (new : List Dep) (hs : s.memCanonical) :
    OptMem (State.depWait s core new) := by
  unfold State.depWait
  repeat' first
    | with_reducible assumption
    | with_reducible apply State.askFpub_wf
    | with_reducible apply foldl_wf
    | with_reducible apply some_wf
    | exact none_wf
    | with_reducible apply opt_map_wf
    | with_reducible apply opt_map2_wf
    | intro _
    | split
    | (refine of_some ?_ (by with_reducible assumption))
    | dsimp only

theorem State.readBlock_wf (s : State) (core : Nat) (ctx : Nat) (line : Nat) (ks : List Nat) (cls : AccessClass) (hs : s.memCanonical) :
    OptMem (State.readBlock s core ctx line ks cls) := by
  unfold State.readBlock
  repeat' first
    | with_reducible assumption
    | with_reducible apply State.askFpub_wf
    | with_reducible apply State.depWait_wf
    | with_reducible apply foldl_wf
    | with_reducible apply some_wf
    | exact none_wf
    | with_reducible apply opt_map_wf
    | with_reducible apply opt_map2_wf
    | intro _
    | split
    | (refine of_some ?_ (by with_reducible assumption))
    | dsimp only

theorem State.recordDeps_wf (s : State) (core : Nat) (line : Nat) (hs : s.memCanonical) :
    (State.recordDeps s core line).memCanonical := by
  unfold State.recordDeps
  repeat' first
    | with_reducible assumption
    | with_reducible apply State.modCore_wf
    | with_reducible apply foldl_wf
    | intro _
    | split
    | (refine State.wf_of_mem _ ?_; dsimp only; refine State.mem_of_wf _ ?_)

theorem State.noteRead_wf (s : State) (core : Nat) (line : Nat) (v : LineView) (hs : s.memCanonical) :
    (State.noteRead s core line v).memCanonical := by
  unfold State.noteRead
  repeat' first
    | with_reducible assumption
    | with_reducible apply State.modCore_wf
    | with_reducible apply foldl_wf
    | intro _
    | split

theorem State.dropL1_wf (s : State) (line : Nat) (core : Nat) (hs : s.memCanonical) :
    (State.dropL1 s line core).memCanonical := by
  unfold State.dropL1
  repeat' first
    | with_reducible assumption
    | with_reducible apply State.modCore_wf
    | with_reducible apply foldl_wf
    | intro _
    | split

theorem State.directoryRoom_wf (s : State) (p : Nat → Bool) (q : Nat → Bool) (entries : Nat) (line : Nat) (hs : s.memCanonical) :
    (State.directoryRoom s p q entries line).memCanonical := by
  unfold State.directoryRoom
  repeat' first
    | with_reducible assumption
    | with_reducible apply State.dropL1_wf
    | with_reducible apply foldl_wf
    | intro _
    | split
    | (refine State.wf_of_mem _ ?_; dsimp only; refine State.mem_of_wf _ ?_)

theorem State.fillL1_wf (s : State) (core : Nat) (line : Nat) (x : L1Line) (hs : s.memCanonical) :
    (State.fillL1 s core line x).memCanonical := by
  unfold State.fillL1
  repeat' first
    | with_reducible assumption
    | with_reducible apply State.directoryRoom_wf
    | with_reducible apply State.modCore_wf

theorem State.fillFrom_wf (s : State) (core : Nat) (ctx : Nat) (line : Nat) (hs : s.memCanonical) :
    (State.fillFrom s core ctx line).memCanonical := by
  unfold State.fillFrom
  repeat' first
    | with_reducible assumption
    | with_reducible apply State.fillL1_wf
    | with_reducible apply State.dropL1_wf
    | with_reducible apply foldl_wf
    | intro _
    | split

theorem State.forceTag_wf (s : State) (t : Tag) (hs : s.memCanonical) :
    (State.forceTag s t).memCanonical := by
  unfold State.forceTag
  repeat' first
    | with_reducible assumption
    | with_reducible apply State.askFpub_wf

theorem State.setCopy_wf (s : State) (stack : Nat) (line : Nat) (c : Option SliceLine) (hs : s.memCanonical) :
    (State.setCopy s stack line c).memCanonical := by
  unfold State.setCopy
  repeat' first
    | with_reducible assumption
    | with_reducible apply foldl_wf
    | intro _
    | split
    | (refine State.wf_of_mem _ ?_; dsimp only; refine State.mem_of_wf _ ?_)

theorem State.moveTags_wf (s : State) (line : Nat) (a : Nat) (b : Nat) (hs : s.memCanonical) :
    (State.moveTags s line a b).memCanonical := by
  unfold State.moveTags
  repeat' first
    | with_reducible assumption
    | with_reducible apply State.modCluster_wf
    | with_reducible apply foldl_wf
    | intro _
    | split
    | (refine State.wf_of_mem _ ?_; dsimp only; refine State.mem_of_wf _ ?_)

theorem State.dropPart_wf (s : State) (stack : Nat) (k : Nat) (hs : s.memCanonical) :
    (State.dropPart s stack k).memCanonical := by
  unfold State.dropPart
  repeat' first
    | with_reducible assumption
    | with_reducible apply State.setCopy_wf
    | with_reducible apply foldl_wf
    | intro _
    | split

theorem State.writeBack_wf (s : State) (stack : Nat) (k : Nat) (hs : s.memCanonical) :
    (State.writeBack s stack k).memCanonical := by
  unfold State.writeBack
  repeat' first
    | with_reducible assumption
    | with_reducible apply State.askFpub_wf
    | with_reducible apply State.sendOnce_wf
    | with_reducible apply foldl_wf
    | intro _
    | split
    | (refine State.wf_of_mem _ ?_; dsimp only; refine State.mem_of_wf _ ?_)

theorem State.evict_wf (s : State) (stack : Nat) (line : Nat) (hs : s.memCanonical) :
    (State.evict s stack line).memCanonical := by
  unfold State.evict
  repeat' first
    | with_reducible assumption
    | with_reducible apply State.setCopy_wf
    | with_reducible apply State.dropPart_wf
    | with_reducible apply State.writeBack_wf
    | with_reducible apply foldl_wf
    | intro _
    | split

theorem State.placeCopy_wf (s : State) (g : Nat) (line : Nat) (c : SliceLine) (cls0 : Nat) (hs : s.memCanonical) :
    (State.placeCopy s g line c cls0).memCanonical := by
  unfold State.placeCopy
  repeat' first
    | with_reducible assumption
    | with_reducible apply State.setCopy_wf
    | with_reducible apply State.evict_wf
    | with_reducible apply foldl_wf
    | intro _
    | split
    | (refine State.wf_of_mem _ ?_; dsimp only; refine State.mem_of_wf _ ?_)

theorem State.touchCopy_wf (s : State) (core : Nat) (line : Nat) (counts : optParam Bool true) (hs : s.memCanonical) :
    (State.touchCopy s core line counts).memCanonical := by
  unfold State.touchCopy
  repeat' first
    | with_reducible assumption
    | with_reducible apply State.forceTag_wf
    | with_reducible apply State.setCopy_wf
    | with_reducible apply State.moveTags_wf
    | with_reducible apply State.placeCopy_wf
    | with_reducible apply foldl_wf
    | intro _
    | split
    | (refine State.wf_of_mem _ ?_; dsimp only; refine State.mem_of_wf _ ?_)

theorem State.insertCopy_wf (s : State) (g : Nat) (line : Nat) (c : SliceLine) (hs : s.memCanonical) :
    (State.insertCopy s g line c).memCanonical := by
  unfold State.insertCopy
  repeat' first
    | with_reducible assumption
    | with_reducible apply State.placeCopy_wf

theorem State.enterSlice_wf (s : State) (core : Nat) (line : Nat) (ks : List Nat) (counts : optParam Bool true) (hs : s.memCanonical) :
    (State.enterSlice s core line ks counts).memCanonical := by
  unfold State.enterSlice
  repeat' first
    | with_reducible assumption
    | with_reducible apply State.touchCopy_wf
    | with_reducible apply State.setCopy_wf
    | with_reducible apply State.insertCopy_wf
    | with_reducible apply foldl_wf
    | intro _
    | split
    | (refine State.wf_of_mem _ ?_; dsimp only; refine State.mem_of_wf _ ?_)

theorem State.askCopy_wf (s : State) (core : Nat) (k : Nat) (hs : s.memCanonical) :
    (State.askCopy s core k).memCanonical := by
  unfold State.askCopy
  repeat' first
    | with_reducible assumption
    | with_reducible apply State.send_wf
    | with_reducible apply foldl_wf
    | intro _
    | split

theorem State.askCopies_wf (s : State) (core : Nat) (ctx : Nat) (line : Nat) (ks : List Nat) (hs : s.memCanonical) :
    (State.askCopies s core ctx line ks).memCanonical := by
  unfold State.askCopies
  repeat' first
    | with_reducible assumption
    | with_reducible apply State.askCopy_wf
    | with_reducible apply foldl_wf
    | intro _
    | split

theorem State.sliceRead_wf (s : State) (core : Nat) (ctx : Nat) (line : Nat) (ks : List Nat) (hs : s.memCanonical) :
    (State.sliceRead s core ctx line ks).keepsMem := by
  unfold State.sliceRead
  repeat' first
    | with_reducible assumption
    | with_reducible apply State.noteRead_wf
    | with_reducible apply State.recordDeps_wf
    | with_reducible apply State.fillFrom_wf
    | with_reducible apply State.enterSlice_wf
    | with_reducible apply State.askCopies_wf
    | with_reducible apply foldl_wf
    | with_reducible apply yes_wf
    | with_reducible apply notYet_wf
    | intro _
    | split

theorem State.install_wf (s : State) (g : Nat) (k : Nat) (st : CopyState) (fresh : optParam (Option Nat) none) (hs : s.memCanonical) :
    (State.install s g k st fresh).memCanonical := by
  unfold State.install
  repeat' first
    | with_reducible assumption
    | with_reducible apply State.setCopy_wf
    | with_reducible apply State.insertCopy_wf
    | with_reducible apply foldl_wf
    | intro _
    | split

theorem State.sendHome_wf (s : State) (k : Nat) (hs : s.memCanonical) :
    (State.sendHome s k).memCanonical := by
  unfold State.sendHome
  repeat' first
    | with_reducible assumption
    | with_reducible apply State.dropL1_wf
    | with_reducible apply State.dropPart_wf
    | with_reducible apply foldl_wf
    | intro _
    | split
    | (refine State.wf_of_mem _ ?_; dsimp only; refine State.mem_of_wf _ ?_)

theorem State.homeRoom_wf (s : State) (k : Nat) (hs : s.memCanonical) :
    (State.homeRoom s k).memCanonical := by
  unfold State.homeRoom
  repeat' first
    | with_reducible assumption
    | with_reducible apply State.sendHome_wf
    | with_reducible apply foldl_wf
    | intro _
    | split
    | (refine State.wf_of_mem _ ?_; dsimp only; refine State.mem_of_wf _ ?_)

theorem State.setHome_wf (s : State) (k : Nat) (e : HomeEntry) (hs : s.memCanonical) :
    (State.setHome s k e).memCanonical := by
  unfold State.setHome
  repeat' first
    | with_reducible assumption
    | with_reducible apply foldl_wf
    | intro _
    | split
    | (refine State.wf_of_mem _ ?_; dsimp only; refine State.mem_of_wf _ ?_)

theorem State.grant_wf (s : State) (k : Nat) (y : Nat) (ctx : Nat) (hs : s.memCanonical) :
    (State.grant s k y ctx).memCanonical := by
  unfold State.grant
  repeat' first
    | with_reducible assumption
    | with_reducible apply State.homeRoom_wf
    | with_reducible apply State.setHome_wf

theorem State.bringIn_wf (s : State) (core : Nat) (ctx : Nat) (line : Nat) (ks : List Nat) (counts : optParam Bool true) (hs : s.memCanonical) :
    (State.bringIn s core ctx line ks counts).memCanonical := by
  unfold State.bringIn
  repeat' first
    | with_reducible assumption
    | with_reducible apply State.enterSlice_wf
    | with_reducible apply State.install_wf
    | with_reducible apply State.grant_wf
    | with_reducible apply foldl_wf
    | intro _
    | split

theorem State.ownerRead_wf (s : State) (core : Nat) (ctx : Nat) (line : Nat) (ks : List Nat) (level : Nat) (hs : s.memCanonical) :
    (State.ownerRead s core ctx line ks level).keepsMem := by
  unfold State.ownerRead
  repeat' first
    | with_reducible assumption
    | with_reducible apply State.sendOnce_wf
    | with_reducible apply State.noteRead_wf
    | with_reducible apply State.recordDeps_wf
    | with_reducible apply State.fillFrom_wf
    | with_reducible apply State.bringIn_wf
    | with_reducible apply foldl_wf
    | with_reducible apply yes_wf
    | with_reducible apply notYet_wf
    | intro _
    | split
    | dsimp only

theorem State.readLine_wf (s : State) (core : Nat) (ctx : Nat) (line : Nat) (ks : List Nat) (cls : AccessClass) (hs : s.memCanonical) :
    (State.readLine s core ctx line ks cls).keepsMem := by
  unfold State.readLine
  repeat' first
    | with_reducible assumption
    | with_reducible apply State.readBlock_wf
    | with_reducible apply State.recordDeps_wf
    | with_reducible apply State.noteRead_wf
    | with_reducible apply State.modCore_wf
    | with_reducible apply State.sliceRead_wf
    | with_reducible apply State.ownerRead_wf
    | with_reducible apply foldl_wf
    | with_reducible apply some_wf
    | exact none_wf
    | with_reducible apply yes_wf
    | with_reducible apply notYet_wf
    | intro _
    | split
    | (refine of_some ?_ (by with_reducible assumption))

theorem State.gainUnits_wf (s : State) (core : Nat) (ks : List Nat) (hs : s.memCanonical) :
    OptMem (State.gainUnits s core ks) := by
  unfold State.gainUnits
  repeat' first
    | with_reducible assumption
    | with_reducible apply State.send_wf
    | with_reducible apply foldl_wf
    | with_reducible apply some_wf
    | exact none_wf
    | with_reducible apply opt_map_wf
    | with_reducible apply opt_map2_wf
    | intro _
    | split

theorem State.readSpan_wf (s : State) (core : Nat) (ctx : Nat) (line : Nat) (ks : List Nat) (cls : AccessClass) (span : Bool) (hs : s.memCanonical) :
    (State.readSpan s core ctx line ks cls span).keepsMem := by
  unfold State.readSpan
  repeat' first
    | with_reducible assumption
    | with_reducible apply State.readLine_wf
    | with_reducible apply State.gainUnits_wf
    | with_reducible apply foldl_wf
    | with_reducible apply some_wf
    | exact none_wf
    | with_reducible apply yes_wf
    | with_reducible apply notYet_wf
    | intro _
    | split
    | (refine of_some ?_ (by with_reducible assumption))

theorem State.serveLoad_wf (s : State) (wid lid : Nat) (p : PLoad) (hs : s.memCanonical) : PairMem (s.serveLoad wid lid p) := by
  unfold State.serveLoad PairMem
  refine foldl_fst_wf _ (fun u a hu => ?_) _ _ hs
  repeat' first
    | with_reducible assumption
    | split
    | (refine of_yes ?_ (by with_reducible assumption))
    | (refine of_notYet ?_ (by with_reducible assumption))
    | with_reducible apply State.readSpan_wf
    | dsimp only

theorem State.defer_wf (s : State) (wid : Nat) (t : TrapInfo) (hs : s.memCanonical) :
    (State.defer s wid t).memCanonical := by
  unfold State.defer
  repeat' first
    | with_reducible assumption
    | with_reducible apply State.reportFatal_wf
    | with_reducible apply State.modWave_wf
    | with_reducible apply foldl_wf
    | intro _
    | split
    | (refine State.wf_of_mem _ ?_; dsimp only; refine State.mem_of_wf _ ?_)

theorem State.deliver_wf (s : State) (wid : Nat) (lid : Nat) (p : PLoad) (hs : s.memCanonical) :
    (State.deliver s wid lid p).memCanonical := by
  unfold State.deliver
  repeat' first
    | with_reducible assumption
    | with_reducible apply State.modWave_wf
    | with_reducible apply State.defer_wf
    | with_reducible apply foldl_wf
    | intro _
    | split

theorem State.advanceLoad_wf (s : State) (wid : Nat) (lid : Nat) (p : PLoad) (hs : s.memCanonical) :
    (State.advanceLoad s wid lid p).memCanonical := by
  unfold State.advanceLoad
  repeat' first
    | with_reducible assumption
    | with_reducible apply State.serveLoad_wf
    | with_reducible apply State.modWave_wf
    | with_reducible apply State.deliver_wf
    | with_reducible apply foldl_wf
    | with_reducible apply of_fst
    | intro _
    | split
    | (refine of_pair ?_ (by with_reducible assumption))

theorem State.askDeps_wf (s : State) (core : Nat) (level : Nat) (release : Bool) (hs : s.memCanonical) :
    (State.askDeps s core level release).memCanonical := by
  unfold State.askDeps
  repeat' first
    | with_reducible assumption
    | with_reducible apply State.askFpub_wf
    | with_reducible apply foldl_wf
    | intro _
    | split

theorem State.sendInvs_wf (s : State) (line : Nat) (core : Nat) (gs : List Nat) (hs : s.memCanonical) :
    (State.sendInvs s line core gs).memCanonical := by
  unfold State.sendInvs
  repeat' first
    | with_reducible assumption
    | with_reducible apply State.sendOnce_wf
    | with_reducible apply foldl_wf
    | intro _

theorem State.pressOut_wf (s : State) (core : Nat) (level : Nat) (o : Nat × OutWrite) (hs : s.memCanonical) :
    (State.pressOut s core level o).memCanonical := by
  unfold State.pressOut
  repeat' first
    | with_reducible assumption
    | with_reducible apply State.sendOnce_wf
    | with_reducible apply State.sendInvs_wf
    | with_reducible apply foldl_wf
    | intro _
    | split
    | (refine State.wf_of_mem _ ?_; dsimp only; refine State.mem_of_wf _ ?_)

theorem State.press_wf (s : State) (core : Nat) (mark : Nat) (level : Nat) (hs : s.memCanonical) :
    (State.press s core mark level).memCanonical := by
  unfold State.press
  repeat' first
    | with_reducible assumption
    | with_reducible apply State.pressOut_wf
    | with_reducible apply foldl_wf
    | intro _
    | split

theorem State.startFence_wf (s : State) (core : Nat) (mark : Nat) (level : Nat) (release : Bool) (acquire : Bool) (hs : s.memCanonical) :
    (State.startFence s core mark level release acquire).memCanonical := by
  unfold State.startFence
  repeat' first
    | with_reducible assumption
    | with_reducible apply State.askDeps_wf
    | with_reducible apply State.press_wf
    | with_reducible apply foldl_wf
    | intro _
    | split

theorem State.gate_wf (s : State) (level : Nat) (release : Bool) (acquire : Bool) (hs : s.memCanonical) :
    OptMem (State.gate s level release acquire) := by
  unfold State.gate
  repeat' first
    | with_reducible assumption
    | with_reducible apply State.trapDeferred_wf
    | with_reducible apply State.stall_wf
    | with_reducible apply State.startFence_wf
    | with_reducible apply foldl_wf
    | with_reducible apply some_wf
    | exact none_wf
    | with_reducible apply opt_map_wf
    | with_reducible apply opt_map2_wf
    | intro _
    | split
    | (refine of_some ?_ (by with_reducible assumption))
    | dsimp only

theorem State.released_wf (s : State) (core : Nat) (level : Nat) (hs : s.memCanonical) :
    (State.released s core level).memCanonical := by
  unfold State.released
  repeat' first
    | with_reducible assumption
    | with_reducible apply State.modCore_wf

theorem State.afterRelease_wf (s : State) (ts : List Nat) (free : Tile → Bool) (k : State → State) (hs : s.memCanonical) (hk : ∀ (y0 : State), y0.memCanonical → (k y0).memCanonical) :
    (State.afterRelease s ts free k).memCanonical := by
  unfold State.afterRelease
  repeat' first
    | with_reducible assumption
    | with_reducible apply hk
    | with_reducible apply State.gate_wf
    | with_reducible apply State.released_wf
    | with_reducible apply foldl_wf
    | with_reducible apply some_wf
    | exact none_wf
    | intro _
    | split
    | (refine of_some ?_ (by with_reducible assumption))

theorem State.afterHandOver_wf (s : State) (ts : List Nat) (k : State → State) (hs : s.memCanonical) (hk : ∀ (y0 : State), y0.memCanonical → (k y0).memCanonical) :
    (State.afterHandOver s ts k).memCanonical := by
  unfold State.afterHandOver
  repeat' first
    | with_reducible assumption
    | with_reducible apply hk
    | with_reducible apply State.afterRelease_wf

theorem State.turnPart_wf (s : State) (stack : Nat) (k : Nat) (f : CopyState → CopyState) (hs : s.memCanonical) :
    (State.turnPart s stack k f).memCanonical := by
  unfold State.turnPart
  repeat' first
    | with_reducible assumption
    | with_reducible apply State.setCopy_wf
    | with_reducible apply foldl_wf
    | intro _
    | split

theorem State.publishUnit_wf (s : State) (k : Nat) (hs : s.memCanonical) :
    (State.publishUnit s k).memCanonical := by
  unfold State.publishUnit
  repeat' first
    | with_reducible assumption
    | with_reducible apply State.dropL1_wf
    | with_reducible apply State.turnPart_wf
    | with_reducible apply State.dropPart_wf
    | with_reducible apply State.settle_wf
    | with_reducible apply State.setHome_wf
    | with_reducible apply foldl_wf
    | intro _
    | split

theorem State.publishLine_wf (s : State) (line : Nat) (hs : s.memCanonical) :
    (State.publishLine s line).memCanonical := by
  unfold State.publishLine
  repeat' first
    | with_reducible assumption
    | with_reducible apply State.publishUnit_wf
    | with_reducible apply foldl_wf

theorem State.decantRetire_wf (s : State) (r : Nat) (cause : Nat) (detail : Nat) (hs : s.memCanonical) :
    (State.decantRetire s r cause detail).memCanonical := by
  unfold State.decantRetire
  repeat' first
    | with_reducible assumption
    | with_reducible apply State.modCluster_wf
    | with_reducible apply foldl_wf
    | intro _
    | split
    | (refine State.wf_of_mem _ ?_; dsimp only; refine State.mem_of_wf _ ?_)

theorem State.decantBreak_wf (s : State) (line : Nat) (hs : s.memCanonical) :
    (State.decantBreak s line).memCanonical := by
  unfold State.decantBreak
  repeat' first
    | with_reducible assumption
    | with_reducible apply State.memWrite_wf
    | with_reducible apply State.decantRetire_wf
    | with_reducible apply foldl_wf
    | intro _
    | split

theorem State.writeBytes_wf (s : State) (pa : Nat) (bs : List Byte) (hs : s.memCanonical) :
    (State.writeBytes s pa bs).memCanonical := by
  unfold State.writeBytes
  repeat' first
    | with_reducible assumption
    | with_reducible apply State.memWrite_wf
    | with_reducible apply State.decantBreak_wf
    | with_reducible apply foldl_wf
    | intro _
    | split
    | (refine State.wf_of_mem _ ?_; dsimp only; refine State.mem_of_wf _ ?_)

theorem State.afterTaking_wf (s : State) (ts : List Nat) (k : State → State) (hs : s.memCanonical) (hk : ∀ (y0 : State), y0.memCanonical → (k y0).memCanonical) :
    (State.afterTaking s ts k).memCanonical := by
  unfold State.afterTaking
  repeat' first
    | with_reducible assumption
    | with_reducible apply hk
    | with_reducible apply State.afterRelease_wf

theorem State.dropOrigins_wf (s : State) (hs : s.memCanonical) :
    (State.dropOrigins s).memCanonical := by
  unfold State.dropOrigins
  repeat' first
    | with_reducible assumption
    | with_reducible apply foldl_wf
    | intro _
    | split
    | (refine State.wf_of_mem _ ?_; dsimp only; refine State.mem_of_wf _ ?_)

theorem State.askFences_wf (s : State) (hs : s.memCanonical) :
    (State.askFences s).memCanonical := by
  unfold State.askFences
  repeat' first
    | with_reducible assumption
    | with_reducible apply State.askDeps_wf
    | with_reducible apply foldl_wf
    | intro _
    | split

theorem State.writeOwned_wf (s : State) (pa : Nat) (bs : List Byte) (hs : s.memCanonical) :
    (State.writeOwned s pa bs).memCanonical := by
  unfold State.writeOwned
  repeat' first
    | with_reducible assumption
    | with_reducible apply State.writeBytes_wf
    | with_reducible apply foldl_wf
    | intro _
    | split
    | (refine State.wf_of_mem _ ?_; dsimp only; refine State.mem_of_wf _ ?_)

theorem State.publish_wf (s : State) (pa : Nat) (bs : List Byte) (hs : s.memCanonical) :
    (State.publish s pa bs).memCanonical := by
  unfold State.publish
  repeat' first
    | with_reducible assumption
    | with_reducible apply State.publishLine_wf
    | with_reducible apply State.writeOwned_wf

theorem State.arrive_wf (s : State) (i : Instr) (f : State → State) (hs : s.memCanonical) (hf : ∀ (y0 : State), y0.memCanonical → (f y0).memCanonical) :
    KeepsMem (State.arrive s i f) := by
  unfold State.arrive
  repeat' first
    | with_reducible assumption
    | with_reducible apply hf
    | with_reducible apply foldl_wf
    | with_reducible apply next_wf
    | with_reducible apply fault_wf
    | with_reducible apply refused_wf
    | intro _
    | split
    | (refine State.wf_of_mem _ ?_; dsimp only; refine State.mem_of_wf _ ?_)

theorem State.arriveOrWait_wf (s : State) (i : Instr) (f : State → State) (hs : s.memCanonical) (hf : ∀ (y0 : State), y0.memCanonical → (f y0).memCanonical) :
    KeepsMem (State.arriveOrWait s i f) := by
  unfold State.arriveOrWait
  repeat' first
    | with_reducible assumption
    | with_reducible apply hf
    | with_reducible apply State.arrive_wf
    | with_reducible apply foldl_wf
    | with_reducible apply next_wf
    | with_reducible apply fault_wf
    | with_reducible apply refused_wf
    | intro _
    | split
    | (refine of_next ?_ (by with_reducible assumption))
    | (refine State.wf_of_mem _ ?_; dsimp only; refine State.mem_of_wf _ ?_)

theorem State.atEntry_wf (s : State) (k : Nat) (i : Instr) (free : State → Bool) (f : State → State) (hs : s.memCanonical) (hf : ∀ (y0 : State), y0.memCanonical → (f y0).memCanonical) :
    KeepsMem (State.atEntry s k i free f) := by
  unfold State.atEntry
  repeat' first
    | with_reducible assumption
    | with_reducible apply hf
    | with_reducible apply State.arrive_wf
    | with_reducible apply foldl_wf
    | with_reducible apply next_wf
    | with_reducible apply fault_wf
    | with_reducible apply refused_wf
    | intro _
    | split
    | (refine of_next ?_ (by with_reducible assumption))
    | (refine State.wf_of_mem _ ?_; dsimp only; refine State.mem_of_wf _ ?_)

theorem State.scratchAcquire_wf (s : State) (sp : MSpace) (c : AccessClass) (hs : s.memCanonical) :
    OptMem (State.scratchAcquire s sp c) := by
  unfold State.scratchAcquire
  repeat' first
    | with_reducible assumption
    | with_reducible apply State.askFpub_wf
    | with_reducible apply foldl_wf
    | with_reducible apply some_wf
    | exact none_wf
    | with_reducible apply opt_map_wf
    | with_reducible apply opt_map2_wf
    | intro _
    | split
    | (refine of_some ?_ (by with_reducible assumption))
    | dsimp only

theorem State.scratchWait_wf (s : State) (sp : MSpace) (c : AccessClass) (hs : s.memCanonical) :
    OptMem (State.scratchWait s sp c) := by
  unfold State.scratchWait
  repeat' first
    | with_reducible assumption
    | with_reducible apply State.scratchAcquire_wf
    | with_reducible apply State.depWait_wf
    | with_reducible apply foldl_wf
    | with_reducible apply some_wf
    | exact none_wf
    | with_reducible apply opt_map_wf
    | with_reducible apply opt_map2_wf
    | intro _
    | split
    | (refine of_some ?_ (by with_reducible assumption))

theorem State.scratchDeps_wf (s : State) (sp : MSpace) (hs : s.memCanonical) :
    (State.scratchDeps s sp).memCanonical := by
  unfold State.scratchDeps
  repeat' first
    | with_reducible assumption
    | with_reducible apply State.modCore_wf
    | with_reducible apply foldl_wf
    | intro _
    | split
    | (refine State.wf_of_mem _ ?_; dsimp only; refine State.mem_of_wf _ ?_)

theorem State.barwRead_wf (s : State) (block : Nat) (offset : Nat) (ph : Nat) (va : Dword) (hs : s.memCanonical) :
    (State.barwRead s block offset ph va).memCanonical := by
  unfold State.barwRead
  repeat' first
    | with_reducible assumption
    | with_reducible apply State.finishYield_wf
    | with_reducible apply State.defer_wf
    | with_reducible apply State.sleepYield_wf
    | with_reducible apply State.stall_wf
    | with_reducible apply State.scratchWait_wf
    | with_reducible apply State.scratchDeps_wf
    | with_reducible apply foldl_wf
    | with_reducible apply some_wf
    | exact none_wf
    | intro _
    | split
    | (refine of_some ?_ (by with_reducible assumption))

theorem State.modTiles_wf (s : State) (b : Nat) (ts : List Nat) (f : Tile → Tile) (hs : s.memCanonical) :
    (State.modTiles s b ts f).memCanonical := by
  unfold State.modTiles
  repeat' first
    | with_reducible assumption
    | with_reducible apply State.modBlock_wf

theorem State.modWindow_wf (s : State) (b : Nat) (w : Nat) (f : Window → Window) (hs : s.memCanonical) :
    (State.modWindow s b w f).memCanonical := by
  unfold State.modWindow
  repeat' first
    | with_reducible assumption
    | with_reducible apply State.modBlock_wf

theorem State.gatherTags_wf (s : State) (line : Nat) (g : Nat) (hs : s.memCanonical) :
    (State.gatherTags s line g).memCanonical := by
  unfold State.gatherTags
  repeat' first
    | with_reducible assumption
    | with_reducible apply State.moveTags_wf
    | with_reducible apply foldl_wf
    | intro _

theorem State.cacheAll_wf (s : State) (r : MemReq) (hs : s.memCanonical) :
    (State.cacheAll s r).memCanonical := by
  unfold State.cacheAll
  repeat' first
    | with_reducible assumption
    | with_reducible apply State.cacheXlate_wf
    | with_reducible apply foldl_wf
    | intro _
    | split

theorem State.completeMx_wf (s : State) (core : Nat) (c : MxCmd) (hs : s.memCanonical) :
    (State.completeMx s core c).memCanonical := by
  unfold State.completeMx
  repeat' first
    | with_reducible assumption
    | with_reducible apply State.modWave_wf
    | with_reducible apply State.modBlock_wf
    | with_reducible apply State.modCore_wf

theorem State.dequeue_wf (s : State) (core : Nat) (id : Nat) (hs : s.memCanonical) :
    (State.dequeue s core id).memCanonical := by
  unfold State.dequeue
  repeat' first
    | with_reducible assumption
    | with_reducible apply State.modCore_wf

theorem State.dirtyCopy_wf (s : State) (core : Nat) (line : Nat) (k : Nat) (hs : s.memCanonical) :
    (State.dirtyCopy s core line k).memCanonical := by
  unfold State.dirtyCopy
  repeat' first
    | with_reducible assumption
    | with_reducible apply State.touchCopy_wf
    | with_reducible apply State.setCopy_wf
    | with_reducible apply State.insertCopy_wf
    | with_reducible apply State.dropPart_wf
    | with_reducible apply foldl_wf
    | intro _
    | split
    | (refine State.wf_of_mem _ ?_; dsimp only; refine State.mem_of_wf _ ?_)

theorem State.invalidateOlder_wf (s : State) (y : Nat) (line : Nat) (hs : s.memCanonical) :
    (State.invalidateOlder s y line).memCanonical := by
  unfold State.invalidateOlder
  repeat' first
    | with_reducible assumption
    | with_reducible apply State.sendInvs_wf

theorem State.ownHome_wf (s : State) (k : Nat) (stack : Nat) (hs : s.memCanonical) :
    (State.ownHome s k stack).memCanonical := by
  unfold State.ownHome
  repeat' first
    | with_reducible assumption
    | with_reducible apply State.invalidateOlder_wf
    | with_reducible apply State.gatherTags_wf
    | with_reducible apply State.turnPart_wf
    | with_reducible apply State.setHome_wf
    | with_reducible apply foldl_wf
    | intro _

theorem State.dropOwn_wf (s : State) (core : Nat) (line : Nat) (ks : List Nat) (hs : s.memCanonical) :
    (State.dropOwn s core line ks).memCanonical := by
  unfold State.dropOwn
  repeat' first
    | with_reducible assumption
    | with_reducible apply State.dropL1_wf
    | with_reducible apply State.dropPart_wf
    | with_reducible apply foldl_wf
    | intro _
    | split

theorem State.dropStack_wf (s : State) (y : Nat) (line : Nat) (hs : s.memCanonical) :
    (State.dropStack s y line).memCanonical := by
  unfold State.dropStack
  repeat' first
    | with_reducible assumption
    | with_reducible apply State.dropL1_wf
    | with_reducible apply State.setCopy_wf
    | with_reducible apply foldl_wf
    | intro _

theorem State.dropUnit_wf (s : State) (y : Nat) (k : Nat) (hs : s.memCanonical) :
    (State.dropUnit s y k).memCanonical := by
  unfold State.dropUnit
  repeat' first
    | with_reducible assumption
    | with_reducible apply State.dropL1_wf
    | with_reducible apply State.dropPart_wf
    | with_reducible apply foldl_wf
    | intro _

theorem State.writeCell_wf (s : State) (c : Cell) (bs : List Byte) (hs : s.memCanonical) :
    (State.writeCell s c bs).memCanonical := by
  unfold State.writeCell
  repeat' first
    | with_reducible assumption
    | with_reducible apply State.modCur_wf
    | with_reducible apply State.modBlock_wf
    | with_reducible apply State.modCtx_wf
    | with_reducible apply foldl_wf
    | intro _
    | split

theorem State.enterStore_wf (s : State) (lane : Nat) (va : Dword) (c : Cell) (bs : List Byte) (hs : s.memCanonical) :
    (State.enterStore s lane va c bs).memCanonical := by
  unfold State.enterStore
  repeat' first
    | with_reducible assumption
    | with_reducible apply State.modCore_wf
    | with_reducible apply State.writeCell_wf
    | with_reducible apply foldl_wf
    | intro _
    | split

theorem State.feedLine_wf (s : State) (core : Nat) (k : Nat) (hit : Bool) (wid : Nat) (lid : Nat) (line : Nat) (hs : s.memCanonical) :
    (State.feedLine s core k hit wid lid line).memCanonical := by
  unfold State.feedLine
  repeat' first
    | with_reducible assumption
    | with_reducible apply State.readBlock_wf
    | with_reducible apply State.modWave_wf
    | with_reducible apply State.noteRead_wf
    | with_reducible apply State.recordDeps_wf
    | with_reducible apply State.touchCopy_wf
    | with_reducible apply State.deliver_wf
    | with_reducible apply foldl_wf
    | with_reducible apply some_wf
    | exact none_wf
    | intro _
    | split
    | (refine of_some ?_ (by with_reducible assumption))
    | (refine State.wf_of_mem _ ?_; dsimp only; refine State.mem_of_wf _ ?_)

theorem State.feed_wf (s : State) (core : Nat) (k : Nat) (hit : Bool) (hs : s.memCanonical) :
    (State.feed s core k hit).memCanonical := by
  unfold State.feed
  repeat' first
    | with_reducible assumption
    | with_reducible apply State.feedLine_wf
    | with_reducible apply foldl_wf
    | intro _

theorem State.fillData_wf (s : State) (core : Nat) (k : Nat) (hs : s.memCanonical) :
    (State.fillData s core k).memCanonical := by
  unfold State.fillData
  repeat' first
    | with_reducible assumption
    | with_reducible apply State.fillFrom_wf
    | with_reducible apply State.fillL1_wf
    | with_reducible apply foldl_wf
    | intro _
    | split

theorem State.invalidateOthers_wf (s : State) (core : Nat) (pa : Nat) (n : Nat) (ks : List Nat) (hs : s.memCanonical) :
    (State.invalidateOthers s core pa n ks).memCanonical := by
  unfold State.invalidateOthers
  repeat' first
    | with_reducible assumption
    | with_reducible apply State.modCore_wf
    | with_reducible apply State.sendInvs_wf

theorem State.touch_wf (s : State) (b : Nat) (w : Nat) (byMma : optParam Bool false) (hs : s.memCanonical) :
    (State.touch s b w byMma).memCanonical := by
  unfold State.touch
  repeat' first
    | with_reducible assumption
    | with_reducible apply State.modCur_wf
    | with_reducible apply State.modWindow_wf
    | with_reducible apply State.modTiles_wf
    | with_reducible apply foldl_wf
    | intro _
    | split
    | (refine State.wf_of_mem _ ?_; dsimp only; refine State.mem_of_wf _ ?_)

theorem State.stallAt_wf (s : State) (cells : List (Nat × Dword × Cell)) (hs : s.memCanonical) :
    (State.stallAt s cells).memCanonical := by
  unfold State.stallAt
  repeat' first
    | with_reducible assumption
    | with_reducible apply State.modSplit_wf
    | with_reducible apply State.stall_wf

theorem State.startLoad_wf (s : State) (p : PLoad) (hs : s.memCanonical) :
    (State.startLoad s p).memCanonical := by
  unfold State.startLoad
  repeat' first
    | with_reducible assumption
    | with_reducible apply State.modCur_wf
    | with_reducible apply State.latchResult_wf
    | with_reducible apply State.advanceLoad_wf

theorem State.loadFlow_wf (s : State) (opc : Nat) (r : MemReq) (dst : LoadDst) (empty : State) (hs : s.memCanonical) (hempty : empty.memCanonical) :
    (State.loadFlow s opc r dst empty).memCanonical := by
  unfold State.loadFlow
  repeat' first
    | with_reducible assumption
    | with_reducible apply State.finishYield_wf
    | with_reducible apply State.stall_wf
    | with_reducible apply State.trapHere_wf
    | with_reducible apply State.sleepYield_wf
    | with_reducible apply State.touch_wf
    | with_reducible apply State.scratchWait_wf
    | with_reducible apply State.stallAt_wf
    | with_reducible apply State.startLoad_wf
    | with_reducible apply State.scratchDeps_wf
    | with_reducible apply State.cacheAll_wf
    | with_reducible apply foldl_wf
    | with_reducible apply some_wf
    | exact none_wf
    | intro _
    | split
    | (refine of_some ?_ (by with_reducible assumption))
    | (refine State.wf_of_mem _ ?_; dsimp only; refine State.mem_of_wf _ ?_)

theorem State.vectorLoad_wf (s : State) (opc : Nat) (d : VDst) (r : MemReq) (hs : s.memCanonical) :
    (State.vectorLoad s opc d r).memCanonical := by
  unfold State.vectorLoad
  repeat' first
    | with_reducible assumption
    | with_reducible apply State.loadFlow_wf
    | with_reducible apply State.putV_wf

theorem execLdv_wf (d : VDst) (a : Fin 64) (b : SSrc) (s : State) (hs : s.memCanonical) :
    KeepsMem (execLdv d a b s) := by
  unfold execLdv
  repeat' first
    | with_reducible assumption
    | with_reducible apply issueOp_wf
    | with_reducible apply State.vectorLoad_wf
    | with_reducible apply foldl_wf
    | with_reducible apply next_wf
    | with_reducible apply fault_wf
    | with_reducible apply refused_wf
    | intro _

theorem State.storeFlow_wf (s : State) (opc : Nat) (r : MemReq) (data : Nat → Nat) (hs : s.memCanonical) :
    (State.storeFlow s opc r data).memCanonical := by
  unfold State.storeFlow
  repeat' first
    | with_reducible assumption
    | with_reducible apply State.finishYield_wf
    | with_reducible apply State.stall_wf
    | with_reducible apply State.trapHere_wf
    | with_reducible apply State.gate_wf
    | with_reducible apply State.released_wf
    | with_reducible apply State.enterStore_wf
    | with_reducible apply State.cacheAll_wf
    | with_reducible apply foldl_wf
    | with_reducible apply some_wf
    | exact none_wf
    | intro _
    | split
    | (refine of_some ?_ (by with_reducible assumption))
    | (refine State.wf_of_mem _ ?_; dsimp only; refine State.mem_of_wf _ ?_)

theorem State.vectorStore_wf (s : State) (opc : Nat) (d : Fin 128) (r : MemReq) (hs : s.memCanonical) :
    (State.vectorStore s opc d r).memCanonical := by
  unfold State.vectorStore
  repeat' first
    | with_reducible assumption
    | with_reducible apply State.storeFlow_wf

theorem execStv_wf (d : Fin 128) (a : Fin 64) (b : SSrc) (s : State) (hs : s.memCanonical) :
    KeepsMem (execStv d a b s) := by
  unfold execStv
  repeat' first
    | with_reducible assumption
    | with_reducible apply issueOp_wf
    | with_reducible apply State.vectorStore_wf
    | with_reducible apply foldl_wf
    | with_reducible apply next_wf
    | with_reducible apply fault_wf
    | with_reducible apply refused_wf
    | intro _

theorem State.scalarLoad_wf (s : State) (opc : Nat) (d : SDst) (r : MemReq) (hs : s.memCanonical) :
    (State.scalarLoad s opc d r).memCanonical := by
  unfold State.scalarLoad
  repeat' first
    | with_reducible assumption
    | with_reducible apply State.loadFlow_wf
    | with_reducible apply State.putS_wf

theorem execLds_wf (d : SDst) (a : SSrc) (b : SSrc) (s : State) (hs : s.memCanonical) :
    KeepsMem (execLds d a b s) := by
  unfold execLds
  repeat' first
    | with_reducible assumption
    | with_reducible apply issueOp_wf
    | with_reducible apply State.scalarLoad_wf
    | with_reducible apply foldl_wf
    | with_reducible apply next_wf
    | with_reducible apply fault_wf
    | with_reducible apply refused_wf
    | intro _

theorem State.scalarStore_wf (s : State) (opc : Nat) (d : Fin 64) (r : MemReq) (hs : s.memCanonical) :
    (State.scalarStore s opc d r).memCanonical := by
  unfold State.scalarStore
  repeat' first
    | with_reducible assumption
    | with_reducible apply State.storeFlow_wf

theorem execSts_wf (d : Fin 64) (a : SSrc) (b : SSrc) (s : State) (hs : s.memCanonical) :
    KeepsMem (execSts d a b s) := by
  unfold execSts
  repeat' first
    | with_reducible assumption
    | with_reducible apply issueOp_wf
    | with_reducible apply State.scalarStore_wf
    | with_reducible apply foldl_wf
    | with_reducible apply next_wf
    | with_reducible apply fault_wf
    | with_reducible apply refused_wf
    | intro _

theorem execLdvb_wf (d : VDst) (a : SSrc) (b : SSrc) (s : State) (hs : s.memCanonical) :
    KeepsMem (execLdvb d a b s) := by
  unfold execLdvb
  repeat' first
    | with_reducible assumption
    | with_reducible apply issueOp_wf
    | with_reducible apply State.vectorLoad_wf
    | with_reducible apply foldl_wf
    | with_reducible apply next_wf
    | with_reducible apply fault_wf
    | with_reducible apply refused_wf
    | intro _

theorem execStvb_wf (d : Fin 128) (a : SSrc) (b : SSrc) (s : State) (hs : s.memCanonical) :
    KeepsMem (execStvb d a b s) := by
  unfold execStvb
  repeat' first
    | with_reducible assumption
    | with_reducible apply issueOp_wf
    | with_reducible apply State.vectorStore_wf
    | with_reducible apply foldl_wf
    | with_reducible apply next_wf
    | with_reducible apply fault_wf
    | with_reducible apply refused_wf
    | intro _

theorem execPref_wf (a : SSrc) (b : SSrc) (s : State) (hs : s.memCanonical) :
    KeepsMem (execPref a b s) := by
  unfold execPref
  repeat' first
    | with_reducible assumption
    | with_reducible apply issueOp_wf
    | with_reducible apply State.finishYield_wf
    | with_reducible apply State.readLine_wf
    | with_reducible apply State.cacheAll_wf
    | with_reducible apply foldl_wf
    | with_reducible apply next_wf
    | with_reducible apply fault_wf
    | with_reducible apply refused_wf
    | intro _
    | split
    | (refine of_next ?_ (by with_reducible assumption))
    | (refine of_yes ?_ (by with_reducible assumption))
    | (refine of_notYet ?_ (by with_reducible assumption))
    | (refine State.wf_of_mem _ ?_; dsimp only; refine State.mem_of_wf _ ?_)

theorem State.rmwBlock_wf (s : State) (core : Nat) (line : Nat) (ks : List Nat) (c : AccessClass) (hs : s.memCanonical) :
    OptMem (State.rmwBlock s core line ks c) := by
  unfold State.rmwBlock
  repeat' first
    | with_reducible assumption
    | with_reducible apply State.gainUnits_wf
    | with_reducible apply State.forceTag_wf
    | with_reducible apply State.readBlock_wf
    | with_reducible apply State.sendOnce_wf
    | with_reducible apply foldl_wf
    | with_reducible apply some_wf
    | exact none_wf
    | with_reducible apply opt_map_wf
    | with_reducible apply opt_map2_wf
    | intro _
    | split
    | (refine of_some ?_ (by with_reducible assumption))
    | dsimp only

theorem State.rmwLines_wf (s : State) (c : AccessClass) (z : Nat) (cells : List (Nat × Dword × Cell)) (hs : s.memCanonical) :
    PairMem (s.rmwLines c z cells) := by
  unfold State.rmwLines PairMem
  refine foldl_fst_wf _ (fun u a hu => ?_) _ _ hs
  repeat' first
    | with_reducible assumption
    | split
    | (refine of_some ?_ (by with_reducible assumption))
    | with_reducible apply State.rmwBlock_wf
    | with_reducible apply State.noteRead_wf
    | with_reducible apply State.recordDeps_wf
    | with_reducible apply State.dropOwn_wf
    | dsimp only

theorem State.markUnpub_wf (s : State) (k : Nat) (hs : s.memCanonical) :
    (State.markUnpub s k).memCanonical := by
  unfold State.markUnpub
  repeat' first
    | with_reducible assumption
    | with_reducible apply State.setHome_wf
    | with_reducible apply foldl_wf
    | intro _
    | split
    | (refine State.wf_of_mem _ ?_; dsimp only; refine State.mem_of_wf _ ?_)

theorem State.recordTag_wf (s : State) (core : Nat) (line : Nat) (ks : List Nat) (epoch : Nat) (hs : s.memCanonical) :
    (State.recordTag s core line ks epoch).memCanonical := by
  unfold State.recordTag
  repeat' first
    | with_reducible assumption
    | with_reducible apply State.modCluster_wf
    | with_reducible apply foldl_wf
    | intro _
    | split
    | (refine State.wf_of_mem _ ?_; dsimp only; refine State.mem_of_wf _ ?_)

theorem State.perform_wf (s : State) (core : Nat) (pa : Nat) (bs : List Byte) (id : Nat) (epoch : Nat) (hs : s.memCanonical) :
    (State.perform s core pa bs id epoch).memCanonical := by
  unfold State.perform
  repeat' first
    | with_reducible assumption
    | with_reducible apply State.markUnpub_wf
    | with_reducible apply State.dirtyCopy_wf
    | with_reducible apply State.writeOwned_wf
    | with_reducible apply State.recordTag_wf
    | with_reducible apply State.invalidateOthers_wf
    | with_reducible apply State.settle_wf
    | with_reducible apply State.modCore_wf
    | with_reducible apply foldl_wf
    | intro _

theorem State.rmwWrite_wf (s : State) (c : Cell) (bs : List Byte) (hs : s.memCanonical) :
    (State.rmwWrite s c bs).memCanonical := by
  unfold State.rmwWrite
  repeat' first
    | with_reducible assumption
    | with_reducible apply State.perform_wf
    | with_reducible apply State.modCore_wf
    | with_reducible apply State.writeCell_wf
    | with_reducible apply foldl_wf
    | intro _
    | split

theorem State.rmwTouch_wf (s : State) (z : Nat) (c : Cell) (hs : s.memCanonical) :
    (State.rmwTouch s z c).memCanonical := by
  unfold State.rmwTouch
  repeat' first
    | with_reducible assumption
    | with_reducible apply State.enterSlice_wf
    | with_reducible apply foldl_wf
    | intro _
    | split

theorem State.rmwGroup_wf (s : State) (z : Nat) (f : Group) (c : Cell) (ls : List Nat) (r : RmwResult) (hs : s.memCanonical) :
    PairMem (State.rmwGroup s z f c ls r) := by
  unfold State.rmwGroup
  repeat' first
    | with_reducible assumption
    | with_reducible apply State.rmwWrite_wf
    | with_reducible apply State.rmwTouch_wf
    | with_reducible apply foldl_wf
    | with_reducible apply pair_wf
    | intro _
    | split

theorem State.rmwCause_wf (s : State) (r : RmwResult) (cells : List (Nat × Dword × Cell)) (dst : Option LoadDst) (hs : s.memCanonical) :
    (State.rmwCause s r cells dst).memCanonical := by
  unfold State.rmwCause
  repeat' first
    | with_reducible assumption
    | with_reducible apply State.defer_wf
    | with_reducible apply foldl_wf
    | intro _
    | split
    | (refine State.wf_of_mem _ ?_; dsimp only; refine State.mem_of_wf _ ?_)

theorem State.rmwFlow_wf (s : State) (opc : Nat) (r : MemReq) (f : Group) (dst : Option LoadDst) (empty : State)
    (put : State → (Nat → Nat) → State) (hs : s.memCanonical) (he : empty.memCanonical)
    (hp : ∀ u g, u.memCanonical → (put u g).memCanonical) : (s.rmwFlow opc r f dst empty put).memCanonical := by
  unfold State.rmwFlow
  extract_lets cls
  split
  · exact State.finishYield_wf _ he
  split
  · exact State.stall_wf _ _ hs
  split
  · exact State.stall_wf _ _ hs
  split
  · exact State.trapHere_wf _ _ hs
  · exact hs
  split
  · exact State.stall_wf _ _ hs
  split
  · rename_i hg
    split at hg
    · exact of_some (State.gate_wf _ _ _ _ hs) hg
    · cases hg
  split
  · rename_i hg
    exact State.stallAt_wf _ _ (of_some (State.scratchWait_wf _ _ _ hs) hg)
  have hl := State.rmwLines_wf (s.cacheAll r) cls r.z ‹_› (State.cacheAll_wf _ _ hs)
  revert hl
  rcases State.rmwLines (s.cacheAll r) cls _ _ with ⟨s1, ready⟩
  intro hl
  dsimp only
  split
  · exact State.stallAt_wf _ _ hl
  refine State.finishYield_wf _ (State.rmwCause_wf _ _ _ _ (hp _ _ ?_))
  refine foldl_fst_wf _ (fun u a hu => State.rmwGroup_wf _ _ _ _ _ _ hu) _ _ (State.scratchDeps_wf _ _ ?_)
  split
  · exact State.released_wf _ _ _ hl
  · exact hl

theorem vecAtomic_wf (i : Instr) (opc : Nat) (d : VDst) (a : Fin 64) (g : State → Group) (s : State) (hs : s.memCanonical) :
    KeepsMem (vecAtomic i opc d a g s) := by
  unfold vecAtomic
  repeat' first
    | with_reducible assumption
    | with_reducible apply issueOp_wf
    | with_reducible apply State.rmwFlow_wf
    | with_reducible apply State.putV_wf
    | with_reducible apply foldl_wf
    | with_reducible apply next_wf
    | with_reducible apply fault_wf
    | with_reducible apply refused_wf
    | intro _

theorem execAadd_wf (d : VDst) (a : Fin 64) (b : VSrc) (s : State) (hs : s.memCanonical) :
    KeepsMem (execAadd d a b s) := by
  unfold execAadd
  repeat' first
    | with_reducible assumption
    | with_reducible apply vecAtomic_wf

theorem execAmin_wf (d : VDst) (a : Fin 64) (b : VSrc) (s : State) (hs : s.memCanonical) :
    KeepsMem (execAmin d a b s) := by
  unfold execAmin
  repeat' first
    | with_reducible assumption
    | with_reducible apply vecAtomic_wf

theorem execAmax_wf (d : VDst) (a : Fin 64) (b : VSrc) (s : State) (hs : s.memCanonical) :
    KeepsMem (execAmax d a b s) := by
  unfold execAmax
  repeat' first
    | with_reducible assumption
    | with_reducible apply vecAtomic_wf

theorem execAand_wf (d : VDst) (a : Fin 64) (b : VSrc) (s : State) (hs : s.memCanonical) :
    KeepsMem (execAand d a b s) := by
  unfold execAand
  repeat' first
    | with_reducible assumption
    | with_reducible apply vecAtomic_wf

theorem execAor_wf (d : VDst) (a : Fin 64) (b : VSrc) (s : State) (hs : s.memCanonical) :
    KeepsMem (execAor d a b s) := by
  unfold execAor
  repeat' first
    | with_reducible assumption
    | with_reducible apply vecAtomic_wf

theorem execAxor_wf (d : VDst) (a : Fin 64) (b : VSrc) (s : State) (hs : s.memCanonical) :
    KeepsMem (execAxor d a b s) := by
  unfold execAxor
  repeat' first
    | with_reducible assumption
    | with_reducible apply vecAtomic_wf

theorem execAxchg_wf (d : VDst) (a : Fin 64) (b : VSrc) (s : State) (hs : s.memCanonical) :
    KeepsMem (execAxchg d a b s) := by
  unfold execAxchg
  repeat' first
    | with_reducible assumption
    | with_reducible apply vecAtomic_wf

theorem execAincw_wf (d : VDst) (a : Fin 64) (b : VSrc) (s : State) (hs : s.memCanonical) :
    KeepsMem (execAincw d a b s) := by
  unfold execAincw
  repeat' first
    | with_reducible assumption
    | with_reducible apply vecAtomic_wf

theorem execAdecw_wf (d : VDst) (a : Fin 64) (b : VSrc) (s : State) (hs : s.memCanonical) :
    KeepsMem (execAdecw d a b s) := by
  unfold execAdecw
  repeat' first
    | with_reducible assumption
    | with_reducible apply vecAtomic_wf

theorem execCas_wf (d : Fin 128) (a : Fin 64) (b : VSrc) (s : State) (hs : s.memCanonical) :
    KeepsMem (execCas d a b s) := by
  unfold execCas
  repeat' first
    | with_reducible assumption
    | with_reducible apply vecAtomic_wf

theorem State.putQuad_wf (s : State) (q : Fin 32) (f : Nat → Nat) (hs : s.memCanonical) :
    (State.putQuad s q f).memCanonical := by
  unfold State.putQuad
  repeat' first
    | with_reducible assumption
    | with_reducible apply State.modCur_wf

theorem execCas128_wf (d : Fin 32) (a : Fin 64) (b : Fin 32) (s : State) (hs : s.memCanonical) :
    KeepsMem (execCas128 d a b s) := by
  unfold execCas128
  repeat' first
    | with_reducible assumption
    | with_reducible apply issueOp_wf
    | with_reducible apply State.rmwFlow_wf
    | with_reducible apply State.putQuad_wf
    | with_reducible apply foldl_wf
    | with_reducible apply next_wf
    | with_reducible apply fault_wf
    | with_reducible apply refused_wf
    | intro _

theorem scalarAtomic_wf (i : Instr) (opc : Nat) (d : SDst) (a : SSrc) (g : State → Group) (s : State) (hs : s.memCanonical) :
    KeepsMem (scalarAtomic i opc d a g s) := by
  unfold scalarAtomic
  repeat' first
    | with_reducible assumption
    | with_reducible apply issueOp_wf
    | with_reducible apply State.rmwFlow_wf
    | with_reducible apply State.putS_wf
    | with_reducible apply foldl_wf
    | with_reducible apply next_wf
    | with_reducible apply fault_wf
    | with_reducible apply refused_wf
    | intro _

theorem execAadds_wf (d : SDst) (a : SSrc) (b : SSrc) (s : State) (hs : s.memCanonical) :
    KeepsMem (execAadds d a b s) := by
  unfold execAadds
  repeat' first
    | with_reducible assumption
    | with_reducible apply scalarAtomic_wf

theorem execCass_wf (d : Fin 64) (a : SSrc) (b : SSrc) (s : State) (hs : s.memCanonical) :
    KeepsMem (execCass d a b s) := by
  unfold execCass
  repeat' first
    | with_reducible assumption
    | with_reducible apply scalarAtomic_wf

theorem execFence_wf (b : FenceOp) (s : State) (hs : s.memCanonical) :
    KeepsMem (execFence b s) := by
  unfold execFence
  repeat' first
    | with_reducible assumption
    | with_reducible apply issueOp_wf
    | with_reducible apply State.finishYield_wf
    | with_reducible apply State.gate_wf
    | with_reducible apply State.passCur_wf
    | with_reducible apply State.released_wf
    | with_reducible apply foldl_wf
    | with_reducible apply some_wf
    | exact none_wf
    | with_reducible apply next_wf
    | with_reducible apply fault_wf
    | with_reducible apply refused_wf
    | intro _
    | split
    | (refine of_next ?_ (by with_reducible assumption))
    | (refine of_some ?_ (by with_reducible assumption))
    | (refine State.wf_of_mem _ ?_; dsimp only; refine State.mem_of_wf _ ?_)

theorem State.waitaDecide_wf (s : State) (r : Watch) (v : Nat) (cause : Nat) (hs : s.memCanonical) :
    (State.waitaDecide s r v cause).memCanonical := by
  unfold State.waitaDecide
  repeat' first
    | with_reducible assumption
    | with_reducible apply State.finishYield_wf
    | with_reducible apply State.defer_wf
    | with_reducible apply State.sleepYield_wf
    | with_reducible apply State.scratchDeps_wf
    | with_reducible apply foldl_wf
    | intro _
    | split

theorem State.readNow_wf (s : State) (line : Nat) (ks : List Nat) (c : AccessClass) (hs : s.memCanonical) :
    (State.readNow s line ks c).keepsMem := by
  unfold State.readNow
  repeat' first
    | with_reducible assumption
    | with_reducible apply State.readSpan_wf
    | with_reducible apply State.readLine_wf
    | with_reducible apply foldl_wf
    | with_reducible apply yes_wf
    | with_reducible apply notYet_wf
    | intro _
    | split
    | (refine of_yes ?_ (by with_reducible assumption))
    | (refine of_notYet ?_ (by with_reducible assumption))

theorem State.waitaRead_wf (s : State) (r : Watch) (later : State → State) (hs : s.memCanonical) (hlater : ∀ (y0 : State), y0.memCanonical → (later y0).memCanonical) :
    (State.waitaRead s r later).memCanonical := by
  unfold State.waitaRead
  repeat' first
    | with_reducible assumption
    | with_reducible apply hlater
    | with_reducible apply State.waitaDecide_wf
    | with_reducible apply State.readNow_wf
    | with_reducible apply State.scratchWait_wf
    | with_reducible apply foldl_wf
    | with_reducible apply some_wf
    | exact none_wf
    | intro _
    | split
    | (refine of_some ?_ (by with_reducible assumption))
    | (refine of_yes ?_ (by with_reducible assumption))
    | (refine of_notYet ?_ (by with_reducible assumption))
    | (refine State.wf_of_mem _ ?_; dsimp only; refine State.mem_of_wf _ ?_)

theorem execWaita_wf (d : Space) (a : SSrc) (b : SSrc) (s : State) (hs : s.memCanonical) :
    KeepsMem (execWaita d a b s) := by
  unfold execWaita
  repeat' first
    | with_reducible assumption
    | with_reducible apply issueOp_wf
    | with_reducible apply State.stall_wf
    | with_reducible apply State.waitaRead_wf
    | with_reducible apply State.finishYield_wf
    | with_reducible apply State.trapHere_wf
    | with_reducible apply State.cacheAll_wf
    | with_reducible apply State.stallAt_wf
    | with_reducible apply foldl_wf
    | with_reducible apply next_wf
    | with_reducible apply fault_wf
    | with_reducible apply refused_wf
    | intro _
    | split
    | (refine of_next ?_ (by with_reducible assumption))
    | (refine State.wf_of_mem _ ?_; dsimp only; refine State.mem_of_wf _ ?_)

theorem execDrain_wf (b : Scope) (s : State) (hs : s.memCanonical) :
    KeepsMem (execDrain b s) := by
  unfold execDrain
  repeat' first
    | with_reducible assumption
    | with_reducible apply issueOp_wf
    | with_reducible apply State.finishYield_wf
    | with_reducible apply State.stall_wf
    | with_reducible apply State.sleepYield_wf
    | with_reducible apply foldl_wf
    | with_reducible apply next_wf
    | with_reducible apply fault_wf
    | with_reducible apply refused_wf
    | intro _
    | split

theorem vecReduction_wf (i : Instr) (opc : Nat) (a : Fin 64) (g : State → Group) (s : State) (hs : s.memCanonical) :
    KeepsMem (vecReduction i opc a g s) := by
  unfold vecReduction
  repeat' first
    | with_reducible assumption
    | with_reducible apply issueOp_wf
    | with_reducible apply State.rmwFlow_wf
    | with_reducible apply foldl_wf
    | with_reducible apply next_wf
    | with_reducible apply fault_wf
    | with_reducible apply refused_wf
    | intro _

theorem execRdadd_wf (a : Fin 64) (b : VSrc) (s : State) (hs : s.memCanonical) :
    KeepsMem (execRdadd a b s) := by
  unfold execRdadd
  repeat' first
    | with_reducible assumption
    | with_reducible apply vecReduction_wf

theorem execRdmin_wf (a : Fin 64) (b : VSrc) (s : State) (hs : s.memCanonical) :
    KeepsMem (execRdmin a b s) := by
  unfold execRdmin
  repeat' first
    | with_reducible assumption
    | with_reducible apply vecReduction_wf

theorem execRdmax_wf (a : Fin 64) (b : VSrc) (s : State) (hs : s.memCanonical) :
    KeepsMem (execRdmax a b s) := by
  unfold execRdmax
  repeat' first
    | with_reducible assumption
    | with_reducible apply vecReduction_wf

theorem execRdand_wf (a : Fin 64) (b : VSrc) (s : State) (hs : s.memCanonical) :
    KeepsMem (execRdand a b s) := by
  unfold execRdand
  repeat' first
    | with_reducible assumption
    | with_reducible apply vecReduction_wf

theorem execRdor_wf (a : Fin 64) (b : VSrc) (s : State) (hs : s.memCanonical) :
    KeepsMem (execRdor a b s) := by
  unfold execRdor
  repeat' first
    | with_reducible assumption
    | with_reducible apply vecReduction_wf

theorem execRdxor_wf (a : Fin 64) (b : VSrc) (s : State) (hs : s.memCanonical) :
    KeepsMem (execRdxor a b s) := by
  unfold execRdxor
  repeat' first
    | with_reducible assumption
    | with_reducible apply vecReduction_wf

theorem spadLoad_wf (i : Instr) (opc : Nat) (sp : MSpace) (touches : Bool) (d : VDst) (a : VSrc) (b : SSrc) (s : State) (hs : s.memCanonical) :
    KeepsMem (spadLoad i opc sp touches d a b s) := by
  unfold spadLoad
  repeat' first
    | with_reducible assumption
    | with_reducible apply issueOp_wf
    | with_reducible apply State.vectorLoad_wf
    | with_reducible apply foldl_wf
    | with_reducible apply next_wf
    | with_reducible apply fault_wf
    | with_reducible apply refused_wf
    | intro _

theorem execLdp_wf (d : VDst) (a : VSrc) (b : SSrc) (s : State) (hs : s.memCanonical) :
    KeepsMem (execLdp d a b s) := by
  unfold execLdp
  repeat' first
    | with_reducible assumption
    | with_reducible apply spadLoad_wf

theorem spadStore_wf (i : Instr) (opc : Nat) (sp : MSpace) (d : Fin 128) (a : VSrc) (b : SSrc) (s : State) (hs : s.memCanonical) :
    KeepsMem (spadStore i opc sp d a b s) := by
  unfold spadStore
  repeat' first
    | with_reducible assumption
    | with_reducible apply issueOp_wf
    | with_reducible apply State.vectorStore_wf
    | with_reducible apply foldl_wf
    | with_reducible apply next_wf
    | with_reducible apply fault_wf
    | with_reducible apply refused_wf
    | intro _

theorem execStp_wf (d : Fin 128) (a : VSrc) (b : SSrc) (s : State) (hs : s.memCanonical) :
    KeepsMem (execStp d a b s) := by
  unfold execStp
  repeat' first
    | with_reducible assumption
    | with_reducible apply spadStore_wf

theorem execLdc_wf (d : VDst) (a : VSrc) (b : SSrc) (s : State) (hs : s.memCanonical) :
    KeepsMem (execLdc d a b s) := by
  unfold execLdc
  repeat' first
    | with_reducible assumption
    | with_reducible apply spadLoad_wf

theorem execStc_wf (d : Fin 128) (a : VSrc) (b : SSrc) (s : State) (hs : s.memCanonical) :
    KeepsMem (execStc d a b s) := by
  unfold execStc
  repeat' first
    | with_reducible assumption
    | with_reducible apply spadStore_wf

theorem execLdk_wf (d : VDst) (a : VSrc) (b : SSrc) (s : State) (hs : s.memCanonical) :
    KeepsMem (execLdk d a b s) := by
  unfold execLdk
  repeat' first
    | with_reducible assumption
    | with_reducible apply spadLoad_wf

theorem execStk_wf (d : Fin 128) (a : VSrc) (b : SSrc) (s : State) (hs : s.memCanonical) :
    KeepsMem (execStk d a b s) := by
  unfold execStk
  repeat' first
    | with_reducible assumption
    | with_reducible apply spadStore_wf

theorem execLdl_wf (d : VDst) (a : VSrc) (b : SSrc) (s : State) (hs : s.memCanonical) :
    KeepsMem (execLdl d a b s) := by
  unfold execLdl
  repeat' first
    | with_reducible assumption
    | with_reducible apply spadLoad_wf

theorem execStl_wf (d : Fin 128) (a : VSrc) (b : SSrc) (s : State) (hs : s.memCanonical) :
    KeepsMem (execStl d a b s) := by
  unfold execStl
  repeat' first
    | with_reducible assumption
    | with_reducible apply spadStore_wf

theorem clusterAtomic_wf (i : Instr) (opc : Nat) (d : VDst) (a : VSrc) (g : State → Group) (s : State) (hs : s.memCanonical) :
    KeepsMem (clusterAtomic i opc d a g s) := by
  unfold clusterAtomic
  repeat' first
    | with_reducible assumption
    | with_reducible apply issueOp_wf
    | with_reducible apply State.rmwFlow_wf
    | with_reducible apply State.putV_wf
    | with_reducible apply foldl_wf
    | with_reducible apply next_wf
    | with_reducible apply fault_wf
    | with_reducible apply refused_wf
    | intro _

theorem execAaddc_wf (d : VDst) (a : VSrc) (b : VSrc) (s : State) (hs : s.memCanonical) :
    KeepsMem (execAaddc d a b s) := by
  unfold execAaddc
  repeat' first
    | with_reducible assumption
    | with_reducible apply clusterAtomic_wf

theorem execCasc_wf (d : Fin 128) (a : VSrc) (b : VSrc) (s : State) (hs : s.memCanonical) :
    KeepsMem (execCasc d a b s) := by
  unfold execCasc
  repeat' first
    | with_reducible assumption
    | with_reducible apply clusterAtomic_wf

theorem State.orElse_wf (s : State) (t : Option TrapInfo) (f : State → State) (hs : s.memCanonical) (hf : ∀ (y0 : State), y0.memCanonical → (f y0).memCanonical) :
    (State.orElse s t f).memCanonical := by
  unfold State.orElse
  repeat' first
    | with_reducible assumption
    | with_reducible apply hf
    | with_reducible apply State.trapHere_wf
    | with_reducible apply foldl_wf
    | intro _
    | split

theorem execBarv_wf (d : SDst) (a : SSrc) (s : State) (hs : s.memCanonical) :
    KeepsMem (execBarv d a s) := by
  unfold execBarv
  repeat' first
    | with_reducible assumption
    | with_reducible apply issueOp_wf
    | with_reducible apply State.finishYield_wf
    | with_reducible apply State.putS_wf
    | with_reducible apply State.stall_wf
    | with_reducible apply State.trapHere_wf
    | with_reducible apply State.gate_wf
    | with_reducible apply State.writeCell_wf
    | with_reducible apply State.released_wf
    | with_reducible apply foldl_wf
    | with_reducible apply some_wf
    | exact none_wf
    | with_reducible apply next_wf
    | with_reducible apply fault_wf
    | with_reducible apply refused_wf
    | intro _
    | split
    | (refine of_next ?_ (by with_reducible assumption))
    | (refine of_some ?_ (by with_reducible assumption))
    | (refine State.wf_of_mem _ ?_; dsimp only; refine State.mem_of_wf _ ?_)

theorem execBarw_wf (a : SSrc) (b : SSrc) (s : State) (hs : s.memCanonical) :
    KeepsMem (execBarw a b s) := by
  unfold execBarw
  repeat' first
    | with_reducible assumption
    | with_reducible apply issueOp_wf
    | with_reducible apply State.barwRead_wf
    | with_reducible apply State.finishYield_wf
    | with_reducible apply State.stall_wf
    | with_reducible apply State.trapHere_wf
    | with_reducible apply foldl_wf
    | with_reducible apply next_wf
    | with_reducible apply fault_wf
    | with_reducible apply refused_wf
    | intro _
    | split
    | (refine of_next ?_ (by with_reducible assumption))
    | (refine State.wf_of_mem _ ?_; dsimp only; refine State.mem_of_wf _ ?_)

theorem execLdps_wf (d : SDst) (a : SSrc) (b : SSrc) (s : State) (hs : s.memCanonical) :
    KeepsMem (execLdps d a b s) := by
  unfold execLdps
  repeat' first
    | with_reducible assumption
    | with_reducible apply issueOp_wf
    | with_reducible apply State.scalarLoad_wf
    | with_reducible apply foldl_wf
    | with_reducible apply next_wf
    | with_reducible apply fault_wf
    | with_reducible apply refused_wf
    | intro _

theorem execStps_wf (d : Fin 64) (a : SSrc) (b : SSrc) (s : State) (hs : s.memCanonical) :
    KeepsMem (execStps d a b s) := by
  unfold execStps
  repeat' first
    | with_reducible assumption
    | with_reducible apply issueOp_wf
    | with_reducible apply State.scalarStore_wf
    | with_reducible apply foldl_wf
    | with_reducible apply next_wf
    | with_reducible apply fault_wf
    | with_reducible apply refused_wf
    | intro _

theorem mxIssue_wf (i : Instr) (s : State) (body : State → State) (hs : s.memCanonical) (hbody : ∀ (y0 : State), y0.memCanonical → (body y0).memCanonical) :
    KeepsMem (mxIssue i s body) := by
  unfold mxIssue
  repeat' first
    | with_reducible assumption
    | with_reducible apply hbody
    | with_reducible apply issueOp_wf
    | with_reducible apply State.finish_wf
    | with_reducible apply State.stall_wf
    | with_reducible apply foldl_wf
    | with_reducible apply next_wf
    | with_reducible apply fault_wf
    | with_reducible apply refused_wf
    | intro _
    | split

theorem State.pushMx_wf (s : State) (op : MxOp) (ts : List Nat) (hs : s.memCanonical) :
    (State.pushMx s op ts).memCanonical := by
  unfold State.pushMx
  repeat' first
    | with_reducible assumption
    | with_reducible apply State.modCur_wf
    | with_reducible apply State.modCore_wf

theorem State.takeTiles_wf (s : State) (ts : List Nat) (mark : Bool) (hs : s.memCanonical) :
    (State.takeTiles s ts mark).memCanonical := by
  unfold State.takeTiles
  repeat' first
    | with_reducible assumption
    | with_reducible apply State.modTiles_wf
    | with_reducible apply State.touch_wf
    | with_reducible apply foldl_wf
    | intro _
    | split

theorem execMma_wf (d : Fin 8) (a : SSrc) (b : Fin 16) (s : State) (hs : s.memCanonical) :
    KeepsMem (execMma d a b s) := by
  unfold execMma
  repeat' first
    | with_reducible assumption
    | with_reducible apply mxIssue_wf
    | with_reducible apply State.orElse_wf
    | with_reducible apply State.afterHandOver_wf
    | with_reducible apply State.finish_wf
    | with_reducible apply State.pushMx_wf
    | with_reducible apply State.modBlock_wf
    | with_reducible apply State.takeTiles_wf
    | with_reducible apply foldl_wf
    | with_reducible apply next_wf
    | with_reducible apply fault_wf
    | with_reducible apply refused_wf
    | intro _

theorem execMmz_wf (d : Fin 8) (s : State) (hs : s.memCanonical) :
    KeepsMem (execMmz d s) := by
  unfold execMmz
  repeat' first
    | with_reducible assumption
    | with_reducible apply mxIssue_wf
    | with_reducible apply State.finish_wf
    | with_reducible apply State.pushMx_wf
    | with_reducible apply State.modBlock_wf
    | with_reducible apply foldl_wf
    | with_reducible apply next_wf
    | with_reducible apply fault_wf
    | with_reducible apply refused_wf
    | intro _

theorem execMmd_wf (d : Fin 8) (a : SSrc) (b : Bool) (s : State) (hs : s.memCanonical) :
    KeepsMem (execMmd d a b s) := by
  unfold execMmd
  repeat' first
    | with_reducible assumption
    | with_reducible apply mxIssue_wf
    | with_reducible apply State.orElse_wf
    | with_reducible apply State.afterHandOver_wf
    | with_reducible apply State.scratchWait_wf
    | with_reducible apply State.stall_wf
    | with_reducible apply State.finish_wf
    | with_reducible apply State.pushMx_wf
    | with_reducible apply State.takeTiles_wf
    | with_reducible apply State.scratchDeps_wf
    | with_reducible apply foldl_wf
    | with_reducible apply some_wf
    | exact none_wf
    | with_reducible apply next_wf
    | with_reducible apply fault_wf
    | with_reducible apply refused_wf
    | intro _
    | split
    | (refine of_next ?_ (by with_reducible assumption))
    | (refine of_some ?_ (by with_reducible assumption))

theorem execWload_wf (d : Fin 16) (a : SSrc) (b : Fin 80) (s : State) (hs : s.memCanonical) :
    KeepsMem (execWload d a b s) := by
  unfold execWload
  repeat' first
    | with_reducible assumption
    | with_reducible apply mxIssue_wf
    | with_reducible apply State.orElse_wf
    | with_reducible apply State.afterHandOver_wf
    | with_reducible apply State.finish_wf
    | with_reducible apply State.pushMx_wf
    | with_reducible apply State.modBlock_wf
    | with_reducible apply State.takeTiles_wf
    | with_reducible apply foldl_wf
    | with_reducible apply next_wf
    | with_reducible apply fault_wf
    | with_reducible apply refused_wf
    | intro _

theorem execMmsync_wf (s : State) (hs : s.memCanonical) :
    KeepsMem (execMmsync s) := by
  unfold execMmsync
  repeat' first
    | with_reducible assumption
    | with_reducible apply issueOp_wf
    | with_reducible apply State.finish_wf
    | with_reducible apply State.stall_wf
    | with_reducible apply foldl_wf
    | with_reducible apply next_wf
    | with_reducible apply fault_wf
    | with_reducible apply refused_wf
    | intro _
    | split

theorem execLoadDataReturn_wf (wave : Nat) (load : Nat) (s : State) (hs : s.memCanonical) :
    KeepsMem (execLoadDataReturn wave load s) := by
  unfold execLoadDataReturn
  repeat' first
    | with_reducible assumption
    | with_reducible apply State.advanceLoad_wf
    | with_reducible apply foldl_wf
    | with_reducible apply next_wf
    | with_reducible apply fault_wf
    | with_reducible apply refused_wf
    | intro _
    | split

theorem execWaitaPeriodicWake_wf (wave : Nat) (s : State) (hs : s.memCanonical) :
    KeepsMem (execWaitaPeriodicWake wave s) := by
  unfold execWaitaPeriodicWake
  repeat' first
    | with_reducible assumption
    | with_reducible apply State.modWave_wf
    | with_reducible apply foldl_wf
    | with_reducible apply next_wf

theorem execDrainComplete_wf (wave : Nat) (s : State) (hs : s.memCanonical) :
    KeepsMem (execDrainComplete wave s) := by
  unfold execDrainComplete
  repeat' first
    | with_reducible assumption
    | with_reducible apply State.modWave_wf
    | with_reducible apply foldl_wf
    | with_reducible apply next_wf

theorem State.mxPoison_wf (s : State) (c : MxCmd) (faddr : Nat) (hs : s.memCanonical) :
    (State.mxPoison s c faddr).memCanonical := by
  unfold State.mxPoison
  repeat' first
    | with_reducible assumption
    | with_reducible apply State.defer_wf

theorem execMmaExecute_wf (core : Nat) (s : State) (hs : s.memCanonical) :
    KeepsMem (execMmaExecute core s) := by
  unfold execMmaExecute
  repeat' first
    | with_reducible assumption
    | with_reducible apply State.modBlock_wf
    | with_reducible apply State.mxPoison_wf
    | with_reducible apply State.modCore_wf
    | with_reducible apply State.completeMx_wf
    | with_reducible apply foldl_wf
    | with_reducible apply next_wf
    | with_reducible apply fault_wf
    | with_reducible apply refused_wf
    | intro _
    | split

theorem execMmzExecute_wf (core : Nat) (s : State) (hs : s.memCanonical) :
    KeepsMem (execMmzExecute core s) := by
  unfold execMmzExecute
  repeat' first
    | with_reducible assumption
    | with_reducible apply State.completeMx_wf
    | with_reducible apply State.modBlock_wf
    | with_reducible apply foldl_wf
    | with_reducible apply next_wf
    | with_reducible apply fault_wf
    | with_reducible apply refused_wf
    | intro _
    | split

theorem execMmdExecute_wf (core : Nat) (s : State) (hs : s.memCanonical) :
    KeepsMem (execMmdExecute core s) := by
  unfold execMmdExecute
  repeat' first
    | with_reducible assumption
    | with_reducible apply State.modBlock_wf
    | with_reducible apply State.completeMx_wf
    | with_reducible apply foldl_wf
    | with_reducible apply next_wf
    | with_reducible apply fault_wf
    | with_reducible apply refused_wf
    | intro _
    | split

theorem execWloadExecute_wf (core : Nat) (s : State) (hs : s.memCanonical) :
    KeepsMem (execWloadExecute core s) := by
  unfold execWloadExecute
  repeat' first
    | with_reducible assumption
    | with_reducible apply State.completeMx_wf
    | with_reducible apply State.modBlock_wf
    | with_reducible apply foldl_wf
    | with_reducible apply next_wf
    | with_reducible apply fault_wf
    | with_reducible apply refused_wf
    | intro _
    | split

theorem State.loseStore_wf (s : State) (e : WqEntry) (hs : s.memCanonical) :
    (State.loseStore s e).memCanonical := by
  unfold State.loseStore
  repeat' first
    | with_reducible assumption
    | with_reducible apply State.defer_wf

theorem execWr_wf (core : Nat) (write : Nat) (s : State) (hs : s.memCanonical) :
    KeepsMem (execWr core write s) := by
  unfold execWr
  repeat' first
    | with_reducible assumption
    | with_reducible apply State.loseStore_wf
    | with_reducible apply State.dequeue_wf
    | with_reducible apply State.forceTag_wf
    | with_reducible apply State.gainUnits_wf
    | with_reducible apply State.perform_wf
    | with_reducible apply foldl_wf
    | with_reducible apply some_wf
    | exact none_wf
    | with_reducible apply next_wf
    | with_reducible apply fault_wf
    | with_reducible apply refused_wf
    | intro _
    | split
    | (refine of_some ?_ (by with_reducible assumption))
    | dsimp only

theorem State.repress_wf (s : State) (core : Nat) (hs : s.memCanonical) :
    (State.repress s core).memCanonical := by
  unfold State.repress
  repeat' first
    | with_reducible assumption
    | with_reducible apply State.press_wf
    | with_reducible apply foldl_wf
    | intro _
    | split

theorem State.retryFpubs_wf (s : State) (core : Nat) (hs : s.memCanonical) :
    (State.retryFpubs s core).memCanonical := by
  unfold State.retryFpubs
  repeat' first
    | with_reducible assumption
    | with_reducible apply State.sendOnce_wf
    | with_reducible apply State.modCore_wf
    | with_reducible apply State.press_wf
    | with_reducible apply State.askFpub_wf
    | with_reducible apply foldl_wf
    | intro _
    | split
    | (refine State.wf_of_mem _ ?_; dsimp only; refine State.mem_of_wf _ ?_)

theorem execPack_wf (core : Nat) (write : Nat) (level : Nat) (s : State) (hs : s.memCanonical) :
    KeepsMem (execPack core write level s) := by
  unfold execPack
  repeat' first
    | with_reducible assumption
    | with_reducible apply State.arrive_wf
    | with_reducible apply State.modCore_wf
    | with_reducible apply State.repress_wf
    | with_reducible apply State.retryFpubs_wf
    | with_reducible apply foldl_wf
    | with_reducible apply next_wf
    | with_reducible apply fault_wf
    | with_reducible apply refused_wf
    | intro _

theorem execInv_wf (line : Nat) (cluster : Nat) (writer : Nat) (s : State) (hs : s.memCanonical) :
    KeepsMem (execInv line cluster writer s) := by
  unfold execInv
  repeat' first
    | with_reducible assumption
    | with_reducible apply State.arrive_wf
    | with_reducible apply State.sendOnce_wf
    | with_reducible apply State.dropL1_wf
    | with_reducible apply foldl_wf
    | with_reducible apply next_wf
    | with_reducible apply fault_wf
    | with_reducible apply refused_wf
    | intro _

theorem execIack_wf (line : Nat) (cluster : Nat) (s : State) (hs : s.memCanonical) :
    KeepsMem (execIack line cluster s) := by
  unfold execIack
  repeat' first
    | with_reducible assumption
    | with_reducible apply State.arrive_wf
    | with_reducible apply State.settle_wf
    | with_reducible apply foldl_wf
    | with_reducible apply next_wf
    | with_reducible apply fault_wf
    | with_reducible apply refused_wf
    | intro _

theorem execGets_wf (k : Nat) (stack : Nat) (core : Nat) (s : State) (hs : s.memCanonical) :
    KeepsMem (execGets k stack core s) := by
  unfold execGets
  repeat' first
    | with_reducible assumption
    | with_reducible apply State.atEntry_wf
    | with_reducible apply State.homeRoom_wf
    | with_reducible apply State.send_wf
    | with_reducible apply State.setHome_wf
    | with_reducible apply State.grant_wf
    | with_reducible apply State.turnPart_wf
    | with_reducible apply foldl_wf
    | with_reducible apply next_wf
    | with_reducible apply fault_wf
    | with_reducible apply refused_wf
    | intro _
    | split
    | (refine of_next ?_ (by with_reducible assumption))
    | (refine State.wf_of_mem _ ?_; dsimp only; refine State.mem_of_wf _ ?_)

theorem execGetx_wf (k : Nat) (stack : Nat) (core : Nat) (s : State) (hs : s.memCanonical) :
    KeepsMem (execGetx k stack core s) := by
  unfold execGetx
  repeat' first
    | with_reducible assumption
    | with_reducible apply State.atEntry_wf
    | with_reducible apply State.homeRoom_wf
    | with_reducible apply State.setHome_wf
    | with_reducible apply State.send_wf
    | with_reducible apply State.turnPart_wf
    | with_reducible apply foldl_wf
    | with_reducible apply next_wf
    | with_reducible apply fault_wf
    | with_reducible apply refused_wf
    | intro _
    | split
    | (refine of_next ?_ (by with_reducible assumption))
    | (refine State.wf_of_mem _ ?_; dsimp only; refine State.mem_of_wf _ ?_)

theorem execFwd_wf (k : Nat) (stack : Nat) (core : Nat) (excl : Bool) (s : State) (hs : s.memCanonical) :
    KeepsMem (execFwd k stack core excl s) := by
  unfold execFwd
  repeat' first
    | with_reducible assumption
    | with_reducible apply State.arrive_wf
    | with_reducible apply State.turnPart_wf
    | with_reducible apply State.send_wf
    | with_reducible apply foldl_wf
    | with_reducible apply next_wf
    | with_reducible apply fault_wf
    | with_reducible apply refused_wf
    | intro _
    | split
    | (refine of_next ?_ (by with_reducible assumption))
    | (refine State.wf_of_mem _ ?_; dsimp only; refine State.mem_of_wf _ ?_)

theorem State.takeOwnership_wf (s : State) (k : Nat) (stack : Nat) (core : Nat) (hs : s.memCanonical) :
    (State.takeOwnership s k stack core).memCanonical := by
  unfold State.takeOwnership
  repeat' first
    | with_reducible assumption
    | with_reducible apply State.install_wf
    | with_reducible apply State.dropPart_wf
    | with_reducible apply State.writeBack_wf
    | with_reducible apply State.invalidateOlder_wf
    | with_reducible apply State.gatherTags_wf
    | with_reducible apply foldl_wf
    | intro _
    | split
    | (refine State.wf_of_mem _ ?_; dsimp only; refine State.mem_of_wf _ ?_)

theorem execData_wf (k : Nat) (stack : Nat) (core : Nat) (excl : Bool) (bytes : List Byte) (s : State) (hs : s.memCanonical) :
    KeepsMem (execData k stack core excl bytes s) := by
  unfold execData
  repeat' first
    | with_reducible assumption
    | with_reducible apply State.forceTag_wf
    | with_reducible apply State.arrive_wf
    | with_reducible apply State.arriveOrWait_wf
    | with_reducible apply State.invalidateOlder_wf
    | with_reducible apply State.feed_wf
    | with_reducible apply State.fillData_wf
    | with_reducible apply State.takeOwnership_wf
    | with_reducible apply State.askCopy_wf
    | with_reducible apply State.install_wf
    | with_reducible apply foldl_wf
    | with_reducible apply next_wf
    | with_reducible apply fault_wf
    | with_reducible apply refused_wf
    | intro _
    | split
    | (refine of_next ?_ (by with_reducible assumption))
    | (refine State.wf_of_mem _ ?_; dsimp only; refine State.mem_of_wf _ ?_)
    | dsimp only

theorem execWb_wf (k : Nat) (stack : Nat) (s : State) (hs : s.memCanonical) :
    KeepsMem (execWb k stack s) := by
  unfold execWb
  repeat' first
    | with_reducible assumption
    | with_reducible apply State.atEntry_wf
    | with_reducible apply State.ownHome_wf
    | with_reducible apply foldl_wf
    | with_reducible apply next_wf
    | with_reducible apply fault_wf
    | with_reducible apply refused_wf
    | intro _
    | split

theorem execXpub_wf (k : Nat) (stack : Nat) (level : Nat) (s : State) (hs : s.memCanonical) :
    KeepsMem (execXpub k stack level s) := by
  unfold execXpub
  repeat' first
    | with_reducible assumption
    | with_reducible apply State.atEntry_wf
    | with_reducible apply State.setHome_wf
    | with_reducible apply State.sendOnce_wf
    | with_reducible apply foldl_wf
    | with_reducible apply next_wf
    | with_reducible apply fault_wf
    | with_reducible apply refused_wf
    | intro _
    | split
    | (refine of_next ?_ (by with_reducible assumption))
    | (refine State.wf_of_mem _ ?_; dsimp only; refine State.mem_of_wf _ ?_)

theorem execXinv_wf (k : Nat) (stack : Nat) (s : State) (hs : s.memCanonical) :
    KeepsMem (execXinv k stack s) := by
  unfold execXinv
  repeat' first
    | with_reducible assumption
    | with_reducible apply State.arrive_wf
    | with_reducible apply State.sendOnce_wf
    | with_reducible apply State.dropUnit_wf
    | with_reducible apply foldl_wf
    | with_reducible apply next_wf
    | with_reducible apply fault_wf
    | with_reducible apply refused_wf
    | intro _
    | split

theorem execXack_wf (k : Nat) (stack : Nat) (s : State) (hs : s.memCanonical) :
    KeepsMem (execXack k stack s) := by
  unfold execXack
  repeat' first
    | with_reducible assumption
    | with_reducible apply State.arrive_wf
    | with_reducible apply State.setHome_wf
    | with_reducible apply State.sendOnce_wf
    | with_reducible apply foldl_wf
    | with_reducible apply next_wf
    | with_reducible apply fault_wf
    | with_reducible apply refused_wf
    | intro _
    | split
    | (refine of_next ?_ (by with_reducible assumption))
    | (refine State.wf_of_mem _ ?_; dsimp only; refine State.mem_of_wf _ ?_)

theorem execXdone_wf (k : Nat) (stack : Nat) (level : Nat) (s : State) (hs : s.memCanonical) :
    KeepsMem (execXdone k stack level s) := by
  unfold execXdone
  repeat' first
    | with_reducible assumption
    | with_reducible apply State.arrive_wf
    | with_reducible apply State.settle_wf
    | with_reducible apply State.setHome_wf
    | with_reducible apply foldl_wf
    | with_reducible apply next_wf
    | with_reducible apply fault_wf
    | with_reducible apply refused_wf
    | intro _

theorem execFpub_wf (core : Nat) (epoch : Nat) (level : Nat) (requester : Nat) (s : State) (hs : s.memCanonical) :
    KeepsMem (execFpub core epoch level requester s) := by
  unfold execFpub
  repeat' first
    | with_reducible assumption
    | with_reducible apply State.arrive_wf
    | with_reducible apply State.sendOnce_wf
    | with_reducible apply State.retryFpubs_wf
    | with_reducible apply State.modCore_wf
    | with_reducible apply foldl_wf
    | with_reducible apply next_wf
    | with_reducible apply fault_wf
    | with_reducible apply refused_wf
    | intro _
    | split

theorem State.lossMark_wf (s : State) (core : Nat) (dep : Nat) (level : Nat) (hs : s.memCanonical) :
    (State.lossMark s core dep level).memCanonical := by
  unfold State.lossMark
  repeat' first
    | with_reducible assumption
    | with_reducible apply State.defer_wf
    | with_reducible apply foldl_wf
    | intro _
    | split

theorem execFack_wf (core : Nat) (epoch : Nat) (level : Nat) (requester : Nat) (s : State) (hs : s.memCanonical) :
    KeepsMem (execFack core epoch level requester s) := by
  unfold execFack
  repeat' first
    | with_reducible assumption
    | with_reducible apply State.arrive_wf
    | with_reducible apply State.lossMark_wf
    | with_reducible apply State.modCore_wf
    | with_reducible apply State.retryFpubs_wf
    | with_reducible apply foldl_wf
    | with_reducible apply next_wf
    | with_reducible apply fault_wf
    | with_reducible apply refused_wf
    | intro _
    | split
    | (refine of_next ?_ (by with_reducible assumption))
    | (refine State.wf_of_mem _ ?_; dsimp only; refine State.mem_of_wf _ ?_)

theorem execRebase_wf (isCore : Bool) (unit : Nat) (s : State) (hs : s.memCanonical) :
    KeepsMem (execRebase isCore unit s) := by
  unfold execRebase
  repeat' first
    | with_reducible assumption
    | with_reducible apply State.modCore_wf
    | with_reducible apply State.modCluster_wf
    | with_reducible apply State.setHome_wf
    | with_reducible apply foldl_wf
    | with_reducible apply next_wf
    | with_reducible apply fault_wf
    | with_reducible apply refused_wf
    | intro _
    | split
    | (refine State.wf_of_mem _ ?_; dsimp only; refine State.mem_of_wf _ ?_)
    | dsimp only

end Sys2Proof.Machine
end

