-- ==== Sys2Proof/Laws/KeepsUnits.lean ====
section
/-! SUPPORT. The memory keeps its canonical form, operation by operation: the engines, objects, the decant unit, launches and the system instructions. -/

namespace Sys2Proof.Machine

theorem State.abandonReads_wf (s : State) (ctx : Nat) (hs : s.memCanonical) :
    (State.abandonReads s ctx).memCanonical := by
  unfold State.abandonReads
  repeat' first
    | with_reducible assumption
    | with_reducible apply foldl_wf
    | intro _
    | split
    | (refine State.wf_of_mem _ ?_; dsimp only; refine State.mem_of_wf _ ?_)

theorem State.setAllowance_wf (s : State) (g : Nat) (r : Nat) (e : AllowEntry) (hs : s.memCanonical) :
    (State.setAllowance s g r e).memCanonical := by
  unfold State.setAllowance
  repeat' first
    | with_reducible assumption
    | with_reducible apply State.modCluster_wf

theorem State.decantDone_wf (s : State) (op : Nat) (lo : Dword) (hi : Dword) (hs : s.memCanonical) :
    (State.decantDone s op lo hi).memCanonical := by
  unfold State.decantDone
  repeat' first
    | with_reducible assumption
    | with_reducible apply foldl_wf
    | intro _
    | split
    | (refine State.wf_of_mem _ ?_; dsimp only; refine State.mem_of_wf _ ?_)

theorem State.ask_wf (s : State) (g : Nat) (r : Nat) (hs : s.memCanonical) :
    (State.ask s g r).memCanonical := by
  unfold State.ask
  repeat' first
    | with_reducible assumption
    | with_reducible apply State.send_wf
    | with_reducible apply State.setAllowance_wf
    | with_reducible apply foldl_wf
    | intro _
    | split
    | (refine State.wf_of_mem _ ?_; dsimp only; refine State.mem_of_wf _ ?_)

theorem State.takesDone_wf (s : State) (ops : List Nat) (ok : Bool) (hs : s.memCanonical) :
    (State.takesDone s ops ok).memCanonical := by
  unfold State.takesDone
  repeat' first
    | with_reducible assumption
    | with_reducible apply State.decantDone_wf
    | with_reducible apply foldl_wf
    | intro _

theorem State.serveWaiters_wf (s : State) (g : Nat) (r : Nat) (hs : s.memCanonical) :
    (State.serveWaiters s g r).memCanonical := by
  unfold State.serveWaiters
  repeat' first
    | with_reducible assumption
    | with_reducible apply State.setAllowance_wf
    | with_reducible apply State.takesDone_wf

theorem State.toHome_wf (s : State) (g : Nat) (r : Nat) (op : Nat) (m : Instr) (hs : s.memCanonical) :
    (State.toHome s g r op m).memCanonical := by
  unfold State.toHome
  repeat' first
    | with_reducible assumption
    | with_reducible apply State.setAllowance_wf
    | with_reducible apply State.send_wf
    | with_reducible apply foldl_wf
    | intro _
    | split
    | (refine State.wf_of_mem _ ?_; dsimp only; refine State.mem_of_wf _ ?_)

theorem State.submit_wf (s : State) (op : Nat) (d : DecantOp) (hs : s.memCanonical) :
    (State.submit s op d).memCanonical := by
  unfold State.submit
  repeat' first
    | with_reducible assumption
    | with_reducible apply State.decantDone_wf
    | with_reducible apply State.setAllowance_wf
    | with_reducible apply State.ask_wf
    | with_reducible apply State.serveWaiters_wf
    | with_reducible apply State.toHome_wf
    | with_reducible apply foldl_wf
    | intro _
    | split
    | (refine State.wf_of_mem _ ?_; dsimp only; refine State.mem_of_wf _ ?_)

theorem State.pumpOn_wf (s : State) (g r n : Nat) (hs : s.memCanonical) : (s.pumpOn g r n).memCanonical := by
  induction n generalizing s with
  | zero => exact hs
  | succ n ih =>
    unfold State.pumpOn
    repeat' first
      | with_reducible assumption
      | with_reducible apply ih
      | with_reducible apply State.setAllowance_wf
      | with_reducible apply State.submit_wf
      | split
      | dsimp only

theorem State.pump_wf (s : State) (g : Nat) (r : Nat) (hs : s.memCanonical) :
    (State.pump s g r).memCanonical := by
  unfold State.pump
  repeat' first
    | with_reducible assumption
    | with_reducible apply State.pumpOn_wf

theorem State.pumpAll_wf (s : State) (hs : s.memCanonical) :
    (State.pumpAll s).memCanonical := by
  unfold State.pumpAll
  repeat' first
    | with_reducible assumption
    | with_reducible apply State.pump_wf
    | with_reducible apply foldl_wf
    | intro _

theorem State.modQueue_wf (s : State) (ctx : Nat) (q : Nat) (f : Queue → Queue) (hs : s.memCanonical) :
    (State.modQueue s ctx q f).memCanonical := by
  unfold State.modQueue
  repeat' first
    | with_reducible assumption
    | with_reducible apply State.modCtx_wf

theorem State.emit_wf (s : State) (o : Out) (hs : s.memCanonical) :
    (State.emit s o).memCanonical := by
  unfold State.emit
  repeat' first
    | with_reducible assumption
    | with_reducible apply foldl_wf
    | intro _
    | split
    | (refine State.wf_of_mem _ ?_; dsimp only; refine State.mem_of_wf _ ?_)

theorem State.eventFault_wf (s : State) (ctx : Nat) (signal : Bool) (va : Dword) (hs : s.memCanonical) :
    (State.eventFault s ctx signal va).memCanonical := by
  unfold State.eventFault
  repeat' first
    | with_reducible assumption
    | with_reducible apply State.logDry_wf
    | with_reducible apply State.emit_wf
    | with_reducible apply foldl_wf
    | intro _
    | split

theorem State.readWaits_wf (s : State) (k : Nat) (hs : s.memCanonical) :
    (State.readWaits s k).memCanonical := by
  unfold State.readWaits
  repeat' first
    | with_reducible assumption
    | with_reducible apply State.askFpub_wf
    | with_reducible apply State.modLaunch_wf
    | with_reducible apply State.publishLine_wf
    | with_reducible apply State.modQueue_wf
    | with_reducible apply State.abandonLaunch_wf
    | with_reducible apply State.eventFault_wf
    | with_reducible apply foldl_wf
    | intro _
    | split
    | (refine State.wf_of_mem _ ?_; dsimp only; refine State.mem_of_wf _ ?_)

theorem State.settleQueue_wf (s : State) (ctx q n : Nat) (hs : s.memCanonical) : (s.settleQueue ctx q n).memCanonical := by
  induction n generalizing s with
  | zero => exact hs
  | succ n ih =>
    unfold State.settleQueue
    repeat' first
      | with_reducible assumption
      | with_reducible apply ih
      | with_reducible apply State.modQueue_wf
      | with_reducible apply State.readWaits_wf
      | split
      | dsimp only

theorem State.settleQueues_wf (s : State) (ctx : Nat) (hs : s.memCanonical) :
    (State.settleQueues s ctx).memCanonical := by
  unfold State.settleQueues
  repeat' first
    | with_reducible assumption
    | with_reducible apply State.settleQueue_wf
    | with_reducible apply foldl_wf
    | intro _

theorem State.countSkips_wf (s : State) (ctx : Nat) (hs : s.memCanonical) :
    (State.countSkips s ctx).memCanonical := by
  unfold State.countSkips
  repeat' first
    | with_reducible assumption
    | with_reducible apply State.modQueue_wf
    | with_reducible apply foldl_wf
    | intro _
    | split

theorem State.credit_wf (s : State) (ctx : Nat) (c : Nat) (es : List Nat) (hs : s.memCanonical) :
    (State.credit s ctx c es).memCanonical := by
  unfold State.credit
  repeat' first
    | with_reducible assumption
    | with_reducible apply State.modQueue_wf
    | with_reducible apply foldl_wf
    | intro _
    | split

theorem State.register_wf (s : State) (ctx : Nat) (va : Dword) (hs : s.memCanonical) :
    OptPMem (State.register s ctx va) := by
  unfold State.register
  repeat' first
    | with_reducible assumption
    | with_reducible apply State.modCtx_wf
    | with_reducible apply foldl_wf
    | with_reducible apply psome_wf
    | exact pnone_wf
    | intro _
    | split

theorem State.resolve_wf (s : State) (k : Nat) (hs : s.memCanonical) :
    PairMem (State.resolve s k) := by
  unfold State.resolve
  repeat' first
    | with_reducible assumption
    | with_reducible apply State.register_wf
    | with_reducible apply State.modLaunch_wf
    | with_reducible apply foldl_wf
    | with_reducible apply pair_wf
    | intro _
    | split
    | (refine of_psome ?_ (by with_reducible assumption))
    | (refine State.wf_of_mem _ ?_; dsimp only; refine State.mem_of_wf _ ?_)

theorem State.startWaveOf_wf (s : State) (l : Launch) (k : Nat) (b : Nat) (core : Nat) (index : Nat) (rank : Nat) (gang : Nat) (i : Nat) (d : WaveDecl) (hs : s.memCanonical) :
    (State.startWaveOf s l k b core index rank gang i d).memCanonical := by
  unfold State.startWaveOf
  repeat' first
    | with_reducible assumption
    | with_reducible apply State.enterFunction_wf
    | with_reducible apply State.modBlock_wf
    | with_reducible apply foldl_wf
    | intro _
    | split
    | (refine State.wf_of_mem _ ?_; dsimp only; refine State.mem_of_wf _ ?_)

theorem State.startBlock_wf (s : State) (l : Launch) (k : Nat) (gang : Nat) (rank : Nat) (core : Nat) (hs : s.memCanonical) :
    (State.startBlock s l k gang rank core).memCanonical := by
  unfold State.startBlock
  repeat' first
    | with_reducible assumption
    | with_reducible apply State.startWaveOf_wf
    | with_reducible apply foldl_wf
    | intro _
    | split
    | (refine State.wf_of_mem _ ?_; dsimp only; refine State.mem_of_wf _ ?_)

theorem State.startGang_wf (s : State) (k : Nat) (cores : List Nat) (hs : s.memCanonical) :
    (State.startGang s k cores).memCanonical := by
  unfold State.startGang
  repeat' first
    | with_reducible assumption
    | with_reducible apply State.startBlock_wf
    | with_reducible apply State.modLaunch_wf
    | with_reducible apply foldl_wf
    | intro _

theorem State.dispatchOne_wf (s : State) (ctx : Nat) (hs : s.memCanonical) :
    OptMem (State.dispatchOne s ctx) := by
  unfold State.dispatchOne
  repeat' first
    | with_reducible assumption
    | with_reducible apply State.credit_wf
    | with_reducible apply State.resolve_wf
    | with_reducible apply State.settleQueues_wf
    | with_reducible apply State.abandonLaunch_wf
    | with_reducible apply State.modQueue_wf
    | with_reducible apply State.modCtx_wf
    | with_reducible apply State.startGang_wf
    | with_reducible apply foldl_wf
    | with_reducible apply some_wf
    | exact none_wf
    | with_reducible apply opt_map_wf
    | with_reducible apply opt_map2_wf
    | with_reducible apply of_fst
    | intro _
    | split
    | (refine of_pair ?_ (by with_reducible assumption))
    | (refine of_some ?_ (by with_reducible assumption))
    | dsimp only

theorem State.dispatchLoop_wf (s : State) (ctx n : Nat) (hs : s.memCanonical) : (s.dispatchLoop ctx n).memCanonical := by
  induction n generalizing s with
  | zero => exact hs
  | succ n ih =>
    unfold State.dispatchLoop
    split
    · exact ih _ (of_some (State.dispatchOne_wf _ _ hs) (by assumption))
    · exact hs

theorem State.placeGangs_wf (s : State) (ctx : Nat) (hs : s.memCanonical) :
    (State.placeGangs s ctx).memCanonical := by
  unfold State.placeGangs
  repeat' first
    | with_reducible assumption
    | with_reducible apply State.dispatchLoop_wf
    | with_reducible apply State.settleQueues_wf
    | with_reducible apply foldl_wf
    | intro _
    | split

theorem State.dispatch_wf (s : State) (ctx : Nat) (hs : s.memCanonical) :
    (State.dispatch s ctx).memCanonical := by
  unfold State.dispatch
  repeat' first
    | with_reducible assumption
    | with_reducible apply State.countSkips_wf
    | with_reducible apply State.placeGangs_wf
    | with_reducible apply foldl_wf
    | intro _
    | split

theorem State.runIfReady_wf (s : State) (before : State) (ctx : Nat) (hs : s.memCanonical) (hbefore : before.memCanonical) :
    (State.runIfReady s before ctx).memCanonical := by
  unfold State.runIfReady
  repeat' first
    | with_reducible assumption
    | with_reducible apply State.settleQueues_wf
    | with_reducible apply State.dispatch_wf
    | with_reducible apply foldl_wf
    | intro _
    | split
    | (refine State.wf_of_mem _ ?_; dsimp only; refine State.mem_of_wf _ ?_)

theorem State.settleFailed_wf (s : State) (hs : s.memCanonical) :
    (State.settleFailed s).memCanonical := by
  unfold State.settleFailed
  repeat' first
    | with_reducible assumption
    | with_reducible apply State.runIfReady_wf
    | with_reducible apply foldl_wf
    | intro _
    | split

theorem State.setStep_wf (s : State) (g : Nat) (n : Nat) (hs : s.memCanonical) :
    (State.setStep s g n).memCanonical := by
  unfold State.setStep
  repeat' first
    | with_reducible assumption
    | with_reducible apply State.logDry_wf
    | with_reducible apply State.modCluster_wf
    | with_reducible apply foldl_wf
    | intro _
    | split

theorem State.applyPower_wf (s : State) (ctx : Nat) (hs : s.memCanonical) :
    (State.applyPower s ctx).memCanonical := by
  unfold State.applyPower
  repeat' first
    | with_reducible assumption
    | with_reducible apply State.setStep_wf
    | with_reducible apply foldl_wf
    | intro _
    | split

theorem State.writeCreg_wf (s : State) (ctx : Nat) (r : CReg) (v : Dword) (hs : s.memCanonical) :
    (State.writeCreg s ctx r v).memCanonical := by
  unfold State.writeCreg
  repeat' first
    | with_reducible assumption
    | with_reducible apply State.modCtx_wf
    | with_reducible apply State.applyPower_wf
    | with_reducible apply foldl_wf
    | intro _
    | split

theorem State.appendRecord_wf (s : State) (ctx : Nat) (r : Record) (hs : s.memCanonical) :
    (State.appendRecord s ctx r).memCanonical := by
  unfold State.appendRecord
  repeat' first
    | with_reducible assumption
    | with_reducible apply State.publish_wf
    | with_reducible apply State.logDry_wf
    | with_reducible apply State.modCtx_wf
    | with_reducible apply foldl_wf
    | intro _
    | split
    | (refine State.wf_of_mem _ ?_; dsimp only; refine State.mem_of_wf _ ?_)

theorem State.arriveInOrder_wf (s : State) (i : Instr) (f : State → State) (hs : s.memCanonical) (hf : ∀ (y0 : State), y0.memCanonical → (f y0).memCanonical) :
    KeepsMem (State.arriveInOrder s i f) := by
  unfold State.arriveInOrder
  repeat' first
    | with_reducible assumption
    | with_reducible apply hf
    | with_reducible apply State.arrive_wf
    | with_reducible apply foldl_wf
    | with_reducible apply next_wf
    | with_reducible apply fault_wf
    | with_reducible apply refused_wf
    | intro _
    | split

theorem State.setImage_wf (s : State) (a : Nat) (bs : List Byte) (hs : s.memCanonical) :
    (State.setImage s a bs).memCanonical := by
  unfold State.setImage
  repeat' first
    | with_reducible assumption
    | with_reducible apply State.publishLine_wf
    | with_reducible apply State.memWrite_wf

theorem State.setReserve_wf (s : State) (r : Nat) (v : Nat) (hs : s.memCanonical) :
    (State.setReserve s r v).memCanonical := by
  unfold State.setReserve
  repeat' first
    | with_reducible assumption
    | with_reducible apply State.setImage_wf

theorem State.modCounter_wf (s : State) (r : Nat) (f : HomeCounter → HomeCounter) (hs : s.memCanonical) :
    (State.modCounter s r f).memCanonical := by
  unfold State.modCounter
  repeat' first
    | with_reducible assumption
    | with_reducible apply State.modCluster_wf

theorem State.popHome_wf (s : State) (r : Nat) (m : HomeMode) (hs : s.memCanonical) :
    (State.popHome s r m).memCanonical := by
  unfold State.popHome
  repeat' first
    | with_reducible assumption
    | with_reducible apply State.modCounter_wf

theorem State.replyRead_wf (s : State) (r : Nat) (g : Nat) (op : Nat) (c : HomeCounter) (hs : s.memCanonical) :
    (State.replyRead s r g op c).memCanonical := by
  unfold State.replyRead
  repeat' first
    | with_reducible assumption
    | with_reducible apply State.send_wf

theorem State.dropCounter_wf (s : State) (r : Nat) (g : Nat) (op : Nat) (hs : s.memCanonical) :
    (State.dropCounter s r g op).memCanonical := by
  unfold State.dropCounter
  repeat' first
    | with_reducible assumption
    | with_reducible apply State.setImage_wf
    | with_reducible apply State.decantRetire_wf
    | with_reducible apply State.send_wf

theorem State.serveDirect_wf (s : State) (r : Nat) (m : HomeMsg) (hs : s.memCanonical) :
    (State.serveDirect s r m).memCanonical := by
  unfold State.serveDirect
  repeat' first
    | with_reducible assumption
    | with_reducible apply State.send_wf
    | with_reducible apply State.setReserve_wf
    | with_reducible apply State.popHome_wf
    | with_reducible apply State.modCounter_wf
    | with_reducible apply State.replyRead_wf
    | with_reducible apply State.dropCounter_wf
    | with_reducible apply foldl_wf
    | intro _
    | split
    | (refine State.wf_of_mem _ ?_; dsimp only; refine State.mem_of_wf _ ?_)

theorem State.startRecall_wf (s : State) (r : Nat) (c : HomeCounter) (hs : s.memCanonical) :
    (State.startRecall s r c).memCanonical := by
  unfold State.startRecall
  repeat' first
    | with_reducible assumption
    | with_reducible apply State.send_wf
    | with_reducible apply State.modCounter_wf
    | with_reducible apply foldl_wf
    | intro _

theorem State.serveNormal_wf (s : State) (r : Nat) (c : HomeCounter) (m : HomeMsg) (hs : s.memCanonical) :
    (State.serveNormal s r c m).memCanonical := by
  unfold State.serveNormal
  repeat' first
    | with_reducible assumption
    | with_reducible apply State.serveDirect_wf
    | with_reducible apply State.startRecall_wf
    | with_reducible apply State.send_wf
    | with_reducible apply State.setReserve_wf
    | with_reducible apply State.modCounter_wf
    | with_reducible apply State.popHome_wf
    | with_reducible apply State.replyRead_wf
    | with_reducible apply foldl_wf
    | intro _
    | split
    | (refine State.wf_of_mem _ ?_; dsimp only; refine State.mem_of_wf _ ?_)

theorem State.serveHome_wf (s : State) (r n : Nat) (hs : s.memCanonical) : (s.serveHome r n).memCanonical := by
  induction n generalizing s with
  | zero => exact hs
  | succ n ih =>
    unfold State.serveHome
    repeat' first
      | with_reducible assumption
      | with_reducible apply ih
      | with_reducible apply State.serveDirect_wf
      | with_reducible apply State.serveNormal_wf
      | with_reducible apply State.modCounter_wf
      | split
      | dsimp only

theorem State.runHome_wf (s : State) (r : Nat) (hs : s.memCanonical) :
    (State.runHome s r).memCanonical := by
  unfold State.runHome
  repeat' first
    | with_reducible assumption
    | with_reducible apply State.serveHome_wf
    | with_reducible apply foldl_wf
    | intro _
    | split

theorem State.atHome_wf (s : State) (r : Nat) (g : Nat) (op : Nat) (m : HomeMsg) (hs : s.memCanonical) :
    (State.atHome s r g op m).memCanonical := by
  unfold State.atHome
  repeat' first
    | with_reducible assumption
    | with_reducible apply State.runHome_wf
    | with_reducible apply State.modCounter_wf
    | with_reducible apply State.send_wf
    | with_reducible apply foldl_wf
    | intro _
    | split

theorem State.dropBinding_wf (s : State) (b : Nat) (w : Nat) (keep : List Nat) (hs : s.memCanonical) :
    (State.dropBinding s b w keep).memCanonical := by
  unfold State.dropBinding
  repeat' first
    | with_reducible assumption
    | with_reducible apply State.modTiles_wf

theorem State.bindWindow_wf (s : State) (b : Nat) (w : Nat) (d : WinDesc) (hs : s.memCanonical) :
    (State.bindWindow s b w d).memCanonical := by
  unfold State.bindWindow
  repeat' first
    | with_reducible assumption
    | with_reducible apply State.dropBinding_wf
    | with_reducible apply State.modWindow_wf
    | with_reducible apply State.modTiles_wf
    | with_reducible apply foldl_wf
    | intro _
    | split

theorem State.cacheFetch_wf (s : State) (w : Wave) (sp : Split) (hs : s.memCanonical) :
    (State.cacheFetch s w sp).memCanonical := by
  unfold State.cacheFetch
  repeat' first
    | with_reducible assumption
    | with_reducible apply State.cacheXlate_wf
    | with_reducible apply foldl_wf
    | intro _

theorem State.carveDone_wf (s : State) (d : SDst) (n : Nat) (old : Dword) (hs : s.memCanonical) :
    (State.carveDone s d n old).memCanonical := by
  unfold State.carveDone
  repeat' first
    | with_reducible assumption
    | with_reducible apply State.finish_wf
    | with_reducible apply State.putS_wf
    | with_reducible apply State.modCtx_wf

theorem State.carveOn_wf (s : State) (d : SDst) (n : Nat) (old : Dword) (hs : s.memCanonical) :
    (State.carveOn s d n old).memCanonical := by
  unfold State.carveOn
  repeat' first
    | with_reducible assumption
    | with_reducible apply State.stall_wf
    | with_reducible apply State.evict_wf
    | with_reducible apply State.carveDone_wf
    | with_reducible apply foldl_wf
    | intro _
    | split
    | (refine State.wf_of_mem _ ?_; dsimp only; refine State.mem_of_wf _ ?_)

theorem State.codeRead_wf (s : State) (core : Nat) (ctx : Nat) (line : Nat) (hs : s.memCanonical) :
    (State.codeRead s core ctx line).keepsMem := by
  unfold State.codeRead
  repeat' first
    | with_reducible assumption
    | with_reducible apply State.enterSlice_wf
    | with_reducible apply State.askCopies_wf
    | with_reducible apply foldl_wf
    | with_reducible apply yes_wf
    | with_reducible apply notYet_wf
    | intro _
    | split
    | dsimp only

theorem State.engineBrings_wf (s : State) (core : Nat) (line : Nat) (hs : s.memCanonical) :
    (State.engineBrings s core line).memCanonical := by
  unfold State.engineBrings
  repeat' first
    | with_reducible assumption
    | with_reducible apply State.bringIn_wf
    | with_reducible apply foldl_wf
    | intro _
    | split
    | (refine State.wf_of_mem _ ?_; dsimp only; refine State.mem_of_wf _ ?_)

theorem State.refreshCore_wf (s0 : State) (core : Nat) (line : Nat) (hs0 : s0.memCanonical) :
    (State.refreshCore s0 core line).memCanonical := by
  unfold State.refreshCore
  repeat' first
    | with_reducible assumption
    | with_reducible apply State.engineBrings_wf
    | with_reducible apply State.dropL1_wf
    | with_reducible apply State.dropPart_wf
    | with_reducible apply State.noteRead_wf
    | with_reducible apply foldl_wf
    | intro _
    | split

theorem State.refreshWords_wf (s : State) (ctx : Nat) (core : Nat) (vas : List Dword) (hs : s.memCanonical) :
    (State.refreshWords s ctx core vas).memCanonical := by
  unfold State.refreshWords
  repeat' first
    | with_reducible assumption
    | with_reducible apply State.refreshCore_wf
    | with_reducible apply foldl_wf
    | intro _

theorem State.finishBlock_wf (s : State) (b : Nat) (tiles : List Nat) (flag : Option Nat) (v : Word) (hs : s.memCanonical) :
    (State.finishBlock s b tiles flag v).memCanonical := by
  unfold State.finishBlock
  repeat' first
    | with_reducible assumption
    | with_reducible apply State.modTiles_wf
    | with_reducible apply State.modBlock_wf
    | with_reducible apply foldl_wf
    | intro _
    | split

theorem State.settleWork_wf (s : State) (wid : Nat) (hs : s.memCanonical) :
    (State.settleWork s wid).memCanonical := by
  unfold State.settleWork
  repeat' first
    | with_reducible assumption
    | with_reducible apply State.modWave_wf

theorem State.setGather_wf (s : State) (cluster : Nat) (seq : Nat) (c : Option GatherCmd) (hs : s.memCanonical) :
    (State.setGather s cluster seq c).memCanonical := by
  unfold State.setGather
  repeat' first
    | with_reducible assumption
    | with_reducible apply State.modCluster_wf

theorem State.finishGather_wf (s : State) (cluster : Nat) (c : GatherCmd) (status : Nat) (bytes : Nat) (oorCount : Nat) (oorFirst : Option Nat) (hs : s.memCanonical) :
    (State.finishGather s cluster c status bytes oorCount oorFirst).memCanonical := by
  unfold State.finishGather
  repeat' first
    | with_reducible assumption
    | with_reducible apply State.finishBlock_wf
    | with_reducible apply State.settleWork_wf
    | with_reducible apply State.appendRecord_wf
    | with_reducible apply State.setGather_wf
    | with_reducible apply foldl_wf
    | intro _
    | split

theorem State.completeRows_wf (s : State) (cluster : Nat) (c : GatherCmd) (hs : s.memCanonical) :
    (State.completeRows s cluster c).memCanonical := by
  unfold State.completeRows
  repeat' first
    | with_reducible assumption
    | with_reducible apply State.modBlock_wf
    | with_reducible apply State.refreshWords_wf
    | with_reducible apply State.finishGather_wf
    | with_reducible apply foldl_wf
    | intro _
    | split

theorem State.scatterElem_wf (s : State) (c : GatherCmd) (va : Dword) (pa : Nat) (src : Nat) (bad : Bool) (hs : s.memCanonical) :
    (State.scatterElem s c va pa src bad).memCanonical := by
  unfold State.scatterElem
  repeat' first
    | with_reducible assumption
    | with_reducible apply State.defer_wf
    | with_reducible apply State.publish_wf
    | with_reducible apply foldl_wf
    | intro _
    | split
    | (refine State.wf_of_mem _ ?_; dsimp only; refine State.mem_of_wf _ ?_)

theorem State.scatterNext_wf (s : State) (c : GatherCmd) (hs : s.memCanonical) :
    PairMem (State.scatterNext s c) := by
  unfold State.scatterNext
  repeat' first
    | with_reducible assumption
    | with_reducible apply State.scatterElem_wf
    | with_reducible apply foldl_wf
    | with_reducible apply pair_wf
    | intro _
    | split
    | (refine State.wf_of_mem _ ?_; dsimp only; refine State.mem_of_wf _ ?_)

theorem State.scatterElems_wf (n : Nat) (s : State) (c : GatherCmd) (hs : s.memCanonical) : PairMem (State.scatterElems n s c) := by
  induction n generalizing s c with
  | zero => exact hs
  | succ n ih => exact ih _ _ (State.scatterNext_wf s c hs)

theorem State.finishRow_wf (s : State) (c : GatherCmd) (hs : s.memCanonical) :
    PairMem (State.finishRow s c) := by
  unfold State.finishRow
  repeat' first
    | with_reducible assumption
    | with_reducible apply State.scatterElems_wf

theorem State.scatterPos_wf (s : State) (c : GatherCmd) (hs : s.memCanonical) :
    PairMem (State.scatterPos s c) := by
  unfold State.scatterPos
  repeat' first
    | with_reducible assumption
    | with_reducible apply State.finishRow_wf

theorem State.scatterRun_wf (n : Nat) (s : State) (c : GatherCmd) (hs : s.memCanonical) : PairMem (State.scatterRun n s c) := by
  induction n generalizing s c with
  | zero => exact hs
  | succ n ih => exact ih _ _ (State.scatterPos_wf s c hs)

theorem State.completeScatter_wf (s : State) (cluster : Nat) (c : GatherCmd) (hs : s.memCanonical) :
    (State.completeScatter s cluster c).memCanonical := by
  unfold State.completeScatter
  repeat' first
    | with_reducible assumption
    | with_reducible apply State.scatterRun_wf
    | with_reducible apply State.finishGather_wf
    | with_reducible apply foldl_wf
    | with_reducible apply of_fst

theorem State.convert_wf (s : State) (o : ObjEntry) (hs : s.memCanonical) :
    ExMem (State.convert s o) := by
  unfold State.convert
  repeat' first
    | with_reducible assumption
    | with_reducible apply State.dropPart_wf
    | with_reducible apply State.writeBack_wf
    | with_reducible apply State.sendOnce_wf
    | with_reducible apply foldl_wf
    | with_reducible apply ok_wf
    | with_reducible apply error_wf
    | intro _
    | split
    | dsimp only

theorem State.rekey_wf (s : State) (o : ObjEntry) (hs : s.memCanonical) :
    (State.rekey s o).memCanonical := by
  unfold State.rekey
  repeat' first
    | with_reducible assumption
    | with_reducible apply State.setCopy_wf
    | with_reducible apply foldl_wf
    | intro _
    | split

theorem State.modObject_wf (s : State) (n : Nat) (gen : Nat) (f : ObjEntry → ObjEntry) (hs : s.memCanonical) :
    (State.modObject s n gen f).memCanonical := by
  unfold State.modObject
  repeat' first
    | with_reducible assumption
    | with_reducible apply foldl_wf
    | intro _
    | split
    | (refine State.wf_of_mem _ ?_; dsimp only; refine State.mem_of_wf _ ?_)

theorem State.convertOn_wf (s : State) (n : Nat) (o : ObjEntry) (f : ObjEntry → ObjEntry) (k : State → State) (hs : s.memCanonical) (hk : ∀ (y0 : State), y0.memCanonical → (k y0).memCanonical) :
    (State.convertOn s n o f k).memCanonical := by
  unfold State.convertOn
  repeat' first
    | with_reducible assumption
    | with_reducible apply hk
    | with_reducible apply State.convert_wf
    | with_reducible apply State.stall_wf
    | with_reducible apply State.rekey_wf
    | with_reducible apply State.modObject_wf
    | with_reducible apply foldl_wf
    | intro _
    | split
    | (refine of_ok ?_ (by with_reducible assumption))
    | (refine of_error ?_ (by with_reducible assumption))

theorem State.copyRead_wf (s : State) (block : Nat) (window : Nat) (word : Nat) (hs : s.memCanonical) :
    (State.copyRead s block window word).memCanonical := by
  unfold State.copyRead
  repeat' first
    | with_reducible assumption
    | with_reducible apply State.modWindow_wf
    | with_reducible apply foldl_wf
    | intro _
    | split
    | (refine State.wf_of_mem _ ?_; dsimp only; refine State.mem_of_wf _ ?_)

theorem State.decantEnd_wf (s : State) (op : Nat) (lo : Dword) (hi : Dword) (t : Option (Nat × Nat)) (hs : s.memCanonical) :
    (State.decantEnd s op lo hi t).memCanonical := by
  unfold State.decantEnd
  repeat' first
    | with_reducible assumption
    | with_reducible apply foldl_wf
    | intro _
    | split
    | (refine State.wf_of_mem _ ?_; dsimp only; refine State.mem_of_wf _ ?_)

theorem State.decantGate_wf (s : State) (writes : Bool) (k : State → State) (hs : s.memCanonical) (hk : ∀ (y0 : State), y0.memCanonical → (k y0).memCanonical) :
    (State.decantGate s writes k).memCanonical := by
  unfold State.decantGate
  repeat' first
    | with_reducible assumption
    | with_reducible apply hk
    | with_reducible apply State.stall_wf
    | with_reducible apply State.gate_wf
    | with_reducible apply State.released_wf
    | with_reducible apply foldl_wf
    | with_reducible apply some_wf
    | exact none_wf
    | intro _
    | split
    | (refine of_some ?_ (by with_reducible assumption))

theorem State.issueDecant_wf (s : State) (a : Dword) (kind : Nat) (n : Nat) (hs : s.memCanonical) :
    (State.issueDecant s a kind n).memCanonical := by
  unfold State.issueDecant
  repeat' first
    | with_reducible assumption
    | with_reducible apply State.trapHere_wf
    | with_reducible apply State.stall_wf
    | with_reducible apply State.decantGate_wf
    | with_reducible apply State.submit_wf
    | with_reducible apply State.cacheXlate_wf
    | with_reducible apply foldl_wf
    | intro _
    | split
    | (refine State.wf_of_mem _ ?_; dsimp only; refine State.mem_of_wf _ ?_)

theorem State.decantFlow_wf (s : State) (a : Dword) (kind : Nat) (n : Nat) (empty : State) (put : Dword → Dword → State → State) (hs : s.memCanonical) (hempty : empty.memCanonical) (hput : ∀ (y0 : Dword) (y1 : Dword) (y2 : State), y2.memCanonical → (put y0 y1 y2).memCanonical) :
    (State.decantFlow s a kind n empty put).memCanonical := by
  unfold State.decantFlow
  repeat' first
    | with_reducible assumption
    | with_reducible apply hput
    | with_reducible apply State.finish_wf
    | with_reducible apply State.issueDecant_wf
    | with_reducible apply State.trapHere_wf
    | with_reducible apply foldl_wf
    | intro _
    | split
    | (refine State.wf_of_mem _ ?_; dsimp only; refine State.mem_of_wf _ ?_)

theorem State.declareOn_wf (s : State) (d : SDst) (n : Nat) (o : ObjEntry) (hs : s.memCanonical) :
    (State.declareOn s d n o).memCanonical := by
  unfold State.declareOn
  repeat' first
    | with_reducible assumption
    | with_reducible apply State.convertOn_wf
    | with_reducible apply State.finish_wf
    | with_reducible apply State.putS_wf
    | with_reducible apply foldl_wf
    | intro _

theorem State.declare_wf (s : State) (d : SDst) (x : Shape) (hs : s.memCanonical) :
    (State.declare s d x).memCanonical := by
  unfold State.declare
  repeat' first
    | with_reducible assumption
    | with_reducible apply State.finish_wf
    | with_reducible apply State.putS_wf
    | with_reducible apply State.declareOn_wf
    | with_reducible apply foldl_wf
    | intro _
    | split
    | (refine State.wf_of_mem _ ?_; dsimp only; refine State.mem_of_wf _ ?_)

theorem State.dropNotice_wf (s : State) (ctx : Nat) (hs : s.memCanonical) :
    (State.dropNotice s ctx).memCanonical := by
  unfold State.dropNotice
  repeat' first
    | with_reducible assumption
    | with_reducible apply State.emit_wf
    | with_reducible apply State.modCtx_wf

theorem State.dropOn_wf (s : State) (n : Nat) (o : ObjEntry) (hs : s.memCanonical) :
    (State.dropOn s n o).memCanonical := by
  unfold State.dropOn
  repeat' first
    | with_reducible assumption
    | with_reducible apply State.convertOn_wf
    | with_reducible apply State.finish_wf

theorem State.gatherRead_wf (s : State) (cluster : Nat) (seq : Nat) (word : Nat) (hs : s.memCanonical) :
    (State.gatherRead s cluster seq word).memCanonical := by
  unfold State.gatherRead
  repeat' first
    | with_reducible assumption
    | with_reducible apply State.modCluster_wf
    | with_reducible apply foldl_wf
    | intro _
    | split

theorem State.scatterStep_wf (s : State) (cluster : Nat) (hs : s.memCanonical) :
    (State.scatterStep s cluster).memCanonical := by
  unfold State.scatterStep
  repeat' first
    | with_reducible assumption
    | with_reducible apply State.scatterNext_wf
    | with_reducible apply State.setGather_wf
    | with_reducible apply foldl_wf
    | with_reducible apply of_fst
    | intro _
    | split

theorem State.engineStep_wf (s : State) (x2 : EngineStep) (hs : s.memCanonical) :
    (State.engineStep s x2).memCanonical := by
  unfold State.engineStep
  repeat' first
    | with_reducible assumption
    | with_reducible apply State.copyRead_wf
    | with_reducible apply State.gatherRead_wf
    | with_reducible apply State.scatterStep_wf
    | with_reducible apply foldl_wf
    | intro _
    | split

theorem State.enterBin_wf (s : State) (k : Nat) (key : Dword) (arg : Dword) (hs : s.memCanonical) :
    (State.enterBin s k key arg).memCanonical := by
  unfold State.enterBin
  repeat' first
    | with_reducible assumption
    | with_reducible apply State.released_wf
    | with_reducible apply State.finish_wf
    | with_reducible apply State.modCluster_wf

theorem State.enterCarve_wf (s : State) (hs : s.memCanonical) :
    (State.enterCarve s).memCanonical := by
  unfold State.enterCarve
  repeat' first
    | with_reducible assumption
    | with_reducible apply State.modCtx_wf

theorem State.issueOf_wf (s : State) (wid : Nat) (form : CodeForm) (sp : Split) (inv : Bool) (c : PlaneCopy) (hs : s.memCanonical) :
    (State.issueOf s wid form sp inv c).memCanonical := by
  unfold State.issueOf
  repeat' first
    | with_reducible assumption
    | with_reducible apply foldl_wf
    | intro _
    | split
    | (refine State.wf_of_mem _ ?_; dsimp only; refine State.mem_of_wf _ ?_)

theorem State.fetchTrap_wf (s : State) (wid : Nat) (t : TrapInfo) (hs : s.memCanonical) :
    (State.fetchTrap s wid t).keepsMem := by
  unfold State.fetchTrap
  repeat' first
    | with_reducible assumption
    | with_reducible apply State.trapDeferred_wf
    | with_reducible apply State.trapWave_wf
    | with_reducible apply State.modWave_wf
    | with_reducible apply foldl_wf
    | with_reducible apply wait_wf
    | with_reducible apply trap_wf
    | with_reducible apply run_wf
    | intro _
    | split

theorem State.issueSplit_wf (s : State) (wid : Nat) (form : CodeForm) (sp0 : Split) (cs : List PlaneCopy) (hs : s.memCanonical) :
    (s.issueSplit wid form sp0 cs).keepsMem := by
  unfold State.issueSplit
  split
  · exact hs
  · extract_lets opc invariant w start sp1 differ planes u0 head inv copies spc held sp2 s1 u failing
    have hu : ∀ a b c, ((start a).issueOf wid form a b c).memCanonical :=
      fun a b c => State.issueOf_wf _ _ _ _ _ _ (State.modWave_wf _ _ _ hs)
    have h0 : u0.memCanonical := hu _ _ _
    have hw : u.memCanonical := hu _ _ _
    clear_value u0 u failing differ planes
    split
    · split
      · exact State.trapDeferred_wf _ _ h0
      · exact State.fetchTrap_wf _ _ _ h0
    · split
      · exact State.fetchTrap_wf _ _ _ hw
      · split
        · exact hw
        · split
          · exact State.fetchTrap_wf _ _ _ hw
          · exact hw

theorem State.fetchSplit_wf (s0 : State) (wid : Nat) (hs0 : s0.memCanonical) :
    (State.fetchSplit s0 wid).keepsMem := by
  unfold State.fetchSplit
  repeat' first
    | with_reducible assumption
    | with_reducible apply State.cacheFetch_wf
    | with_reducible apply State.issueOf_wf
    | with_reducible apply State.fetchTrap_wf
    | with_reducible apply State.sendOnce_wf
    | with_reducible apply State.issueSplit_wf
    | with_reducible apply foldl_wf
    | with_reducible apply wait_wf
    | with_reducible apply trap_wf
    | with_reducible apply run_wf
    | intro _
    | split
    | (refine of_wait ?_ (by with_reducible assumption))
    | (refine of_trap ?_ (by with_reducible assumption))
    | (refine of_run ?_ (by with_reducible assumption))
    | dsimp only

theorem State.fileRecord_wf (s : State) (ctx : Nat) (r : List Byte) (hs : s.memCanonical) :
    PairMem (State.fileRecord s ctx r) := by
  unfold State.fileRecord
  repeat' first
    | with_reducible assumption
    | with_reducible apply State.modQueue_wf
    | with_reducible apply State.modCtx_wf
    | with_reducible apply foldl_wf
    | with_reducible apply pair_wf
    | intro _
    | split
    | (refine State.wf_of_mem _ ?_; dsimp only; refine State.mem_of_wf _ ?_)

theorem State.fileAll_wf (s : State) (ctx : Nat) (rs : List (List Byte)) (hs : s.memCanonical) : PairMem (s.fileAll ctx rs) := by
  unfold State.fileAll PairMem
  refine foldl_fst_wf _ (fun u a hu => ?_) _ _ hs
  exact State.fileRecord_wf _ _ _ hu

theorem State.fillFault_wf (s : State) (wid : Nat) (line : Nat) (cause : Nat) (detail : Nat) (hs : s.memCanonical) :
    (State.fillFault s wid line cause detail).memCanonical := by
  unfold State.fillFault
  repeat' first
    | with_reducible assumption
    | with_reducible apply State.modWave_wf
    | with_reducible apply State.issueOf_wf
    | with_reducible apply State.fetchTrap_wf
    | with_reducible apply foldl_wf
    | intro _
    | split
    | (refine of_wait ?_ (by with_reducible assumption))
    | (refine of_trap ?_ (by with_reducible assumption))
    | (refine of_run ?_ (by with_reducible assumption))
    | (refine State.wf_of_mem _ ?_; dsimp only; refine State.mem_of_wf _ ?_)

theorem State.fillLines_wf (s : State) (core : Nat) (ctx : Nat) (pa : Nat) (hs : s.memCanonical) :
    PairMem (State.fillLines s core ctx pa) := by
  unfold State.fillLines
  repeat' first
    | with_reducible assumption
    | with_reducible apply State.codeRead_wf
    | with_reducible apply foldl_wf
    | with_reducible apply pair_wf
    | intro _
    | split
    | (refine of_yes ?_ (by with_reducible assumption))
    | (refine of_notYet ?_ (by with_reducible assumption))

theorem State.finishEntry_wf (s : State) (cluster : Nat) (hs : s.memCanonical) :
    (State.finishEntry s cluster).memCanonical := by
  unfold State.finishEntry
  repeat' first
    | with_reducible assumption
    | with_reducible apply State.finishRow_wf
    | with_reducible apply State.setGather_wf
    | with_reducible apply foldl_wf
    | with_reducible apply of_fst
    | intro _
    | split

theorem State.installCode_wf (s : State) (core : Nat) (key : Nat) (bs : List Byte) (hs : s.memCanonical) :
    (State.installCode s core key bs).memCanonical := by
  unfold State.installCode
  repeat' first
    | with_reducible assumption
    | with_reducible apply State.modCore_wf

theorem State.invalidate_wf (s : State) (f : Core → Core) (engines : Bool) (hs : s.memCanonical) :
    (State.invalidate s f engines).memCanonical := by
  unfold State.invalidate
  repeat' first
    | with_reducible assumption
    | with_reducible apply State.abandonReads_wf
    | with_reducible apply State.finish_wf
    | with_reducible apply State.stall_wf
    | with_reducible apply State.gate_wf
    | with_reducible apply State.released_wf
    | with_reducible apply foldl_wf
    | with_reducible apply some_wf
    | exact none_wf
    | intro _
    | split
    | (refine of_some ?_ (by with_reducible assumption))
    | (refine State.wf_of_mem _ ?_; dsimp only; refine State.mem_of_wf _ ?_)

theorem State.prepare_wf (s0 : State) (wid : Nat) (hs0 : s0.memCanonical) :
    (State.prepare s0 wid).keepsMem := by
  unfold State.prepare
  repeat' first
    | with_reducible assumption
    | with_reducible apply State.modWave_wf
    | with_reducible apply State.fetchSplit_wf
    | with_reducible apply foldl_wf
    | with_reducible apply wait_wf
    | with_reducible apply trap_wf
    | with_reducible apply run_wf
    | intro _
    | split
    | (refine of_wait ?_ (by with_reducible assumption))
    | (refine of_trap ?_ (by with_reducible assumption))
    | (refine of_run ?_ (by with_reducible assumption))
    | dsimp only

theorem execTownGive_wf (a : SSrc) (b : SSrc) (s : State) (hs : s.memCanonical) :
    KeepsMem (execTownGive a b s) := by
  unfold execTownGive
  repeat' first
    | with_reducible assumption
    | with_reducible apply issueOp_wf
    | with_reducible apply State.finishYield_wf
    | with_reducible apply State.orElse_wf
    | with_reducible apply State.trapHere_wf
    | with_reducible apply State.gate_wf
    | with_reducible apply State.passCur_wf
    | with_reducible apply State.modTiles_wf
    | with_reducible apply State.released_wf
    | with_reducible apply foldl_wf
    | with_reducible apply some_wf
    | exact none_wf
    | with_reducible apply next_wf
    | with_reducible apply fault_wf
    | with_reducible apply refused_wf
    | intro _
    | split
    | (refine of_next ?_ (by with_reducible assumption))
    | (refine of_some ?_ (by with_reducible assumption))

theorem execTownTake_wf (a : SSrc) (b : SSrc) (s : State) (hs : s.memCanonical) :
    KeepsMem (execTownTake a b s) := by
  unfold execTownTake
  repeat' first
    | with_reducible assumption
    | with_reducible apply issueOp_wf
    | with_reducible apply State.finishYield_wf
    | with_reducible apply State.orElse_wf
    | with_reducible apply State.trapHere_wf
    | with_reducible apply State.modTiles_wf
    | with_reducible apply foldl_wf
    | with_reducible apply next_wf
    | with_reducible apply fault_wf
    | with_reducible apply refused_wf
    | intro _
    | split

theorem State.twaitRead_wf (s : State) (d : SDst) (tile : Nat) (expect : Nat) (now : Bool) (hs : s.memCanonical) :
    (State.twaitRead s d tile expect now).memCanonical := by
  unfold State.twaitRead
  repeat' first
    | with_reducible assumption
    | with_reducible apply State.finishYield_wf
    | with_reducible apply State.putS_wf
    | with_reducible apply State.sleepYield_wf
    | with_reducible apply foldl_wf
    | intro _
    | split
    | (refine State.wf_of_mem _ ?_; dsimp only; refine State.mem_of_wf _ ?_)

theorem execTwait_wf (d : SDst) (a : SSrc) (b : SSrc) (s : State) (hs : s.memCanonical) :
    KeepsMem (execTwait d a b s) := by
  unfold execTwait
  repeat' first
    | with_reducible assumption
    | with_reducible apply issueOp_wf
    | with_reducible apply State.twaitRead_wf
    | with_reducible apply State.finishYield_wf
    | with_reducible apply State.putS_wf
    | with_reducible apply State.trapHere_wf
    | with_reducible apply foldl_wf
    | with_reducible apply next_wf
    | with_reducible apply fault_wf
    | with_reducible apply refused_wf
    | intro _
    | split
    | (refine of_next ?_ (by with_reducible assumption))
    | (refine State.wf_of_mem _ ?_; dsimp only; refine State.mem_of_wf _ ?_)

theorem State.readRecord_wf (s : State) (a : Dword) (k : State → List Byte → State) (hs : s.memCanonical) (hk : ∀ (y0 : State) (y1 : List Byte), y0.memCanonical → (k y0 y1).memCanonical) :
    (State.readRecord s a k).memCanonical := by
  unfold State.readRecord
  repeat' first
    | with_reducible assumption
    | with_reducible apply hk
    | with_reducible apply State.trapHere_wf
    | with_reducible apply State.stall_wf
    | with_reducible apply State.readLine_wf
    | with_reducible apply State.cacheXlate_wf
    | with_reducible apply foldl_wf
    | intro _
    | split
    | (refine of_yes ?_ (by with_reducible assumption))
    | (refine of_notYet ?_ (by with_reducible assumption))

theorem execWbind_wf (d : Fin 16) (a : SSrc) (s : State) (hs : s.memCanonical) :
    KeepsMem (execWbind d a s) := by
  unfold execWbind
  repeat' first
    | with_reducible assumption
    | with_reducible apply issueOp_wf
    | with_reducible apply State.finish_wf
    | with_reducible apply State.readRecord_wf
    | with_reducible apply State.trapHere_wf
    | with_reducible apply State.afterTaking_wf
    | with_reducible apply State.bindWindow_wf
    | with_reducible apply foldl_wf
    | with_reducible apply next_wf
    | with_reducible apply fault_wf
    | with_reducible apply refused_wf
    | intro _
    | split
    | (refine of_next ?_ (by with_reducible assumption))
    | (refine State.wf_of_mem _ ?_; dsimp only; refine State.mem_of_wf _ ?_)

theorem execWtouch_wf (b : Fin 16) (s : State) (hs : s.memCanonical) :
    KeepsMem (execWtouch b s) := by
  unfold execWtouch
  repeat' first
    | with_reducible assumption
    | with_reducible apply issueOp_wf
    | with_reducible apply State.finish_wf
    | with_reducible apply State.trapHere_wf
    | with_reducible apply State.stall_wf
    | with_reducible apply State.touch_wf
    | with_reducible apply foldl_wf
    | with_reducible apply next_wf
    | with_reducible apply fault_wf
    | with_reducible apply refused_wf
    | intro _
    | split

theorem execWunbind_wf (b : Fin 16) (s : State) (hs : s.memCanonical) :
    KeepsMem (execWunbind b s) := by
  unfold execWunbind
  repeat' first
    | with_reducible assumption
    | with_reducible apply issueOp_wf
    | with_reducible apply State.finish_wf
    | with_reducible apply State.modWindow_wf
    | with_reducible apply State.dropBinding_wf
    | with_reducible apply State.trapHere_wf
    | with_reducible apply foldl_wf
    | with_reducible apply next_wf
    | with_reducible apply fault_wf
    | with_reducible apply refused_wf
    | intro _
    | split

theorem execGather_wf (a : SSrc) (s : State) (hs : s.memCanonical) :
    KeepsMem (execGather a s) := by
  unfold execGather
  repeat' first
    | with_reducible assumption
    | with_reducible apply issueOp_wf
    | with_reducible apply State.finish_wf
    | with_reducible apply State.readRecord_wf
    | with_reducible apply State.trapHere_wf
    | with_reducible apply State.stall_wf
    | with_reducible apply State.modCur_wf
    | with_reducible apply State.modCluster_wf
    | with_reducible apply State.modTiles_wf
    | with_reducible apply foldl_wf
    | with_reducible apply next_wf
    | with_reducible apply fault_wf
    | with_reducible apply refused_wf
    | intro _
    | split
    | (refine of_next ?_ (by with_reducible assumption))
    | (refine State.wf_of_mem _ ?_; dsimp only; refine State.mem_of_wf _ ?_)

theorem execSpawn_wf (a : SSrc) (b : SSrc) (s : State) (hs : s.memCanonical) :
    KeepsMem (execSpawn a b s) := by
  unfold execSpawn
  repeat' first
    | with_reducible assumption
    | with_reducible apply issueOp_wf
    | with_reducible apply State.finish_wf
    | with_reducible apply State.trapHere_wf
    | with_reducible apply State.enterBin_wf
    | with_reducible apply State.stall_wf
    | with_reducible apply State.gate_wf
    | with_reducible apply State.modCluster_wf
    | with_reducible apply foldl_wf
    | with_reducible apply some_wf
    | exact none_wf
    | with_reducible apply next_wf
    | with_reducible apply fault_wf
    | with_reducible apply refused_wf
    | intro _
    | split
    | (refine of_next ?_ (by with_reducible assumption))
    | (refine of_some ?_ (by with_reducible assumption))
    | (refine State.wf_of_mem _ ?_; dsimp only; refine State.mem_of_wf _ ?_)

theorem execDcinit_wf (d : Fin 64) (a : SSrc) (b : SSrc) (s : State) (hs : s.memCanonical) :
    KeepsMem (execDcinit d a b s) := by
  unfold execDcinit
  repeat' first
    | with_reducible assumption
    | with_reducible apply issueOp_wf
    | with_reducible apply State.finish_wf
    | with_reducible apply State.trapHere_wf
    | with_reducible apply State.decantGate_wf
    | with_reducible apply State.stall_wf
    | with_reducible apply State.modCluster_wf
    | with_reducible apply State.sendHome_wf
    | with_reducible apply State.publish_wf
    | with_reducible apply State.cacheXlate_wf
    | with_reducible apply foldl_wf
    | with_reducible apply next_wf
    | with_reducible apply fault_wf
    | with_reducible apply refused_wf
    | intro _
    | split
    | (refine of_next ?_ (by with_reducible assumption))
    | (refine State.wf_of_mem _ ?_; dsimp only; refine State.mem_of_wf _ ?_)

theorem execDctake_wf (d : SDst) (a : SSrc) (b : SSrc) (s : State) (hs : s.memCanonical) :
    KeepsMem (execDctake d a b s) := by
  unfold execDctake
  repeat' first
    | with_reducible assumption
    | with_reducible apply issueOp_wf
    | with_reducible apply State.decantFlow_wf
    | with_reducible apply State.putS_wf
    | with_reducible apply foldl_wf
    | with_reducible apply next_wf
    | with_reducible apply fault_wf
    | with_reducible apply refused_wf
    | intro _

theorem execDcgive_wf (d : SDst) (a : SSrc) (b : SSrc) (s : State) (hs : s.memCanonical) :
    KeepsMem (execDcgive d a b s) := by
  unfold execDcgive
  repeat' first
    | with_reducible assumption
    | with_reducible apply issueOp_wf
    | with_reducible apply State.decantFlow_wf
    | with_reducible apply State.putS_wf
    | with_reducible apply foldl_wf
    | with_reducible apply next_wf
    | with_reducible apply fault_wf
    | with_reducible apply refused_wf
    | intro _

theorem execDcread_wf (d : Fin 32) (a : SSrc) (s : State) (hs : s.memCanonical) :
    KeepsMem (execDcread d a s) := by
  unfold execDcread
  repeat' first
    | with_reducible assumption
    | with_reducible apply issueOp_wf
    | with_reducible apply State.decantFlow_wf
    | with_reducible apply State.putS_wf
    | with_reducible apply State.modCur_wf
    | with_reducible apply foldl_wf
    | with_reducible apply next_wf
    | with_reducible apply fault_wf
    | with_reducible apply refused_wf
    | intro _

theorem execDcreadx_wf (d : SDst) (a : SSrc) (s : State) (hs : s.memCanonical) :
    KeepsMem (execDcreadx d a s) := by
  unfold execDcreadx
  repeat' first
    | with_reducible assumption
    | with_reducible apply issueOp_wf
    | with_reducible apply State.decantFlow_wf
    | with_reducible apply State.putS_wf
    | with_reducible apply foldl_wf
    | with_reducible apply next_wf
    | with_reducible apply fault_wf
    | with_reducible apply refused_wf
    | intro _

theorem execDcdrop_wf (d : SDst) (a : SSrc) (s : State) (hs : s.memCanonical) :
    KeepsMem (execDcdrop d a s) := by
  unfold execDcdrop
  repeat' first
    | with_reducible assumption
    | with_reducible apply issueOp_wf
    | with_reducible apply State.decantFlow_wf
    | with_reducible apply State.putS_wf
    | with_reducible apply foldl_wf
    | with_reducible apply next_wf
    | with_reducible apply fault_wf
    | with_reducible apply refused_wf
    | intro _

theorem execObjdecl_wf (d : SDst) (a : SSrc) (s : State) (hs : s.memCanonical) :
    KeepsMem (execObjdecl d a s) := by
  unfold execObjdecl
  repeat' first
    | with_reducible assumption
    | with_reducible apply issueOp_wf
    | with_reducible apply State.finish_wf
    | with_reducible apply State.putS_wf
    | with_reducible apply State.declareOn_wf
    | with_reducible apply State.readRecord_wf
    | with_reducible apply State.trapHere_wf
    | with_reducible apply State.declare_wf
    | with_reducible apply foldl_wf
    | with_reducible apply next_wf
    | with_reducible apply fault_wf
    | with_reducible apply refused_wf
    | intro _
    | split

theorem execObjdrop_wf (a : SSrc) (s : State) (hs : s.memCanonical) :
    KeepsMem (execObjdrop a s) := by
  unfold execObjdrop
  repeat' first
    | with_reducible assumption
    | with_reducible apply issueOp_wf
    | with_reducible apply State.finish_wf
    | with_reducible apply State.dropOn_wf
    | with_reducible apply State.trapHere_wf
    | with_reducible apply State.modObject_wf
    | with_reducible apply foldl_wf
    | with_reducible apply next_wf
    | with_reducible apply fault_wf
    | with_reducible apply refused_wf
    | intro _
    | split
    | (refine of_next ?_ (by with_reducible assumption))
    | (refine State.wf_of_mem _ ?_; dsimp only; refine State.mem_of_wf _ ?_)

theorem execWstat_wf (d : SDst) (b : Fin 16) (s : State) (hs : s.memCanonical) :
    KeepsMem (execWstat d b s) := by
  unfold execWstat
  repeat' first
    | with_reducible assumption
    | with_reducible apply issueOp_wf
    | with_reducible apply State.finish_wf
    | with_reducible apply State.putS_wf
    | with_reducible apply foldl_wf
    | with_reducible apply next_wf
    | with_reducible apply fault_wf
    | with_reducible apply refused_wf
    | intro _

theorem execCrwr_wf (a : CReg) (b : SSrc) (s : State) (hs : s.memCanonical) :
    KeepsMem (execCrwr a b s) := by
  unfold execCrwr
  repeat' first
    | with_reducible assumption
    | with_reducible apply issueOp_wf
    | with_reducible apply State.finish_wf
    | with_reducible apply State.writeCreg_wf
    | with_reducible apply foldl_wf
    | with_reducible apply next_wf
    | with_reducible apply fault_wf
    | with_reducible apply refused_wf
    | intro _
    | split

theorem execCarve_wf (d : SDst) (a : SSrc) (s : State) (hs : s.memCanonical) :
    KeepsMem (execCarve d a s) := by
  unfold execCarve
  repeat' first
    | with_reducible assumption
    | with_reducible apply issueOp_wf
    | with_reducible apply State.finish_wf
    | with_reducible apply State.putS_wf
    | with_reducible apply State.carveOn_wf
    | with_reducible apply State.trapHere_wf
    | with_reducible apply State.enterCarve_wf
    | with_reducible apply State.gate_wf
    | with_reducible apply State.stall_wf
    | with_reducible apply State.released_wf
    | with_reducible apply State.modCtx_wf
    | with_reducible apply foldl_wf
    | with_reducible apply some_wf
    | exact none_wf
    | with_reducible apply next_wf
    | with_reducible apply fault_wf
    | with_reducible apply refused_wf
    | intro _
    | split
    | (refine of_next ?_ (by with_reducible assumption))
    | (refine of_some ?_ (by with_reducible assumption))
    | (refine State.wf_of_mem _ ?_; dsimp only; refine State.mem_of_wf _ ?_)

theorem State.replayWork_wf (s : State) (wid : Nat) (hs : s.memCanonical) :
    (State.replayWork s wid).memCanonical := by
  unfold State.replayWork
  repeat' first
    | with_reducible assumption
    | with_reducible apply State.modWave_wf
    | with_reducible apply foldl_wf
    | intro _
    | split
    | (refine State.wf_of_mem _ ?_; dsimp only; refine State.mem_of_wf _ ?_)

theorem State.trapReturn_wf (s : State) (hs : s.memCanonical) :
    (State.trapReturn s).memCanonical := by
  unfold State.trapReturn
  repeat' first
    | with_reducible assumption
    | with_reducible apply State.trapHere_wf
    | with_reducible apply State.replayWork_wf
    | with_reducible apply State.modCur_wf
    | with_reducible apply State.released_wf
    | with_reducible apply State.passCur_wf
    | with_reducible apply foldl_wf
    | intro _
    | split
    | (refine State.wf_of_mem _ ?_; dsimp only; refine State.mem_of_wf _ ?_)

theorem execTret_wf (s : State) (hs : s.memCanonical) :
    KeepsMem (execTret s) := by
  unfold execTret
  repeat' first
    | with_reducible assumption
    | with_reducible apply issueOp_wf
    | with_reducible apply State.gate_wf
    | with_reducible apply State.trapReturn_wf
    | with_reducible apply foldl_wf
    | with_reducible apply some_wf
    | exact none_wf
    | with_reducible apply next_wf
    | with_reducible apply fault_wf
    | with_reducible apply refused_wf
    | intro _
    | split
    | (refine of_next ?_ (by with_reducible assumption))
    | (refine of_some ?_ (by with_reducible assumption))

theorem execTlbinv_wf (a : SSrc) (b : Bool) (s : State) (hs : s.memCanonical) :
    KeepsMem (execTlbinv a b s) := by
  unfold execTlbinv
  repeat' first
    | with_reducible assumption
    | with_reducible apply issueOp_wf
    | with_reducible apply State.invalidate_wf
    | with_reducible apply foldl_wf
    | with_reducible apply next_wf
    | with_reducible apply fault_wf
    | with_reducible apply refused_wf
    | intro _

theorem execIcinv_wf (a : SSrc) (b : Bool) (s : State) (hs : s.memCanonical) :
    KeepsMem (execIcinv a b s) := by
  unfold execIcinv
  repeat' first
    | with_reducible assumption
    | with_reducible apply issueOp_wf
    | with_reducible apply State.invalidate_wf
    | with_reducible apply foldl_wf
    | with_reducible apply next_wf
    | with_reducible apply fault_wf
    | with_reducible apply refused_wf
    | intro _

theorem execCopyComplete_wf (block : Nat) (window : Nat) (s : State) (hs : s.memCanonical) :
    KeepsMem (execCopyComplete block window s) := by
  unfold execCopyComplete
  repeat' first
    | with_reducible assumption
    | with_reducible apply State.startFence_wf
    | with_reducible apply State.modBlock_wf
    | with_reducible apply State.finishBlock_wf
    | with_reducible apply State.refreshWords_wf
    | with_reducible apply State.settleWork_wf
    | with_reducible apply State.appendRecord_wf
    | with_reducible apply State.modWindow_wf
    | with_reducible apply foldl_wf
    | with_reducible apply next_wf
    | with_reducible apply fault_wf
    | with_reducible apply refused_wf
    | intro _
    | split
    | dsimp only

theorem execCopyAbandon_wf (block : Nat) (window : Nat) (s : State) (hs : s.memCanonical) :
    KeepsMem (execCopyAbandon block window s) := by
  unfold execCopyAbandon
  repeat' first
    | with_reducible assumption
    | with_reducible apply State.settleWork_wf
    | with_reducible apply State.defer_wf
    | with_reducible apply State.modWindow_wf
    | with_reducible apply foldl_wf
    | with_reducible apply next_wf
    | with_reducible apply fault_wf
    | with_reducible apply refused_wf
    | intro _
    | split

theorem execGatherComplete_wf (cluster : Nat) (s : State) (hs : s.memCanonical) :
    KeepsMem (execGatherComplete cluster s) := by
  unfold execGatherComplete
  repeat' first
    | with_reducible assumption
    | with_reducible apply State.startFence_wf
    | with_reducible apply State.finishRow_wf
    | with_reducible apply State.completeScatter_wf
    | with_reducible apply State.completeRows_wf
    | with_reducible apply foldl_wf
    | with_reducible apply next_wf
    | with_reducible apply fault_wf
    | with_reducible apply refused_wf
    | with_reducible apply of_fst
    | intro _
    | split
    | (refine of_pair ?_ (by with_reducible assumption))
    | dsimp only

theorem execGatherAbandon_wf (cluster : Nat) (s : State) (hs : s.memCanonical) :
    KeepsMem (execGatherAbandon cluster s) := by
  unfold execGatherAbandon
  repeat' first
    | with_reducible assumption
    | with_reducible apply State.finishRow_wf
    | with_reducible apply State.scatterRun_wf
    | with_reducible apply State.settleWork_wf
    | with_reducible apply State.defer_wf
    | with_reducible apply State.setGather_wf
    | with_reducible apply foldl_wf
    | with_reducible apply next_wf
    | with_reducible apply fault_wf
    | with_reducible apply refused_wf
    | with_reducible apply of_fst
    | intro _
    | split

theorem execSpawnBinTimer_wf (cluster : Nat) (bin : Nat) (s : State) (hs : s.memCanonical) :
    KeepsMem (execSpawnBinTimer cluster bin s) := by
  unfold execSpawnBinTimer
  repeat' first
    | with_reducible assumption
    | with_reducible apply State.modCluster_wf
    | with_reducible apply foldl_wf
    | with_reducible apply next_wf

theorem execDecantReq_wf (r : Nat) (g : Nat) (sum : Nat) (first : Nat) (s : State) (hs : s.memCanonical) :
    KeepsMem (execDecantReq r g sum first s) := by
  unfold execDecantReq
  repeat' first
    | with_reducible assumption
    | with_reducible apply State.arriveInOrder_wf
    | with_reducible apply State.atHome_wf
    | with_reducible apply foldl_wf
    | with_reducible apply next_wf
    | with_reducible apply fault_wf
    | with_reducible apply refused_wf
    | intro _

theorem execDecantGiveMsg_wf (r : Nat) (g : Nat) (units : Nat) (op : Nat) (s : State) (hs : s.memCanonical) :
    KeepsMem (execDecantGiveMsg r g units op s) := by
  unfold execDecantGiveMsg
  repeat' first
    | with_reducible assumption
    | with_reducible apply State.arriveInOrder_wf
    | with_reducible apply State.atHome_wf
    | with_reducible apply foldl_wf
    | with_reducible apply next_wf
    | with_reducible apply fault_wf
    | with_reducible apply refused_wf
    | intro _

theorem State.unitsHome_wf (s : State) (r : Nat) (g : Nat) (units : Nat) (hs : s.memCanonical) :
    (State.unitsHome s r g units).memCanonical := by
  unfold State.unitsHome
  repeat' first
    | with_reducible assumption
    | with_reducible apply State.runHome_wf
    | with_reducible apply State.modCounter_wf
    | with_reducible apply State.setReserve_wf
    | with_reducible apply foldl_wf
    | intro _
    | split

theorem execDecantReturn_wf (r : Nat) (g : Nat) (units : Nat) (s : State) (hs : s.memCanonical) :
    KeepsMem (execDecantReturn r g units s) := by
  unfold execDecantReturn
  repeat' first
    | with_reducible assumption
    | with_reducible apply State.arriveInOrder_wf
    | with_reducible apply State.pump_wf
    | with_reducible apply State.unitsHome_wf
    | with_reducible apply foldl_wf
    | with_reducible apply next_wf
    | with_reducible apply fault_wf
    | with_reducible apply refused_wf
    | intro _

theorem execDecantAnswer_wf (r : Nat) (g : Nat) (units : Nat) (s : State) (hs : s.memCanonical) :
    KeepsMem (execDecantAnswer r g units s) := by
  unfold execDecantAnswer
  repeat' first
    | with_reducible assumption
    | with_reducible apply State.arriveInOrder_wf
    | with_reducible apply State.unitsHome_wf
    | with_reducible apply foldl_wf
    | with_reducible apply next_wf
    | with_reducible apply fault_wf
    | with_reducible apply refused_wf
    | intro _

theorem execDecantReadAtHome_wf (r : Nat) (g : Nat) (kind : DecantRead) (op : Nat) (s : State) (hs : s.memCanonical) :
    KeepsMem (execDecantReadAtHome r g kind op s) := by
  unfold execDecantReadAtHome
  repeat' first
    | with_reducible assumption
    | with_reducible apply State.arriveInOrder_wf
    | with_reducible apply State.atHome_wf
    | with_reducible apply foldl_wf
    | with_reducible apply next_wf
    | with_reducible apply fault_wf
    | with_reducible apply refused_wf
    | intro _

theorem execDecantRecall_wf (r : Nat) (g : Nat) (s : State) (hs : s.memCanonical) :
    KeepsMem (execDecantRecall r g s) := by
  unfold execDecantRecall
  repeat' first
    | with_reducible assumption
    | with_reducible apply State.arriveInOrder_wf
    | with_reducible apply State.send_wf
    | with_reducible apply State.setAllowance_wf
    | with_reducible apply foldl_wf
    | with_reducible apply next_wf
    | with_reducible apply fault_wf
    | with_reducible apply refused_wf
    | intro _
    | split
    | (refine of_next ?_ (by with_reducible assumption))
    | (refine State.wf_of_mem _ ?_; dsimp only; refine State.mem_of_wf _ ?_)

theorem State.returnEntry_wf (s : State) (g : Nat) (r : Nat) (hs : s.memCanonical) :
    (State.returnEntry s g r).memCanonical := by
  unfold State.returnEntry
  repeat' first
    | with_reducible assumption
    | with_reducible apply State.send_wf
    | with_reducible apply State.setAllowance_wf
    | with_reducible apply foldl_wf
    | intro _
    | split
    | (refine State.wf_of_mem _ ?_; dsimp only; refine State.mem_of_wf _ ?_)

theorem State.makeRoom_wf (s : State) (g : Nat) (hs : s.memCanonical) :
    OptMem (State.makeRoom s g) := by
  unfold State.makeRoom
  repeat' first
    | with_reducible assumption
    | with_reducible apply State.returnEntry_wf
    | with_reducible apply foldl_wf
    | with_reducible apply some_wf
    | exact none_wf
    | with_reducible apply opt_map_wf
    | with_reducible apply opt_map2_wf
    | intro _
    | split
    | (refine of_some ?_ (by with_reducible assumption))
    | dsimp only

theorem execDecantGrant_wf (r : Nat) (g : Nat) (units : Nat) (s : State) (hs : s.memCanonical) :
    KeepsMem (execDecantGrant r g units s) := by
  unfold execDecantGrant
  repeat' first
    | with_reducible assumption
    | with_reducible apply State.arriveInOrder_wf
    | with_reducible apply State.makeRoom_wf
    | with_reducible apply State.runHome_wf
    | with_reducible apply State.ask_wf
    | with_reducible apply State.serveWaiters_wf
    | with_reducible apply State.setAllowance_wf
    | with_reducible apply State.send_wf
    | with_reducible apply State.takesDone_wf
    | with_reducible apply foldl_wf
    | with_reducible apply some_wf
    | exact none_wf
    | with_reducible apply next_wf
    | with_reducible apply fault_wf
    | with_reducible apply refused_wf
    | intro _
    | split
    | (refine of_next ?_ (by with_reducible assumption))
    | (refine of_some ?_ (by with_reducible assumption))
    | (refine State.wf_of_mem _ ?_; dsimp only; refine State.mem_of_wf _ ?_)

theorem execDecantServe_wf (r : Nat) (g : Nat) (units : Nat) (s : State) (hs : s.memCanonical) :
    KeepsMem (execDecantServe r g units s) := by
  unfold execDecantServe
  repeat' first
    | with_reducible assumption
    | with_reducible apply State.arriveInOrder_wf
    | with_reducible apply State.runHome_wf
    | with_reducible apply State.send_wf
    | with_reducible apply State.setAllowance_wf
    | with_reducible apply State.takesDone_wf
    | with_reducible apply State.ask_wf
    | with_reducible apply foldl_wf
    | with_reducible apply next_wf
    | with_reducible apply fault_wf
    | with_reducible apply refused_wf
    | intro _
    | split
    | (refine of_next ?_ (by with_reducible assumption))
    | (refine State.wf_of_mem _ ?_; dsimp only; refine State.mem_of_wf _ ?_)

theorem State.reqAnswered_wf (s : State) (r : Nat) (g : Nat) (op : Nat) (detail : Nat) (hs : s.memCanonical) :
    (State.reqAnswered s r g op detail).memCanonical := by
  unfold State.reqAnswered
  repeat' first
    | with_reducible assumption
    | with_reducible apply State.takesDone_wf
    | with_reducible apply State.ask_wf
    | with_reducible apply State.setAllowance_wf
    | with_reducible apply State.decantEnd_wf
    | with_reducible apply foldl_wf
    | intro _
    | split

theorem execDecantStatusReply_wf (r : Nat) (g : Nat) (op : Nat) (lo : Nat) (hi : Dword) (detail : Nat) (s : State) (hs : s.memCanonical) :
    KeepsMem (execDecantStatusReply r g op lo hi detail s) := by
  unfold execDecantStatusReply
  repeat' first
    | with_reducible assumption
    | with_reducible apply State.arriveInOrder_wf
    | with_reducible apply State.reqAnswered_wf
    | with_reducible apply State.pump_wf
    | with_reducible apply State.decantEnd_wf
    | with_reducible apply foldl_wf
    | with_reducible apply next_wf
    | with_reducible apply fault_wf
    | with_reducible apply refused_wf
    | intro _
    | split
    | (refine of_next ?_ (by with_reducible assumption))
    | (refine State.wf_of_mem _ ?_; dsimp only; refine State.mem_of_wf _ ?_)

theorem State.loseEntries_wf (s : State) (stack : Nat) (r : Nat) (hs : s.memCanonical) :
    (State.loseEntries s stack r).memCanonical := by
  unfold State.loseEntries
  repeat' first
    | with_reducible assumption
    | with_reducible apply State.setImage_wf
    | with_reducible apply State.runHome_wf
    | with_reducible apply State.modCounter_wf
    | with_reducible apply foldl_wf
    | intro _
    | split

theorem execDecantCdieLoss_wf (stack : Nat) (s : State) (hs : s.memCanonical) :
    KeepsMem (execDecantCdieLoss stack s) := by
  unfold execDecantCdieLoss
  repeat' first
    | with_reducible assumption
    | with_reducible apply State.arrive_wf
    | with_reducible apply State.decantRetire_wf
    | with_reducible apply State.loseEntries_wf
    | with_reducible apply foldl_wf
    | with_reducible apply next_wf
    | with_reducible apply fault_wf
    | with_reducible apply refused_wf
    | intro _
    | split
    | (refine of_next ?_ (by with_reducible assumption))
    | (refine State.wf_of_mem _ ?_; dsimp only; refine State.mem_of_wf _ ?_)

theorem State.logCodePoison_wf (s : State) (core : Nat) (ctx : Nat) (pa : Nat) (vs : List LineView) (hs : s.memCanonical) :
    (State.logCodePoison s core ctx pa vs).memCanonical := by
  unfold State.logCodePoison
  repeat' first
    | with_reducible assumption
    | with_reducible apply State.logDry_wf
    | with_reducible apply foldl_wf
    | intro _
    | split

theorem execIcacheFill_wf (core : Nat) (ctx : Nat) (line : Nat) (wave : Nat) (s : State) (hs : s.memCanonical) :
    KeepsMem (execIcacheFill core ctx line wave s) := by
  unfold execIcacheFill
  repeat' first
    | with_reducible assumption
    | with_reducible apply State.arrive_wf
    | with_reducible apply State.send_wf
    | with_reducible apply State.fillFault_wf
    | with_reducible apply State.fillLines_wf
    | with_reducible apply State.installCode_wf
    | with_reducible apply State.logCodePoison_wf
    | with_reducible apply foldl_wf
    | with_reducible apply next_wf
    | with_reducible apply fault_wf
    | with_reducible apply refused_wf
    | with_reducible apply of_fst
    | intro _
    | split
    | (refine of_next ?_ (by with_reducible assumption))
    | (refine of_pair ?_ (by with_reducible assumption))
    | (refine State.wf_of_mem _ ?_; dsimp only; refine State.mem_of_wf _ ?_)

theorem execWaitWordPoll_wf (ctx : Nat) (queue : Nat) (s : State) (hs : s.memCanonical) :
    KeepsMem (execWaitWordPoll ctx queue s) := by
  unfold execWaitWordPoll
  repeat' first
    | with_reducible assumption
    | with_reducible apply State.runIfReady_wf
    | with_reducible apply State.readWaits_wf
    | with_reducible apply foldl_wf
    | with_reducible apply next_wf
    | with_reducible apply fault_wf
    | with_reducible apply refused_wf
    | intro _
    | split

theorem execQueueReserving_wf (ctx : Nat) (queue : Nat) (s : State) (hs : s.memCanonical) :
    KeepsMem (execQueueReserving ctx queue s) := by
  unfold execQueueReserving
  repeat' first
    | with_reducible assumption
    | with_reducible apply State.modQueue_wf
    | with_reducible apply foldl_wf
    | with_reducible apply next_wf
    | with_reducible apply fault_wf
    | with_reducible apply refused_wf
    | intro _
    | split
    | dsimp only

theorem State.pressCtx_wf (s : State) (ctx : Nat) (t : Nat) (hs : s.memCanonical) :
    (State.pressCtx s ctx t).memCanonical := by
  unfold State.pressCtx
  repeat' first
    | with_reducible assumption
    | with_reducible apply State.startFence_wf
    | with_reducible apply foldl_wf
    | intro _
    | split

theorem State.rereadWaits_wf (s : State) (pa : Nat) (hs : s.memCanonical) :
    (State.rereadWaits s pa).memCanonical := by
  unfold State.rereadWaits
  repeat' first
    | with_reducible assumption
    | with_reducible apply State.runIfReady_wf
    | with_reducible apply State.readWaits_wf
    | with_reducible apply foldl_wf
    | intro _
    | split

theorem State.signal_wf (s : State) (l : Launch) (hs : s.memCanonical) :
    PairMem (State.signal s l) := by
  unfold State.signal
  repeat' first
    | with_reducible assumption
    | with_reducible apply State.eventFault_wf
    | with_reducible apply State.rereadWaits_wf
    | with_reducible apply State.publish_wf
    | with_reducible apply foldl_wf
    | with_reducible apply pair_wf
    | intro _
    | split

theorem State.sendNotice_wf (s : State) (l : Launch) (lost : Bool) (hs : s.memCanonical) :
    (State.sendNotice s l lost).memCanonical := by
  unfold State.sendNotice
  repeat' first
    | with_reducible assumption
    | with_reducible apply State.dropNotice_wf
    | with_reducible apply State.emit_wf
    | with_reducible apply foldl_wf
    | intro _
    | split

theorem execLaunchDrain_wf (launch : Nat) (s : State) (hs : s.memCanonical) :
    KeepsMem (execLaunchDrain launch s) := by
  unfold execLaunchDrain
  repeat' first
    | with_reducible assumption
    | with_reducible apply State.modLaunch_wf
    | with_reducible apply State.pressCtx_wf
    | with_reducible apply State.signal_wf
    | with_reducible apply State.sendNotice_wf
    | with_reducible apply foldl_wf
    | with_reducible apply next_wf
    | with_reducible apply fault_wf
    | with_reducible apply refused_wf
    | with_reducible apply of_fst
    | intro _
    | split
    | (refine of_pair ?_ (by with_reducible assumption))
    | dsimp only

theorem execInvalidationComplete_wf (wave : Nat) (s : State) (hs : s.memCanonical) :
    KeepsMem (execInvalidationComplete wave s) := by
  unfold execInvalidationComplete
  repeat' first
    | with_reducible assumption
    | with_reducible apply State.modWave_wf
    | with_reducible apply foldl_wf
    | with_reducible apply next_wf

theorem execLaunchFrame_wf (source : Nat) (payload : List Byte) (s : State) (hs : s.memCanonical) :
    KeepsMem (execLaunchFrame source payload s) := by
  unfold execLaunchFrame
  repeat' first
    | with_reducible assumption
    | with_reducible apply State.emit_wf
    | with_reducible apply State.fileAll_wf
    | with_reducible apply State.runIfReady_wf
    | with_reducible apply State.modCtx_wf
    | with_reducible apply foldl_wf
    | with_reducible apply next_wf
    | with_reducible apply fault_wf
    | with_reducible apply refused_wf
    | with_reducible apply of_fst
    | intro _
    | split
    | (refine of_pair ?_ (by with_reducible assumption))
    | dsimp only

end Sys2Proof.Machine
end

