-- ==== Sys2Proof/Laws/KeepsPackage.lean ====
section
/-! SUPPORT. The memory keeps its canonical form, operation by operation: events of waves, translation, saving, reliability, ports, power and management. -/

namespace Sys2Proof.Machine

theorem State.purge_wf (s : State) (p : Instr → Bool) (hs : s.memCanonical) :
    (State.purge s p).memCanonical := by
  unfold State.purge
  repeat' first
    | with_reducible assumption
    | with_reducible apply foldl_wf
    | intro _
    | split
    | (refine State.wf_of_mem _ ?_; dsimp only; refine State.mem_of_wf _ ?_)

theorem State.ackForDie_wf (s : State) (die : Nat) (hs : s.memCanonical) :
    (State.ackForDie s die).memCanonical := by
  unfold State.ackForDie
  repeat' first
    | with_reducible assumption
    | with_reducible apply State.settle_wf
    | with_reducible apply State.purge_wf
    | with_reducible apply foldl_wf

theorem State.restoreCores_wf (s : State) (g' : Nat) (x : SavedCluster) (hs : s.memCanonical) :
    (State.restoreCores s g' x).memCanonical := by
  unfold State.restoreCores
  repeat' first
    | with_reducible assumption
    | with_reducible apply State.modCore_wf
    | with_reducible apply foldl_wf
    | intro _

theorem State.restorePiece_wf (s : State) (x : SavedCluster) (g' : Nat) (hs : s.memCanonical) :
    (State.restorePiece s x g').memCanonical := by
  unfold State.restorePiece
  repeat' first
    | with_reducible assumption
    | with_reducible apply State.restoreCores_wf
    | with_reducible apply State.modCluster_wf

theorem State.deviceWrite_wf (s : State) (pa : Nat) (bs : List Byte) (hs : s.memCanonical) :
    (State.deviceWrite s pa bs).memCanonical := by
  unfold State.deviceWrite
  repeat' first
    | with_reducible assumption
    | with_reducible apply State.publishLine_wf
    | with_reducible apply State.writeBytes_wf
    | with_reducible apply foldl_wf
    | intro _

theorem State.writeHeader_wf (s : State) (ctx : Nat) (state : Nat) (hs : s.memCanonical) :
    (State.writeHeader s ctx state).memCanonical := by
  unfold State.writeHeader
  repeat' first
    | with_reducible assumption
    | with_reducible apply State.deviceWrite_wf
    | with_reducible apply foldl_wf
    | intro _
    | split
    | (refine State.wf_of_mem _ ?_; dsimp only; refine State.mem_of_wf _ ?_)

theorem State.restoreContext_wf (s : State) (ctx : Nat) (p : Plan) (hs : s.memCanonical) :
    (State.restoreContext s ctx p).memCanonical := by
  unfold State.restoreContext
  repeat' first
    | with_reducible assumption
    | with_reducible apply State.modCtx_wf

theorem State.resumeOn_wf (s : State) (ctx : Nat) (p : Plan) (hs : s.memCanonical) :
    (State.resumeOn s ctx p).memCanonical := by
  unfold State.resumeOn
  repeat' first
    | with_reducible assumption
    | with_reducible apply State.modCluster_wf
    | with_reducible apply State.restorePiece_wf
    | with_reducible apply State.writeHeader_wf
    | with_reducible apply State.restoreContext_wf
    | with_reducible apply foldl_wf
    | intro _
    | split
    | (refine State.wf_of_mem _ ?_; dsimp only; refine State.mem_of_wf _ ?_)

theorem State.resume_wf (s : State) (ctx : Nat) (named : List Nat) (hs : s.memCanonical) :
    OptMem (State.resume s ctx named) := by
  unfold State.resume
  repeat' first
    | with_reducible assumption
    | with_reducible apply State.resumeOn_wf
    | with_reducible apply foldl_wf
    | with_reducible apply some_wf
    | exact none_wf
    | with_reducible apply opt_map_wf
    | with_reducible apply opt_map2_wf
    | intro _
    | split

theorem State.resumeAgain_wf (s : State) (ctx : Nat) (hs : s.memCanonical) : (s.resumeAgain ctx).memCanonical := by
  unfold State.resumeAgain
  split
  · exact State.modCtx_wf _ _ _ hs
  · exact getD_wf (State.resume_wf _ _ _ hs) hs

theorem State.afterRetire_wf (s : State) (ctx : Nat) (hs : s.memCanonical) : (s.afterRetire ctx).memCanonical := by
  unfold State.afterRetire
  extract_lets c
  split
  · exact State.resumeAgain_wf _ _ hs
  · exact hs

theorem State.settleDram_wf (s : State) (hs : s.memCanonical) :
    (State.settleDram s).memCanonical := by
  unfold State.settleDram
  repeat' first
    | with_reducible assumption
    | with_reducible apply foldl_wf
    | intro _
    | split
    | (refine State.wf_of_mem _ ?_; dsimp only; refine State.mem_of_wf _ ?_)

theorem State.modFabric_wf (s : State) (f : Fabric → Fabric) (hs : s.memCanonical) :
    (State.modFabric s f).memCanonical := by
  unfold State.modFabric
  repeat' first
    | with_reducible assumption
    | with_reducible apply foldl_wf
    | intro _
    | split
    | (refine State.wf_of_mem _ ?_; dsimp only; refine State.mem_of_wf _ ?_)

theorem State.watchLeaving_wf (s : State) (hs : s.memCanonical) :
    (State.watchLeaving s).memCanonical := by
  unfold State.watchLeaving
  repeat' first
    | with_reducible assumption
    | with_reducible apply State.modFabric_wf
    | with_reducible apply foldl_wf
    | intro _
    | split

theorem State.reap_wf (s : State) (hs : s.memCanonical) :
    (State.reap s).memCanonical := by
  unfold State.reap
  repeat' first
    | with_reducible assumption
    | with_reducible apply foldl_wf
    | intro _
    | split
    | (refine State.wf_of_mem _ ?_; dsimp only; refine State.mem_of_wf _ ?_)

theorem State.modNd_wf (s : State) (f : NDie → NDie) (hs : s.memCanonical) :
    (State.modNd s f).memCanonical := by
  unfold State.modNd
  repeat' first
    | with_reducible assumption
    | with_reducible apply foldl_wf
    | intro _
    | split
    | (refine State.wf_of_mem _ ?_; dsimp only; refine State.mem_of_wf _ ?_)

theorem State.endJob_wf (s : State) (j : MgmtJob) (hs : s.memCanonical) :
    (State.endJob s j).memCanonical := by
  unfold State.endJob
  repeat' first
    | with_reducible assumption
    | with_reducible apply State.emit_wf
    | with_reducible apply State.modNd_wf
    | with_reducible apply foldl_wf

theorem State.initHeader_wf (s : State) (ctx : Nat) (hs : s.memCanonical) :
    (State.initHeader s ctx).memCanonical := by
  unfold State.initHeader
  repeat' first
    | with_reducible assumption
    | with_reducible apply State.deviceWrite_wf
    | with_reducible apply foldl_wf
    | intro _
    | split
    | (refine State.wf_of_mem _ ?_; dsimp only; refine State.mem_of_wf _ ?_)

theorem State.createContext_wf (s : State) (ctx : Nat) (clusters : List Nat) (ptroot : Nat) (saveBase : Nat) (saveSize : Nat) (lkey : BitVec 256) (ckey : BitVec 256) (hs : s.memCanonical) :
    DoneMem (State.createContext s ctx clusters ptroot saveBase saveSize lkey ckey) := by
  unfold State.createContext
  repeat' first
    | with_reducible assumption
    | with_reducible apply State.modCluster_wf
    | with_reducible apply State.initHeader_wf
    | with_reducible apply foldl_wf
    | with_reducible apply dsome_wf
    | exact dnone_wf
    | with_reducible apply done_map_wf
    | intro _
    | split
    | (refine State.wf_of_mem _ ?_; dsimp only; refine State.mem_of_wf _ ?_)

theorem State.removeContext_wf (s : State) (ctx : Nat) (hs : s.memCanonical) :
    (State.removeContext s ctx).memCanonical := by
  unfold State.removeContext
  repeat' first
    | with_reducible assumption
    | with_reducible apply foldl_wf
    | intro _
    | split
    | (refine State.wf_of_mem _ ?_; dsimp only; refine State.mem_of_wf _ ?_)

theorem State.beginPreempt_wf (s : State) (ctx : Nat) (hs : s.memCanonical) :
    (State.beginPreempt s ctx).memCanonical := by
  unfold State.beginPreempt
  repeat' first
    | with_reducible assumption
    | with_reducible apply State.writeHeader_wf
    | with_reducible apply State.modCtx_wf

theorem State.endRestore_wf (s : State) (ctx : Nat) (hs : s.memCanonical) :
    (State.endRestore s ctx).memCanonical := by
  unfold State.endRestore
  repeat' first
    | with_reducible assumption
    | with_reducible apply State.dispatch_wf
    | with_reducible apply State.applyPower_wf
    | with_reducible apply State.writeHeader_wf
    | with_reducible apply State.modCtx_wf

theorem State.preemptNow_wf (s : State) (ctx : Nat) (hs : s.memCanonical) :
    (State.preemptNow s ctx).memCanonical := by
  unfold State.preemptNow
  repeat' first
    | with_reducible assumption
    | with_reducible apply State.beginPreempt_wf
    | with_reducible apply State.endRestore_wf
    | with_reducible apply foldl_wf
    | intro _
    | split

theorem State.destroyContext_wf (s : State) (ctx : Nat) (hs : s.memCanonical) :
    DoneMem (State.destroyContext s ctx) := by
  unfold State.destroyContext
  repeat' first
    | with_reducible assumption
    | with_reducible apply State.removeContext_wf
    | with_reducible apply State.modCtx_wf
    | with_reducible apply State.preemptNow_wf
    | with_reducible apply foldl_wf
    | with_reducible apply dsome_wf
    | exact dnone_wf
    | with_reducible apply done_map_wf
    | intro _
    | split

theorem State.preemptContext_wf (s : State) (ctx : Nat) (hs : s.memCanonical) :
    DoneMem (State.preemptContext s ctx) := by
  unfold State.preemptContext
  repeat' first
    | with_reducible assumption
    | with_reducible apply State.modCtx_wf
    | with_reducible apply State.preemptNow_wf
    | with_reducible apply foldl_wf
    | with_reducible apply dsome_wf
    | exact dnone_wf
    | with_reducible apply done_map_wf
    | intro _
    | split

theorem State.resumeContext_wf (s : State) (ctx : Nat) (clusters : List Nat) (hs : s.memCanonical) :
    DoneMem (State.resumeContext s ctx clusters) := by
  unfold State.resumeContext
  repeat' first
    | with_reducible assumption
    | with_reducible apply State.resume_wf
    | with_reducible apply foldl_wf
    | with_reducible apply some_wf
    | exact none_wf
    | with_reducible apply dsome_wf
    | exact dnone_wf
    | with_reducible apply done_map_wf
    | intro _
    | split

theorem State.onCtx_wf (s : State) (ctx : Nat) (f : Context → Context) (hs : s.memCanonical) :
    DoneMem (State.onCtx s ctx f) := by
  unfold State.onCtx
  repeat' first
    | with_reducible assumption
    | with_reducible apply State.modCtx_wf
    | with_reducible apply foldl_wf
    | with_reducible apply dsome_wf
    | exact dnone_wf
    | with_reducible apply done_map_wf
    | intro _
    | split

theorem State.setKeys_wf (s : State) (ctx : Nat) (lkey : BitVec 256) (ckey : BitVec 256) (hs : s.memCanonical) :
    DoneMem (State.setKeys s ctx lkey ckey) := by
  unfold State.setKeys
  repeat' first
    | with_reducible assumption
    | with_reducible apply State.onCtx_wf
    | with_reducible apply foldl_wf
    | with_reducible apply dsome_wf
    | exact dnone_wf
    | with_reducible apply done_map_wf
    | intro _
    | split

theorem State.setMask_wf (s : State) (ctx : Nat) (mask : Byte) (hs : s.memCanonical) :
    DoneMem (State.setMask s ctx mask) := by
  unfold State.setMask
  repeat' first
    | with_reducible assumption
    | with_reducible apply State.onCtx_wf

theorem State.setQuantum_wf (s : State) (ctx : Nat) (queue : Nat) (quantum : Nat) (hs : s.memCanonical) :
    DoneMem (State.setQuantum s ctx queue quantum) := by
  unfold State.setQuantum
  repeat' first
    | with_reducible assumption
    | with_reducible apply State.modQueue_wf
    | with_reducible apply foldl_wf
    | with_reducible apply dsome_wf
    | exact dnone_wf
    | with_reducible apply done_map_wf
    | intro _
    | split

theorem State.setRegion_wf (s : State) (index : Nat) (entry : BitVec 192) (hs : s.memCanonical) :
    DoneMem (State.setRegion s index entry) := by
  unfold State.setRegion
  repeat' first
    | with_reducible assumption
    | with_reducible apply foldl_wf
    | with_reducible apply dsome_wf
    | exact dnone_wf
    | with_reducible apply done_map_wf
    | intro _
    | split
    | (refine State.wf_of_mem _ ?_; dsimp only; refine State.mem_of_wf _ ?_)

theorem State.unregister_wf (s : State) (ctx : Nat) (va : Dword) (hs : s.memCanonical) :
    DoneMem (State.unregister s ctx va) := by
  unfold State.unregister
  repeat' first
    | with_reducible assumption
    | with_reducible apply State.modCtx_wf
    | with_reducible apply foldl_wf
    | with_reducible apply dsome_wf
    | exact dnone_wf
    | with_reducible apply done_map_wf
    | intro _
    | split
    | (refine State.wf_of_mem _ ?_; dsimp only; refine State.mem_of_wf _ ?_)

theorem State.setCap_wf (s : State) (watts : Nat) (hs : s.memCanonical) :
    DoneMem (State.setCap s watts) := by
  unfold State.setCap
  repeat' first
    | with_reducible assumption
    | with_reducible apply foldl_wf
    | with_reducible apply dsome_wf
    | exact dnone_wf
    | with_reducible apply done_map_wf
    | intro _
    | split
    | (refine State.wf_of_mem _ ?_; dsimp only; refine State.mem_of_wf _ ?_)

theorem State.preemptFor_wf (s : State) (die : Nat) (ctx : Nat) (hs : s.memCanonical) :
    (State.preemptFor s die ctx).memCanonical := by
  unfold State.preemptFor
  repeat' first
    | with_reducible assumption
    | with_reducible apply State.modCtx_wf
    | with_reducible apply State.preemptNow_wf
    | with_reducible apply foldl_wf
    | intro _
    | split
    | (refine State.wf_of_mem _ ?_; dsimp only; refine State.mem_of_wf _ ?_)

theorem State.beginReset_wf (s : State) (die : Nat) (hs : s.memCanonical) :
    (State.beginReset s die).memCanonical := by
  unfold State.beginReset
  repeat' first
    | with_reducible assumption
    | with_reducible apply State.preemptFor_wf
    | with_reducible apply foldl_wf
    | intro _
    | split
    | (refine State.wf_of_mem _ ?_; dsimp only; refine State.mem_of_wf _ ?_)

theorem State.askReset_wf (s : State) (die : Nat) (hs : s.memCanonical) :
    OptMem (State.askReset s die) := by
  unfold State.askReset
  repeat' first
    | with_reducible assumption
    | with_reducible apply State.beginReset_wf
    | with_reducible apply foldl_wf
    | with_reducible apply some_wf
    | exact none_wf
    | with_reducible apply opt_map_wf
    | with_reducible apply opt_map2_wf
    | intro _
    | split
    | (refine of_some ?_ (by with_reducible assumption))
    | (refine State.wf_of_mem _ ?_; dsimp only; refine State.mem_of_wf _ ?_)

theorem State.warmReset_wf (s : State) (die : Nat) (hs : s.memCanonical) :
    DoneMem (State.warmReset s die) := by
  unfold State.warmReset
  repeat' first
    | with_reducible assumption
    | with_reducible apply State.askReset_wf
    | with_reducible apply foldl_wf
    | with_reducible apply some_wf
    | exact none_wf
    | with_reducible apply dsome_wf
    | exact dnone_wf
    | with_reducible apply done_map_wf
    | intro _

theorem State.readDrydown_wf (s : State) (unit : Nat) (first : Nat) (count : Nat) (r : ReplyTo) (hs : s.memCanonical) :
    DoneMem (State.readDrydown s unit first count r) := by
  unfold State.readDrydown
  repeat' first
    | with_reducible assumption
    | with_reducible apply foldl_wf
    | with_reducible apply dsome_wf
    | exact dnone_wf
    | with_reducible apply done_map_wf
    | intro _
    | split

theorem State.attest_wf (s : State) (nonce : BitVec 256) (r : ReplyTo) (hs : s.memCanonical) :
    DoneMem (State.attest s nonce r) := by
  unfold State.attest
  repeat' first
    | with_reducible assumption
    | with_reducible apply foldl_wf
    | with_reducible apply dsome_wf

theorem State.raiseSvn_wf (s : State) (svn : Nat) (hs : s.memCanonical) :
    DoneMem (State.raiseSvn s svn) := by
  unfold State.raiseSvn
  repeat' first
    | with_reducible assumption
    | with_reducible apply foldl_wf
    | with_reducible apply dsome_wf
    | exact dnone_wf
    | with_reducible apply done_map_wf
    | intro _
    | split
    | (refine State.wf_of_mem _ ?_; dsimp only; refine State.mem_of_wf _ ?_)

theorem State.writeContextReg_wf (s : State) (ctx : Nat) (r : CReg) (v : Dword) (hs : s.memCanonical) :
    DoneMem (State.writeContextReg s ctx r v) := by
  unfold State.writeContextReg
  repeat' first
    | with_reducible assumption
    | with_reducible apply State.writeCreg_wf
    | with_reducible apply foldl_wf
    | with_reducible apply dsome_wf
    | exact dnone_wf
    | with_reducible apply done_map_wf
    | intro _
    | split

theorem State.bindQp_wf (s : State) (ctx : Nat) (qp : Nat) (hs : s.memCanonical) :
    DoneMem (State.bindQp s ctx qp) := by
  unfold State.bindQp
  repeat' first
    | with_reducible assumption
    | with_reducible apply State.onCtx_wf
    | with_reducible apply foldl_wf
    | with_reducible apply dsome_wf
    | exact dnone_wf
    | with_reducible apply done_map_wf
    | intro _
    | split

theorem State.performRecord_wf (s : State) (reply : ReplyTo) (r : List Byte) (hs : s.memCanonical) : DoneMem (s.performRecord reply r) := by
  unfold State.performRecord
  extract_lets f c
  split
  · trivial
  · split
    · exact State.createContext_wf _ _ _ _ _ _ _ _ hs
    · split <;> [exact State.destroyContext_wf _ _ hs; trivial]
    · split
      · split <;> [exact State.preemptContext_wf _ _ hs; trivial]
      · split <;> [exact State.resumeContext_wf _ _ _ hs; trivial]
    · split <;> [exact State.setKeys_wf _ _ _ _ hs; trivial]
    · split <;> [exact State.setMask_wf _ _ _ hs; trivial]
    · split <;> [exact State.setQuantum_wf _ _ _ _ hs; trivial]
    · split <;> [exact State.setRegion_wf _ _ _ hs; trivial]
    · split <;> [exact State.unregister_wf _ _ _ hs; trivial]
    · split <;> [exact State.setCap_wf _ _ hs; trivial]
    · split <;> [exact State.warmReset_wf _ _ hs; trivial]
    · split <;> [exact State.readDrydown_wf _ _ _ _ _ hs; trivial]
    · split <;> [exact State.attest_wf _ _ _ hs; trivial]
    · split <;> [exact State.raiseSvn_wf _ _ hs; trivial]
    · split
      · split <;> [exact State.writeContextReg_wf _ _ _ _ hs; trivial]
      · trivial
    · split <;> [exact State.bindQp_wf _ _ _ hs; trivial]
    · trivial

theorem State.runJob_wf (s : State) (j : MgmtJob) (n : Nat) (hs : s.memCanonical) : (s.runJob j n).memCanonical := by
  induction n generalizing s j with
  | zero => exact hs
  | succ n ih =>
    unfold State.runJob
    repeat' first
      | with_reducible assumption
      | with_reducible apply State.endJob_wf
      | with_reducible apply State.modNd_wf
      | with_reducible apply ih
      | split
      | (refine of_dsome ?_ (by with_reducible assumption))
      | with_reducible apply State.performRecord_wf
      | dsimp only

theorem State.startFrame_wf (s : State) (source : Nat) (payload : List Byte) (hs : s.memCanonical) :
    (State.startFrame s source payload).memCanonical := by
  unfold State.startFrame
  repeat' first
    | with_reducible assumption
    | with_reducible apply State.emit_wf
    | with_reducible apply State.runJob_wf
    | with_reducible apply State.modNd_wf
    | with_reducible apply foldl_wf
    | intro _
    | split
    | (refine State.wf_of_mem _ ?_; dsimp only; refine State.mem_of_wf _ ?_)

theorem State.continueJob_wf (s : State) (hs : s.memCanonical) :
    (State.continueJob s).memCanonical := by
  unfold State.continueJob
  repeat' first
    | with_reducible assumption
    | with_reducible apply State.runJob_wf
    | with_reducible apply State.startFrame_wf
    | with_reducible apply State.modNd_wf
    | with_reducible apply foldl_wf
    | intro _
    | split

theorem State.ageWave_wf (s : State) (wid : Nat) (hs : s.memCanonical) :
    (State.ageWave s wid).memCanonical := by
  unfold State.ageWave
  repeat' first
    | with_reducible assumption
    | with_reducible apply State.modWave_wf
    | with_reducible apply foldl_wf
    | intro _
    | split
    | (refine State.wf_of_mem _ ?_; dsimp only; refine State.mem_of_wf _ ?_)

theorem State.ageReady_wf (s : State) (hs : s.memCanonical) :
    (State.ageReady s).memCanonical := by
  unfold State.ageReady
  repeat' first
    | with_reducible assumption
    | with_reducible apply State.ageWave_wf
    | with_reducible apply foldl_wf

theorem State.afterTurn_wf (s : State) (dt : Nat) (hs : s.memCanonical) :
    (State.afterTurn s dt).memCanonical := by
  unfold State.afterTurn
  repeat' first
    | with_reducible assumption
    | with_reducible apply State.settleDram_wf
    | with_reducible apply State.pumpAll_wf
    | with_reducible apply State.dropOrigins_wf
    | with_reducible apply State.watchLeaving_wf
    | with_reducible apply State.reap_wf
    | with_reducible apply State.settleFailed_wf
    | with_reducible apply State.continueJob_wf
    | with_reducible apply State.ageReady_wf
    | with_reducible apply State.askFences_wf
    | with_reducible apply foldl_wf
    | intro _
    | split
    | (refine State.wf_of_mem _ ?_; dsimp only; refine State.mem_of_wf _ ?_)

theorem State.boot_wf (s : State) (hs : s.memCanonical) :
    (State.boot s).memCanonical := by
  unfold State.boot
  repeat' first
    | with_reducible assumption
    | with_reducible apply foldl_wf
    | intro _
    | split
    | (refine State.wf_of_mem _ ?_; dsimp only; refine State.mem_of_wf _ ?_)

theorem State.dropInside_wf (s : State) (e : Element) (hs : s.memCanonical) :
    (State.dropInside s e).memCanonical := by
  unfold State.dropInside
  repeat' first
    | with_reducible assumption
    | with_reducible apply State.modFabric_wf

theorem State.breakElements_wf (s : State) (es : List Element) (hs : s.memCanonical) :
    (State.breakElements s es).memCanonical := by
  unfold State.breakElements
  repeat' first
    | with_reducible assumption
    | with_reducible apply State.modFabric_wf
    | with_reducible apply State.dropInside_wf
    | with_reducible apply foldl_wf
    | intro _
    | split

theorem State.bringHome_wf (s : State) (k : Nat) (hs : s.memCanonical) :
    (State.bringHome s k).memCanonical := by
  unfold State.bringHome
  repeat' first
    | with_reducible assumption
    | with_reducible apply State.purge_wf
    | with_reducible apply State.sendHome_wf
    | with_reducible apply State.settle_wf
    | with_reducible apply State.gatherTags_wf
    | with_reducible apply foldl_wf
    | intro _

theorem State.charge_wf (s : State) (l : Nat) (n : Nat) (hs : s.memCanonical) :
    (State.charge s l n).memCanonical := by
  unfold State.charge
  repeat' first
    | with_reducible assumption
    | with_reducible apply State.modQueue_wf

theorem State.command_wf (s : State) (d : Option Done) (hs : s.memCanonical) (hd : DoneMem d) : KeepsMem (s.command d) := by
  unfold State.command
  split
  · exact hs
  · split
    · exact hs
    · exact foldl_wf _ (fun u o hu => State.emit_wf _ _ hu) _ _ hd

theorem State.disown_wf (s : State) (k : Nat) (hs : s.memCanonical) :
    (State.disown s k).memCanonical := by
  unfold State.disown
  repeat' first
    | with_reducible assumption
    | with_reducible apply State.purge_wf
    | with_reducible apply State.ownHome_wf
    | with_reducible apply State.dropPart_wf
    | with_reducible apply State.settle_wf
    | with_reducible apply foldl_wf
    | intro _
    | split

theorem State.dropFilters_wf (s : State) (die : Nat) (hs : s.memCanonical) :
    (State.dropFilters s die).memCanonical := by
  unfold State.dropFilters
  repeat' first
    | with_reducible assumption
    | with_reducible apply foldl_wf
    | intro _
    | split
    | (refine State.wf_of_mem _ ?_; dsimp only; refine State.mem_of_wf _ ?_)

theorem State.dropHomed_wf (s : State) (die : Nat) (hs : s.memCanonical) :
    (State.dropHomed s die).memCanonical := by
  unfold State.dropHomed
  repeat' first
    | with_reducible assumption
    | with_reducible apply State.bringHome_wf
    | with_reducible apply foldl_wf

theorem State.poisonLine_wf (s : State) (line : Nat) (hs : s.memCanonical) :
    (State.poisonLine s line).memCanonical := by
  unfold State.poisonLine
  repeat' first
    | with_reducible assumption
    | with_reducible apply foldl_wf
    | intro _
    | split
    | (refine State.wf_of_mem _ ?_; dsimp only; refine State.mem_of_wf _ ?_)

theorem State.rebuildPoison_wf (s : State) (die : Nat) (lines : List Nat) (hs : s.memCanonical) :
    (State.rebuildPoison s die lines).memCanonical := by
  unfold State.rebuildPoison
  repeat' first
    | with_reducible assumption
    | with_reducible apply State.poisonLine_wf
    | with_reducible apply foldl_wf
    | intro _
    | split
    | (refine State.wf_of_mem _ ?_; dsimp only; refine State.mem_of_wf _ ?_)

theorem State.dropTags_wf (s : State) (die : Nat) (hs : s.memCanonical) :
    (State.dropTags s die).memCanonical := by
  unfold State.dropTags
  repeat' first
    | with_reducible assumption
    | with_reducible apply State.rebuildPoison_wf
    | with_reducible apply State.sendOnce_wf
    | with_reducible apply foldl_wf
    | intro _
    | split
    | (refine State.wf_of_mem _ ?_; dsimp only; refine State.mem_of_wf _ ?_)

theorem State.evictSlices_wf (s : State) (gs : List Nat) (hs : s.memCanonical) :
    (State.evictSlices s gs).memCanonical := by
  unfold State.evictSlices
  repeat' first
    | with_reducible assumption
    | with_reducible apply State.evict_wf
    | with_reducible apply foldl_wf
    | intro _

theorem State.emptyDie_wf (s : State) (die : Nat) (hs : s.memCanonical) :
    (State.emptyDie s die).memCanonical := by
  unfold State.emptyDie
  repeat' first
    | with_reducible assumption
    | with_reducible apply State.disown_wf
    | with_reducible apply State.evictSlices_wf
    | with_reducible apply foldl_wf
    | intro _
    | split
    | (refine State.wf_of_mem _ ?_; dsimp only; refine State.mem_of_wf _ ?_)

theorem State.releaseGroup_wf (s : State) (b : Block) (hs : s.memCanonical) :
    (State.releaseGroup s b).memCanonical := by
  unfold State.releaseGroup
  repeat' first
    | with_reducible assumption
    | with_reducible apply foldl_wf
    | intro _
    | split
    | (refine State.wf_of_mem _ ?_; dsimp only; refine State.mem_of_wf _ ?_)

theorem State.endBlock_wf (s : State) (wid : Nat) (b : Nat) (hs : s.memCanonical) :
    (State.endBlock s wid b).memCanonical := by
  unfold State.endBlock
  repeat' first
    | with_reducible assumption
    | with_reducible apply State.modBlock_wf
    | with_reducible apply State.releaseGroup_wf
    | with_reducible apply State.charge_wf
    | with_reducible apply foldl_wf
    | intro _
    | split
    | (refine State.wf_of_mem _ ?_; dsimp only; refine State.mem_of_wf _ ?_)

theorem State.logElement_wf (s : State) (e : Element) (kind : Nat) (detail : Nat) (hs : s.memCanonical) :
    (State.logElement s e kind detail).memCanonical := by
  unfold State.logElement
  repeat' first
    | with_reducible assumption
    | with_reducible apply State.logDry_wf

theorem State.powerDown_wf (s : State) (e : Element) (hs : s.memCanonical) :
    (State.powerDown s e).memCanonical := by
  unfold State.powerDown
  repeat' first
    | with_reducible assumption
    | with_reducible apply State.logElement_wf
    | with_reducible apply State.modFabric_wf

theorem State.endPorts_wf (s : State) (die : Nat) (hs : s.memCanonical) :
    (State.endPorts s die).memCanonical := by
  unfold State.endPorts
  repeat' first
    | with_reducible assumption
    | with_reducible apply State.powerDown_wf
    | with_reducible apply foldl_wf

theorem State.fillActive_wf (s : State) (core p n : Nat) (hs : s.memCanonical) : (s.fillActive core p n).memCanonical := by
  induction n generalizing s with
  | zero => exact hs
  | succ n ih =>
    unfold State.fillActive
    repeat' first
      | with_reducible assumption
      | with_reducible apply ih
      | with_reducible apply State.modWave_wf
      | split
      | dsimp only

theorem State.freshHeaders_wf (s : State) (die : Nat) (hs : s.memCanonical) :
    (State.freshHeaders s die).memCanonical := by
  unfold State.freshHeaders
  repeat' first
    | with_reducible assumption
    | with_reducible apply State.initHeader_wf
    | with_reducible apply foldl_wf
    | intro _
    | split

theorem State.noteIssue_wf (s : State) (wid : Nat) (port : Nat) (hs : s.memCanonical) :
    (State.noteIssue s wid port).memCanonical := by
  unfold State.noteIssue
  repeat' first
    | with_reducible assumption
    | with_reducible apply foldl_wf
    | intro _
    | split
    | (refine State.wf_of_mem _ ?_; dsimp only; refine State.mem_of_wf _ ?_)

theorem execSplitRotation_wf (wave : Nat) (s : State) (hs : s.memCanonical) :
    KeepsMem (execSplitRotation wave s) := by
  unfold execSplitRotation
  repeat' first
    | with_reducible assumption
    | with_reducible apply State.modWave_wf
    | with_reducible apply foldl_wf
    | with_reducible apply next_wf

theorem execWaveExchange_wf (out : Nat) (into : Nat) (s : State) (hs : s.memCanonical) :
    KeepsMem (execWaveExchange out into s) := by
  unfold execWaveExchange
  repeat' first
    | with_reducible assumption
    | with_reducible apply State.modWave_wf
    | with_reducible apply foldl_wf
    | with_reducible apply next_wf
    | with_reducible apply fault_wf
    | with_reducible apply refused_wf
    | intro _
    | split

theorem execWaveEnd_wf (wave : Nat) (s : State) (hs : s.memCanonical) :
    KeepsMem (execWaveEnd wave s) := by
  unfold execWaveEnd
  repeat' first
    | with_reducible assumption
    | with_reducible apply State.endBlock_wf
    | with_reducible apply State.charge_wf
    | with_reducible apply State.fillActive_wf
    | with_reducible apply State.dispatch_wf
    | with_reducible apply foldl_wf
    | with_reducible apply next_wf
    | with_reducible apply fault_wf
    | with_reducible apply refused_wf
    | intro _
    | split
    | (refine State.wf_of_mem _ ?_; dsimp only; refine State.mem_of_wf _ ?_)

theorem execSpawnWaveStart_wf (cluster : Nat) (bin : Nat) (s : State) (hs : s.memCanonical) :
    KeepsMem (execSpawnWaveStart cluster bin s) := by
  unfold execSpawnWaveStart
  repeat' first
    | with_reducible assumption
    | with_reducible apply State.modCluster_wf
    | with_reducible apply State.depWait_wf
    | with_reducible apply State.placeGangs_wf
    | with_reducible apply State.enterFunction_wf
    | with_reducible apply State.modCore_wf
    | with_reducible apply foldl_wf
    | with_reducible apply some_wf
    | exact none_wf
    | with_reducible apply next_wf
    | with_reducible apply fault_wf
    | with_reducible apply refused_wf
    | intro _
    | split
    | (refine of_some ?_ (by with_reducible assumption))
    | (refine State.wf_of_mem _ ?_; dsimp only; refine State.mem_of_wf _ ?_)
    | dsimp only

theorem execTranslationRequest_wf (stack : Nat) (ctx : Nat) (record : Nat) (image : Nat) (s : State) (hs : s.memCanonical) :
    KeepsMem (execTranslationRequest stack ctx record image s) := by
  unfold execTranslationRequest
  repeat' first
    | with_reducible assumption
    | with_reducible apply State.arrive_wf
    | with_reducible apply State.publish_wf
    | with_reducible apply foldl_wf
    | with_reducible apply next_wf
    | with_reducible apply fault_wf
    | with_reducible apply refused_wf
    | intro _
    | split

theorem execHandlerPreemptTimeout_wf (wave : Nat) (s : State) (hs : s.memCanonical) :
    KeepsMem (execHandlerPreemptTimeout wave s) := by
  unfold execHandlerPreemptTimeout
  repeat' first
    | with_reducible assumption
    | with_reducible apply State.modWave_wf
    | with_reducible apply foldl_wf
    | with_reducible apply next_wf
    | with_reducible apply fault_wf
    | with_reducible apply refused_wf
    | intro _
    | split
    | dsimp only

theorem execManagementFrame_wf (source : Nat) (payload : List Byte) (s : State) (hs : s.memCanonical) :
    KeepsMem (execManagementFrame source payload s) := by
  unfold execManagementFrame
  repeat' first
    | with_reducible assumption
    | with_reducible apply State.modNd_wf
    | with_reducible apply State.startFrame_wf
    | with_reducible apply foldl_wf
    | with_reducible apply next_wf
    | with_reducible apply fault_wf
    | with_reducible apply refused_wf
    | intro _
    | split

theorem State.settleRecord_wf (s : State) (pa : Nat) (state : Nat) (hs : s.memCanonical) :
    (State.settleRecord s pa state).memCanonical := by
  unfold State.settleRecord
  repeat' first
    | with_reducible assumption
    | with_reducible apply State.publish_wf

theorem State.writeVa_wf (s : State) (ctx : Nat) (va : Dword) (bs : List Byte) (hs : s.memCanonical) : OptMem (s.writeVa ctx va bs) := by
  unfold State.writeVa
  have h : ∀ (l : List Nat) (o : Option State), OptMem o → OptMem (l.foldl (fun (r : Option State) i =>
      match r with
      | some u =>
        match u.enginePlace ctx (va + BitVec.ofNat 64 (8 * i)) .write with
        | .ok pa => some (u.publish pa ((bs.drop (8 * i)).take 8))
        | .error _ => none
      | none => none) o) := by
    intro l
    induction l with
    | nil => exact fun _ h => h
    | cons a t ih =>
      intro o ho
      refine ih _ ?_
      cases o with
      | none => trivial
      | some u =>
        dsimp only
        split
        · exact State.publish_wf _ _ _ ho
        · trivial
  exact h _ _ hs

theorem State.placeCode_wf (s : State) (ctx : Nat) (record : Nat) (o : CodeObj) (t : Translated) (hs : s.memCanonical) :
    OptMem (State.placeCode s ctx record o t) := by
  unfold State.placeCode
  repeat' first
    | with_reducible assumption
    | with_reducible apply State.writeVa_wf
    | with_reducible apply foldl_wf
    | with_reducible apply some_wf
    | exact none_wf
    | with_reducible apply opt_map_wf
    | with_reducible apply opt_map2_wf
    | intro _
    | split
    | (refine of_some ?_ (by with_reducible assumption))
    | dsimp only

theorem State.setCache_wf (s : State) (pa : Nat) (c : CodeCache) (hs : s.memCanonical) :
    (State.setCache s pa c).memCanonical := by
  unfold State.setCache
  repeat' first
    | with_reducible assumption
    | with_reducible apply foldl_wf
    | intro _
    | split
    | (refine State.wf_of_mem _ ?_; dsimp only; refine State.mem_of_wf _ ?_)

theorem execTranslationJobDone_wf (ctx record : Nat) (result : Option Translated) (s : State) (hs : s.memCanonical) :
    KeepsMem (execTranslationJobDone ctx record result s) := by
  unfold execTranslationJobDone
  split
  · extract_lets st stack f c im
    repeat' first
      | split
      | with_reducible exact next_wf _ hs
      | with_reducible apply next_wf
      | with_reducible apply State.settleRecord_wf
      | with_reducible exact State.setCache_wf _ _ _ (of_some (State.placeCode_wf _ _ _ _ _ hs) (by assumption))
      | with_reducible assumption
  · exact hs

theorem State.retireCore_wf (s : State) (cluster : Nat) (physical : Nat) (hs : s.memCanonical) :
    (State.retireCore s cluster physical).memCanonical := by
  unfold State.retireCore
  repeat' first
    | with_reducible assumption
    | with_reducible apply State.modCluster_wf
    | with_reducible apply State.logDry_wf
    | with_reducible apply foldl_wf
    | intro _
    | split
    | (refine State.wf_of_mem _ ?_; dsimp only; refine State.mem_of_wf _ ?_)

theorem State.retireDue_wf (s : State) (hs : s.memCanonical) :
    (State.retireDue s).memCanonical := by
  unfold State.retireDue
  repeat' first
    | with_reducible assumption
    | with_reducible apply State.retireCore_wf
    | with_reducible apply foldl_wf
    | intro _
    | split
    | (refine State.wf_of_mem _ ?_; dsimp only; refine State.mem_of_wf _ ?_)

theorem execCoreRetire_wf (cluster : Nat) (physical : Nat) (s : State) (hs : s.memCanonical) :
    KeepsMem (execCoreRetire cluster physical s) := by
  unfold execCoreRetire
  repeat' first
    | with_reducible assumption
    | with_reducible apply State.retireDue_wf
    | with_reducible apply State.modCtx_wf
    | with_reducible apply State.preemptNow_wf
    | with_reducible apply foldl_wf
    | with_reducible apply next_wf
    | with_reducible apply fault_wf
    | with_reducible apply refused_wf
    | intro _
    | split
    | (refine State.wf_of_mem _ ?_; dsimp only; refine State.mem_of_wf _ ?_)
    | dsimp only

theorem State.loseWaves_wf (s : State) (die : Nat) (hs : s.memCanonical) :
    (State.loseWaves s die).memCanonical := by
  unfold State.loseWaves
  repeat' first
    | with_reducible assumption
    | with_reducible apply State.dropCarve_wf
    | with_reducible apply State.abandonLaunch_wf
    | with_reducible apply foldl_wf
    | intro _
    | split
    | (refine State.wf_of_mem _ ?_; dsimp only; refine State.mem_of_wf _ ?_)

theorem State.placeAll_wf (s : State) (hs : s.memCanonical) :
    (State.placeAll s).memCanonical := by
  unfold State.placeAll
  repeat' first
    | with_reducible assumption
    | with_reducible apply State.placeGangs_wf
    | with_reducible apply foldl_wf

theorem State.nextReset_wf (s : State) (die : Nat) (hs : s.memCanonical) :
    (State.nextReset s die).memCanonical := by
  unfold State.nextReset
  repeat' first
    | with_reducible assumption
    | with_reducible apply State.beginReset_wf
    | with_reducible apply foldl_wf
    | intro _
    | split
    | (refine State.wf_of_mem _ ?_; dsimp only; refine State.mem_of_wf _ ?_)

theorem State.releaseHeld_wf (s : State) (die : Nat) (hs : s.memCanonical) : (s.releaseHeld die).memCanonical := by
  unfold State.releaseHeld
  refine foldl_wf _ (fun u c hu => ?_) _ _ hs
  split
  · extract_lets v
    have hv : v.memCanonical := State.modCtx_wf _ _ _ hu
    split
    · exact State.resumeAgain_wf _ _ hv
    · exact hv
  · exact hu

theorem State.loseDie_wf (s : State) (die : Nat) (hs : s.memCanonical) :
    (State.loseDie s die).memCanonical := by
  unfold State.loseDie
  repeat' first
    | with_reducible assumption
    | with_reducible apply State.loseWaves_wf
    | with_reducible apply State.logDry_wf
    | with_reducible apply State.dropHomed_wf
    | with_reducible apply State.dropTags_wf
    | with_reducible apply State.ackForDie_wf
    | with_reducible apply State.modCluster_wf
    | with_reducible apply State.evictSlices_wf
    | with_reducible apply State.dropFilters_wf
    | with_reducible apply State.placeAll_wf
    | with_reducible apply State.nextReset_wf
    | with_reducible apply State.releaseHeld_wf
    | with_reducible apply foldl_wf
    | intro _
    | split
    | (refine State.wf_of_mem _ ?_; dsimp only; refine State.mem_of_wf _ ?_)

theorem State.loseStack_wf (s : State) (stack : Nat) (hs : s.memCanonical) :
    (State.loseStack s stack).memCanonical := by
  unfold State.loseStack
  repeat' first
    | with_reducible assumption
    | with_reducible apply State.logDry_wf
    | with_reducible apply State.bringHome_wf
    | with_reducible apply State.loseDie_wf
    | with_reducible apply State.breakElements_wf
    | with_reducible apply State.sendOnce_wf
    | with_reducible apply State.rebuildPoison_wf
    | with_reducible apply foldl_wf
    | intro _
    | split
    | (refine State.wf_of_mem _ ?_; dsimp only; refine State.mem_of_wf _ ?_)

theorem State.loseCutOff_wf (s : State) (e : Element) (hs : s.memCanonical) :
    (State.loseCutOff s e).memCanonical := by
  unfold State.loseCutOff
  repeat' first
    | with_reducible assumption
    | with_reducible apply State.loseStack_wf
    | with_reducible apply foldl_wf
    | intro _
    | split

theorem execElementFailure_wf (element : Element) (s : State) (hs : s.memCanonical) :
    KeepsMem (execElementFailure element s) := by
  unfold execElementFailure
  repeat' first
    | with_reducible assumption
    | with_reducible apply State.logElement_wf
    | with_reducible apply State.breakElements_wf
    | with_reducible apply State.loseCutOff_wf
    | with_reducible apply foldl_wf
    | with_reducible apply next_wf
    | with_reducible apply fault_wf
    | with_reducible apply refused_wf
    | intro _
    | split

theorem State.routeAround_wf (s : State) (e : Element) (hs : s.memCanonical) :
    (State.routeAround s e).memCanonical := by
  unfold State.routeAround
  repeat' first
    | with_reducible assumption
    | with_reducible apply State.logElement_wf
    | with_reducible apply State.modFabric_wf

theorem execRouteRewrite_wf (element : Element) (s : State) (hs : s.memCanonical) :
    KeepsMem (execRouteRewrite element s) := by
  unfold execRouteRewrite
  repeat' first
    | with_reducible assumption
    | with_reducible apply State.loseCutOff_wf
    | with_reducible apply State.routeAround_wf
    | with_reducible apply State.modFabric_wf
    | with_reducible apply foldl_wf
    | with_reducible apply next_wf
    | with_reducible apply fault_wf
    | with_reducible apply refused_wf
    | intro _
    | split

theorem State.startRetire_wf (s : State) (e : Element) (hs : s.memCanonical) :
    (State.startRetire s e).memCanonical := by
  unfold State.startRetire
  repeat' first
    | with_reducible assumption
    | with_reducible apply State.routeAround_wf
    | with_reducible apply State.modFabric_wf

theorem execElementRetire_wf (element : Element) (s : State) (hs : s.memCanonical) :
    KeepsMem (execElementRetire element s) := by
  unfold execElementRetire
  repeat' first
    | with_reducible assumption
    | with_reducible apply State.startRetire_wf
    | with_reducible apply foldl_wf
    | with_reducible apply next_wf
    | with_reducible apply fault_wf
    | with_reducible apply refused_wf
    | intro _
    | split

theorem execRetirePowerDown_wf (element : Element) (s : State) (hs : s.memCanonical) :
    KeepsMem (execRetirePowerDown element s) := by
  unfold execRetirePowerDown
  repeat' first
    | with_reducible assumption
    | with_reducible apply State.powerDown_wf
    | with_reducible apply foldl_wf
    | with_reducible apply next_wf
    | with_reducible apply fault_wf
    | with_reducible apply refused_wf
    | intro _
    | split

theorem State.sendAgain_wf (s : State) (source : Nat) (home : Nat) (hs : s.memCanonical) :
    (State.sendAgain s source home).memCanonical := by
  unfold State.sendAgain
  repeat' first
    | with_reducible assumption
    | with_reducible apply State.modFabric_wf

theorem State.loseWrites_wf (s : State) (core : Nat) (home : Nat) (hs : s.memCanonical) :
    (State.loseWrites s core home).memCanonical := by
  unfold State.loseWrites
  repeat' first
    | with_reducible assumption
    | with_reducible apply State.loseStore_wf
    | with_reducible apply State.dequeue_wf
    | with_reducible apply foldl_wf
    | intro _

theorem State.loseLoads_wf (s : State) (core : Nat) (home : Nat) (hs : s.memCanonical) :
    (State.loseLoads s core home).memCanonical := by
  unfold State.loseLoads
  repeat' first
    | with_reducible assumption
    | with_reducible apply State.modWave_wf
    | with_reducible apply State.deliver_wf
    | with_reducible apply foldl_wf
    | intro _
    | split
    | (refine State.wf_of_mem _ ?_; dsimp only; refine State.mem_of_wf _ ?_)

theorem execRetransmitTimeout_wf (source : Nat) (home : Nat) (s : State) (hs : s.memCanonical) :
    KeepsMem (execRetransmitTimeout source home s) := by
  unfold execRetransmitTimeout
  repeat' first
    | with_reducible assumption
    | with_reducible apply State.modFabric_wf
    | with_reducible apply State.sendAgain_wf
    | with_reducible apply State.logDry_wf
    | with_reducible apply State.loseWrites_wf
    | with_reducible apply State.loseLoads_wf
    | with_reducible apply foldl_wf
    | with_reducible apply next_wf
    | with_reducible apply fault_wf
    | with_reducible apply refused_wf
    | intro _
    | split
    | dsimp only

theorem State.performQueued_wf (s : State) (core : Nat) (id : Nat) (e : WqEntry) (hs : s.memCanonical) :
    (State.performQueued s core id e).memCanonical := by
  unfold State.performQueued
  repeat' first
    | with_reducible assumption
    | with_reducible apply State.perform_wf
    | with_reducible apply State.dequeue_wf
    | with_reducible apply State.publish_wf
    | with_reducible apply foldl_wf
    | intro _
    | split
    | (refine State.wf_of_mem _ ?_; dsimp only; refine State.mem_of_wf _ ?_)

theorem State.performWrite_wf (s : State) (source : Nat) (pa : Nat) (bs : List Byte) (hs : s.memCanonical) :
    (State.performWrite s source pa bs).memCanonical := by
  unfold State.performWrite
  repeat' first
    | with_reducible assumption
    | with_reducible apply State.performQueued_wf
    | with_reducible apply State.publish_wf
    | with_reducible apply foldl_wf
    | intro _
    | split

theorem State.performRequest_wf (s : State) (source : Nat) (r : FabRequest) (hs : s.memCanonical) :
    PairMem (State.performRequest s source r) := by
  unfold State.performRequest
  repeat' first
    | with_reducible assumption
    | with_reducible apply State.performWrite_wf
    | with_reducible apply State.publish_wf
    | with_reducible apply foldl_wf
    | with_reducible apply pair_wf
    | intro _
    | split

theorem State.setFilter_wf (s : State) (source : Nat) (home : Nat) (x : ReplayFilter) (hs : s.memCanonical) :
    (State.setFilter s source home x).memCanonical := by
  unfold State.setFilter
  repeat' first
    | with_reducible assumption
    | with_reducible apply State.modFabric_wf

theorem State.performExpected_wf (s : State) (source : Nat) (home : Nat) (r : FabRequest) (hs : s.memCanonical) :
    (State.performExpected s source home r).memCanonical := by
  unfold State.performExpected
  repeat' first
    | with_reducible assumption
    | with_reducible apply State.performRequest_wf
    | with_reducible apply State.emit_wf
    | with_reducible apply State.setFilter_wf
    | with_reducible apply foldl_wf
    | with_reducible apply of_fst

theorem State.performBuffered_wf (s : State) (source home n : Nat) (hs : s.memCanonical) : (s.performBuffered source home n).memCanonical := by
  induction n generalizing s with
  | zero => exact hs
  | succ n ih =>
    unfold State.performBuffered
    split
    · exact ih _ (State.performExpected_wf _ _ _ _ hs)
    · exact hs

theorem execReplayFilterArrival_wf (source : Nat) (home : Nat) (seq : BitVec 16) (request : FabRequest) (s : State) (hs : s.memCanonical) :
    KeepsMem (execReplayFilterArrival source home seq request s) := by
  unfold execReplayFilterArrival
  repeat' first
    | with_reducible assumption
    | with_reducible apply State.performBuffered_wf
    | with_reducible apply State.performExpected_wf
    | with_reducible apply State.setFilter_wf
    | with_reducible apply State.emit_wf
    | with_reducible apply foldl_wf
    | with_reducible apply next_wf
    | with_reducible apply fault_wf
    | with_reducible apply refused_wf
    | intro _
    | split
    | dsimp only

theorem State.remote_wf (s : State) (qp : Nat) (rkey : Nat) (bit : Nat) (va : Dword) (n : Nat) (a : Access) (f : State → Parts → State) (hs : s.memCanonical) (hf : ∀ (y0 : State) (y1 : Parts), y0.memCanonical → (f y0 y1).memCanonical) :
    KeepsMem (State.remote s qp rkey bit va n a f) := by
  unfold State.remote
  repeat' first
    | with_reducible assumption
    | with_reducible apply hf
    | with_reducible apply State.emit_wf
    | with_reducible apply foldl_wf
    | with_reducible apply next_wf
    | with_reducible apply fault_wf
    | with_reducible apply refused_wf
    | intro _
    | split

theorem execRdmaWrite_wf (qp : Nat) (rkey : Nat) (va : Dword) (bytes : List Byte) (s : State) (hs : s.memCanonical) :
    KeepsMem (execRdmaWrite qp rkey va bytes s) := by
  unfold execRdmaWrite
  repeat' first
    | with_reducible assumption
    | with_reducible apply State.remote_wf
    | with_reducible apply State.emit_wf
    | with_reducible apply State.publish_wf
    | with_reducible apply foldl_wf
    | with_reducible apply next_wf
    | with_reducible apply fault_wf
    | with_reducible apply refused_wf
    | intro _
    | split

theorem State.showLine_wf (s : State) (line : Nat) (hs : s.memCanonical) :
    (State.showLine s line).memCanonical := by
  unfold State.showLine
  repeat' first
    | with_reducible assumption
    | with_reducible apply State.publishLine_wf
    | with_reducible apply foldl_wf
    | intro _
    | split

theorem execRdmaRead_wf (qp : Nat) (rkey : Nat) (va : Dword) (length : Nat) (s : State) (hs : s.memCanonical) :
    KeepsMem (execRdmaRead qp rkey va length s) := by
  unfold execRdmaRead
  repeat' first
    | with_reducible assumption
    | with_reducible apply State.remote_wf
    | with_reducible apply State.emit_wf
    | with_reducible apply State.showLine_wf
    | with_reducible apply foldl_wf
    | with_reducible apply next_wf
    | with_reducible apply fault_wf
    | with_reducible apply refused_wf
    | intro _

theorem State.remoteAtomic_wf (s : State) (qp : Nat) (rkey : Nat) (va : Dword) (f : Nat → Option Nat) (hs : s.memCanonical) :
    KeepsMem (State.remoteAtomic s qp rkey va f) := by
  unfold State.remoteAtomic
  repeat' first
    | with_reducible assumption
    | with_reducible apply State.remote_wf
    | with_reducible apply State.publish_wf
    | with_reducible apply State.showLine_wf
    | with_reducible apply State.emit_wf
    | with_reducible apply foldl_wf
    | with_reducible apply next_wf
    | with_reducible apply fault_wf
    | with_reducible apply refused_wf
    | intro _
    | split

theorem execAtomicCompareSwap_wf (qp : Nat) (rkey : Nat) (va : Dword) (compare : Dword) (swap : Dword) (s : State) (hs : s.memCanonical) :
    KeepsMem (execAtomicCompareSwap qp rkey va compare swap s) := by
  unfold execAtomicCompareSwap
  repeat' first
    | with_reducible assumption
    | with_reducible apply State.remoteAtomic_wf

theorem execAtomicFetchAdd_wf (qp : Nat) (rkey : Nat) (va : Dword) (add : Dword) (s : State) (hs : s.memCanonical) :
    KeepsMem (execAtomicFetchAdd qp rkey va add s) := by
  unfold execAtomicFetchAdd
  repeat' first
    | with_reducible assumption
    | with_reducible apply State.remoteAtomic_wf

theorem execRoceUnsupportedRequest_wf (qp : Nat) (s : State) (hs : s.memCanonical) :
    KeepsMem (execRoceUnsupportedRequest qp s) := by
  unfold execRoceUnsupportedRequest
  repeat' first
    | with_reducible assumption
    | with_reducible apply State.emit_wf
    | with_reducible apply foldl_wf
    | with_reducible apply next_wf
    | with_reducible apply fault_wf
    | with_reducible apply refused_wf
    | intro _
    | split

theorem execNeighbourResolution_wf (query : List Byte) (s : State) (hs : s.memCanonical) :
    KeepsMem (execNeighbourResolution query s) := by
  unfold execNeighbourResolution
  repeat' first
    | with_reducible assumption
    | with_reducible apply State.emit_wf
    | with_reducible apply foldl_wf
    | with_reducible apply next_wf
    | with_reducible apply fault_wf
    | with_reducible apply refused_wf
    | intro _
    | split

theorem execEthernetFrameDrop_wf (x1 : List Byte) (s : State) (hs : s.memCanonical) :
    KeepsMem (execEthernetFrameDrop x1 s) := by
  unfold execEthernetFrameDrop
  repeat' first
    | with_reducible assumption
    | with_reducible apply foldl_wf
    | with_reducible apply next_wf

theorem State.poisonDram_wf (s : State) (line : Nat) (hs : s.memCanonical) :
    (State.poisonDram s line).memCanonical := by
  unfold State.poisonDram
  repeat' first
    | with_reducible assumption
    | with_reducible apply State.settleDram_wf
    | with_reducible apply foldl_wf
    | intro _
    | split
    | (refine State.wf_of_mem _ ?_; dsimp only; refine State.mem_of_wf _ ?_)

theorem execDramScrub_wf (die : Nat) (corrected : List Nat) (uncorrectable : List Nat) (s : State) (hs : s.memCanonical) :
    KeepsMem (execDramScrub die corrected uncorrectable s) := by
  unfold execDramScrub
  repeat' first
    | with_reducible assumption
    | with_reducible apply State.logDry_wf
    | with_reducible apply State.poisonDram_wf
    | with_reducible apply foldl_wf
    | with_reducible apply next_wf
    | with_reducible apply fault_wf
    | with_reducible apply refused_wf
    | intro _
    | split

theorem execSmcHeartbeat_wf (stack : Nat) (answered : List Nat) (s : State) (hs : s.memCanonical) :
    KeepsMem (execSmcHeartbeat stack answered s) := by
  unfold execSmcHeartbeat
  repeat' first
    | with_reducible assumption
    | with_reducible apply State.loseDie_wf
    | with_reducible apply foldl_wf
    | with_reducible apply next_wf
    | with_reducible apply fault_wf
    | with_reducible apply refused_wf
    | intro _
    | split
    | (refine State.wf_of_mem _ ?_; dsimp only; refine State.mem_of_wf _ ?_)

theorem execDieLost_wf (die : Nat) (s : State) (hs : s.memCanonical) :
    KeepsMem (execDieLost die s) := by
  unfold execDieLost
  repeat' first
    | with_reducible assumption
    | with_reducible apply State.loseDie_wf
    | with_reducible apply State.loseStack_wf
    | with_reducible apply foldl_wf
    | with_reducible apply next_wf
    | with_reducible apply fault_wf
    | with_reducible apply refused_wf
    | intro _
    | split

theorem execRebuildDone_wf (die : Nat) (s : State) (hs : s.memCanonical) :
    KeepsMem (execRebuildDone die s) := by
  unfold execRebuildDone
  repeat' first
    | with_reducible assumption
    | with_reducible apply State.emit_wf
    | with_reducible apply State.logDry_wf
    | with_reducible apply foldl_wf
    | with_reducible apply next_wf
    | with_reducible apply fault_wf
    | with_reducible apply refused_wf
    | intro _
    | split
    | (refine State.wf_of_mem _ ?_; dsimp only; refine State.mem_of_wf _ ?_)

theorem execThermalLimit_wf (die : Nat) (celsius : Nat) (s : State) (hs : s.memCanonical) :
    KeepsMem (execThermalLimit die celsius s) := by
  unfold execThermalLimit
  repeat' first
    | with_reducible assumption
    | with_reducible apply State.loseDie_wf
    | with_reducible apply State.setStep_wf
    | with_reducible apply foldl_wf
    | with_reducible apply next_wf
    | with_reducible apply fault_wf
    | with_reducible apply refused_wf
    | intro _
    | split
    | (refine State.wf_of_mem _ ?_; dsimp only; refine State.mem_of_wf _ ?_)

theorem execThermalRecover_wf (die : Nat) (celsius : Nat) (s : State) (hs : s.memCanonical) :
    KeepsMem (execThermalRecover die celsius s) := by
  unfold execThermalRecover
  repeat' first
    | with_reducible assumption
    | with_reducible apply State.setStep_wf
    | with_reducible apply foldl_wf
    | with_reducible apply next_wf
    | with_reducible apply fault_wf
    | with_reducible apply refused_wf
    | intro _
    | split
    | (refine State.wf_of_mem _ ?_; dsimp only; refine State.mem_of_wf _ ?_)

theorem execPowerSample_wf (readings : PowerReadings) (s : State) (hs : s.memCanonical) :
    KeepsMem (execPowerSample readings s) := by
  unfold execPowerSample
  repeat' first
    | with_reducible assumption
    | with_reducible apply State.setStep_wf
    | with_reducible apply foldl_wf
    | with_reducible apply next_wf
    | with_reducible apply fault_wf
    | with_reducible apply refused_wf
    | intro _
    | split
    | (refine State.wf_of_mem _ ?_; dsimp only; refine State.mem_of_wf _ ?_)
    | dsimp only

theorem execPowerOn_wf (s : State) (hs : s.memCanonical) :
    KeepsMem (execPowerOn s) := by
  unfold execPowerOn
  repeat' first
    | with_reducible assumption
    | with_reducible apply State.boot_wf
    | with_reducible apply foldl_wf
    | with_reducible apply next_wf
    | with_reducible apply fault_wf
    | with_reducible apply refused_wf
    | intro _
    | split

theorem State.unpowered_wf (s : State) : s.unpowered.memCanonical := rfl

theorem execPackageReset_wf (s : State) (hs : s.memCanonical) :
    KeepsMem (execPackageReset s) := by
  unfold execPackageReset
  repeat' first
    | with_reducible assumption
    | with_reducible apply State.boot_wf
    | with_reducible apply State.unpowered_wf
    | with_reducible apply foldl_wf
    | with_reducible apply next_wf
    | with_reducible apply fault_wf
    | with_reducible apply refused_wf
    | intro _
    | split
    | (refine State.wf_of_mem _ ?_; dsimp only; refine State.mem_of_wf _ ?_)

theorem execMgmtCreateContext_wf (ctx : Nat) (clusters : List Nat) (ptroot : Nat) (saveBase : Nat) (saveSize : Nat) (launchKey : BitVec 256) (codeKey : BitVec 256) (s : State) (hs : s.memCanonical) :
    KeepsMem (execMgmtCreateContext ctx clusters ptroot saveBase saveSize launchKey codeKey s) := by
  unfold execMgmtCreateContext
  repeat' first
    | with_reducible assumption
    | with_reducible apply State.command_wf
    | with_reducible apply State.createContext_wf

theorem execMgmtDestroyContext_wf (ctx : Nat) (s : State) (hs : s.memCanonical) :
    KeepsMem (execMgmtDestroyContext ctx s) := by
  unfold execMgmtDestroyContext
  repeat' first
    | with_reducible assumption
    | with_reducible apply State.command_wf
    | with_reducible apply State.destroyContext_wf

theorem execMgmtPreempt_wf (ctx : Nat) (s : State) (hs : s.memCanonical) :
    KeepsMem (execMgmtPreempt ctx s) := by
  unfold execMgmtPreempt
  repeat' first
    | with_reducible assumption
    | with_reducible apply State.command_wf
    | with_reducible apply State.preemptContext_wf

theorem execMgmtResume_wf (ctx : Nat) (clusters : List Nat) (s : State) (hs : s.memCanonical) :
    KeepsMem (execMgmtResume ctx clusters s) := by
  unfold execMgmtResume
  repeat' first
    | with_reducible assumption
    | with_reducible apply State.command_wf
    | with_reducible apply State.resumeContext_wf

theorem execMgmtSetKeys_wf (ctx : Nat) (launchKey : BitVec 256) (codeKey : BitVec 256) (s : State) (hs : s.memCanonical) :
    KeepsMem (execMgmtSetKeys ctx launchKey codeKey s) := by
  unfold execMgmtSetKeys
  repeat' first
    | with_reducible assumption
    | with_reducible apply State.command_wf
    | with_reducible apply State.setKeys_wf

theorem execMgmtFeatureMask_wf (ctx : Nat) (mask : Byte) (s : State) (hs : s.memCanonical) :
    KeepsMem (execMgmtFeatureMask ctx mask s) := by
  unfold execMgmtFeatureMask
  repeat' first
    | with_reducible assumption
    | with_reducible apply State.command_wf
    | with_reducible apply State.setMask_wf

theorem execMgmtQueueQuanta_wf (ctx : Nat) (queue : Nat) (quantum : Nat) (s : State) (hs : s.memCanonical) :
    KeepsMem (execMgmtQueueQuanta ctx queue quantum s) := by
  unfold execMgmtQueueQuanta
  repeat' first
    | with_reducible assumption
    | with_reducible apply State.command_wf
    | with_reducible apply State.setQuantum_wf

theorem execMgmtMemoryRegion_wf (index : Nat) (entry : BitVec 192) (s : State) (hs : s.memCanonical) :
    KeepsMem (execMgmtMemoryRegion index entry s) := by
  unfold execMgmtMemoryRegion
  repeat' first
    | with_reducible assumption
    | with_reducible apply State.command_wf
    | with_reducible apply State.setRegion_wf

theorem execMgmtUnregisterCodeObject_wf (ctx : Nat) (object : Nat) (s : State) (hs : s.memCanonical) :
    KeepsMem (execMgmtUnregisterCodeObject ctx object s) := by
  unfold execMgmtUnregisterCodeObject
  repeat' first
    | with_reducible assumption
    | with_reducible apply State.command_wf
    | with_reducible apply State.unregister_wf

theorem execMgmtPowerCap_wf (watts : Nat) (s : State) (hs : s.memCanonical) :
    KeepsMem (execMgmtPowerCap watts s) := by
  unfold execMgmtPowerCap
  repeat' first
    | with_reducible assumption
    | with_reducible apply State.command_wf
    | with_reducible apply State.setCap_wf

theorem execMgmtWarmReset_wf (die : Nat) (s : State) (hs : s.memCanonical) :
    KeepsMem (execMgmtWarmReset die s) := by
  unfold execMgmtWarmReset
  repeat' first
    | with_reducible assumption
    | with_reducible apply State.command_wf
    | with_reducible apply State.warmReset_wf

theorem execMgmtReadDrydown_wf (unit : Nat) (first : Nat) (count : Nat) (reply : ReplyTo) (s : State) (hs : s.memCanonical) :
    KeepsMem (execMgmtReadDrydown unit first count reply s) := by
  unfold execMgmtReadDrydown
  repeat' first
    | with_reducible assumption
    | with_reducible apply State.command_wf
    | with_reducible apply State.readDrydown_wf

theorem execMgmtAttest_wf (nonce : BitVec 256) (reply : ReplyTo) (s : State) (hs : s.memCanonical) :
    KeepsMem (execMgmtAttest nonce reply s) := by
  unfold execMgmtAttest
  repeat' first
    | with_reducible assumption
    | with_reducible apply State.attest_wf
    | with_reducible apply State.emit_wf
    | with_reducible apply State.command_wf
    | with_reducible apply foldl_wf
    | with_reducible apply next_wf
    | with_reducible apply fault_wf
    | with_reducible apply refused_wf
    | intro _
    | split

theorem execMgmtRaiseSvn_wf (svn : Nat) (s : State) (hs : s.memCanonical) :
    KeepsMem (execMgmtRaiseSvn svn s) := by
  unfold execMgmtRaiseSvn
  repeat' first
    | with_reducible assumption
    | with_reducible apply State.command_wf
    | with_reducible apply State.raiseSvn_wf

theorem execMgmtWriteSillage_wf (ctx : Nat) (value : Dword) (s : State) (hs : s.memCanonical) :
    KeepsMem (execMgmtWriteSillage ctx value s) := by
  unfold execMgmtWriteSillage
  repeat' first
    | with_reducible assumption
    | with_reducible apply State.command_wf
    | with_reducible apply State.writeContextReg_wf

theorem execMgmtWriteTrapvec_wf (ctx : Nat) (value : Dword) (s : State) (hs : s.memCanonical) :
    KeepsMem (execMgmtWriteTrapvec ctx value s) := by
  unfold execMgmtWriteTrapvec
  repeat' first
    | with_reducible assumption
    | with_reducible apply State.command_wf
    | with_reducible apply State.writeContextReg_wf

theorem execMgmtWriteSpawntmr_wf (ctx : Nat) (value : Dword) (s : State) (hs : s.memCanonical) :
    KeepsMem (execMgmtWriteSpawntmr ctx value s) := by
  unfold execMgmtWriteSpawntmr
  repeat' first
    | with_reducible assumption
    | with_reducible apply State.command_wf
    | with_reducible apply State.writeContextReg_wf

theorem execMgmtWriteCtxmode_wf (ctx : Nat) (value : Dword) (s : State) (hs : s.memCanonical) :
    KeepsMem (execMgmtWriteCtxmode ctx value s) := by
  unfold execMgmtWriteCtxmode
  repeat' first
    | with_reducible assumption
    | with_reducible apply State.command_wf
    | with_reducible apply State.writeContextReg_wf

theorem execMgmtWriteCring_wf (ctx : Nat) (value : Dword) (s : State) (hs : s.memCanonical) :
    KeepsMem (execMgmtWriteCring ctx value s) := by
  unfold execMgmtWriteCring
  repeat' first
    | with_reducible assumption
    | with_reducible apply State.command_wf
    | with_reducible apply State.writeContextReg_wf

theorem execMgmtBindNoticeQp_wf (ctx : Nat) (qp : Nat) (s : State) (hs : s.memCanonical) :
    KeepsMem (execMgmtBindNoticeQp ctx qp s) := by
  unfold execMgmtBindNoticeQp
  repeat' first
    | with_reducible assumption
    | with_reducible apply State.command_wf
    | with_reducible apply State.bindQp_wf

theorem execDieWarmReset_wf (die : Nat) (s : State) (hs : s.memCanonical) : KeepsMem (execDieWarmReset die s) :=
  getD_wf (State.askReset_wf _ _ hs) hs

theorem State.retirePorts_wf (s : State) (die : Nat) (hs : s.memCanonical) :
    (State.retirePorts s die).memCanonical := by
  unfold State.retirePorts
  repeat' first
    | with_reducible assumption
    | with_reducible apply State.startRetire_wf
    | with_reducible apply foldl_wf

theorem State.resetLogic_wf (s : State) (die : Nat) (hs : s.memCanonical) :
    (State.resetLogic s die).memCanonical := by
  unfold State.resetLogic
  repeat' first
    | with_reducible assumption
    | with_reducible apply State.modCluster_wf
    | with_reducible apply State.setStep_wf
    | with_reducible apply foldl_wf
    | intro _
    | split
    | (refine State.wf_of_mem _ ?_; dsimp only; refine State.mem_of_wf _ ?_)

theorem State.readmit_wf (s : State) (die : Nat) (hs : s.memCanonical) :
    (State.readmit s die).memCanonical := by
  unfold State.readmit
  repeat' first
    | with_reducible assumption
    | with_reducible apply State.nextReset_wf
    | with_reducible apply State.releaseHeld_wf
    | with_reducible apply State.freshHeaders_wf
    | with_reducible apply foldl_wf
    | intro _
    | split
    | (refine State.wf_of_mem _ ?_; dsimp only; refine State.mem_of_wf _ ?_)

theorem State.resetStep_wf (s : State) (die : Nat) (x3 : Nat) (hs : s.memCanonical) :
    (State.resetStep s die x3).memCanonical := by
  unfold State.resetStep
  repeat' first
    | with_reducible assumption
    | with_reducible apply State.endPorts_wf
    | with_reducible apply State.emptyDie_wf
    | with_reducible apply State.resetLogic_wf
    | with_reducible apply State.readmit_wf
    | with_reducible apply foldl_wf
    | intro _
    | split
    | (refine State.wf_of_mem _ ?_; dsimp only; refine State.mem_of_wf _ ?_)

theorem execWarmResetStepDone_wf (die : Nat) (s : State) (hs : s.memCanonical) :
    KeepsMem (execWarmResetStepDone die s) := by
  unfold execWarmResetStepDone
  repeat' first
    | with_reducible assumption
    | with_reducible apply State.retirePorts_wf
    | with_reducible apply State.logDry_wf
    | with_reducible apply State.resetStep_wf
    | with_reducible apply foldl_wf
    | with_reducible apply next_wf
    | with_reducible apply fault_wf
    | with_reducible apply refused_wf
    | intro _
    | split
    | (refine State.wf_of_mem _ ?_; dsimp only; refine State.mem_of_wf _ ?_)

theorem execPowerRemoval_wf (s : State) (hs : s.memCanonical) :
    KeepsMem (execPowerRemoval s) := by
  unfold execPowerRemoval
  repeat' first
    | with_reducible assumption
    | with_reducible apply State.unpowered_wf
    | with_reducible apply foldl_wf
    | with_reducible apply next_wf

theorem execRoceAcknowledgement_wf (qp : Nat) (ok : Bool) (s : State) (hs : s.memCanonical) :
    KeepsMem (execRoceAcknowledgement qp ok s) := by
  unfold execRoceAcknowledgement
  repeat' first
    | with_reducible assumption
    | with_reducible apply foldl_wf
    | with_reducible apply next_wf
    | with_reducible apply fault_wf
    | with_reducible apply refused_wf
    | intro _
    | split
    | (refine State.wf_of_mem _ ?_; dsimp only; refine State.mem_of_wf _ ?_)

theorem execPriorityFlowControl_wf (priority : Nat) (pause : Bool) (s : State) (hs : s.memCanonical) :
    KeepsMem (execPriorityFlowControl priority pause s) := by
  unfold execPriorityFlowControl
  repeat' first
    | with_reducible assumption
    | with_reducible apply foldl_wf
    | with_reducible apply next_wf
    | with_reducible apply fault_wf
    | with_reducible apply refused_wf
    | intro _
    | split
    | (refine State.wf_of_mem _ ?_; dsimp only; refine State.mem_of_wf _ ?_)

theorem State.logPoison_wf (s : State) (record : Nat) (store : Nat) (unit : Nat) (n : Nat) (addr : Nat) (hs : s.memCanonical) :
    (State.logPoison s record store unit n addr).memCanonical := by
  unfold State.logPoison
  repeat' first
    | with_reducible assumption
    | with_reducible apply State.logDry_wf

theorem State.pressSave_wf (s : State) (ctx : Nat) (hs : s.memCanonical) :
    (State.pressSave s ctx).memCanonical := by
  unfold State.pressSave
  repeat' first
    | with_reducible assumption
    | with_reducible apply State.startFence_wf
    | with_reducible apply State.returnEntry_wf
    | with_reducible apply foldl_wf
    | intro _
    | split
    | (refine State.wf_of_mem _ ?_; dsimp only; refine State.mem_of_wf _ ?_)

theorem State.runUpkeep_wf (s : State) (x2 : Upkeep) (hs : s.memCanonical) :
    KeepsMem (State.runUpkeep s x2) := by
  unfold State.runUpkeep
  repeat' first
    | with_reducible assumption
    | with_reducible apply execRouteRewrite_wf
    | with_reducible apply execRetirePowerDown_wf
    | with_reducible apply execWarmResetStepDone_wf
    | with_reducible apply execRebuildDone_wf
    | with_reducible apply execRetransmitTimeout_wf
    | with_reducible apply State.modFabric_wf
    | with_reducible apply foldl_wf
    | with_reducible apply next_wf
    | with_reducible apply fault_wf
    | with_reducible apply refused_wf
    | intro _
    | split

theorem State.vacate_wf (s : State) (g : Nat) (hs : s.memCanonical) :
    (State.vacate s g).memCanonical := by
  unfold State.vacate
  repeat' first
    | with_reducible assumption
    | with_reducible apply State.modCore_wf
    | with_reducible apply State.modCluster_wf
    | with_reducible apply foldl_wf
    | intro _

theorem State.stopElapsed_wf (s : State) (ctx : Nat) (hs : s.memCanonical) :
    (State.stopElapsed s ctx).memCanonical := by
  unfold State.stopElapsed
  repeat' first
    | with_reducible assumption
    | with_reducible apply State.modCtx_wf

theorem State.saveContext_wf (s0 : State) (ctx : Nat) (hs0 : s0.memCanonical) :
    (State.saveContext s0 ctx).memCanonical := by
  unfold State.saveContext
  repeat' first
    | with_reducible assumption
    | with_reducible apply State.finishEntry_wf
    | with_reducible apply State.vacate_wf
    | with_reducible apply State.stopElapsed_wf
    | with_reducible apply State.evictSlices_wf
    | with_reducible apply State.writeHeader_wf
    | with_reducible apply State.modCtx_wf
    | with_reducible apply State.removeContext_wf
    | with_reducible apply foldl_wf
    | intro _
    | split
    | (refine State.wf_of_mem _ ?_; dsimp only; refine State.mem_of_wf _ ?_)

theorem State.saveTurn_wf (s : State) (ctx : Nat) (hs : s.memCanonical) :
    (State.saveTurn s ctx).memCanonical := by
  unfold State.saveTurn
  repeat' first
    | with_reducible assumption
    | with_reducible apply State.endRestore_wf
    | with_reducible apply State.afterRetire_wf
    | with_reducible apply State.retireDue_wf
    | with_reducible apply State.saveContext_wf
    | with_reducible apply State.pressSave_wf
    | with_reducible apply foldl_wf
    | intro _
    | split

theorem State.strikeBlock_wf (s : State) (b : Nat) (a : Nat) (bound : Block → Nat) (f : Block → Block) (hs : s.memCanonical) :
    (State.strikeBlock s b a bound f).memCanonical := by
  unfold State.strikeBlock
  repeat' first
    | with_reducible assumption
    | with_reducible apply State.logPoison_wf
    | with_reducible apply State.modBlock_wf
    | with_reducible apply foldl_wf
    | intro _
    | split

theorem State.strikeStack_wf (s : State) (ctx : Nat) (stack : Nat) (a : Nat) (hs : s.memCanonical) :
    (State.strikeStack s ctx stack a).memCanonical := by
  unfold State.strikeStack
  repeat' first
    | with_reducible assumption
    | with_reducible apply State.logPoison_wf
    | with_reducible apply State.modCtx_wf
    | with_reducible apply foldl_wf
    | intro _
    | split

theorem State.strikeOwned_wf (s : State) (pa : Nat) (hs : s.memCanonical) :
    (State.strikeOwned s pa).memCanonical := by
  unfold State.strikeOwned
  repeat' first
    | with_reducible assumption
    | with_reducible apply State.logPoison_wf
    | with_reducible apply foldl_wf
    | intro _
    | split
    | (refine State.wf_of_mem _ ?_; dsimp only; refine State.mem_of_wf _ ?_)

theorem State.strikeDirectory_wf (s : State) (line : Nat) (level : Nat) (unit : Nat) (hs : s.memCanonical) :
    (State.strikeDirectory s line level unit).memCanonical := by
  unfold State.strikeDirectory
  repeat' first
    | with_reducible assumption
    | with_reducible apply State.dropL1_wf
    | with_reducible apply State.dropUnit_wf
    | with_reducible apply foldl_wf
    | intro _
    | split

theorem State.strikeHolders_wf (s : State) (line : Nat) (hs : s.memCanonical) :
    (State.strikeHolders s line).memCanonical := by
  unfold State.strikeHolders
  repeat' first
    | with_reducible assumption
    | with_reducible apply State.dropL1_wf
    | with_reducible apply State.strikeDirectory_wf
    | with_reducible apply foldl_wf
    | intro _

theorem State.strikeObject_wf (s : State) (stack : Nat) (n : Nat) (hs : s.memCanonical) :
    (State.strikeObject s stack n).memCanonical := by
  unfold State.strikeObject
  repeat' first
    | with_reducible assumption
    | with_reducible apply State.strikeHolders_wf
    | with_reducible apply foldl_wf
    | intro _
    | split
    | (refine State.wf_of_mem _ ?_; dsimp only; refine State.mem_of_wf _ ?_)

theorem State.strikeEntry_wf (s : State) (router : Nat) (region : Nat) (hs : s.memCanonical) :
    (State.strikeEntry s router region).memCanonical := by
  unfold State.strikeEntry
  repeat' first
    | with_reducible assumption
    | with_reducible apply State.modFabric_wf
    | with_reducible apply foldl_wf
    | intro _
    | split

theorem State.strikeAllowance_wf (s : State) (g : Nat) (r : Nat) (hs : s.memCanonical) :
    (State.strikeAllowance s g r).memCanonical := by
  unfold State.strikeAllowance
  repeat' first
    | with_reducible assumption
    | with_reducible apply State.setImage_wf
    | with_reducible apply State.setAllowance_wf
    | with_reducible apply State.runHome_wf
    | with_reducible apply State.modCounter_wf
    | with_reducible apply foldl_wf
    | intro _
    | split
    | (refine State.wf_of_mem _ ?_; dsimp only; refine State.mem_of_wf _ ?_)

theorem State.strike_wf (s : State) (x2 : SoftError) (hs : s.memCanonical) :
    (State.strike s x2).memCanonical := by
  unfold State.strike
  repeat' first
    | with_reducible assumption
    | with_reducible apply State.logDry_wf
    | with_reducible apply State.modWave_wf
    | with_reducible apply State.strikeBlock_wf
    | with_reducible apply State.strikeStack_wf
    | with_reducible apply State.dropL1_wf
    | with_reducible apply State.modCore_wf
    | with_reducible apply State.dropPart_wf
    | with_reducible apply State.strikeOwned_wf
    | with_reducible apply State.modBlock_wf
    | with_reducible apply State.loseStore_wf
    | with_reducible apply State.dequeue_wf
    | with_reducible apply State.strikeDirectory_wf
    | with_reducible apply State.strikeHolders_wf
    | with_reducible apply State.strikeObject_wf
    | with_reducible apply State.strikeEntry_wf
    | with_reducible apply State.strikeAllowance_wf
    | with_reducible apply State.decantBreak_wf
    | with_reducible apply State.poisonDram_wf
    | with_reducible apply State.logPoison_wf
    | with_reducible apply foldl_wf
    | intro _
    | split

end Sys2Proof.Machine
end

