-- ==== Sys2Proof/Laws/Traps.lean ====
section
/-! SUPPORT. Records as bytes, and the trap frame: its length and how a field of it is read back. -/

namespace Sys2Proof.Machine

@[simp] theorem leBytes_length (n v : Nat) : (leBytes n v).length = n := by
  induction n generalizing v <;> simp_all [leBytes]

theorem leNat_leBytes (n v : Nat) : leNat (leBytes n v) = v % 256 ^ n := by
  induction n generalizing v with
  | zero => simp [leBytes, leNat, Nat.mod_one]
  | succ n ih =>
    simp only [leBytes, leNat, ih]
    rw [show 256 ^ (n + 1) = 256 * 256 ^ n by rw [Nat.pow_succ, Nat.mul_comm], Nat.mod_mul]
    simp

/-- A byte of a table made of bytes. -/
theorem memByte_tblOfBytes (bs : List Byte) (a : Nat) (h : a < bs.length) : memByte (tblOfBytes bs) a = bs.getD a 0 := by
  rw [tblOfBytes, memByte_memPut, if_pos ⟨by omega, by omega⟩, Nat.sub_zero]

/-- A number read from a table made of bytes. -/
theorem memNat_tblOfBytes (bs : List Byte) (a n : Nat) (h : a + n ≤ bs.length) :
    memNat (tblOfBytes bs) a n = leNat ((bs.drop a).take n) := by
  induction n generalizing a with
  | zero => simp [memNat, leNat]
  | succ n ih =>
    have hd : bs.drop a = bs.getD a 0 :: bs.drop (a + 1) := by
      rw [List.drop_eq_getElem_cons (by omega)]; congr 1
      rw [List.getD_eq_getElem _ _ (by omega)]
    rw [memNat, ih (a + 1) (by omega), hd, List.take_succ_cons, leNat, memByte_tblOfBytes _ _ (by omega)]

/-- The bytes that fields take. -/
def fieldWidth (fs : List (Nat × Nat)) : Nat := (fs.map Prod.fst).sum

theorem fieldBytes_length (fs : List (Nat × Nat)) : (fieldBytes fs).length = fieldWidth fs := by
  simp [fieldBytes, fieldWidth, List.length_flatMap]

/-- A field of a record is read back at its place. -/
theorem memNat_field (pre post : List (Nat × Nat)) (n v : Nat) :
    memNat (tblOfBytes (fieldBytes (pre ++ (n, v) :: post))) (fieldWidth pre) n = v % 256 ^ n := by
  have hb : fieldBytes (pre ++ (n, v) :: post) = fieldBytes pre ++ (leBytes n v ++ fieldBytes post) := by
    simp [fieldBytes]
  rw [memNat_tblOfBytes _ _ _ (by rw [hb, ← fieldBytes_length]; simp), hb, ← fieldBytes_length, List.drop_left]
  rw [List.take_append_of_le_length (by simp), List.take_of_length_le (by simp), leNat_leBytes]

/-- The trap frame is 256 bytes. -/
theorem State.frameBytes_length (s : State) (w : Wave) (t : TrapInfo) (r : Dword) (f : Bool) : (s.frameBytes w t r f).length = 256 := by
  rw [State.frameBytes, fieldBytes_length]
  simp [State.frameFields, fieldWidth, splitFields, List.range, List.range.loop]

end Sys2Proof.Machine
end

