-- ==== Sys2Proof/Tests/Slice0.lean ====
section
/-! SUPPORT. Checks of the model: what is not well-formed, a word of every instruction, single steps worked out by hand from the
spec, and for every statement of Obligations a concrete state that meets its hypotheses. -/
namespace Sys2Proof.Tests
open Sys2Proof Sys2Proof.Machine Sys2Proof.Claims
set_option Elab.async false

/-! Small states. -/

/-- Every lane. -/
def full : LaneMask := BitVec.allOnes 32

/-- A split of every lane at 0x10000. -/
def here : Split := { pos := 0x10000, mask := full, copies := [(0, full)] }

/-- A wave of a role at 0x10000, in handler mode or not. -/
def aWave (r : Role) (h : Bool) : Wave :=
  { launch := some 0, block := some 0, role := r, nvregs := 128, handler := h, splits := [(0, here)] }

/-- The tables that map the first GiB of virtual addresses to the first GiB of die 0 (R375, R376): a root entry and a leaf. -/
def tables : Tbl Byte := [(0x40000000, 0x01), (0x40000002, 0x01), (0x40000003, 0x40), (0x40010000, 0x1F)]

/-- A context that owns cluster 0. -/
def aCtx : Context := { clusters := [0], ptroot := 0x40000000, saveBase := 0x40020000, saveSize := 0x10000000, trapvec := 0x20001 }

/-- One block of one wave on core 0 of cluster 0, at whose instruction the wave stands. -/
def at_ (w : Wave) : State :=
  { waves := [(0, w)], nextWave := 1, blocks := [(0, { size := 65536, accum := 8, waves := [0] })], nextBlock := 1,
    clusters := [(0, { owner := some 0 })], ctxs := [(0, aCtx)], launches := [(0, {})], nextLaunch := 1, mem := tables,
    issue := { lanes := full, pc := 0x10000 } }

/-- A wave in the role's own mode of an element type. -/
def inType (r : Role) (t : Nat) : State :=
  let s := at_ { aWave r false with mode := BitVec.ofNat 16 (t * 256) }
  { s with issue := { s.issue with mode := BitVec.ofNat 16 (t * 256) } }

/-- The conditions of `State.issues`, as a test. -/
def ok (s : State) (i : Instr) : Bool := s.waveAlive && !interlocked i s && (dueCause i s).isNone && (preIssue i s).isNone && (struckCause i s).isNone &&
  !s.curWave.ended

/-- The test says what it is for. -/
theorem ok_issues {s : State} {i : Instr} (h : ok s i = true) : s.issues i := by
  simp only [ok, Bool.and_eq_true, Bool.not_eq_true', Option.isNone_iff_eq_none] at h
  exact ⟨h.1.1.1.1.1, h.1.1.1.1.2, h.1.1.1.2, h.1.1.2, h.1.2, h.2⟩

/-- A word of each instruction of opcodes 0x00 to 0x1F, from R78, R80, R81, R87, R88 and the entries. -/
def scalarWords : List (Nat × Instr) := [
  (0x00A5A9AE, .trapz 0xA5 0xA9 0xAE), (0x01000000, .nop), (0x0205099E, .adds (.reg 5) (.reg 9) (.inl 14)),
  (0x0305099E, .subs (.reg 5) (.reg 9) (.inl 14)), (0x0405099E, .muls (.reg 5) (.reg 9) (.inl 14)),
  (0x0505099E, .mulhs (.reg 5) (.reg 9) (.inl 14)), (0x0605099E, .divs (.reg 5) (.reg 9) (.inl 14)),
  (0x0705099E, .rems (.reg 5) (.reg 9) (.inl 14)), (0x0805099E, .ands (.reg 5) (.reg 9) (.inl 14)),
  (0x0905099E, .ors (.reg 5) (.reg 9) (.inl 14)), (0x0A05099E, .xors (.reg 5) (.reg 9) (.inl 14)),
  (0x0B05099E, .andns (.reg 5) (.reg 9) (.inl 14)), (0x0C05099E, .shls (.reg 5) (.reg 9) (.inl 14)),
  (0x0D05099E, .shrs (.reg 5) (.reg 9) (.inl 14)), (0x0E05099E, .sras (.reg 5) (.reg 9) (.inl 14)),
  (0x0F05099E, .rols (.reg 5) (.reg 9) (.inl 14)), (0x1005099E, .mins (.reg 5) (.reg 9) (.inl 14)),
  (0x1105099E, .maxs (.reg 5) (.reg 9) (.inl 14)), (0x12050900, .movs (.reg 5) (.reg 9)), (0x13050900, .nots (.reg 5) (.reg 9)),
  (0x14050900, .negs (.reg 5) (.reg 9)), (0x15050900, .clzs (.reg 5) (.reg 9)), (0x16050900, .popcs (.reg 5) (.reg 9)),
  (0x1705099E, .seqs (.reg 5) (.reg 9) (.inl 14)), (0x1805099E, .snes (.reg 5) (.reg 9) (.inl 14)),
  (0x1905099E, .slts (.reg 5) (.reg 9) (.inl 14)), (0x1A05099E, .sles (.reg 5) (.reg 9) (.inl 14)),
  (0x1B05099E, .leas (.reg 5) (.reg 9) (.inl 14)), (0x1C05099E, .bfxs (.reg 5) (.reg 9) (.inl 14))]
theorem test_decode_scalar : scalarWords.all (fun p => decodeTableWord 32 p.1 == some p.2) = true := by decide +kernel

/-- A word of each instruction of opcodes 0x20 to 0x3F, from R78, R80, R81, R87, R88 and the entries. -/
def controlWords : List (Nat × Instr) := [
  (0x2000069E, .br ⟨false, 6⟩ (.inl 14)), (0x2100099E, .brz (.reg 9) (.inl 14)), (0x2200099E, .brnz (.reg 9) (.inl 14)),
  (0x2305009E, .call (.reg 5) (.inl 14)), (0x24000900, .ret (.reg 9)), (0x2500009E, .rejoin (.inl 14)), (0x26000000, .exit),
  (0x27000000, .yield), (0x28004500, .plset (.reg 69)), (0x29410000, .plget (.reg 65)), (0x2A0000CF, .trap 63), (0x2B000000, .brk),
  (0x2C050005, .crrd (.reg 5) .trapvec), (0x2D00009E, .setm (.inl 14)), (0x2E00929E, .setmf .scope (.inl 14)),
  (0x2F050000, .getm (.reg 5)), (0x3004060A, .pand 4 ⟨false, 6⟩ ⟨true, 2⟩), (0x3104060A, .por 4 ⟨false, 6⟩ ⟨true, 2⟩),
  (0x3204060A, .pxor 4 ⟨false, 6⟩ ⟨true, 2⟩), (0x3304060A, .pandn 4 ⟨false, 6⟩ ⟨true, 2⟩), (0x34040900, .pfroms 4 (.reg 9)),
  (0x35050600, .ptos (.reg 5) ⟨false, 6⟩), (0x36050000, .maskrd (.reg 5))]
theorem test_decode_control : controlWords.all (fun p => decodeTableWord 32 p.1 == some p.2) = true := by decide +kernel

/-- A word of each instruction of opcodes 0x40 to 0x5F, from R78, R80, R81, R87, R88 and the entries. -/
def vectorWords : List (Nat × Instr) := [
  (0x40414583, .addv (.reg 65) (.reg 69) (.latch 3)), (0x41414583, .subv (.reg 65) (.reg 69) (.latch 3)),
  (0x42414583, .mulv (.reg 65) (.reg 69) (.latch 3)), (0x43414583, .mulhv (.reg 65) (.reg 69) (.latch 3)),
  (0x44414583, .divv (.reg 65) (.reg 69) (.latch 3)), (0x45414583, .remv (.reg 65) (.reg 69) (.latch 3)),
  (0x46414583, .minv (.reg 65) (.reg 69) (.latch 3)), (0x47414583, .maxv (.reg 65) (.reg 69) (.latch 3)),
  (0x48414500, .absv (.reg 65) (.reg 69)), (0x49414500, .negv (.reg 65) (.reg 69)), (0x4A644583, .madv 100 (.reg 69) (.latch 3)),
  (0x4B644583, .msubv 100 (.reg 69) (.latch 3)), (0x4C414583, .andv (.reg 65) (.reg 69) (.latch 3)),
  (0x4D414583, .orv (.reg 65) (.reg 69) (.latch 3)), (0x4E414583, .xorv (.reg 65) (.reg 69) (.latch 3)),
  (0x4F414583, .andnv (.reg 65) (.reg 69) (.latch 3)), (0x50414500, .notv (.reg 65) (.reg 69)),
  (0x51414583, .shlv (.reg 65) (.reg 69) (.latch 3)), (0x52414583, .shrv (.reg 65) (.reg 69) (.latch 3)),
  (0x53414583, .srav (.reg 65) (.reg 69) (.latch 3)), (0x54414583, .rolv (.reg 65) (.reg 69) (.latch 3)),
  (0x55414500, .clzv (.reg 65) (.reg 69)), (0x56414500, .popcv (.reg 65) (.reg 69)), (0x57414500, .movv (.reg 65) (.reg 69)),
  (0x58414583, .bfxv (.reg 65) (.reg 69) (.latch 3)), (0x59644583, .dot4v 100 (.reg 69) (.latch 3)),
  (0x5A644583, .dot2v 100 (.reg 69) (.latch 3)), (0x5B414583, .avgv (.reg 65) (.reg 69) (.latch 3))]
theorem test_decode_vector : vectorWords.all (fun p => decodeTableWord 32 p.1 == some p.2) = true := by decide +kernel

/-- A word of each instruction of opcodes 0x60 to 0x7F, from R78, R80, R81, R87, R88 and the entries. -/
def floatWords : List (Nat × Instr) := [
  (0x60414500, .sqrtv (.reg 65) (.reg 69)), (0x61414500, .rcpv (.reg 65) (.reg 69)), (0x62414500, .rsqv (.reg 65) (.reg 69)),
  (0x63414500, .exp2v (.reg 65) (.reg 69)), (0x64414500, .log2v (.reg 65) (.reg 69)), (0x65414500, .sinv (.reg 65) (.reg 69)),
  (0x66414500, .cosv (.reg 65) (.reg 69)), (0x67414500, .tanhv (.reg 65) (.reg 69)), (0x68414500, .floorv (.reg 65) (.reg 69)),
  (0x69414500, .ceilv (.reg 65) (.reg 69)), (0x6A414500, .truncv (.reg 65) (.reg 69)), (0x6B414500, .rintv (.reg 65) (.reg 69)),
  (0x6C414500, .fracv (.reg 65) (.reg 69)), (0x6D414583, .copysv (.reg 65) (.reg 69) (.latch 3)),
  (0x6E414500, .classv (.reg 65) (.reg 69)), (0x6F414583, .scalbv (.reg 65) (.reg 69) (.latch 3))]
theorem test_decode_float : floatWords.all (fun p => decodeTableWord 32 p.1 == some p.2) = true := by decide +kernel

/-- A word of each instruction of opcodes 0x80 to 0x9F, from R78, R80, R81, R87, R88 and the entries. -/
def crossWords : List (Nat × Instr) := [
  (0x80414599, .cvtv (.reg 65) (.reg 69) .bf16), (0x8141459E, .packsxv (.reg 65) (.reg 69) .sx5),
  (0x8241459E, .unpksxv (.reg 65) (.reg 69) .sx5), (0x83044583, .cmpeqv 4 (.reg 69) (.latch 3)),
  (0x84044583, .cmpnev 4 (.reg 69) (.latch 3)), (0x85044583, .cmpltv 4 (.reg 69) (.latch 3)),
  (0x86044583, .cmplev 4 (.reg 69) (.latch 3)), (0x87044583, .cmpgtv 4 (.reg 69) (.latch 3)),
  (0x88044583, .cmpgev 4 (.reg 69) (.latch 3)), (0x89044583, .cmpunv 4 (.reg 69) (.latch 3)),
  (0x8A414583, .selv (.reg 65) (.reg 69) (.latch 3)), (0x8B414583, .shflv (.reg 65) (.reg 69) (.latch 3)),
  (0x8C414583, .shupv (.reg 65) (.reg 69) (.latch 3)), (0x8D414583, .shdnv (.reg 65) (.reg 69) (.latch 3)),
  (0x8E414583, .shxrv (.reg 65) (.reg 69) (.latch 3)), (0x8F414583, .bcastv (.reg 65) (.reg 69) (.latch 3)),
  (0x90040600, .voteall 4 ⟨false, 6⟩), (0x91040600, .voteany 4 ⟨false, 6⟩), (0x92050600, .ballot (.reg 5) ⟨false, 6⟩),
  (0x93054500, .redaddv (.reg 5) (.reg 69)), (0x94054500, .redminv (.reg 5) (.reg 69)), (0x95054500, .redmaxv (.reg 5) (.reg 69)),
  (0x96054500, .redandv (.reg 5) (.reg 69)), (0x97054500, .redorv (.reg 5) (.reg 69)), (0x98414500, .scanv (.reg 65) (.reg 69)),
  (0x99410900, .movsv (.reg 65) (.reg 9)), (0x9A05459E, .movvs (.reg 5) (.reg 69) (.inl 14)), (0x9B050000, .firstl (.reg 5))]
theorem test_decode_cross : crossWords.all (fun p => decodeTableWord 32 p.1 == some p.2) = true := by decide +kernel

/-- A word of each instruction of opcodes 0xA0 to 0xA7, from R78, R80, R81, R87, R88 and the entries. -/
def memoryWords : List (Nat × Instr) := [
  (0xA041429E, .ldv (.reg 65) 33 (.inl 14)), (0xA164429E, .stv 100 33 (.inl 14)), (0xA205099E, .lds (.reg 5) (.reg 9) (.inl 14)),
  (0xA33F099E, .sts 63 (.reg 9) (.inl 14)), (0xA441099E, .ldvb (.reg 65) (.reg 9) (.inl 14)),
  (0xA564099E, .stvb 100 (.reg 9) (.inl 14)), (0xA600099E, .pref (.reg 9) (.inl 14))]
theorem test_decode_memory : memoryWords.all (fun p => decodeTableWord 32 p.1 == some p.2) = true := by decide +kernel

/-- A word of each instruction of opcodes 0xA8 to 0xBF, from R78, R80, R81, R87, R88 and the entries. -/
def atomicWords : List (Nat × Instr) := [
  (0xA8414283, .aadd (.reg 65) 33 (.latch 3)), (0xA9414283, .amin (.reg 65) 33 (.latch 3)),
  (0xAA414283, .amax (.reg 65) 33 (.latch 3)), (0xAB414283, .aand (.reg 65) 33 (.latch 3)),
  (0xAC414283, .aor (.reg 65) 33 (.latch 3)), (0xAD414283, .axor (.reg 65) 33 (.latch 3)),
  (0xAE414283, .axchg (.reg 65) 33 (.latch 3)), (0xAF414283, .aincw (.reg 65) 33 (.latch 3)),
  (0xB0414283, .adecw (.reg 65) 33 (.latch 3)), (0xB1644283, .cas 100 33 (.latch 3)), (0xB21C427C, .cas128 7 33 31),
  (0xB305099E, .aadds (.reg 5) (.reg 9) (.inl 14)), (0xB43F099E, .cass 63 (.reg 9) (.inl 14)), (0xB500009E, .fence ⟨.die, .release⟩),
  (0xB602099E, .waita .cluster (.reg 9) (.inl 14)), (0xB7000094, .drain .stack), (0xB8004283, .rdadd 33 (.latch 3)),
  (0xB9004283, .rdmin 33 (.latch 3)), (0xBA004283, .rdmax 33 (.latch 3)), (0xBB004283, .rdand 33 (.latch 3)),
  (0xBC004283, .rdor 33 (.latch 3)), (0xBD004283, .rdxor 33 (.latch 3))]
theorem test_decode_atomic : atomicWords.all (fun p => decodeTableWord 32 p.1 == some p.2) = true := by decide +kernel

/-- A word of each instruction of opcodes 0xC0 to 0xCF, from R78, R80, R81, R87, R88 and the entries. -/
def scratchpadWords : List (Nat × Instr) := [
  (0xC041459E, .ldp (.reg 65) (.reg 69) (.inl 14)), (0xC164459E, .stp 100 (.reg 69) (.inl 14)),
  (0xC241459E, .ldc (.reg 65) (.reg 69) (.inl 14)), (0xC364459E, .stc 100 (.reg 69) (.inl 14)),
  (0xC441459E, .ldk (.reg 65) (.reg 69) (.inl 14)), (0xC564459E, .stk 100 (.reg 69) (.inl 14)),
  (0xC641459E, .ldl (.reg 65) (.reg 69) (.inl 14)), (0xC764459E, .stl 100 (.reg 69) (.inl 14)),
  (0xC8414583, .aaddc (.reg 65) (.reg 69) (.latch 3)), (0xC9644583, .casc 100 (.reg 69) (.latch 3)),
  (0xCA00099E, .townGive (.reg 9) (.inl 14)), (0xCA01099E, .townTake (.reg 9) (.inl 14)),
  (0xCB05099E, .twait (.reg 5) (.reg 9) (.inl 14)), (0xCC050900, .barv (.reg 5) (.reg 9)), (0xCD00099E, .barw (.reg 9) (.inl 14)),
  (0xCE05099E, .ldps (.reg 5) (.reg 9) (.inl 14)), (0xCF3F099E, .stps 63 (.reg 9) (.inl 14))]
theorem test_decode_scratchpad : scratchpadWords.all (fun p => decodeTableWord 32 p.1 == some p.2) = true := by decide +kernel

/-- A word of each instruction of opcodes 0xD0 to 0xDF, from R78, R80, R81, R87, R88 and the entries. -/
def matrixWords : List (Nat × Instr) := [
  (0xD004093C, .mma 4 (.reg 9) 15), (0xD1040000, .mmz 4), (0xD2040991, .mmd 4 (.reg 9) true), (0xD30F099C, .wload 15 (.reg 9) 12),
  (0xD4000000, .mmsync)]
theorem test_decode_matrix : matrixWords.all (fun p => decodeTableWord 32 p.1 == some p.2) = true := by decide +kernel

/-- A word of each instruction of opcodes 0xE0 to 0xEF, from R78, R80, R81, R87, R88 and the entries. -/
def engineWords : List (Nat × Instr) := [
  (0xE00F0900, .wbind 15 (.reg 9)), (0xE100000F, .wtouch 15), (0xE200000F, .wunbind 15), (0xE3000900, .gather (.reg 9)),
  (0xE400099E, .spawn (.reg 9) (.inl 14)), (0xE53F099E, .dcinit 63 (.reg 9) (.inl 14)),
  (0xE605099E, .dctake (.reg 5) (.reg 9) (.inl 14)), (0xE705099E, .dcgive (.reg 5) (.reg 9) (.inl 14)),
  (0xE83E0900, .dcread 31 (.reg 9)), (0xE9050900, .dcreadx (.reg 5) (.reg 9)), (0xEA050900, .dcdrop (.reg 5) (.reg 9)),
  (0xEB050900, .objdecl (.reg 5) (.reg 9)), (0xEC000900, .objdrop (.reg 9)), (0xED05000F, .wstat (.reg 5) 15)]
theorem test_decode_engine : engineWords.all (fun p => decodeTableWord 32 p.1 == some p.2) = true := by decide +kernel

/-- A word of each instruction of opcodes 0xF0 to 0xFF, from R78, R80, R81, R87, R88 and the entries. -/
def systemWords : List (Nat × Instr) := [
  (0xF000059E, .crwr .trapvec (.inl 14)), (0xF1050900, .carve (.reg 5) (.reg 9)), (0xF2000000, .tret),
  (0xF3000991, .tlbinv (.reg 9) true), (0xF4000991, .icinv (.reg 9) true)]
theorem test_decode_system : systemWords.all (fun p => decodeTableWord 32 p.1 == some p.2) = true := by decide +kernel


/-! Witnesses for the rows of results. -/

theorem witness_ScalarRowsComplete : ([.adds (.reg 1) (.reg 2) (.inl 3), .subs .nw (.reg 2) (.lit 5), .muls (.reg 1) .zero .core, .mulhs (.reg 1) (.reg 2) (.reg 3),
    .divs (.reg 1) (.reg 2) .zero, .rems (.reg 1) (.reg 2) .zero, .ands (.reg 1) (.reg 2) (.reg 3), .ors (.reg 1) (.reg 2) (.reg 3),
    .xors (.reg 1) (.reg 2) (.reg 3), .andns (.reg 1) (.reg 2) (.reg 3), .shls (.reg 1) (.reg 2) (.inl 63), .shrs (.reg 1) (.reg 2) (.inl 63),
    .sras (.reg 1) (.reg 2) (.inl 63), .rols (.reg 1) (.reg 2) (.inl 63), .mins (.reg 1) (.reg 2) (.reg 3), .maxs (.reg 1) (.reg 2) (.reg 3),
    .movs (.reg 63) (.inl 79), .nots (.reg 1) (.reg 2), .negs (.reg 1) (.reg 2), .clzs (.reg 1) .zero, .popcs (.reg 1) .zero,
    .seqs (.reg 1) (.reg 2) (.reg 3), .snes (.reg 1) (.reg 2) (.reg 3), .slts (.reg 1) (.reg 2) (.reg 3), .sles (.reg 1) (.reg 2) (.reg 3),
    .leas (.reg 1) (.reg 2) (.reg 3), .bfxs (.reg 1) (.reg 2) (.reg 3)] : List Instr).all
    (fun i => (scalarRow (inType .v 0) i).isSome && ok (inType .v 0) i) = true := by decide +kernel

theorem witness_ScalarReadsComplete : ([.getm (.reg 1), .crrd (.reg 1) .cring, .ptos (.reg 1) ⟨true, 0⟩, .maskrd (.reg 1), .ballot (.reg 1) ⟨false, 7⟩,
    .firstl (.reg 1), .movvs (.reg 1) (.reg 2) (.reg 3), .redaddv (.reg 1) (.reg 2), .redminv (.reg 1) (.reg 2), .redmaxv (.reg 1) (.reg 2),
    .redandv (.reg 1) (.reg 2), .redorv .nw (.reg 127)] : List Instr).all
    (fun i => (scalarReadRow (inType .v 0) i).isSome && ok (inType .v 0) i) = true := by decide +kernel

theorem witness_ElementRowsComplete : ([.addv (.reg 1) (.reg 2) (.reg 3), .subv (.reg 1) (.reg 2) .lane, .mulv (.reg 1) (.reg 2) (.reg 3), .divv (.reg 1) (.reg 2) .zero,
    .minv (.reg 1) (.reg 2) (.reg 3), .maxv (.reg 1) (.reg 2) (.reg 3), .absv (.reg 1) (.reg 2), .negv (.reg 1) (.reg 2), .madv 1 (.reg 2) (.reg 3),
    .msubv 127 (.reg 2) (.reg 3), .mulhv (.reg 1) (.reg 2) (.reg 3), .remv (.reg 1) (.reg 2) .zero, .shlv (.reg 1) (.reg 2) (.inl 63),
    .shrv (.reg 1) (.reg 2) (.reg 3), .srav (.reg 1) (.reg 2) (.reg 3), .rolv (.reg 1) (.reg 2) (.reg 3), .clzv (.reg 1) (.reg 2),
    .popcv (.reg 1) (.reg 2), .bfxv (.reg 1) (.reg 2) (.reg 3), .avgv .nw (.reg 2) (.reg 3)] : List Instr).all
      (fun i => (elementRow (inType .v 0) i).isSome && ok (inType .v 0) i) = true ∧
    ([.addv (.reg 1) (.reg 2) (.reg 3), .divv (.reg 1) (.reg 2) (.reg 3), .sqrtv (.reg 1) (.reg 2), .rcpv (.reg 1) (.reg 2), .rsqv (.reg 1) (.reg 2),
      .exp2v (.reg 1) (.reg 2), .log2v (.reg 1) (.reg 2), .sinv (.reg 1) (.reg 2), .cosv (.reg 1) (.reg 2), .tanhv (.reg 1) (.reg 2),
      .floorv (.reg 1) (.reg 2), .ceilv (.reg 1) (.reg 2), .truncv (.reg 1) (.reg 2), .rintv (.reg 1) (.reg 2), .fracv (.reg 1) (.reg 2)] : List Instr).all
      (fun i => (elementRow (inType .v 8) i).isSome && ok (inType .v 8) i) = true := by decide +kernel

theorem witness_VectorRowsComplete : ([.andv (.reg 1) (.reg 2) (.reg 3), .orv (.reg 1) (.reg 2) (.reg 3), .xorv (.reg 1) (.reg 2) (.reg 3), .andnv (.reg 1) (.reg 2) (.reg 3),
    .notv (.reg 1) (.reg 2), .movv (.reg 1) .plane, .selv (.reg 1) (.reg 2) (.reg 3), .shflv (.reg 1) (.reg 2) (.reg 3), .shupv (.reg 1) (.reg 2) (.inl 31),
    .shdnv (.reg 1) (.reg 2) (.inl 31), .shxrv (.reg 1) (.reg 2) (.inl 31), .bcastv (.reg 1) (.reg 2) (.reg 3), .scanv (.reg 1) (.reg 2),
    .movsv (.reg 1) (.reg 2), .plget (.reg 1), .cvtv (.reg 1) (.reg 2) .f32] : List Instr).all
      (fun i => (vectorRow (inType .v 0) i).isSome && ok (inType .v 0) i) = true ∧
    ([.copysv (.reg 1) (.reg 2) (.reg 3), .classv (.reg 1) (.reg 2), .scalbv (.reg 1) (.reg 2) (.reg 3), .packsxv (.reg 1) (.reg 2) .sx8,
      .unpksxv (.reg 1) (.reg 2) .sx3] : List Instr).all (fun i => (vectorRow (inType .v 8) i).isSome && ok (inType .v 8) i) = true ∧
    ([.dot4v 1 (.reg 2) (.reg 3)] : List Instr).all (fun i => (vectorRow (inType .v 6) i).isSome && ok (inType .v 6) i) = true ∧
    ([.dot2v 1 (.reg 2) (.reg 3)] : List Instr).all (fun i => (vectorRow (inType .v 9) i).isSome && ok (inType .v 9) i) = true := by decide +kernel

theorem witness_PredicateRowsComplete : ([.pand 1 ⟨false, 2⟩ ⟨true, 0⟩, .por 0 ⟨false, 2⟩ ⟨false, 3⟩, .pxor 1 ⟨false, 2⟩ ⟨false, 3⟩, .pandn 1 ⟨false, 2⟩ ⟨false, 3⟩,
    .pfroms 7 (.reg 2), .cmpeqv 1 (.reg 2) (.reg 3), .cmpnev 1 (.reg 2) (.reg 3), .cmpltv 1 (.reg 2) (.reg 3), .cmplev 1 (.reg 2) (.reg 3),
    .cmpgtv 1 (.reg 2) (.reg 3), .cmpgev 1 (.reg 2) (.reg 3), .voteall 1 ⟨false, 2⟩, .voteany 1 ⟨false, 2⟩] : List Instr).all
      (fun i => (predRow (inType .v 0) i).isSome && ok (inType .v 0) i) = true ∧
    (predRow (inType .v 8) (.cmpunv 1 (.reg 2) (.reg 3))).isSome = true ∧ ok (inType .v 8) (.cmpunv 1 (.reg 2) (.reg 3)) = true := by decide +kernel

/-! Witnesses for control. -/

theorem witness_EffectRowsComplete : ([.nop, .setm (.reg 1), .setmf .round (.inl 3), .plset .lane] : List Instr).all
    (fun i => (effectRow (inType .v 0) i).isSome && ok (inType .v 0) i) = true := by decide +kernel

theorem witness_YieldCompletes : ok (inType .x 0) .yield = true := by decide +kernel

theorem witness_PassRoundRobin : (aWave .v false).deferred = [] := rfl

theorem witness_TransfersComplete : let s := inType .v 0
    ([.br ⟨false, 0⟩ (.inl 4), .brz (.reg 1) (.inl 4), .call (.reg 5) (.inl 4), .ret (.reg 1), .ret (.inl 4)] : List Instr).all (fun i =>
      (transferRow s i).any (fun r => ok s i && (s.bintodalLaunch s.curWave).isNone && r.1 != (0 : LaneMask) && (match r.2.1 with
        | .ok p => (s.curWave.place r.1 p s.issue.len).isSome
        | .error _ => false))) = true ∧
    ([.brnz (.reg 1) (.inl 4), .br ⟨true, 0⟩ (.inl 4)] : List Instr).all (fun i => (transferRow s i).any (fun r =>
      ok s i && (s.bintodalLaunch s.curWave).isNone && r.1 == (0 : LaneMask))) = true := by decide +kernel

/-- A wave whose four slots and eight deferred entries are taken: p1 holds in half of the lanes that issue. -/
def crowded : State :=
  let w := { aWave .v false with
    preds := [(1, 0x3)], splits := [(0, { here with mask := 0xF, copies := [(0, 0xF)] }), (1, { pos := 0x10100, mask := 0x10 }), (2, { pos := 0x10200, mask := 0x20 }),
      (3, { pos := 0x10300, mask := 0x40 })], deferred := (List.range 8).map (fun i => { pos := BitVec.ofNat 64 (0x11000 + 256 * i), mask := BitVec.ofNat 32 (2 ^ (7 + i)) }) }
  { at_ w with issue := { lanes := 0xF, pc := 0x10000 } }

theorem witness_TransfersTrap :
    (let s := inType .v 0
     let t := { s with waves := [(0, { aWave .v false with sregs := [(1, 0x10002)] })] }
     (transferRow t (.ret (.reg 1))).any (fun r => r.1 != (0 : LaneMask) && (match r.2.1 with
        | .ok _ => false
        | .error c => c == 0x0B)) = true ∧ ok t (.ret (.reg 1)) = true) ∧
    (transferRow crowded (.br ⟨false, 1⟩ (.inl 4))).any (fun r => r.1 != (0 : LaneMask) && (crowded.curWave.place r.1 0x10004 4).isNone) = true ∧
      ok crowded (.br ⟨false, 1⟩ (.inl 4)) = true ∧ crowded.target (.inl 4) = .ok 0x10004 := by decide +kernel

/-- The state with a code object whose image has an accord of 4 planes and stride 256 at 0x10000. -/
def inAccord : State :=
  let o : CodeObj := { images := [{ base := 0x10000, size := 4096, accords := [(0x10000, 4, 256)] }] }
  { inType .v 0 with ctxs := [(0, { aCtx with objs := [(0, o)] })] }

theorem witness_TransferTarget : (inType .v 0).curCtx.accordAt (inType .v 0).issue.pc = none ∧
    (inAccord.curCtx.accordAt inAccord.issue.pc = some (0x10000, 4, 256) ∧ SSrcRelative (.inl 60) = true ∧ SSrcRelative (.inl 64) = true) ∧
    (inAccord.readS64 (.inl 60)).toInt * inAccord.gran = 60 ∧ (0x1003C#64).toNat % formAlign (inAccord.curCtx.formAt 0x1003C) = 0 ∧ (inAccord.readS64 (.inl 64)).toInt * inAccord.gran < 0 := by decide +kernel

theorem witness_RejoinCompletes : ok (inType .v 0) (.rejoin (.inl 15)) = true ∧
    (let s := inType .v 0
     ((s.readS64 (.inl 15)).setWidth 32 &&& ~~~s.curSplit.mask : LaneMask) = 0) ∧
    ok crowded (.rejoin (.inl 31)) = true ∧ ((crowded.readS64 (.inl 31)).setWidth 32 : LaneMask).getLsbD 4 = true ∧
    crowded.curWave.retired.getLsbD 4 = false ∧ crowded.curSplit.mask.getLsbD 4 = false := by decide +kernel

theorem witness_ExitCompletes : ok crowded .exit = true ∧ ~~~crowded.curWave.retired &&& ~~~crowded.activeMask ≠ 0 ∧
    (let s := inType .v 0
     ok s .exit = true ∧ ~~~s.curWave.retired &&& ~~~s.activeMask = 0 ∧ s.curWave.mxPending = 0 ∧ s.curWave.engPending = 0 ∧ s.curWave.loads = [] ∧
       (s.core s.curWave.core).wq = [] ∧ s.curWave.causes = []) ∧
    (let s := at_ { aWave .c false with engPending := 1 }
     ok s .exit = true ∧ ~~~s.curWave.retired &&& ~~~s.activeMask = 0 ∧ s.curWave.engPending ≠ 0) ∧
    (let s := { inType .v 0 with cores := [(0, { wq := [(0, { pa := 0x20000, bytes := [1] })] })] }
     ok s .exit = true ∧ ~~~s.curWave.retired &&& ~~~s.activeMask = 0 ∧ (s.core 0).wq.length = 1) := by decide +kernel

/-- The state whose guard names p1, which holds in no lane. -/
def guarded (r : Role) : State :=
  { inType r 0 with issue := { lanes := full, pc := 0x10000, mode := 0x1000 } }

theorem witness_TrapInstructionsTrap : ok (inType .v 0) (.trapz 1 2 3) = true ∧ ok (inType .v 0) (.trap 63) = true ∧ (inType .v 0).activeMask ≠ 0 ∧
    ok (guarded .v) (.trap 63) = true ∧ (guarded .v).activeMask = 0 ∧ ok (inType .v 0) .brk = true ∧ ok (guarded .v) .brk = true := by decide +kernel

theorem witness_TrapEntersHandler : (aWave .v false).handler = false ∧ tget? (inType .v 0).waves 0 = some (inType .v 0).curWave ∧
    ((inType .v 0).ctx (inType .v 0).curWave.ctx).trapvec.toNat % 2 = 1 := by decide +kernel

/-- It has the same hypotheses. -/
theorem witness_TrapFrameFields : (aWave .v false).handler = false ∧ tget? (inType .v 0).waves 0 = some (inType .v 0).curWave ∧
    ((inType .v 0).ctx (inType .v 0).curWave.ctx).trapvec.toNat % 2 = 1 := witness_TrapEntersHandler

theorem witness_FatalTrap : tget? (at_ (aWave .v true)).waves 0 = some (aWave .v true) ∧ (aWave .v true).handler = true ∧
    (let s := { at_ (aWave .v false) with ctxs := [(0, { aCtx with trapvec := 0x20000 })] }
     tget? s.waves 0 = some (aWave .v false) ∧ (s.ctx (aWave .v false).ctx).trapvec.toNat % 2 = 0) := by decide +kernel

/-- A wave in its handler, which it entered from one split at 0x10000 with RESUME 0x10004. -/
def inTrap : State :=
  at_ { aWave .v true with frame := [(0, 0x04), (2, 0x01)], savedSplits := [(0, { pos := 0x10000, mask := full })] }

theorem witness_TretReturns : ok inTrap .tret = true ∧ inTrap.begun.gate 6 true true = none ∧
    (inTrap.curCtx.position (BitVec.ofNat 64 (memNat inTrap.curWave.frame 0 8))).toNat % 4 = 0 ∧
    tget? inTrap.curWave.savedSplits inTrap.curWave.savedIssuing = some { pos := 0x10000, mask := full } ∧
    full &&& ~~~inTrap.curWave.retired ≠ 0 ∧ inTrap.curWave.savedDeferred = [] := by decide +kernel

theorem witness_ChecksBeforeEffect : let s := at_ (aWave .v false)
    (Instr.operands (.mmz 0)).isSome = true ∧ s.waveAlive = true ∧ interlocked (.mmz 0) s = false ∧ dueCause (.mmz 0) s = none ∧
      (preIssue (.mmz 0) s).isSome = true := by decide +kernel

/-- A wave whose s5 holds an uncorrectable error (R407). -/
def struckS5 : State := at_ { aWave .v false with struck := [.s 5] }

theorem witness_ChecksBeforeEffect_struck : let i : Instr := .adds (.reg 6) (.reg 5) (.reg 5)
    i.operands.isSome = true ∧ struckS5.waveAlive = true ∧ interlocked i struckS5 = false ∧ dueCause i struckS5 = none ∧
      preIssue i struckS5 = none ∧ (RegCell.s 5) ∈ struckS5.curWave.struck ∧ readsCell i struckS5 (.s 5) = true := by decide +kernel

/-- R407: the instruction that reads the register takes MEM_POISON (0x11) with FADDR 0; one that writes it mends it. -/
theorem test_struck_register : (match exec (.adds (.reg 6) (.reg 5) (.reg 5)) struckS5 with
    | .next t => t.curWave.handler && memNat t.curWave.frame 36 1 == 0x11 && memNat t.curWave.frame 16 8 == 0 && t.curWave.struck == [.s 5]
    | _ => false) &&
  (match exec (.movs (.reg 5) (.inl 17)) struckS5 with
    | .next t => !t.curWave.handler && t.curWave.struck == []
    | _ => false) = true := by decide +kernel

theorem witness_PrivilegedOutsideHandler : let s := at_ (aWave .c false)
    ([.crwr .sillage (.reg 1), .carve (.reg 1) (.reg 2), .tret, .tlbinv (.reg 1) true, .icinv (.reg 1) false] : List Instr).all (fun i =>
      privileged i && s.waveAlive && !interlocked i s && (dueCause i s).isNone && !s.curWave.handler) = true := by decide +kernel

/-- A load in flight to v1, of a line of DRAM that stands at its home. -/
def inFlight (w : Wave) : State :=
  let p : PLoad := { dst := .vec (some 1) false, lanes := [{ lane := 0, pa := 0x20000, va := 0x20000 }] }
  at_ { w with loads := [(0, p)], nextLoad := 1 }

theorem witness_InterlockWaits : let s := inFlight (aWave .v false)
    (Instr.operands (.addv (.reg 3) (.reg 1) (.reg 2))).isSome = true ∧ s.waveAlive = true ∧ interlocked (.addv (.reg 3) (.reg 1) (.reg 2)) s = true := by
  decide +kernel

theorem witness_NoWaveStops : (Instr.operands .nop).isSome = true ∧ State.reset.waveAlive = false := by decide +kernel

/-! Witnesses for memory. Lane 0 alone is active where a form is by lane, and its address is 0x20000 unless a clause asks for another. -/

/-- Lane 0 of the wave, whose registers hold an address for every form: v2 with v3, and s2. -/
def lane0 (r : Role) (t : Nat) (va : Nat) : State :=
  let w := { aWave r false with
    vregs := [(64, BitVec.ofNat 32 va)], sregs := [(2, BitVec.ofNat 64 va)], splits := [(0, { here with mask := 1, copies := [(0, 1)] })] }
  { at_ w with issue := { lanes := 1, pc := 0x10000, mode := BitVec.ofNat 16 (t * 256) } }

/-- The lane at 0x20000, in DRAM. -/
def inMem (r : Role) : State := lane0 r 1 0x20000
/-- The lane at 0x40 of a scratchpad. -/
def inPad (r : Role) : State := lane0 r 1 0x40

/-- The cells of a check that passes. -/
def cellsOf (s : State) (r : MemReq) : List (Nat × Dword × Cell) :=
  match s.check r with
  | .ok cs => cs
  | .trap _ | .touch _ => []

/-- A check has passed. -/
def passes (s : State) (r : MemReq) : Bool :=
  match s.check r with
  | .ok _ => true
  | .trap _ | .touch _ => false

/-- The hypotheses of `Obligations.LoadsComplete`. -/
def loads (s : State) (i : Instr) : Bool :=
  (loadRow s.begun i).any (fun r => ok s i && s.activeMask != 0 && !s.begun.held r.2.1.space && !s.begun.acquiring s.begun.curWave && passes s.begun r.2.1 &&
    !(cellsOf s.begun r.2.1).isEmpty && (s.begun.scratchWait r.2.1.space (s.begun.accessClass r.1)).isNone)

theorem witness_LoadsComplete : ([.ldv (.reg 5) 1 .zero, .ldvb (.reg 5) (.reg 2) .zero] : List Instr).all (loads (inMem .v)) = true ∧
    loads (inMem .c) (.lds (.reg 5) (.reg 2) .zero) = true ∧
    ([.ldp (.reg 5) (.reg 2) .zero, .ldc (.reg 5) (.reg 2) .zero] : List Instr).all (loads (inPad .v)) = true ∧
    loads { inPad .v with ctxs := [(0, { aCtx with spways := 1 })] } (.ldk (.reg 5) (.reg 2) .zero) = true ∧
    loads { inPad .v with blocks := [(0, { size := 65536, lanepriv := 256, waves := [0] })] } (.ldl (.reg 5) (.reg 2) .zero) = true ∧
    loads (inPad .c) (.ldps (.reg 5) (.reg 2) .zero) = true := by decide +kernel

/-- A copy of the line at 0x20000 in core 0's cluster's slice and in its L1, leased at tick 0. -/
def cached : State :=
  { inMem .v with
    stackTbl := [(0, { lines := [(0x20000, { slice := 0, parts := [(0x20000, { st := .e })] })] })],
    cores := [(0, { l1 := [(0x20000, { data := List.replicate 64 7 })] })] }

/-- A served read. -/
def served (o : Served) : Bool :=
  match o with
  | .yes _ _ => true
  | .notYet _ => false

theorem witness_ReadServesView : served (cached.readLine 0 0 0x20000 [0x20000] { level := 1 }) = true ∧ (cached.l1View 0 0 0x20000).isSome = true ∧
    (let s := { cached with cores := [] }
     s.l1View 0 0 0x20000 = none ∧ s.liveRecord 0x20000 = false ∧
       ([1, 2, 4, 5] : List Nat).all (fun l => served (s.readLine 0 0 0x20000 [0x20000] { level := l })) = true) ∧
    (let s := { cached with clusters := [(homeSlice 0x20000, { counters := [(0x20000, {})] })] }
     s.liveRecord 0x20000 = true ∧ served (s.readLine 0 0 0x20000 [0x20000] { level := 1 }) = true) := by decide +kernel

/-- The hypotheses of `Obligations.StoresComplete`. -/
def stores (s : State) (i : Instr) : Bool :=
  (storeRow s.begun i).any (fun r => ok s i && s.activeMask != 0 && !s.begun.held r.2.1.space && passes s.begun r.2.1 &&
    !(cellsOf s.begun r.2.1).isEmpty && s.curWave.loads.isEmpty && !s.begun.acquiring s.begun.curWave &&
    (!(s.begun.accessClass r.1).release || (s.begun.gate (s.begun.accessClass r.1).level true false).isNone) &&
    (r.2.1.space != .global || decide ((s.core s.curWave.core).wq.length + (cellsOf s.begun r.2.1).length ≤ 64)))

theorem witness_StoresComplete : ([.stv 5 1 .zero, .stvb 5 (.reg 2) .zero] : List Instr).all (stores (inMem .v)) = true ∧
    stores (inMem .c) (.sts 5 (.reg 2) .zero) = true ∧
    ([.stp 5 (.reg 2) .zero, .stc 5 (.reg 2) .zero] : List Instr).all (stores (inPad .v)) = true ∧
    stores { inPad .v with ctxs := [(0, { aCtx with spways := 1 })] } (.stk 5 (.reg 2) .zero) = true ∧
    stores { inPad .v with blocks := [(0, { size := 65536, lanepriv := 256, waves := [0] })] } (.stl 5 (.reg 2) .zero) = true ∧
    stores (inPad .c) (.stps 5 (.reg 2) .zero) = true ∧
    (let s := inMem .c
     let full : State := { s with cores := [(0, { wq := (List.range 63).map (fun i => (i, {})), nextWrite := 63 })] }
     stores full (.sts 5 (.reg 2) .zero) = true) := by decide +kernel

/-- The hypotheses of `Obligations.AtomicsComplete`. -/
def atomics (s : State) (i : Instr) : Bool :=
  (atomicRow s.begun i).any (fun r => ok s i && s.activeMask != 0 && !s.begun.held r.2.1.space && passes s.begun r.2.1 &&
    !(cellsOf s.begun r.2.1).isEmpty && s.curWave.loads.isEmpty && !s.begun.acquiring s.begun.curWave &&
    (!(s.begun.accessClass r.1).release || (s.begun.gate (s.begun.accessClass r.1).level true false).isNone) &&
    (s.begun.scratchWait r.2.1.space (s.begun.accessClass r.1)).isNone &&
    (r.2.1.space != .global || decide ((s.core s.curWave.core).wq.length + (groupCells (cellsOf s.begun r.2.1)).length ≤ 64)) &&
    ((s.begun.cacheAll r.2.1).rmwLines (s.begun.accessClass r.1) r.2.1.z (cellsOf s.begun r.2.1)).2 &&
    (cellsOf s.begun r.2.1).all (fun p => !(s.readCell p.2.2 r.2.1.z).2 && (match inDram p.2.2 with
      | some pa => !s.homeLost pa && pa % r.2.1.z == 0 && (List.range r.2.1.z).all (fun k => !s.deviceByte (pa + k)) && (tget? (s.cluster (homeSlice (lineOf pa))).counters (lineOf pa)).isNone
      | none => true)))

theorem witness_AtomicsComplete : ([.aadd (.reg 5) 1 (.reg 6), .amin (.reg 5) 1 (.reg 6), .amax (.reg 5) 1 (.reg 6), .aand (.reg 5) 1 (.reg 6),
    .aor (.reg 5) 1 (.reg 6), .axor (.reg 5) 1 (.reg 6), .axchg (.reg 5) 1 (.reg 6), .aincw (.reg 5) 1 (.reg 6), .adecw (.reg 5) 1 (.reg 6),
    .cas 5 1 (.reg 6), .cas128 2 1 3, .rdadd 1 (.reg 6), .rdmin 1 (.reg 6), .rdmax 1 (.reg 6), .rdand 1 (.reg 6), .rdor 1 (.reg 6),
    .rdxor 1 (.reg 6)] : List Instr).all (atomics (inMem .v)) = true ∧
    ([.aadds (.reg 5) (.reg 2) (.reg 6), .cass 5 (.reg 2) (.reg 6)] : List Instr).all (atomics (inMem .c)) = true ∧
    ([.aaddc (.reg 5) (.reg 2) (.reg 6), .casc 5 (.reg 2) (.reg 6)] : List Instr).all (atomics (inPad .v)) = true := by decide +kernel

/-- A check that traps. -/
def checkTraps (s : State) (r : MemReq) : Bool :=
  match s.check r with
  | .trap _ => true
  | .ok _ | .touch _ => false

theorem witness_AccessChecksTrap :
    (let s := lane0 .v 1 0x80000000
     (loadRow s.begun (.ldv (.reg 5) 1 .zero)).any (fun r => ok s (.ldv (.reg 5) 1 .zero) && s.activeMask != 0 && !s.begun.acquiring s.begun.curWave &&
       !s.begun.held r.2.1.space && checkTraps s.begun r.2.1) = true) ∧
    (let s := lane0 .v 1 0x20002
     (storeRow s.begun (.stv 5 1 .zero)).any (fun r => ok s (.stv 5 1 .zero) && s.activeMask != 0 && !s.begun.held r.2.1.space &&
       r.2.1.lanes.any (fun p => p.2.toNat % r.2.1.z != 0)) = true) ∧
    (let s := { inMem .c with waves := [(0, { aWave .c false with
       sregs := [(2, 0x0008000000000000)], splits := [(0, { here with mask := 1, copies := [(0, 1)] })] })] }
     (atomicRow s.begun (.aadds (.reg 5) (.reg 2) (.reg 6))).any (fun r => ok s (.aadds (.reg 5) (.reg 2) (.reg 6)) && s.activeMask != 0 &&
       !s.begun.held r.2.1.space && r.2.1.space == .global && r.2.1.lanes.all (fun p => p.2.toNat % r.2.1.z == 0 && !canonical p.2 &&
         !s.begun.inFrame p.2)) = true) := by decide +kernel

/-! Witnesses for fences, waits and barriers. -/

/-- A check passes with these cells. -/
def checked (s : State) (r : MemReq) (cs : List (Nat × Dword × Cell)) : Bool :=
  match s.check r with
  | .ok xs => xs == cs
  | .trap _ | .touch _ => false

/-- The split of the wave waits for something at its instruction. -/
def waiting (s : State) (w : Wait) : State := s.modCur (fun v => { v with splits := tmap v.splits (fun sp => { sp with wait := some w }) })

theorem witness_PrefAndFenceComplete : ok (inMem .v) (.pref (.reg 2) .zero) = true ∧
    (let s := inMem .v
     ok s (.fence ⟨.package, .acquire⟩) = true ∧ s.activeMask ≠ 0 ∧ s.curSplit.wait = none ∧ s.curWave.loads = [] ∧
     (s.core 0).outcomesKnown 0 (s.core 0).nextWrite = true ∧ s.curWave.causes = [] ∧
     (s.core 0).published (s.core 0).nextWrite 6 = true ∧ depsReady (s.core 0).deps 0 6 true = true ∧
     ok s (.fence ⟨.package, .release⟩) = true ∧ s.begun.gate 6 true false = none ∧ ok s (.fence ⟨.cluster, .acqRel⟩) = true ∧
     s.begun.gate 2 true true = none) ∧
    (let s := { inMem .v with cores := [(0, { wq := [(0, { pa := 0x20000, bytes := [1, 0, 0, 0] })], nextWrite := 1 })] }
     ok s (.fence ⟨.die, .release⟩) = true ∧ s.activeMask ≠ 0 ∧ (s.begun.gate 3 true false).isSome = true) := by decide +kernel

theorem witness_DrainCompletes : ok (inMem .v) (.drain .package) = true ∧ (inMem .v).activeMask ≠ 0 ∧ (inMem .v).curSplit.wait = none ∧
    ok (waiting (inMem .v) .quiet) (.drain .core) = true ∧ (waiting (inMem .v) .quiet).curSplit.wait = some .quiet ∧
    (let s := { waiting (inMem .v) (.drain 6 1 none) with clk := 100000 }
     s.curSplit.wait = some (.drain 6 1 none) ∧ s.unitQuiet 6 0 0 1 = true ∧
     (let t := { s with cores := [(0, { wq := [(0, { pa := 0x20000, bytes := [1, 0, 0, 0] })] })] }
      t.curSplit.wait = some (.drain 6 1 none) ∧ t.unitQuiet 6 0 0 1 = false)) ∧
    (let s := { waiting (inMem .v) (.drain 6 1 (some 5)) with clk := 100000 }
     s.curSplit.wait = some (.drain 6 1 (some 5)) ∧ s.unitQuiet 6 0 0 1 = true ∧ 5 + holdTime 6 ≤ s.clk) := by decide +kernel

/-- A read of the memory system that is served at once, with the word at 0x20000 in its bytes. -/
def readsWord (s : State) (a : SSrc) (b : SSrc) (n : Nat) : Bool :=
  match (s.begun.cacheAll (waitaRequest s.begun .global a)).readNow 0x20000 (s.unitsAt 0x20000 4) (s.begun.accessClass 0xB6) with
  | .yes v _ => v.bad.isEmpty && leNat (v.bytes.take 4) == n && waitaValue s.begun b == 0
  | .notYet _ => false

theorem witness_WaitaCompletes :
    (let s := inPad .c
     let r := waitaRequest s.begun .cluster (.reg 2)
     ok s (.waita .cluster (.reg 2) .zero) = true ∧ s.activeMask ≠ 0 ∧ s.begun.held r.space = false ∧ s.begun.acquiring s.begun.curWave = false ∧
     checked s.begun r [(32, 0x40, .spad 0 0x40)] = true ∧ (s.begun.scratchWait r.space (s.begun.accessClass 0xB6)).isNone = true ∧
     s.readCell (.spad 0 0x40) 4 = (0, false) ∧ waitaValue s.begun .zero = 0 ∧ waitaValue s.begun (.inl 1) ≠ 0) ∧
    (let s := inMem .c
     let r := waitaRequest s.begun .global (.reg 2)
     ok s (.waita .global (.reg 2) .zero) = true ∧ s.begun.held r.space = false ∧ checked s.begun r [(32, 0x20000, .dram 0x20000)] = true ∧
     s.homeLost 0x20000 = false ∧ readsWord s (.reg 2) .zero 0 = true ∧
     readsWord { s with mem := (0x20000, 9) :: s.mem } (.reg 2) .zero 9 = true ∧
     (let t := { s with cores := [(0, { wq := [(0, { pa := 0x20000, bytes := [5, 0, 0, 0], trap := { faddr := 0x20000 } })], nextWrite := 1 })] }
      (match (t.core 0).forward 0x20000 4 with
        | .bytes v => v == 5
        | _ => false) = true)) ∧
    ([(0, 5), (4, 9)] : List (Nat × Nat)).all (fun x =>
      let r : Watch := { space := .cluster, place := 0x40, owner := 0, z := 4, val := x.2, va := 0x40, level := 2, acquire := x.1 == 4 }
      let s := waiting { inPad .c with blocks := [(0, { size := 65536, waves := [0], scratch := [(0x40, 5)] })] } (.waita r 0 true true)
      ok s (.waita .cluster (.reg 2) .zero) && s.curSplit.wait == some (.waita r 0 true true) && !s.begun.acquiring s.begun.curWave &&
        (inDram r.cell).isNone && (s.begun.scratchWait (waitSpace r.space) ⟨r.level, r.acquire, false⟩).isNone && !(s.readCell r.cell r.z).2 &&
        ((s.readCell r.cell r.z).1 == r.val) == (x.2 == 5)) = true ∧
    (let r : Watch := { space := .global, place := 0x20000, z := 4 }
     let s := waiting (inMem .c) (.waita r 0 false false)
     tget? s.waves 0 = some s.curWave ∧ s.curSplit.wait = some (.waita r 0 false false) ∧
     s.clk < 64 * s.period 0 ∧ 64 * s.period 0 ≤ 16384) := by decide +kernel

theorem witness_BarriersComplete :
    (let s := inPad .c
     ok s (.barv (.reg 5) (.reg 2)) = true ∧ s.activeMask ≠ 0 ∧
     checked s.begun { space := .cluster, access := .rmw, z := 8, lanes := oneAccess (s.readS64 (.reg 2)) } [(32, 0x40, .spad 0 0x40)] = true ∧
     s.curWave.loads = [] ∧ (s.begun.gate 2 true false).isNone = true ∧ (s.readCell (.spad 0 0x40) 8).2 = false ∧
     ok s (.barw (.reg 2) (.inl 0)) = true ∧ checked s.begun { space := .cluster, z := 8, lanes := oneAccess (s.readS64 (.reg 2)) } [(32, 0x40, .spad 0 0x40)] = true ∧ (s.readCell (.spad 0 0x40) 8).1 / 2 ^ 32 % 2 = (s.readS64 (.inl 0)).toNat % 2 ∧
     (s.readCell (.spad 0 0x40) 8).1 / 2 ^ 32 % 2 ≠ (s.readS64 (.inl 1)).toNat % 2 ∧
     s.curSplit.wait = none ∧ (let u := waiting s (.barw 0 0x40 1 0x40)
      ok u (.barw (.reg 2) (.inl 0)) = true ∧ u.curSplit.wait = some (.barw 0 0x40 1 0x40) ∧ (u.readCell (.spad 0 0x40) 8).1 / 2 ^ 32 % 2 ≠ 1) ∧
     (s.begun.scratchWait .cluster ⟨2, true, false⟩).isNone = true ∧ s.begun.acquiring s.begun.curWave = false) := by decide +kernel

theorem witness_LoadDataReturns : let w := tgetD (inFlight (aWave .v false)).waves 0 {}
    (tget? w.loads 0).isSome = true ∧ w.ended = false := by decide +kernel

/-! Witnesses for the matrix unit, tiles, windows, gathers and bins. -/

/-- The block of the wave is resident. -/
def blockIn (s : State) : Bool := s.curWave.block.isSome && (tget? s.blocks s.curBlockId).isSome

/-- An engine wave whose s2 holds 0x80, and whose s4 to s7 hold the format block of BF16 by BF16 from slot 0 (codes 9 and 9), without
scales or bias, over a slot 0 that holds BF16. -/
def matrixWave : State :=
  let w := { aWave .x false with sregs := [(2, 0x80), (4, 0x99), (5, 0xFFFFFFFFFFFFFFFF), (6, 0xFFFFFFFF), (7, 0)] }
  { at_ w with blocks := [(0, { size := 65536, accum := 8, waves := [0], slots := [(0, { issued := some 9 })] })] }

theorem witness_MatrixIssue : let s := { matrixWave with issue := { lanes := full, pc := 0x10000, mode := 0x900 } }
    blockIn s = true ∧ s.activeMask ≠ 0 ∧ (s.core 0).mq.length < 16 ∧ s.begun.acquiring s.begun.curWave = false ∧ s.begun.gate 1 true false = none ∧ ok s (.mmz 7) = true ∧ ok s (.mmd 7 (.reg 2) true) = true ∧
    mmdBytes s.etype = some 2048 ∧ (0x80 % 128 = 0 ∧ 0x80 + 2048 ≤ s.curBlock.size) ∧ (spanTiles 0x80 2048).all (fun t => (s.mxTile t).2) = true ∧
    (tgetD s.curBlock.drains 7 {}).ascale = none ∧ (tgetD s.curBlock.drains 7 {}).bscale = none ∧ (tgetD s.curBlock.drains 7 {}).bias = none ∧
    (s.begun.scratchWait .core s.begun.plainClass).isNone = true ∧ (spanTiles 0x4000 128).all (fun k => !(s.curBlock.tile k).engine) = true ∧
    ok s (.wload 15 (.reg 2) 9) = true ∧ mxFormat 9 = true ∧ 15 < 2 * s.curBlock.accum ∧ 0x80 + imageBytes 9 ≤ s.curBlock.size ∧
    (spanTiles 0x80 (imageBytes 9)).all (fun t => (s.mxTile t).2) = true := by decide +kernel

theorem witness_MmaIssue : let s := matrixWave
    let r (k : Nat) : Nat := (s.curWave.sreg (4 + k)).toNat
    blockIn s = true ∧ s.activeMask ≠ 0 ∧ ok s (.mma 7 (.reg 2) 1) = true ∧ s.begun.acquiring s.begun.curWave = false ∧ s.begun.gate 1 true false = none ∧ (s.core 0).mq.length < 16 ∧ r 0 / 2 ^ 29 % 8 = 0 ∧ r 0 / 2 ^ 36 = 0 ∧
    r 2 / 2 ^ 32 = 0 ∧ r 3 = 0 ∧ r 0 / 2 ^ 32 % 16 < 2 ∧ r 0 % 16 = 9 ∧ r 0 / 16 % 16 = 9 ∧ r 0 / 256 % 256 = 0 ∧ r 0 / 65536 % 256 = 0 ∧
    mxFormat 9 = true ∧ r 0 / 2 ^ 24 % 16 = 0 ∧ (tgetD s.curBlock.slots 0 {}).issued = some 9 ∧ (s.readS64 (.reg 2)).toNat = 0x80 ∧
    0x80 + aBytes 9 ≤ s.curBlock.size ∧ r 1 % 2 ^ 32 = 0xFFFFFFFF ∧ r 1 / 2 ^ 32 = 0xFFFFFFFF ∧ r 2 % 2 ^ 32 = 0xFFFFFFFF ∧
    (spanTiles 0x80 (aBytes 9)).all (fun t => (s.mxTile t).2) = true ∧ ok s .mmsync = true ∧ s.curWave.mxPending = 0 ∧
    ok (at_ { aWave .x false with mxPending := 1 }) .mmsync = true := by decide +kernel

/-- A core whose matrix queue holds one command. -/
def queued (op : MxOp) (ts : List Nat) : State :=
  let s := at_ { aWave .x false with mxPending := 1 }
  { s with
    cores := [(0, { mq := [{ op := op, tiles := ts }] })],
    blocks := [(0, { size := 65536, accum := 8, waves := [0], tiles := ts.map (fun t => (t, { engine := true, holder := .matrix, count := 1 })) })] }

theorem witness_MatrixExecute : ([.mma 7 0x80 9 9 0 false, .mmz 7, .mmd 7 0x2000 0x900 true false none none none false, .wload 0 0x4000 9] : List MxOp).all
    (fun op => ((queued op [1]).mxHead 0).any (fun c => c.op == op && !(tgetD (queued op [1]).waves c.wave {}).ended) && (tget? (queued op [1]).blocks 0).isSome) = true := by decide +kernel

theorem witness_TileHandOver :
    (let s := { at_ { aWave .x false with sregs := [(2, 0x2000), (3, 7)] } with issue := { lanes := full, pc := 0x10000 } }
     blockIn s = true ∧ s.activeMask ≠ 0 ∧ (s.readS64 (.reg 2)).toNat % 8192 = 0 ∧ (s.readS64 (.reg 3)).toNat = 7 ∧ 0x2000 + 8192 * 7 ≤ s.curBlock.size ∧
     ok s (.townGive (.reg 2) (.reg 3)) = true ∧ (List.range 8).all (fun t => !(s.curBlock.tile t).engine) = true ∧ s.begun.gate 1 true false = none ∧
     ok s (.twait (.reg 5) (.reg 2) (.inl 0)) = true ∧ (s.readS64 (.reg 2)).toNat < s.curBlock.size ∧ (s.curBlock.tile 1).engine = false ∧
     (s.curBlock.tile 1).phase = false ∧ ok s (.twait (.reg 5) (.reg 2) (.inl 4)) = true ∧ ok s (.twait (.reg 5) (.reg 2) (.inl 3)) = true) ∧
    (let s := { at_ { aWave .x false with sregs := [(2, 0x2000), (3, 1)] } with
       blocks := [(0, { size := 65536, waves := [0], tiles := [(1, { engine := true })] })] }
     ok s (.townTake (.reg 2) (.reg 3)) = true ∧ (s.curBlock.tile 1).engine = true ∧ (s.curBlock.tile 1).holder = .none) ∧
    ([0, 2] : List Nat).all (fun e => let s := waiting (at_ { aWave .x false with sregs := [(2, 0x2000), (3, 7)] }) (.twait 1 e)
      ok s (.twait (.reg 5) (.reg 2) (.inl 0)) && s.curSplit.wait == some (.twait 1 e) && !(s.curBlock.tile 1).engine) = true := by decide +kernel

/-- The bytes at 0x20000, with a copy of their line in the slice of cluster 0, and s2 holding the address. -/
def withRecord (s : State) (bs : List Byte) : State :=
  let s1 := s.modCur (fun w => { w with sregs := tset w.sregs 2 0x20000 })
  { s1 with mem := memPut s1.mem 0x20000 bs, stackTbl := [(0, { lines := [(0x20000, { slice := 0, parts := [(0x20000, { st := .e })] })] })] }

/-- A record is read at issue, and its bytes pass a test. -/
def reads (s : State) (a : Dword) (f : State → List Byte → Bool) : Bool :=
  a.toNat % 64 == 0 && !s.inFrame a && !s.held .global && !s.acquiring s.curWave && (match s.xlate s.curWave.core s.curWave.ctx a .read with
    | .ok pa => !s.homeLost pa && !(tvals s.curWave.loads).any (fun p => p.waitsOn pa) && !(s.core s.curWave.core).queued pa &&
      (match (s.cacheXlate s.curWave.core s.curWave.ctx a).readLine s.curWave.core s.curWave.ctx pa (s.lineUnits pa) s.plainClass with
      | .yes v u => v.bad.isEmpty && f u v.bytes
      | .notYet _ => false)
    | .error _ => false)

/-- The descriptor of one row of 64 bytes at 0x30000 to scratchpad 0, one tile, no flag (R216). -/
def windowRecord : List Byte :=
  leBytes 8 0x30000 ++ leBytes 4 64 ++ leBytes 2 1 ++ leBytes 2 1 ++ leBytes 16 0 ++ leBytes 4 0 ++ leBytes 4 1 ++ leBytes 4 0xFFFFFFFF ++ leBytes 20 0

/-- A wave whose window 15 is in a state. -/
def withWindow (st : WinState) : State :=
  { at_ (aWave .c false) with
    blocks := [(0, { size := 65536, waves := [0], windows := [(15, { st := st })], tiles := [(0, { engine := true, holder := .copy 15 })] })] }

theorem witness_WindowsComplete :
    (let s := withRecord (at_ (aWave .c false)) windowRecord
     blockIn s = true ∧ s.activeMask ≠ 0 ∧ ok s (.wbind 15 (.reg 2)) = true ∧ (s.curBlock.window 15).st = .free ∧
     reads s.begun (s.readS64 (.reg 2)) (fun x bs => (parseWindow bs).any (fun wd => decide (wd.dest + wd.tiles * 8192 ≤ s.curBlock.size) &&
       wd.flagAddr.isNone && wd.span == [0] && (x.gate 1 true false).isNone)) = true ∧ (s.curBlock.tile 0).engine = false) ∧
    ([.free, .absent, .inflight, .present, .stalled] : List WinState).all (fun st => let s := withWindow st
      ok s (.wtouch 15) && (s.curBlock.window 15).st == st && s.curWave.loads.isEmpty && !s.begun.acquiring s.begun.curWave && ok s (.wunbind 15) && ok s (.wstat (.reg 5) 15)) = true := by decide +kernel

/-- The descriptor of a gather of one index at 0x28000 from a table of 16 rows of 64 bytes at 0x30000 to scratchpad 0 (R231). -/
def gatherRecord : List Byte :=
  leBytes 8 0x28000 ++ leBytes 8 0x30000 ++ leBytes 8 0 ++ leBytes 4 16 ++ leBytes 2 1 ++ leBytes 2 0 ++ leBytes 2 64 ++ leBytes 2 0 ++
    leBytes 4 0 ++ leBytes 4 0xFFFFFFFF ++ leBytes 20 0

/-- Bins of which each holds a thread of another key. -/
def fullBins : Tbl Bin := (List.range 8).map (fun k => (k, { key := BitVec.ofNat 64 (0x30000 + 256 * k), threads := [(1, 2)] }))

theorem witness_GatherAndSpawnComplete :
    (let s := withRecord { at_ (aWave .c false) with blocks := [(0, { size := 65536, waves := [0], tiles := [(0, { engine := true })] })] } gatherRecord
     blockIn s = true ∧ s.activeMask ≠ 0 ∧ ok s (.gather (.reg 2)) = true ∧
     reads s.begun (s.readS64 (.reg 2)) (fun x bs => (parseGather bs).any (fun c => decide (c.spad + c.spanBytes ≤ s.curBlock.size) &&
       c.flagAddr.isNone && c.tiles == [0] && decide ((x.cluster 0).gather.length < 16))) = true ∧
     (s.curBlock.tile 0).engine = true ∧ (s.curBlock.tile 0).holder = .none ∧ s.curWave.loads = []) ∧
    (let s := at_ { aWave .c false with sregs := [(2, 0x30000), (3, 7)] }
     ok s (.spawn (.reg 2) (.reg 3)) = true ∧ s.activeMask ≠ 0 ∧ (s.readS64 (.reg 2)).toNat % 4 = 0 ∧ (s.readS64 (.reg 2)).toNat < 2 ^ 55 ∧
     (s.cluster 0).binFor 0x30000 0 (s.begun.binAwaited 0) = some 0 ∧ (s.curSplit.wait = none ∧ s.begun.gate 2 true false = none) ∧
     (let t := waiting s (.bin 4)
      ok t (.spawn (.reg 2) (.reg 3)) = true ∧ t.curSplit.wait = some (.bin 4) ∧ (tgetD (t.cluster 0).bins 4 {}).threads = [])) ∧
    (let s := { at_ { aWave .c false with sregs := [(2, 0x40000), (3, 7)] } with clusters := [(0, { owner := some 0, bins := fullBins })] }
     ok s (.spawn (.reg 2) (.reg 3)) = true ∧ (s.cluster 0).binFor (s.readS64 (.reg 2)) 0 (s.begun.binAwaited 0) = none ∧ (tget? (s.cluster 0).bins 7).isSome = true) := by
  decide +kernel

/-! Witnesses for decant counters, objects, the privileged instructions, and the ends of copies and gathers. -/

/-- A wave whose s2 holds 0x20000, s3 a count and s4 a CAP. -/
def counting (n : Nat) : State := at_ { aWave .c false with sregs := [(2, 0x20000), (3, BitVec.ofNat 64 n), (4, 0xFFFFFFFFFF)] }

/-- The record's address passes, and nothing is waited for before the operation. -/
def decantPasses (s : State) : Bool :=
  (match s.begun.decantCheck 0x20000 false with
    | .ok r => r == 0x20000
    | .error _ => false) && !s.begun.acquiring s.begun.curWave && s.begun.curWave.loads.isEmpty && (s.begun.gate 6 true false).isNone

/-- The decant instructions that wait for a slice, with their counts in s3. -/
def decantOps : List Instr := [.dctake (.reg 5) (.reg 2) (.reg 3), .dcgive (.reg 5) (.reg 2) (.reg 3), .dcread 5 (.reg 2), .dcreadx (.reg 5) (.reg 2),
  .dcdrop (.reg 5) (.reg 2)]

/-- The state with a live counter, its allowance in cluster 0's slice, and the record of its CAP. -/
def counted (n a : Nat) : State :=
  let s := counting n
  { s with
    mem := memPut s.mem 0x20000 (freshRecord 1000 100),
    clusters := [(0, { owner := some 0, allow := [(0x20000, { held := true, a := a })] }), (2, { counters := [(0x20000, {})] })] }

/-- The wave waits for operation 0, which stands as given. -/
def waitingDecant (x : DecantOp) : State := { waiting (counting 1) (.decant 0) with decants := [(0, x)] }

theorem witness_DecantInstructions :
    (let s := counting (2 ^ 48 - 1)
     ok s (.dcinit 4 (.reg 2) (.reg 3)) = true ∧ s.activeMask ≠ 0 ∧ decantPasses s = true ∧ (s.readS64 (.reg 3)).toNat < 2 ^ 48 ∧
     (s.curWave.sreg 4).toNat < 2 ^ 40 ∧ s.counter 0x20000 = none ∧ s.recordState 0x20000 = 0 ∧ (s.cluster (homeSlice 0x20000)).counters = [] ∧
     s.lineBusy 0x20000 = false ∧ (List.range 64).all (fun k => !s.deviceByte (0x20000 + k)) = true) ∧
    (let s := counting (2 ^ 48 - 1)
     decantOps.all (fun i => (decantRow s.begun i).any (fun r => r.1 == 0x20000 && r.2.2 < 2 ^ 48) && ok s i) = true ∧ s.curSplit.wait = none) ∧
    (let s := counted 10 90
     decantOps.all (fun i => (decantRow s.begun i).any (fun r => r.2.2 == 10 || r.2.2 == 0) && ok s i) = true ∧ decantPasses s = true ∧
     (s.allowance 0 0x20000).held = true ∧ (s.allowance 0 0x20000).waiters = [] ∧ (s.allowance 0 0x20000).a = 90 ∧ s.cap 0x20000 = 100 ∧
     s.net = [] ∧ (s.allowance 0 0x20000).later = [] ∧ s.counter 0x20000 = some {} ∧ (s.core s.curWave.core).queued 0x20000 = false) ∧
    ([{}, { done := true, lo := 5 }, { done := true, trap := some (0x13, 2) }] : List DecantOp).all (fun x =>
      decantOps.all (fun i => ok (waitingDecant x) i) && (waitingDecant x).curSplit.wait == some (.decant 0)) = true := by decide +kernel

/-- The shape of one row of 64 bytes at 0x30000 (R239). -/
def shapeRecord : List Byte :=
  leBytes 8 0x30000 ++ leBytes 2 64 ++ leBytes 2 1 ++ leBytes 2 1 ++ leBytes 2 1 ++ leBytes 24 0 ++ leBytes 2 1 ++ leBytes 2 64 ++ leBytes 2 1 ++
    leBytes 18 0

/-- A shape that reads from the record, with a test of the state after the read and the pages of its range. -/
def declares (s : State) (f : State → List ObjFrame → Bool) : Bool :=
  ok s (.objdecl (.reg 5) (.reg 2)) && s.activeMask != 0 && s.curSplit.wait.isNone &&
    reads s.begun (s.readS64 (.reg 2)) (fun x bs => (parseShape bs).any (fun sh => f x (x.framesOf 0 sh.range.1 sh.range.2)))

/-- A live object of a page. -/
def anObject : ObjEntry := { gen := 3, live := true, frames := [{ va := 0, leaf := 0x1F, size := 2 ^ 30, lo := 0x30000, hi := 0x30040 }] }

/-- Every object number is taken in stack 0. -/
def allTaken : Tbl ObjEntry := (List.range 4096).map (fun n => (n, anObject))

theorem allTaken_live (n : Nat) (h : n < 4096) : (tgetD allTaken n {}).live = true := by
  have key : ∀ (l : List Nat), n ∈ l → (tgetD (l.map (fun k => (k, anObject))) n {}).live = true := by
    intro l
    induction l with
    | nil => simp
    | cons x xs ih =>
      intro hm
      by_cases hx : x = n
      · subst hx
        simp [tgetD, tget?, anObject]
      · have := ih ((List.mem_cons.mp hm).resolve_left (fun e => hx e.symm))
        simpa [tgetD, tget?, hx] using this
  exact key _ (List.mem_range.mpr h)

theorem witness_ObjectsComplete :
    declares (withRecord (at_ (aWave .c false)) shapeRecord) (fun x fs => x.objectStacks fs == [0] && x.numberFree 0 0 &&
      !((tvals x.objects).any (fun o => o.live && o.frames.any (fun g => fs.any (framesMeet g)))) &&
      x.trackedUnits { frames := fs } == [] && !x.rangeBusy { frames := fs }) = true ∧
    declares (withRecord { at_ (aWave .c false) with objects := [(7, anObject)] } shapeRecord) (fun x fs => x.objectStacks fs == [0] && x.numberFree 0 0 &&
      (tvals x.objects).any (fun o => o.live && o.frames.any (fun g => fs.any (framesMeet g)))) = true ∧
    (let s := at_ { aWave .c false with sregs := [(2, 0x30007), (3, 0x40007)] }
     let t : State := { s with objects := [(7, anObject)] }
     ok t (.objdrop (.reg 2)) = true ∧ t.curSplit.wait = none ∧ (t.objectOf 0 7 3).isSome = true ∧ t.trackedUnits anObject = [] ∧ t.rangeBusy anObject = false ∧
     ok t (.objdrop (.reg 3)) = true ∧ t.objectOf 0 7 4 = none) := by decide +kernel

/-- With every number taken, none is free. -/
theorem witness_ObjectsComplete_full : let s : State := { withRecord (at_ (aWave .c false)) shapeRecord with objects := allTaken }
    declares s (fun x fs => x.objectStacks fs == [0] && x.objects == allTaken) = true ∧
    ∀ x : State, x.objects = allTaken → (List.range 4096).find? (fun n => ([0] : List Nat).all (fun k => x.numberFree k n)) = none := by
  refine ⟨by decide +kernel, fun x hx => List.find?_eq_none.mpr (fun n hn => ?_)⟩
  simp only [State.numberFree, hx, Nat.zero_mul, Nat.zero_add, List.all_cons, List.all_nil, allTaken_live n (List.mem_range.mp hn), Bool.not_true, Bool.false_and,
    Bool.false_eq_true, not_false_eq_true]

theorem witness_PrivilegedComplete :
    (let s := at_ { aWave .c true with sregs := [(2, 16), (3, 17)] }
     ([.crwr .sillage (.reg 2), .crwr .trapvec (.reg 2), .crwr .spawntmr (.reg 2), .crwr .ctxmode (.reg 2), .crwr .cring (.reg 2), .carve (.reg 5) (.reg 2),
       .carve (.reg 5) (.reg 3), .tlbinv (.reg 2) true, .icinv (.reg 2) false] : List Instr).all (ok s) = true ∧ s.activeMask ≠ 0 ∧ s.curSplit.wait = none ∧
     (tget? s.ctxs 0).isSome = true ∧ s.begun.gate 6 true true = none ∧ s.begun.enterCarve.gate 6 true true = none ∧ s.curCtx.carves = [] ∧ s.curCtx.carveBusy = false ∧ s.sliceQuiet 0 = true ∧ s.linesInWays 0 0 16 = [] ∧
     s.writingBack = false ∧ ok (waiting s .quiet) (.tlbinv (.reg 2) false) = true ∧ ok (waiting s .quiet) (.icinv (.reg 2) true) = true ∧
     (waiting s .quiet).curSplit.wait = some .quiet) ∧
    (let s := { waiting (at_ (aWave .c true)) (.hold 1 none) with clk := 2048 }
     s.accessesDone 0 1 = true ∧ (tget? s.curWave.splits 0).any (fun p => p.wait == some (.hold 1 none)) = true) ∧
    (let s := { waiting (at_ (aWave .c true)) (.hold 1 (some 0)) with clk := 2048 }
     s.accessesDone 0 1 = true ∧ (tget? s.curWave.splits 0).any (fun p => p.wait == some (.hold 1 (some 0))) = true ∧ 0 + 2048 ≤ s.clk) ∧
    (let s := waiting (inFlight (aWave .c true)) (.hold 1 none)
     s.accessesDone 0 1 = false ∧ (tget? s.curWave.splits 0).any (fun p => p.wait == some (.hold 1 none)) = true) := by decide +kernel

/-- A copy of one row of 64 bytes from an address to scratchpad 0, in flight. -/
def copying (va : Dword) : State :=
  let d : WinDesc := { base := va, rowb := 64, tiles := 1, flagAddr := some 0x1000, flagVal := 7 }
  { at_ { aWave .c false with engPending := 1 } with
    blocks := [(0, { waves := [0], windows := [(15, { st := .inflight, desc := d, targets := [0] })], tiles := [(0, { engine := true, holder := .copy 15 })], size := 65536 })] }

theorem witness_CopiesEnd :
    (let s := copying 0x30000
     s.copyReady 0 15 = true ∧ s.copyFault 0 15 = none ∧ ((s.block 0).window 15).bad = none ∧ ringSlot s 0 = none ∧ s.recordReady 0 0 0 = true ∧
     ((s.block 0).window 15).desc.span.contains 0 = true ∧ ((s.block 0).tile 0).holder = .copy 15 ∧ ((s.block 0).tile 0).count = 0) ∧
    (let s := { copying 0x30000 with ctxs := [(0, { aCtx with cring := 0x20006 })] }
     s.copyReady 0 15 = true ∧ s.copyFault 0 15 = none ∧ (ringSlot s 0).any (fun p => (s.counter (lineOf p)).isNone && p % 64 == 0) = true ∧
     s.recordReady 0 0 0 = true ∧ ({ s with cores := [(0, { wq := [(0, { pa := 0x20000, bytes := [1, 2, 3, 4] })] })] } : State).recordReady 0 0 1 = false) ∧
    (copying 0x80000000).copyReady 0 15 = true ∧ ((copying 0x80000000).copyFault 0 15).isSome = true ∧
    tget? (copying 0x80000000).waves 0 = some { aWave .c false with engPending := 1 } ∧
    ((copying 0x30000).block 0).windows.all (fun p => !(tgetD (copying 0x30000).waves p.2.starter {}).ended) = true := by decide +kernel

/-- A gather command of an operation from an index list, queued. -/
def gathering (op : GatherOp) (va : Dword) : State :=
  { at_ { aWave .c false with engPending := 1 } with
    blocks := [(0, { size := 65536, waves := [0], tiles := [(0, { engine := true, holder := .gather })] })],
    clusters := [(0, { owner := some 0, gather := [{ idx := va, table := 0x30000, offs := 0x28400, trows := 16, count := 2, nseg := 1, op := op }] })] }

theorem witness_GathersEnd :
    ([.gather, .bag, .scatter] : List GatherOp).all (fun op => let s := gathering op 0x28000
      (s.gatherDue 0).any (fun c => (tget? s.blocks c.block).any (fun y => y.ctx == c.ctx) && (s.gatherFault c).isNone &&
        (ringSlot s c.ctx).isNone && c.op == op && !(tgetD s.waves c.wave {}).ended && c.row.isEmpty && s.recordReady c.ctx 0 c.mark && s.holds c.block c.ctx)) = true ∧ ((gathering .scatter 0x28000).ctx 0).cring = 0 ∧
    ([.gather, .bag, .scatter] : List GatherOp).all (fun op => let s := gathering op 0x80000000
      (s.gatherDue 0).any (fun c => (s.gatherFault c).isSome)) = true := by decide +kernel

/-! Witnesses for messages. -/

/-- The state with a message, and no other, on its way. -/
def sent (s : State) (i : Instr) : State := { s with net := [i] }

/-- The message may arrive. -/
def arrives (s : State) (i : Instr) : Bool := (sent s i).net.find? (fun j => decantLane j == decantLane i) == some i && (sent s i).next? i

theorem witness_DecantMessages :
    (let s := counting 0
     ([.decantReq 0x20000 0 5 1, .decantGiveMsg 0x20000 0 5 0, .decantReadAtHome 0x20000 0 .exact 0] : List Instr).all (arrives s) = true ∧
     s.counter 0x20000 = none) ∧
    (let s := counted 0 0
     ([.decantReq 0x20000 0 5 1, .decantGiveMsg 0x20000 0 5 0, .decantReadAtHome 0x20000 0 .read 0, .decantReturn 0x20000 0 5, .decantAnswer 0x20000 0 5,
       .decantRecall 0x20000 0] : List Instr).all (arrives s) = true ∧
     s.counter 0x20000 = some {} ∧ s.reserve 0x20000 = 1000 ∧ s.keeps 0x20000 1000 (demand [] 0 5).length = true ∧
     s.keeps 0x20000 1000 (demand [] 0 1000).length = true ∧ s.keeps 0x20000 1005 0 = true ∧ (s.allowance 0 0x20000).held = true) ∧
    (let s := { counting 0 with clusters := [(0, { owner := some 0, allow := [(0x20000, { held := true })] })] }
     arrives s (.decantGrant 0x20000 0 5) = true ∧ (s.allowance 0 0x20000).held = true ∧ (s.allowance 0 0x20000).waiters = [] ∧ s.counter 0x20000 = none ∧
     arrives s (.decantRecall 0x30000 0) = true ∧ (s.allowance 0 0x30000).held = false) ∧
    (let s := { counting 0 with
       clusters := [(0, { owner := some 0, allow := [(0x20000, { waiters := [0], sum := 5 })] })], decants := [(0, { n := 3 }), (1, {})] }
     arrives s (.decantServe 0x20000 0 5) = true ∧ (s.allowance 0 0x20000).waiters = [0] ∧ (s.allowance 0 0x20000).sum ≤ 5 ∧
     (tget? s.decants 0).any (fun x => x.n ≤ 5) = true ∧ s.counter 0x20000 = none ∧
     ([0, 0x16, 4] : List Nat).all (fun dt => arrives s (.decantStatusReply 0x20000 0 1 7 8 dt)) = true ∧ (tget? s.decants 1).isSome = true ∧
     arrives s (.decantCdieLoss 0) = true) := by decide +kernel

/-- A core with one queued write. -/
def writing (line : Nat) : State :=
  { at_ (aWave .v false) with cores := [(0, { wq := [(0, { pa := line, bytes := [1, 2, 3, 4], wave := 0 })], nextWrite := 1 })] }

/-- A line whose home is another stack than stack 0. -/
def farLine : Nat := 0x2000000000

theorem witness_WritesAreVisible :
    (let s := { writing 0x20000 with offline := [homeStack 0x20000] }
     s.homeLost 0x20000 = true ∧ s.writeDropped 0 0 = false ∧ tget? s.waves 0 = some (aWave .v false) ∧ (aWave .v false).ended = false) ∧
    (let s := writing 0x20000
     s.homeLost 0x20000 = false ∧ s.converting 0x20000 = false ∧ s.homeHeld 0x20000 = false ∧ s.tagFull 0 0x20000 [0x20000] = none ∧
     s.unitsAt 0x20000 4 = [0x20000] ∧ s.ownerStack 0x20000 = 0 ∧ stackOf 0 = 0 ∧ s.ownerReady 0x20000 = true ∧ s.ownerClear 0 0x20000 = true ∧
     s.counter 0x20000 = none ∧ (tget? (s.core 0).wq 0).isSome = true ∧ (s.core 0).wq.length = 1 ∧
     (List.range 4).all (fun i => !s.deviceByte (0x20000 + i)) = true) ∧
    (let s := writing farLine
     s.homeLost farLine = false ∧ s.converting farLine = false ∧ s.homeHeld farLine = false ∧ s.tagFull 0 farLine (s.unitsAt farLine 4) = none ∧ s.counter farLine = none ∧
     0 < s.cacheWays (clusterOf 0) ∧ (s.unitsAt farLine 4).find? (fun j => s.ownerStack j ≠ 0) = some farLine ∧ s.asked farLine 0 = false) ∧
    ([5, 6] : List Nat).all (fun l => let s := { sent (writing 0x20000) (.pack 0 0 l) with cores := [(0, { outs := [(0, { line := 0x20000 })] })] }
      s.next? (.pack 0 0 l) && (tget? (s.core 0).outs 0).any (fun o => max o.level l == l)) = true ∧
    (sent cached (.inv 0x20000 0 1)).next? (.inv 0x20000 0 1) = true ∧ (sent cached (.iack 0x20000 0)).next? (.iack 0x20000 0) = true := by decide +kernel

/-- A state in which stack 4 shares the line at 0x20000, stack 0's own, and one in which it owns it. -/
def shared : State := { inMem .v with homes := [(0x20000, { xi := true })] }
def ownedFar : State := { inMem .v with
  homes := [(0x20000, { owned := true, owner := 4 })], stackTbl := [(4, { lines := [(0x20000, { slice := 128, parts := [(0x20000, { st := .e })] })] })] }

/-- The entry of the line at 0x20000 can serve stack 5. -/
def serves (s : State) : Bool :=
  s.unitValid 0x20000 && !s.unitLost 0x20000 && s.ownerStack 0x20000 != 5 && s.ownerReady 0x20000 && (s.homeEntry 0x20000).xpub.isNone &&
    !s.unitHeld 0x20000 && (s.unitLines 0x20000).all s.dramClear

theorem witness_LineTransfers :
    ([inMem .v, shared, ownedFar] : List State).all (fun s => ([.gets 0x20000 5 1280, .getx 0x20000 5 1280] : List Instr).all (fun i =>
      serves (sent s i) && (sent s i).next? i && (sent s i).waiting.isEmpty)) = true ∧
    (inMem .v).ownerStack 0x20000 = homeStack 0x20000 ∧ ownedFar.ownerStack 0x20000 ≠ homeStack 0x20000 ∧
    (let s := { inMem .v with clusters := [(160, { owner := some 0 })] }
     serves (sent s (.gets 0x20000 5 1280)) = true ∧ (sent s (.gets 0x20000 5 1280)).next? (.gets 0x20000 5 1280) = true ∧
       (s.homeEntry 0x20000).sharers 0x20000 = [] ∧ s.holdsUnit 0 0x20000 = false ∧ 0 < s.cacheWays (clusterOf 1280)) ∧
    (shared.homeEntry 0x20000).sharers 0x20000 = [4, 5, 6, 7] ∧
    (sent ownedFar (.fwd 0x20000 4 1024 true)).next? (.fwd 0x20000 4 1024 true) = true ∧
    (let i : Instr := .data 0x20000 4 1024 false (List.replicate 64 9)
     let s := sent shared i
     s.next? i = true ∧ s.unitValid 0x20000 = true ∧ isTile 0x20000 = false ∧ s.dead.contains (dieOf 1024) = false ∧ s.ownerStack 0x20000 ≠ 4 ∧
       (s.homeEntry 0x20000).shares 0x20000 4 = true ∧ (s.homeEntry 0x20000).cut.contains 4 = false ∧
       ({ s with cores := [(1024, { l1 := [(0x20000, {})] })] } : State).wantsLine 1024 0x20000 = true) ∧
    (let s := sent ownedFar (.wb 0x20000 4)
     s.next? (.wb 0x20000 4) = true ∧ s.tagged 0x20000 = false ∧ (s.homeEntry 0x20000).owned = true ∧ (s.homeEntry 0x20000).owner = 4) ∧
    ([3, 6] : List Nat).all (fun l => let s := sent shared (.xpub 0x20000 0 l)
      s.next? (.xpub 0x20000 0 l) && s.ownerReady 0x20000 && (s.homeEntry 0x20000).xpub.isNone &&
        (((s.homeEntry 0x20000).sharers 0x20000).filter (fun y => y != 0 && (6 ≤ l || y / 4 == 0))).isEmpty == (l == 3)) = true ∧
    (let s := { sent shared (.xinv 0x20000 4) with stackTbl := [(4, { lines := [(0x20000, { slice := 128, parts := [(0x20000, { st := .s })] })] })] }
     s.next? (.xinv 0x20000 4) = true ∧ (s.partAt 4 0x20000).any (fun p => p.st.owns) = false) ∧
    (let s := { sent shared (.xack 0x20000 4) with homes := [(0x20000, { xpub := some (0, 6), waitX := [4], cut := [4] })] }
     s.next? (.xack 0x20000 4) = true ∧ (s.homeEntry 0x20000).xpub = some (0, 6) ∧ (s.homeEntry 0x20000).waitX = [4] ∧
       (s.homeEntry 0x20000).cut = [4]) ∧
    (sent shared (.xdone 0x20000 0 6)).next? (.xdone 0x20000 0 6) = true := by decide +kernel

theorem witness_ForcedPublishes :
    (let s := sent (inMem .v) (.fpub 256 3 6 0)
     s.next? (.fpub 256 3 6 0) = true ∧ s.dead.contains (dieOf 256) = false ∧
       ({ s with dead := [dieOf 256] } : State).dead.contains (dieOf 256) = true ∧ ({ s with dead := [dieOf 256] } : State).next? (.fpub 256 3 6 0) = true) ∧
    (let s := { sent (inMem .v) (.fack 256 3 6 0) with cores := [(0, { deps := [{ core := 256, epoch := 3 }] })] }
     s.next? (.fack 256 3 6 0) = true ∧ s.dead.contains (dieOf 256) = false ∧ (s.core 0).deps.length = 1) ∧
    (let s := { inMem .v with clk := 65535 * 256 }
     (s.core 0).base + 65535 ≤ s.coreTick 0 ∧ (s.cluster 0).base + 65535 ≤ s.tickOf 0) ∧
    (inMem .v).tickOf 0 < ((inMem .v).cluster 0).base + 65535 ∧ (inMem .v).coreTick 0 < ((inMem .v).core 0).base + 65535 := by decide +kernel

/-! Witnesses for the events of waves, launches and translation. -/

/-- A second wave of the same partition, ready and not active. -/
def pair : State :=
  let a := { aWave .v false with splits := [(0, { here with wait := some .retry, opc := 0xA0 })] }
  let b := { aWave .v false with active := false }
  { at_ a with waves := [(0, a), (1, b)], nextWave := 2, clk := 16 }

/-- A context that is being saved. -/
def savingCtx : Context := { aCtx with phase := .saving }

/-- A bin of a key that starts, with some threads. -/
def starting (n : Nat) : State :=
  { at_ (aWave .c false) with clusters := [(0, { owner := some 0, bins := [(5, { key := 0x7000000030000, launching := true, threads := List.replicate n (1, 2) })] })] }

theorem witness_WaveLifeEvents :
    (let w := { crowded.curWave with passes := 4 }
     w.rotateDue = true ∧ w.deferred.length = 8 ∧ (tget? w.splits w.passSlot).any (fun sp => w.deferred.tail.all (fun e => e.pos != sp.pos || e.begun)) = true) ∧
    (let w := { crowded.curWave with passes := 4, deferred := [{ pos := 0x11000, mask := 0x80 }, { pos := 0x10000, mask := 0x100 }] }
     w.rotateDue = true ∧ (tget? w.splits w.passSlot).any (fun sp => !sp.begun && w.deferred.tail.findIdx? (fun e => e.pos == sp.pos && !e.begun) == some 0) = true) ∧
    (let s := { at_ (aWave .v true) with clk := 15000, ctxs := [(0, savingCtx)] }
     (s.ctx 0).phase = .saving ∧ (aWave .v true).completing = false ∧ (s.ctx 0).preemptAt + 15000 ≤ s.clk) ∧
    (let s := pair
     s.stands 0 = true ∧ (tget? s.waves 0).any s.stoodStalled = true ∧ (tget? s.waves 1).any s.readyLongest = true) ∧
    (let w := { aWave .v false with splits := [], retired := full }
     (at_ w).over 0 w = true ∧ (at_ w).stands 0 = true ∧ (tget? (at_ w).blocks 0).any (fun x => x.waves.all (fun v => v == 0)) = true ∧
     ({ size := 65536, waves := [0, 1] } : Block).waves.all (fun v => v == 0) = false) ∧
    ([1, 32] : List Nat).all (fun n => let s := starting n
      let b := tgetD (s.cluster 0).bins 5 {}
      b.launching && !b.threads.isEmpty && decide (b.threads.length ≤ 32) && (s.ctx b.ctx).phase == .running &&
        (s.spawnPlace 0).any (fun p => decide (16 * (b.key.toNat / 2 ^ 52 % 8 + 1) ≤ p.1) && (s.depWait p.2.1 (s.spawnDeps p.2.1 b)).isNone)) = true ∧
    ([[], [3]] : List (List Nat)).all (fun r => let s : State := { State.reset with clusters := [(2, { retired := r })] }
      !(s.cluster 2).retired.contains 8 && (s.cluster 2).owner.isNone && !(s.cluster 2).withdrawn && s.retiring.isEmpty) = true ∧
    (let s := { at_ (aWave .v false) with retiring := [(0, 3)] }
     (s.cluster 0).owner = some 0 ∧ (s.cluster 0).withdrawn = false ∧ (s.cluster 0).retired = [] ∧ s.retiring.contains (0, 8) = false ∧
       tget? s.ctxs 0 = some aCtx ∧ aCtx.phase = .running) := by decide +kernel

/-- A code line of zeros at 0x20000 with its tag at 0x28000, in the image of object 0. -/
def coded (tag : List Byte) : State :=
  let o : CodeObj := { images := [{ base := 0x20000, size := 4096, tagAddr := 0x28000 }], nfunc := 2, xltab := 0x30000, tcode := 0x34000, tsize := 4096, ttag := 0x38000 }
  let s := at_ (aWave .v false)
  { s with ctxs := [(0, { aCtx with objs := [(0, o)] })], mem := memPut s.mem 0x28000 tag }

/-- A launch that is pending in queue 3, ready or not. -/
def pending (l : Launch) (skips : Nat) : State :=
  { at_ (aWave .v false) with ctxs := [(0, { aCtx with queues := [(3, { pending := [9], skips := skips })] })], launches := [(9, l)] }

/-- A round keeps the 25 lanes. -/
theorem keccakRound_length (a : List Dword) (rc : Dword) : (keccakRound a rc).length = 25 := by
  unfold keccakRound
  extract_lets _ _ _ _ _ e
  have he : e.length = 25 := by simp [e]
  match hx : e, he with
  | x :: xs, he => simpa using he

theorem keccakF_length (a : List Dword) (h : a.length = 25) : (keccakF a).length = 25 := by
  unfold keccakF
  generalize keccakRounds = l
  induction l generalizing a with
  | nil => simpa using h
  | cons x xs ih => exact ih _ (keccakRound_length a x)

theorem absorbAll_length (n : Nat) (a : List Dword) (bs : List Byte) (h : a.length = 25) : (absorbAll n a bs).length = 25 := by
  induction n generalizing a bs with
  | zero => simpa [absorbAll] using h
  | succ n ih => exact ih _ _ (keccakF_length _ (by simp))

/-- A tag has 8 bytes. -/
theorem frameTag_length (k : BitVec 256) (p : List Byte) (custom : String) : (frameTag k p custom).length = 8 := by
  simp only [frameTag, tag64, kmac128, cshake128, List.length_take, List.length_flatMap, leBytes_length, List.map_const', List.sum_replicate,
    absorbAll_length _ _ _ (List.length_replicate ..)]
  rfl

/-- A frame of a type, of one record, with sequence number 1 and a tag. -/
def frameOf (ft : Byte) (tag rcd : List Byte) : List Byte := leBytes 4 0x1A4C0002 ++ [1, 0, 1, ft] ++ leBytes 8 1 ++ tag ++ leBytes 40 0 ++ rcd

/-- Its type, its context and its sequence number. -/
theorem frameOf_type (ft : Byte) (tag rcd : List Byte) : recField (frameOf ft tag rcd) 7 1 = ft.toNat ∧ recField (frameOf ft tag rcd) 5 1 = 0 ∧
    recField (frameOf ft tag rcd) 8 8 = 1 := by
  simp [frameOf, recField, leBytes, leNat]

/-- A frame that carries its own tag is accepted as the first of its sequence. -/
theorem frame_accepted (k : BitVec 256) (custom : String) (ft : Byte) (hf : ft.toNat < 2) (rcd : List Byte) (hr : rcd.length = 128) :
    frameRefused (frameOf ft (frameTag k (frameOf ft (List.replicate 8 0) rcd) custom) rcd) (some k) custom 0 [] = none := by
  generalize ht : frameTag k (frameOf ft (List.replicate 8 0) rcd) custom = t
  have hl : t.length = 8 := by rw [← ht, frameTag_length]
  match t, hl with
  | [b0, b1, b2, b3, b4, b5, b6, b7], _ =>
    have hb : frameBad (frameOf ft [b0, b1, b2, b3, b4, b5, b6, b7] rcd) = false := by
      simp [frameBad, frameOf, recField, leBytes, leNat, hr]
      omega
    have hs : recField (frameOf ft [b0, b1, b2, b3, b4, b5, b6, b7] rcd) 8 8 = 1 := by
      exact (frameOf_type _ _ _).2.2
    have htag : frameTag k (frameOf ft [b0, b1, b2, b3, b4, b5, b6, b7] rcd) custom = [b0, b1, b2, b3, b4, b5, b6, b7] := by
      refine Eq.trans ?_ ht
      simp [frameTag, frameOf, leBytes]
    have hd : ((frameOf ft [b0, b1, b2, b3, b4, b5, b6, b7] rcd).drop 16).take 8 = [b0, b1, b2, b3, b4, b5, b6, b7] := by
      simp [frameOf, leBytes]
    simp [frameRefused, hb, hs, htag, hd]

/-- A placed access of an engine. -/
def placesAt (s : State) (va : Dword) (a : Access) (pa : Nat) : Bool :=
  match s.enginePlace 0 va a with
  | .ok p => p == pa && p % 8 == 0 && !s.poisonedAt p && (s.counter (lineOf p)).isNone && (List.range 8).all (fun i => !s.deviceByte (p + i))
  | .error _ => false

/-- The two lines of the fill of a code line at its own address are at hand, and the check answers. -/
def filled (s : State) (line : Nat) : Option Bool :=
  match s.enginePlace 0 (BitVec.ofNat 64 line) .fetch with
  | .error _ => none
  | .ok pa => match s.fillLines 0 0 pa with
    | (_, none) => none
    | (v, some vs) => match v.fillCheck 0 (BitVec.ofNat 64 line) vs with
      | .ok _ => some true
      | .error _ => some false

theorem witness_LaunchAndTranslation :
    (let l : Launch := { wait0 := 0x20000, wval0 := 1 }
     let s := pending l 0
     ((s.ctx 0).queue 3).pending = [9] ∧ (s.waitLines (s.launch 9)).any s.homeWaits = false ∧ (s.launch 9).ready = false ∧ (s.launch 9).failed = false ∧ (tget? s.launches 9).isSome = true ∧
       (s.waitLines l).flatMap s.tagsOf = [] ∧ s.waits l = .waiting ∧
     (let t := { s with mem := memPut s.mem 0x20000 [1] }
      (t.waitLines l).flatMap t.tagsOf = [] ∧ t.waits l = .ready) ∧
     (let t := { s with mem := memPut s.mem 0x20007 [0x80] }
      (t.waitLines l).flatMap t.tagsOf = [] ∧ t.waits l = .failed) ∧
     (let t := { s with clusters := [(homeSlice 0x20000, { tags := [{ line := 0x20000, core := 5 }] })] }
      (t.waitLines l).flatMap t.tagsOf ≠ [])) ∧
    (let s := pending { ready := true } 64
     s.readyHead 0 3 = some 9 ∧ ((s.ctx 0).queue 3).skips = 64 ∧ ((s.ctx 0).queue 3).reserving = none) ∧
    (let l : Launch := { started := 1, notice := 5 }
     let s := { pending l 0 with ctxs := [(0, { aCtx with noticeQp := some 1 })] }
     tget? s.launches 9 = some l ∧ s.launchOver 9 = true ∧ (s.ctx l.ctx).noticeQp = some 1 ∧ s.nd.qpError.contains 1 = false ∧ s.shownCtx l.ctx 0 = true ∧
       (let t := { s with cores := [(0, { wq := [(0, { pa := 0x20000, bytes := [1, 2, 3, 4] })] })] }
        t.launchOver 9 = true ∧ t.shownCtx l.ctx 0 = false)) ∧
    (let l : Launch := { started := 1, signal := 0x30000 }
     let s := pending l 0
     s.launchOver 9 = true ∧ s.shownCtx 0 0 = true ∧ s.signalWaits l = false ∧ placesAt s l.signal .rmw 0x30000 = true) ∧
    (let s := at_ (aWave .v false)
     s.portUp = true ∧ recField (frameOf 0 [] []) 7 1 ≠ 1 ∧ (frameRefused (frameOf 0 [] []) none "ILRUS-LAUNCH" 0 []).isSome = true) ∧
    (let i : Instr := .translationRequest 7 0 0x30020 7
     let s := sent (coded []) i
     s.next? i = true ∧ s.homeWaits 0x30000 = false ∧ placesAt (arrived s i) 0x30020 .rmw 0x30020 = true) ∧
    (let s := { coded [] with mem := memPut (coded []).mem 0x30020 (leBytes 8 0x101) }
     placesAt s 0x30020 .rmw 0x30020 = true ∧ memNat s.mem 0x30020 8 % 4 = 1 ∧ s.dead = [] ∧ s.homeWaits 0x30000 = false ∧
       ((s.ctx 0).recordOwner 0x30020).any (fun o => (s.cachePlace 0 o.2).any (fun p => !s.homeWaits (lineOf p))) = true) ∧
    (let i : Instr := .icacheFill 0 0 0x20000 0
     let s := sent (coded (List.replicate 8 0)) i
     s.next? i = true ∧ (s.ctx 0).carveBusy = false ∧ (arrived s i).engineWaits 0 0 .fetch [0x20000] = false ∧ filled (arrived s i) 0x20000 = some false ∧
       ({ s with ctxs := [(0, { aCtx with carveBusy := true, carves := [0] })] } : State).next? i = true) ∧
    (match (at_ (aWave .v false)).enginePlace 0 0x80000000 .fetch with
      | .ok _ => false
      | .error _ => true) = true := by decide +kernel

/-- The unit that queue 3 would reserve. -/
theorem witness_LaunchAndTranslation_reserve : ((pending { ready := true } 64).reserveUnit 0 { ready := true }).isSome = true := by decide +kernel

/-- The tag of the code line of zeros at 0x20000 under the zero key. -/
def zeroTag : List Byte := codeTag 0 0x20000 (List.replicate 128 0)

theorem witness_LaunchAndTranslation_fill : filled (coded zeroTag) 0x20000 = some true := by decide +kernel

/-- A launch frame of one record of zeros is accepted. -/
theorem witness_LaunchAndTranslation_frame : (at_ (aWave .v false)).portUp = true ∧ tget? (at_ (aWave .v false)).ctxs 0 = some aCtx ∧
    ∃ p, recField p 7 1 ≠ 1 ∧ recField p 5 1 = 0 ∧ frameRefused p (some aCtx.launchKey) "ILRUS-LAUNCH" aCtx.lastSeq aCtx.acks = none := by
  exact ⟨rfl, rfl, _, by simp [frameOf_type], (frameOf_type _ _ _).2.1, frame_accepted 0 "ILRUS-LAUNCH" 0 (by decide) (List.replicate 128 0) rfl⟩

/-- A translation of one instruction word. -/
def translated : Translated := { bytes := [0, 0, 0, 0], entry := 0, map := [(0, 0)], accords := [] }

/-- The code object with a Bintodal NOP in its function. -/
def nopCoded : State := { coded [] with mem := memPut (coded []).mem 0x20000 (leBytes 8 0x0100000000000000) }

theorem witness_LaunchAndTranslation_place : ((nopCoded.ctx 0).recordOwner 0x30020).any (fun o =>
    let im := o.2.images.getD 0 {}
    let f := (0x30020 - o.2.xltab.toNat) / 32
    nopCoded.cachePlace 0 o.2 == some 0x34000 && nopCoded.functionWords 0 im f == some [(0, 0x0100000000000000)] &&
      legalResult translated im [(0, 0x0100000000000000)] f (o.2.tcode.toNat + (nopCoded.codeCache 0 o.2).nextFree) &&
      (nopCoded.placeCode 0 0x30020 o.2 translated).any (fun u => (u.counter (lineOf 0x30020)).isNone && (List.range 8).all (fun i =>
        !u.deviceByte (0x30020 + i)))) = true := by decide +kernel

/-! Witnesses for the management path, the fabric, the port, reliability and power. -/

/-- The package with context 5 in a phase, with a code object at 0x7000. -/
def inPhase (p : CtxPhase) : State :=
  { State.reset with
    ctxs := [(5, { aCtx with phase := p, clusters := [0], heldBy := [], objs := [(3, { va := 0x7000 })] })],
    clusters := if p == .saved then [] else [(0, { owner := some 5 })] }

theorem witness_ContextCommands :
    (let s := State.reset
     s.portUp = true ∧ s.nd.job = none ∧ s.hasCtx 63 = false ∧ ([0, 255] : List Nat).all (fun g => decide (g < 256) && (s.cluster g).owner.isNone && !s.unusable g) = true ∧
     (0x40000000 % 65536 = 0 ∧ isDram 0x40000000 = true) ∧ (0x50000000 % 4096 = 0 ∧ isDram 0x50000000 = true) ∧
     isDram (0x50000000 + (65536 + 39124992 * 2) - 1) = true ∧ homeDie 0x50000000 = homeDie (0x50000000 + (65536 + 39124992 * 2) - 1)) ∧
    ([.running, .saving, .saved, .restoring] : List CtxPhase).all (fun p => let s := inPhase p
      s.portUp && s.nd.job.isNone && (tget? s.ctxs 5).any (fun c => c.phase == p && (c.objectAt 0x7000).isSome)) = true ∧
    (let s := inPhase .saved
     s.saveHeld 5 = false ∧ ([([7], [7]), ([0], [0]), ([], [0])] : List (List Nat × List Nat)).all (fun x => (s.resumePlan 5 x.1).any (fun p =>
       p.clusters == x.2 && p.clusters.all (fun g => !s.unusable g && (s.cluster g).owner.isNone))) = true ∧ s.resumePlan 5 [7, 8] = none) ∧
    (let s := { State.reset with
       ctxs := [(5, { aCtx with phase := .saved, clusters := [0, 1] })], clusters := [(0, { withdrawn := true, retired := [1, 2] })],
       blocks := [(0, { ctx := 5, size := 8192 })] }
     s.homeless 5 = [0] ∧ s.saveHeld 5 = false ∧ (s.resumePlan 5 []).any (fun p => p.clusters == [1] && p.pieces.core (some 0) 0 == 8 &&
       p.clusters.all (fun g => !s.unusable g && (s.cluster g).owner.isNone)) = true) := by decide +kernel

/-- A management record that does nothing there is: code 0. -/
def noRecord : List Byte := List.replicate 128 0
/-- A record that sets the cap to 1,000 W, and one that pre-empts context 0. -/
def capRecord : List Byte := [0x09] ++ List.replicate 7 0 ++ leBytes 2 1000 ++ List.replicate 118 0
def preemptRecord : List Byte := [0x03] ++ List.replicate 127 0

/-- The frame's record, at its place. -/
theorem frameOf_record (ft : Byte) (tag rcd : List Byte) (ht : tag.length = 8) (hr : rcd.length = 128) :
    frameEntries (frameOf ft tag rcd) = 1 ∧ frameRecord (frameOf ft tag rcd) 0 = rcd := by
  match tag, ht with
  | [b0, b1, b2, b3, b4, b5, b6, b7], _ =>
    constructor
    · simp [frameEntries, frameOf, leBytes, hr]
    · simp [frameRecord, frameOf, leBytes, List.take_of_length_le (Nat.le_of_eq hr)]

/-- A management frame of any record is accepted as the first. -/
theorem mgmt_frame (rcd : List Byte) (hr : rcd.length = 128) : ∃ p, recField p 7 1 = 1 ∧ recField p 5 1 = 0 ∧ recField p 8 8 = 1 ∧
    frameRefused p (some State.reset.nd.mgmtKey) "ILRUS-MGMT" State.reset.nd.lastSeq State.reset.nd.acks = none ∧ frameEntries p = 1 ∧ frameRecord p 0 = rcd := by
  refine ⟨_, ?_, (frameOf_type _ _ _).2.1, (frameOf_type _ _ _).2.2, frame_accepted State.reset.nd.mgmtKey "ILRUS-MGMT" 1 (by decide) rcd hr,
    frameOf_record _ _ _ (frameTag_length _ _ _) hr⟩
  simp [frameOf_type]

theorem witness_PackageCommands :
    (State.reset.portUp = true ∧ State.reset.nd.job = none ∧ State.reset.nd.frames = [] ∧ State.reset.nd.svn ≤ 255 ∧ (State.reset.askReset 15).isSome = true ∧
      ([0, 15, 0x20, 0x27, 0x30] : List Nat).all dryUnit = true ∧ State.reset.nd.bootFailed = false) ∧
    (∃ p, recField p 7 1 = 1 ∧ (frameRefused p (some State.reset.nd.mgmtKey) "ILRUS-MGMT" 0 []).isSome = true) ∧
    (let s := { at_ (aWave .v false) with nd := { State.reset.nd with lastSeq := 1 } }
     s.performRecord ⟨7, 1, 0⟩ noRecord = none ∧ (s.performRecord ⟨7, 1, 0⟩ capRecord).any (fun d => d.waits.isNone) = true ∧
     (s.performRecord ⟨7, 1, 0⟩ preemptRecord).any (fun d => d.waits.any (fun w => !d.state.waitOver w)) = true) ∧
    (noRecord.length = 128 ∧ capRecord.length = 128 ∧ preemptRecord.length = 128) :=
  ⟨by decide +kernel, ⟨frameOf 1 [] [], by simp [frameOf_type], by decide +kernel⟩, by decide +kernel, by decide +kernel⟩

/-- A core with a queued write, entered at clk 0, to home 2; the source of its writes is 0, of its loads 2048. -/
def unansweredState (rounds : List Nat) (clk : Nat) : State :=
  { writing 0x20000 with clk := clk, fabric := { resend := [(2, ⟨rounds⟩)] } }

theorem witness_FabricEvents :
    ([.elevator 7 31, .port 0 0] : List Element).all (fun e => let s := State.reset
      elementValid e && s.fabric.works e && !s.fabric.down.contains e && !s.fabric.off.contains e) = true ∧
    (let s : State := { State.reset with fabric := { down := [.port 0 0] } }
     s.cutOff = []) ∧
    (let f : Fabric := { around := [.elevator 7 31], rewriteBy := [(.port 0 0, 2000)] }
     f.around.contains (.elevator 7 31) = true ∧ f.rewriteBy.any (fun p => p.1 == .port 0 0) = true) ∧
    ([([], 2047), ([], 2048), ([.iack 0x20000 0], 2048)] : List (List Instr × Nat)).all (fun x =>
      let s : State := { State.reset with clk := x.2, fabric := { leaving := [⟨.port 0 0, 0, x.1⟩] } }
      decide (s.fabric.leaving.length = 1)) = true ∧
    ([([], 1023), ([], 1024), ([1, 1, 1, 1, 1, 1, 1], 1025), ([1, 1, 1, 1, 1, 1, 1, 1], 1025)] : List (List Nat × Nat)).all (fun x =>
      (unansweredState x.1 x.2).unanswered 0 2 == [0]) = true ∧ (inFlight (aWave .v false)).unanswered 2048 2 = [0] ∧
    (let s : State := { State.reset with fabric := { filters := [(2048 * 256 + 2, { expect := 65535, responses := [(65534, [1])] })] } }
     ([.read 0x20000 64, .write 0x20020 (List.replicate 32 1), .add 0x20038 8 5] : List FabRequest).all (fun r =>
       s.requestDue 2 r && (s.counter (lineOf (requestAddr r))).isNone && s.ctxs.isEmpty && (s.core 0).wq.isEmpty) = true ∧
     (s.filter 2048 2).expect = 65535 ∧ (s.filter 2048 2).buffer = [] ∧ (62 + 2 ^ 16 - 65535) % 2 ^ 16 = 63 ∧ (65534 + 2 ^ 16 - 65535) % 2 ^ 16 = 2 ^ 16 - 1 ∧
     (s.filter 2048 2).responses.find? (fun p => p.1 = 65534) = some (65534, [1])) := by decide +kernel

/-- Region 0 of context 0 from address 0x20000, of 0x1000 bytes, for every access, with key 7. -/
def withRegion : State :=
  { at_ (aWave .v false) with nd := { State.reset.nd with regions := [(0, BitVec.ofNat 192 (15 + 7 * 2 ^ 16 + 0x20000 * 2 ^ 64 + 0x1000 * 2 ^ 128))] } }

/-- A remote access is allowed, to a line that nothing holds. -/
def remoteOk (va : Dword) (n bit : Nat) (a : Access) : Bool :=
  match withRegion.checkRemote 7 bit va n a with
  | .ok ps => !ps.isEmpty && !withRegion.partsHeld ps && ps.all (fun p => (withRegion.counter (lineOf p.1)).isNone &&
      (List.range 16).all (fun i => !withRegion.deviceByte (p.1 + i)))
  | .error _ => false

theorem witness_PortEvents :
    withRegion.portUp = true ∧ withRegion.qpUp 4095 = true ∧ withRegion.nd.holds (.roceAck 1) = false ∧
    ([] : List Byte).length ≤ 9216 ∧ 9216 < (List.replicate 9217 (0 : Byte)).length ∧ remoteOk 0x20FF0 16 2 .write = true ∧ remoteOk 0x2003F 2 1 .read = true ∧
    remoteOk 0x20008 8 3 .rmw = true ∧ withRegion.nd.qpError.contains 4095 = false ∧
    (match withRegion.checkRemote 7 2 0x20FF1 16 .write with
      | .error k => k == 0
      | .ok _ => false) = true ∧
    (match withRegion.checkRemote 7 3 0x20004 8 .rmw with
      | .error k => k == 1
      | .ok _ => false) = true ∧
    (match withRegion.checkRemote 8 1 0x20000 8 .read with
      | .error k => k == 0
      | .ok _ => false) = true := by decide +kernel

/-- With every priority paused, a frame waits. -/
theorem witness_PortEvents_held : ({ withRegion.nd with paused := List.range 8 } : NDie).holds (.roceAck 1) = true := by
  simp [NDie.holds, Out.traffic]

/-- Die 3's warm reset, so many steps done. -/
def resetting (k : Nat) : State :=
  { State.reset with resets := [(3, k)], offline := if 3 ≤ k then [3] else [], clusters := [(48, { owner := if k = 0 then none else some 0 })] }

theorem witness_ReliabilityEvents :
    (let s := { at_ (aWave .v false) with clusters := [(0, { owner := some 0, tags := [{ line := 0x20000, core := 5 }] })] }
     s.dead.contains 0 = false ∧ s.lostStacks.contains 7 = false ∧ s.resetQueue = [] ∧ s.ctxs.all (fun p => p.2.heldBy.isEmpty) = true ∧ s.dead.contains 15 = false) ∧
    ({ State.reset with dead := [15] } : State).dead.contains 15 = true ∧ ({ State.reset with lostStacks := [7] } : State).lostStacks.contains 7 = true ∧ tget? ({ State.reset with rebuilding := [(15, 3)] } : State).rebuilding 15 = some 3 ∧
    (let s : State := { State.reset with dead := [14], missed := [(15, 2)] }
     s.dead.contains (2 * 7) = true ∧ ([] : List Nat).contains (2 * 7 + 1) = false ∧ 2 ≤ tgetD s.missed (2 * 7 + 1) 0) ∧
    (tgetD ({ State.reset with missed := [(15, 1)] } : State).missed 15 0 < 2) ∧
    (State.reset.askReset 16 = none ∧ tget? State.reset.resets 2 = none ∧ State.reset.resetQueue.contains 2 = false ∧ tget? State.reset.resets (mateOf 2) = none ∧
      (tget? (resetting 0).resets (mateOf 2)).isSome = true) ∧
    (let s := { State.reset with resets := [(3, 0)], clusters := [(48, { owner := some 0 })] }
     (dieClusters 3).any (fun g => (s.cluster g).owner.isSome) = true) ∧
    (dieClusters 3).all (fun g => ((resetting 0).cluster g).owner.isNone) = true ∧ (resetting 0).portsQuiet 3 = false ∧
    ({ resetting 0 with fabric := { off := diePorts 3 } } : State).portsQuiet 3 = true ∧
    ([0, 1, 2, 3, 4, 5] : List Nat).all (fun k => tget? (resetting k).resets 3 == some k && (resetting k).resetQueue.isEmpty && (resetting k).ctxs.isEmpty) = true ∧
    (State.reset.ownerPart 0x20000 = none ∧ State.reset.ownerReady (State.reset.unitAt 0x20000) = true ∧ homeDie 0x20000 = 0 ∧ isDram 0x20000 = true ∧
      ownedFar.ownerPart 0x20000 = some .e) := by decide +kernel

/-- Readings that put unit 9 above its limit, at rest, and between. -/
def readings (milliwatts : Nat) : PowerReadings := ⟨[(9, milliwatts)]⟩

/-- The power state after a sample. -/
def sampled (n : Nat) : Power := { State.reset.power with samples := ((readings n).milliwatts :: State.reset.power.samples).take 100 }

theorem witness_PowerEvents :
    State.reset.dead.contains 15 = false ∧ ({ State.reset with hot := [15] } : State).hot.contains 15 = true ∧ ({ State.reset with hot := [15] } : State).dead.contains 15 = false ∧
    powerUnits.any (fun u => (sampled 23000001).limit u * 100 < (sampled 23000001).total u) = true ∧
    (powerUnits.all (fun u => (sampled 21850000).total u < (sampled 21850000).limit u * 95) = false ∧
      powerUnits.all (fun u => decide ((sampled 21850000).total u ≤ (sampled 21850000).limit u * 100)) = true) ∧
    powerUnits.all (fun u => (sampled 21849999).total u < (sampled 21849999).limit u * 95) = true ∧ State.reset.power.raised = none ∧
    ({ State.reset with nd := { State.reset.nd with bootStep := 0 } } : State).nd.bootStep = 0 ∧ State.reset.nd.bootStep = 5 := by decide +kernel

/-! Witnesses for one step, the encodings and the invariant. -/

/-- The conditions of `Obligations.StepRunsDecoded` for the first wave in slot 0, and the instruction. -/
def stepHyp (s : State) (form : CodeForm) (i : Instr) : Bool :=
  match s.nextTurn, tget? s.waves 0 with
  | (.wave 0 _, _, rest), some w =>
    let sp := tgetD w.splits 0 {}
    let s0 : State := { s with agenda := rest }
    let s1 := (s0.modWave 0 (fun _ => w)).cacheFetch w sp
    let bytes := codeAt s1 w.core w.ctx sp.pos
    let word := BitVec.ofNat 64 (leNat (bytes.take 4))
    let long := wordHasLiteral (BitVec.ofNat 32 (leNat (bytes.take 4)))
    let lit := if long then BitVec.ofNat 32 (leNat ((bytes.drop 4).take 4)) else 0
    let cached (p : Dword) : Bool := (match s1.xlate w.core w.ctx p .fetch with
      | .ok _ => true
      | .error _ => false) && (tget? (s1.core w.core).icache (codeKeyOf w.ctx p)).any (fun l => l.length == 128)
    s0.mayTurn 0 && s0.chosen 0 == 0 && !sp.yields && w.splits == [(0, sp)] && w.issuing == 0 && w.deferred.isEmpty && w.causes.isEmpty && w.copiesFrom sp.mask 0 == [(0, sp.mask)] &&
      sp.wait.isNone && !sp.begun && sp.copies.isEmpty && sp.pos.toNat % formAlign form == 0 && (s1.ctx w.ctx).formAt sp.pos == form && cached sp.pos &&
      (match form with
        | .quadiner => (!long || (!literalBeyond ((s1.ctx w.ctx).accordAt sp.pos) sp.pos && cached (sp.pos + 4))) &&
          (match decodeQuadiner (word.setWidth 32) lit with
            | .ok j => j == i
            | .error _ => false) && (preIssue i (issued s1 0 w sp form word lit (if long then 8 else 4) i)).isNone
        | .bintodal => (match decodeBintodal (BitVec.ofNat 64 (leNat (bytes.take 8))) with
            | .ok j => j == i
            | .error _ => false) && (preIssue i (issued s1 0 w sp form (BitVec.ofNat 64 (leNat (bytes.take 8))) 0 8 i)).isNone)
  | _, _ => false

/-- The state of an instruction word, its code object of a form. -/
def atWord (form : CodeForm) (nbits w : Nat) : State :=
  let s := State.reset.withFetchWord nbits w
  { s with ctxs := s.ctxs.map (fun p => (p.1, { p.2 with objs := p.2.objs.map (fun o => (o.1, { o.2 with images := o.2.images.map (fun x => { x with form := form }) })) })) }

theorem witness_StepRunsDecoded : stepHyp (State.reset.withFetchWord 32 0x0205099E) .quadiner (.adds (.reg 5) (.reg 9) (.inl 14)) = true ∧
    stepHyp (State.reset.withFetchWord 64 0x12345678020509FF) .quadiner (.adds (.reg 5) (.reg 9) (.lit 0x12345678)) = true ∧
    stepHyp (atWord .bintodal 64 0x0201FF0300000007) .bintodal (.adds (.reg 1) (.imm 7) (.reg 3)) = true := by decide +kernel

theorem witness_EncodeDecodeRoundTrip : (Instr.adds (.reg 63) (.lit 0xFFFFFFFF) .zero).wf .quadiner = true ∧
    (Instr.adds (.reg 63) (.imm 0xFFFF) .zero).wf .bintodal = true ∧ Instr.nop.wf .bintodal = true := by decide

theorem witness_StepKeepsMemCanonical : (State.reset.withFetchWord 32 0x01000000).memCanonical ∧
    (match step (State.reset.withFetchWord 32 0x01000000) with
      | .next _ => true
      | .fault _ => false
      | .refused _ => false) = true := by
  constructor
  · rfl
  · decide +kernel

/-! Ill-formed terms, each refused by its check (R84, R93). -/

theorem test_wf_two_literals : (Instr.adds (.reg 1) (.lit 1) (.lit 2)).wf .quadiner = false := by decide
theorem test_wf_two_imm16 : (Instr.addv (.reg 1) (.imm 1) (.imm 2)).wf .bintodal = false := by decide
theorem test_wf_imm16_in_quadiner : (Instr.adds (.reg 1) (.imm 1) .zero).wf .quadiner = false := by decide
theorem test_wf_literal_in_bintodal : (Instr.addv (.reg 1) (.lit 1) (.reg 2)).wf .bintodal = false := by decide
theorem test_wf_latch_in_bintodal : (Instr.addv (.reg 1) (.latch 0) (.reg 2)).wf .bintodal = false := by decide
theorem test_wf_nw_in_bintodal : (Instr.adds .nw (.reg 1) (.reg 2)).wf .bintodal = false := by decide
theorem test_wf_event : (Instr.powerOn).wf .quadiner = false := by decide

/-! The words of the spec's worked examples (05, "a divergent pair of paths rejoined"; 06, "the order of a floating sum"). -/

theorem test_decode_examples : ([(32, 0x36060000, .maskrd (.reg 6)), (32, 0x85018998, .cmpltv 1 .lane (.inl 8)), (64, 0x14200001FF, .br ⟨false, 1⟩ (.lit 0x14)),
    (32, 0x4002899A, .addv (.reg 2) .lane (.inl 10)), (64, 0x0C200000FF, .br ⟨false, 0⟩ (.lit 0x0C)), (32, 0x25000006, .rejoin (.reg 6)), (32, 0x26000000, .exit),
    (32, 0x5701E400, .movv (.reg 1) (.fconst 4)), (32, 0x83018990, .cmpeqv 1 .lane (.inl 0)), (32, 0x2E009091, .setmf .guard (.inl 1)),
    (64, 0x4B8000005701FF00, .movv (.reg 1) (.lit 0x4B800000)), (32, 0x93040100, .redaddv (.reg 4) (.reg 1)), (32, 0x8E0201A0, .shxrv (.reg 2) (.reg 1) (.inl 16)),
    (32, 0x40010102, .addv (.reg 1) (.reg 1) (.reg 2))] : List (Nat × Nat × Instr)).all (fun p => decodeTableWord p.1 p.2.1 == some p.2.2) = true := by decide +kernel

/-! Single steps, worked out by hand or taken from the spec's tables. -/

/-- A scalar register of the wave after an instruction. -/
def sAfter (s : State) (i : Instr) (r : Nat) : Option Dword :=
  match exec i s with
  | .next t => some ((tgetD t.waves 0 {}).sreg r)
  | .fault _ => none
  | .refused _ => none

/-- A wave of an element type with values in s2 and s3. -/
def scalars (t : Nat) (x y : Dword) : State :=
  let s := inType .v t
  { s with waves := [(0, { aWave .v false with sregs := [(2, x), (3, y)] })] }

/-- R57: division by zero and the one signed overflow. -/
theorem test_divs_corners :
    sAfter (scalars 2 (-5) 0) (.divs (.reg 1) (.reg 2) (.reg 3)) 1 = some 0x8000000000000000 ∧
    sAfter (scalars 2 5 0) (.divs (.reg 1) (.reg 2) (.reg 3)) 1 = some 0x7FFFFFFFFFFFFFFF ∧
    sAfter (scalars 3 5 0) (.divs (.reg 1) (.reg 2) (.reg 3)) 1 = some 0xFFFFFFFFFFFFFFFF ∧
    sAfter (scalars 2 0x8000000000000000 (-1)) (.divs (.reg 1) (.reg 2) (.reg 3)) 1 = some 0x8000000000000000 ∧
    sAfter (scalars 2 (-7) 2) (.divs (.reg 1) (.reg 2) (.reg 3)) 1 = some (-3) := by decide +kernel

/-- R57: the remainder takes the sign of the dividend. -/
theorem test_rems_sign : sAfter (scalars 2 (-7) 2) (.rems (.reg 1) (.reg 2) (.reg 3)) 1 = some (-1) ∧
    sAfter (scalars 2 (-7) 0) (.rems (.reg 1) (.reg 2) (.reg 3)) 1 = some (-7) := by decide +kernel

/-- R114: the high half of a signed product, and the leading zeros of 0. -/
theorem test_mulhs_clzs : sAfter (scalars 2 (-1) 2) (.mulhs (.reg 1) (.reg 2) (.reg 3)) 1 = some (-1) ∧
    sAfter (scalars 3 (-1) 2) (.mulhs (.reg 1) (.reg 2) (.reg 3)) 1 = some 1 ∧ sAfter (scalars 2 0 0) (.clzs (.reg 1) (.reg 2)) 1 = some 64 := by decide +kernel

/-- A vector whose lane 0 holds 2^24 and whose other lanes hold 1.0. -/
def sumState : State :=
  let s := inType .v 8
  { s with waves := [(0, { aWave .v false with
    mode := 0x800, vregs := (32, 0x4B800000) :: (List.range 31).map (fun l => (33 + l, 0x3F800000)) })] }

/-- The worked example of 06: the sum in ascending lane order stays 2^24. -/
theorem test_redaddv_order : sAfter sumState (.redaddv (.reg 4) (.reg 1)) 4 = some 0x4B800000 := by decide +kernel

/-- The worked example of 02: sixteen f32 values into sx5. -/
theorem test_sx5_block : sxPack .sx5 .rne false (([0x40400000, 0xBECCCCCD, 0x40000000, 0x3D4CCCCD, 0x3F400000, 0x3E99999A, 0x3DCCCCCD, 0xBFC00000, 0x3E4CCCCD,
    0xBD4CCCCD, 0x3E99999A, 0, 0, 0, 0, 0] : List Nat).map (fDecode fmtF32)) =
    [0x80, 0xF4, 0x4C, 0x22, 0x60, 0x44, 0xE0, 0x46, 0x2A, 0x00, 0x00, 0x00] := by decide +kernel

/-- The worked example of 02: the window of one MMA and its single rounding, from +0, from -1.0 and from 2^24. -/
theorem test_mma_window : (let ps : List Product := [.fin 1 0, .fin 3 (-42), .fin (-3) (-42)] ++ List.replicate 125 .zero
    accumulate 0 ps = 0x3F800000 ∧ accumulate 0xBF800000 ps = 0xAB800000 ∧ accumulate 0x4B800000 ps = 0x4B800000) := by decide +kernel

end Sys2Proof.Tests
end

namespace Sys2Proof.Machine
open Sys2Proof.Claims

/-! What stands in `s.begun`, the state in which an instruction has its effect, stands in `s`. -/

@[simp] theorem State.begun_curCtx (s : State) : s.begun.curCtx = s.curCtx := by
  simp only [State.curCtx, s.begun_curWave]; rfl
@[simp] theorem State.begun_info (s : State) (c d : Nat) (a : Dword) (l : Nat) : s.begun.info c d a l = s.info c d a l := rfl
@[simp] theorem State.begun_gran (s : State) : s.begun.gran = s.gran := rfl
@[simp] theorem State.begun_absoluteTarget (s : State) (t : Dword) : s.begun.absoluteTarget t = s.absoluteTarget t := by
  simp only [State.absoluteTarget, State.alignedTarget, State.begun_curCtx]
@[simp] theorem State.begun_target (s : State) (x : SSrc) : s.begun.target x = s.target x := by
  simp only [State.target, State.alignedTarget, State.begun_readS64, State.begun_gran, State.begun_curCtx, State.begun_issue,
    State.begun_absoluteTarget]
@[simp] theorem State.begun_cmpElem (s : State) (a b : VSrc) (l : Nat) : s.begun.cmpElem a b l = s.cmpElem a b l := by
  simp only [State.cmpElem, State.begun_etype, State.begun_vFloat, State.begun_vInt]

/-! Predicate rows, compares and votes (R115, R149, R153). -/

/-- A compare that issues leaves in its predicate the lanes whose order it names. -/
theorem vecCompare_issues {i : Instr} {s : State} (d : Fin 8) (a b : VSrc) (p : Option Ordering → Bool) (q : Nat → Bool)
    (hi : s.issues i) (hq : ∀ l, p (s.cmpElem a b l) = q l) :
    vecCompare i d a b p s = .next (s.begun.putP d (lanesWhere q)).finish := by
  rw [vecCompare, issueOp_issues _ _ _ hi]
  simp only [State.begun_cmpElem, hq]

/-- A predicate row that issues writes its predicate, and moves on. -/
theorem exec_predRow {i : Instr} {s : State} {d : Fin 8} {v : LaneMask} (h : predRow s i = some (d, v)) (hi : s.issues i) :
    exec i s = .next (s.begun.putP d v).finish := by
  unfold predRow at h
  dsimp only at h
  split at h
  case h_1 => cases h; rw [exec_pand, execPand, predBinary, issueOp_issues _ _ _ hi]; simp only [State.begun_psel]
  case h_2 => cases h; rw [exec_por, execPor, predBinary, issueOp_issues _ _ _ hi]; simp only [State.begun_psel]
  case h_3 => cases h; rw [exec_pxor, execPxor, predBinary, issueOp_issues _ _ _ hi]; simp only [State.begun_psel]
  case h_4 => cases h; rw [exec_pandn, execPandn, predBinary, issueOp_issues _ _ _ hi]; simp only [State.begun_psel]
  case h_5 => cases h; rw [exec_pfroms, execPfroms, issueOp_issues _ _ _ hi]; simp only [State.begun_readS64]
  case h_6 => cases h; rw [exec_cmpeqv, execCmpeqv]; exact vecCompare_issues _ _ _ _ _ hi (fun l => by cases s.cmpElem _ _ l <;> rfl)
  case h_7 => cases h; rw [exec_cmpnev, execCmpnev]; exact vecCompare_issues _ _ _ _ _ hi (fun l => by cases s.cmpElem _ _ l <;> rfl)
  case h_8 => cases h; rw [exec_cmpltv, execCmpltv]; exact vecCompare_issues _ _ _ _ _ hi (fun l => by cases s.cmpElem _ _ l <;> rfl)
  case h_9 => cases h; rw [exec_cmplev, execCmplev]; exact vecCompare_issues _ _ _ _ _ hi (fun l => by rcases s.cmpElem _ _ l with _ | _ | _ | _ <;> rfl)
  case h_10 => cases h; rw [exec_cmpgtv, execCmpgtv]; exact vecCompare_issues _ _ _ _ _ hi (fun l => by cases s.cmpElem _ _ l <;> rfl)
  case h_11 => cases h; rw [exec_cmpgev, execCmpgev]; exact vecCompare_issues _ _ _ _ _ hi (fun l => by rcases s.cmpElem _ _ l with _ | _ | _ | _ <;> rfl)
  case h_12 => cases h; rw [exec_cmpunv, execCmpunv]; exact vecCompare_issues _ _ _ _ _ hi (fun l => by cases s.cmpElem _ _ l <;> rfl)
  case h_13 => cases h; rw [exec_voteall, execVoteall, issueOp_issues _ _ _ hi]; simp only [State.begun_psel, State.begun_activeMask]
  case h_14 => cases h; rw [exec_voteany, execVoteany, issueOp_issues _ _ _ hi]; simp only [State.begun_psel, State.begun_activeMask]
  case h_15 => cases h

/-- Settles O5: a row writes its result with `putP`, whose one change is the predicate. -/
theorem predicateRowsComplete : Obligations.PredicateRowsComplete :=
  fun _ s d v h hi => ⟨_, exec_predRow h hi, s.predDone_putP d v hi.1⟩

/-! Instructions that wait or trap before their effect. -/

/-- An instruction of a wave whose checks before issue find a cause takes it at itself. -/
theorem exec_preIssue_some {i : Instr} {s : State} {t : TrapInfo} (ho : i.operands.isSome = true) (ha : s.waveAlive = true)
    (hl : interlocked i s = false) (hd : dueCause i s = none) (hp : preIssue i s = some t) : exec i s = .next (s.trapHere t) := by
  obtain ⟨body, hb⟩ := exec_eq_issueOp i ho
  rw [hb, issueOp_traps _ _ _ t ha hl hd hp]

/-- Settles O21. -/
theorem interlockWaits : Obligations.InterlockWaits := by
  intro i s ho ha hl
  obtain ⟨body, hb⟩ := exec_eq_issueOp i ho
  rw [hb, issueOp, ha, hl]
  rfl

/-- A privileged opcode is none of those at which a split stands in a wait that its instruction began. -/
theorem Split.waitsAt_of_privileged (sp : Split) {opc : Nat} (h : 0xF0 ≤ opc) : sp.waitsAt opc = false := by
  simp only [Split.waitsAt]
  split <;> simp <;> omega

theorem oddPair_false (f : Field) : oddPair false f = false := by cases f <;> rfl

/-- A privileged instruction has its opcode above 0xEF and reads some operands. -/
theorem privileged_opc {i : Instr} (hp : privileged i = true) :
    (0xF0 ≤ i.opc ∧ i.opc ≤ 0xFF) ∧ i.operands.isSome = true ∧ ∃ o, usedOperands i = some o := by
  unfold privileged at hp
  split at hp
  case h_6 => cases hp
  case h_4 b => cases b <;> exact ⟨⟨by simp [Instr.opc], by simp [Instr.opc]⟩, rfl, _, rfl⟩
  case h_5 b => cases b <;> exact ⟨⟨by simp [Instr.opc], by simp [Instr.opc]⟩, rfl, _, rfl⟩
  all_goals exact ⟨⟨by simp [Instr.opc], by simp [Instr.opc]⟩, rfl, _, rfl⟩

/-- The first check that a privileged opcode fails outside handler mode is that of its role (R13, R90): it names no pair and
reads no scope. -/
theorem preIssue_of_privileged_opc {i : Instr} {s : State} {o : Operands} (ho : usedOperands i = some o)
    (hopc : 0xF0 ≤ i.opc ∧ i.opc ≤ 0xFF) (hh : s.curWave.handler = false) :
    preIssue i s = some (s.info 0x03 (roleCode s.curWave.role)) := by
  obtain ⟨hlo, hhi⟩ := hopc
  have hpair : pairOpc i.opc = false := by simp [pairOpc, inRanges]; omega
  have hpairD (t : EType) : pairD i.opc t (cvtTarget i) = false := by simp [pairD, hpair]; omega
  have hscope : usesScope i.opc = false := by simp [usesScope, inRanges]; omega
  have hrole : roleAllows s.curWave.role s.curWave.handler i.opc = false := by simp [roleAllows, inRanges, hh, hlo, hhi]
  have h0 : i.opc ≠ 0 := by omega
  simp only [preIssue, ho, pairA, pairB, hpair, hpairD, Bool.false_and, oddPair_false, hscope, hrole, h0,
    Split.waitsAt_of_privileged _ hlo, Bool.or_self, decide_false, Bool.false_eq_true, if_false, Bool.not_false, if_true]

/-- Settles O20: the check of the role is the first that fails. -/
theorem privilegedOutsideHandler : Obligations.PrivilegedOutsideHandler := by
  intro i s hp ha hl hd hh
  obtain ⟨hopc, hops, o, ho⟩ := privileged_opc hp
  exact exec_preIssue_some hops ha hl hd (preIssue_of_privileged_opc ho hopc hh)

end Sys2Proof.Machine

namespace Sys2Proof.Machine
open Sys2Proof.Claims

/-! Where a transfer goes (R119). -/

theorem State.alignedTarget_of_aligned {s : State} {p : Dword} (h : p.toNat % formAlign (s.curCtx.formAt p) = 0) :
    s.alignedTarget p = .ok p := if_pos h

/-- Settles O11: `target` answers with `alignedTarget`, but for a displacement that leaves its accord. -/
theorem transferTarget : Obligations.TransferTarget := by
  intro s x
  refine ⟨fun v => rfl, fun hx => ?_, fun hx hacc => ?_, fun ba n st hacc hx => ⟨fun hout => ?_, fun hlo hhi hal => ?_⟩⟩
  · rw [State.target, hx]; rfl
  · rw [State.target, hx, hacc]; rfl
  · have hout' : (decide ((s.readS64 x).toInt * s.gran < 0) || decide ((s.readS64 x).toInt * s.gran ≥ st)) = true := by
      simpa using hout
    simp only [State.target, hx, hacc, if_true, hout']
  · have hin : (decide ((s.readS64 x).toInt * s.gran < 0) || decide ((s.readS64 x).toInt * s.gran ≥ st)) = false := by
      simpa using ⟨hlo, hhi⟩
    simp only [State.target, hx, hacc, if_true, hin, Bool.false_eq_true, if_false]
    exact State.alignedTarget_of_aligned hal

/-! Which split issues next (R29). -/

/-- With nothing deferred there is nothing to merge. -/
theorem Wave.mergeDeferred_nil {w : Wave} (h : w.deferred = []) : w.mergeDeferred = w := by
  obtain ⟨⟩ := w
  cases h
  rfl

/-- A wave whose issuing split no longer owes a pass. -/
def Wave.passed (w : Wave) : Wave := { w with splits := tmodify w.splits w.issuing (fun sp => { sp with yields := false }) }

/-- The pass of a wave with nothing deferred: issue moves to the next slot, and the latches go if it is another one. -/
theorem State.pass_of_nil {w : Wave} (s : State) (h : w.deferred = []) : s.pass w = w.passed.moveTo (s.nextSlot w.passed) := by
  have hm : w.passed.mergeDeferred = w.passed := Wave.mergeDeferred_nil h
  have hd : w.passed.deferred = [] := h
  simp only [State.pass]
  rw [show ({ w with splits := tmodify w.splits w.issuing (fun sp => { sp with yields := false }) } : Wave) = w.passed from rfl, hm, hd]
  rfl

/-- A pass that is owed has no part in whether a split can issue. -/
theorem State.any_canIssue_passed (s : State) (w : Wave) (k : Nat) :
    (tget? w.passed.splits k).any (s.canIssue w.passed) = (tget? w.splits k).any (s.canIssue w) := by
  simp only [Wave.passed, tget?_tmodify]
  split
  · rename_i hk; subst hk; rw [Option.any_map]; rfl
  · rfl

/-- The slot that issue passes to, spelled out over the four candidates. -/
theorem State.nextSlot_eq (s : State) (w : Wave) :
    let can (k : Nat) : Bool := (tget? w.splits (k % 4)).any (s.canIssue w)
    s.nextSlot w = if can (w.issuing + 1) then (w.issuing + 1) % 4 else if can (w.issuing + 2) then (w.issuing + 2) % 4
      else if can (w.issuing + 3) then (w.issuing + 3) % 4 else if can w.issuing then w.issuing % 4 else w.issuing := by
  simp only [State.nextSlot, slotOrder, List.find?_cons, List.find?_nil]
  repeat' split
  all_goals simp_all

/-- Settles O8: with nothing deferred a pass only moves the issuing slot. -/
theorem passRoundRobin : Obligations.PassRoundRobin := by
  intro s w hd
  have hnext : s.nextSlot w.passed = s.nextSlot w := by
    simp only [State.nextSlot, s.any_canIssue_passed]; rfl
  simp only [s.pass_of_nil hd, hnext, Wave.moveTo, ← s.nextSlot_eq w]
  by_cases hk : s.nextSlot w = w.passed.issuing
  · rw [if_pos hk]
    exact ⟨rfl, rfl, rfl, rfl, rfl, rfl, hk.symm, fun h => absurd rfl h, fun _ => rfl⟩
  · rw [if_neg hk]
    exact ⟨rfl, rfl, rfl, rfl, rfl, rfl, rfl, fun _ p k => rfl, fun h => absurd h hk⟩

end Sys2Proof.Machine

namespace Sys2Proof.Machine
open Sys2Proof.Claims

/-! What a change of one wave alone is, step by step. -/

theorem State.onlyCur_issue {s t : State} (h : s.onlyCur t) : t.issue = s.issue := by
  have hi := congrArg State.issue h.1
  exact hi
theorem State.onlyCur_trans {s t u : State} (h : s.onlyCur t) (g : t.onlyCur u) : s.onlyCur u := by
  obtain ⟨hs, hw⟩ := h
  obtain ⟨gt, gw⟩ := g
  have hi : t.issue = s.issue := State.onlyCur_issue ⟨hs, hw⟩
  refine ⟨?_, fun k hk => (gw k (by rw [hi]; exact hk)).trans (hw k hk)⟩
  rw [← hs, ← gt]
theorem State.onlyCur_bintodalLatches {s t : State} (h : s.onlyCur t) : s.onlyCur t.bintodalLatches := by
  simp only [State.bintodalLatches]
  split
  · exact h
  · exact State.onlyCur_modCur _ _ _ h
theorem State.onlyCur_putS {s t : State} (h : s.onlyCur t) (d : SDst) (v : Dword) : s.onlyCur (t.putS d v) := by
  cases d
  · simp only [State.putS]
    split
    · exact State.onlyCur_latchResult _ _ _ h
    · exact State.onlyCur_latchResult _ _ _ (State.onlyCur_modCur _ _ _ h)
  · exact State.onlyCur_latchResult _ _ _ h

@[simp] theorem State.bintodalLatches_issue (s : State) : s.bintodalLatches.issue = s.issue := by
  simp only [State.bintodalLatches]; split <;> rfl
@[simp] theorem State.bintodalLatches_alive (s : State) : s.bintodalLatches.waveAlive = s.waveAlive := by
  simp only [State.bintodalLatches]
  split
  · rfl
  · exact s.waveAlive_modCur _
@[simp] theorem State.latchResult_issue (s : State) (v : LatchVal) : (s.latchResult v).issue = s.issue := by
  simp only [State.latchResult]; split <;> rfl
@[simp] theorem State.latchResult_alive (s : State) (v : LatchVal) : (s.latchResult v).waveAlive = s.waveAlive := by
  simp only [State.latchResult]
  split
  · rfl
  · exact s.waveAlive_modCur _
@[simp] theorem State.putS_issue (s : State) (d : SDst) (v : Dword) : (s.putS d v).issue = s.issue := by
  cases d <;> simp only [State.putS, State.latchResult_issue]
  split <;> simp
@[simp] theorem State.putS_alive (s : State) (d : SDst) (v : Dword) : (s.putS d v).waveAlive = s.waveAlive := by
  cases d <;> simp only [State.putS, State.latchResult_alive]
  split <;> simp

/-! Results and moves change registers, latches and splits of the wave that issues, and nothing else of it. -/

/-- A wave with other scalar registers, errors and latches, and another mark of resumption. -/
def Wave.written (w : Wave) (resumed : Bool) (sregs : Tbl Dword) (struck : List RegCell) (latches : Tbl LatchVal) : Wave :=
  { w with resumed := resumed, sregs := sregs, struck := struck, latches := latches }

/-- The latches of the wave once a Bintodal instruction has lost them, if it is one (R95). -/
def State.latchesOn (s : State) : Tbl LatchVal := match s.issue.form with | .quadiner => s.curWave.latches | .bintodal => []

theorem State.curWave_bintodalLatches {s : State} (h : s.waveAlive = true) :
    s.bintodalLatches.curWave = { s.curWave with latches := s.latchesOn } := by
  simp only [State.bintodalLatches, State.latchesOn]
  cases s.issue.form
  · rfl
  · exact s.curWave_modCur _ h

theorem State.curWave_latchResult {s : State} (v : LatchVal) (h : s.waveAlive = true) :
    ∃ ls, (s.latchResult v).curWave = { s.curWave with latches := ls } := by
  simp only [State.latchResult]
  cases s.issue.form
  · exact ⟨_, s.curWave_modCur _ h⟩
  · exact ⟨_, rfl⟩

/-- The wave after a scalar result: with a lane in active(w) the destination takes it. -/
theorem State.curWave_putS {s : State} (d : SDst) (v : Dword) (h : s.waveAlive = true) :
    ∃ rs cs ls, (s.putS d v).curWave = s.curWave.written s.curWave.resumed rs cs ls ∧
      ∀ r, tgetD rs r 0 = if s.activeMask ≠ 0 ∧ sdstReg d = some r then v else s.curWave.sreg r := by
  cases d with
  | reg q =>
    simp only [State.putS, sdstReg]
    by_cases hm : s.activeMask = 0
    · obtain ⟨ls, hl⟩ := s.curWave_latchResult (.scalar (s.curWave.sreg q.val)) h
      exact ⟨_, _, ls, by rw [if_pos hm, hl]; rfl, fun r => by simp [hm, Wave.sreg]⟩
    · obtain ⟨ls, hl⟩ := State.curWave_latchResult (s := s.modCur (fun w => { w with
        sregs := tset w.sregs q.val v, struck := mendS q.val w.struck })) (.scalar v) (by simpa using h)
      refine ⟨tset s.curWave.sregs q.val v, mendS q.val s.curWave.struck, ls, ?_, fun r => ?_⟩
      · rw [if_neg hm, hl, s.curWave_modCur _ h]; rfl
      · simp only [tgetD_tset, Wave.sreg, ne_eq, hm, not_false_eq_true, true_and, Option.some.injEq, eq_comm]
  | nw =>
    obtain ⟨ls, hl⟩ := s.curWave_latchResult (.scalar (if s.activeMask = 0 then 0 else v)) h
    exact ⟨_, _, ls, by rw [State.putS, hl]; rfl, fun r => by simp [sdstReg, Wave.sreg]⟩

/-! Placing the taken lanes (R26). -/

/-- A lane of the issuing split proves that the split is there. -/
theorem Wave.split_of_lane {w : Wave} {l : Nat} (h : w.split.mask.getLsbD l = true) : tget? w.splits w.issuing = some w.split := by
  simp only [Wave.split, tgetD] at h ⊢
  cases hs : tget? w.splits w.issuing with
  | some sp => rfl
  | none => simp [hs] at h

/-- Placing looks at the splits, the issuing slot and the deferred list alone. -/
theorem Wave.place_written (w : Wave) (b rs cs ls) (taken : LaneMask) (p : Dword) (len : Nat) :
    (w.written b rs cs ls).place taken p len = (w.place taken p len).map (fun x => x.written b rs cs ls) := by
  have hs : (w.written b rs cs ls).split = w.split := rfl
  have hf : (w.written b rs cs ls).freeSlot = w.freeSlot := rfl
  have hds : (w.written b rs cs ls).deferred = w.deferred := rfl
  have hss : (w.written b rs cs ls).splits = w.splits := rfl
  have hk : (w.written b rs cs ls).issuing = w.issuing := rfl
  simp only [Wave.place, hs, hf, hds, hss, hk]
  by_cases h0 : taken = 0
  · simp only [if_pos h0]; rfl
  by_cases h1 : w.split.mask &&& ~~~taken = 0
  · simp only [if_neg h0, if_pos h1]; rfl
  simp only [if_neg h0, if_neg h1]
  cases w.splits.find? (fun q => q.1 != w.issuing && q.2.pos == p && q.2.joins) with
  | some q => rfl
  | none =>
    cases w.deferred.findIdx? (fun d => d.pos == p && !d.begun) with
    | some k => rfl
    | none =>
      cases w.freeSlot with
      | some k => rfl
      | none =>
        by_cases h2 : w.deferred.length < 8
        · simp only [if_pos h2]; rfl
        · simp only [if_neg h2]; rfl

/-- Placing changes the splits and the deferred list alone. -/
theorem Wave.place_frame {w v : Wave} {taken : LaneMask} {p : Dword} {len : Nat} (h : w.place taken p len = some v) :
    ∃ ss ds, v = { w with splits := ss, deferred := ds } := by
  simp only [Wave.place] at h
  repeat' split at h
  all_goals cases h
  all_goals exact ⟨_, _, rfl⟩

theorem LaneMask.getLsbD_rest {m t : LaneMask} {l : Nat} (hl : l < 32) (hm : m.getLsbD l = true) :
    (m &&& ~~~t).getLsbD l = !t.getLsbD l := by
  simp [hm, hl]

theorem Split.advance_mask (len : Nat) (sp : Split) : (Split.advance len sp).mask = sp.mask := by
  simp only [Split.advance]; split <;> rfl

/-- The issuing split at the next instruction, with the lanes that are not taken. -/
def Split.stay (len : Nat) (rest : LaneMask) (sp : Split) : Split := { Split.advance len sp with mask := rest }

/-- The lanes not taken stand at the next instruction, the others where the rest of the wave has them. -/
theorem Wave.stands_stay {w : Wave} {t : Tbl Split} {ds : List Deferred} {taken : LaneMask} {len l : Nat} {p : Dword} (hl : l < 32)
    (hm : w.split.mask.getLsbD l = true) (hs : tget? t w.issuing = tget? w.splits w.issuing)
    (ht : taken.getLsbD l = true →
      (∃ k sp, k ≠ w.issuing ∧ tget? t k = some sp ∧ sp.mask.getLsbD l = true ∧ sp.pos = p) ∨
        ∃ d ∈ ds, d.mask.getLsbD l = true ∧ d.pos = p) :
    ({ w with splits := tmodify t w.issuing (Split.stay len (w.split.mask &&& ~~~taken)), deferred := ds } : Wave).stands l
      (if taken.getLsbD l then p else (Split.advance len w.split).pos) := by
  cases hb : taken.getLsbD l with
  | true =>
    rcases ht hb with ⟨k, sp, hk, hsp, hml, hpos⟩ | hd
    · exact .inl ⟨k, sp, by rw [tget?_tmodify, if_neg hk, hsp], hml, hpos⟩
    · exact .inr hd
  | false =>
    refine .inl ⟨w.issuing, Split.stay len (w.split.mask &&& ~~~taken) w.split, ?_, ?_, rfl⟩
    · rw [tget?_tmodify, if_pos rfl, hs, Wave.split_of_lane hm]; rfl
    · exact (LaneMask.getLsbD_rest hl hm).trans (by rw [hb]; rfl)

/-- Placing puts each taken lane of the issuing split at the target, and every other one at the next instruction (R26). -/
theorem Wave.place_stands {w v : Wave} {taken : LaneMask} {p : Dword} {len l : Nat} (h : w.place taken p len = some v) (hl : l < 32)
    (hm : w.split.mask.getLsbD l = true) : v.stands l (if taken.getLsbD l then p else (Split.advance len w.split).pos) := by
  have hsp := Wave.split_of_lane hm
  simp only [Wave.place] at h
  split at h
  · rename_i h0
    cases h
    refine .inl ⟨w.issuing, Split.advance len w.split, ?_, ?_, ?_⟩
    · rw [tget?_tmodify, if_pos rfl, hsp]; rfl
    · rw [Split.advance_mask, hm]
    · simp [h0]
  split at h
  · rename_i h1
    cases h
    have ht : taken.getLsbD l = true := by
      have hr := LaneMask.getLsbD_rest (t := taken) hl hm
      rw [h1] at hr
      simpa using hr
    refine .inl ⟨w.issuing, Split.goto p w.split, ?_, hm, by rw [if_pos ht]; rfl⟩
    rw [tget?_tmodify, if_pos rfl, hsp]; rfl
  split at h
  · rename_i k other hf
    cases h
    have hfound := List.find?_some hf
    simp only [Bool.and_eq_true, bne_iff_ne, ne_eq, beq_iff_eq] at hfound
    obtain ⟨⟨hk, hpos⟩, -⟩ := hfound
    exact Wave.stands_stay hl hm (tget?_tset_other _ _ (Ne.symm hk))
      (fun ht => .inl ⟨k, _, hk, tget?_tset_same _ _ _, by simp [ht], hpos⟩)
  split at h
  · rename_i k hf
    cases h
    obtain ⟨hlt, hd, -⟩ := List.findIdx?_eq_some_iff_getElem.1 hf
    simp only [Bool.and_eq_true, beq_iff_eq] at hd
    refine Wave.stands_stay hl hm rfl (fun ht => .inr ⟨{ w.deferred[k] with mask := w.deferred[k].mask ||| taken }, ?_, by simp [ht], hd.1⟩)
    exact List.mem_iff_getElem.2 ⟨k, by simpa using hlt, by simp⟩
  split at h
  · rename_i k hf
    cases h
    have hfree : tget? w.splits k = none := by simpa using List.find?_some hf
    have hk : k ≠ w.issuing := by rintro rfl; rw [hsp] at hfree; cases hfree
    exact Wave.stands_stay hl hm (tget?_tset_other _ _ (Ne.symm hk)) (fun ht => .inl ⟨k, _, hk, tget?_tset_same _ _ _, ht, rfl⟩)
  split at h
  · cases h
    exact Wave.stands_stay hl hm rfl (fun ht => .inr ⟨{ pos := p, mask := taken }, by simp, ht, rfl⟩)
  · cases h

end Sys2Proof.Machine

namespace Sys2Proof.Machine
open Sys2Proof.Claims

/-! Transfers (R26, R119 to R121). -/

/-- What a transfer writes before it moves its lanes: CALL the position after it (R121), the others nothing. -/
def State.linking (link : Option SDst) (s : State) : State :=
  match link with
  | some d => s.putS d (s.issue.pc + BitVec.ofNat 64 s.issue.len)
  | none => s

/-- The effect of a transfer: its taken set, its target, and what it links; a CALL may enter a function. -/
theorem exec_transferRow {i : Instr} {s : State} {taken : LaneMask} {x : Except Nat Dword} {link : Option SDst}
    (h : transferRow s i = some (taken, x, link)) (hi : s.issues i) :
    exec i s = .next (s.begun.transferTo taken x link.isSome (State.linking link)) := by
  unfold transferRow at h
  split at h
  case h_1 =>
    cases h; rw [exec_br, execBr, issueOp_issues _ _ _ hi]
    simp only [State.transfer, State.begun_activeMask, State.begun_psel, State.begun_target]; rfl
  case h_2 =>
    cases h; rw [exec_brz, execBrz, issueOp_issues _ _ _ hi]
    simp only [State.transfer, State.begun_activeMask, State.begun_readS64, State.begun_target]; rfl
  case h_3 =>
    cases h; rw [exec_brnz, execBrnz, issueOp_issues _ _ _ hi]
    simp only [State.transfer, State.begun_activeMask, State.begun_readS64, State.begun_target]; rfl
  case h_4 =>
    cases h; rw [exec_call, execCall, issueOp_issues _ _ _ hi]
    simp only [State.transfer, State.begun_activeMask, State.begun_target]; rfl
  case h_5 =>
    cases h; rw [exec_ret, execRet, issueOp_issues _ _ _ hi]
    simp only [State.begun_activeMask, State.begun_readS64, State.begun_absoluteTarget]; rfl
  case h_6 => cases h

/-- A wave with the mark of a resumed wave cleared finds the same places. -/
theorem State.begun_place (s : State) (taken : LaneMask) (p : Dword) (len : Nat) :
    s.begun.curWave.place taken p len =
      (s.curWave.place taken p len).map (fun v => v.written false s.curWave.sregs s.curWave.struck s.curWave.latches) := by
  rw [← Wave.place_written, s.begun_curWave]; rfl

/-- Settles O10. -/
theorem transfersTrap : Obligations.TransfersTrap := by
  intro i s taken x link h hi hne
  rw [exec_transferRow h hi]
  refine ⟨fun c hc => ?_, fun p hp hn => ?_⟩
  · simp only [State.transferTo, if_neg hne, hc]; rfl
  · simp only [State.transferTo, if_neg hne, hp, State.begun_issue, State.begun_place, hn, Option.map_none]; rfl

/-- Whether a wave runs a Bintodal image for which a translation could stand depends on its launch and its context alone. -/
theorem State.bintodalLaunch_congr {s t : State} {w v : Wave} (h : s.onlyCur t) (hl : v.launch = w.launch) (hc : v.ctx = w.ctx) :
    t.bintodalLaunch v = s.bintodalLaunch w := by
  obtain ⟨hs, -⟩ := h
  have h1 : t.launches = s.launches := by have e := congrArg State.launches hs; exact e
  have h2 : t.ctxs = s.ctxs := by have e := congrArg State.ctxs hs; exact e
  unfold State.bintodalLaunch State.launch State.ctx
  rw [hl, hc, h1, h2]

theorem State.safeBackEdge_of_none {s : State} (pc target : Dword) (h : s.bintodalLaunch s.curWave = none) :
    s.safeBackEdge pc target = s := by
  simp only [State.safeBackEdge, h]
theorem State.enterFunction_of_none {s : State} {wid : Nat} (pos : Dword) (h : s.bintodalLaunch (tgetD s.waves wid {}) = none) :
    s.enterFunction wid pos = s := by
  simp only [State.enterFunction, h]

/-- The state in which the link of a transfer has been written: CALL's register holds the position after it (R121). -/
theorem State.linking_begun {s : State} (link : Option SDst) (ha : s.waveAlive = true) :
    s.onlyCur (State.linking link s.begun) ∧ (State.linking link s.begun).waveAlive = true ∧
      ∃ rs cs ls, (State.linking link s.begun).curWave = s.curWave.written false rs cs ls ∧ ∀ r, tgetD rs r 0 = linked s link r := by
  cases link with
  | none => exact ⟨s.onlyCur_begun, by simpa [State.linking] using ha, _, _, _, s.begun_curWave, fun r => rfl⟩
  | some d =>
    obtain ⟨rs, cs, ls, hw, hr⟩ := State.curWave_putS (s := s.begun) d (s.issue.pc + BitVec.ofNat 64 s.issue.len) (by simpa using ha)
    refine ⟨State.onlyCur_putS s.onlyCur_begun _ _, by simpa [State.linking] using ha, rs, cs, ls, ?_, fun r => ?_⟩
    · exact hw.trans (by rw [s.begun_curWave]; rfl)
    · rw [hr, s.begun_activeMask, s.begun_sreg]; rfl

/-- A transfer that finds places for its lanes moves them there, and changes nothing else but what it links (R26, R119 to
R121). -/
theorem State.transferTo_moves {s : State} {taken : LaneMask} {x : Except Nat Dword} {p : Dword} (call : Bool) (link : Option SDst)
    (ha : s.waveAlive = true) (hb : s.bintodalLaunch s.curWave = none)
    (hx : taken = 0 ∨ x = .ok p ∧ (s.curWave.place taken p s.issue.len).isSome = true) :
    ∃ v b rs cs ls, s.curWave.place taken p s.issue.len = some v ∧
      s.onlyCur (s.begun.transferTo taken x call (State.linking link)) ∧
      (s.begun.transferTo taken x call (State.linking link)).curWave = v.written b rs cs ls ∧
      ∀ r, tgetD rs r 0 = linked s link r := by
  obtain ⟨ho, hal, rs, cs, ls, hw, hr⟩ := s.linking_begun link ha
  have hi := State.onlyCur_issue ho
  by_cases h0 : taken = 0
  · refine ⟨_, false, rs, cs, (State.linking link s.begun).latchesOn, if_pos h0, ?_, ?_, hr⟩
    · simp only [State.transferTo, if_pos h0]; exact State.onlyCur_finish _ _ ho
    · simp only [State.transferTo, if_pos h0]; rw [State.curWave_finish _ hal, State.latchesOn, hw, hi]; rfl
  · obtain ⟨rfl, hsome⟩ := hx.resolve_left h0
    obtain ⟨v, hv⟩ := Option.isSome_iff_exists.1 hsome
    let u := ((State.linking link s.begun).bintodalLatches).modCur (fun w => (w.place taken p s.issue.len).getD w)
    have hou : s.onlyCur u := State.onlyCur_modCur _ _ _ (State.onlyCur_bintodalLatches ho)
    have hcu : u.curWave = v.written false rs cs (State.linking link s.begun).latchesOn := by
      rw [State.curWave_modCur _ _ (by simpa using hal), State.curWave_bintodalLatches hal, hw,
        show ({ s.curWave.written false rs cs ls with latches := (State.linking link s.begun).latchesOn } : Wave) =
          s.curWave.written false rs cs (State.linking link s.begun).latchesOn from rfl, Wave.place_written, hv]
      rfl
    have hnone : u.bintodalLaunch u.curWave = none := by
      obtain ⟨ss, ds, rfl⟩ := Wave.place_frame hv
      rw [State.bintodalLaunch_congr hou (w := s.curWave) (by rw [hcu]; rfl) (by rw [hcu]; rfl), hb]
    have ht : s.begun.transferTo taken (.ok p) call (State.linking link) = u := by
      have hback : u.safeBackEdge s.issue.pc p = u := State.safeBackEdge_of_none _ _ hnone
      have henter : u.enterFunction s.issue.wave p = u := State.enterFunction_of_none _ (by
        rw [← State.onlyCur_issue hou]; exact hnone)
      simp only [State.transferTo, if_neg h0, State.begun_issue, State.begun_place, hv, Option.map_some]
      show (if call = true then State.enterFunction (if taken = s.begun.curSplit.mask then u.safeBackEdge s.issue.pc p else u) s.issue.wave p
        else (if taken = s.begun.curSplit.mask then u.safeBackEdge s.issue.pc p else u)) = u
      simp only [hback, henter, ite_self]
    exact ⟨v, false, rs, cs, _, hv, ht ▸ hou, ht ▸ hcu, hr⟩

/-- Settles O9: the lanes go where `place` puts them, and the link is the one other change. -/
theorem transfersComplete : Obligations.TransfersComplete := by
  intro i s taken x link p h hi hb hx
  obtain ⟨v, b, rs, cs, ls, hv, ho, hw, hr⟩ := State.transferTo_moves link.isSome link hi.1 hb hx
  refine ⟨_, exec_transferRow h hi, ho, ?_, ?_, fun r => ?_, fun l hl hm => ?_⟩
  · obtain ⟨ss, ds, rfl⟩ := Wave.place_frame hv
    rw [hw]; rfl
  · obtain ⟨ss, ds, rfl⟩ := Wave.place_frame hv
    rw [hw]; rfl
  · rw [hw]; exact hr r
  · have hs : v.stands l _ := Wave.place_stands hv hl hm
    rw [hw]; exact hs

end Sys2Proof.Machine

namespace Sys2Proof.Machine
open Sys2Proof.Claims

/-! REJOIN (R31, R32, R123). -/

/-- An instruction without a result that only moves on. -/
theorem State.effectDone_finish {s : State} (h : s.waveAlive = true) : s.effectDone s.begun.finish (fun w => w) := by
  have e := s.curWave_finishBegun h
  refine ⟨State.onlyCur_finish _ _ s.onlyCur_begun, ?_, ?_, State.latchesKept_of _ _ ?_, ?_⟩
  · rw [State.splitsOn, e]
  · rw [e]
  · rw [e]
  · rw [e]

/-- The REJOIN condition, lane by lane. -/
theorem Wave.arrived_iff (w : Wave) (sp : Split) (m : LaneMask) :
    w.arrived sp m = true ↔ ∀ l, l < 32 → m.getLsbD l = true → w.retired.getLsbD l = true ∨ sp.mask.getLsbD l = true := by
  simp only [Wave.arrived, decide_eq_true_eq]
  constructor
  · intro h l hl hm
    have hb := congrArg (fun x : LaneMask => x.getLsbD l) h
    simp only [BitVec.getLsbD_and, BitVec.getLsbD_not, hm, hl] at hb
    cases hr : w.retired.getLsbD l <;> simp_all
  · intro h
    apply BitVec.eq_of_getLsbD_eq
    intro l hl
    have hb := h l hl
    simp only [BitVec.getLsbD_and, BitVec.getLsbD_not, hl]
    cases hm : m.getLsbD l
    · simp
    · rcases hb hm with hr | hs
      · simp [hr]
      · simp [hs]

theorem State.begun_arrived (s : State) (sp : Split) (m : LaneMask) : s.begun.curWave.arrived sp m = s.curWave.arrived sp m := by
  rw [s.begun_curWave]; rfl

/-- Settles O12: the two clauses are the two answers of `arrived`. -/
theorem rejoinCompletes : Obligations.RejoinCompletes := by
  intro b s hi
  have hx : exec (.rejoin b) s = .next (if s.curWave.arrived s.curSplit ((s.readS64 b).setWidth 32) then s.begun.finish
      else if (s.begun.stall (.rejoin ((s.readS64 b).setWidth 32))).curWave.deadlocked
        then (s.begun.stall (.rejoin ((s.readS64 b).setWidth 32))).trapHere (s.info 0x0A 0)
        else (s.begun.stall (.rejoin ((s.readS64 b).setWidth 32))).bintodalLatches.passCur) := by
    rw [exec_rejoin, execRejoin, issueOp_issues _ _ _ hi]
    simp only [State.begun_readS64, State.begun_split, State.begun_arrived]
    rfl
  refine ⟨fun h => ?_, fun ⟨l, hl, hm, hr, hs⟩ => ?_⟩
  · rw [hx, if_pos ((Wave.arrived_iff _ _ _).2 h)]
    exact ⟨_, rfl, State.effectDone_finish hi.1⟩
  · have hn : s.curWave.arrived s.curSplit ((s.readS64 b).setWidth 32) = false := by
      rw [← Bool.not_eq_true, Wave.arrived_iff]
      intro h
      rcases h l hl hm with h | h
      · rw [h] at hr; cases hr
      · rw [h] at hs; cases hs
    rw [hx, hn]; rfl

/-! EXIT (R30, R124, R408). -/

/-- The wave's work has settled: what EXIT of its last lane waits for. -/
theorem State.settledWork_iff (s : State) (w : Wave) (wid : Nat) : s.settledWork w wid = true ↔
    w.mxPending = 0 ∧ w.engPending = 0 ∧ w.loads = [] ∧ ∀ e ∈ (s.core w.core).wq, e.2.wave ≠ wid := by
  simp [State.settledWork, and_assoc]

/-- Filling a slot changes the splits, the deferred list and its count alone. -/
theorem Wave.fillSlot_frame (w : Wave) : ∃ ss ds n, w.fillSlot = { w with splits := ss, deferred := ds, passes := n } := by
  simp only [Wave.fillSlot]
  split
  · exact ⟨_, _, _, rfl⟩
  · exact ⟨_, _, _, rfl⟩

/-- A wave whose split may have left its slot: other splits, another issuing slot, other deferred entries and counts, other latches. -/
def Wave.moved (w : Wave) (ls : Tbl LatchVal) (ss : Tbl Split) (k : Nat) (ds : List Deferred) (n : Nat) : Wave :=
  { w with latches := ls, splits := ss, issuing := k, deferred := ds, passes := n }

/-- An empty split that leaves its slot changes the wave that issues alone, and nothing of it but where its lanes stand. -/
theorem State.leaveEmpty_frame {s : State} (h : s.waveAlive = true) :
    s.onlyCur s.leaveEmpty ∧ ∃ ls ss k ds n, s.leaveEmpty.curWave = s.curWave.moved ls ss k ds n := by
  simp only [State.leaveEmpty]
  split
  · refine ⟨State.onlyCur_modCur _ _ _ (State.onlyCur_modCur _ _ _ s.onlyCur_refl), ?_⟩
    rw [State.curWave_modCur _ _ (by simpa using h), State.curWave_modCur _ _ h]
    obtain ⟨ss, ds, n, e⟩ := Wave.fillSlot_frame { s.curWave with splits := tdel s.curWave.splits s.curWave.issuing }
    rw [e]
    exact ⟨_, _, _, _, _, rfl⟩
  · exact ⟨s.onlyCur_refl, _, _, _, _, _, rfl⟩

/-- Settles O13. -/
theorem exitCompletes : Obligations.ExitCompletes := by
  intro s hi
  have hal : s.begun.waveAlive = true := by simpa using hi.1
  have hx : exec .exit s = .next (if ~~~s.curWave.retired &&& ~~~s.activeMask = 0 then
      (if s.settledWork s.curWave s.issue.wave then
        (match s.curWave.causes with
        | t :: ts => (s.begun.modCur (fun w => { w with causes := ts })).fatalTrap s.issue.wave { t with deferred := true } s.issue.pc
        | [] => s.begun.modCur (fun w => { w.loseLatches with retired := BitVec.allOnes 32, splits := [], deferred := [], ended := true }))
      else s.begun.stall (.ending s.issue.wave))
      else if s.curSplit.lastCopy then (s.begun.modCur (Wave.retire s.activeMask)).finish.leaveEmpty
        else (s.begun.modCur (Wave.retire s.activeMask)).finish) := by
    rw [exec_exit, execExit, issueOp_issues _ _ _ hi]
    simp only [State.begun_activeMask, State.begun_split, State.begun_issue, s.begun_curWave, Wave.live]
    rfl
  rw [hx]
  refine ⟨fun hl => ?_, fun hl hst hc => ?_, fun hl hst => ?_⟩
  · rw [if_neg hl]
    have ho := State.onlyCur_finish _ _ (State.onlyCur_modCur s s.begun (Wave.retire s.activeMask) s.onlyCur_begun)
    have ha : (s.begun.modCur (Wave.retire s.activeMask)).finish.waveAlive = true := by simpa [State.finish, State.modSplit] using hal
    have hw := State.curWave_finish (s.begun.modCur (Wave.retire s.activeMask)) (by simpa using hal)
    rw [State.curWave_modCur _ _ hal, s.begun_curWave] at hw
    split
    · obtain ⟨hoe, ls, ss, k, ds, n, he⟩ := State.leaveEmpty_frame ha
      refine ⟨_, rfl, State.onlyCur_trans ho hoe, ?_, ?_, ?_, ?_⟩ <;> rw [he, hw] <;> rfl
    · refine ⟨_, rfl, ho, ?_, ?_, ?_, ?_⟩ <;> rw [hw] <;> rfl
  · rw [if_pos hl, if_pos ((s.settledWork_iff _ _).2 hst), hc]
    refine ⟨_, rfl, State.onlyCur_modCur _ _ _ s.onlyCur_begun, ?_, ?_, ?_, ?_, ?_, ?_⟩ <;>
      rw [State.curWave_modCur _ _ hal, s.begun_curWave] <;> rfl
  · rw [if_pos hl, if_neg (fun h => hst ((s.settledWork_iff _ _).1 h))]

end Sys2Proof.Machine

namespace Sys2Proof.Machine
open Sys2Proof.Claims

/-! Taking an exception outside handler mode (R25, R42, R369). -/

/-- The state once the poison that traps a wave stands in the drydown record (R419). -/
def State.poisonLogged (s : State) (w : Wave) (t : TrapInfo) : State :=
  if t.cause = 0x11 then
    s.logDry (dieOf w.core) 0x03 (if t.reg.isSome then 1 else 0) (t.reg.getD w.core) (w.ctx + 0x1100) t.faddr.toNat
  else s

/-- A wave that enters its handler (R369). -/
def Wave.enterHandler (tv : Dword) (frame : Tbl Byte) (r : Dword) (v : Wave) : Wave :=
  { v.loseLatches with
    frame := frame, frameResume := r, frameMode := v.mode,
    savedSplits := v.splits, savedDeferred := v.deferred, savedPlanes := v.planes, savedIssuing := v.issuing,
    savedPasses := v.passes, savedPassSlot := v.passSlot,
    mode := 0, splits := [(0, handlerSplit v tv)], deferred := [], planes := [], issuing := 0, passes := 0,
    handler := true }

theorem State.poisonLogged_frame (s : State) (w : Wave) (t : TrapInfo) :
    ({ s.poisonLogged w t with dry := s.dry } : State) = s ∧ (t.cause ≠ 0x11 → (s.poisonLogged w t).dry = s.dry) := by
  simp only [State.poisonLogged]
  split
  · exact ⟨rfl, fun h => absurd ‹_› h⟩
  · exact ⟨rfl, fun _ => rfl⟩

/-- An exception outside handler mode, with TRAPVEC.EN = 1, is recorded if it is poison, and its wave enters the handler. -/
theorem State.trapWave_enters {s : State} {wid : Nat} {w : Wave} (t : TrapInfo) (r : Dword) (hw : tget? s.waves wid = some w)
    (hh : w.handler = false) (he : (s.ctx w.ctx).trapvec.toNat % 2 = 1) :
    ∃ frame, s.trapWave wid t r = (s.poisonLogged w t).modWave wid (Wave.enterHandler (s.ctx w.ctx).trapvec frame r) := by
  have hd : tgetD s.waves wid {} = w := by rw [tgetD, hw]; rfl
  refine ⟨tblOfBytes ((s.poisonLogged w t).frameBytes w t r false), ?_⟩
  simp only [State.trapWave, hd, hh, he]
  rfl

/-- Settles O15. -/
theorem trapEntersHandler : Obligations.TrapEntersHandler := by
  intro s wid w t r hw hh he
  obtain ⟨frame, ht⟩ := State.trapWave_enters t r hw hh he
  obtain ⟨hf, hdry⟩ := s.poisonLogged_frame w t
  have hwaves : (s.poisonLogged w t).waves = s.waves := by have e := congrArg State.waves hf; exact e
  have hget (k : Nat) : tget? (s.trapWave wid t r).waves k =
      if k = wid then some (w.enterHandler (s.ctx w.ctx).trapvec frame r) else tget? s.waves k := by
    rw [ht, State.modWave_waves, tget?_tmodify, hwaves, hw]; rfl
  refine ⟨w.enterHandler (s.ctx w.ctx).trapvec frame r, by rw [hget, if_pos rfl],
    ⟨rfl, rfl, rfl, rfl, fun _ => rfl, fun _ _ => rfl, rfl⟩, ⟨rfl, rfl, rfl, rfl, rfl, rfl, rfl, rfl, rfl, rfl, rfl⟩,
    rfl, rfl, rfl, rfl, rfl, rfl, fun k hk => by rw [hget, if_neg hk], ?_, fun hc => ?_⟩
  · rw [ht]
    calc _ = ({ ({ s.poisonLogged w t with dry := s.dry } : State) with waves := s.waves } : State) := rfl
      _ = s := by rw [hf]
  · rw [ht]; exact hdry hc

/-! Returning from one (R42, R374). -/

/-- A fence is met in a core with nothing on its way, for a wave with no load in flight (R177, R323). -/
theorem State.waitMet_fence_of_quiet {s : State} {w : Wave} {sp : Split} {level mark loads wid : Nat} {release acquire : Bool}
    (hs : sp.wait = some (.fence level mark loads release acquire wid)) (hl : w.loads = []) (hq : (s.core w.core).wq = [])
    (ho : (s.core w.core).outs = []) (hd : (s.core w.core).deps = []) : s.waitMet w sp = true := by
  simp [State.waitMet, hs, hl, Core.outcomesKnown, Core.published, depsReady, hq, ho, hd]

/-- A lost store that is still to be reported is what a release ends in; without one there is nothing. -/
theorem State.storeCause_of_none {s : State} (h : ∀ t ∈ s.curWave.causes, t.origin.lostWrite = false) : s.storeCause = none := by
  simp only [State.storeCause]
  split
  · rfl
  · exact List.find?_eq_none.2 (fun t ht => by simp [h t ht])

/-- With nothing of the core on its way and no load in flight, the release and acquire of TRET is met at once (R374). -/
theorem State.gate_of_coreQuiet {s : State} (h : coreQuiet s) : s.begun.gate 6 true true = none := by
  obtain ⟨hwait, hloads, hwq, houts, hdeps, hcauses⟩ := h
  have hb : s.begun.curWave.split.wait = none := by rw [s.begun_curWave]; exact hwait
  have hcause : s.begun.storeCause = none := State.storeCause_of_none (by rw [s.begun_curWave]; exact hcauses)
  have hcore : s.begun.core s.begun.curWave.core = s.core s.curWave.core := by rw [s.begun_core]; rfl
  simp only [State.gate, hb, hcause]
  rw [if_pos (State.waitMet_fence_of_quiet rfl (by rw [s.begun_curWave]; exact hloads) (by rw [hcore, hwq]) (by rw [hcore, houts])
    (by rw [hcore, hdeps]))]
  rfl

/-- An entry of a table that a filter keeps is found in what it leaves. -/
theorem tget?_filter_of_some {α : Type} {f : Nat × α → Bool} {t : Tbl α} {k : Nat} {v : α} (h : tget? t k = some v) (hf : f (k, v) = true) :
    tget? (t.filter f) k = some v := by
  induction t with
  | nil => cases h
  | cons q t ih =>
    obtain ⟨n, x⟩ := q
    simp only [tget?] at h
    by_cases hn : n = k
    · rw [if_pos hn] at h
      cases h; subst hn
      simp [hf, tget?]
    · rw [if_neg hn] at h
      rw [List.filter_cons]
      split
      · simp [tget?, hn, ih h]
      · exact ih h

theorem tget?_tmap {α : Type} (t : Tbl α) (f : α → α) (k : Nat) : tget? (tmap t f) k = (tget? t k).map f := by
  induction t with
  | nil => rfl
  | cons q t ih =>
    obtain ⟨n, x⟩ := q
    simp only [tmap, List.map_cons, tget?] at ih ⊢
    split
    · rfl
    · exact ih

/-- Filling slots changes the splits, the deferred list and its count alone. -/
theorem Wave.fillSlots_frame (w : Wave) : ∃ ss ds n, w.fillSlots = { w with splits := ss, deferred := ds, passes := n } := by
  have step (u : Wave) (h : ∃ ss ds n, u = { w with splits := ss, deferred := ds, passes := n }) :
      ∃ ss ds n, u.fillSlot = { w with splits := ss, deferred := ds, passes := n } := by
    obtain ⟨_, _, _, rfl⟩ := h
    obtain ⟨ss, ds, n, e⟩ := Wave.fillSlot_frame { w with splits := _, deferred := _, passes := _ }
    exact ⟨ss, ds, n, e⟩
  exact step _ (step _ (step _ (step w ⟨_, _, _, rfl⟩)))

/-- With nothing deferred no slot is filled. -/
theorem Wave.fillSlots_nil {w : Wave} (h : w.deferred = []) : w.fillSlots = w := by
  have hf : w.fillSlot = w := by simp only [Wave.fillSlot, h]
  show w.fillSlot.fillSlot.fillSlot.fillSlot = w
  rw [hf, hf, hf, hf]

/-- What a return from an exception makes of a wave, whatever splits and deferred entries it brings back (R374). -/
theorem Wave.trapReturn_frame (w : Wave) (r : Dword) : ∃ ss ds n, w.trapReturn r = { w with
    planes := w.savedPlanes, latches := [], splits := ss, issuing := w.savedIssuing, mode := BitVec.ofNat 16 (memNat w.frame 44 2),
    handler := false, resumed := true, passes := n, passSlot := w.savedPassSlot,
    struck := w.struck.filter (fun c => c != .mode true && c != .split true), deferred := ds } := by
  obtain ⟨ss, ds, n, e⟩ := Wave.fillSlots_frame _
  exact ⟨ss, ds, n, e⟩

/-- The copies still to issue keep their live lanes. -/
theorem liveCopies_ne_nil {live : LaneMask} {cs : List (Nat × LaneMask)} (h : ∃ x ∈ cs, x.2 &&& live ≠ 0) : liveCopies live cs ≠ [] := by
  obtain ⟨x, hx, hl⟩ := h
  exact List.ne_nil_of_mem (a := (x.1, x.2 &&& live)) (by
    simp only [liveCopies, List.mem_filter, List.mem_map]
    exact ⟨⟨x, hx, rfl⟩, by simpa using hl⟩)

/-- The split at which a wave resumes stands at the position that the frame names, with its lanes, while a copy of its offset is
left to issue or none has begun (R374). -/
theorem Wave.resumeSplit_skipEmpty (w : Wave) (r : Dword) (m : Half) (sp : Split) (h : sp.begun = true → sp.copies ≠ []) :
    (w.resumeSplit r m sp).skipEmpty.pos = r ∧ (w.resumeSplit r m sp).skipEmpty.mask = sp.mask := by
  have hn : ((w.resumeSplit r m sp).begun && (w.resumeSplit r m sp).copies.isEmpty) = false := by
    simp only [Wave.resumeSplit]
    split
    · cases hb : sp.begun
      · rfl
      · simpa using h hb
    · rfl
  rw [Split.skipEmpty, if_neg (by simp only [hn, Bool.false_eq_true, not_false_eq_true]), Wave.resumeSplit]
  split <;> exact ⟨rfl, rfl⟩

/-- The split that was issuing when the exception was taken is back in its slot (R42, R374). -/
theorem Wave.trapReturn_split {w : Wave} {r : Dword} {sp : Split} (hs : tget? w.savedSplits w.savedIssuing = some sp)
    (hm : sp.mask &&& ~~~w.retired ≠ 0) (hd : w.savedDeferred = [])
    (hc : sp.begun = true → ∃ x ∈ sp.copies, x.2 &&& ~~~w.retired ≠ 0) :
    ∃ sp', tget? (w.trapReturn r).splits w.savedIssuing = some sp' ∧ sp'.pos = r ∧ sp'.mask = sp.mask &&& ~~~w.retired := by
  let live : Split := { sp with mask := sp.mask &&& w.live, copies := liveCopies w.live sp.copies }
  let back : Split := ({ w with planes := w.savedPlanes } : Wave).resumeSplit r (BitVec.ofNat 16 (memNat w.frame 44 2)) live
  have hlive : tget? w.liveSplits w.savedIssuing = some live :=
    tget?_filter_of_some (by rw [tget?_tmap, hs]; rfl) (by simpa [live, Wave.live] using hm)
  have hback : tget? (w.trapReturn r).splits w.savedIssuing = some back.skipEmpty := by
    have hfill : w.trapReturn r = _ := Wave.fillSlots_nil (by simp [Wave.liveDeferred, hd])
    rw [hfill]
    show tget? (tmap (tmodify w.liveSplits w.savedIssuing _) Split.skipEmpty) w.savedIssuing = _
    rw [tget?_tmap, tget?_tmodify, if_pos rfl, hlive]
    rfl
  exact ⟨_, hback, Wave.resumeSplit_skipEmpty _ _ _ live (fun hb => liveCopies_ne_nil (hc hb))⟩

/-- The work that starts again at a return changes the wave by its count of engine work alone, and no byte of memory. -/
theorem State.curWave_replayWork {s : State} (h : s.waveAlive = true) :
    ∃ n, (s.replayWork s.issue.wave).curWave = { s.curWave with engPending := n } := by
  let u : State := { s with blocks := (s.replayWork s.issue.wave).blocks, clusters := (s.replayWork s.issue.wave).clusters }
  exact ⟨_, State.curWave_modCur u (fun w => { w with engPending := _ }) h⟩

/-- Merging changes the splits, the deferred list and its count alone. -/
theorem Wave.mergeDeferred_frame (w : Wave) :
    ∃ ss ds n, w.mergeDeferred = { w with splits := ss, deferred := ds, passes := n } := by
  simp only [Wave.mergeDeferred]
  generalize hu : List.foldl _ _ w.deferred = u
  obtain ⟨ss, ds, rfl⟩ : ∃ ss ds, u = { w with splits := ss, deferred := ds } := by
    rw [← hu]
    refine List.foldlRecOn (motive := fun u => ∃ ss ds, u = ({ w with splits := ss, deferred := ds } : Wave)) w.deferred _
      ⟨_, _, rfl⟩ ?_
    rintro _ ⟨ss, ds, rfl⟩ d -
    dsimp only
    split
    · exact ⟨_, _, rfl⟩
    · exact ⟨_, _, rfl⟩
  split
  · exact ⟨ss, ds, w.passes, rfl⟩
  · exact ⟨ss, ds, 0, rfl⟩

/-- A wave whose lanes alone have moved keeps the rest when issue goes to another slot, but for the latches, all lost (R25, R29). -/
theorem State.issueTo_frame (s : State) (w : Wave) {u : Wave}
    (h : ∃ ss ds n m, u = { w with splits := ss, deferred := ds, passes := n, passSlot := m }) : ∃ ls ss k ds n m,
    (if s.nextSlot u = u.issuing then u else { u.loseLatches with issuing := s.nextSlot u }) =
      { w with latches := ls, splits := ss, issuing := k, deferred := ds, passes := n, passSlot := m } ∧
      (ls = w.latches ∨ ls = []) := by
  obtain ⟨ss, ds, n, m, rfl⟩ := h
  split
  · exact ⟨_, _, _, _, _, _, rfl, .inl rfl⟩
  · exact ⟨_, _, _, _, _, _, rfl, .inr rfl⟩

/-- Counting a pass changes the count alone (R27). -/
theorem Wave.counted_frame (w : Wave) {u : Wave} (c : Bool) (h : ∃ ss ds n, u = { w with splits := ss, deferred := ds, passes := n }) :
    ∃ ss ds n m, (if c then { u with passes := u.passes + 1, passSlot := u.issuing } else u) =
      { w with splits := ss, deferred := ds, passes := n, passSlot := m } := by
  obtain ⟨ss, ds, n, rfl⟩ := h
  cases c
  · exact ⟨ss, ds, n, _, rfl⟩
  · exact ⟨ss, ds, _, _, rfl⟩

/-- A pass keeps everything of a wave but where its lanes stand and what counts for that, and loses no latch or all of them
(R25, R29). -/
theorem State.pass_frame (s : State) (w : Wave) : ∃ ls ss k ds n m,
    s.pass w = { w with latches := ls, splits := ss, issuing := k, deferred := ds, passes := n, passSlot := m } ∧
      (ls = w.latches ∨ ls = []) :=
  s.issueTo_frame w (Wave.counted_frame w _ (Wave.mergeDeferred_frame { w with splits := _ }))

/-- What a return from an exception makes of wave w, wherever its lanes then stand: the MODE of the frame, the planes saved at
entry, no handler mode and no latch (R374). -/
def Wave.returnsAs (w v : Wave) : Prop :=
  v.handler = false ∧ v.mode = BitVec.ofNat 16 (memNat w.frame 44 2) ∧ v.planes = w.savedPlanes ∧ v.latches = [] ∧
    v.vregs = w.vregs ∧ v.sregs = w.sregs ∧ v.preds = w.preds ∧ v.retired = w.retired

theorem Wave.returnsAs_trapReturn (w : Wave) (r : Dword) (n : Nat) : w.returnsAs { w.trapReturn r with engPending := n } := by
  obtain ⟨ss, ds, m, e⟩ := w.trapReturn_frame r
  rw [e]
  exact ⟨rfl, rfl, rfl, rfl, rfl, rfl, rfl, rfl⟩

theorem Wave.returnsAs_pass {w v : Wave} (s : State) (h : w.returnsAs v) : w.returnsAs (s.pass v) := by
  obtain ⟨hh, hm, hp, hl, hv, hs, hpr, hr⟩ := h
  obtain ⟨ls, ss, k, ds, n, m, e, hls⟩ := s.pass_frame v
  rw [e]
  exact ⟨hh, hm, hp, hls.elim (·.trans hl) id, hv, hs, hpr, hr⟩

/-- A wave without latches has lost each of them (R25). -/
theorem Wave.latch_of_nil {w : Wave} (h : w.latches = []) (p k : Nat) : w.latch p k = .lost := by
  rw [Wave.latch, h]; rfl

/-- The state in which a wave is back from an exception at position r, its work started again (R374). -/
def State.backAt (s : State) (r : Dword) : State :=
  ((s.released s.curWave.core 6).modCur (fun w => w.trapReturn r)).replayWork s.issue.wave

theorem State.waveAlive_backAt (s : State) (r : Dword) : (s.backAt r).waveAlive = s.waveAlive :=
  (State.waveAlive_modCur { ((s.released s.curWave.core 6).modCur (fun w => w.trapReturn r)) with
      blocks := (s.backAt r).blocks, clusters := (s.backAt r).clusters } (fun w => { w with engPending := _ })).trans
    ((s.released s.curWave.core 6).waveAlive_modCur _)

/-- At a position that the form of its image can hold the wave goes on there, or issue passes on from its empty slot. -/
theorem State.trapReturn_aligned {s : State} {r : Dword} (h : r = s.curCtx.position (BitVec.ofNat 64 (memNat s.curWave.frame 0 8)))
    (ha : r.toNat % formAlign (s.curCtx.formAt r) = 0) :
    s.trapReturn = if (tget? (s.backAt r).curWave.splits s.curWave.savedIssuing).isSome then s.backAt r else (s.backAt r).passCur := by
  subst h
  exact if_neg (by simpa using ha)

theorem State.curWave_backAt {s : State} (r : Dword) (h : s.waveAlive = true) : ∃ n,
    (s.backAt r).curWave = { s.curWave.trapReturn r with engPending := n } := by
  let u : State := (s.released s.curWave.core 6).modCur (fun w => w.trapReturn r)
  obtain ⟨n, hn⟩ := State.curWave_replayWork (s := u) ((s.released _ 6).waveAlive_modCur _ |>.trans h)
  have hu : u.curWave = s.curWave.trapReturn r := State.curWave_modCur (s.released s.curWave.core 6) _ h
  exact ⟨n, hn.trans (by rw [hu])⟩

/-- Settles O18. -/
theorem tretReturns : Obligations.TretReturns := by
  intro s hs hq w r hr
  have hgate : s.begun.gate 6 true true = none := hq.elim State.gate_of_coreQuiet id
  have hw : s.begun.curWave = { w with resumed := false } := s.begun_curWave
  let s1 : State := s.begun.backAt r
  let t : State := if (tget? s1.curWave.splits w.savedIssuing).isSome then s1 else s1.passCur
  have hexec : exec .tret s = .next t := by
    rw [exec_tret, execTret, issueOp_issues _ _ _ hs]
    simp only [hgate]
    rw [State.trapReturn_aligned (r := r) (by rw [State.begun_curCtx, hw]) (by rw [State.begun_curCtx]; exact hr), hw]
  have halive : s.begun.waveAlive = true := by rw [s.begun_alive]; exact hs.1
  have halive1 : s1.waveAlive = true := by
    rw [State.waveAlive_backAt]; exact halive
  obtain ⟨n, hn⟩ := State.curWave_backAt r halive
  have h1 : w.returnsAs s1.curWave := by
    rw [show s1.curWave = _ from hn, hw]
    exact Wave.returnsAs_trapReturn { w with resumed := false } r n
  have ht : w.returnsAs t.curWave := by
    simp only [t]
    split
    · exact h1
    · rw [State.passCur, State.curWave_modCur _ _ halive1]; exact Wave.returnsAs_pass s1 h1
  have hmem : t.mem = s.mem := by simp only [t]; split <;> rfl
  obtain ⟨hh, hm, hp, hl, hv, hsr, hpr, hret⟩ := ht
  refine ⟨t, hexec, hh, hm, hp, Wave.latch_of_nil hl, hv, hsr, hpr, hret, fun a => by rw [hmem], ?_⟩
  intro sp hsp hmask hdef hcopies
  obtain ⟨sp', hsp', hpos, hmask'⟩ := Wave.trapReturn_split (w := s.begun.curWave) (r := r) (by rw [hw]; exact hsp) (by rw [hw]; exact hmask)
    (by rw [hw]; exact hdef) (by rw [hw]; exact hcopies)
  obtain ⟨ss, ds, m, e⟩ := s.begun.curWave.trapReturn_frame r
  have hsome : tget? s1.curWave.splits w.savedIssuing = some sp' := by
    rw [show s1.curWave = _ from hn]; rw [hw] at hsp'; rw [hw]; exact hsp'
  have hts : t = s1 := if_pos (by rw [hsome]; rfl)
  refine ⟨sp', by rw [hts]; exact hsome, hpos, hmask'.trans (by rw [hw]), ?_⟩
  rw [hts, show s1.curWave = _ from hn, e, hw]

end Sys2Proof.Machine

namespace Sys2Proof.Machine
open Sys2Proof.Claims

/-! Tile hand-over (R14, R214, R215). -/

theorem Block.tile_modTile (b : Block) (t k : Nat) (f : Tile → Tile) :
    (b.modTile t f).tile k = if k = t then f (b.tile t) else b.tile k := tgetD_tset _ _ _ _ _

theorem Block.tile_modTiles {ts : List Nat} (b : Block) (f : Tile → Tile) (k : Nat) (h : ts.Nodup) :
    (b.modTiles ts f).tile k = if k ∈ ts then f (b.tile k) else b.tile k := by
  induction ts generalizing b with
  | nil => rfl
  | cons t ts ih =>
    obtain ⟨ht, hts⟩ := List.nodup_cons.1 h
    rw [show b.modTiles (t :: ts) f = (b.modTile t f).modTiles ts f from rfl, ih _ hts, Block.tile_modTile]
    by_cases hk : k = t
    · subst hk; simp [ht]
    · simp [hk]

/-- Changing tiles changes nothing else of a block. -/
theorem Block.modTiles_frame (b : Block) (ts : List Nat) (f : Tile → Tile) : ∃ x, b.modTiles ts f = { b with tiles := x } :=
  List.foldlRecOn (motive := fun c => ∃ x, c = ({ b with tiles := x } : Block)) ts _ ⟨_, rfl⟩
    (by rintro _ ⟨x, rfl⟩ t -; exact ⟨_, rfl⟩)

theorem townTiles_nodup (a b : Dword) : (townTiles a b).Nodup :=
  List.Nodup.map (fun _ _ h => Nat.add_left_cancel h) List.nodup_range

theorem mem_townTiles {a b : Dword} {t : Nat} :
    t ∈ townTiles a b ↔ a.toNat / 8192 ≤ t ∧ t < a.toNat / 8192 + b.toNat := by
  simp only [townTiles, List.mem_map, List.mem_range]
  constructor
  · rintro ⟨i, hi, rfl⟩; omega
  · rintro ⟨h1, h2⟩; exact ⟨t - a.toNat / 8192, by omega, by omega⟩

@[simp] theorem State.begun_curBlockId (s : State) : s.begun.curBlockId = s.curBlockId := by
  rw [State.curBlockId, s.begun_curWave]; rfl
@[simp] theorem State.begun_curBlock (s : State) : s.begun.curBlock = s.curBlock := by
  rw [State.curBlock, s.begun_curBlockId]; rfl
@[simp] theorem State.begun_curSize (s : State) : s.begun.curSize = s.curSize := by
  simp only [State.curSize, s.begun_curWave]; rfl

/-- The scratchpad that a wave of a block has is its block's. -/
theorem State.curSize_of_blockHere {s : State} (h : blockHere s) : s.curSize = s.curBlock.size := by
  obtain ⟨b, hb⟩ := Option.isSome_iff_exists.1 h.1
  simp only [State.curSize, State.curBlock, State.curBlockId, hb]; rfl

/-- A hand-over of tiles, with nothing else changed but the records of the cores: the engine work, registers and memory of the
waves stand as before (R214). -/
theorem State.modTiles_handOver {s : State} (cs : Tbl Core) {ts : List Nat} (f : Tile → Tile)
    (hb : blockHere s) (hts : ts.Nodup) :
    let u := ({ s.begun with cores := cs } : State).modTiles s.curBlockId ts f
    workFrame s u ∧ ∀ t, (u.block s.curBlockId).tile t = if t ∈ ts then f (s.curBlock.tile t) else s.curBlock.tile t := by
  intro u
  have hblock (b : Nat) : u.block b = if b = s.curBlockId then (s.block b).modTiles ts f else s.block b := by
    rw [show u.block b = _ from State.block_modBlock _ _ _ _ hb.2]
    split
    · subst b; rfl
    · rfl
  have hwave : u.curWave = { s.curWave with resumed := false } := s.begun_curWave
  refine ⟨⟨rfl, fun b => ?_, fun k hk => State.tget?_modCur_other s _ hk, ?_, ?_, ?_, ?_, ?_, ?_⟩, fun t => ?_⟩
  · rw [hblock]
    obtain ⟨x, e⟩ := (s.block b).modTiles_frame ts f
    split
    · rw [e]; exact ⟨rfl, rfl, rfl⟩
    · exact ⟨rfl, rfl, rfl⟩
  iterate 6 rw [hwave]
  rw [hblock, if_pos rfl]
  exact Block.tile_modTiles _ f t hts

/-- An aligned span of 1 to 48 tiles inside the scratchpad passes the checks of TOWN (R214). -/
theorem State.townCheck_eq_none {s : State} {a b : Dword} (hb : blockHere s) (ha : a.toNat % 8192 = 0) (h1 : 1 ≤ b.toNat)
    (h2 : b.toNat ≤ 48) (hs : a.toNat + 8192 * b.toNat ≤ s.curBlock.size) : s.begun.townCheck a b = none := by
  rw [State.townCheck, s.begun_curSize, State.curSize_of_blockHere hb, if_neg (by simp [ha]),
    if_neg (by simp only [Bool.or_eq_true, decide_eq_true_eq]; omega), if_neg (by omega)]

/-- A give of tiles that are all THREAD-owned, with its release met, makes them ENGINE-owned and held by nothing (R214). -/
theorem exec_townGive_done {s : State} {a b : SSrc} (hi : s.issues (.townGive a b)) (hm : s.activeMask ≠ 0)
    (hc : s.begun.townCheck (s.readS64 a) (s.readS64 b) = none)
    (ht : ∀ t ∈ townTiles (s.readS64 a) (s.readS64 b), (s.curBlock.tile t).engine = false) (hg : s.begun.gate 1 true false = none) :
    exec (.townGive a b) s = .next (((s.begun.released s.curWave.core 1).modTiles s.curBlockId (townTiles (s.readS64 a) (s.readS64 b))
      (fun t => { t with engine := true, holder := .none })).finishYield) := by
  have hfind : (townTiles (s.readS64 a) (s.readS64 b)).find? (fun t => (s.curBlock.tile t).engine) = none :=
    List.find?_eq_none.2 (fun t h => by simp [ht t h])
  rw [exec_townGive, execTownGive, issueOp_issues _ _ _ hi]
  simp only [State.begun_readS64, State.begun_activeMask, if_neg hm, hc, State.orElse, State.begun_curBlock, hfind, hg,
    State.begun_core, State.begun_curBlockId]

/-- A take of tiles that the engines offer makes them THREAD-owned (R214). -/
theorem exec_townTake_done {s : State} {a b : SSrc} (hi : s.issues (.townTake a b)) (hm : s.activeMask ≠ 0)
    (hc : s.begun.townCheck (s.readS64 a) (s.readS64 b) = none)
    (ht : ∀ t ∈ townTiles (s.readS64 a) (s.readS64 b), (s.curBlock.tile t).offered = true) :
    exec (.townTake a b) s = .next ((s.begun.modTiles s.curBlockId (townTiles (s.readS64 a) (s.readS64 b))
      (fun t => { t with engine := false })).finishYield) := by
  have hfind : (townTiles (s.readS64 a) (s.readS64 b)).find? (fun t => !(s.curBlock.tile t).offered) = none :=
    List.find?_eq_none.2 (fun t h => by simp [ht t h])
  rw [exec_townTake, execTownTake, issueOp_issues _ _ _ hi]
  simp only [State.begun_readS64, State.begun_activeMask, if_neg hm, hc, State.orElse, State.begun_curBlock, hfind,
    State.begun_curBlockId]

/-- A first TWAIT reads the tile and the state that its sources name, a woken one those that it first named (R215). -/
theorem exec_twait_read {s : State} {d : SDst} {a b : SSrc} {k e : Nat} {now : Bool} (hi : s.issues (.twait d a b)) (hb : blockHere s)
    (hm : s.activeMask ≠ 0)
    (h : (s.curSplit.wait = some (.twait k e) ∧ now = false) ∨
      ((∀ i j, s.curSplit.wait ≠ some (.twait i j)) ∧ (s.readS64 a).toNat < s.curBlock.size ∧ k = (s.readS64 a).toNat / 8192 ∧
        e = (s.readS64 b).toNat % 4 ∧ now = decide ((s.readS64 b).toNat / 4 % 2 = 1))) :
    exec (.twait d a b) s = .next (s.begun.twaitRead d k e now) := by
  rw [exec_twait, execTwait, issueOp_issues _ _ _ hi]
  simp only [State.begun_split, State.begun_readS64, State.begun_activeMask, State.begun_curSize, State.curSize_of_blockHere hb]
  rcases h with ⟨hw, rfl⟩ | ⟨hw, hsz, rfl, rfl, rfl⟩
  · simp only [hw]
  · split
    · exact absurd ‹_› (hw _ _)
    · rw [if_neg hm, if_neg (by omega), Nat.testBit_eq_decide_div_mod_eq]

/-- A tile is in the state that TWAIT's B names. -/
theorem Tile.expected_iff (t : Tile) (e : Nat) : (t.engine == e.testBit 1 && t.phase == e.testBit 0) = true ↔
    t.engine = decide (e / 2 % 2 = 1) ∧ t.phase = decide (e % 2 = 1) := by
  simp [Nat.testBit_eq_decide_div_mod_eq]

/-- Memory and the blocks are not of the wave that issues. -/
theorem State.onlyCur_mem_blocks {s t : State} (h : s.onlyCur t) : t.mem = s.mem ∧ t.blocks = s.blocks := by
  have hm := congrArg State.mem h.1
  have hb := congrArg State.blocks h.1
  exact ⟨hm, hb⟩

/-- A TWAIT that ends writes the state word of the tile (R14, R215). -/
theorem exec_twait_done {s : State} {d : SDst} {a b : SSrc} {k e : Nat} {now : Bool} (hi : s.issues (.twait d a b)) (hm : s.activeMask ≠ 0)
    (hx : exec (.twait d a b) s = .next (s.begun.twaitRead d k e now))
    (hd : now = true ∨ (s.curBlock.tile k).engine = decide (e / 2 % 2 = 1) ∧ (s.curBlock.tile k).phase = decide (e % 2 = 1)) :
    ∃ u : State, exec (.twait d a b) s = .next u.finishYield ∧ u.mem = s.mem ∧ u.blocks = s.blocks ∧
      (∀ r, u.curWave.sreg r = if sdstReg d = some r then BitVec.ofNat 64 ((s.curBlock.tile k).word s.curWave.ctx) else s.curWave.sreg r) ∧
      u.curWave.vregs = s.curWave.vregs ∧ u.curWave.preds = s.curWave.preds := by
  let v : Dword := BitVec.ofNat 64 ((s.curBlock.tile k).word s.curWave.ctx)
  obtain ⟨hmem, hblocks⟩ := State.onlyCur_mem_blocks (State.onlyCur_putS s.onlyCur_begun d v)
  obtain ⟨rs, cs, ls, hw, hr⟩ := State.curWave_putS (s := s.begun) d v (by rw [s.begun_alive]; exact hi.1)
  refine ⟨s.begun.putS d v, ?_, hmem, hblocks, fun r => ?_, ?_, ?_⟩
  · have hctx : s.begun.curWave.ctx = s.curWave.ctx := by rw [s.begun_curWave]
    rw [hx, State.twaitRead, s.begun_curBlock, hctx, if_pos (by rw [Bool.or_eq_true, Tile.expected_iff]; exact hd)]
  · rw [hw, show (Wave.written _ _ _ _ _).sreg r = _ from hr r, s.begun_activeMask, s.begun_sreg]
    simp only [hm, ne_eq, not_false_eq_true, true_and, v]
  · rw [hw, s.begun_curWave]; rfl
  · rw [hw, s.begun_curWave]; rfl

/-- Settles O36. -/
theorem tileHandOver : Obligations.TileHandOver := by
  intro s a b hb hm av n inSpan
  refine ⟨fun h1 h2 h3 h4 => ?_, fun d hi k e now h => ?_⟩
  · have hc : s.begun.townCheck (s.readS64 a) (s.readS64 b) = none := State.townCheck_eq_none hb h1 h2 h3 h4
    have hspan (t : Nat) : t ∈ townTiles (s.readS64 a) (s.readS64 b) ↔ inSpan t := mem_townTiles
    refine ⟨fun hi ht hg => ?_, fun hi ht => ?_⟩
    · obtain ⟨hf, hu⟩ := State.modTiles_handOver (s.begun.released s.curWave.core 1).cores
        (fun t => { t with engine := true, holder := .none }) hb (townTiles_nodup (s.readS64 a) (s.readS64 b))
      refine ⟨_, exec_townGive_done hi hm hc (fun t h => ht t ((hspan t).1 h)) hg, hf, fun t => ⟨fun h => ?_, fun h => ?_⟩⟩
      · exact (hu t).trans (if_pos ((hspan t).2 h))
      · exact (hu t).trans (if_neg (mt (hspan t).1 h))
    · obtain ⟨hf, hu⟩ := State.modTiles_handOver s.cores
        (fun t => { t with engine := false }) hb (townTiles_nodup (s.readS64 a) (s.readS64 b))
      refine ⟨_, exec_townTake_done hi hm hc (fun t h => ?_), hf, fun t => ⟨fun h => ?_, fun h => ?_⟩⟩
      · obtain ⟨he, hh⟩ := ht t ((hspan t).1 h)
        rw [Tile.offered, he, hh]; rfl
      · exact (hu t).trans (if_pos ((hspan t).2 h))
      · exact (hu t).trans (if_neg (mt (hspan t).1 h))
  · have hx := exec_twait_read hi hb hm h
    refine ⟨exec_twait_done hi hm hx, fun hn hs => ?_⟩
    rw [hx, State.twaitRead, s.begun_curBlock, if_neg (by
      rw [Bool.or_eq_true, Tile.expected_iff, hn]
      exact fun h => h.elim Bool.false_ne_true hs)]

end Sys2Proof.Machine

namespace Sys2Proof.Machine
open Sys2Proof.Claims

/-! The events of a wave's life, and a core's retirement (R244, R342, R380, R381). -/

/-- A cluster whose running owner's save area begins with the line of a decant record that is live at the cluster: the pre-emption
that the retirement of a core of the cluster asks for writes that line (R381), so the record breaks (R244). -/
def recordInHeader : State :=
  { waves := [(0, {})], ctxs := [(0, {})], clusters := [(0, { owner := some 0, counters := [(0, {})] })] }

/-- That cluster once CORE_RETIRE of its core 0 has begun: its owner is pre-empted. -/
def headerWritten : State :=
  (({ recordInHeader with retiring := [(0, 0)] } : State).preemptNow 0).modCtx 0 (fun x => { x with retireHold := true })

theorem exec_coreRetire_recordInHeader : exec (.coreRetire 0 0) recordInHeader = .next headerWritten := by
  rw [exec_coreRetire]; rfl

/-- The record was live in the home table of the cluster, and has left it. -/
theorem headerWritten_breaks_record :
    (recordInHeader.cluster 0).counters.isEmpty = false ∧ (headerWritten.cluster 0).counters.isEmpty = true := by decide +kernel

/-- Refutes O48: in `recordInHeader`, CORE_RETIRE of core 0 of cluster 0 pre-empts context 0, whose header is written over the live
record, which leaves the home table of the cluster; the statement has the clusters as they stood. -/
theorem not_waveLifeEvents : ¬ Obligations.WaveLifeEvents := by
  intro h
  obtain ⟨-, -, -, -, -, hretire⟩ := h recordInHeader 0 {} rfl
  obtain ⟨-, hpreempt⟩ := hretire 0 0 (by decide) (by decide) rfl rfl rfl (fun p hp => absurd hp List.not_mem_nil)
  obtain ⟨t, ht, -, -, -, hclusters, -⟩ := hpreempt 0 {} rfl rfl rfl
  have ht' : t = headerWritten := by
    rw [exec_coreRetire_recordInHeader] at ht
    cases ht; rfl
  obtain ⟨hlive, hbroken⟩ := headerWritten_breaks_record
  rw [State.cluster, ← ht', hclusters] at hbroken
  rw [State.cluster, hbroken] at hlive
  cases hlive

end Sys2Proof.Machine

namespace Sys2Proof.Machine
open Sys2Proof.Claims

/-! The state after reset, and a wave at its start (R43, R422). -/

/-- The scalar registers beyond the first four of a wave at its start are 0 (R43). -/
theorem startWave_sreg_of_ge (l : Launch) (k b core index rank gang i clk : Nat) (entry : Dword) (d : WaveDecl) (active : Bool) {n : Nat}
    (h : 4 ≤ n) : (startWave l k b core index rank gang i clk entry d active).sreg n = 0 := by
  have hn (m : Nat) (hm : m < 4) : m ≠ n := by omega
  simp [Wave.sreg, startWave, tgetD, tget?, hn]

/-- Settles O56. -/
theorem resetState : Obligations.ResetState :=
  ⟨⟨rfl, rfl, rfl, rfl, rfl, rfl, rfl, rfl, rfl, rfl, rfl, rfl, rfl, rfl, rfl, State.reset_wf, fun _ => ⟨rfl, rfl⟩⟩,
    fun _ _ _ _ _ _ _ _ _ _ _ _ => ⟨rfl, rfl, rfl, rfl, fun _ => startWave_sreg_of_ge _ _ _ _ _ _ _ _ _ _ _ _, rfl, rfl, rfl, fun _ => rfl,
      fun _ _ => rfl, rfl, rfl, rfl, rfl, rfl, rfl⟩⟩

end Sys2Proof.Machine

namespace Sys2Proof.Machine
open Sys2Proof.Claims

/-! A step of a wave (R34, R37, R47, R78, R90, R92). -/

theorem tset_tset {α : Type} (t : Tbl α) (n : Nat) (v x : α) : tset (tset t n v) n x = tset t n x := by
  induction t with
  | nil => simp [tset]
  | cons q t ih =>
    obtain ⟨k, y⟩ := q
    simp only [tset]
    rcases Nat.lt_trichotomy n k with h | h | h
    · simp [h, tset]
    · simp [h, tset]
    · have h1 : ¬ n < k := by omega
      have h2 : n ≠ k := by omega
      simp only [if_neg h1, if_neg h2, tset, ih]

theorem tmodify_of_some {α : Type} {t : Tbl α} {n : Nat} {v : α} (f : α → α) (h : tget? t n = some v) : tmodify t n f = tset t n (f v) := by
  simp only [tmodify, h]

/-- Changing a wave that is w is putting the changed one in its place. -/
theorem State.modWave_of_some {s : State} {wid : Nat} {w : Wave} (f : Wave → Wave) (h : tget? s.waves wid = some w) :
    s.modWave wid f = s.modWave wid (fun _ => f w) := by
  simp only [State.modWave, tmodify_of_some _ h]

theorem State.modWave_const_modWave_const {s : State} {wid : Nat} {w : Wave} (h : tget? s.waves wid = some w) (v x : Wave) :
    (s.modWave wid (fun _ => v)).modWave wid (fun _ => x) = s.modWave wid (fun _ => x) := by
  have hv : tget? (tset s.waves wid v) wid = some v := tget?_tset_same _ _ _
  simp only [State.modWave, tmodify_of_some _ h, tmodify_of_some _ hv, tset_tset]

/-- A wave of one split that nothing waits for: no deferred entry, no cause, and an instruction that has not begun. -/
structure Wave.Single (w : Wave) (slot : Nat) (sp : Split) : Prop where
  splits : w.splits = [(slot, sp)]
  issuing : w.issuing = slot
  deferred : w.deferred = []
  causes : w.causes = []
  wait : sp.wait = none
  begun : sp.begun = false
  yields : sp.yields = false
  copies : sp.copies = []

theorem Wave.Single.tget? {w : Wave} {slot : Nat} {sp : Split} (h : w.Single slot sp) : tget? w.splits w.issuing = some sp := by
  rw [h.splits, h.issuing]; simp [Machine.tget?]

theorem Wave.Single.split {w : Wave} {slot : Nat} {sp : Split} (h : w.Single slot sp) : w.split = sp := by
  rw [Wave.split, tgetD, h.tget?]; rfl

/-- No pass is owed. -/
theorem Wave.Single.settled {w : Wave} {slot : Nat} {sp : Split} (h : w.Single slot sp) (s : State) : s.settled w = w := by
  rw [State.settled, h.split, h.yields]; rfl

/-- No rotation is due. -/
theorem Wave.Single.rotateDue {w : Wave} {slot : Nat} {sp : Split} (h : w.Single slot sp) : w.rotateDue = false := by
  simp [Wave.rotateDue, h.deferred]

/-- Its split issues. -/
theorem Wave.Single.pickSlot {w : Wave} {slot : Nat} {sp : Split} (h : w.Single slot sp) (s : State) : s.pickSlot w = some w.issuing := by
  have hcause : (if w.handler then none else (List.range 4).find? (fun k =>
      (Machine.tget? w.splits k).any (fun sp => w.causes.any (fun t => s.wakes t sp)))) = none := by
    split
    · rfl
    · exact List.find?_eq_none.2 (fun k _ => by simp [h.causes])
  have hcan : s.canIssue w sp = true := by simp [State.canIssue, State.waitMet, h.wait]
  simp only [State.pickSlot, hcause, h.tget?, hcan, if_true]

/-- It merges with no other. -/
theorem Wave.Single.merge {w : Wave} {slot : Nat} {sp : Split} (h : w.Single slot sp) : w.merge = w := by
  have hone : w.mergeOne = w := by
    have hnone : w.splits.find? (fun p => p.1 != w.issuing && p.2.pos == sp.pos && p.2.joins) = none := by
      rw [h.splits, h.issuing]; simp
    simp only [Wave.mergeOne, h.split, hnone, ite_self]
  exact List.foldlRecOn (motive := fun u => u = w) (List.range 11) _ rfl (by rintro _ rfl _ -; exact hone)

/-- A wave of one split is fetched as it stands. -/
theorem State.prepare_single {s : State} {wid slot : Nat} {w : Wave} {sp : Split} (hw : tget? s.waves wid = some w) (h : w.Single slot sp) :
    s.prepare wid = (s.modWave wid (fun _ => w)).fetchSplit wid := by
  have hsettled : s.modWave wid s.settled = s.modWave wid (fun _ => w) := by rw [s.modWave_of_some _ hw, h.settled]
  have hget : tget? (s.modWave wid (fun _ => w)).waves wid = some w := by simp [State.modWave, tget?_tmodify, hw]
  have hmove : (w.moveTo w.issuing).merge = w := by rw [Wave.moveTo, if_pos rfl, h.merge]
  have hwave : tgetD (s.modWave wid (fun _ => w)).waves wid {} = w := by rw [tgetD, hget]; rfl
  simp only [State.prepare, hsettled, hwave, h.rotateDue, h.pickSlot]
  rw [State.modWave_of_some _ hget, hmove, State.modWave_const_modWave_const hw]
  rfl

/-! Fetch (R34, R78, R92). -/

/-- Code that is translated and cached is read from its line. -/
theorem State.fetchBytes_cached {s : State} {core ctx n : Nat} {va : Dword} {l : List Byte} (k : Nat → Fetched)
    (hx : ∃ pa, s.xlate core ctx va .fetch = .ok pa) (hl : tget? (s.core core).icache (codeKeyOf ctx va) = some l) :
    s.fetchBytes core ctx va n k = k (leNat ((l.drop (va.toNat % 128)).take n)) := by
  obtain ⟨pa, hx⟩ := hx
  simp only [State.fetchBytes, hx, hl]

/-- The bytes of a word that does not pass the end of its line are those of the line. -/
theorem codeAt_take {s : State} {core ctx n : Nat} {pos : Dword} {l : List Byte}
    (hl : tget? (s.core core).icache (codeKeyOf ctx pos) = some l) (hlen : l.length = 128) (hn : pos.toNat % 128 + n ≤ 128) :
    (codeAt s core ctx pos).take n = (l.drop (pos.toNat % 128)).take n := by
  rw [codeAt, tgetD, hl]
  exact List.take_append_of_le_length (by simp only [Option.getD_some, List.length_drop]; omega)

/-- The bytes of a literal that follows an aligned word are those of its own line, the same or the next. -/
theorem codeAt_literal {s : State} {core ctx : Nat} {pos : Dword} {l m : List Byte}
    (hl : tget? (s.core core).icache (codeKeyOf ctx pos) = some l) (hlen : l.length = 128)
    (hm : tget? (s.core core).icache (codeKeyOf ctx (pos + 4)) = some m) (ha : pos.toNat % 4 = 0) :
    ((codeAt s core ctx pos).drop 4).take 4 = (m.drop ((pos + 4).toNat % 128)).take 4 := by
  have hadd : (pos + 4).toNat = (pos.toNat + 4) % 2 ^ 64 := BitVec.toNat_add pos 4
  have hlt : pos.toNat < 2 ^ 64 := pos.isLt
  rw [codeAt, tgetD, hl, Option.getD_some]
  by_cases h : 124 ≤ pos.toNat % 128
  · have h124 : pos.toNat % 128 = 124 := by omega
    have h0 : (pos + 4).toNat % 128 = 0 := by omega
    rw [if_pos h, tgetD, hm, h124, h0, List.drop_append_of_le_length (by simp [hlen]), List.drop_drop, List.drop_eq_nil_of_le (by omega)]
    rfl
  · have hkey : codeKeyOf ctx (pos + 4) = codeKeyOf ctx pos := by
      simp only [codeKeyOf]; omega
    have hoff : (pos + 4).toNat % 128 = pos.toNat % 128 + 4 := by omega
    have hlm : l = m := by rw [hkey, hl] at hm; exact Option.some.inj hm
    rw [if_neg h, List.append_nil, List.drop_drop, hoff, hlm]

/-- A Bintodal instruction is the 8 bytes at its position (R92). -/
theorem State.fetchPlane_bintodal {s : State} {core ctx : Nat} {pos : Dword} {l : List Byte} (acc : Option (Dword × Nat × Nat))
    (hx : ∃ pa, s.xlate core ctx pos .fetch = .ok pa) (hl : tget? (s.core core).icache (codeKeyOf ctx pos) = some l)
    (hlen : l.length = 128) (ha : pos.toNat % 8 = 0) :
    s.fetchPlane core ctx .bintodal acc pos pos = .ok (BitVec.ofNat 64 (leNat ((codeAt s core ctx pos).take 8))) 0 8 false := by
  rw [codeAt_take hl hlen (by omega), State.fetchPlane, State.fetchBytes_cached _ hx hl]

/-- A Quadiner instruction is the word at its position, and the word after it if it has a literal (R78). -/
theorem State.fetchPlane_quadiner {s : State} {core ctx : Nat} {pos : Dword} {l : List Byte} {acc : Option (Dword × Nat × Nat)}
    (hx : ∃ pa, s.xlate core ctx pos .fetch = .ok pa) (hl : tget? (s.core core).icache (codeKeyOf ctx pos) = some l)
    (hlen : l.length = 128) (ha : pos.toNat % 4 = 0) :
    let bytes := codeAt s core ctx pos
    let long := wordHasLiteral (BitVec.ofNat 32 (leNat (bytes.take 4)))
    (long = true → literalBeyond acc pos = false ∧ (∃ pa, s.xlate core ctx (pos + 4) .fetch = .ok pa) ∧
      ∃ m, tget? (s.core core).icache (codeKeyOf ctx (pos + 4)) = some m ∧ m.length = 128) →
    s.fetchPlane core ctx .quadiner acc pos pos = .ok (BitVec.ofNat 64 (leNat (bytes.take 4)))
      (if long then BitVec.ofNat 32 (leNat ((bytes.drop 4).take 4)) else 0) (if long then 8 else 4) false := by
  intro bytes long hlong
  have hword : (l.drop (pos.toNat % 128)).take 4 = bytes.take 4 := (codeAt_take hl hlen (by omega)).symm
  rw [State.fetchPlane, State.fetchBytes_cached _ hx hl, hword]
  cases h : long with
  | false => simp [show wordHasLiteral _ = false from h]
  | true =>
    obtain ⟨hb, hx', m, hm, -⟩ := hlong h
    have hlit : (m.drop ((pos + 4).toNat % 128)).take 4 = (bytes.drop 4).take 4 := (codeAt_literal hl hlen hm ha).symm
    simp only [show wordHasLiteral _ = true from h, hb, Bool.not_true, Bool.false_eq_true, if_false, if_true]
    rw [State.fetchBytes_cached _ hx' hm, hlit]

/-- Plane 0 fetches at the position itself (R34). -/
theorem planeAddress_zero (acc : Option (Dword × Nat × Nat)) (pos : Dword) : planeAddress acc pos 0 = pos := by
  cases acc with
  | none => rfl
  | some a => simp [planeAddress]

theorem State.cacheXlate_waves (s : State) (core ctx : Nat) (va : Dword) : (s.cacheXlate core ctx va).waves = s.waves := by
  simp only [State.cacheXlate]
  split
  · rfl
  · split
    · rfl
    · split <;> rfl

theorem State.cacheFetch_waves (s : State) (w : Wave) (sp : Split) : (s.cacheFetch w sp).waves = s.waves :=
  List.foldlRecOn (motive := fun (u : State) => u.waves = s.waves) (w.offsetCopies sp) _ rfl
    (fun (u : State) hu _ _ => (u.cacheXlate_waves _ _ _).trans hu)

/-- A wave of one split whose lanes stand in plane 0, once its instruction is fetched there, goes on to the checks before issue
(R90). -/
theorem State.fetchSplit_single {s : State} {wid slot len : Nat} {w : Wave} {sp : Split} {word : Dword} {lit : Word}
    (hw : tget? s.waves wid = some w) (h : w.Single slot sp) (hp : w.copiesFrom sp.mask 0 = [(0, sp.mask)])
    (ha : sp.pos.toNat % formAlign (((s.cacheFetch w sp).ctx w.ctx).formAt sp.pos) = 0)
    (hf : (s.cacheFetch w sp).fetchPlane w.core w.ctx (((s.cacheFetch w sp).ctx w.ctx).formAt sp.pos)
      (((s.cacheFetch w sp).ctx w.ctx).accordAt sp.pos) sp.pos sp.pos = .ok word lit len false) :
    s.fetchSplit wid = (s.cacheFetch w sp).issueSplit wid (((s.cacheFetch w sp).ctx w.ctx).formAt sp.pos) sp
      [⟨0, sp.mask, word, lit, len, false⟩] := by
  have hcopies : w.offsetCopies sp = [(0, sp.mask)] := by simp [Wave.offsetCopies, h.begun, h.copies, hp]
  have hwave : tgetD s.waves wid {} = w := by rw [tgetD, hw]; rfl
  have hall : (s.cacheFetch w sp).fetchAll w sp = [((0, sp.mask), .ok word lit len false)] := by
    simp only [State.fetchAll, hcopies, List.map_cons, List.map_nil, planeAddress_zero, hf]
  simp only [State.fetchSplit, hwave, h.split, ha, hall, hcopies]
  simp [neededLines, planeFetches]

/-- The issuing split of a wave, as its instruction at this offset begins. -/
def State.startSplit (s : State) (wid : Nat) (x : Split) : State :=
  s.modWave wid (fun w => { w with splits := tset w.splits w.issuing x })

/-- What is issued for the copy of plane 0, which has all the lanes of the split (R37). -/
def Wave.issueAt (w : Wave) (s : State) (wid : Nat) (sp : Split) (form : CodeForm) (word : Dword) (lit : Word) (len : Nat) : Issue := {
  wave := wid, plane := 0, inv := planeInvariant (opcOf form word) && opcOf form word != 0, lanes := sp.mask,
  mode := match form with | .quadiner => w.mode | .bintodal => bintodalMode word,
  form := form, pc := sp.pos, len := len, iword := word, lit := lit, mmrev := (s.ctx w.ctx).mmrevAt sp.pos }

/-- The state in which the copy of plane 0 issues, its split as given. -/
def State.issuesAs (s : State) (wid : Nat) (w : Wave) (sp : Split) (form : CodeForm) (word : Dword) (lit : Word) (len : Nat) (x : Split) :
    State :=
  { s.startSplit wid x with issue := w.issueAt s wid sp form word lit len }

theorem State.issueOf_startSplit {s : State} {wid len : Nat} {w : Wave} {sp x : Split} {word : Dword} {lit : Word} {form : CodeForm}
    (hw : tget? s.waves wid = some w) (hpos : x.pos = sp.pos) (hmask : x.mask = sp.mask) (hmode : x.offMode = w.mode) :
    (s.startSplit wid x).issueOf wid form x (planeInvariant (opcOf form word) && opcOf form word != 0) ⟨0, sp.mask, word, lit, len, false⟩ =
      s.issuesAs wid w sp form word lit len x := by
  have hctx : (tgetD (s.startSplit wid x).waves wid {}).ctx = w.ctx := by
    simp [State.startSplit, State.modWave, tgetD, tget?_tmodify, hw]
  simp only [State.issueOf, hctx, hpos, hmask, hmode, ite_self]
  rfl

/-- The split of an instruction before it is known whether a load in flight holds it up. -/
def Wave.heldSplit (w : Wave) (sp : Split) (len : Nat) : Split := { sp with offMode := w.mode, copies := [(0, sp.mask)], len := len }

/-- The split of an instruction as it issues: one that a load in flight holds up has not begun (R24). -/
def Wave.issuedSplit (w : Wave) (s : State) (wid : Nat) (sp : Split) (form : CodeForm) (word : Dword) (lit : Word) (len : Nat) (i : Instr) :
    Split :=
  if interlocked i (s.issuesAs wid w sp form word lit len (w.heldSplit sp len)) then w.heldSplit sp len
  else { w.heldSplit sp len with opc := opcOf form word, since := s.clk }

theorem Wave.issuedSplit_frame (w : Wave) (s : State) (wid : Nat) (sp : Split) (form : CodeForm) (word : Dword) (lit : Word) (len : Nat)
    (i : Instr) : (w.issuedSplit s wid sp form word lit len i).pos = sp.pos ∧ (w.issuedSplit s wid sp form word lit len i).mask = sp.mask ∧
      (w.issuedSplit s wid sp form word lit len i).offMode = w.mode := by
  simp only [Wave.issuedSplit]; split <;> exact ⟨rfl, rfl, rfl⟩

theorem issued_eq_issuesAs (s : State) (wid : Nat) (w : Wave) (sp : Split) (form : CodeForm) (word : Dword) (lit : Word) (len : Nat)
    (i : Instr) : issued s wid w sp form word lit len i =
      s.issuesAs wid w sp form word lit len (w.issuedSplit s wid sp form word lit len i) := by
  rw [Wave.issuedSplit, apply_ite (s.issuesAs wid w sp form word lit len)]
  rfl

/-- The one copy that has been fetched issues if no cause before issue stops it (R37, R90). -/
theorem State.issueSplit_single {s : State} {wid len : Nat} {w : Wave} {sp : Split} {form : CodeForm} {word : Dword} {lit : Word} {i : Instr}
    (hw : tget? s.waves wid = some w) (hb : sp.begun = false) (hwait : sp.wait = none)
    (hd : decodeFetched form word lit false = some i) (hp : preIssue i (issued s wid w sp form word lit len i) = none) :
    s.issueSplit wid form sp [⟨0, sp.mask, word, lit, len, false⟩] = .run i (issued s wid w sp form word lit len i) := by
  have hwave : tgetD s.waves wid {} = w := by rw [tgetD, hw]; rfl
  let c : PlaneCopy := ⟨0, sp.mask, word, lit, len, false⟩
  rw [issued_eq_issuesAs] at hp ⊢
  rw [State.issueSplit]
  extract_lets _ head inv copies spc held sp2 s1 u failing
  have hhead : head = c := by
    simp only [head]
    split
    · next h =>
      rw [hb, if_neg Bool.false_ne_true] at h
      exact List.mem_singleton.1 (List.mem_of_find?_eq_some h)
    · rfl
  have hinv : inv = (planeInvariant (opcOf form word) && opcOf form word != 0) := by simp [inv, hhead, c]
  have hcopies : copies = [(0, sp.mask)] := by simp only [copies]; split <;> rfl
  have hspc : spc = w.heldSplit sp len := by simp only [spc, hcopies, hhead, hb, hwave, Wave.heldSplit]; rfl
  have hheld : held = interlocked i (s.issuesAs wid w sp form word lit len (w.heldSplit sp len)) := by
    rw [← State.issueOf_startSplit (sp := sp) (x := w.heldSplit sp len) hw rfl rfl rfl]
    simp only [held, hspc, hhead, hinv, c, hd]; rfl
  have hsp2 : sp2 = w.issuedSplit s wid sp form word lit len i := by
    simp only [sp2, hheld, hspc, hhead, hwait]; rfl
  obtain ⟨hxpos, hxmask, hxmode⟩ := w.issuedSplit_frame s wid sp form word lit len i
  have hu : s1.issueOf wid form sp2 inv c = s.issuesAs wid w sp form word lit len (w.issuedSplit s wid sp form word lit len i) := by
    rw [← State.issueOf_startSplit (sp := sp) hw hxpos hxmask hxmode]
    simp only [s1, hsp2, hinv, c]; rfl
  have hone : (if inv = true then [head] else [⟨0, sp.mask, word, lit, len, false⟩]) = [c] := by
    rw [hhead]; exact ite_self _
  have hcause : (s1.issueOf wid form sp2 inv c).copyCause form c = none := by
    rw [hu]; simp only [State.copyCause, c, hd, hp]
  have hfail : earliest failing = none := by
    have hnil : failing = [] := by
      simp only [failing, hb, Bool.false_eq_true, if_false]
      rw [hone]
      exact List.filterMap_cons_none hcause
    rw [hnil]; rfl
  have hdhead : decodeFetched form head.word head.lit head.beyond = some i := by rw [hhead]; exact hd
  have hu' : u = s.issuesAs wid w sp form word lit len (w.issuedSplit s wid sp form word lit len i) := by rw [← hu, ← hhead]
  simp only [List.any_nil, Bool.and_false, Bool.false_eq_true, if_false, hdhead, hfail, hu', ite_self]

/-- The instruction fetched for a wave of one split in plane 0 is what the wave runs, if no cause before issue stops it. -/
theorem State.prepare_run {s : State} {wid slot len : Nat} {w : Wave} {sp : Split} {word : Dword} {lit : Word} {i : Instr}
    (hw : tget? s.waves wid = some w) (h : w.Single slot sp) (hp : w.copiesFrom sp.mask 0 = [(0, sp.mask)]) :
    let s1 := (s.modWave wid (fun _ => w)).cacheFetch w sp
    let c := s1.ctx w.ctx
    let form := c.formAt sp.pos
    sp.pos.toNat % formAlign form = 0 →
    s1.fetchPlane w.core w.ctx form (c.accordAt sp.pos) sp.pos sp.pos = .ok word lit len false →
    decodeFetched form word lit false = some i → preIssue i (issued s1 wid w sp form word lit len i) = none →
    s.prepare wid = .run i (issued s1 wid w sp form word lit len i) := by
  intro s1 c form ha hf hd hpre
  have hget : tget? (s.modWave wid (fun _ => w)).waves wid = some w := by simp [State.modWave, tget?_tmodify, hw]
  have hget1 : tget? s1.waves wid = some w := by rw [State.cacheFetch_waves]; exact hget
  calc s.prepare wid = (s.modWave wid (fun _ => w)).fetchSplit wid := State.prepare_single hw h
    _ = s1.issueSplit wid form sp [⟨0, sp.mask, word, lit, len, false⟩] := State.fetchSplit_single hget h hp ha hf
    _ = .run i (issued s1 wid w sp form word lit len i) := State.issueSplit_single hget1 h.begun h.wait hd hpre

/-- The turn of a wave that its port chooses runs what the wave has ready (R47). -/
theorem step_of_prepare_run {s u : State} {wid x dt : Nat} {rest : List Turn} {i : Instr} (hn : s.nextTurn = (.wave wid x, dt, rest))
    (hm : ({ s with agenda := rest } : State).mayTurn wid = true) (hc : ({ s with agenda := rest } : State).chosen wid = wid)
    (hp : ({ s with agenda := rest } : State).prepare wid = .run i u) :
    step s = turned (if interlocked i u then .next u else exec i (u.noteIssue wid (portOf i.opc))) dt := by
  have hrun : ({ s with agenda := rest } : State).runTurn (.wave wid x) =
      if interlocked i u then .next u else exec i (u.noteIssue wid (portOf i.opc)) := by
    simp only [State.runTurn, State.issueWave, hm, hc, State.runWave, hp, Bool.not_true, Bool.false_eq_true, if_false]
  simp only [step, State.turn, hn]
  rw [hrun]
  rfl

/-- Settles O57. -/
theorem stepRunsDecoded : Obligations.StepRunsDecoded := by
  intro s wid x dt slot rest w sp i hn s0 s1 c form bytes word long lit hw hm hc hsplits _ hissuing hdeferred hcauses hplane hwait hbegun
    hyields hcopies halign hx hline hlong
  have hsingle : w.Single slot sp := ⟨hsplits, hissuing, hdeferred, hcauses, hwait, hbegun, hyields, hcopies⟩
  obtain ⟨l, hl, hlen⟩ := hline
  constructor
  · intro hf hd u hpre
    have ha : sp.pos.toNat % 4 = 0 := by rw [hf] at halign; exact halign
    have hfetch : s1.fetchPlane w.core w.ctx form (c.accordAt sp.pos) sp.pos sp.pos = .ok word lit (if long then 8 else 4) false := by
      rw [hf]; exact State.fetchPlane_quadiner hx hl hlen ha (hlong hf)
    have hdecode : decodeFetched form word lit false = some i := by simp [decodeFetched, hf, hd]
    exact step_of_prepare_run hn hm hc (State.prepare_run hw hsingle hplane halign hfetch hdecode hpre)
  · intro hf hd u hpre
    have ha : sp.pos.toNat % 8 = 0 := by rw [hf] at halign; exact halign
    have hfetch : s1.fetchPlane w.core w.ctx form (c.accordAt sp.pos) sp.pos sp.pos =
        .ok (BitVec.ofNat 64 (leNat (bytes.take 8))) 0 8 false := by
      rw [hf]; exact State.fetchPlane_bintodal _ hx hl hlen ha
    have hdecode : decodeFetched form (BitVec.ofNat 64 (leNat (bytes.take 8))) 0 false = some i := by simp [decodeFetched, hf, hd]
    exact step_of_prepare_run hn hm hc (State.prepare_run hw hsingle hplane halign hfetch hdecode hpre)

end Sys2Proof.Machine

namespace Sys2Proof.Machine
open Sys2Proof.Claims

/-! Tables under a filter of their keys, a change of an entry and a run of writes. -/

theorem tget?_filter_key {α : Type} (g : Nat → Bool) (t : Tbl α) (n : Nat) :
    tget? (t.filter (fun p => g p.1)) n = if g n = true then tget? t n else none := by
  induction t with
  | nil => simp [tget?]
  | cons p t ih =>
    obtain ⟨k, w⟩ := p
    rw [List.filter_cons]
    by_cases hk : k = n
    · subst hk
      by_cases hg : g k = true
      · simp [hg, tget?]
      · simp only [hg, Bool.false_eq_true, if_false, ih]
    · by_cases hg : g k = true
      · simp only [hg, if_true, tget?, hk, if_false, ih]
      · simp only [hg, Bool.false_eq_true, if_false, tget?, hk, ih]

/-- A change of an entry keeps the part of it that it keeps in every entry. -/
theorem tgetD_tmodify_kept {α β : Type} (t : Tbl α) (n : Nat) (f : α → α) (d : α) (g : α → β) (h : ∀ a, g (f a) = g a) :
    g (tgetD (tmodify t n f) n d) = g (tgetD t n d) := by
  rw [tgetD, tget?_tmodify, if_pos rfl, tgetD]
  cases tget? t n with
  | none => rfl
  | some a => exact h a

theorem tgetD_foldl_tset_of_notMem {α : Type} {ps : List (Nat × α)} {n : Nat} (t : Tbl α) (d : α) (h : ∀ p ∈ ps, p.1 ≠ n) :
    tgetD (ps.foldl (fun t p => tset t p.1 p.2) t) n d = tgetD t n d :=
  List.foldlRecOn (motive := fun u => tgetD u n d = tgetD t n d) ps _ rfl
    (fun u hu p hp => by rw [tgetD_tset_other _ _ _ (h p hp).symm, hu])

/-- An entry that is written is what all of its writes agree on. -/
theorem tgetD_foldl_tset_of_mem {α : Type} {ps : List (Nat × α)} {n : Nat} {v : α} (t : Tbl α) (d : α) (hm : ∃ p ∈ ps, p.1 = n)
    (h : ∀ p ∈ ps, p.1 = n → p.2 = v) : tgetD (ps.foldl (fun t p => tset t p.1 p.2) t) n d = v := by
  induction ps generalizing t with
  | nil => obtain ⟨p, hp, -⟩ := hm; cases hp
  | cons q ps ih =>
    have hps : ∀ p ∈ ps, p.1 = n → p.2 = v := fun p hp => h p (List.mem_cons_of_mem _ hp)
    rw [List.foldl_cons]
    by_cases hrest : ∃ p ∈ ps, p.1 = n
    · exact ih _ hrest hps
    · rw [tgetD_foldl_tset_of_notMem _ _ (fun p hp e => hrest ⟨p, hp, e⟩)]
      obtain ⟨p, hp, hn⟩ := hm
      rcases List.mem_cons.1 hp with rfl | hp
      · rw [hn, tgetD_tset_same, h _ List.mem_cons_self hn]
      · exact absurd ⟨p, hp, hn⟩ hrest

/-! A command's tiles when it completes (R198). -/

/-- A tile takes a change as often as it is named. -/
theorem Block.tile_modTiles_count (b : Block) (ts : List Nat) (f : Tile → Tile) (k : Nat) :
    (b.modTiles ts f).tile k = f^[ts.count k] (b.tile k) := by
  induction ts generalizing b with
  | nil => rfl
  | cons t ts ih =>
    rw [show b.modTiles (t :: ts) f = (b.modTile t f).modTiles ts f from rfl, ih, Block.tile_modTile, List.count_cons]
    by_cases hk : k = t
    · subst hk; simp
    · simp [hk, Ne.symm hk]

/-- Returning tiles changes nothing else of a block. -/
theorem Block.returnTiles_frame (b : Block) (ts : List Nat) : ∃ x, b.returnTiles ts = { b with tiles := x } :=
  b.modTiles_frame ts _
@[simp] theorem Block.returnTiles_scratch (b : Block) (ts : List Nat) : (b.returnTiles ts).scratch = b.scratch := by
  obtain ⟨x, h⟩ := b.returnTiles_frame ts; rw [h]
@[simp] theorem Block.returnTiles_acc (b : Block) (ts : List Nat) : (b.returnTiles ts).acc = b.acc := by
  obtain ⟨x, h⟩ := b.returnTiles_frame ts; rw [h]
@[simp] theorem Block.returnTiles_accPoison (b : Block) (ts : List Nat) : (b.returnTiles ts).accPoison = b.accPoison := by
  obtain ⟨x, h⟩ := b.returnTiles_frame ts; rw [h]
@[simp] theorem Block.returnTiles_slots (b : Block) (ts : List Nat) : (b.returnTiles ts).slots = b.slots := by
  obtain ⟨x, h⟩ := b.returnTiles_frame ts; rw [h]

theorem Block.tile_returnTiles_once {b : Block} {ts : List Nat} {k : Nat} (h : ts.count k = 1) :
    (b.returnTiles ts).tile k = if (b.tile k).count - 1 = 0 ∧ (b.tile k).mark = true
      then { b.tile k with engine := false, phase := !(b.tile k).phase, holder := .none, count := 0, mark := false }
      else { b.tile k with count := (b.tile k).count - 1 } := by
  rw [Block.returnTiles, Block.tile_modTiles_count, h, Function.iterate_one]
  simp only [Bool.and_eq_true, decide_eq_true_eq]
theorem Block.tile_returnTiles_of_notMem {b : Block} {ts : List Nat} {k : Nat} (h : k ∉ ts) : (b.returnTiles ts).tile k = b.tile k := by
  rw [Block.returnTiles, Block.tile_modTiles_count, List.count_eq_zero_of_not_mem h]
  rfl

/-! The work of a command, and its completion (R198, R207). -/

/-- The work of a matrix command has made its block `b` and has deferred at most causes to its wave; it is still queued. -/
structure Worked (s u : State) (c : MxCmd) (b : Block) : Prop where
  block : tget? u.blocks c.block = some b
  tiles : b.tiles = (s.block c.block).tiles
  cores : u.cores = s.cores
  mem : u.mem = s.mem
  others : ∀ k, k ≠ c.block → u.block k = s.block k
  waves : ∀ k, k ≠ c.wave → tget? u.waves k = tget? s.waves k
  pending : (tgetD u.waves c.wave {}).mxPending = (tgetD s.waves c.wave {}).mxPending
  ended : (tgetD u.waves c.wave {}).ended = (tgetD s.waves c.wave {}).ended

theorem Worked.modBlock {s : State} {c : MxCmd} {f : Block → Block} (hb : (tget? s.blocks c.block).isSome = true)
    (hf : (f (s.block c.block)).tiles = (s.block c.block).tiles) : Worked s (s.modBlock c.block f) c (f (s.block c.block)) where
  block := by
    obtain ⟨b, hb⟩ := Option.isSome_iff_exists.1 hb
    simp [State.modBlock, State.block, tgetD, tget?_tmodify, hb]
  tiles := hf
  cores := rfl
  mem := rfl
  others k hk := by rw [State.block_modBlock _ _ _ _ hb, if_neg hk]
  waves _ _ := rfl
  pending := rfl
  ended := rfl

theorem Worked.modWave {s u : State} {c : MxCmd} {b : Block} (h : Worked s u c b) {f : Wave → Wave}
    (hp : ∀ w, (f w).mxPending = w.mxPending) (he : ∀ w, (f w).ended = w.ended) : Worked s (u.modWave c.wave f) c b :=
  { h with
    waves := fun k hk => by rw [State.modWave_waves, tget?_tmodify, if_neg hk, h.waves k hk]
    pending := (tgetD_tmodify_kept _ _ _ _ Wave.mxPending hp).trans h.pending
    ended := (tgetD_tmodify_kept _ _ _ _ Wave.ended he).trans h.ended }

/-- A poisoned operand gives a cause to the command's wave, which has not ended, and changes nothing else (R207). -/
theorem Worked.mxPoison {s u : State} {c : MxCmd} {b : Block} (h : Worked s u c b) (he : (tgetD s.waves c.wave {}).ended = false)
    (faddr : Nat) : Worked s (u.mxPoison c faddr) c b := by
  have hd : u.mxPoison c faddr = u.modWave c.wave _ := if_neg (by rw [h.ended, he]; exact Bool.false_ne_true)
  rw [hd]
  exact h.modWave (fun _ => rfl) (fun _ => rfl)

theorem State.block_modCore (s : State) (core : Nat) (f : Core → Core) (k : Nat) : (s.modCore core f).block k = s.block k := rfl

/-- The block that the work has made has its tiles returned. -/
theorem Worked.block_completeMx {s u : State} {c : MxCmd} {b : Block} (h : Worked s u c b) (core : Nat) :
    (u.completeMx core c).block c.block = b.returnTiles c.tiles := by
  simp [State.completeMx, State.modCore, State.modBlock, State.block, tgetD, tget?_tmodify, h.block]

/-- What a command whose work is done leaves in flight when it completes. -/
theorem Worked.commandDone {s u : State} {c : MxCmd} {b : Block} (h : Worked s u c b) (core : Nat) :
    commandDone s (u.completeMx core c) core c := by
  have hblock := h.block_completeMx core
  have htile (k : Nat) : b.tile k = (s.block c.block).tile k := by rw [Block.tile, h.tiles]; rfl
  refine ⟨?_, ?_, fun k _ hk => ?_, fun k hk => ?_, h.mem, fun k hk => ?_, fun k hk => ?_⟩
  · have hcore : u.core core = s.core core := by rw [State.core, h.cores]; rfl
    rw [show (u.completeMx core c).core core = (u.modCore core (fun k => { k with mq := k.mq.drop 1 })).core core from rfl,
      State.core_modCore, if_pos rfl, hcore]
  · rw [← h.pending, State.completeMx, State.modWave_waves, tgetD, tget?_tmodify, if_pos rfl]
    simp only [State.modBlock, State.modCore, tgetD]
    cases tget? u.waves c.wave <;> rfl
  · rw [hblock, Block.tile_returnTiles_once hk, htile]
  · rw [hblock, Block.tile_returnTiles_of_notMem hk, htile]
  · rw [← h.others k hk]
    exact tgetD_tmodify_other _ _ _ hk
  · rw [← h.waves k hk, State.completeMx, State.modWave_waves, tget?_tmodify, if_neg hk]
    rfl

/-- The time of an MMA's end (R210) is no part of what its completion says. -/
theorem commandDone_modCore {s t : State} {core : Nat} {c : MxCmd} {f : Core → Core} (h : commandDone s t core c)
    (hf : (f (t.core core)).mq = (t.core core).mq) : commandDone s (t.modCore core f) core c := by
  obtain ⟨hq, hrest⟩ := h
  exact ⟨by rw [State.core_modCore, if_pos rfl, hf, hq], hrest⟩

/-! MMA (R73, R200). -/

/-- The element of an accumulator tile that row `i` of A and column `j` of B give. -/
def Block.mmaElem (b : Block) (acc a afmt slot i j : Nat) : Word :=
  BitVec.ofNat 32 (accumulate (tgetD b.acc (acc * 1024 + 32 * i + j) 0).toNat ((List.range 128).map (fun k =>
    product (b.aElem a afmt i k) ((tgetD b.slots slot {}).bElem k j))))

/-- The elements that an MMA writes. -/
def Block.mmaCells (b : Block) (acc a afmt slot : Nat) : List (Nat × Word) :=
  (List.range 32).flatMap (fun i => (List.range 32).map (fun j => (acc * 1024 + 32 * i + j, b.mmaElem acc a afmt slot i j)))

theorem Block.mem_mmaCells {b : Block} {acc a afmt slot : Nat} {p : Nat × Word} : p ∈ b.mmaCells acc a afmt slot ↔
    ∃ i < 32, ∃ j < 32, (acc * 1024 + 32 * i + j, b.mmaElem acc a afmt slot i j) = p := by
  simp only [Block.mmaCells, List.mem_flatMap, List.mem_map, List.mem_range]

/-- The cells as the model computes them, each from a row of A and a column of B. -/
theorem Block.mmaCells_eq (b : Block) (acc a afmt slot : Nat) : b.mmaCells acc a afmt slot =
    (List.range 32).flatMap (fun i =>
      ((List.range 32).map (fun j => (j, (List.range 128).map (fun k => (tgetD b.slots slot {}).bElem k j)))).map (fun p =>
        (acc * 1024 + 32 * i + p.1, BitVec.ofNat 32 (accumulate (tgetD b.acc (acc * 1024 + 32 * i + p.1) 0).toNat
          (((List.range 128).map (fun k => b.aElem a afmt i k)).zipWith product p.2))))) := by
  simp only [Block.mmaCells, Block.mmaElem, List.map_map, Function.comp_def, List.zipWith_map, List.zipWith_self]

/-- The accumulators after an MMA. -/
def Block.mmaAcc (b : Block) (acc a afmt slot : Nat) : Tbl Word :=
  (b.mmaCells acc a afmt slot).foldl (fun t p => tset t p.1 p.2) b.acc

theorem Block.tgetD_mmaAcc (b : Block) (acc a afmt slot : Nat) {i j : Nat} (hi : i < 32) (hj : j < 32) :
    tgetD (b.mmaAcc acc a afmt slot) (acc * 1024 + 32 * i + j) 0 = b.mmaElem acc a afmt slot i j := by
  refine tgetD_foldl_tset_of_mem _ _ ⟨_, Block.mem_mmaCells.2 ⟨i, hi, j, hj, rfl⟩, rfl⟩ (fun p hp hk => ?_)
  obtain ⟨i', hi', j', hj', rfl⟩ := Block.mem_mmaCells.1 hp
  obtain ⟨rfl, rfl⟩ : i' = i ∧ j' = j := by dsimp only at hk; omega
  rfl

theorem Block.tgetD_mmaAcc_other (b : Block) (acc a afmt slot : Nat) {k : Nat} (hk : k / 1024 ≠ acc) :
    tgetD (b.mmaAcc acc a afmt slot) k 0 = tgetD b.acc k 0 := by
  refine tgetD_foldl_tset_of_notMem _ _ (fun p hp => ?_)
  obtain ⟨i, hi, j, hj, rfl⟩ := Block.mem_mmaCells.1 hp
  dsimp only
  omega

/-- An operand of an MMA is poisoned: A, the image of its slot or the accumulator tile (R207). -/
def Block.mmaPoisoned (b : Block) (acc a afmt slot : Nat) : Bool :=
  (b.poisoned a (aBytes afmt)).isSome || (tgetD b.slots slot {}).poison || b.accPoison.contains acc

/-- The poisoned tiles with an accumulator tile among them, if it takes poison. -/
def Block.accPoisonWith (bad : Bool) (acc : Nat) (b : Block) : List Nat :=
  if bad && !b.accPoison.contains acc then acc :: b.accPoison else b.accPoison

/-- The state once the head MMA has accumulated, before it completes. -/
def State.mmaWork (s : State) (c : MxCmd) (acc a afmt slot : Nat) : State :=
  let b := s.block c.block
  let u := s.modBlock c.block (fun k => { k with
    acc := b.mmaAcc acc a afmt slot,
    accPoison := k.accPoisonWith (b.mmaPoisoned acc a afmt slot) acc })
  if b.mmaPoisoned acc a afmt slot then u.mxPoison c ((b.poisoned a (aBytes afmt)).getD 0) else u

theorem State.worked_mmaWork {s : State} {c : MxCmd} (hb : (tget? s.blocks c.block).isSome = true)
    (he : (tgetD s.waves c.wave {}).ended = false) (acc a afmt slot : Nat) :
    let b := s.block c.block
    Worked s (s.mmaWork c acc a afmt slot) c { b with
      acc := b.mmaAcc acc a afmt slot, accPoison := b.accPoisonWith (b.mmaPoisoned acc a afmt slot) acc } := by
  intro b
  rw [State.mmaWork]
  split
  · exact (Worked.modBlock hb rfl).mxPoison he _
  · exact Worked.modBlock hb rfl

/-- The head MMA accumulates, completes and notes when it ended (R198, R210). -/
theorem exec_mmaExecute_head {s : State} {core : Nat} {c : MxCmd} {acc a afmt bfmt slot : Nat} {rel : Bool} (hh : s.mxHead core = some c)
    (hop : c.op = .mma acc a afmt bfmt slot rel) :
    exec (.mmaExecute core) s = .next (((s.mmaWork c acc a afmt slot).completeMx core c).modCore core
      (fun k => { k with mmaEnd := tset k.mmaEnd (c.block * 8 + acc) s.clk })) := by
  simp only [exec_mmaExecute, execMmaExecute, hh, hop, State.mmaWork, Block.mmaAcc, Block.mmaCells_eq]
  rfl

/-! MMZ, MMD and WLOAD (R202 to R204). -/

theorem Block.tgetD_zeroAcc (b : Block) (acc k : Nat) : tgetD (b.zeroAcc acc).acc k 0 = if k / 1024 = acc then 0 else tgetD b.acc k 0 := by
  simp only [Block.zeroAcc, tgetD, tget?_filter_key (fun n => n / 1024 != acc), bne_iff_ne, ne_eq, ite_not]
  split <;> rfl

/-- The block after an MMZ. -/
def Block.mmzWork (acc : Nat) (b : Block) : Block := { b.zeroAcc acc with accPoison := b.accPoison.filter (· != acc) }

theorem exec_mmzExecute_head {s : State} {core : Nat} {c : MxCmd} {acc : Nat} (hh : s.mxHead core = some c) (hop : c.op = .mmz acc) :
    exec (.mmzExecute core) s = .next ((s.modBlock c.block (Block.mmzWork acc)).completeMx core c) := by
  simp only [exec_mmzExecute, execMmzExecute, hh, hop]
  rfl

/-- The block after an MMD: drained bytes and poison in its scratchpad, and with the flag its tile cleared. -/
def Block.mmdWork (acc dst : Nat) (flag : Bool) (bytes : List Byte) (spoison : List Nat) (b : Block) : Block :=
  let x := { b with scratch := memPut b.scratch dst bytes, spoison := spoison }
  if flag then x.zeroAcc acc else x

theorem Block.mmdWork_scratch (acc dst : Nat) (flag : Bool) (bytes : List Byte) (sp : List Nat) (b : Block) :
    (b.mmdWork acc dst flag bytes sp).scratch = memPut b.scratch dst bytes := by
  cases flag <;> rfl
theorem Block.mmdWork_tiles (acc dst : Nat) (flag : Bool) (bytes : List Byte) (sp : List Nat) (b : Block) :
    (b.mmdWork acc dst flag bytes sp).tiles = b.tiles := by
  cases flag <;> rfl
theorem Block.tgetD_mmdWork (acc dst : Nat) (flag : Bool) (bytes : List Byte) (sp : List Nat) (b : Block) (k : Nat) :
    tgetD (b.mmdWork acc dst flag bytes sp).acc k 0 = if flag = true ∧ k / 1024 = acc then 0 else tgetD b.acc k 0 := by
  cases flag with
  | true => simpa [Block.mmdWork] using Block.tgetD_zeroAcc { b with scratch := memPut b.scratch dst bytes, spoison := sp } acc k
  | false => simp [Block.mmdWork]

/-- The bytes that an MMD drains from its tile (R202). -/
def Block.mmdBytes (b : Block) (acc : Nat) (m : Half) (relu : Bool) (rs cs bias : Option (List Nat)) : List Byte :=
  drainBytes (modeEtype m) (modeRound m) (modeSat m) (fun i j => drainElem (modeRound m) relu (rs.map (fun v => v.getD i 0))
    (cs.map (fun v => v.getD j 0)) (bias.map (fun v => v.getD j 0)) (tgetD b.acc (acc * 1024 + 32 * i + j) 0).toNat)

theorem exec_mmdExecute_head {s : State} {core : Nat} {c : MxCmd} {acc dst : Nat} {m : Half} {flag relu poison : Bool}
    {rs cs bias : Option (List Nat)} (hh : s.mxHead core = some c) (hop : c.op = .mmd acc dst m flag relu rs cs bias poison) :
    ∃ sp, exec (.mmdExecute core) s = .next ((s.modBlock c.block
      (Block.mmdWork acc dst flag ((s.block c.block).mmdBytes acc m relu rs cs bias) sp)).completeMx core c) := by
  simp only [exec_mmdExecute, execMmdExecute, hh, hop]
  exact ⟨_, rfl⟩

/-- The block after a WLOAD: the image and its poison in the slot. -/
def Block.wloadWork (slot fmt : Nat) (bytes : List Byte) (poison : Bool) (b : Block) : Block :=
  { b with slots := tset b.slots slot { tgetD b.slots slot {} with fmt := fmt, bytes := bytes, poison := poison } }

theorem exec_wloadExecute_head {s : State} {core : Nat} {c : MxCmd} {slot src fmt : Nat} (hh : s.mxHead core = some c)
    (hop : c.op = .wload slot src fmt) :
    let b := s.block c.block
    let n := storedBytes fmt (memNat b.scratch src 8)
    exec (.wloadExecute core) s = .next ((s.modBlock c.block
      (Block.wloadWork slot fmt (memBytes b.scratch src n) (b.poisoned src n).isSome)).completeMx core c) := by
  simp only [exec_wloadExecute, execWloadExecute, hh, hop]
  rfl

/-- Settles O35: each head command does its work on its block, and then completes. -/
theorem matrixExecute : Obligations.MatrixExecute := by
  intro s core c hh hb he b
  refine ⟨fun acc a afmt bfmt slot rel hop => ?_, fun acc hop => ?_, fun acc dst m flag relu rs cs bias poison hop => ?_,
    fun slot src fmt hop => ?_⟩
  · have hw := State.worked_mmaWork hb he acc a afmt slot
    refine ⟨_, exec_mmaExecute_head hh hop, commandDone_modCore (hw.commandDone core) rfl, ?_⟩
    rw [State.block_modCore, hw.block_completeMx, Block.returnTiles_scratch, Block.returnTiles_acc]
    refine ⟨rfl, fun i j hi hj => ?_, fun k hk => ?_⟩
    · rw [Block.tgetD_mmaAcc _ _ _ _ _ hi hj, Block.mmaElem]
    · rw [Block.tgetD_mmaAcc_other _ _ _ _ _ hk]
  · have hw : Worked s _ c (b.mmzWork acc) := Worked.modBlock hb rfl
    refine ⟨_, exec_mmzExecute_head hh hop, hw.commandDone core, ?_⟩
    rw [hw.block_completeMx, Block.returnTiles_scratch, Block.returnTiles_acc, Block.returnTiles_accPoison]
    exact ⟨rfl, b.tgetD_zeroAcc acc, by simp [Block.mmzWork]⟩
  · obtain ⟨sp, hx⟩ := exec_mmdExecute_head hh hop
    have hw : Worked s _ c (b.mmdWork acc dst flag (b.mmdBytes acc m relu rs cs bias) sp) := Worked.modBlock hb (Block.mmdWork_tiles ..)
    refine ⟨_, hx, hw.commandDone core, ?_⟩
    rw [hw.block_completeMx, Block.returnTiles_scratch, Block.returnTiles_acc, Block.mmdWork_scratch]
    exact ⟨fun x => memByte_memPut _ _ _ _, fun k => Block.tgetD_mmdWork ..⟩
  · have hw (bytes : List Byte) (poison : Bool) : Worked s _ c (b.wloadWork slot fmt bytes poison) := Worked.modBlock hb rfl
    refine ⟨_, exec_wloadExecute_head hh hop, (hw _ _).commandDone core, ?_⟩
    rw [(hw _ _).block_completeMx, Block.returnTiles_scratch, Block.returnTiles_acc, Block.returnTiles_slots]
    refine ⟨rfl, rfl, fun k => ?_⟩
    rw [Block.wloadWork, tgetD_tset]
    split
    · subst k; rfl
    · rfl

end Sys2Proof.Machine

namespace Sys2Proof

/-! What a field's code says of the field (R80, R81, R84). -/

theorem SSrc.code_lt (a : SSrc) : a.code < 256 := by cases a <;> simp only [SSrc.code] <;> omega
theorem VSrc.code_lt (a : VSrc) : a.code < 256 := by cases a <;> simp only [VSrc.code] <;> omega
theorem Field.code_lt (f : Field) : f.code < 256 := by
  cases f with
  | s a => exact a.code_lt
  | v a => exact a.code_lt
  | sd d | vd d => cases d <;> simp only [Field.code] <;> omega
  | p x => simp only [Field.code]; split <;> omega
  | raw n | c n => exact n.isLt
  | _ => simp only [Field.code]; omega

/-- A field is of kind S or V. -/
def Field.isSource : Field → Bool
  | .s _ | .v _ => true
  | _ => false

theorem Field.isExt_eq (f : Field) : f.isExt = f.ext.isSome := by
  cases f with
  | s a | v a => cases a <;> rfl
  | _ => rfl

/-- In a field of kind S or V, 0xFF and no other code takes the literal word or IMM16 (R81). -/
theorem Field.code_eq_ff (f : Field) : (f.code == 0xFF && f.isSource) = f.ext.isSome := by
  cases f with
  | s a | v a => cases a <;> simp [Field.isSource, Field.ext, Field.code, SSrc.code, VSrc.code] <;> omega
  | _ => simp [Field.isSource, Field.ext]

/-- What a field of a Bintodal word takes fits IMM16 (R92). -/
theorem Field.ext_toNat_lt {f : Field} {w : Word} (hf : f.ok .bintodal = true) (hw : f.ext = some w) : w.toNat < 0x10000 := by
  cases f with
  | s a | v a =>
    cases a with
    | lit l => cases hf
    | imm x => cases hw; rw [BitVec.toNat_setWidth]; omega
    | _ => cases hw
  | _ => cases hw

/-! The decoder of each kind reads a field back from its code (R80, R81, R86). -/

/-- The word has `c` where the field stands, admits the field in its form, and brings the literal word or IMM16 that the field takes. -/
structure Field.Reads (r : RawWord) (f : Field) (c : Nat) : Prop where
  code : c = f.code
  ok : f.ok r.form = true
  ext : ∀ w, f.ext = some w → r.ext = w

section
variable {r : RawWord} {c : Nat}

theorem decSSrc_reads {a : SSrc} (h : (Field.s a).Reads r c) : decSSrc r c = some a := by
  obtain ⟨form, opc, d, x, b, ext⟩ := r
  obtain ⟨rfl, hok, hext⟩ := h
  cases a with
  | reg q => simp [decSSrc, Field.code, SSrc.code]
  | inl n | fconst n =>
    simp (disch := omega) only [decSSrc, Field.code, SSrc.code, dif_neg, if_neg, dif_pos, Nat.add_sub_cancel_left]
  | zero | wave | core => rfl
  | latch k =>
    cases form with
    | quadiner => simp (disch := omega) only [decSSrc, Field.code, SSrc.code, dif_neg, if_neg, dif_pos, Nat.add_sub_cancel_left]
    | bintodal => cases hok
  | lit w =>
    cases form with
    | quadiner => cases hext w rfl; rfl
    | bintodal => cases hok
  | imm w =>
    cases form with
    | quadiner => cases hok
    | bintodal => obtain rfl : ext = w.setWidth 32 := hext _ rfl; simp [decSSrc, Field.code, SSrc.code]

theorem decVSrc_reads {a : VSrc} (h : (Field.v a).Reads r c) : decVSrc r c = some a := by
  obtain ⟨form, opc, d, x, b, ext⟩ := r
  obtain ⟨rfl, hok, hext⟩ := h
  cases a with
  | reg q => simp [decVSrc, Field.code, VSrc.code]
  | inl n | fconst n =>
    simp (disch := omega) only [decVSrc, Field.code, VSrc.code, dif_neg, if_neg, dif_pos, Nat.add_sub_cancel_left]
  | zero | lane | wave | plane | core => rfl
  | latch k =>
    cases form with
    | quadiner => simp (disch := omega) only [decVSrc, Field.code, VSrc.code, dif_neg, dif_pos, Nat.add_sub_cancel_left]
    | bintodal => cases hok
  | lit w =>
    cases form with
    | quadiner => cases hext w rfl; rfl
    | bintodal => cases hok
  | imm w =>
    cases form with
    | quadiner => cases hok
    | bintodal => obtain rfl : ext = w.setWidth 32 := hext _ rfl; simp [decVSrc, Field.code, VSrc.code]

theorem decSDst_reads {d : SDst} (h : (Field.sd d).Reads r c) : decSDst r c = some d := by
  obtain ⟨form, _⟩ := r
  obtain ⟨rfl, hok, -⟩ := h
  cases d with
  | reg q => simp [decSDst, Field.code]
  | nw =>
    cases form with
    | quadiner => rfl
    | bintodal => cases hok

theorem decVDst_reads {d : VDst} (h : (Field.vd d).Reads r c) : decVDst r c = some d := by
  obtain ⟨form, _⟩ := r
  obtain ⟨rfl, hok, -⟩ := h
  cases d with
  | reg q => simp [decVDst, Field.code]
  | nw =>
    cases form with
    | quadiner => rfl
    | bintodal => cases hok

/-! Two kinds of field share each of these three: registers read and written, or predicates and tiles. -/

theorem decVReg_eq {q : Fin 128} (h : c = q.val) : decVReg r c = some q := by subst h; simp [decVReg]
theorem decSReg_eq {q : Fin 64} (h : c = q.val) : decSReg r c = some q := by subst h; simp [decSReg]
theorem decFin8_eq {q : Fin 8} (h : c = q.val) : decFin8 r c = some q := by subst h; simp [decFin8]

theorem decZ_reads (h : Field.z.Reads r c) : decZ r c = some () := by rw [h.code]; rfl
theorem decFin16_reads {q : Fin 16} (h : (Field.c (finNum q)).Reads r c) : decFin16 r c = some q := by
  have hq : (finNum q).toNat = q.val := by simp only [finNum, BitVec.toNat_ofNat]; omega
  simp [h.code, decFin16, Field.code, hq]
theorem decSPair_reads {q : Fin 32} (h : (Field.sp q).Reads r c) : decSPair r c = some q := by
  simp [h.code, decSPair, Field.code]; omega
theorem decVPair_reads {q : Fin 64} (h : (Field.va q).Reads r c) : decVPair r c = some q := by
  simp [h.code, decVPair, Field.code]; omega
theorem decVQuad_reads {q : Fin 32} (h : (Field.vq q).Reads r c) : decVQuad r c = some q := by
  simp [h.code, decVQuad, Field.code]; omega
theorem decSQuad_reads {q : Fin 16} (h : (Field.sq q).Reads r c) : decSQuad r c = some q := by
  simp [h.code, decSQuad, Field.code]; omega
theorem decPSel_reads {x : PSel} (h : (Field.p x).Reads r c) : decPSel r c = some x := by
  obtain ⟨neg, p⟩ := x
  rw [h.code]
  cases neg <;> simp [decPSel, Field.code]
theorem decK_reads {n : Fin 80} (h : (Field.k n).Reads r c) : decK r c = some n := by
  simp [h.code, decK, Field.code]; omega
theorem decTrapK_reads {n : Fin 64} (h : (Field.k (Fin.castLE (by decide) n)).Reads r c) : decTrapK r c = some n := by
  simp [h.code, decTrapK, Field.code]; omega
theorem decKType_reads {t : EType} (h : (Field.k t.inl).Reads r c) : decKType r c = some t := by rw [h.code]; cases t <;> rfl
theorem decKSx_reads {t : SxFmt} (h : (Field.k t.inl).Reads r c) : decKSx r c = some t := by rw [h.code]; cases t <;> rfl
theorem decKField_reads {m : ModeField} (h : (Field.k m.inl).Reads r c) : decKField r c = some m := by rw [h.code]; cases m <;> rfl
theorem decDrain_reads {x : Scope} (h : (Field.k x.inl).Reads r c) : decDrain r c = some x := by rw [h.code]; cases x <;> rfl
theorem decFence_reads {f : FenceOp} (h : (Field.k f.inl).Reads r c) : decFence r c = some f := by
  obtain ⟨scope, ord⟩ := f
  rw [h.code]
  cases scope <;> cases ord <;> rfl
theorem decKFlag_reads {b : Bool} (h : (Field.k (flagInl b)).Reads r c) : decKFlag r c = some b := by rw [h.code]; cases b <;> rfl
theorem decCReg_reads {x : CReg} (h : (Field.c x.num).Reads r c) : decCReg r c = some x := by rw [h.code]; cases x <;> rfl
theorem decSpace_reads {x : Space} (h : (Field.c x.num).Reads r c) : decSpace r c = some x := by rw [h.code]; cases x <;> rfl

end

/-! The opcode map (R87, R88). -/

theorem dec3_eq_ok {α β γ : Type} {mk : α → β → γ → Instr} {fd : RawWord → Nat → Option α} {fa : RawWord → Nat → Option β}
    {fb : RawWord → Nat → Option γ} {r : RawWord} {d : α} {a : β} {b : γ} {i : Instr} (hd : fd r r.d = some d)
    (ha : fa r r.a = some a) (hb : fb r r.b = some b) (hi : mk d a b = i) : dec3 mk fd fa fb r = .ok i := by
  simp only [dec3, hd, ha, hb, hi]

/-- TOWN's D tells the two instructions of its opcode apart (R211). -/
theorem decodeFields_town (form : CodeForm) (d a b : Nat) (ext : Word) : decodeFields ⟨form, 0xCA, d, a, b, ext⟩ =
    if d = 0 then dec3 (fun _ a b => .townGive a b) (decIs 0) decSSrc decSSrc ⟨form, 0xCA, d, a, b, ext⟩
    else dec3 (fun _ a b => .townTake a b) (decIs 1) decSSrc decSSrc ⟨form, 0xCA, d, a, b, ext⟩ := rfl

/-- The map reads each field of a word in the kind in which the instruction of its opcode has it. -/
theorem decodeFields_of_reads {form : CodeForm} {i : Instr} {o : Operands} {d a b : Nat} {ext : Word} (ho : i.operands = some o)
    (hd : o.d.Reads ⟨form, i.opc, d, a, b, ext⟩ d) (ha : o.a.Reads ⟨form, i.opc, d, a, b, ext⟩ a)
    (hb : o.b.Reads ⟨form, i.opc, d, a, b, ext⟩ b) : decodeFields ⟨form, i.opc, d, a, b, ext⟩ = .ok i := by
  cases i <;> cases ho <;> dsimp only [Instr.opc]
  case trapz x y z =>
    obtain ⟨rfl, rfl, rfl⟩ : d = x.toNat ∧ a = y.toNat ∧ b = z.toNat := ⟨hd.code, ha.code, hb.code⟩
    change Except.ok (Instr.trapz (.ofNat 8 x.toNat) (.ofNat 8 y.toNat) (.ofNat 8 z.toNat)) = _
    simp only [BitVec.ofNat_toNat, BitVec.setWidth_eq]
  case townGive =>
    obtain rfl : d = 0 := hd.code
    rw [decodeFields_town, if_pos rfl]
    apply dec3_eq_ok; exacts [rfl, decSSrc_reads ha, decSSrc_reads hb, rfl]
  case townTake =>
    obtain rfl : d = 1 := hd.code
    rw [decodeFields_town, if_neg Nat.one_ne_zero]
    apply dec3_eq_ok; exacts [rfl, decSSrc_reads ha, decSSrc_reads hb, rfl]
  case nop | exit | yield | brk | mmsync | tret => apply dec3_eq_ok; exacts [decZ_reads hd, decZ_reads ha, decZ_reads hb, rfl]
  case adds | subs | muls | mulhs | divs | rems | ands | ors | xors | andns | shls | shrs | sras | rols | mins | maxs | seqs | snes |
      slts | sles | leas | bfxs | lds | aadds | twait | ldps | dctake | dcgive =>
    apply dec3_eq_ok; exacts [decSDst_reads hd, decSSrc_reads ha, decSSrc_reads hb, rfl]
  case movs | nots | negs | clzs | popcs | barv | dcreadx | dcdrop | objdecl | carve =>
    apply dec3_eq_ok; exacts [decSDst_reads hd, decSSrc_reads ha, decZ_reads hb, rfl]
  case br => apply dec3_eq_ok; exacts [decZ_reads hd, decPSel_reads ha, decSSrc_reads hb, rfl]
  case brz | brnz | pref | barw | spawn => apply dec3_eq_ok; exacts [decZ_reads hd, decSSrc_reads ha, decSSrc_reads hb, rfl]
  case call => apply dec3_eq_ok; exacts [decSDst_reads hd, decZ_reads ha, decSSrc_reads hb, rfl]
  case ret | gather | objdrop => apply dec3_eq_ok; exacts [decZ_reads hd, decSSrc_reads ha, decZ_reads hb, rfl]
  case rejoin | setm => apply dec3_eq_ok; exacts [decZ_reads hd, decZ_reads ha, decSSrc_reads hb, rfl]
  case plset => apply dec3_eq_ok; exacts [decZ_reads hd, decVSrc_reads ha, decZ_reads hb, rfl]
  case plget => apply dec3_eq_ok; exacts [decVDst_reads hd, decZ_reads ha, decZ_reads hb, rfl]
  case trap => apply dec3_eq_ok; exacts [decZ_reads hd, decZ_reads ha, decTrapK_reads hb, rfl]
  case crrd => apply dec3_eq_ok; exacts [decSDst_reads hd, decZ_reads ha, decCReg_reads hb, rfl]
  case setmf => apply dec3_eq_ok; exacts [decZ_reads hd, decKField_reads ha, decSSrc_reads hb, rfl]
  case getm | maskrd | firstl => apply dec3_eq_ok; exacts [decSDst_reads hd, decZ_reads ha, decZ_reads hb, rfl]
  case pand | por | pxor | pandn => apply dec3_eq_ok; exacts [decFin8_eq hd.code, decPSel_reads ha, decPSel_reads hb, rfl]
  case pfroms => apply dec3_eq_ok; exacts [decFin8_eq hd.code, decSSrc_reads ha, decZ_reads hb, rfl]
  case ptos | ballot => apply dec3_eq_ok; exacts [decSDst_reads hd, decPSel_reads ha, decZ_reads hb, rfl]
  case addv | subv | mulv | mulhv | divv | remv | minv | maxv | andv | orv | xorv | andnv | shlv | shrv | srav | rolv | bfxv | avgv |
      copysv | scalbv | selv | shflv | shupv | shdnv | shxrv | bcastv | aaddc =>
    apply dec3_eq_ok; exacts [decVDst_reads hd, decVSrc_reads ha, decVSrc_reads hb, rfl]
  case absv | negv | notv | clzv | popcv | movv | sqrtv | rcpv | rsqv | exp2v | log2v | sinv | cosv | tanhv | floorv | ceilv | truncv |
      rintv | fracv | classv | scanv =>
    apply dec3_eq_ok; exacts [decVDst_reads hd, decVSrc_reads ha, decZ_reads hb, rfl]
  case madv | msubv | dot4v | dot2v | casc => apply dec3_eq_ok; exacts [decVReg_eq hd.code, decVSrc_reads ha, decVSrc_reads hb, rfl]
  case cvtv => apply dec3_eq_ok; exacts [decVDst_reads hd, decVSrc_reads ha, decKType_reads hb, rfl]
  case packsxv | unpksxv => apply dec3_eq_ok; exacts [decVDst_reads hd, decVSrc_reads ha, decKSx_reads hb, rfl]
  case cmpeqv | cmpnev | cmpltv | cmplev | cmpgtv | cmpgev | cmpunv =>
    apply dec3_eq_ok; exacts [decFin8_eq hd.code, decVSrc_reads ha, decVSrc_reads hb, rfl]
  case voteall | voteany => apply dec3_eq_ok; exacts [decFin8_eq hd.code, decPSel_reads ha, decZ_reads hb, rfl]
  case redaddv | redminv | redmaxv | redandv | redorv => apply dec3_eq_ok; exacts [decSDst_reads hd, decVSrc_reads ha, decZ_reads hb, rfl]
  case movsv => apply dec3_eq_ok; exacts [decVDst_reads hd, decSSrc_reads ha, decZ_reads hb, rfl]
  case movvs => apply dec3_eq_ok; exacts [decSDst_reads hd, decVSrc_reads ha, decSSrc_reads hb, rfl]
  case ldv => apply dec3_eq_ok; exacts [decVDst_reads hd, decVPair_reads ha, decSSrc_reads hb, rfl]
  case stv => apply dec3_eq_ok; exacts [decVReg_eq hd.code, decVPair_reads ha, decSSrc_reads hb, rfl]
  case sts | cass | stps | dcinit => apply dec3_eq_ok; exacts [decSReg_eq hd.code, decSSrc_reads ha, decSSrc_reads hb, rfl]
  case ldvb => apply dec3_eq_ok; exacts [decVDst_reads hd, decSSrc_reads ha, decSSrc_reads hb, rfl]
  case stvb => apply dec3_eq_ok; exacts [decVReg_eq hd.code, decSSrc_reads ha, decSSrc_reads hb, rfl]
  case aadd | amin | amax | aand | aor | axor | axchg | aincw | adecw =>
    apply dec3_eq_ok; exacts [decVDst_reads hd, decVPair_reads ha, decVSrc_reads hb, rfl]
  case cas => apply dec3_eq_ok; exacts [decVReg_eq hd.code, decVPair_reads ha, decVSrc_reads hb, rfl]
  case cas128 => apply dec3_eq_ok; exacts [decVQuad_reads hd, decVPair_reads ha, decVQuad_reads hb, rfl]
  case fence => apply dec3_eq_ok; exacts [decZ_reads hd, decZ_reads ha, decFence_reads hb, rfl]
  case waita => apply dec3_eq_ok; exacts [decSpace_reads hd, decSSrc_reads ha, decSSrc_reads hb, rfl]
  case drain => apply dec3_eq_ok; exacts [decZ_reads hd, decZ_reads ha, decDrain_reads hb, rfl]
  case rdadd | rdmin | rdmax | rdand | rdor | rdxor => apply dec3_eq_ok; exacts [decZ_reads hd, decVPair_reads ha, decVSrc_reads hb, rfl]
  case ldp | ldc | ldk | ldl => apply dec3_eq_ok; exacts [decVDst_reads hd, decVSrc_reads ha, decSSrc_reads hb, rfl]
  case stp | stc | stk | stl => apply dec3_eq_ok; exacts [decVReg_eq hd.code, decVSrc_reads ha, decSSrc_reads hb, rfl]
  case mma => apply dec3_eq_ok; exacts [decFin8_eq hd.code, decSSrc_reads ha, decSQuad_reads hb, rfl]
  case mmz => apply dec3_eq_ok; exacts [decFin8_eq hd.code, decZ_reads ha, decZ_reads hb, rfl]
  case mmd => apply dec3_eq_ok; exacts [decFin8_eq hd.code, decSSrc_reads ha, decKFlag_reads hb, rfl]
  case wload => apply dec3_eq_ok; exacts [decFin16_reads hd, decSSrc_reads ha, decK_reads hb, rfl]
  case wbind => apply dec3_eq_ok; exacts [decFin16_reads hd, decSSrc_reads ha, decZ_reads hb, rfl]
  case wtouch | wunbind => apply dec3_eq_ok; exacts [decZ_reads hd, decZ_reads ha, decFin16_reads hb, rfl]
  case dcread => apply dec3_eq_ok; exacts [decSPair_reads hd, decSSrc_reads ha, decZ_reads hb, rfl]
  case wstat => apply dec3_eq_ok; exacts [decSDst_reads hd, decZ_reads ha, decFin16_reads hb, rfl]
  case crwr => apply dec3_eq_ok; exacts [decZ_reads hd, decCReg_reads ha, decSSrc_reads hb, rfl]
  case tlbinv | icinv => apply dec3_eq_ok; exacts [decZ_reads hd, decSSrc_reads ha, decKFlag_reads hb, rfl]

theorem opcodeAssigned_opc {i : Instr} {o : Operands} (ho : i.operands = some o) : opcodeAssigned i.opc = true := by
  cases i <;> cases ho <;> rfl
theorem aTakesLiteral_opc {i : Instr} {o : Operands} (ho : i.operands = some o) : aTakesLiteral i.opc = o.a.isSource := by
  cases i <;> cases ho <;> rfl
theorem bTakesLiteral_opc {i : Instr} {o : Operands} (ho : i.operands = some o) : bTakesLiteral i.opc = o.b.isSource := by
  cases i <;> cases ho <;> rfl
/-- No D field takes a literal word or IMM16. -/
theorem Instr.operands_d_ext {i : Instr} {o : Operands} (ho : i.operands = some o) : o.d.ext = none := by
  cases i <;> cases ho <;> rfl

theorem Instr.opc_lt {i : Instr} {o : Operands} (ho : i.operands = some o) : i.opc < 256 := by
  have h := opcodeAssigned_opc ho
  simp only [opcodeAssigned, inRanges, List.any_cons, List.any_nil, Bool.or_false, Bool.or_eq_true, Bool.and_eq_true,
    decide_eq_true_eq] at h
  omega

/-! The operands of a well-formed instruction (R84, R93). -/

theorem Operands.wf_iff (form : CodeForm) (o : Operands) : o.wf form = true ↔
    o.d.ok form = true ∧ o.a.ok form = true ∧ o.b.ok form = true ∧ (o.a.isExt && o.b.isExt) = false := by
  simp only [Operands.wf, Bool.and_eq_true, Bool.not_eq_true', and_assoc]

theorem Operands.ext_isSome (o : Operands) : o.ext.isSome = (o.a.ext.isSome || o.b.ext.isSome) := by
  simp only [Operands.ext]
  cases o.a.ext <;> rfl
theorem Operands.ext_of_a {o : Operands} {w : Word} (h : o.a.ext = some w) : o.ext = some w := by
  simp only [Operands.ext, h]
theorem Operands.ext_of_b {o : Operands} {w : Word} (hone : (o.a.isExt && o.b.isExt) = false) (h : o.b.ext = some w) :
    o.ext = some w := by
  have ha : o.a.ext = none := by simpa [Field.isExt_eq, h] using hone
  simp only [Operands.ext, ha, h]

/-- What a Bintodal instruction takes fits IMM16, from whichever of A and B it comes (R92). -/
theorem Operands.ext_toNat_lt {o : Operands} {w : Word} (hwf : o.wf .bintodal = true) (hw : o.ext = some w) : w.toNat < 0x10000 := by
  obtain ⟨-, ha, hb, -⟩ := (o.wf_iff _).1 hwf
  cases hx : o.a.ext with
  | some x =>
    rw [Operands.ext_of_a hx] at hw
    cases hw
    exact Field.ext_toNat_lt ha hx
  | none =>
    simp only [Operands.ext, hx] at hw
    exact Field.ext_toNat_lt hb hw

/-! The words (R78, R92). -/

/-- The four fields of 32 packed bits are where the decoder takes them from. -/
theorem packWord_fields {opc : Nat} (o : Operands) (h : opc < 256) : packWord opc o < 2 ^ 32 ∧ packWord opc o / 0x1000000 = opc ∧
    packWord opc o / 0x10000 % 0x100 = o.d.code ∧ packWord opc o / 0x100 % 0x100 = o.a.code ∧ packWord opc o % 0x100 = o.b.code := by
  have hd := o.d.code_lt
  have ha := o.a.code_lt
  have hb := o.b.code_lt
  simp only [packWord]
  omega

theorem rawOf_packWord {opc : Nat} (form : CodeForm) (o : Operands) (ext : Word) (h : opc < 256) :
    rawOf form (packWord opc o) ext = ⟨form, opc, o.d.code, o.a.code, o.b.code, ext⟩ := by
  obtain ⟨-, hopc, hd, ha, hb⟩ := packWord_fields o h
  rw [rawOf, hopc, hd, ha, hb, Nat.mod_eq_of_lt h]

theorem checkExt_of_wf {r : RawWord} {i : Instr} {o : Operands} (ho : i.operands = some o) (hwf : o.wf r.form = true)
    (hstray : r.form = .bintodal → o.ext = none → r.ext = 0#32) : checkExt r i = .ok i := by
  obtain ⟨-, -, -, hone⟩ := (o.wf_iff _).1 hwf
  simp only [checkExt, ho, hone, Bool.false_eq_true, if_false, ite_eq_left_iff]
  intro _
  cases hf : r.form with
  | quadiner => rfl
  | bintodal =>
    have hx : (!(o.a.isExt || o.b.isExt) && r.ext != 0#32) = false := by
      rw [Field.isExt_eq, Field.isExt_eq, ← Operands.ext_isSome]
      cases hext : o.ext with
      | some w => rfl
      | none => simp [hstray hf hext]
    simp only [hx, Bool.false_eq_true, if_false]

/-- The fields of a well-formed instruction decode to it, next to the literal word or IMM16 that it takes; a Bintodal word that
takes none has zero there. -/
theorem decodeRaw_packWord {form : CodeForm} {i : Instr} {o : Operands} {ext : Word} (ho : i.operands = some o)
    (hwf : o.wf form = true) (hext : ∀ w, o.ext = some w → ext = w) (hstray : form = .bintodal → o.ext = none → ext = 0#32) :
    decodeRaw (rawOf form (packWord i.opc o) ext) = .ok i := by
  obtain ⟨hd, ha, hb, hone⟩ := (o.wf_iff _).1 hwf
  have hfields : decodeFields ⟨form, i.opc, o.d.code, o.a.code, o.b.code, ext⟩ = .ok i :=
    decodeFields_of_reads ho ⟨rfl, hd, fun w h => by rw [Instr.operands_d_ext ho] at h; cases h⟩
      ⟨rfl, ha, fun w h => hext w (Operands.ext_of_a h)⟩ ⟨rfl, hb, fun w h => hext w (Operands.ext_of_b hone h)⟩
  rw [rawOf_packWord _ _ _ (Instr.opc_lt ho), decodeRaw, hfields]
  exact checkExt_of_wf ho hwf hstray

/-- The Quadiner word of an instruction announces a literal word exactly if an operand takes one (R78). -/
theorem wordHasLiteral_packWord {i : Instr} {o : Operands} (ho : i.operands = some o) :
    wordHasLiteral (BitVec.ofNat 32 (packWord i.opc o)) = o.ext.isSome := by
  obtain ⟨hlt, hopc, -, ha, hb⟩ := packWord_fields o (Instr.opc_lt ho)
  have hno : i.opc = 0 → o.a.isSource = false ∧ o.b.isSource = false := fun h0 => by
    rw [← aTakesLiteral_opc ho, ← bTakesLiteral_opc ho, h0]
    exact ⟨rfl, rfl⟩
  simp only [wordHasLiteral, BitVec.toNat_ofNat, Nat.mod_eq_of_lt hlt, hopc, ha, hb, opcodeAssigned_opc ho, aTakesLiteral_opc ho,
    bTakesLiteral_opc ho, Operands.ext_isSome, Field.code_eq_ff, Bool.and_true]
  by_cases h0 : i.opc = 0
  · obtain ⟨hna, hnb⟩ := hno h0
    simp [h0, ← Field.code_eq_ff, hna, hnb]
  · simp [h0]

/-! The bytes (R78, R92). -/

theorem ofNat_leNat_leBytes {m n : Nat} (w : BitVec m) (hmn : 256 ^ n = 2 ^ m) : BitVec.ofNat m (leNat (leBytes n w.toNat)) = w := by
  rw [Machine.leNat_leBytes, hmn, Nat.mod_eq_of_lt w.isLt, BitVec.ofNat_toNat, BitVec.setWidth_eq]

theorem decodeBytes_quadiner_short {w : Word} {i : Instr} (rest : List Byte) (hl : wordHasLiteral w = false)
    (h : ∀ lit, decodeQuadiner w lit = .ok i) : decodeBytes .quadiner (leBytes 4 w.toNat ++ rest) = .ok (i, rest) := by
  simp [decodeBytes, ofNat_leNat_leBytes (n := 4) w rfl, hl, h]

theorem decodeBytes_quadiner_long {w lit : Word} {i : Instr} (rest : List Byte) (hl : wordHasLiteral w = true)
    (h : decodeQuadiner w lit = .ok i) :
    decodeBytes .quadiner ((leBytes 4 w.toNat ++ leBytes 4 lit.toNat) ++ rest) = .ok (i, rest) := by
  have hlen : ¬ (4 + (4 + rest.length) < 8) := by omega
  have hdrop : (leBytes 4 w.toNat ++ (leBytes 4 lit.toNat ++ rest)).drop 8 = rest := by
    rw [← List.append_assoc, List.drop_left' (by simp)]
  simp [decodeBytes, ofNat_leNat_leBytes (n := 4) w rfl, ofNat_leNat_leBytes (n := 4) lit rfl, hl, h, hlen, hdrop]

theorem decodeBytes_bintodal {w : Dword} {i : Instr} (rest : List Byte) (h : decodeBintodal w = .ok i) :
    decodeBytes .bintodal (leBytes 8 w.toNat ++ rest) = .ok (i, rest) := by
  simp [decodeBytes, ofNat_leNat_leBytes (n := 8) w rfl, h]

/-- A Bintodal word holds the four fields in its high half, and IMM16 in its low 16 bits, whatever MODE fields it carries (R92). -/
theorem decodeBintodal_ofNat {p e : Nat} (mode : Half) (hp : p < 2 ^ 32) (he : e < 0x10000) :
    decodeBintodal (BitVec.ofNat 64 (p * 0x100000000 + mode.toNat * 0x10000 + e)) = decodeRaw (rawOf .bintodal p (BitVec.ofNat 32 e)) := by
  have hm := mode.isLt
  have hw : (BitVec.ofNat 64 (p * 0x100000000 + mode.toNat * 0x10000 + e)).toNat = p * 0x100000000 + mode.toNat * 0x10000 + e :=
    by rw [BitVec.toNat_ofNat, Nat.mod_eq_of_lt]; omega
  have hhigh : (p * 0x100000000 + mode.toNat * 0x10000 + e) / 0x100000000 = p := by omega
  have hlow : (p * 0x100000000 + mode.toNat * 0x10000 + e) % 0x10000 = e := by omega
  rw [decodeBintodal, hw, hhigh, hlow]

/-! Encoding and decoding, form by form. -/

theorem encodeDecode_quadiner (mode : Half) {i : Instr} {o : Operands} (rest : List Byte) (ho : i.operands = some o)
    (hwf : o.wf .quadiner = true) : ∃ bs, encode .quadiner mode i = some bs ∧ decodeBytes .quadiner (bs ++ rest) = .ok (i, rest) ∧
      bs.length = if o.ext.isSome then 8 else 4 := by
  have hl := wordHasLiteral_packWord ho
  have hdec (lit : Word) (hlit : ∀ w, o.ext = some w → lit = w) :
      decodeQuadiner (BitVec.ofNat 32 (packWord i.opc o)) lit = .ok i := by
    rw [decodeQuadiner, BitVec.toNat_ofNat, Nat.mod_eq_of_lt (packWord_fields o (Instr.opc_lt ho)).1]
    exact decodeRaw_packWord ho hwf hlit (fun h => by cases h)
  simp only [encode, encodeQuadiner, ho, Option.map_some]
  cases hx : o.ext with
  | none =>
    rw [hx] at hl hdec
    rw [List.append_nil]
    exact ⟨_, rfl, decodeBytes_quadiner_short rest hl (fun lit => hdec lit (fun w h => by cases h)), by simp⟩
  | some lit =>
    rw [hx] at hl hdec
    exact ⟨_, rfl, decodeBytes_quadiner_long rest hl (hdec lit (fun w h => by cases h; rfl)), by simp⟩

theorem encodeDecode_bintodal (mode : Half) {i : Instr} {o : Operands} (rest : List Byte) (ho : i.operands = some o)
    (hwf : o.wf .bintodal = true) : ∃ bs, encode .bintodal mode i = some bs ∧ decodeBytes .bintodal (bs ++ rest) = .ok (i, rest) ∧
      bs.length = 8 := by
  have hext (w : Word) (hw : o.ext = some w) : BitVec.ofNat 32 ((o.ext.getD 0#32).toNat % 0x10000) = w := by
    rw [hw, Option.getD_some, Nat.mod_eq_of_lt (Operands.ext_toNat_lt hwf hw), BitVec.ofNat_toNat, BitVec.setWidth_eq]
  have hstray (hnone : o.ext = none) : BitVec.ofNat 32 ((o.ext.getD 0#32).toNat % 0x10000) = 0#32 := by rw [hnone]; rfl
  simp only [encode, encodeBintodal, ho, Option.map_some]
  refine ⟨_, rfl, decodeBytes_bintodal rest ?_, Machine.leBytes_length _ _⟩
  rw [decodeBintodal_ofNat mode (packWord_fields o (Instr.opc_lt ho)).1 (Nat.mod_lt _ (by decide))]
  exact decodeRaw_packWord ho hwf hext (fun _ => hstray)

/-- Settles O59: each form's word holds the four fields where the decoder takes them from, and the map reads each of them back. -/
theorem encodeDecodeRoundTrip : Obligations.EncodeDecodeRoundTrip := by
  intro form mode i rest hwf
  cases ho : i.operands with
  | none => simp [Instr.wf, ho] at hwf
  | some o =>
    simp only [Instr.wf, ho] at hwf
    cases form with
    | quadiner => simpa using encodeDecode_quadiner mode rest ho hwf
    | bintodal => simpa using encodeDecode_bintodal mode rest ho hwf

/-- Settles O58: each word is decoded by evaluation. -/
theorem decodeWords : Obligations.DecodeWords :=
  ⟨rfl, rfl, rfl, rfl, rfl, rfl, rfl, rfl, rfl, rfl, rfl, rfl⟩

end Sys2Proof

namespace Sys2Proof.Machine

/-! Errors in a wave's own storage (R407). -/

/-- TRAPZ takes its own cause before any check of its operands (R90, R128): no error in a word of its wave stops it. -/
theorem struckCause_trapz (d a b : BitVec 8) (s : State) : struckCause (.trapz d a b) s = none := rfl

/-- A wave whose split state holds an uncorrectable error (R403). -/
def struckSplit : State := { waves := [(0, { struck := [.split false] })] }

/-- Refutes O19: `readsCell` counts the split state among the words that TRAPZ reads, and the wave of `struckSplit` has an error there,
but TRAPZ is not stopped by it; the second clause has every instruction that reads a struck word take MEM_POISON. -/
theorem not_checksBeforeEffect : ¬ Obligations.ChecksBeforeEffect := by
  intro h
  obtain ⟨-, hstruck⟩ := h (.trapz 0 0 0) struckSplit rfl rfl rfl rfl
  obtain ⟨t, ht, -⟩ := hstruck rfl (.split false) (List.mem_singleton.2 rfl) rfl
  rw [struckCause_trapz] at ht
  cases ht

end Sys2Proof.Machine

namespace Sys2Proof.Machine
open Sys2Proof.Claims

/-! Scalar rows (R109 to R114). -/

@[simp] theorem oneIf_decide (p : Prop) [Decidable p] : oneIf (decide p) = if p then 1 else 0 := by
  by_cases hp : p <;> simp [oneIf, hp]

/-- A binary scalar row that issues fits its exact value over the operands as they stand, writes it and moves on. -/
theorem scalarBinary_issues {i : Instr} {s : State} (d : SDst) (a b : SSrc) (saturates : Bool) (f : EType → Int → Int → Int)
    (hi : s.issues i) : scalarBinary i d a b saturates f s =
      .next (s.begun.putS d (fitted s saturates (f s.etype (s.scalarInt a) (s.scalarInt b)))).finish := by
  rw [scalarBinary, issueOp_issues _ _ _ hi]
  simp only [State.scalarFit, State.begun_scalarInt, State.begun_etype, State.begun_sat, fitted]

/-- A unary scalar row likewise. -/
theorem scalarUnary_issues {i : Instr} {s : State} (d : SDst) (a : SSrc) (saturates : Bool) (f : EType → Int → Int)
    (hi : s.issues i) : scalarUnary i d a saturates f s =
      .next (s.begun.putS d (fitted s saturates (f s.etype (s.scalarInt a)))).finish := by
  rw [scalarUnary, issueOp_issues _ _ _ hi]
  simp only [State.scalarFit, State.begun_scalarInt, State.begun_etype, State.begun_sat, fitted]

/-- A scalar row that issues writes its value, and moves on. -/
theorem exec_scalarRow {i : Instr} {s : State} {d : SDst} {v : Dword} (h : scalarRow s i = some (d, v)) (hi : s.issues i) :
    exec i s = .next (s.begun.putS d v).finish := by
  unfold scalarRow at h
  split at h <;> cases h
  case h_1 => rw [exec_adds]; exact scalarBinary_issues _ _ _ _ _ hi
  case h_2 => rw [exec_subs]; exact scalarBinary_issues _ _ _ _ _ hi
  case h_3 => rw [exec_muls]; exact scalarBinary_issues _ _ _ _ _ hi
  case h_4 => rw [exec_mulhs]; exact scalarBinary_issues _ _ _ _ _ hi
  case h_5 => rw [exec_divs]; exact scalarBinary_issues _ _ _ _ _ hi
  case h_6 => rw [exec_rems]; exact scalarBinary_issues _ _ _ _ _ hi
  case h_7 => rw [exec_ands]; exact scalarBinary_issues _ _ _ _ _ hi
  case h_8 => rw [exec_ors]; exact scalarBinary_issues _ _ _ _ _ hi
  case h_9 => rw [exec_xors]; exact scalarBinary_issues _ _ _ _ _ hi
  case h_10 => rw [exec_andns]; exact scalarBinary_issues _ _ _ _ _ hi
  case h_11 => rw [exec_shls]; exact scalarBinary_issues _ _ _ _ _ hi
  case h_12 => rw [exec_shrs]; exact scalarBinary_issues _ _ _ _ _ hi
  case h_13 => rw [exec_sras]; exact scalarBinary_issues _ _ _ _ _ hi
  case h_14 => rw [exec_rols]; exact scalarBinary_issues _ _ _ _ _ hi
  case h_15 => rw [exec_mins]; exact scalarBinary_issues _ _ _ _ _ hi
  case h_16 => rw [exec_maxs]; exact scalarBinary_issues _ _ _ _ _ hi
  case h_17 => rw [exec_movs]; exact scalarUnary_issues _ _ _ _ hi
  case h_18 => rw [exec_nots]; exact scalarUnary_issues _ _ _ _ hi
  case h_19 => rw [exec_negs]; exact scalarUnary_issues _ _ _ _ hi
  case h_20 => rw [exec_clzs]; exact scalarUnary_issues _ _ _ _ hi
  case h_21 => rw [exec_popcs]; exact scalarUnary_issues _ _ _ _ hi
  case h_22 => rw [exec_seqs, execSeqs, scalarBinary_issues _ _ _ _ _ hi, beq_eq_decide, oneIf_decide]
  case h_23 => rw [exec_snes, execSnes, scalarBinary_issues _ _ _ _ _ hi, bne, beq_eq_decide, ← decide_not, oneIf_decide, ite_not]
  case h_24 => rw [exec_slts, execSlts, scalarBinary_issues _ _ _ _ _ hi, oneIf_decide]
  case h_25 => rw [exec_sles, execSles, scalarBinary_issues _ _ _ _ _ hi, oneIf_decide]
  case h_26 => rw [exec_leas, execLeas, issueOp_issues _ _ _ hi]; simp only [State.begun_readS64, State.begun_etype]
  case h_27 =>
    rw [exec_bfxs, execBfxs, issueOp_issues _ _ _ hi]
    simp only [State.scalarFit, State.begun_scalarInt, State.begun_readS64, State.begun_etype, State.begun_sat, fitted]

/-- Settles O1: a row writes its value with `putS`, whose one result is that of the destination and its latch. -/
theorem scalarRowsComplete : Obligations.ScalarRowsComplete :=
  fun _ s d v h hi => ⟨_, exec_scalarRow h hi, s.scalarDone_putS d v hi.1⟩

/-! Reads into a scalar register (R115, R118, R131, R153 to R155). -/

/-- A lane reduction that issues writes the running value of the lanes of active(w), and moves on. -/
theorem vecReduce_issues {i : Instr} {s : State} (d : SDst) (a : VSrc) (saturates : Bool) (gi : EType → Int → Int → Int)
    (gf : RMode → FVal → FVal → FVal) (hi : s.issues i) :
    vecReduce i d a saturates gi gf s = .next (s.begun.putS d (laneTotal s a saturates gi gf)).finish := by
  rw [vecReduce, issueOp_issues _ _ _ hi]
  simp only [State.begun_etype, State.begun_sat, State.begun_rmode, State.begun_activeMask, State.begun_readV, State.begun_vInt]
  rfl

/-- A read into a scalar register that issues writes what it reads, and moves on. -/
theorem exec_scalarReadRow {i : Instr} {s : State} {d : SDst} {v : Dword} (h : scalarReadRow s i = some (d, v)) (hi : s.issues i) :
    exec i s = .next (s.begun.putS d v).finish := by
  unfold scalarReadRow at h
  split at h <;> cases h
  case h_1 => rw [exec_getm, execGetm, issueOp_issues _ _ _ hi, s.begun_split]
  case h_2 => rw [exec_crrd, execCrrd, issueOp_issues _ _ _ hi, s.begun_creg]
  case h_3 => rw [exec_ptos, execPtos, issueOp_issues _ _ _ hi, s.begun_psel, s.begun_activeMask]
  case h_4 => rw [exec_maskrd, execMaskrd, issueOp_issues _ _ _ hi, s.begun_issue]
  case h_5 => rw [exec_ballot, execBallot, issueOp_issues _ _ _ hi, s.begun_psel, s.begun_activeMask]
  case h_6 => rw [exec_firstl, execFirstl, issueOp_issues _ _ _ hi, s.begun_activeMask]
  case h_7 => rw [exec_movvs, execMovvs, issueOp_issues _ _ _ hi]; simp only [State.begun_etype, State.begun_readV, State.begun_readS64]
  case h_8 => rw [exec_redaddv]; exact vecReduce_issues _ _ _ _ _ hi
  case h_9 => rw [exec_redminv]; exact vecReduce_issues _ _ _ _ _ hi
  case h_10 => rw [exec_redmaxv]; exact vecReduce_issues _ _ _ _ _ hi
  case h_11 => rw [exec_redandv]; exact vecReduce_issues _ _ _ _ _ hi
  case h_12 => rw [exec_redorv]; exact vecReduce_issues _ _ _ _ _ hi

/-- Settles O2: a read writes its value as a row of arithmetic does. -/
theorem scalarReadsComplete : Obligations.ScalarReadsComplete :=
  fun _ s d v h hi => ⟨_, exec_scalarReadRow h hi, s.scalarDone_putS d v hi.1⟩

end Sys2Proof.Machine

namespace Sys2Proof.Machine
open Sys2Proof.Claims

/-! Instructions without a result (R116, R117, R125, R126, R128 to R130). -/

/-- An instruction that changes its wave by `f`, which leaves alone its latches, its splits and the mark of a resumed wave, and
then moves on. -/
theorem State.effectDone_modCur {s : State} {f : Wave → Wave} (h : s.waveAlive = true)
    (hf : ∀ w b, f { w with resumed := b } = { f w with resumed := b }) (hg : (f s.curWave).issuing = s.curWave.issuing)
    (hk : ({ f s.curWave with latches := s.curWave.latches, splits := s.curWave.splits, resumed := s.curWave.resumed } : Wave) =
      f s.curWave) : s.effectDone (s.begun.modCur f).finish f := by
  have hb : s.begun.waveAlive = true := by rw [s.begun_alive]; exact h
  have e := State.curWave_finish (s.begun.modCur f) (by simpa using hb)
  rw [State.curWave_modCur _ _ hb, s.begun_curWave, hf] at e
  have hl : (f s.curWave).latches = s.curWave.latches := by rw [← hk]
  have hs : (f s.curWave).splits = s.curWave.splits := by rw [← hk]
  refine ⟨State.onlyCur_finish _ _ (State.onlyCur_modCur _ _ _ s.onlyCur_begun), ?_, ?_, State.latchesKept_of _ _ ?_, ?_⟩
  · rw [State.splitsOn, e]; simp only [hs, hg]; rfl
  · rw [e]
  · rw [e]; simp only [hl]; rfl
  · rw [e]; exact hk

/-- Setting MODE, with a lane in active(w) (R116, R117). -/
theorem State.effectDone_setMode {s : State} (m : Half) (h : s.waveAlive = true) :
    s.effectDone (s.begun.setMode m).finish (fun w => if s.activeMask = 0 then w else { w with mode := m }) := by
  by_cases hm : s.activeMask = 0
  · simp only [State.setMode, s.begun_activeMask, if_pos hm]
    exact State.effectDone_finish h
  · simp only [State.setMode, s.begun_activeMask, if_neg hm]
    exact State.effectDone_modCur h (fun _ _ => rfl) rfl rfl

/-- Settles O6: NOP moves on, SETM and SETMF set MODE, and PLSET sets the plane numbers of the lanes of active(w). -/
theorem effectRowsComplete : Obligations.EffectRowsComplete := by
  intro i s f h hi
  unfold effectRow at h
  split at h <;> cases h
  case h_1 => exact ⟨_, by rw [exec_nop, execNop, issueOp_issues _ _ _ hi], State.effectDone_finish hi.1⟩
  case h_2 b =>
    exact ⟨_, by rw [exec_setm, execSetm, issueOp_issues _ _ _ hi, s.begun_readS64], State.effectDone_setMode _ hi.1⟩
  case h_3 a b =>
    exact ⟨_, by rw [exec_setmf, execSetmf, issueOp_issues _ _ _ hi, s.begun_split, s.begun_readS64], State.effectDone_setMode _ hi.1⟩
  case h_4 a =>
    refine ⟨_, ?_, State.effectDone_modCur hi.1 (fun _ _ => rfl) rfl rfl⟩
    rw [exec_plset, execPlset, issueOp_issues _ _ _ hi]
    simp only [State.begun_readV, State.begun_activeMask]

/-- Settles O7: `finishYield` asks for the last copy before the split moves on, and then passes issue. -/
theorem yieldCompletes : Obligations.YieldCompletes := by
  intro s hi
  refine ⟨s.begun.finish, State.effectDone_finish hi.1, ?_⟩
  rw [exec_yield, execYield, issueOp_issues _ _ _ hi, State.finishYield, s.begun_split, apply_ite Host.Outcome.next]

/-- An instruction that traps at the next one when a lane is in active(w), and else only moves on (R129, R130). -/
theorem trapNext_or_finish {i : Instr} {s : State} (cause detail : Nat) (hi : s.issues i)
    (hx : exec i s = issueOp i s (fun s => if s.activeMask = 0 then s.finish else s.trapNext (s.info cause detail))) :
    (s.activeMask ≠ 0 → exec i s =
      .next (s.begun.trapWave s.issue.wave (s.info cause detail) (s.issue.pc + BitVec.ofNat 64 s.issue.len))) ∧
    (s.activeMask = 0 → ∃ t, exec i s = .next t ∧ s.effectDone t (fun w => w)) := by
  rw [hx, issueOp_issues _ _ _ hi, s.begun_activeMask]
  refine ⟨fun hm => ?_, fun hm => ⟨s.begun.finish, ?_, State.effectDone_finish hi.1⟩⟩
  · rw [if_neg hm]; rfl
  · rw [if_pos hm]

/-- Settles O14: TRAPZ traps whatever the guard holds, TRAP and BRK with a lane in active(w) alone. -/
theorem trapInstructionsTrap : Obligations.TrapInstructionsTrap := by
  intro s
  refine ⟨fun d a b hi => ?_, fun k hi => trapNext_or_finish 0x14 k.val hi rfl, fun hi => trapNext_or_finish 0x15 0 hi rfl⟩
  rw [exec_trapz, execTrapz, issueOp_issues _ _ _ hi]; rfl

end Sys2Proof.Machine

namespace Sys2Proof.Machine
open Sys2Proof.Claims

/-! Contexts, and what the device writes to their save areas (R381). -/

theorem State.ctx_of_some {s : State} {n : Nat} {c : Context} (h : tget? s.ctxs n = some c) : s.ctx n = c := by
  rw [State.ctx, tgetD, h]; rfl

/-- Changing a context that is c is putting the changed one in its place. -/
theorem State.modCtx_of_some {s : State} {n : Nat} {c : Context} (f : Context → Context) (h : tget? s.ctxs n = some c) :
    s.modCtx n f = withContext s n (f c) := by
  rw [State.modCtx, tmodify_of_some _ h]; rfl

@[simp] theorem ctx_withContext (s : State) (n k : Nat) (c : Context) : (withContext s n c).ctx k = if k = n then c else s.ctx k :=
  tgetD_tset _ _ _ _ _

/-- The waves, blocks and contexts of `u` are those of `s`. -/
def State.sameWork (s u : State) : Prop := u.waves = s.waves ∧ u.blocks = s.blocks ∧ u.ctxs = s.ctxs

theorem State.sameWork_refl (s : State) : s.sameWork s := ⟨rfl, rfl, rfl⟩
theorem State.sameWork_trans {s t u : State} (h : s.sameWork t) (g : t.sameWork u) : s.sameWork u := by
  obtain ⟨hw, hb, hc⟩ := h
  obtain ⟨gw, gb, gc⟩ := g
  exact ⟨gw.trans hw, gb.trans hb, gc.trans hc⟩
theorem State.sameWork_foldl {α : Type} {f : State → α → State} (l : List α) (s : State) (hf : ∀ (u : State) a, u.sameWork (f u a)) :
    s.sameWork (l.foldl f s) :=
  List.foldlRecOn (motive := fun (u : State) => s.sameWork u) l f s.sameWork_refl (fun u hu a _ => State.sameWork_trans hu (hf u a))

/-- A write breaks at most a decant record (R244): messages and counters go, but no wave, block or context. -/
theorem State.sameWork_writeBytes (s : State) (pa : Nat) (bs : List Byte) : s.sameWork (s.writeBytes pa bs) := by
  simp only [State.writeBytes, State.decantBreak]
  split
  · exact ⟨rfl, rfl, rfl⟩
  · exact ⟨rfl, rfl, rfl⟩
theorem State.sameWork_publishLine (s : State) (line : Nat) : s.sameWork (s.publishLine line) := by
  have h := (State.publishLine_same s line s.sameArch_refl).rest
  have hw := congrArg State.waves h
  have hb := congrArg State.blocks h
  have hc := congrArg State.ctxs h
  exact ⟨hw, hb, hc⟩
theorem State.sameWork_writeHeader (s : State) (n state : Nat) : s.sameWork (s.writeHeader n state) := by
  simp only [State.writeHeader, State.deviceWrite]
  split
  · exact s.sameWork_refl
  · exact State.sameWork_foldl _ _ (fun u i => State.sameWork_trans (u.sameWork_writeBytes _ _) (State.sameWork_publishLine _ _))

theorem State.ctx_writeHeader (s : State) (n state k : Nat) : (s.writeHeader n state).ctx k = s.ctx k := by
  obtain ⟨-, -, hc⟩ := s.sameWork_writeHeader n state
  rw [State.ctx, hc]; rfl

/-! The path of management commands (R425). -/

/-- On a free path a command that a context's state refuses does nothing. -/
theorem State.command_none {s : State} (h : commandsTaken s) : s.command none = .next s := by
  rw [State.command, h.1, h.2]; rfl
/-- On a free path a command without a reply does what it does. -/
theorem State.command_some {s : State} (h : commandsTaken s) (t : State) (w : Option JobWait) : s.command (some ⟨t, [], w⟩) = .next t := by
  rw [State.command, h.1, h.2]; rfl

/-! Creating a context (R424). -/

/-- Clusters get an owner. -/
def State.ownedBy (s : State) (gs : List Nat) (n : Nat) : State :=
  gs.foldl (fun (u : State) g => u.modCluster g (fun x => { x with owner := some n })) s

theorem State.ownedBy_frame (s : State) (gs : List Nat) (n : Nat) : ({ s.ownedBy gs n with clusters := s.clusters } : State) = s :=
  List.foldlRecOn (motive := fun (u : State) => ({ u with clusters := s.clusters } : State) = s) gs _ rfl (fun _ hu _ _ => hu)

theorem State.cluster_ownedBy (s : State) (gs : List Nat) (n k : Nat) :
    (s.ownedBy gs n).cluster k = if k ∈ gs then { s.cluster k with owner := some n } else s.cluster k := by
  induction gs generalizing s with
  | nil => rfl
  | cons g gs ih =>
    rw [show s.ownedBy (g :: gs) n = (s.modCluster g (fun x => { x with owner := some n })).ownedBy gs n from rfl, ih, State.cluster_modCluster]
    by_cases hk : k = g
    · subst hk; simp
    · simp [hk]

theorem tget?_foldl_tset_of_mem {α : Type} {ks : List Nat} {k : Nat} (f : Nat → α) (t : Tbl α) (h : k ∈ ks ∨ tget? t k = some (f k)) :
    tget? (ks.foldl (fun t g => tset t g (f g)) t) k = some (f k) := by
  induction ks generalizing t with
  | nil => exact h.resolve_left List.not_mem_nil
  | cons g ks ih =>
    refine ih _ ?_
    by_cases hk : k = g
    · exact .inr (by rw [hk, tget?_tset_same])
    · rw [tget?_tset_other _ _ hk]
      exact h.imp_left (fun hm => (List.mem_cons.1 hm).resolve_left hk)

/-- A context as it is created. -/
def State.newContext (s : State) (gs : List Nat) (ptroot saveBase saveSize : Nat) (lkey ckey : BitVec 256) : Context := {
  clusters := gs, ptroot := ptroot, saveBase := saveBase, saveSize := saveSize, launchKey := lkey, codeKey := ckey,
  resumedAt := gs.foldl (fun t g => tset t g (s.clusterClk g)) [] }

theorem State.newContext_made (s : State) (gs : List Nat) (ptroot saveBase saveSize : Nat) (lkey ckey : BitVec 256) :
    madeContext s (s.newContext gs ptroot saveBase saveSize lkey ckey) gs ptroot saveBase saveSize lkey ckey :=
  ⟨rfl, rfl, rfl, rfl, rfl, rfl, rfl, rfl, rfl, fun _ hg => tget?_foldl_tset_of_mem _ _ (.inl hg)⟩

section
variable {s : State} {n ptroot base size : Nat} {gs : List Nat} (lkey ckey : BitVec 256) (hn : n < 64)
  (hc : s.hasCtx n = false) (hg : gs.all (fun g => decide (g < 256) && (s.cluster g).owner.isNone && !s.unusable g) = true)
  (hp : ptroot % 65536 = 0) (hpd : isDram ptroot = true) (hb : base % 4096 = 0) (hbd : isDram base = true)
  (hed : isDram (base + size - 1) = true) (hd : homeDie base = homeDie (base + size - 1))
  (hs : 65536 + 39124992 * gs.dedup.length ≤ size)
include hn hc hg hp hpd hb hbd hed hd hs

/-- A context is created where its fields and its clusters allow it. -/
theorem State.createContext_some :
    let ks := gs.dedup.insertionSort (· ≤ ·)
    s.createContext n gs ptroot base size lkey ckey =
      some ⟨(withContext (s.ownedBy ks n) n (s.newContext ks ptroot base size lkey ckey)).initHeader n, [], none⟩ := by
  have hany : gs.any (fun g => decide (256 ≤ g) || (s.cluster g).owner.isSome || s.unusable g) = false := by
    rw [List.any_eq_false]
    intro g hm
    have h := List.all_eq_true.1 hg g hm
    simp only [Bool.and_eq_true, decide_eq_true_eq, Option.isNone_iff_eq_none, Bool.not_eq_true'] at h
    obtain ⟨⟨hlt, ho⟩, hu⟩ := h
    simp [ho, hu, hlt]
  have hok : (64 ≤ n || s.hasCtx n || gs.any (fun g => decide (256 ≤ g) || (s.cluster g).owner.isSome || s.unusable g) ||
      ptroot % 65536 != 0 || !isDram ptroot || base % 4096 != 0 || !isDram base || !isDram (base + size - 1) ||
      homeDie base != homeDie (base + size - 1) || decide (size < 65536 + 39124992 * gs.dedup.length)) = false := by
    simp [hc, hany, hp, hpd, hb, hbd, hed, hd, hn, hs]
  simp only [State.createContext]
  rw [if_neg (by rw [hok]; exact Bool.false_ne_true)]
  rfl

/-- MGMT_CREATE_CONTEXT, where it is allowed. -/
theorem exec_mgmtCreateContext_creates (h : commandsTaken s) :
    ∃ (u : State) (c : Context), exec (.mgmtCreateContext n gs ptroot base size lkey ckey) s = .next (u.initHeader n) ∧
      tget? u.ctxs n = some c ∧ madeContext s c (gs.dedup.insertionSort (· ≤ ·)) ptroot base size lkey ckey ∧
      (∀ g ∈ gs, (u.cluster g).owner = some n) ∧ (∀ g, g ∉ gs → u.cluster g = s.cluster g) ∧
      ({ u with ctxs := s.ctxs, clusters := s.clusters } : State) = s := by
  let ks := gs.dedup.insertionSort (· ≤ ·)
  let c := s.newContext ks ptroot base size lkey ckey
  have hmem (g : Nat) : g ∈ ks ↔ g ∈ gs := by simp [ks]
  have hcluster (g : Nat) : (withContext (s.ownedBy ks n) n c).cluster g = _ := s.cluster_ownedBy ks n g
  refine ⟨withContext (s.ownedBy ks n) n c, c, ?_, tget?_tset_same _ _ _, s.newContext_made _ _ _ _ _ _, fun g hg => ?_, fun g hg => ?_, ?_⟩
  · rw [exec_mgmtCreateContext, execMgmtCreateContext, State.createContext_some lkey ckey hn hc hg hp hpd hb hbd hed hd hs,
      State.command_some h]
  · rw [hcluster, if_pos ((hmem g).2 hg)]
  · rw [hcluster, if_neg (mt (hmem g).1 hg)]
  · have hf := s.ownedBy_frame ks n
    have hx : (s.ownedBy ks n).ctxs = s.ctxs := by have e := congrArg State.ctxs hf; exact e
    exact (congrArg (fun v : State => { v with ctxs := s.ctxs }) hf).trans rfl

end

end Sys2Proof.Machine

namespace Sys2Proof.Machine
open Sys2Proof.Claims

/-! Destroying and pre-empting a context (R380, R424). -/

theorem State.hasCtx_of_some {s : State} {n : Nat} {c : Context} (h : tget? s.ctxs n = some c) : s.hasCtx n = true := by
  rw [State.hasCtx, h]; rfl

theorem State.beginPreempt_of_some {s : State} {n : Nat} {c : Context} (h : tget? s.ctxs n = some c) :
    s.beginPreempt n = (withContext s n { c with phase := .saving, preemptAt := s.clk }).writeHeader n 1 := by
  rw [State.beginPreempt, State.modCtx_of_some _ h]

/-- A context that runs is saved at once. -/
theorem State.preemptNow_running {s : State} {n : Nat} {c : Context} (h : tget? s.ctxs n = some c) (hp : c.phase = .running) :
    s.preemptNow n = s.beginPreempt n := by
  rw [State.preemptNow, State.ctx_of_some h, hp]; rfl
/-- One that is being restored is saved once that is done. -/
theorem State.preemptNow_restoring {s : State} {n : Nat} {c : Context} (h : tget? s.ctxs n = some c) (hp : c.phase = .restoring) :
    s.preemptNow n = (s.endRestore n).beginPreempt n := by
  rw [State.preemptNow, State.ctx_of_some h, hp]; rfl

section
variable {s : State} {n : Nat} {c : Context} (ht : commandsTaken s) (h : tget? s.ctxs n = some c)
include ht h

theorem exec_mgmtDestroyContext_saved (hp : c.phase = .saved) : exec (.mgmtDestroyContext n) s = .next (s.removeContext n) := by
  rw [exec_mgmtDestroyContext, execMgmtDestroyContext, State.destroyContext, State.hasCtx_of_some h, State.ctx_of_some h, hp]
  exact State.command_some ht _ _

theorem exec_mgmtDestroyContext_saving (hp : c.phase = .saving) :
    exec (.mgmtDestroyContext n) s = .next (withContext s n { c with doomed := true, heldBy := [], retireHold := false }) := by
  refine Eq.trans ?_ (congrArg Host.Outcome.next (State.modCtx_of_some
    (fun x => { x with doomed := true, heldBy := [], retireHold := false }) h))
  rw [exec_mgmtDestroyContext, execMgmtDestroyContext, State.destroyContext, State.hasCtx_of_some h, State.ctx_of_some h, hp]
  exact State.command_some ht _ _

/-- A context that runs or is being restored is pre-empted, and is to go once it is saved. -/
theorem exec_mgmtDestroyContext_preempts (hp : c.phase = .running ∨ c.phase = .restoring) :
    exec (.mgmtDestroyContext n) s = .next ((s.preemptNow n).modCtx n (fun x => { x with doomed := true })) := by
  rw [exec_mgmtDestroyContext, execMgmtDestroyContext, State.destroyContext, State.hasCtx_of_some h, State.ctx_of_some h]
  rcases hp with hp | hp <;> rw [hp] <;> exact State.command_some ht _ _

theorem exec_mgmtPreempt_saving (hp : c.phase = .saving) :
    exec (.mgmtPreempt n) s = .next (withContext s n { c with heldBy := [], retireHold := false }) := by
  refine Eq.trans ?_ (congrArg Host.Outcome.next (State.modCtx_of_some (fun x => { x with heldBy := [], retireHold := false }) h))
  rw [exec_mgmtPreempt, execMgmtPreempt, State.preemptContext, State.hasCtx_of_some h, State.ctx_of_some h, hp]
  exact State.command_some ht _ _

theorem exec_mgmtPreempt_preempts (hp : c.phase = .running ∨ c.phase = .restoring) :
    exec (.mgmtPreempt n) s = .next (s.preemptNow n) := by
  rw [exec_mgmtPreempt, execMgmtPreempt, State.preemptContext, State.hasCtx_of_some h, State.ctx_of_some h]
  rcases hp with hp | hp <;> rw [hp] <;> exact State.command_some ht _ _

end

/-- What goes with a context that is removed: its waves and blocks (R424). -/
theorem State.removeContext_gone (s : State) (n : Nat) : tget? (s.removeContext n).ctxs n = none ∧
    (∀ p ∈ (s.removeContext n).waves, p.2.ctx ≠ n) ∧ (∀ p ∈ (s.removeContext n).blocks, p.2.ctx ≠ n) ∧
    (s.removeContext n).mem = s.mem ∧ ∀ k, k ≠ n → (s.removeContext n).ctx k = s.ctx k := by
  refine ⟨?_, fun p hp => ?_, fun p hp => ?_, rfl, fun k hk => ?_⟩
  · rw [State.removeContext, tget?_tdel, if_pos rfl]
  · simpa using (List.mem_filter.1 hp).2
  · simpa using (List.mem_filter.1 hp).2
  · exact (tgetD_tdel _ _ _ _).trans (if_neg hk)

/-- A running context that is to be destroyed is being saved, and goes after that. -/
theorem State.destroying_running {s : State} {n : Nat} {c : Context} (h : tget? s.ctxs n = some c) (hp : c.phase = .running) :
    (((s.preemptNow n).modCtx n (fun x => { x with doomed := true })).ctx n).phase = .saving ∧
    (((s.preemptNow n).modCtx n (fun x => { x with doomed := true })).ctx n).doomed = true := by
  have hsome : tget? (s.preemptNow n).ctxs n = some { c with phase := .saving, preemptAt := s.clk } := by
    obtain ⟨-, -, hx⟩ := (withContext s n { c with phase := .saving, preemptAt := s.clk }).sameWork_writeHeader n 1
    rw [State.preemptNow_running h hp, State.beginPreempt_of_some h, hx, withContext, tget?_tset_same]
  rw [State.modCtx_of_some _ hsome, ctx_withContext, if_pos rfl]
  exact ⟨rfl, rfl⟩

/-! Resuming a context under a plan (R382). -/

theorem State.sameWork_restorePiece (s : State) (x : SavedCluster) (g : Nat) : s.sameWork (s.restorePiece x g) := by
  have hg (f : Cluster → Cluster) : s.sameWork (s.modCluster g f) := ⟨rfl, rfl, rfl⟩
  have hc (u : State) (k : Nat) (f : Core → Core) : u.sameWork (u.modCore k f) := ⟨rfl, rfl, rfl⟩
  exact State.sameWork_trans (hg _) (State.sameWork_foldl _ _ (fun u k => hc u _ _))

/-- A wave at its place under a plan, the time for which its context stood saved left out. -/
def Wave.resumedAt (n idle : Nat) (p : Plan) (w : Wave) : Wave :=
  if w.ctx = n then
    { w with core := p.pieces.core w.block w.core, since := w.since + idle,
             causes := w.causes.map (TrapInfo.mapped (clusterOf (p.pieces.core w.block w.core))) }
  else w

/-- A block at its place under a plan. -/
def Block.resumedAt (n idle : Nat) (p : Plan) (b : Nat × Block) : Nat × Block :=
  if b.2.ctx = n then (b.1, { b.2 with core := p.pieces.core (some b.1) b.2.core, since := b.2.since + idle }) else b

theorem Block.resumedAt_key (n idle : Nat) (p : Plan) (b : Nat × Block) : (Block.resumedAt n idle p b).1 = b.1 := by
  rw [Block.resumedAt]; split <;> rfl

/-- What a resume makes of the waves, the blocks and the context. -/
theorem State.resumeOn_work {s : State} {n : Nat} {c : Context} (p : Plan) (h : tget? s.ctxs n = some c) :
    let idle := s.clk - (s.ctx n).preemptAt
    (s.resumeOn n p).waves = tmap s.waves (Wave.resumedAt n idle p) ∧
    (s.resumeOn n p).blocks = s.blocks.map (Block.resumedAt n idle p) ∧
    ((s.resumeOn n p).ctx n).phase = .restoring ∧ ((s.resumeOn n p).ctx n).clusters = p.clusters := by
  intro idle
  let s1 : State := { s with waves := tmap s.waves (Wave.resumedAt n idle p), blocks := s.blocks.map (Block.resumedAt n idle p) }
  let s3 : State := p.pieces.foldl (fun (u : State) x => u.restorePiece (s.pieceSaved n x.1) x.2) (s1.ownedBy p.clusters n)
  have ht : s.resumeOn n p = (s3.restoreContext n p).writeHeader n 3 := rfl
  have hown : s1.sameWork (s1.ownedBy p.clusters n) := State.sameWork_foldl _ _ (fun _ _ => ⟨rfl, rfl, rfl⟩)
  obtain ⟨hw3, hb3, hc3⟩ : s1.sameWork s3 :=
    State.sameWork_trans hown (State.sameWork_foldl _ _ (fun u _ => u.sameWork_restorePiece _ _))
  obtain ⟨hw, hb, -⟩ := (s3.restoreContext n p).sameWork_writeHeader n 3
  have hsome : (tget? s3.ctxs n).isSome = true := by rw [hc3]; exact Option.isSome_iff_exists.2 ⟨c, h⟩
  have hctx : (s.resumeOn n p).ctx n = _ :=
    ((s3.restoreContext n p).ctx_writeHeader n 3 n).trans ((State.ctx_modCtx s3 n n _ hsome).trans (if_pos rfl))
  refine ⟨?_, ?_, ?_, ?_⟩
  · rw [ht, hw]; exact hw3
  · rw [ht, hb]; exact hb3
  · rw [hctx]
  · rw [hctx]

theorem tget?_map_keyed {α : Type} {f : Nat × α → Nat × α} (hf : ∀ q, (f q).1 = q.1) (t : Tbl α) (k : Nat) :
    tget? (t.map f) k = (tget? t k).map (fun v => (f (k, v)).2) := by
  induction t with
  | nil => rfl
  | cons q t ih =>
    have hq : f q = (q.1, (f q).2) := by rw [← hf q]
    rw [List.map_cons, hq, tget?, tget?]
    split
    · rename_i hk; subst hk; rfl
    · exact ih

/-- Each block of the context stands at the core that the plan names, and each wave too, with its registers, splits and frame. -/
theorem State.resumeOn_places {s : State} {n : Nat} {c : Context} (p : Plan) (h : tget? s.ctxs n = some c) :
    (∀ b x, tget? s.blocks b = some x → x.ctx = n →
      ∃ y, tget? (s.resumeOn n p).blocks b = some y ∧ y.core = p.pieces.core (some b) x.core) ∧
    ∀ k w, tget? s.waves k = some w → w.ctx = n → ∃ v, tget? (s.resumeOn n p).waves k = some v ∧ v.core = p.pieces.core w.block w.core ∧
      v.splits = w.splits ∧ v.vregs = w.vregs ∧ v.sregs = w.sregs ∧ v.preds = w.preds ∧ v.mode = w.mode ∧ v.handler = w.handler ∧
      v.frame = w.frame := by
  obtain ⟨hw, hb, -, -⟩ := State.resumeOn_work p h
  refine ⟨fun b x hx hn => ⟨_, by rw [hb, tget?_map_keyed (Block.resumedAt_key _ _ _), hx]; rfl, ?_⟩,
    fun k w hk hn => ⟨_, by rw [hw, tget?_tmap, hk]; rfl, ?_⟩⟩
  · simp only [Block.resumedAt, if_pos hn]
  · simp only [Wave.resumedAt, if_pos hn, and_self]

/-- A resume that has no plan, or must not begin, does nothing. -/
theorem exec_mgmtResume_refused {s : State} {n : Nat} {c : Context} {gs : List Nat} (ht : commandsTaken s) (h : tget? s.ctxs n = some c)
    (hr : c.phase ≠ .saved ∨ s.saveHeld n = true ∨ s.resumePlan n (gs.dedup.insertionSort (· ≤ ·)) = none) :
    exec (.mgmtResume n gs) s = .next s := by
  have hnone : s.resume n (gs.dedup.insertionSort (· ≤ ·)) = none := by
    rw [State.resume, State.ctx_of_some h]
    rcases hr with hp | hh | hn
    · rw [if_pos (by simp [hp])]
    · rw [if_pos (by simp [hh])]
    · rw [hn, ite_self]
  rw [exec_mgmtResume, execMgmtResume, State.resumeContext, hnone, Option.map_none, ite_self, State.command_none ht]

/-- A saved context resumes under its plan onto free clusters. -/
theorem exec_mgmtResume_resumes {s : State} {n : Nat} {c : Context} {gs : List Nat} {p : Plan} (ht : commandsTaken s)
    (h : tget? s.ctxs n = some c) (hp : c.phase = .saved) (hh : s.saveHeld n = false)
    (hplan : s.resumePlan n (gs.dedup.insertionSort (· ≤ ·)) = some p)
    (hfree : p.clusters.all (fun g => !s.unusable g && (s.cluster g).owner.isNone) = true) :
    exec (.mgmtResume n gs) s = .next (s.resumeOn n p) := by
  have hany : p.clusters.any (fun g => s.unusable g || (s.cluster g).owner.isSome) = false := by
    rw [List.any_eq_false]
    intro g hg
    have hg := List.all_eq_true.1 hfree g hg
    simp only [Bool.and_eq_true, Bool.not_eq_true', Option.isNone_iff_eq_none] at hg
    simp [hg]
  have hsome : s.resume n (gs.dedup.insertionSort (· ≤ ·)) = some (s.resumeOn n p) := by
    rw [State.resume, State.ctx_of_some h, hp, hh, hplan]
    simp only [hany]; rfl
  rw [exec_mgmtResume, execMgmtResume, State.resumeContext, State.hasCtx_of_some h, hsome]
  exact State.command_some ht _ _

/-! Unregistering a code object (R355). -/

/-- A launch of a context that names no longer the code object `k`. -/
def Launch.unnaming (n k : Nat) (l : Launch) : Launch := if l.ctx = n && l.obj = some k then { l with obj := none } else l

theorem Launch.unnaming_obj {l : Launch} {n k : Nat} (h : (l.unnaming n k).ctx = n) : (l.unnaming n k).obj ≠ some k := by
  rw [Launch.unnaming] at h ⊢
  split
  · exact fun hk => nomatch hk
  · rename_i hl
    rw [if_neg hl] at h
    intro hk
    simp [h, hk] at hl

/-! Commands that set fields of a context (R424, R426). -/

section
variable {s : State} {n : Nat} {c : Context} (ht : commandsTaken s) (h : tget? s.ctxs n = some c)
include ht h

/-- A command on the fields of a context that exists. -/
theorem State.command_onCtx (f : Context → Context) : s.command (s.onCtx n f) = .next (withContext s n (f c)) := by
  rw [State.onCtx, State.hasCtx_of_some h, State.modCtx_of_some _ h]
  exact State.command_some ht _ _

theorem exec_mgmtSetKeys_saved (hp : c.phase = .saved) (lkey ckey : BitVec 256) :
    exec (.mgmtSetKeys n lkey ckey) s = .next (withContext s n { c with launchKey := lkey, codeKey := ckey }) := by
  rw [exec_mgmtSetKeys, execMgmtSetKeys, State.setKeys, State.ctx_of_some h, if_neg (by simp [hp])]
  exact State.command_onCtx ht h (fun x => { x with launchKey := lkey, codeKey := ckey })

theorem exec_mgmtFeatureMask_sets (mask : Byte) : exec (.mgmtFeatureMask n mask) s = .next (withContext s n { c with mask := mask }) :=
  State.command_onCtx ht h _

theorem exec_mgmtQueueQuanta_sets {q x : Nat} (hq : q < 64) (h0 : 0 < x) (hx : x < 2 ^ 31) : exec (.mgmtQueueQuanta n q x) s =
    .next (withContext s n { c with queues := tset c.queues q { c.queue q with quantum := x } }) := by
  rw [exec_mgmtQueueQuanta, execMgmtQueueQuanta, State.setQuantum, if_neg (by simp [State.hasCtx_of_some h]; omega), State.modQueue,
    State.modCtx_of_some _ h]
  exact State.command_some ht _ _

theorem exec_mgmtBindNoticeQp_sets {qp : Nat} (hq : qp < 4096) :
    exec (.mgmtBindNoticeQp n qp) s = .next (withContext s n { c with noticeQp := some qp }) := by
  rw [exec_mgmtBindNoticeQp, execMgmtBindNoticeQp, State.bindQp, if_neg (by omega)]
  exact State.command_onCtx ht h _

/-- A write of a control register by a command writes it as CRWR does. -/
theorem State.command_writeContextReg (r : CReg) (v : Dword) : s.command (s.writeContextReg n r v) = .next (s.writeCreg n r v) := by
  rw [State.writeContextReg, State.hasCtx_of_some h]
  exact State.command_some ht _ _

/-- A code object that is unregistered is gone, and no launch names it. -/
theorem exec_mgmtUnregisterCodeObject_drops {va k : Nat} {o : CodeObj} (ho : c.objectAt (BitVec.ofNat 64 va) = some (k, o)) :
    ∃ t : State, exec (.mgmtUnregisterCodeObject n va) s = .next t ∧ tget? (t.ctx n).objs k = none ∧
      (∀ l x, tget? t.launches l = some x → x.ctx = n → x.obj ≠ some k) ∧ t.mem = s.mem ∧ t.waves = s.waves := by
  let s1 := s.modCtx n (fun x => { x with objs := tdel x.objs k })
  refine ⟨{ s1 with launches := tmap s1.launches (Launch.unnaming n k) }, ?_, ?_, fun l x hx hn => ?_, rfl, rfl⟩
  · rw [exec_mgmtUnregisterCodeObject, execMgmtUnregisterCodeObject, State.unregister, State.ctx_of_some h, ho]
    exact State.command_some ht _ _
  · have hctx : s1.ctx n = { c with objs := tdel c.objs k } := by
      simp only [s1, State.modCtx_of_some _ h, ctx_withContext, if_true]
    exact (congrArg (fun x : Context => tget? x.objs k) hctx).trans ((tget?_tdel _ _ _).trans (if_pos rfl))
  · rw [tget?_tmap] at hx
    obtain ⟨y, -, rfl⟩ := Option.map_eq_some_iff.1 hx
    exact Launch.unnaming_obj hn

/-- The writes of control registers by commands (R131, R426). -/
theorem exec_mgmtWriteCregs (v : Dword) :
    exec (.mgmtWriteSillage n v) s = .next (withContext s n { c with sillage := v &&& 0x7FFF#64 }) ∧
    exec (.mgmtWriteTrapvec n v) s = .next (withContext s n { c with trapvec := v &&& 0x000FFFFFFFFFFFFD#64 }) ∧
    exec (.mgmtWriteSpawntmr n v) s = .next (withContext s n { c with spawntmr := v &&& 0xFFFF#64 }) ∧
    exec (.mgmtWriteCring n v) s = .next (withContext s n { c with cring := v &&& 0x000FFFFFFFFFF03F#64, ringSeq := 1 }) ∧
    exec (.mgmtWriteCtxmode n v) s = .next ((withContext s n { c with ctxmode := v &&& 0x1F#64 }).applyPower n) := by
  refine ⟨?_, ?_, ?_, ?_, ?_⟩
  · rw [exec_mgmtWriteSillage, execMgmtWriteSillage, State.command_writeContextReg ht h, State.writeCreg, State.modCtx_of_some _ h]
  · rw [exec_mgmtWriteTrapvec, execMgmtWriteTrapvec, State.command_writeContextReg ht h, State.writeCreg, State.modCtx_of_some _ h]
  · rw [exec_mgmtWriteSpawntmr, execMgmtWriteSpawntmr, State.command_writeContextReg ht h, State.writeCreg, State.modCtx_of_some _ h]
  · rw [exec_mgmtWriteCring, execMgmtWriteCring, State.command_writeContextReg ht h, State.writeCreg, State.modCtx_of_some _ h]
  · rw [exec_mgmtWriteCtxmode, execMgmtWriteCtxmode, State.command_writeContextReg ht h, State.writeCreg, State.modCtx_of_some _ h]

end

/-- Settles O50: each command by what it does where its context's phase allows it; a header that is written (R381) changes no wave, block or
context. -/
theorem contextCommands : Obligations.ContextCommands := by
  intro s ht
  refine ⟨fun n gs ptroot base size lkey ckey hn hc hg hp hpd hb hbd hed hd hs =>
    exec_mgmtCreateContext_creates lkey ckey hn hc hg hp hpd hb hbd hed hd hs ht, fun n c h => ?_⟩
  refine ⟨fun hp => ⟨_, exec_mgmtDestroyContext_saved ht h hp, s.removeContext_gone n⟩,
    fun hp => ⟨exec_mgmtDestroyContext_saving ht h hp, exec_mgmtPreempt_saving ht h hp⟩, fun hp => ?_, fun hp => ?_, fun gs => ?_,
    exec_mgmtSetKeys_saved ht h, exec_mgmtFeatureMask_sets ht h, fun q x => exec_mgmtQueueQuanta_sets ht h,
    fun va k o => exec_mgmtUnregisterCodeObject_drops ht h, exec_mgmtWriteCregs ht h, fun qp => exec_mgmtBindNoticeQp_sets ht h⟩
  · rw [exec_mgmtPreempt_preempts ht h (.inr hp), exec_mgmtDestroyContext_preempts ht h (.inr hp), State.preemptNow_restoring h hp]
    exact ⟨rfl, rfl⟩
  · refine ⟨?_, _, exec_mgmtDestroyContext_preempts ht h (.inl hp), State.destroying_running h hp⟩
    rw [exec_mgmtPreempt_preempts ht h (.inl hp), State.preemptNow_running h hp, State.beginPreempt_of_some h]
  · refine ⟨exec_mgmtResume_refused ht h, fun p hp hh hplan hfree => ⟨_, exec_mgmtResume_resumes ht h hp hh hplan hfree, ?_⟩⟩
    obtain ⟨-, -, hphase, hclusters⟩ := State.resumeOn_work p h
    obtain ⟨hblocks, hwaves⟩ := State.resumeOn_places p h
    exact ⟨hphase, hclusters, hblocks, hwaves⟩

end Sys2Proof.Machine

namespace Sys2Proof.Machine
open Sys2Proof.Claims

/-! CRWR (R131, R133). -/

theorem State.setStep_frame (s : State) (g n : Nat) : ({ s.setStep g n with clusters := s.clusters, dry := s.dry } : State) = s := by
  simp only [State.setStep]
  split <;> rfl

/-- A change of a context's power policy sets steps of its clusters, which the drydown records note, and nothing else. -/
theorem State.applyPower_frame (s : State) (n : Nat) : ({ s.applyPower n with clusters := s.clusters, dry := s.dry } : State) = s := by
  simp only [State.applyPower]
  split
  · refine List.foldlRecOn (motive := fun (u : State) => ({ u with clusters := s.clusters, dry := s.dry } : State) = s) _ _ rfl
      (fun (u : State) hu g _ => ?_)
    split
    · exact hu
    · have hf := congrArg (fun v : State => ({ v with clusters := s.clusters, dry := s.dry } : State)) (u.setStep_frame g 12)
      exact hf.trans hu
  · rfl

/-- A context after a write of one of its control registers: the writable fields take the value (R131). -/
def Context.withCreg (r : CReg) (v : Dword) (c : Context) : Context :=
  match r with
  | .sillage => { c with sillage := v &&& 0x7FFF#64 }
  | .trapvec => { c with trapvec := v &&& 0x000FFFFFFFFFFFFD#64 }
  | .spawntmr => { c with spawntmr := v &&& 0xFFFF#64 }
  | .ctxmode => { c with ctxmode := v &&& 0x1F#64 }
  | .cring => { c with cring := v &&& 0x000FFFFFFFFFF03F#64, ringSeq := 1 }
  | _ => c

/-- A write of a control register changes the contexts, and for CTXMODE the steps of clusters; nothing else. -/
theorem State.writeCreg_frame (s : State) (n : Nat) (r : CReg) (v : Dword) :
    ({ s.writeCreg n r v with ctxs := s.ctxs, clusters := s.clusters, dry := s.dry } : State) = s := by
  cases r
  case ctxmode =>
    have hf := (s.modCtx n (fun c => { c with ctxmode := v &&& 0x1F#64 })).applyPower_frame n
    exact congrArg (fun u : State => ({ u with ctxs := s.ctxs } : State)) hf
  all_goals rfl

theorem State.ctx_applyPower (s : State) (n k : Nat) : (s.applyPower n).ctx k = s.ctx k := by
  have hf := congrArg State.ctxs (s.applyPower_frame n)
  exact congrArg (fun t : Tbl Context => tgetD t k {}) hf

/-- It is a write of the fields of its context. -/
theorem State.ctx_writeCreg {s : State} {n : Nat} (k : Nat) (r : CReg) (v : Dword) (h : (tget? s.ctxs n).isSome = true) :
    (s.writeCreg n r v).ctx k = if k = n then (s.ctx n).withCreg r v else s.ctx k := by
  cases r
  case sillage | trapvec | spawntmr | cring => exact State.ctx_modCtx s n k _ h
  case ctxmode => exact (State.ctx_applyPower _ n k).trans (State.ctx_modCtx s n k _ h)
  all_goals
    show s.ctx k = if k = n then s.ctx n else s.ctx k
    split
    · rename_i hk; rw [hk]
    · rfl

/-- CRWR with a lane in active(w). -/
theorem exec_crwr_writes {r : CReg} {b : SSrc} {s : State} (hi : s.issues (.crwr r b)) (hm : s.activeMask ≠ 0) :
    exec (.crwr r b) s = .next (s.begun.writeCreg s.curWave.ctx r (s.readS64 b)).finish := by
  rw [exec_crwr, execCrwr, issueOp_issues _ _ _ hi, s.begun_activeMask, if_neg hm, s.begun_readS64, s.begun_curWave]

/-- What CRWR leaves: the control register's fields, and no other context, register or byte of memory. -/
theorem State.crwr_writes {s : State} (r : CReg) (v : Dword) (h : (tget? s.ctxs s.curWave.ctx).isSome = true) :
    let u := s.begun.writeCreg s.curWave.ctx r v
    u.mem = s.mem ∧ u.curWave.sregs = s.curWave.sregs ∧ u.curWave.vregs = s.curWave.vregs ∧
      (∀ k, k ≠ s.curWave.ctx → u.ctx k = s.ctx k) ∧ u.ctx s.curWave.ctx = s.curCtx.withCreg r v := by
  intro u
  have hf := s.begun.writeCreg_frame s.curWave.ctx r v
  have hw : u.curWave = { s.curWave with resumed := false } := (congrArg State.curWave hf).trans s.begun_curWave
  have hmem := congrArg State.mem hf
  refine ⟨hmem, by rw [hw], by rw [hw], fun k hk => ?_, ?_⟩
  · exact (State.ctx_writeCreg (s := s.begun) k r v h).trans (if_neg hk)
  · exact (State.ctx_writeCreg (s := s.begun) _ r v h).trans (if_pos rfl)

/-! CARVE (R305 to R307). -/

theorem all_of_tget? {α : Type} {q : α → Bool} {t : Tbl α} {k : Nat} {v : α} (hk : tget? t k = some v) (h : (tvals t).all q = true) :
    q v = true := by
  induction t with
  | nil => cases hk
  | cons p t ih =>
    obtain ⟨m, x⟩ := p
    simp only [tvals, List.map_cons, List.all_cons, Bool.and_eq_true] at h
    rw [tget?] at hk
    split at hk
    · cases hk; exact h.1
    · exact ih hk h.2

theorem all_tgetD {α : Type} {q : α → Bool} {t : Tbl α} (k : Nat) {d : α} (hd : q d = true) (h : (tvals t).all q = true) :
    q (tgetD t k d) = true := by
  rw [tgetD]
  cases hk : tget? t k with
  | none => exact hd
  | some v => exact all_of_tget? hk h

theorem tvals_tset_all {α : Type} {q : α → Bool} {t : Tbl α} {n : Nat} {v : α} (hv : q v = true) (h : (tvals t).all q = true) :
    (tvals (tset t n v)).all q = true := by
  rw [tvals, List.all_map] at h ⊢
  exact tset_all (fun p => q p.2) t n v hv h

theorem tvals_tmodify_all {α : Type} {q : α → Bool} {t : Tbl α} (n : Nat) {f : α → α} (hf : ∀ v, q (f v) = q v)
    (h : (tvals t).all q = true) : (tvals (tmodify t n f)).all q = true := by
  rw [tmodify]
  split
  · rename_i v hv; exact tvals_tset_all (by rw [hf]; exact all_of_tget? hv h) h
  · exact h

/-- The state in which the core of the wave that issues has changed by `f`, and its context is `c`. -/
def State.carving (s : State) (f : Core → Core) (c : Context) : State :=
  withContext (s.begun.modCore s.curWave.core f) s.curWave.ctx c

theorem State.ctx_carving (s : State) (f : Core → Core) (c : Context) : (s.carving f c).ctx s.curWave.ctx = c := by
  rw [State.carving, ctx_withContext, if_pos rfl]
theorem State.curWave_carving (s : State) (f : Core → Core) (c : Context) :
    (s.carving f c).curWave = { s.curWave with resumed := false } := s.begun_curWave
theorem State.curCtx_carving (s : State) (f : Core → Core) (c : Context) : (s.carving f c).curCtx = c := by
  rw [State.curCtx, State.curWave_carving, State.ctx_carving]
theorem State.modCtx_carving (s : State) (f : Core → Core) (c : Context) (g : Context → Context) :
    (s.carving f c).modCtx s.curWave.ctx g = s.carving f (g c) := by
  rw [State.modCtx_of_some g (c := c) (tget?_tset_same _ _ _), State.carving, State.carving]
  simp only [withContext, tset_tset]

/-- A context whose CARVE of a wave has entered. -/
def Context.entered (wid : Nat) (c : Context) : Context :=
  if c.carves.contains wid then c else { c with carves := c.carves ++ [wid] }

/-- Nothing but the list of CARVEs has changed. -/
theorem Context.entered_frame (wid : Nat) (c : Context) : ∃ l, c.entered wid = { c with carves := l } := by
  rw [Context.entered]
  split
  · exact ⟨_, rfl⟩
  · exact ⟨_, rfl⟩
/-- A CARVE that enters alone, or is the oldest, is the oldest. -/
theorem Context.entered_oldest {wid : Nat} {c : Context} (h : c.carves = [] ∨ c.carves.head? = some wid) :
    (c.entered wid).carves.head? = some wid := by
  rw [Context.entered]
  rcases h with h | h
  · simp [h]
  · rw [if_pos (by simpa using List.mem_of_mem_head? h)]; exact h

/-- CARVE past its fence. -/
theorem State.carving_of_enterCarve {s : State} {c : Context} (h : tget? s.ctxs s.curWave.ctx = some c) :
    ∃ f : Core → Core, (∀ k, (f k).wq = k.wq) ∧
      s.begun.enterCarve.released s.curWave.core 6 = s.carving f (c.entered s.issue.wave) := by
  have he : s.begun.enterCarve = withContext s.begun s.curWave.ctx (c.entered s.issue.wave) := by
    rw [State.enterCarve, s.begun_curWave]
    exact State.modCtx_of_some (Context.entered s.issue.wave) h
  refine ⟨fun k => if k.relMark ≤ s.begun.enterCarve.releaseMark then { k with relLevel := 0 } else k, fun k => ?_, ?_⟩
  · dsimp only; split <;> rfl
  · rw [State.released, he]; rfl

/-- The slice accesses of a context have completed still, when the fence of its CARVE is met. -/
theorem State.sliceQuiet_carving {s : State} {f : Core → Core} {c : Context} (hf : ∀ k, (f k).wq = k.wq)
    (hp : c.phase = s.curCtx.phase) (h : s.sliceQuiet s.curWave.ctx = true) : (s.carving f c).sliceQuiet s.curWave.ctx = true := by
  simp only [State.sliceQuiet, Bool.and_eq_true] at h ⊢
  obtain ⟨hcores, hwaves⟩ := h
  refine ⟨tvals_tset_all ?_ hcores, ?_⟩
  · rw [hf]
    exact all_tgetD (q := fun c : Core => (tvals c.wq).all (fun e => e.ctx != s.curWave.ctx)) s.curWave.core rfl hcores
  · rw [State.ctx_carving, hp]
    exact tvals_tmodify_all _ (fun w => rfl) hwaves

/-- The lines in a range of ways depend on the clusters of the context alone. -/
theorem State.linesInWays_carving {s : State} {f : Core → Core} {c : Context} (hc : c.clusters = s.curCtx.clusters) (lo hi : Nat) :
    (s.carving f c).linesInWays s.curWave.ctx lo hi = s.linesInWays s.curWave.ctx lo hi := by
  simp only [State.linesInWays, State.ctx_carving, hc]; rfl

/-- A context is not of the wave that issues. -/
theorem State.onlyCur_ctx {s t : State} (h : s.onlyCur t) (k : Nat) : t.ctx k = s.ctx k := by
  have hc := congrArg State.ctxs h.1
  exact congrArg (fun t : Tbl Context => tgetD t k {}) hc

/-- What the end of a CARVE leaves: the context and the register of its destination. -/
theorem State.putS_carving {s : State} (f : Core → Core) (c : Context) (d : SDst) (v : Dword) (ha : s.waveAlive = true)
    (hm : s.activeMask ≠ 0) : ((s.carving f c).putS d v).mem = s.mem ∧ ((s.carving f c).putS d v).ctx s.curWave.ctx = c ∧
      ∀ r, ((s.carving f c).putS d v).curWave.sreg r = if sdstReg d = some r then v else s.curWave.sreg r := by
  have ho := State.onlyCur_putS (s.carving f c).onlyCur_refl d v
  have halive : (s.carving f c).waveAlive = true := by
    show s.begun.waveAlive = true
    rw [s.begun_alive]; exact ha
  have hmask : (s.carving f c).activeMask = s.activeMask := s.begun_activeMask
  obtain ⟨rs, cs, ls, hw, hr⟩ := State.curWave_putS (s := s.carving f c) d v halive
  refine ⟨(State.onlyCur_mem_blocks ho).1, (State.onlyCur_ctx ho _).trans (s.ctx_carving f c), fun r => ?_⟩
  rw [hw, show (Wave.written _ _ _ _ _).sreg r = _ from hr r, hmask, s.curWave_carving]
  simp only [ne_eq, hm, not_false_eq_true, true_and]; rfl

/-- A byte below a bound stands in the bytes below it. -/
theorem memByte_filter_lt (m : Tbl Byte) {a b : Nat} (h : a < b) : memByte (m.filter (fun q => decide (q.1 < b))) a = memByte m a := by
  rw [memByte, memByte, tgetD, tgetD, tget?_filter_key (fun k => decide (k < b)), if_pos (decide_eq_true h)]

/-- The tables of a table of tables, each with the entries that a test of its key and theirs keeps. -/
theorem tgetD_map_filter {α : Type} (q : Nat → Nat × α → Bool) (t : Tbl (Tbl α)) (k : Nat) :
    tgetD (t.map (fun p => (p.1, p.2.filter (q p.1)))) k [] = (tgetD t k []).filter (q k) := by
  rw [tgetD, tgetD, tget?_map_keyed (f := fun p : Nat × Tbl α => (p.1, p.2.filter (q p.1))) (fun _ => rfl)]
  cases tget? t k <;> rfl

/-- A byte of a stack's scratchpad below both sizes keeps its value when the size changes (R303, R306). -/
theorem Context.resizeStacks_byte {c : Context} {n k a : Nat} (h : a < min c.spways n * 524288 * c.nslice k) :
    memByte (tgetD (c.resizeStacks n).stackSp k []) a = memByte (tgetD c.stackSp k []) a := by
  simp only [Context.resizeStacks]
  rw [tgetD_map_filter (fun y q => decide (q.1 < min c.spways n * 524288 * c.nslice y)), memByte_filter_lt _ h]

/-- A CARVE whose context has nothing on its way and no line in the ways that it gives up ends at once. -/
theorem State.carveOn_ends {s : State} {f : Core → Core} {c : Context} {d : SDst} {n : Nat} {old : Dword} (hf : ∀ k, (f k).wq = k.wq)
    (hp : c.phase = s.curCtx.phase) (hcl : c.clusters = s.curCtx.clusters) (hsp : c.spways = s.curCtx.spways)
    (hq : s.sliceQuiet s.curWave.ctx = true) (hl : s.linesInWays s.curWave.ctx (16 - n) (16 - s.curCtx.spways) = [])
    (hwb : s.writingBack = false) : (s.carving f c).carveOn d n old = ((s.carving f (c.resizeStacks n)).putS d old).finish := by
  have hctx : (s.carving f c).curWave.ctx = s.curWave.ctx := by rw [s.curWave_carving]
  have hwb' : (s.carving f c).writingBack = false := hwb
  simp only [State.carveOn, hctx, State.sliceQuiet_carving hf hp hq, State.ctx_carving, hsp, State.linesInWays_carving hcl, hl, hwb',
    State.carveDone, State.modCtx_carving]
  rfl

/-- What CARVE does once it holds: the fence is met, and it is the oldest of its context. -/
theorem exec_carve_enters {d : SDst} {a : SSrc} {s : State} {c : Context} (hi : s.issues (.carve d a)) (hm : s.activeMask ≠ 0)
    (hw : s.curSplit.wait = none) (hc : tget? s.ctxs s.curWave.ctx = some c) (hn : (s.readS64 a).toNat ≤ 16)
    (hg : s.begun.enterCarve.gate 6 true true = none) (ho : c.carves = [] ∨ c.carves.head? = some s.issue.wave) :
    ∃ f : Core → Core, (∀ k, (f k).wq = k.wq) ∧ exec (.carve d a) s = .next (
      let e := c.entered s.issue.wave
      let old := c.waypart (stackOf s.curWave.core)
      if (s.readS64 a).toNat = c.spways then ((s.carving f { e with carves := e.carves.tail }).putS d old).finish
      else (s.carving f { e with carveBusy := true }).carveOn d (s.readS64 a).toNat old) := by
  obtain ⟨f, hf, he⟩ := State.carving_of_enterCarve hc
  refine ⟨f, hf, ?_⟩
  have hcur : s.begun.enterCarve.curCtx = c.entered s.issue.wave := by
    have hx := congrArg State.curCtx he
    exact hx.trans (s.curCtx_carving f _)
  obtain ⟨l, hl⟩ := c.entered_frame s.issue.wave
  have hwave : s.begun.curWave.ctx = s.curWave.ctx := by rw [s.begun_curWave]
  have hlt : ¬16 < (s.readS64 a).toNat := by omega
  rw [exec_carve, execCarve, issueOp_issues _ _ _ hi]
  simp only [State.begun_readS64, State.begun_activeMask, if_neg hm, State.begun_split, hw, if_neg hlt, hg, hcur, Context.entered_oldest ho,
    State.begun_issue, bne_self_eq_false, Bool.false_eq_true, if_false, State.begun_core, hwave, he, State.curCtx_carving,
    State.modCtx_carving]
  simp only [hl]; rfl

/-- CARVE beyond 16 ways is refused (R305). -/
theorem exec_carve_refused {d : SDst} {a : SSrc} {s : State} (hi : s.issues (.carve d a)) (hm : s.activeMask ≠ 0)
    (hw : s.curSplit.wait = none) (hn : 16 < (s.readS64 a).toNat) :
    exec (.carve d a) s = .next (s.begun.trapHere (s.info 0x17 1)) := by
  rw [exec_carve, execCarve, issueOp_issues _ _ _ hi]
  simp only [State.begun_readS64, State.begun_activeMask, if_neg hm, State.begun_split, hw, if_pos hn, State.begun_info]

/-- CARVE, once the fence is met, it is the oldest of its context, and nothing of the context is on its way: whatever size it takes, the
context comes to it with the size, the state and the scratchpad bytes that R303 and R306 name. -/
theorem exec_carve_completes {d : SDst} {a : SSrc} {s : State} {c : Context} (hi : s.issues (.carve d a)) (hm : s.activeMask ≠ 0)
    (hw : s.curSplit.wait = none) (hc : tget? s.ctxs s.curWave.ctx = some c) (hn : (s.readS64 a).toNat ≤ 16)
    (hg : s.begun.enterCarve.gate 6 true true = none) (ho : c.carves = [] ∨ c.carves.head? = some s.issue.wave)
    (hb : c.carveBusy = false) (hq : s.sliceQuiet s.curWave.ctx = true)
    (hl : s.linesInWays s.curWave.ctx (16 - (s.readS64 a).toNat) (16 - c.spways) = []) (hwb : s.writingBack = false) :
    ∃ (f : Core → Core) (x : Context), exec (.carve d a) s =
        .next ((s.carving f x).putS d (c.waypart (stackOf s.curWave.core))).finish ∧
      x.spways = (s.readS64 a).toNat ∧ x.carveBusy = false ∧
      ∀ k i, i < min c.spways (s.readS64 a).toNat * 524288 * c.nslice k →
        memByte (tgetD x.stackSp k []) i = memByte (tgetD c.stackSp k []) i := by
  have hcur : s.curCtx = c := State.ctx_of_some hc
  obtain ⟨f, hf, hx⟩ := exec_carve_enters hi hm hw hc hn hg ho
  obtain ⟨l, he⟩ := c.entered_frame s.issue.wave
  rw [hx]
  dsimp only
  rw [he]
  split
  · rename_i hsame
    exact ⟨f, _, rfl, hsame.symm, hb, fun _ _ _ => rfl⟩
  · rw [State.carveOn_ends hf (by rw [hcur]) (by rw [hcur]) (by rw [hcur]) hq (by rw [hcur]; exact hl) hwb]
    exact ⟨f, _, rfl, rfl, rfl, fun k i h => Context.resizeStacks_byte h⟩

/-! TLBINV and ICINV (R379). -/

/-- The caches of every core after an invalidation, and for TLBINV the attempts of the engines abandoned. -/
def State.dropped (s : State) (f : Core → Core) (engines : Bool) : State :=
  let v : State := { s with cores := tmap s.cores f }
  if engines then v.abandonReads s.curWave.ctx else v

theorem State.dropped_frame (s : State) (f : Core → Core) (engines : Bool) :
    (s.dropped f engines).mem = s.mem ∧ (s.dropped f engines).waves = s.waves ∧ (s.dropped f engines).issue = s.issue ∧
      (s.dropped f engines).cores = tmap s.cores f := by
  rw [State.dropped]
  cases engines <;> exact ⟨rfl, rfl, rfl, rfl⟩

/-- Every core has dropped what an invalidation names. -/
theorem State.core_dropped {s : State} {f : Core → Core} {engines : Bool} {k : Nat} {c : Core}
    (h : tget? (s.dropped f engines).cores k = some c) : ∃ c', c = f c' := by
  obtain ⟨-, -, -, hc⟩ := s.dropped_frame f engines
  rw [hc, tget?_tmap] at h
  obtain ⟨c', -, rfl⟩ := Option.map_eq_some_iff.1 h
  exact ⟨c', rfl⟩

/-- An invalidation past its fence broadcasts, and holds. -/
theorem State.invalidate_holds {s : State} (f : Core → Core) (engines : Bool) (hm : s.activeMask ≠ 0) (hw : s.curSplit.wait = none)
    (hg : s.begun.gate 6 true true = none) :
    s.begun.invalidate f engines = ((s.begun.released s.curWave.core 6).dropped f engines).stall (.hold s.clk none) := by
  simp only [State.invalidate, State.begun_activeMask, if_neg hm, State.begun_split, hw, hg, State.begun_core]
  rfl

/-- An invalidation whose hold has ended drops what was cached meanwhile, and moves on. -/
theorem State.invalidate_ends {s : State} (f : Core → Core) (engines : Bool) (hm : s.activeMask ≠ 0)
    (hw : s.curSplit.wait = some .quiet) : s.begun.invalidate f engines = (s.begun.dropped f engines).finish := by
  simp only [State.invalidate, State.begun_activeMask, if_neg hm, State.begun_split, hw]
  rfl

theorem State.begun_invTarget (s : State) (a : SSrc) (all : Bool) : s.begun.invTarget a all = s.invTarget a all := by
  simp only [State.invTarget, State.begun_readS64]

/-- A cached translation that is left is of another context, or its page does not hold the address. -/
theorem Core.dropTlb_left {s : State} {a : SSrc} {all : Bool} {n : Nat} {c : Core} {p : Nat × TlbEntry}
    (h : p ∈ (c.dropTlb n (s.invTarget a all)).tlb) (hn : p.1 / 2 ^ 64 = n) :
    ¬(all = true ∨ (p.1 % 2 ^ 64 ≤ (s.readS64 a).toNat ∧ (s.readS64 a).toNat < p.1 % 2 ^ 64 + p.2.size)) := by
  subst hn
  have hp := (List.mem_filter.1 h).2
  cases all
  · simpa [State.invTarget, imp_iff_not_or] using hp
  · simp [State.invTarget] at hp

/-- A code line that is left is of another context, or another line than that of the address. -/
theorem Core.dropCode_left {s : State} {a : SSrc} {all : Bool} {n : Nat} {c : Core} {p : Nat × List Byte}
    (h : p ∈ (c.dropCode n (s.invTarget a all)).icache) (hn : p.1 / 2 ^ 64 = n) :
    all = false ∧ p.1 % 2 ^ 64 ≠ (s.readS64 a).toNat / 128 * 128 := by
  subst hn
  have hp := (List.mem_filter.1 h).2
  cases all
  · simpa [State.invTarget] using hp
  · simp [State.invTarget] at hp

theorem exec_tlbinv_invalidates {a : SSrc} {all : Bool} {s : State} (hi : s.issues (.tlbinv a all)) :
    exec (.tlbinv a all) s = .next (s.begun.invalidate (Core.dropTlb s.curWave.ctx (s.invTarget a all)) true) := by
  rw [exec_tlbinv, execTlbinv, issueOp_issues _ _ _ hi, s.begun_invTarget, s.begun_curWave]

theorem exec_icinv_invalidates {a : SSrc} {all : Bool} {s : State} (hi : s.issues (.icinv a all)) :
    exec (.icinv a all) s = .next (s.begun.invalidate (Core.dropCode s.curWave.ctx (s.invTarget a all)) false) := by
  rw [exec_icinv, execIcinv, issueOp_issues _ _ _ hi, s.begun_invTarget, s.begun_curWave]

/-- What an invalidation does at its two ends, `left` being what it leaves of a core's cache. -/
theorem invalidation_completes {i : Instr} {s : State} {f : Core → Core} {engines : Bool} {left : Core → Prop} (hm : s.activeMask ≠ 0)
    (hx : exec i s = .next (s.begun.invalidate f engines)) (hf : ∀ c, left (f c)) :
    (s.curSplit.wait = none → s.begun.gate 6 true true = none → ∃ u : State, exec i s = .next (u.stall (.hold s.clk none)) ∧
      u.mem = s.mem ∧ ∀ k c, tget? u.cores k = some c → left c) ∧
    (s.curSplit.wait = some .quiet → ∃ u : State, exec i s = .next u.finish ∧ u.mem = s.mem ∧
      u.curWave.sregs = s.curWave.sregs ∧ ∀ k c, tget? u.cores k = some c → left c) := by
  refine ⟨fun hw hg => ⟨_, by rw [hx, State.invalidate_holds f engines hm hw hg], ?_, fun k c hk => ?_⟩,
    fun hw => ⟨_, by rw [hx, State.invalidate_ends f engines hm hw], ?_, ?_, fun k c hk => ?_⟩⟩
  · exact (State.dropped_frame _ f engines).1
  · obtain ⟨c', rfl⟩ := State.core_dropped hk
    exact hf c'
  · exact (State.dropped_frame _ f engines).1
  · obtain ⟨-, hwaves, hissue, -⟩ := s.begun.dropped_frame f engines
    have hw : (s.begun.dropped f engines).curWave = s.begun.curWave := by rw [State.curWave, hwaves, hissue]; rfl
    rw [hw, s.begun_curWave]
  · obtain ⟨c', rfl⟩ := State.core_dropped hk
    exact hf c'

/-- INVALIDATION_COMPLETE steps the hold of each split of the wave. -/
theorem State.holdSplit_of_hold {s : State} {w : Wave} {sp : Split} {m : Nat} {since : Option Nat} (h : sp.wait = some (.hold m since)) :
    (s.accessesDone w.ctx m = false → s.holdSplit w sp = { sp with wait := some (.hold m none) }) ∧
    (s.accessesDone w.ctx m = true → since = none → s.holdSplit w sp = { sp with wait := some (.hold m (some s.clk)) }) ∧
    (∀ c, s.accessesDone w.ctx m = true → since = some c → c + 2048 ≤ s.clk → s.holdSplit w sp = { sp with wait := some .quiet }) := by
  simp only [State.holdSplit, h]
  refine ⟨fun hd => ?_, fun hd hs => ?_, fun c hd hs hc => ?_⟩
  · simp [hd]
  · simp [hd, hs]
  · simp [hd, hs, hc]

/-- Settles O41: CRWR by the fields it keeps, CARVE by the state past its fence, TLBINV and ICINV by what a core's caches keep, and the
end of their hold split by split. -/
theorem privilegedComplete : Obligations.PrivilegedComplete := by
  refine ⟨fun r b s hi hm hc => ?_, fun d a s hi hm hw hc => ⟨exec_carve_refused hi hm hw, fun hn hg ho hb hq hl hwb => ?_⟩,
    fun a all s hm => ⟨fun hi => ?_, fun hi => ?_⟩, fun s wid k m since w sp hw hk hsp => ?_⟩
  · obtain ⟨hmem, hsregs, hvregs, hother, hctx⟩ := State.crwr_writes r (s.readS64 b) hc
    refine ⟨_, exec_crwr_writes hi hm, hmem, hsregs, hvregs, hother, hctx.trans ?_⟩
    cases r <;> rfl
  · obtain ⟨c, hc⟩ := Option.isSome_iff_exists.1 hc
    have hcur : s.curCtx = c := State.ctx_of_some hc
    rw [hcur] at ho hb hl ⊢
    obtain ⟨f, x, hx, hsp, hbusy, hbytes⟩ := exec_carve_completes hi hm hw hc hn hg ho hb hq hl hwb
    obtain ⟨hmem, hctx, hr⟩ := State.putS_carving f x d (c.waypart (stackOf s.curWave.core)) hi.1 hm
    refine ⟨_, hx, hmem, ?_, ?_, hr, ?_⟩ <;> rw [hctx]
    · exact hsp
    · exact hbusy
    · exact hbytes
  · exact invalidation_completes hm (exec_tlbinv_invalidates hi) (left := fun c => ∀ p ∈ c.tlb, p.1 / 2 ^ 64 = s.curWave.ctx →
      ¬(all = true ∨ (p.1 % 2 ^ 64 ≤ (s.readS64 a).toNat ∧ (s.readS64 a).toNat < p.1 % 2 ^ 64 + p.2.size)))
      (fun c p hp hn => Core.dropTlb_left hp hn)
  · exact invalidation_completes hm (exec_icinv_invalidates hi) (left := fun c => ∀ p ∈ c.icache, p.1 / 2 ^ 64 = s.curWave.ctx →
      all = false ∧ p.1 % 2 ^ 64 ≠ (s.readS64 a).toNat / 128 * 128) (fun c p hp hn => Core.dropCode_left hp hn)
  · have hsplit : tget? (tmap w.splits (s.holdSplit w)) k = some (s.holdSplit w sp) := by rw [tget?_tmap, hk]; rfl
    obtain ⟨hnot, hfirst, hend⟩ := State.holdSplit_of_hold (s := s) (w := w) hsp
    refine ⟨_, { w with splits := tmap w.splits (s.holdSplit w) }, rfl, rfl, fun j hj => ?_, ?_, rfl, fun hd => ?_, fun hd hs => ?_,
      fun c hd hs hc => ?_⟩
    · rw [State.modWave_waves, tget?_tmodify, if_neg hj]
    · rw [State.modWave_waves, tget?_tmodify, if_pos rfl, hw]; rfl
    · rw [hsplit, hnot hd]
    · rw [hsplit, hfirst hd hs]
    · rw [hsplit, hend c hd hs hc]

end Sys2Proof.Machine

namespace Sys2Proof.Machine
open Sys2Proof.Claims

/-! Vector rows (R135 to R155). -/

/-- The one result of a vector row, written in its lanes. -/
def State.putRow (s : State) (r : VRow) : State := s.putVMask r.lanes r.dst r.wide r.value

/-- A row that writes its result where the instruction has its effect, and moves on, changes nothing else. -/
theorem State.vectorDone_putRow (s : State) (r : VRow) (h : s.waveAlive = true) :
    s.vectorDone (s.begun.putRow r).finish r.lanes r.dst r.wide r.value :=
  s.vectorDone_putVMask r.lanes r.dst r.wide r.value h

/-! Element-wise rows (R139 to R144). -/

/-- A binary element-wise row that issues writes its value over the operands as they stand, and moves on. -/
theorem vecBinary_issues {i : Instr} {s : State} (d : VDst) (a b : VSrc) (saturates : Bool) (fi : EType → Int → Int → Int)
    (ff : RMode → FVal → FVal → FVal × Bool) (hi : s.issues i) : vecBinary i d a b saturates fi ff s =
      .next (s.begun.putRow (elemRow s d saturates (fun l e => fi s.etype (s.vInt s.etype a l e) (s.vInt s.etype b l e))
        (fun f l e => ff s.rmode (s.vFloat s.etype f a l e) (s.vFloat s.etype f b l e)))).finish := by
  rw [vecBinary, issueOp_issues _ _ _ hi]
  simp only [State.putElems, State.putV, State.begun_activeMask, State.begun_etype, State.begun_rmode, State.begun_sat,
    State.begun_vInt, State.begun_vFloat]
  rfl

/-- A unary element-wise row likewise. -/
theorem vecUnary_issues {i : Instr} {s : State} (d : VDst) (a : VSrc) (saturates : Bool) (fi : EType → Int → Int)
    (ff : RMode → FVal → FVal × Bool) (hi : s.issues i) : vecUnary i d a saturates fi ff s =
      .next (s.begun.putRow (elemRow s d saturates (fun l e => fi s.etype (s.vInt s.etype a l e))
        (fun f l e => ff s.rmode (s.vFloat s.etype f a l e)))).finish := by
  rw [vecUnary, issueOp_issues _ _ _ hi]
  simp only [State.putElems, State.putV, State.begun_activeMask, State.begun_etype, State.begun_rmode, State.begun_sat,
    State.begun_vInt, State.begun_vFloat]
  rfl

/-- A floating row of one operand likewise (R141 to R143). -/
theorem floatUnary_issues {i : Instr} {s : State} (d : VDst) (a : VSrc) (g : RMode → FVal → FVal × Bool) (hi : s.issues i) :
    floatUnary i d a g s = .next (s.begun.putRow (elemRow s d false (fun l e => s.vInt s.etype a l e)
      (fun f l e => g s.rmode (s.vFloat s.etype f a l e)))).finish :=
  vecUnary_issues d a false (fun _ x => x) g hi

/-- An accumulating row likewise: the destination, as it stands, is the third operand (R144). -/
theorem vecFused_issues {i : Instr} {s : State} (d : Fin 128) (a b : VSrc) (sub : Bool) (hi : s.issues i) :
    vecFused i d a b sub s = .next (s.begun.putRow (elemRow s (.reg d) true
      (fun l e => s.vInt s.etype (.reg d) l e +
        if sub then -(s.vInt s.etype a l e * s.vInt s.etype b l e) else s.vInt s.etype a l e * s.vInt s.etype b l e)
      (fun f l e => (fAdd s.rmode
        (if sub then fNeg (fMul (s.vFloat s.etype f a l e) (s.vFloat s.etype f b l e))
          else fMul (s.vFloat s.etype f a l e) (s.vFloat s.etype f b l e))
        (s.vFloat s.etype f (.reg d) l e), false)))).finish := by
  rw [vecFused, issueOp_issues _ _ _ hi]
  simp only [State.putElems, State.putV, State.begun_activeMask, State.begun_etype, State.begun_rmode, State.begun_sat,
    State.begun_vInt, State.begun_vFloat]
  rfl

/-- An element-wise row that issues writes its result, and moves on. -/
theorem exec_elementRow {i : Instr} {s : State} {r : VRow} (h : elementRow s i = some r) (hi : s.issues i) :
    exec i s = .next (s.begun.putRow r).finish := by
  unfold elementRow at h
  dsimp only at h
  split at h <;> cases h
  case h_1 => rw [exec_addv]; exact vecBinary_issues _ _ _ _ _ _ hi
  case h_2 => rw [exec_subv]; exact vecBinary_issues _ _ _ _ _ _ hi
  case h_3 => rw [exec_mulv]; exact vecBinary_issues _ _ _ _ _ _ hi
  case h_4 => rw [exec_divv]; exact vecBinary_issues _ _ _ _ _ _ hi
  case h_5 => rw [exec_minv]; exact vecBinary_issues _ _ _ _ _ _ hi
  case h_6 => rw [exec_maxv]; exact vecBinary_issues _ _ _ _ _ _ hi
  case h_7 => rw [exec_absv, execAbsv, vecUnary_issues _ _ _ _ _ hi]; simp only [Int.natCast_natAbs]; rfl
  case h_8 => rw [exec_negv]; exact vecUnary_issues _ _ _ _ _ hi
  case h_9 => rw [exec_madv]; exact vecFused_issues _ _ _ _ hi
  case h_10 => rw [exec_msubv, execMsubv, vecFused_issues _ _ _ _ hi]; simp only [Int.sub_eq_add_neg, if_true]
  case h_11 => rw [exec_sqrtv]; exact floatUnary_issues _ _ _ hi
  case h_12 => rw [exec_rcpv]; exact floatUnary_issues _ _ _ hi
  case h_13 => rw [exec_rsqv]; exact floatUnary_issues _ _ _ hi
  case h_14 => rw [exec_exp2v]; exact floatUnary_issues _ _ _ hi
  case h_15 => rw [exec_log2v]; exact floatUnary_issues _ _ _ hi
  case h_16 => rw [exec_sinv]; exact floatUnary_issues _ _ _ hi
  case h_17 => rw [exec_cosv]; exact floatUnary_issues _ _ _ hi
  case h_18 => rw [exec_tanhv]; exact floatUnary_issues _ _ _ hi
  case h_19 => rw [exec_floorv]; exact floatUnary_issues _ _ _ hi
  case h_20 => rw [exec_ceilv]; exact floatUnary_issues _ _ _ hi
  case h_21 => rw [exec_truncv]; exact floatUnary_issues _ _ _ hi
  case h_22 => rw [exec_rintv]; exact floatUnary_issues _ _ _ hi
  case h_23 => rw [exec_fracv]; exact floatUnary_issues _ _ _ hi
  case h_24 => rw [exec_mulhv]; exact vecBinary_issues _ _ _ _ _ _ hi
  case h_25 => rw [exec_remv]; exact vecBinary_issues _ _ _ _ _ _ hi
  case h_26 => rw [exec_shlv]; exact vecBinary_issues _ _ _ _ _ _ hi
  case h_27 => rw [exec_shrv]; exact vecBinary_issues _ _ _ _ _ _ hi
  case h_28 => rw [exec_srav]; exact vecBinary_issues _ _ _ _ _ _ hi
  case h_29 => rw [exec_rolv]; exact vecBinary_issues _ _ _ _ _ _ hi
  case h_30 => rw [exec_clzv]; exact vecUnary_issues _ _ _ _ _ hi
  case h_31 => rw [exec_popcv]; exact vecUnary_issues _ _ _ _ _ hi
  case h_32 => rw [exec_bfxv]; exact vecBinary_issues _ _ _ _ _ _ hi
  case h_33 => rw [exec_avgv]; exact vecBinary_issues _ _ _ _ _ _ hi

/-- Settles O3: a row writes its result with `putVMask` in active(w), whose one change is the destination and its latch. -/
theorem elementRowsComplete : Obligations.ElementRowsComplete :=
  fun _ s r h hi => ⟨_, exec_elementRow h hi, s.vectorDone_putRow r hi.1⟩

/-! Rows on raw bits, moves, conversions, dot products, selects and shuffles (R138 to R148, R150, R152, R154, R155). -/

/-- A row on raw bits that issues combines the elements of its operands as they stand, and moves on (R139). -/
theorem vecBits_issues {i : Instr} {s : State} (d : VDst) (a b : VSrc) (g : EType → Nat → Nat → Nat) (hi : s.issues i) :
    vecBits i d a b g s = .next (s.begun.putRow (bitsRow s d
      (fun l e => g s.etype (elemOf s.etype (s.readV s.etype a l) e) (elemOf s.etype (s.readV s.etype b l) e)))).finish := by
  rw [vecBits, issueOp_issues _ _ _ hi]
  simp only [State.putElems, State.putV, State.begun_activeMask, State.begun_etype, State.begun_readV]
  rfl

/-- A dot product that issues adds to the destination as it stands, and moves on (R145). -/
theorem vecDot_issues {i : Instr} {s : State} (d : Fin 128) (a b : VSrc) (n : Nat) (hi : s.issues i) :
    vecDot i d a b n s = .next (s.begun.putRow (wordRow s (.reg d) (fun l => vectorRow.dotLane s d a b n l))).finish := by
  rw [vecDot, issueOp_issues _ _ _ hi]
  simp only [State.putV, dotInt, State.begun_activeMask, State.begun_etype, State.begun_rmode, State.begun_sat, State.begun_vreg,
    State.begun_vInt, State.begun_vFloat]
  rfl

/-- A shuffle that issues takes each lane's value from its source lane, and moves on (R152). -/
theorem vecShuffle_issues {i : Instr} {s : State} (d : VDst) (a b : VSrc) (src : Nat → Nat → Nat) (hi : s.issues i) :
    vecShuffle i d a b src s = .next (s.begun.putRow (activeRow s d
      (fun l => s.readV s.etype a (src l ((s.readV .uint32 b l).toNat % 32))))).finish := by
  rw [vecShuffle, issueOp_issues _ _ _ hi]
  simp only [State.putV, State.begun_activeMask, State.begun_etype, State.begun_readV]
  rfl

/-- A vector row that issues writes its result, and moves on. -/
theorem exec_vectorRow {i : Instr} {s : State} {r : VRow} (h : vectorRow s i = some r) (hi : s.issues i) :
    exec i s = .next (s.begun.putRow r).finish := by
  unfold vectorRow at h
  dsimp only at h
  split at h <;> cases h
  case h_1 => rw [exec_andv]; exact vecBits_issues _ _ _ _ hi
  case h_2 => rw [exec_orv]; exact vecBits_issues _ _ _ _ hi
  case h_3 => rw [exec_xorv]; exact vecBits_issues _ _ _ _ hi
  case h_4 => rw [exec_andnv]; exact vecBits_issues _ _ _ _ hi
  case h_5 => rw [exec_notv]; exact vecBits_issues _ _ _ _ hi
  case h_6 =>
    rw [exec_movv, execMovv, issueOp_issues _ _ _ hi]
    simp only [State.putV, State.begun_activeMask, State.begun_etype, State.begun_readV]
    rfl
  case h_7 =>
    rw [exec_copysv, execCopysv, issueOp_issues _ _ _ hi]
    simp only [State.putElems, State.putV, State.begun_activeMask, State.begun_etype, State.begun_readV]
    rfl
  case h_8 =>
    rw [exec_classv, execClassv, issueOp_issues _ _ _ hi]
    simp only [State.putElems, State.putV, State.begun_activeMask, State.begun_etype, State.begun_readV]
    rfl
  case h_9 =>
    rw [exec_scalbv, execScalbv, issueOp_issues _ _ _ hi]
    simp only [State.putElems, State.putV, State.begun_activeMask, State.begun_etype, State.begun_rmode, State.begun_vInt,
      State.begun_vFloat]
    rfl
  case h_10 => rw [exec_dot4v]; exact vecDot_issues _ _ _ _ hi
  case h_11 => rw [exec_dot2v]; exact vecDot_issues _ _ _ _ hi
  case h_12 =>
    rw [exec_cvtv, execCvtv, issueOp_issues _ _ _ hi]
    simp only [State.putV, State.begun_activeMask, State.begun_etype, State.begun_rmode, State.begun_sat, State.begun_readV]
    rfl
  case h_13 =>
    rw [exec_packsxv, execPacksxv, issueOp_issues _ _ _ hi]
    simp only [State.putV, State.begun_activeMask, State.begun_rmode, State.begun_sat, State.begun_readV]
    rfl
  case h_14 =>
    rw [exec_unpksxv, execUnpksxv, issueOp_issues _ _ _ hi]
    simp only [State.putV, State.begun_activeMask, State.begun_readV]
    rfl
  case h_15 =>
    rw [exec_selv, execSelv, issueOp_issues _ _ _ hi]
    simp only [State.begun_activeMask, State.begun_issue, State.begun_etype, State.begun_readV]
    rfl
  case h_16 => rw [exec_shflv]; exact vecShuffle_issues _ _ _ _ hi
  case h_17 => rw [exec_shupv]; exact vecShuffle_issues _ _ _ _ hi
  case h_18 => rw [exec_shdnv]; exact vecShuffle_issues _ _ _ _ hi
  case h_19 => rw [exec_shxrv]; exact vecShuffle_issues _ _ _ _ hi
  case h_20 => rw [exec_bcastv]; exact vecShuffle_issues _ _ _ _ hi
  case h_21 =>
    rw [exec_scanv, execScanv, issueOp_issues _ _ _ hi]
    simp only [State.putV, State.begun_activeMask, State.begun_etype, State.begun_rmode, State.begun_sat, State.begun_readV,
      State.begun_vInt]
    rfl
  case h_22 =>
    rw [exec_movsv, execMovsv, issueOp_issues _ _ _ hi]
    simp only [State.putV, State.begun_activeMask, State.begun_etype, State.begun_readS]
    rfl
  case h_23 =>
    rw [exec_plget, execPlget, issueOp_issues _ _ _ hi]
    simp only [State.putV, State.begun_activeMask, State.begun_plane]
    rfl

/-- Settles O4: each row writes its value with `putVMask`, SELV in every lane of the copy and the others in active(w). -/
theorem vectorRowsComplete : Obligations.VectorRowsComplete :=
  fun _ s r h hi => ⟨_, exec_vectorRow h hi, s.vectorDone_putRow r hi.1⟩

end Sys2Proof.Machine

namespace Sys2Proof.Machine
open Sys2Proof.Claims

/-! Loads, stores and read-modify-writes row by row: each is a flow with its request (R157 to R161, R172 to R176). -/

/-- Where the data of a load of `z` bytes goes, by its destination (R170). -/
def destLoad (s : State) (z : Nat) : Dest → LoadDst
  | .vec d => .vec (vdstReg d) (etIs64 s.etype)
  | .scalar d => .scalar (sdstReg d) z (etSigned s.etype)
  | .quad q => .quad (4 * q.val)
  | .none => .vec none false

/-- How a read-modify-write writes its old values, by its destination (R175, R176). -/
def destPut (s : State) : Dest → State → (Nat → Nat) → State
  | .vec d, u, old => u.putV d (etIs64 s.etype) (fun l => BitVec.ofNat 64 (old l))
  | .scalar d, u, old => u.putS d (if etIsInt s.etype then extend64 s.etype (old 32) else BitVec.ofNat 64 (old 32))
  | .quad q, u, old => u.putQuad q old
  | .none, u, _ => u

/-- A load that issues runs the flow of its request. -/
theorem exec_loadRow {i : Instr} {s : State} {opc : Nat} {r : MemReq} {dst : Dest} (h : loadRow s.begun i = some (opc, r, dst))
    (hi : s.issues i) : ∃ empty, exec i s = .next (s.begun.loadFlow opc r (destLoad s r.z dst) empty) := by
  unfold loadRow at h
  split at h
  case h_1 => cases h; rw [exec_ldv, execLdv, issueOp_issues _ _ _ hi]; exact ⟨_, rfl⟩
  case h_2 => cases h; rw [exec_lds, execLds, issueOp_issues _ _ _ hi]; exact ⟨_, rfl⟩
  case h_3 => cases h; rw [exec_ldvb, execLdvb, issueOp_issues _ _ _ hi]; exact ⟨_, rfl⟩
  case h_4 => cases h; rw [exec_ldp, execLdp, spadLoad, issueOp_issues _ _ _ hi]; exact ⟨_, rfl⟩
  case h_5 => cases h; rw [exec_ldc, execLdc, spadLoad, issueOp_issues _ _ _ hi]; exact ⟨_, rfl⟩
  case h_6 => cases h; rw [exec_ldk, execLdk, spadLoad, issueOp_issues _ _ _ hi]; exact ⟨_, rfl⟩
  case h_7 => cases h; rw [exec_ldl, execLdl, spadLoad, issueOp_issues _ _ _ hi]; exact ⟨_, rfl⟩
  case h_8 => cases h; rw [exec_ldps, execLdps, issueOp_issues _ _ _ hi]; exact ⟨_, rfl⟩
  case h_9 => cases h

/-- A store that issues runs the flow of its request. -/
theorem exec_storeRow {i : Instr} {s : State} {opc : Nat} {r : MemReq} {data : Nat → Nat} (h : storeRow s.begun i = some (opc, r, data))
    (hi : s.issues i) : exec i s = .next (s.begun.storeFlow opc r data) := by
  unfold storeRow at h
  split at h
  case h_1 => cases h; rw [exec_stv, execStv, issueOp_issues _ _ _ hi]; rfl
  case h_2 => cases h; rw [exec_sts, execSts, issueOp_issues _ _ _ hi]; rfl
  case h_3 => cases h; rw [exec_stvb, execStvb, issueOp_issues _ _ _ hi]; rfl
  case h_4 => cases h; rw [exec_stp, execStp, spadStore, issueOp_issues _ _ _ hi]; rfl
  case h_5 => cases h; rw [exec_stc, execStc, spadStore, issueOp_issues _ _ _ hi]; rfl
  case h_6 => cases h; rw [exec_stk, execStk, spadStore, issueOp_issues _ _ _ hi]; rfl
  case h_7 => cases h; rw [exec_stl, execStl, spadStore, issueOp_issues _ _ _ hi]; rfl
  case h_8 => cases h; rw [exec_stps, execStps, issueOp_issues _ _ _ hi]; rfl
  case h_9 => cases h

/-- A vector atomic that issues runs the flow of its request. -/
theorem vecAtomic_issues {i : Instr} {s : State} (opc : Nat) (d : VDst) (a : Fin 64) (g : State → Group) (hi : s.issues i) :
    ∃ ld empty, vecAtomic i opc d a g s =
      .next (s.begun.rmwFlow opc (atomicRow.at_ s.begun a) (g s.begun) ld empty (destPut s (.vec d))) := by
  rw [vecAtomic, issueOp_issues _ _ _ hi]; exact ⟨_, _, rfl⟩

/-- A reduction that issues runs the flow of its request. -/
theorem vecReduction_issues {i : Instr} {s : State} (opc : Nat) (a : Fin 64) (g : State → Group) (hi : s.issues i) :
    ∃ ld empty, vecReduction i opc a g s =
      .next (s.begun.rmwFlow opc (atomicRow.at_ s.begun a) (g s.begun) ld empty (destPut s .none)) := by
  rw [vecReduction, issueOp_issues _ _ _ hi]; exact ⟨_, _, rfl⟩

/-- A scalar atomic that issues runs the flow of its request. -/
theorem scalarAtomic_issues {i : Instr} {s : State} (opc : Nat) (d : SDst) (a : SSrc) (g : State → Group) (hi : s.issues i) :
    ∃ ld empty, scalarAtomic i opc d a g s =
      .next (s.begun.rmwFlow opc (atomicRow.one s.begun a) (g s.begun) ld empty (destPut s (.scalar d))) := by
  rw [scalarAtomic, issueOp_issues _ _ _ hi]; exact ⟨_, _, rfl⟩

/-- An atomic on cluster memory that issues runs the flow of its request. -/
theorem clusterAtomic_issues {i : Instr} {s : State} (opc : Nat) (d : VDst) (a : VSrc) (g : State → Group) (hi : s.issues i) :
    ∃ ld empty, clusterAtomic i opc d a g s =
      .next (s.begun.rmwFlow opc (atomicRow.cl s.begun a) (g s.begun) ld empty (destPut s (.vec d))) := by
  rw [clusterAtomic, issueOp_issues _ _ _ hi]; exact ⟨_, _, rfl⟩

/-- A read-modify-write that issues runs the flow of its request. -/
theorem exec_atomicRow {i : Instr} {s : State} {opc : Nat} {r : MemReq} {f : Group} {dst : Dest}
    (h : atomicRow s.begun i = some (opc, r, f, dst)) (hi : s.issues i) :
    ∃ ld empty, exec i s = .next (s.begun.rmwFlow opc r f ld empty (destPut s dst)) := by
  unfold atomicRow at h
  split at h
  case h_1 => cases h; rw [exec_aadd]; exact vecAtomic_issues _ _ _ _ hi
  case h_2 => cases h; rw [exec_amin]; exact vecAtomic_issues _ _ _ _ hi
  case h_3 => cases h; rw [exec_amax]; exact vecAtomic_issues _ _ _ _ hi
  case h_4 => cases h; rw [exec_aand]; exact vecAtomic_issues _ _ _ _ hi
  case h_5 => cases h; rw [exec_aor]; exact vecAtomic_issues _ _ _ _ hi
  case h_6 => cases h; rw [exec_axor]; exact vecAtomic_issues _ _ _ _ hi
  case h_7 => cases h; rw [exec_axchg]; exact vecAtomic_issues _ _ _ _ hi
  case h_8 => cases h; rw [exec_aincw]; exact vecAtomic_issues _ _ _ _ hi
  case h_9 => cases h; rw [exec_adecw]; exact vecAtomic_issues _ _ _ _ hi
  case h_10 => cases h; rw [exec_cas]; exact vecAtomic_issues _ _ _ _ hi
  case h_11 => cases h; rw [exec_cas128, execCas128, issueOp_issues _ _ _ hi]; exact ⟨_, _, rfl⟩
  case h_12 => cases h; rw [exec_aadds]; exact scalarAtomic_issues _ _ _ _ hi
  case h_13 => cases h; rw [exec_cass]; exact scalarAtomic_issues _ _ _ _ hi
  case h_14 => cases h; rw [exec_rdadd]; exact vecReduction_issues _ _ _ hi
  case h_15 => cases h; rw [exec_rdmin]; exact vecReduction_issues _ _ _ hi
  case h_16 => cases h; rw [exec_rdmax]; exact vecReduction_issues _ _ _ hi
  case h_17 => cases h; rw [exec_rdand]; exact vecReduction_issues _ _ _ hi
  case h_18 => cases h; rw [exec_rdor]; exact vecReduction_issues _ _ _ hi
  case h_19 => cases h; rw [exec_rdxor]; exact vecReduction_issues _ _ _ hi
  case h_20 => cases h; rw [exec_aaddc]; exact clusterAtomic_issues _ _ _ _ hi
  case h_21 => cases h; rw [exec_casc]; exact clusterAtomic_issues _ _ _ _ hi
  case h_22 => cases h

/-! The checks of R165 come first. -/

section
variable {s : State} {r : MemReq} (hm : s.activeMask ≠ 0) (hh : s.held r.space = false) (ha : s.acquiring s.curWave = false)
include hm hh ha

/-- A load that need not wait before its checks takes the trap that they find. -/
theorem State.loadFlow_traps (opc : Nat) (dst : LoadDst) (empty : State) {t : TrapInfo} (ht : s.check r = .trap t) :
    s.loadFlow opc r dst empty = s.trapHere t := by
  simp only [State.loadFlow, if_neg hm, State.heldLoad, hh, ha, ht, Bool.false_and, Bool.false_eq_true, if_false]

/-- A store that need not wait before its checks takes the trap that they find. -/
theorem State.storeFlow_traps (opc : Nat) (data : Nat → Nat) {t : TrapInfo} (ht : s.check r = .trap t) :
    s.storeFlow opc r data = s.trapHere t := by
  simp only [State.storeFlow, if_neg hm, State.heldWrite, hh, ha, ht, Bool.false_and, Bool.false_eq_true, if_false]

/-- A read-modify-write that need not wait before its checks takes the trap that they find. -/
theorem State.rmwFlow_traps (opc : Nat) (f : Group) (dst : Option LoadDst) (empty : State) (put : State → (Nat → Nat) → State)
    {t : TrapInfo} (ht : s.check r = .trap t) : s.rmwFlow opc r f dst empty put = s.trapHere t := by
  simp only [State.rmwFlow, if_neg hm, State.heldWrite, hh, ha, ht, Bool.false_and, Bool.false_eq_true, if_false]

end

/-- A misaligned address, lowest lane first, is the first thing that the checks find. -/
theorem State.check_misaligned {s : State} {r : MemReq} {pre post : List (Nat × Dword)} {l : Nat} {va : Dword}
    (hr : r.lanes = pre ++ (l, va) :: post) (hpre : ∀ p ∈ pre, p.2.toNat % r.z = 0) (hva : va.toNat % r.z ≠ 0) :
    s.check r = .trap (s.info 0x0B 0 va (trapLane l)) := by
  have hf : r.lanes.find? (fun p => p.2.toNat % r.z != 0) = some (l, va) := by
    rw [hr, List.find?_append, List.find?_eq_none.2 (fun p hp => by simp [hpre p hp]), Option.none_or,
      List.find?_cons_of_pos (by simpa using hva)]
  simp only [State.check, hf]

/-- With every address aligned, a non-canonical global one, lowest lane first, is the next. -/
theorem State.check_nonCanonical {s : State} {r : MemReq} {pre post : List (Nat × Dword)} {l : Nat} {va : Dword}
    (hg : r.space = .global) (hal : ∀ p ∈ r.lanes, p.2.toNat % r.z = 0) (hr : r.lanes = pre ++ (l, va) :: post)
    (hpre : ∀ p ∈ pre, (s.inFrame p.2 || canonical p.2) = true) (hfr : s.inFrame va = false) (hc : canonical va = false) :
    s.check r = .trap (s.info 0x0C (2 + r.access.bits) va (trapLane l)) := by
  have hn : r.lanes.find? (fun p => p.2.toNat % r.z != 0) = none := List.find?_eq_none.2 (fun p hp => by simp [hal p hp])
  have hf : r.lanes.find? (fun p => !s.inFrame p.2 && !canonical p.2) = some (l, va) := by
    have hnone : pre.find? (fun p => !s.inFrame p.2 && !canonical p.2) = none :=
      List.find?_eq_none.2 (fun p hp => by rw [← Bool.not_or, hpre p hp]; simp)
    rw [hr, List.find?_append, hnone, Option.none_or, List.find?_cons_of_pos (by simp [hfr, hc])]
  simp only [State.check, hn, hg, hf, beq_self_eq_true, if_true]

/-- Settles O27: each flow runs its checks before anything else, and they come in the order of R165. -/
theorem accessChecksTrap : Obligations.AccessChecksTrap := by
  intro i s r hrow hi hm hh ha
  have hm' : s.begun.activeMask ≠ 0 := by rwa [s.begun_activeMask]
  have htrap (t : TrapInfo) (ht : s.begun.check r = .trap t) : exec i s = .next (s.begun.trapHere t) := by
    rcases hrow with ⟨opc, d, h⟩ | ⟨opc, d, h⟩ | ⟨opc, f, d, h⟩
    · obtain ⟨empty, he⟩ := exec_loadRow h hi
      rw [he, State.loadFlow_traps hm' hh ha _ _ _ ht]
    · rw [exec_storeRow h hi, State.storeFlow_traps hm' hh ha _ _ ht]
    · obtain ⟨ld, empty, he⟩ := exec_atomicRow h hi
      rw [he, State.rmwFlow_traps hm' hh ha _ _ _ _ _ ht]
  refine ⟨htrap, fun pre l va post hr hpre hva => ?_, fun hg hal pre l va post hr hpre hfr hc => ?_⟩
  · exact htrap _ (State.check_misaligned hr hpre hva)
  · exact htrap _ (State.check_nonCanonical hg hal hr hpre hfr hc)

end Sys2Proof.Machine

namespace Sys2Proof.Machine
open Sys2Proof.Claims

/-! What reads and fences may change: caches, queues and messages of the memory system, and of the wave nothing. -/

/-- What the memory system may change leaves the waves. -/
theorem State.sameArch_waves {s u : State} (h : s.sameArch u) : u.waves = s.waves := by
  have e := congrArg State.waves h.rest
  exact e
theorem State.sameArch_issue {s u : State} (h : s.sameArch u) : u.issue = s.issue := by
  have e := congrArg State.issue h.rest
  exact e
theorem State.sameArch_clk {s u : State} (h : s.sameArch u) : u.clk = s.clk := by
  have e := congrArg State.clk h.rest
  exact e
theorem State.sameArch_objects {s u : State} (h : s.sameArch u) : u.objects = s.objects := by
  have e := congrArg State.objects h.rest
  exact e
theorem State.sameArch_curWave {s u : State} (h : s.sameArch u) : u.curWave = s.curWave := by
  simp only [State.curWave, State.sameArch_waves h, State.sameArch_issue h]

/-- A step that only the memory system sees, from the state in which an instruction has its effect, is no change of what a
program sees. -/
theorem architecturalSame_of_sameArch {s u : State} (h : s.begun.sameArch u) : architecturalSame s u := by
  have hw : u.curWave = { s.curWave with resumed := false } := (State.sameArch_curWave h).trans s.begun_curWave
  refine ⟨⟨?_, fun k hk => ?_, by rw [hw]⟩, by rw [hw]⟩
  · have hr := congrArg (fun t : State => ({ t with waves := s.waves } : State)) h.rest
    exact hr
  · rw [State.sameArch_waves h]; exact s.onlyCur_begun.2 k hk

theorem architecturalSame_begun (s : State) : architecturalSame s s.begun := architecturalSame_of_sameArch s.begun.sameArch_refl

/-! PREF and FENCE (R166, R177, R323). -/

/-- PREF moves on, whatever its checks find, after a read of its line at most. -/
theorem exec_pref_moves {a b : SSrc} {s : State} (hi : s.issues (.pref a b)) :
    ∃ u : State, exec (.pref a b) s = .next u.finishYield ∧ s.begun.sameArch u := by
  rw [exec_pref, execPref, issueOp_issues _ _ _ hi]
  dsimp only
  split
  · exact ⟨_, rfl, State.sameArch_refl _⟩
  split
  · split
    · exact ⟨_, rfl, State.sameArch_refl _⟩
    · have hr := State.readLine_same (s0 := s.begun) (s.begun.cacheAll { z := 1, lanes := oneAccess (s.begun.readS64 a + s.begun.readS64 b) })
      split
      · exact ⟨_, rfl, of_yes_same (hr _ _ _ _ _ (State.cacheAll_same _ _ (State.sameArch_refl _))) (by assumption)⟩
      · exact ⟨_, rfl, of_notYet_same (hr _ _ _ _ _ (State.cacheAll_same _ _ (State.sameArch_refl _))) (by assumption)⟩
  · exact ⟨_, rfl, State.sameArch_refl _⟩

theorem scopeLevel_eq_levelOf (x : Scope) : scopeLevel x = levelOf x := by cases x <;> rfl

theorem levelOf_eq_six (x : Scope) : levelOf x = 6 ↔ x = .package := by cases x <;> simp [levelOf]

/-- A release or an acquire that finds nothing on its way and no lost store has nothing to wait for (R323, R324). -/
theorem State.gate_eq_none {s : State} {level : Nat} {release acquire : Bool} (hw : s.curSplit.wait = none) (hl : s.curWave.loads = [])
    (ho : (s.core s.curWave.core).outcomesKnown s.issue.wave (s.core s.curWave.core).nextWrite = true)
    (hr : release = true → (s.core s.curWave.core).published (s.core s.curWave.core).nextWrite level = true ∧
      ∀ t ∈ s.curWave.causes, t.origin.lostWrite = false)
    (hd : depsReady (s.core s.curWave.core).deps s.curWave.core level (release || !acquire) = true) :
    s.gate level release acquire = none := by
  have hgo : (if release then s.storeCause else none) = none := by
    cases release with
    | false => rfl
    | true => exact s.storeCause_of_none (hr rfl).2
  have hmet : s.waitMet s.curWave { s.curWave.split with
      wait := some (.fence level (s.core s.curWave.core).nextWrite s.curWave.nextLoad release acquire s.issue.wave) } = true := by
    have hp : (!release || (s.core s.curWave.core).published (s.core s.curWave.core).nextWrite level) = true := by
      cases release with
      | false => rfl
      | true => exact (hr rfl).1
    simp only [State.waitMet, hl, List.all_nil, ho, hp, hd, Bool.and_self]
  have hw' : s.curWave.split.wait = none := hw
  simp only [State.gate, hw', hmet, hgo, if_true, Option.map_none]

/-- FENCE waits, and issue passes, while its gate does. -/
theorem exec_fence_waits {f : FenceOp} {s g : State} (hi : s.issues (.fence f)) (hm : s.activeMask ≠ 0)
    (hg : s.begun.gate (levelOf f.scope) (f.ord != .acquire) (f.ord != .release) = some g) : exec (.fence f) s = .next g.passCur := by
  rw [exec_fence, execFence, issueOp_issues _ _ _ hi]
  simp only [State.begun_activeMask, decide_eq_false hm, Bool.false_and, Bool.false_eq_true, if_false, scopeLevel_eq_levelOf, hg]

/-- FENCE completes once its gate is open; a release begins its epoch. -/
theorem exec_fence_completes {f : FenceOp} {s : State} (hi : s.issues (.fence f)) (hm : s.activeMask ≠ 0)
    (hg : s.begun.gate (levelOf f.scope) (f.ord != .acquire) (f.ord != .release) = none) : exec (.fence f) s =
      .next (if f.ord != .acquire then s.begun.released s.curWave.core (levelOf f.scope) else s.begun).finishYield := by
  rw [exec_fence, execFence, issueOp_issues _ _ _ hi]
  simp only [State.begun_activeMask, decide_eq_false hm, Bool.false_and, Bool.false_eq_true, if_false, scopeLevel_eq_levelOf, hg,
    State.begun_core]

/-- The core of a release that completes. -/
theorem State.core_released (s : State) (core level : Nat) : (s.released core level).core core =
    if level = 6 then (if (s.core core).relMark ≤ s.releaseMark then { s.core core with relLevel := 0 } else s.core core)
    else { s.core core with epoch := (s.core core).epoch + 1, relLevel := level, relMark := (s.core core).nextWrite } := by
  simp only [State.released, State.core_modCore, if_true]

theorem State.begun_releaseMark (s : State) : s.begun.releaseMark = s.releaseMark := by
  simp only [State.releaseMark, State.begun_split, State.begun_core]; rfl

/-- Settles O28. -/
theorem prefAndFenceComplete : Obligations.PrefAndFenceComplete := by
  refine ⟨fun a b s hi => ?_, fun f s hi hm => ⟨fun hw hl ho hr hd => ?_, fun hg => ?_, fun g hg => ?_⟩⟩
  · obtain ⟨u, hu, hs⟩ := exec_pref_moves hi
    exact ⟨u, hu, architecturalSame_of_sameArch hs⟩
  · refine State.gate_eq_none (by rwa [s.begun_split]) (by rw [s.begun_curWave]; exact hl) ?_ (fun hf => ?_) ?_
    · simp only [State.begun_core]; exact ho
    · rw [s.begun_curWave]
      exact hr (by simpa using hf)
    · have hb : ((f.ord != FenceOrd.acquire) || !(f.ord != FenceOrd.release)) = (f.ord != .acquire || f.ord == .release) := by
        cases f.ord <;> rfl
      simp only [State.begun_core, hb]; exact hd
  · rw [exec_fence_completes hi hm hg]
    by_cases hacq : f.ord = .acquire
    · refine ⟨s.begun, by simp [hacq], architecturalSame_begun s, fun _ => rfl, fun h => absurd hacq h, fun h => absurd hacq h⟩
    · refine ⟨s.begun.released s.curWave.core (levelOf f.scope), by simp [hacq],
        architecturalSame_of_sameArch (State.released_same _ _ _ (State.sameArch_refl _)), fun h => absurd h hacq, fun _ hp => ?_, fun _ hp => ?_⟩
      · rw [State.core_released, if_pos ((levelOf_eq_six _).2 hp), s.begun_releaseMark]; rfl
      · rw [State.core_released, if_neg (fun h => hp ((levelOf_eq_six _).1 h))]; rfl
  · exact exec_fence_waits hi hm hg

/-! DRAIN (R180). -/

/-- A split that waits in DRAIN, while its unit is not quiet. -/
theorem State.drainSplit_busy {s : State} {w : Wave} {sp : Split} {l m : Nat} {since : Option Nat} (h : sp.wait = some (.drain l m since))
    (hq : s.unitQuiet l w.core w.ctx m = false) : s.drainSplit w sp = { sp with wait := some (.drain l m none) } := by
  simp only [State.drainSplit, h, hq, Bool.not_false, if_true]
/-- A split that waits in DRAIN notes the clk at which its unit has become quiet. -/
theorem State.drainSplit_notes {s : State} {w : Wave} {sp : Split} {l m : Nat} (h : sp.wait = some (.drain l m none))
    (hq : s.unitQuiet l w.core w.ctx m = true) : s.drainSplit w sp = { sp with wait := some (.drain l m (some s.clk)) } := by
  simp only [State.drainSplit, h, hq, Bool.not_true, Bool.false_eq_true, if_false]
/-- A split that waits in DRAIN goes on once its unit has been quiet for the hold time. -/
theorem State.drainSplit_ends {s : State} {w : Wave} {sp : Split} {l m c : Nat} (h : sp.wait = some (.drain l m (some c)))
    (hq : s.unitQuiet l w.core w.ctx m = true) (hc : c + holdTime l ≤ s.clk) : s.drainSplit w sp = { sp with wait := some .quiet } := by
  simp only [State.drainSplit, h, hq, Bool.not_true, Bool.false_eq_true, if_false, if_pos hc]

/-- An event that changes each split of a wave changes nothing else. -/
theorem State.modWave_splits {s : State} {wid : Nat} {w : Wave} (hw : tget? s.waves wid = some w) (f : Wave → Tbl Split) :
    ({ s.modWave wid (fun w => { w with splits := f w }) with waves := s.waves } : State) = s ∧
      (∀ j, j ≠ wid → tget? (s.modWave wid (fun w => { w with splits := f w })).waves j = tget? s.waves j) ∧
      tget? (s.modWave wid (fun w => { w with splits := f w })).waves wid = some { w with splits := f w } := by
  refine ⟨rfl, fun j hj => ?_, ?_⟩
  · simp [State.modWave, tget?_tmodify, hj]
  · simp [State.modWave, tget?_tmodify, hw]

/-- Settles O29. -/
theorem drainCompletes : Obligations.DrainCompletes := by
  refine fun x s => ⟨fun hi hm hd hq => ?_, fun hi hq => ?_, fun wid k l m since w sp hw hsp hwait => ?_⟩
  · rw [exec_drain, execDrain, issueOp_issues _ _ _ hi]
    simp only [State.begun_split, State.begun_activeMask, if_neg hm, scopeLevel_eq_levelOf]
    rfl
  · rw [exec_drain, execDrain, issueOp_issues _ _ _ hi]
    simp only [State.begun_split, hq]
    exact ⟨_, rfl, architecturalSame_begun s⟩
  · obtain ⟨hrest, hothers, hwave⟩ := State.modWave_splits hw (fun w => tmap w.splits (s.drainSplit w))
    refine ⟨_, _, by rw [exec_drainComplete]; rfl, hrest, hothers, hwave, rfl, fun hq => ?_, fun hq hs => ?_, fun c hq hs hc => ?_⟩
    · simp only [tget?_tmap, hsp, Option.map_some, State.drainSplit_busy hwait hq]
    · subst hs; simp only [tget?_tmap, hsp, Option.map_some, State.drainSplit_notes hwait hq]
    · subst hs; simp only [tget?_tmap, hsp, Option.map_some, State.drainSplit_ends hwait hq hc]

end Sys2Proof.Machine

namespace Sys2Proof.Machine
open Sys2Proof.Claims

/-! Places and their bytes (R161, R277). -/

/-- The table of bytes in which a place lies. -/
def State.cellTable (s : State) : Cell → Tbl Byte
  | .dram _ => s.mem
  | .frame _ => s.curWave.frame
  | .spad b _ => (s.block b).scratch
  | .lanep b _ => (s.block b).lanes
  | .stk c k _ => tgetD (s.ctx c).stackSp k []

/-- The poisoned granules of the table in which a place lies. -/
def State.cellPoison (s : State) : Cell → List Nat
  | .dram _ => s.poison
  | .frame _ => []
  | .spad b _ => (s.block b).spoison
  | .lanep b _ => (s.block b).lpoison
  | .stk c k _ => tgetD (s.ctx c).stackPoison k []

/-- The address of a place in its table. -/
def cellAddr : Cell → Nat
  | .dram a | .frame a | .spad _ a | .lanep _ a | .stk _ _ a => a

/-- The place `k` bytes further. -/
def cellPlus : Cell → Nat → Cell
  | .dram a, k => .dram (a + k)
  | .frame a, k => .frame (a + k)
  | .spad b a, k => .spad b (a + k)
  | .lanep b a, k => .lanep b (a + k)
  | .stk c x a, k => .stk c x (a + k)

theorem cellByte_eq (s : State) (q : Cell) : cellByte s q = memByte (s.cellTable q) (cellAddr q) := by cases q <;> rfl
theorem State.readCell_fst (s : State) (c : Cell) (z : Nat) : (s.readCell c z).1 = memNat (s.cellTable c) (cellAddr c) z := by
  cases c <;> rfl
theorem cellByte_cellPlus (s : State) (c : Cell) (k : Nat) : cellByte s (cellPlus c k) = memByte (s.cellTable c) (cellAddr c + k) := by
  cases c <;> rfl
@[simp] theorem inDram_cellPlus (c : Cell) (k : Nat) : inDram (cellPlus c k) = (inDram c).map (· + k) := by cases c <;> rfl

/-- The bytes of an access of `z` bytes at a place are those at the next `z` places. -/
theorem byteIn_eq_some_iff {z : Nat} {c q : Cell} {k : Nat} : byteIn z c q = some k ↔ k < z ∧ q = cellPlus c k := by
  have hk (a b : Nat) : (if a ≤ b ∧ b < a + z then some (b - a) else none) = some k ↔ k < z ∧ b = a + k := by
    rw [Option.ite_none_right_eq_some, Option.some.injEq]; omega
  cases c <;> cases q <;> simp only [byteIn, cellPlus, reduceCtorEq, and_false, Cell.dram.injEq, Cell.frame.injEq, Cell.spad.injEq,
    Cell.lanep.injEq, Cell.stk.injEq, Option.ite_none_right_eq_some, Option.some.injEq]
  all_goals omega

theorem byteIn_cellPlus {z k : Nat} (c : Cell) (h : k < z) : byteIn z c (cellPlus c k) = some k := byteIn_eq_some_iff.2 ⟨h, rfl⟩

/-- Numbers of equal bytes are equal. -/
theorem memNat_congr {m t : Tbl Byte} {a b z : Nat} (h : ∀ k, k < z → memByte m (a + k) = memByte t (b + k)) :
    memNat m a z = memNat t b z := by
  induction z generalizing a b with
  | zero => rfl
  | succ z ih =>
    have h0 : memByte m a = memByte t b := h 0 (by omega)
    rw [memNat, memNat, h0, ih (a := a + 1) (b := b + 1) (fun k hk => by
      simpa only [Nat.add_assoc, Nat.add_comm 1 k] using h (k + 1) (by omega))]

/-- The number of some bytes. -/
theorem memNat_of_bytes {m : Tbl Byte} {a : Nat} (bs : List Byte) (h : ∀ k, k < bs.length → memByte m (a + k) = bs.getD k 0) :
    memNat m a bs.length = leNat bs := by
  induction bs generalizing a with
  | nil => rfl
  | cons b bs ih =>
    have h0 : memByte m a = b := h 0 (by simp)
    rw [List.length_cons, memNat, h0, leNat, ih (a := a + 1) (fun k hk => by
      simpa only [Nat.add_assoc, Nat.add_comm 1 k, List.getD_cons_succ] using h (k + 1) (by simpa using hk))]

/-- A place whose bytes stand as before reads as before. -/
theorem State.readCell_congr {s u : State} {c : Cell} {z : Nat} (h : ∀ k, k < z → cellByte u (cellPlus c k) = cellByte s (cellPlus c k)) :
    (u.readCell c z).1 = (s.readCell c z).1 := by
  rw [State.readCell_fst, State.readCell_fst]
  exact memNat_congr (fun k hk => by rw [← cellByte_cellPlus, ← cellByte_cellPlus]; exact h k hk)

/-- A place reads the bytes written there. -/
theorem State.readCell_of_bytes {u : State} {c : Cell} (bs : List Byte) (h : ∀ k, k < bs.length → cellByte u (cellPlus c k) = bs.getD k 0) :
    (u.readCell c bs.length).1 = leNat bs := by
  rw [State.readCell_fst]
  exact memNat_of_bytes bs (fun k hk => by rw [← cellByte_cellPlus]; exact h k hk)

theorem State.readCell_snd (s : State) (c : Cell) (z : Nat) : (s.readCell c z).2 =
    (List.range ((z + 7) / 8)).any (fun i => (s.cellPoison c).contains (cellAddr c / 8 * 8 + 8 * i)) := by
  cases c <;> simp [State.readCell, State.cellPoison, cellAddr]

/-- A place without poison stays so while no granule is poisoned. -/
theorem State.readCell_clean {s u : State} {c : Cell} {z : Nat} (hp : ∀ g ∈ u.cellPoison c, g ∈ s.cellPoison c)
    (h : (s.readCell c z).2 = false) : (u.readCell c z).2 = false := by
  rw [State.readCell_snd, List.any_eq_false] at h ⊢
  intro i hi hc
  exact h i hi (List.contains_iff_mem.2 (hp _ (List.contains_iff_mem.1 hc)))

/-- What is read at places depends on memory, blocks, contexts and the wave's trap frame alone. -/
theorem State.cellTable_congr {s u : State} (hm : u.mem = s.mem) (hb : u.blocks = s.blocks) (hc : u.ctxs = s.ctxs)
    (hf : u.curWave.frame = s.curWave.frame) (q : Cell) : u.cellTable q = s.cellTable q := by
  cases q <;> simp only [State.cellTable, State.block, State.ctx, hm, hb, hc, hf]
theorem State.cellPoison_congr {s u : State} (hm : u.poison = s.poison) (hb : u.blocks = s.blocks) (hc : u.ctxs = s.ctxs) (q : Cell) :
    u.cellPoison q = s.cellPoison q := by
  cases q <;> simp only [State.cellPoison, State.block, State.ctx, hm, hb, hc]

/-- A change of one wave that keeps its trap frame is no change of a place. -/
theorem cellByte_onlyCur {s u : State} (h : s.onlyCur u) (hf : u.curWave.frame = s.curWave.frame) (q : Cell) :
    cellByte u q = cellByte s q := by
  obtain ⟨hmem, hblocks⟩ := State.onlyCur_mem_blocks h
  have hctxs := congrArg State.ctxs h.1
  rw [cellByte_eq, cellByte_eq, State.cellTable_congr hmem hblocks hctxs hf]

@[simp] theorem State.begun_readCell (s : State) (c : Cell) (z : Nat) : s.begun.readCell c z = s.readCell c z := by
  have ht : s.begun.cellTable c = s.cellTable c := State.cellTable_congr (s := s) (u := s.begun) rfl rfl rfl (by rw [s.begun_curWave]) c
  have hp : s.begun.cellPoison c = s.cellPoison c := State.cellPoison_congr (s := s) (u := s.begun) rfl rfl rfl c
  exact Prod.ext (by rw [State.readCell_fst, State.readCell_fst, ht]) (by rw [State.readCell_snd, State.readCell_snd, hp])
@[simp] theorem cellByte_begun (s : State) (q : Cell) : cellByte s.begun q = cellByte s q :=
  cellByte_onlyCur s.onlyCur_begun (by rw [s.begun_curWave]) q

/-! Writing at places other than DRAM (R277, R370). -/

/-- What holds a place is resident. -/
def State.resides (s : State) : Cell → Prop
  | .spad b _ | .lanep b _ => (tget? s.blocks b).isSome = true
  | .stk c _ _ => (tget? s.ctxs c).isSome = true
  | .dram _ | .frame _ => True

/-- The bytes that an access of `bs` at a place leaves at another. -/
def writtenByte (c : Cell) (bs : List Byte) (q : Cell) (old : Byte) : Byte :=
  ((byteIn bs.length c q).map (fun k => bs.getD k 0)).getD old

theorem memByte_frameWrite (f : Tbl Byte) (o n : Nat) (bs : List Byte) : memByte (frameWrite f o bs) n =
    if (o ≤ n ∧ n < o + bs.length) ∧ (n < 8 ∨ n = 44 ∨ n = 45) then bs.getD (n - o) 0 else memByte f n := by
  induction bs generalizing f o with
  | nil => rw [frameWrite, if_neg]; simp only [List.length_nil]; omega
  | cons b bs ih =>
    have hset : memByte (if o < 8 || o = 44 || o = 45 then memSet f o b else f) n =
        if n = o ∧ (n < 8 ∨ n = 44 ∨ n = 45) then b else memByte f n := by
      by_cases ho : o < 8 ∨ o = 44 ∨ o = 45
      · rw [if_pos (by simpa [or_assoc] using ho), memByte_memSet]
        by_cases hn : n = o
        · subst hn; rw [if_pos rfl, if_pos ⟨rfl, ho⟩]
        · rw [if_neg hn, if_neg (fun h => hn h.1)]
      · rw [if_neg (by simpa [or_assoc] using ho), if_neg (by rintro ⟨rfl, h⟩; exact ho h)]
    rw [frameWrite, ih, hset, List.length_cons]
    by_cases hn : n = o
    · subst hn
      rw [if_neg (by omega), Nat.sub_self, List.getD_cons_zero]
      exact ite_congr (by simp) (fun _ => rfl) (fun _ => rfl)
    · by_cases hin : o + 1 ≤ n ∧ n < o + 1 + bs.length
      · rw [show n - o = n - (o + 1) + 1 by omega, List.getD_cons_succ]
        simp only [hin, hn, false_and, if_false, true_and, show o ≤ n by omega, show n < o + (bs.length + 1) by omega]
      · rw [if_neg (fun h => hin h.1), if_neg (fun h => hn h.1), if_neg (fun h => by omega)]

theorem memByte_memPut_getD (m : Tbl Byte) (a n : Nat) (bs : List Byte) : memByte (memPut m a bs) n =
    ((if a ≤ n ∧ n < a + bs.length then some (n - a) else none).map (fun k => bs.getD k 0)).getD (memByte m n) := by
  rw [memByte_memPut]; split <;> rfl

/-- A write at a place other than DRAM: the bytes of the access, and no other; a read-only byte keeps its value (R3, R370). -/
theorem cellByte_writeCell {s : State} {c : Cell} (bs : List Byte) (q : Cell) (ha : s.waveAlive = true) (hc : s.resides c)
    (hd : inDram c = none) : cellByte (s.writeCell c bs) q = if readOnlyPlace q then cellByte s q else writtenByte c bs q (cellByte s q) := by
  cases c with
  | dram pa => cases hd
  | frame o =>
    cases q with
    | frame n =>
      have hw : cellByte (s.writeCell (.frame o) bs) (.frame n) = memByte (frameWrite s.curWave.frame o bs) n := by
        simp only [cellByte, State.writeCell, s.curWave_modCur _ ha]
      rw [hw, memByte_frameWrite]
      simp only [readOnlyPlace, writtenByte, byteIn, cellByte, decide_eq_true_eq]
      by_cases hin : o ≤ n ∧ n < o + bs.length
      · rw [if_pos hin]
        by_cases hro : 8 ≤ n ∧ n ≠ 44 ∧ n ≠ 45
        · rw [if_neg (by omega), if_pos hro]
        · rw [if_pos (by omega), if_neg hro]; rfl
      · rw [if_neg (by omega), if_neg hin]; exact (ite_self _).symm
    | _ => rfl
  | spad b a =>
    cases q with
    | spad y n =>
      simp only [cellByte, State.writeCell, readOnlyPlace, writtenByte, byteIn, Bool.false_eq_true, if_false, State.block_modBlock _ _ _ _ hc]
      by_cases hy : b = y
      · subst hy; simp only [if_true]; exact memByte_memPut_getD _ _ _ _
      · rw [if_neg (Ne.symm hy), if_neg hy]; rfl
    | lanep y n =>
      simp only [cellByte, State.writeCell, readOnlyPlace, writtenByte, byteIn, Bool.false_eq_true, if_false, State.block_modBlock _ _ _ _ hc]
      split
      · subst y; rfl
      · rfl
    | frame n => exact (ite_self _).symm
    | _ => rfl
  | lanep b a =>
    cases q with
    | lanep y n =>
      simp only [cellByte, State.writeCell, readOnlyPlace, writtenByte, byteIn, Bool.false_eq_true, if_false, State.block_modBlock _ _ _ _ hc]
      by_cases hy : b = y
      · subst hy; simp only [if_true]; exact memByte_memPut_getD _ _ _ _
      · rw [if_neg (Ne.symm hy), if_neg hy]; rfl
    | spad y n =>
      simp only [cellByte, State.writeCell, readOnlyPlace, writtenByte, byteIn, Bool.false_eq_true, if_false, State.block_modBlock _ _ _ _ hc]
      split
      · subst y; rfl
      · rfl
    | frame n => exact (ite_self _).symm
    | _ => rfl
  | stk d k a =>
    cases q with
    | stk e y n =>
      simp only [cellByte, State.writeCell, readOnlyPlace, writtenByte, byteIn, Bool.false_eq_true, if_false, State.ctx_modCtx _ _ _ _ hc]
      by_cases he : d = e
      · subst he
        by_cases hy : k = y
        · subst hy; simp only [if_true, true_and, tgetD_tset_same]; exact memByte_memPut_getD _ _ _ _
        · simp only [hy, if_true, and_false, if_false, tgetD_tset_other _ _ _ (Ne.symm hy)]; rfl
      · simp only [he, Ne.symm he, false_and, if_false]; rfl
    | frame n => exact (ite_self _).symm
    | _ => rfl

/-! Accesses whose checks pass (R165). -/

/-- The place that the checks give an access of a lane. -/
def State.placeOf (s : State) (r : MemReq) (lane : Nat) (va : Dword) : Except XFault Cell :=
  if r.space == .global then s.globalCell r va else s.scratchCell r.space lane va r.z

theorem LaneAnswers.cells_of_noError (f : Nat × Dword → Except XFault Cell) (ls : List (Nat × Dword))
    (h : LaneAnswers.firstError (ls.map (fun p => (p.1, p.2, f p))) = none) :
    (LaneAnswers.cells (ls.map (fun p => (p.1, p.2, f p)))).map (fun c => (c.1, c.2.1)) = ls ∧
      ∀ c ∈ LaneAnswers.cells (ls.map (fun p => (p.1, p.2, f p))), f (c.1, c.2.1) = .ok c.2.2 := by
  induction ls with
  | nil => exact ⟨rfl, fun c hc => absurd hc (List.not_mem_nil)⟩
  | cons p ls ih =>
    cases hf : f p with
    | error e => simp [LaneAnswers.firstError, hf] at h
    | ok c =>
      have hrest : LaneAnswers.firstError (ls.map (fun p => (p.1, p.2, f p))) = none := by
        simpa [LaneAnswers.firstError, hf] using h
      obtain ⟨hmap, hall⟩ := ih hrest
      have hcons : LaneAnswers.cells ((p :: ls).map (fun p => (p.1, p.2, f p))) =
          (p.1, p.2, c) :: LaneAnswers.cells (ls.map (fun p => (p.1, p.2, f p))) := by simp [LaneAnswers.cells, hf]
      rw [hcons]
      refine ⟨by rw [List.map_cons, hmap], fun x hx => ?_⟩
      rcases List.mem_cons.1 hx with rfl | hx
      · exact hf
      · exact hall x hx

/-- Checks that pass find every address aligned, and a place for each lane in order. -/
theorem State.check_ok {s : State} {r : MemReq} {cells : List (Nat × Dword × Cell)} (h : s.check r = .ok cells) :
    (∀ p ∈ r.lanes, p.2.toNat % r.z = 0) ∧ cells.map (fun c => (c.1, c.2.1)) = r.lanes ∧
      ∀ c ∈ cells, s.placeOf r c.1 c.2.1 = .ok c.2.2 := by
  simp only [State.check] at h
  split at h
  · cases h
  rename_i hal
  refine ⟨fun p hp => by simpa using List.find?_eq_none.1 hal p hp, ?_⟩
  simp only [State.placeOf]
  split at h
  · rename_i hg
    simp only [hg, if_true]
    split at h
    · cases h
    split at h
    · cases h
    · rename_i he
      cases h
      exact LaneAnswers.cells_of_noError (fun p => s.globalCell r p.2) _ he
  · rename_i hg
    simp only [hg]
    split at h
    · cases h
    · rename_i he
      split at h
      · cases h
      · split at h
        · cases h
          exact LaneAnswers.cells_of_noError (fun p => s.scratchCell r.space p.1 p.2 r.z) _ he
        · cases h

/-- A global address lies in DRAM, or in the frame window where the access may use it. -/
theorem State.globalCell_ok {s : State} {r : MemReq} {va : Dword} {c : Cell} (h : s.globalCell r va = .ok c) :
    (∃ pa, c = .dram pa) ∨ r.window = true ∧ ∃ o, c = .frame o := by
  simp only [State.globalCell] at h
  split at h
  · split at h
    · cases h; exact .inr ⟨‹_›, _, rfl⟩
    · cases h
  · split at h
    · cases h; exact .inl ⟨_, rfl⟩
    · cases h

/-- A scratchpad address lies in what holds its space, at the address itself or at its part below a cluster's 2^19 (R161). -/
theorem State.scratchCell_ok {s : State} {sp : MSpace} {lane z : Nat} {a : Dword} {c : Cell} (h : s.scratchCell sp lane a z = .ok c) :
    (sp = .stack ∧ ∃ n, c = .stk s.curWave.ctx (stackOf s.curWave.core) n ∧ n + z ≤ s.curCtx.stackSize (stackOf s.curWave.core)) ∨
    (sp = .lane ∧ ∃ b k n, c = .lanep b k ∧ n + z ≤ (s.block b).lanepriv) ∨
    (sp ≠ .stack ∧ sp ≠ .lane ∧ ∃ b n, c = .spad b n ∧ n + z ≤ (s.block b).size ∧ (n = a.toNat ∨ n = a.toNat % 2 ^ 19)) := by
  simp only [State.scratchCell] at h
  split at h
  · cases h
  split at h
  · split at h
    · cases h; exact .inl ⟨rfl, _, rfl, ‹_›⟩
    · cases h
  rename_i hns
  split at h
  · cases h
  split at h
  · split at h
    · cases h; exact .inr (.inr ⟨hns, by simp, _, _, rfl, ‹_›, .inl rfl⟩)
    · cases h
  · split at h
    · cases h; exact .inr (.inl ⟨rfl, _, _, _, rfl, ‹_›⟩)
    · cases h
  · rename_i hnl
    split at h
    · cases h
    split at h
    · cases h
    · split at h
      · cases h; exact .inr (.inr ⟨hns, hnl, _, _, rfl, ‹_›, .inr rfl⟩)
      · cases h

/-- A block with bytes is resident. -/
theorem State.blockResident_of_pos {s : State} {b n z : Nat} (hz : 0 < z) (h : n + z ≤ (s.block b).size ∨ n + z ≤ (s.block b).lanepriv) :
    (tget? s.blocks b).isSome = true := by
  cases hb : tget? s.blocks b with
  | some x => rfl
  | none =>
    have hd : s.block b = {} := by simp [State.block, tgetD, hb]
    rw [hd] at h
    change n + z ≤ 0 ∨ n + z ≤ 0 at h
    omega

/-- What holds a scratchpad place that the checks have given is resident. -/
theorem State.resides_of_scratchCell {s : State} {sp : MSpace} {lane z : Nat} {a : Dword} {c : Cell} (hz : 0 < z)
    (h : s.scratchCell sp lane a z = .ok c) : s.resides c ∧ inDram c = none := by
  rcases State.scratchCell_ok h with ⟨-, n, rfl, hn⟩ | ⟨-, b, k, n, rfl, hn⟩ | ⟨-, -, b, n, rfl, hn, -⟩
  · refine ⟨?_, rfl⟩
    simp only [State.resides]
    cases hc : tget? s.ctxs s.curWave.ctx with
    | some x => rfl
    | none =>
      have hd : s.curCtx = {} := by simp [State.curCtx, State.ctx, tgetD, hc]
      rw [hd] at hn
      simp only [Context.stackSize, Nat.zero_mul] at hn
      omega
  · exact ⟨State.blockResident_of_pos hz (.inr hn), rfl⟩
  · exact ⟨State.blockResident_of_pos hz (.inl hn), rfl⟩

/-- What holds a place that the checks have given is resident. -/
theorem State.resides_of_check {s : State} {r : MemReq} {cells : List (Nat × Dword × Cell)} (hz : 0 < r.z) (h : s.check r = .ok cells) :
    ∀ c ∈ cells, s.resides c.2.2 := by
  intro c hc
  have hp := (State.check_ok h).2.2 c hc
  rw [State.placeOf] at hp
  split at hp
  · rcases State.globalCell_ok hp with ⟨pa, e⟩ | ⟨-, o, e⟩ <;> rw [e] <;> trivial
  · exact (State.resides_of_scratchCell hz hp).1

/-- Only a global access reaches DRAM. -/
theorem State.inDram_of_check {s : State} {r : MemReq} {cells : List (Nat × Dword × Cell)} (hz : 0 < r.z) (hg : r.space ≠ .global)
    (h : s.check r = .ok cells) : ∀ c ∈ cells, inDram c.2.2 = none := by
  intro c hc
  have hp := (State.check_ok h).2.2 c hc
  rw [State.placeOf, if_neg (by simpa using hg)] at hp
  exact (State.resides_of_scratchCell hz hp).2

end Sys2Proof.Machine

namespace Sys2Proof.Machine
open Sys2Proof.Claims

/-! BARV and BARW (R181 to R183). -/

theorem State.sameArch_mem {s u : State} (h : s.sameArch u) : u.mem = s.mem := (congrArg State.mem h.rest :)
theorem State.sameArch_poison {s u : State} (h : s.sameArch u) : u.poison = s.poison := (congrArg State.poison h.rest :)
theorem State.sameArch_blocks {s u : State} (h : s.sameArch u) : u.blocks = s.blocks := (congrArg State.blocks h.rest :)
theorem State.sameArch_ctxs {s u : State} (h : s.sameArch u) : u.ctxs = s.ctxs := (congrArg State.ctxs h.rest :)

/-- What the memory system may change is no change of a place. -/
theorem cellByte_sameArch {s u : State} (h : s.sameArch u) (q : Cell) : cellByte u q = cellByte s q := by
  rw [cellByte_eq, cellByte_eq, State.cellTable_congr (State.sameArch_mem h) (State.sameArch_blocks h) (State.sameArch_ctxs h)
    (by rw [State.sameArch_curWave h])]

theorem State.resides_congr {s u : State} (hb : u.blocks = s.blocks) (hc : u.ctxs = s.ctxs) (c : Cell) : u.resides c = s.resides c := by
  cases c <;> simp only [State.resides, hb, hc]
theorem State.resides_sameArch {s u : State} (h : s.sameArch u) (c : Cell) : u.resides c = s.resides c :=
  State.resides_congr (State.sameArch_blocks h) (State.sameArch_ctxs h) c
theorem State.waveAlive_sameArch {s u : State} (h : s.sameArch u) : u.waveAlive = s.waveAlive := by
  simp only [State.waveAlive, State.sameArch_waves h, State.sameArch_issue h]

/-- A scalar result is no change of a place. -/
theorem cellByte_putS {s : State} (d : SDst) (v : Dword) (q : Cell) (h : s.waveAlive = true) : cellByte (s.putS d v) q = cellByte s q := by
  obtain ⟨rs, cs, ls, hw, -⟩ := State.curWave_putS d v h
  exact cellByte_onlyCur (State.onlyCur_putS s.onlyCur_refl d v) (by rw [hw]; rfl) q

theorem writtenByte_of_none {c q : Cell} {bs : List Byte} (old : Byte) (h : byteIn bs.length c q = none) : writtenByte c bs q old = old := by
  rw [writtenByte, h]; rfl
theorem writtenByte_cellPlus {c : Cell} {bs : List Byte} {k : Nat} (old : Byte) (h : k < bs.length) :
    writtenByte c bs (cellPlus c k) old = bs.getD k 0 := by
  rw [writtenByte, byteIn_cellPlus c h]; rfl

/-- The word after an arrival is a word of 64 bits. -/
theorem barArrive_lt (v : Nat) : barArrive v < 256 ^ 8 := by
  simp only [barArrive]
  split <;> omega

/-- A write of a place of a scratchpad leaves the other places alone and is read back. -/
theorem cellByte_writeSpad {s : State} {b a : Nat} (bs : List Byte) (ha : s.waveAlive = true) (hb : s.resides (.spad b a)) (q : Cell) :
    cellByte (s.writeCell (.spad b a) bs) q = writtenByte (.spad b a) bs q (cellByte s q) := by
  rw [cellByte_writeCell bs q ha hb rfl]
  cases q with
  | frame o => exact ite_self _
  | _ => rfl

section
variable {d : SDst} {a : SSrc} {s : State} {va : Dword} {c : Cell} (hi : s.issues (.barv d a)) (hm : s.activeMask ≠ 0)
  (hc : s.begun.check { space := .cluster, access := .rmw, z := 8, lanes := oneAccess (s.readS64 a) } = .ok [(32, va, c)])
  (hq : s.begun.acquiring s.begun.curWave = false) (hl : s.curWave.loads = []) (hg : (s.begun.gate 2 true false).isNone = true)
  (hp : (s.readCell c 8).2 = false)
include hi hm hc hq hl hg hp

/-- An arrival writes its word and returns the phase arrived in. -/
theorem exec_barv_arrives : exec (.barv d a) s = .next ((((s.begun.released s.curWave.core 2).writeCell c
    (leBytes 8 (barArrive (s.readCell c 8).1))).putS d (BitVec.ofNat 64 ((s.readCell c 8).1 / 2 ^ 32 % 2))).finishYield) := by
  have hl' : s.begun.curWave.loads = [] := by rw [s.begun_curWave]; exact hl
  rw [exec_barv, execBarv, issueOp_issues _ _ _ hi]
  simp only [State.begun_activeMask, if_neg hm, hq, State.begun_readS64, hc, hl', List.isEmpty_nil, Bool.not_true, Bool.false_eq_true,
    if_false, Option.isNone_iff_eq_none.1 hg, State.begun_readCell, hp, State.begun_core]

end

/-- A first BARW reads the word and the phase that its sources name, a woken one those that it first named (R183). -/
theorem exec_barw_reads {a b : SSrc} {s : State} {va : Dword} {k o ph : Nat} (hi : s.issues (.barw a b))
    (hq : s.begun.acquiring s.begun.curWave = false)
    (h : s.curSplit.wait = some (.barw k o ph va) ∨
      ((∀ i j p v, s.curSplit.wait ≠ some (.barw i j p v)) ∧ s.activeMask ≠ 0 ∧ ph = (s.readS64 b).toNat % 2 ∧
        s.begun.check { space := .cluster, z := 8, lanes := oneAccess (s.readS64 a) } = .ok [(32, va, .spad k o)])) :
    exec (.barw a b) s = .next (s.begun.barwRead k o ph va) := by
  rw [exec_barw, execBarw, issueOp_issues _ _ _ hi]
  simp only [State.begun_split, State.begun_activeMask, State.begun_readS64, hq]
  rcases h with hw | ⟨hw, hm, rfl, hc⟩
  · simp only [hw]
  · split
    · exact absurd ‹_› (hw _ _ _ _)
    · simp only [if_neg hm, hc, Bool.false_eq_true, if_false, cellPlace]

/-- Settles O31. -/
theorem barriersComplete : Obligations.BarriersComplete := by
  refine ⟨fun d a s va c hi hm hc hq hl hg hp => ?_, fun a b s va k o ph hi hq h hp => ⟨fun hv => ?_, fun hv hsw => ?_⟩⟩
  · have hx := exec_barv_arrives hi hm hc hq hl hg hp
    have hcell := (State.check_ok hc).2.2 _ (List.mem_singleton_self _)
    have hres := State.resides_of_check (Nat.succ_pos 7) hc _ (List.mem_singleton_self _)
    obtain ⟨hsp, -⟩ | ⟨hsp, -⟩ | ⟨-, -, y, n, rfl, -⟩ := State.scratchCell_ok (show s.begun.scratchCell .cluster 32 va 8 = .ok c from hcell)
    · cases hsp
    · cases hsp
    have hrel : s.begun.sameArch (s.begun.released s.curWave.core 2) := State.released_same _ _ _ (State.sameArch_refl _)
    have hal : (s.begun.released s.curWave.core 2).waveAlive = true := by
      rw [State.waveAlive_sameArch hrel, s.begun_alive]; exact hi.1
    have hres' : (s.begun.released s.curWave.core 2).resides (.spad y n) := by rw [State.resides_sameArch hrel]; exact hres
    let w := (s.begun.released s.curWave.core 2).writeCell (.spad y n) (leBytes 8 (barArrive (s.readCell (.spad y n) 8).1))
    have hw : w.curWave = { s.curWave with resumed := false } := s.begun_curWave
    obtain ⟨rs, cs, ls, hput, hr⟩ := State.curWave_putS (s := w) d (BitVec.ofNat 64 ((s.readCell (.spad y n) 8).1 / 2 ^ 32 % 2)) hal
    have hbyte (q : Cell) : cellByte (w.putS d (BitVec.ofNat 64 ((s.readCell (.spad y n) 8).1 / 2 ^ 32 % 2))) q =
        writtenByte (.spad y n) (leBytes 8 (barArrive (s.readCell (.spad y n) 8).1)) q (cellByte s q) := by
      rw [cellByte_putS (s := w) _ _ _ hal, cellByte_writeSpad _ hal hres', cellByte_sameArch hrel, cellByte_begun]
    have hmask : w.activeMask = s.activeMask := s.begun_activeMask
    refine ⟨_, hx, ?_, fun q hq => ?_, fun r => ?_, ?_, ?_, ?_, fun k hk => ?_⟩
    · have hread := State.readCell_of_bytes (c := .spad y n) (leBytes 8 (barArrive (s.readCell (.spad y n) 8).1)) (fun k hk => by
        rw [hbyte, writtenByte_cellPlus _ hk])
      rw [leBytes_length, leNat_leBytes, Nat.mod_eq_of_lt (barArrive_lt _)] at hread
      exact hread
    · rw [hbyte, writtenByte_of_none _ (by rw [leBytes_length]; exact hq)]
    · rw [hput, show (Wave.written _ _ _ _ _).sreg r = _ from hr r, hmask, hw]
      simp only [hm, ne_eq, not_false_eq_true, true_and]; rfl
    · rw [hput, hw]; rfl
    · rw [hput, hw]; rfl
    · rw [hput, hw]; rfl
    · exact ((State.onlyCur_putS w.onlyCur_refl _ _).2 k hk).trans (s.onlyCur_begun.2 k hk)
  · rw [exec_barw_reads hi hq h, State.barwRead]
    simp only [State.begun_readCell, hp, hv, Bool.false_eq_true, if_false, if_true]
  · rw [exec_barw_reads hi hq h, State.barwRead]
    simp only [State.begun_readCell, hp, hv, hq, Option.isNone_iff_eq_none.1 hsw, Bool.false_eq_true, if_false]
    exact ⟨_, rfl, architecturalSame_of_sameArch (State.scratchDeps_same _ _ (State.sameArch_refl _))⟩

end Sys2Proof.Machine

namespace Sys2Proof.Machine
open Sys2Proof.Claims

/-! WAITA (R179). -/

theorem State.sameArch_homeLost {s u : State} (h : s.sameArch u) (pa : Nat) : u.homeLost pa = s.homeLost pa := by
  have hd : u.dead = s.dead := (congrArg State.dead h.rest :)
  have ho : u.offline = s.offline := (congrArg State.offline h.rest :)
  simp only [State.homeLost, hd, ho]
theorem State.sameArch_unitsAt {s u : State} (h : s.sameArch u) (pa n : Nat) : u.unitsAt pa n = s.unitsAt pa n := by
  have ho (l : Nat) : u.objectsAt l = s.objectsAt l := by rw [State.objectsAt, State.objectsAt, State.sameArch_objects h]
  have ha (a : Nat) : u.unitAt a = s.unitAt a := by rw [State.unitAt, State.unitAt, ho]
  simp only [State.unitsAt, ho, ha]

/-- A translation enters the TLB of its core, and nothing else of a core changes. -/
theorem State.cacheXlate_core (s : State) (core ctx : Nat) (va : Dword) (k : Nat) : ∃ ts,
    (s.cacheXlate core ctx va).core k = { s.core k with tlb := ts } ∧ (k ≠ core → ts = (s.core k).tlb) := by
  simp only [State.cacheXlate]
  split
  · exact ⟨_, rfl, fun _ => rfl⟩
  split
  · exact ⟨_, rfl, fun _ => rfl⟩
  split
  · exact ⟨_, rfl, fun _ => rfl⟩
  · rw [State.core_modCore]
    split
    · subst k; exact ⟨_, rfl, fun h => absurd rfl h⟩
    · exact ⟨_, rfl, fun _ => rfl⟩

/-- The translations of an access enter the TLB of the wave's core, and nothing else of a core changes. -/
theorem State.cacheAll_core (s : State) (r : MemReq) (k : Nat) : ∃ ts,
    (s.cacheAll r).core k = { s.core k with tlb := ts } ∧ (k ≠ s.curWave.core → ts = (s.core k).tlb) := by
  simp only [State.cacheAll]
  split
  · generalize r.lanes = ls
    induction ls generalizing s with
    | nil => exact ⟨_, rfl, fun _ => rfl⟩
    | cons p ls ih =>
      rw [List.foldl_cons]
      split
      · exact ih s
      · obtain ⟨ts, hx, hts⟩ := s.cacheXlate_core s.curWave.core s.curWave.ctx p.2 k
        obtain ⟨ts', hx', hts'⟩ := ih (s.cacheXlate s.curWave.core s.curWave.ctx p.2)
        rw [State.sameArch_curWave (State.cacheXlate_same s _ _ _ (State.sameArch_refl _))] at hts'
        rw [hx'] at *
        exact ⟨ts', by rw [hx], fun hk => by rw [hts' hk, hx]; exact hts hk⟩
  · exact ⟨_, rfl, fun _ => rfl⟩
theorem State.cacheAll_wq (s : State) (r : MemReq) (k : Nat) : ((s.cacheAll r).core k).wq = (s.core k).wq := by
  obtain ⟨ts, h, -⟩ := s.cacheAll_core r k
  rw [h]
theorem Core.forward_congr {c d : Core} (h : c.wq = d.wq) (pa z : Nat) : c.forward pa z = d.forward pa z := by
  simp only [Core.forward, h]

/-- A defined word that equals B puts the split to sleep from the clk of the read. -/
theorem State.waitaDecide_sleeps {s u : State} {r : Watch} {v : Nat} (hs : s.begun.sameArch u) (h : v = r.val) :
    u.waitaDecide r v 0 = u.sleepYield (.waita r s.clk false false) := by
  have hclk : u.clk = s.clk := (State.sameArch_clk hs).trans s.begun_clk
  simp only [State.waitaDecide, bne_self_eq_false, Bool.false_eq_true, if_false, if_pos h, hclk]
/-- A defined word that differs from B lets the split go on, with no other effect. -/
theorem State.waitaDecide_goesOn {s u : State} {r : Watch} {v : Nat} (hs : s.begun.sameArch u) (h : v ≠ r.val) :
    ∃ t : State, (.next (u.waitaDecide r v 0) : Host.Outcome State Fault Refusal) = .next t.finishYield ∧ architecturalSame s t := by
  refine ⟨u.scratchDeps (waitSpace r.space), ?_, architecturalSame_of_sameArch (State.scratchDeps_same _ _ hs)⟩
  simp only [State.waitaDecide, bne_self_eq_false, Bool.false_eq_true, if_false, if_neg h]

/-- A WAITA on a scratchpad reads its word at once. -/
theorem State.waitaRead_scratch {s : State} {r : Watch} (later : State → State) (hc : inDram r.cell = none)
    (hw : (s.scratchWait (waitSpace r.space) ⟨r.level, r.acquire, false⟩).isNone = true) (hp : (s.readCell r.cell r.z).2 = false) :
    s.waitaRead r later = s.waitaDecide r (s.readCell r.cell r.z).1 0 := by
  simp only [State.waitaRead]
  split
  · rename_i h; rw [h] at hc; cases hc
  · simp only [Option.isNone_iff_eq_none.1 hw, hp, Bool.false_eq_true, if_false]

section
variable {s : State} {r : Watch} (later : State → State) {pa : Nat} (hc : r.cell = .dram pa) (hl : s.homeLost pa = false)
  (hld : (tvals s.curWave.loads).any (fun p => p.waitsOn (lineOf pa)) = false)
include hc hl hld

/-- A WAITA on DRAM finds the core's own queued store (R270). -/
theorem State.waitaRead_forwards {v : Nat} (hf : (if r.level ≤ 1 then (s.core s.curWave.core).forward pa r.z else .none) = .bytes v) :
    s.waitaRead r later = s.waitaDecide r v 0 := by
  simp only [State.waitaRead, hc, hld, hl, hf, Bool.false_and, Bool.false_eq_true, if_false]

/-- A WAITA on DRAM that finds no queued store takes what the memory system serves. -/
theorem State.waitaRead_serves {v : LineView} {u : State}
    (hf : (if r.level ≤ 1 then (s.core s.curWave.core).forward pa r.z else .none) = .none)
    (hr : s.readNow (lineOf pa) (s.unitsAt pa r.z) ⟨r.level, r.acquire, false⟩ = .yes v u) (hb : v.bad = []) :
    s.waitaRead r later = u.waitaDecide r (leNat ((v.bytes.drop (pa % 64)).take r.z)) 0 := by
  simp only [State.waitaRead, hc, hld, hl, hf, hr, hb, Bool.false_and, Bool.false_eq_true, if_false, List.contains_nil]

end

/-- A scratchpad's word that equals B puts the split to sleep, one that differs lets it go on. -/
theorem State.waitaRead_scratch_ends {s : State} {r : Watch} {later : State → State} {i : Instr}
    (hx : exec i s = .next (s.begun.waitaRead r later)) (hc : inDram r.cell = none)
    (hw : (s.begun.scratchWait (waitSpace r.space) ⟨r.level, r.acquire, false⟩).isNone = true) (hp : (s.readCell r.cell r.z).2 = false) :
    ((s.readCell r.cell r.z).1 = r.val → exec i s = .next (s.begun.sleepYield (.waita r s.clk false false))) ∧
    ((s.readCell r.cell r.z).1 ≠ r.val → ∃ u : State, exec i s = .next u.finishYield ∧ architecturalSame s u) := by
  rw [hx, State.waitaRead_scratch later hc hw (by rw [s.begun_readCell]; exact hp), s.begun_readCell]
  exact ⟨fun h => congrArg _ (State.waitaDecide_sleeps (State.sameArch_refl _) h), State.waitaDecide_goesOn (State.sameArch_refl _)⟩

/-- What a first WAITA watches. -/
def waitaWatch (s : State) (d : Space) (b : SSrc) (va : Dword) (c : Cell) : Watch :=
  { space := d, place := (cellPlace c).1, owner := (cellPlace c).2, z := wordBytes s.etype, val := waitaValue s b, va := va,
    level := (s.accessClass 0xB6).level, acquire := (s.accessClass 0xB6).acquire }

/-- WAITA is a load: it does not release. -/
theorem waitaWatch_class (s : State) (d : Space) (b : SSrc) (va : Dword) (c : Cell) :
    ⟨(waitaWatch s d b va c).level, (waitaWatch s d b va c).acquire, false⟩ = s.accessClass 0xB6 := by
  show ⟨(s.accessClass 0xB6).level, (s.accessClass 0xB6).acquire, false⟩ = s.accessClass 0xB6
  simp only [State.accessClass, show accessKind 0xB6 = some .load by decide]
  split
  · split <;> rfl
  · rfl

/-- The space in which a WAITA makes its request. -/
theorem waitaRequest_space (s : State) (d : Space) (a : SSrc) : (waitaRequest s d a).space = waitSpace d := by cases d <;> rfl

/-- A first WAITA whose checks pass reads its word. -/
theorem exec_waita_reads {d : Space} {a b : SSrc} {s : State} {va : Dword} {c : Cell} (hi : s.issues (.waita d a b)) (hm : s.activeMask ≠ 0)
    (hw : ∀ y t p q, s.curSplit.wait ≠ some (.waita y t p q)) (hh : s.begun.held (waitaRequest s.begun d a).space = false)
    (hq : s.begun.acquiring s.begun.curWave = false) (hc : s.begun.check (waitaRequest s.begun d a) = .ok [(32, va, c)]) :
    exec (.waita d a b) s = .next ((s.begun.cacheAll (waitaRequest s.begun d a)).waitaRead (waitaWatch s.begun d b va c)
      (fun u => u.stallAt [(32, va, c)])) := by
  have hr : ({ space := waitSpace d, z := wordBytes s.begun.etype, lanes := oneAccess (s.begun.readS64 a) } : MemReq) =
      waitaRequest s.begun d a := by cases d <;> rfl
  have hsp : s.begun.held (waitSpace d) = false := by rw [← waitaRequest_space s.begun d a]; exact hh
  rw [exec_waita, execWaita, issueOp_issues _ _ _ hi]
  simp only [hr, s.begun_split, s.begun_activeMask, if_neg hm, State.heldLoad, hsp, hq, hc, Bool.false_and, Bool.false_eq_true, if_false]
  rfl

/-- A WAITA that has been woken reads its word again, with the value and the class that it first had. -/
theorem exec_waita_rereads {d : Space} {a b : SSrc} {s : State} {r : Watch} {since : Nat} {woken reading : Bool}
    (hi : s.issues (.waita d a b)) (hw : s.curSplit.wait = some (.waita r since woken reading))
    (hq : s.begun.acquiring s.begun.curWave = false) :
    exec (.waita d a b) s = .next (s.begun.waitaRead r (fun u => u.stall (.waita r since true true))) := by
  have hh : s.begun.held (waitSpace r.space) = false := by simp only [State.held, s.begun_split, hw, Bool.and_false]
  rw [exec_waita, execWaita, issueOp_issues _ _ _ hi]
  simp only [s.begun_split, hw, hh, hq, Bool.or_self, Bool.false_eq_true, if_false]

/-- A first WAITA on a scratchpad makes its read where it stands. -/
theorem exec_waita_reads_scratch {d : Space} {a b : SSrc} {s : State} {va : Dword} {c : Cell} (hi : s.issues (.waita d a b))
    (hm : s.activeMask ≠ 0) (hw : ∀ y t p q, s.curSplit.wait ≠ some (.waita y t p q)) (hd : inDram (waitaWatch s.begun d b va c).cell = none)
    (hh : s.begun.held (waitaRequest s.begun d a).space = false) (hq : s.begun.acquiring s.begun.curWave = false)
    (hc : s.begun.check (waitaRequest s.begun d a) = .ok [(32, va, c)]) :
    exec (.waita d a b) s = .next (s.begun.waitaRead (waitaWatch s.begun d b va c) (fun u => u.stallAt [(32, va, c)])) := by
  have hg : ((waitaRequest s.begun d a).space == MSpace.global) = false := by
    cases d with
    | global => cases hd
    | _ => rfl
  rw [exec_waita_reads hi hm hw hh hq hc]
  simp only [State.cacheAll, hg, Bool.false_eq_true, if_false]

/-- WAITA_PERIODIC_WAKE on a split (R179). -/
def State.wakeSplit (s : State) (w : Wave) (sp : Split) : Split :=
  match sp.wait with
  | some (.waita r since _ reading) =>
    if since + 64 * s.period w.ctx ≤ s.clk then { sp with wait := some (.waita r since true reading) } else sp
  | _ => sp

theorem exec_waitaPeriodicWake_wakes (s : State) (wid : Nat) :
    exec (.waitaPeriodicWake wid) s = .next (s.modWave wid (fun w => { w with splits := tmap w.splits (s.wakeSplit w) })) := rfl

/-- A split whose last read is a sillage period old reads again, and no other. -/
theorem State.wakeSplit_waita {s : State} {w : Wave} {sp : Split} {r : Watch} {since : Nat} {woken reading : Bool}
    (h : sp.wait = some (.waita r since woken reading)) : s.wakeSplit w sp =
      { sp with wait := some (.waita r since (if since + 64 * s.period w.ctx ≤ s.clk then true else woken) reading) } := by
  simp only [State.wakeSplit, h]
  split
  · rfl
  · rw [← h]

/-- Settles O30. -/
theorem waitaCompletes : Obligations.WaitaCompletes := by
  refine ⟨?first, fun d a b s r since woken reading hi hw hq hd hsw hp => ?_, fun s wid k w sp r since woken reading hwave hsp hwait => ?_⟩
  case first =>
    intro d a b s va c hi hm r val z x hw hx hh hq hc
    refine ⟨fun hd hsw hp => ?_, ?_⟩
    · have hsw' : (s.begun.scratchWait (waitSpace x.space) ⟨x.level, x.acquire, false⟩).isNone = true := by
        rw [show AccessClass.mk x.level x.acquire false = _ from waitaWatch_class s.begun d b va c]
        exact waitaRequest_space s.begun d a ▸ hsw
      have hexec := exec_waita_reads_scratch hi hm hw (show inDram x.cell = none by rw [hx]; exact hd) hh hq hc
      rw [← hx] at hd hp ⊢
      exact State.waitaRead_scratch_ends (r := x) hexec hd hsw' hp
    · intro pa hpa hl hld own
      let u0 := s.begun.cacheAll r
      have hs : s.begun.sameArch u0 := State.cacheAll_same _ _ (State.sameArch_refl _)
      have hw' : u0.curWave = { s.curWave with resumed := false } := (State.sameArch_curWave hs).trans s.begun_curWave
      have hl' : u0.homeLost pa = false := (State.sameArch_homeLost hs pa).trans hl
      have hld' : (tvals u0.curWave.loads).any (fun p => p.waitsOn (lineOf pa)) = false := by rw [hw']; exact hld
      have hown : (if x.level ≤ 1 then (u0.core u0.curWave.core).forward pa x.z else .none) = own := by
        rw [hw', Core.forward_congr (s.begun.cacheAll_wq r _)]; rfl
      have hexec : exec (.waita d a b) s = .next (u0.waitaRead x (fun u => u.stallAt [(32, va, c)])) := exec_waita_reads hi hm hw hh hq hc
      rw [hexec]
      refine ⟨fun v hv => ?_, fun v u hv hr hb => ?_⟩
      · rw [State.waitaRead_forwards (r := x) _ (hx.trans hpa) hl' hld' (hown.trans hv)]
        exact ⟨fun he => ⟨u0, congrArg _ (State.waitaDecide_sleeps hs he), architecturalSame_of_sameArch hs⟩, fun he => State.waitaDecide_goesOn (r := x) hs he⟩
      · have hu : s.begun.sameArch u := of_yes_same (State.readNow_same _ _ _ _ hs) hr
        have hread : u0.readNow (lineOf pa) (u0.unitsAt pa x.z) ⟨x.level, x.acquire, false⟩ = .yes v u := by
          rw [State.sameArch_unitsAt hs, show AccessClass.mk x.level x.acquire false = _ from waitaWatch_class s.begun d b va c]; exact hr
        rw [State.waitaRead_serves (r := x) _ (hx.trans hpa) hl' hld' (hown.trans hv) hread hb]
        exact ⟨fun he => ⟨congrArg _ (State.waitaDecide_sleeps hu he), architecturalSame_of_sameArch hu⟩, fun he => State.waitaDecide_goesOn (r := x) hu he⟩
  · exact State.waitaRead_scratch_ends (exec_waita_rereads hi hw hq) hd hsw hp
  · obtain ⟨hrest, hothers, hwv⟩ := State.modWave_splits hwave (fun w => tmap w.splits (s.wakeSplit w))
    exact ⟨_, _, exec_waitaPeriodicWake_wakes s wid, hrest, hothers, hwv, rfl, by
      simp only [tget?_tmap, hsp, Option.map_some, State.wakeSplit_waita hwait]⟩

end Sys2Proof.Machine

namespace Sys2Proof.Machine
open Sys2Proof.Claims

/-! What a load in flight takes (R167, R171). -/

/-- A lane of a load keeps its access, and the value it has. -/
def LoadLane.follows (x y : LoadLane) : Prop :=
  (y.lane = x.lane ∧ y.pa = x.pa ∧ y.va = x.va ∧ y.z = x.z) ∧ (x.got.isSome = true → y = x)

theorem LoadLane.follows_refl (x : LoadLane) : x.follows x := ⟨⟨rfl, rfl, rfl, rfl⟩, fun _ => rfl⟩
theorem LoadLane.follows_trans {x y z : LoadLane} (h : x.follows y) (h' : y.follows z) : x.follows z := by
  obtain ⟨⟨h1, h2, h3, h4⟩, hg⟩ := h
  obtain ⟨⟨k1, k2, k3, k4⟩, kg⟩ := h'
  exact ⟨⟨k1.trans h1, k2.trans h2, k3.trans h3, k4.trans h4⟩, fun hx => (kg (by rw [hg hx]; exact hx)).trans (hg hx)⟩
/-- A lane without a value may take one with its cause. -/
theorem LoadLane.follows_got {x : LoadLane} (h : x.got.isNone = true) (v : Option Nat) (c : Nat) :
    x.follows { x with got := v, cause := c } :=
  ⟨⟨rfl, rfl, rfl, rfl⟩, fun hs => by rw [Option.isNone_iff_eq_none.1 h] at hs; cases hs⟩
theorem LoadLane.follows_fill {x : LoadLane} (h : x.got.isNone = true) (clk : Nat) (v : LineView) : x.follows (x.fill clk v) := by
  simp only [LoadLane.fill]
  split
  · exact LoadLane.follows_got h _ _
  · exact LoadLane.follows_got h _ _

/-- A load is another one further on: lane by lane, and else the same. -/
def PLoad.follows (p q : PLoad) : Prop := ∃ g : LoadLane → LoadLane, (∀ x : LoadLane, x.follows (g x)) ∧ q = { p with lanes := p.lanes.map g }

theorem PLoad.follows_refl (p : PLoad) : p.follows p := ⟨id, LoadLane.follows_refl, by rw [List.map_id]⟩
theorem PLoad.follows_trans {p q r : PLoad} (h : p.follows q) (h' : q.follows r) : p.follows r := by
  obtain ⟨f, hf, rfl⟩ := h
  obtain ⟨g, hg, rfl⟩ := h'
  exact ⟨g ∘ f, fun x => LoadLane.follows_trans (hf x) (hg (f x)), by rw [List.map_map]⟩
theorem PLoad.follows_put (p : PLoad) (c : Core) (line : Nat) {f : LoadLane → LoadLane} (hf : ∀ x : LoadLane, x.got.isNone = true → x.follows (f x)) :
    p.follows (p.put c line f) := by
  refine ⟨_, fun x => ?_, rfl⟩
  split
  · rename_i h
    simp only [Bool.and_eq_true] at h
    exact hf x h.1.1
  · exact x.follows_refl
theorem State.follows_forwardLoad (s : State) (wid lid : Nat) (p : PLoad) : p.follows (s.forwardLoad wid lid p) := by
  simp only [State.forwardLoad]
  split
  · exact p.follows_refl
  · refine ⟨_, fun x => ?_, rfl⟩
    split
    · exact x.follows_refl
    rename_i h
    split
    · exact LoadLane.follows_got (by simp only [Bool.or_eq_true, not_or] at h; simpa using h.1) _ _
    · exact x.follows_refl

/-- Serving a load takes lanes and changes no other thing about it. -/
theorem State.follows_serveLoad (s : State) (wid lid : Nat) (p : PLoad) : p.follows (s.serveLoad wid lid p).2 := by
  refine List.foldlRecOn (motive := fun (a : State × PLoad) => p.follows a.2) _ _ (s.follows_forwardLoad wid lid p) (fun a ha line _ => ?_)
  dsimp only
  split
  · exact ha
  split
  · exact PLoad.follows_trans ha (PLoad.follows_put _ _ _ (fun x hx => LoadLane.follows_got hx _ _))
  split
  · exact PLoad.follows_trans ha (PLoad.follows_put _ _ _ (fun x hx => LoadLane.follows_fill hx _ _))
  · exact ha

/-! Landing (R170, R171). -/

/-- Landing takes a load from those in flight, whatever stands for it there. -/
theorem Wave.land_loads (w : Wave) (ls : Tbl PLoad) (lid : Nat) (p : PLoad) :
    ({ w with loads := ls } : Wave).land lid p = { w.land lid p with loads := tdel ls lid } := by
  simp only [Wave.land]
  rcases p.dst with ⟨_ | r, wide⟩ | ⟨_ | r, z, sg⟩ | q <;> rfl
theorem Wave.land_ended (w : Wave) (lid : Nat) (p : PLoad) : (w.land lid p).ended = w.ended := by
  simp only [Wave.land]
  rcases p.dst with ⟨_ | r, wide⟩ | ⟨_ | r, z, sg⟩ | q <;> rfl

/-- A cause is deferred to a wave that has not ended, and nothing else changes. -/
theorem State.defer_of_some {s : State} {wid : Nat} {w : Wave} (h : tget? s.waves wid = some w) (he : w.ended = false) (t : TrapInfo) :
    s.defer wid t = s.modWave wid (fun _ => { w with causes := insertCause t w.causes }) := by
  have hw : tgetD s.waves wid {} = w := by simp only [tgetD, h, Option.getD_some]
  rw [State.defer, hw, if_neg (by simp [he]), State.modWave_of_some _ h]

/-- A complete load lands in its wave, with a cause at most. -/
theorem State.deliver_of_some {s : State} {wid : Nat} {w : Wave} (h : tget? s.waves wid = some w) (he : w.ended = false) (lid : Nat)
    (p : PLoad) : ∃ cs, s.deliver wid lid p = s.modWave wid (fun _ => { w.land lid p with causes := cs }) := by
  have hl : tget? (s.modWave wid (fun _ => w.land lid p)).waves wid = some (w.land lid p) := by
    simp only [State.modWave_waves, tget?_tmodify, if_true, h, Option.map_some]
  simp only [State.deliver, State.modWave_of_some (fun w => w.land lid p) h]
  split
  · rw [State.defer_of_some hl (by rw [Wave.land_ended, he]), State.modWave_const_modWave_const h]
    exact ⟨_, rfl⟩
  · exact ⟨(w.land lid p).causes, rfl⟩

section
variable {s : State} {wid : Nat} {w : Wave} (h : tget? s.waves wid = some w) (lid : Nat) (p : PLoad)
include h

/-- A load that still waits has gone as far as it can. -/
theorem State.advanceLoad_waits (hc : (s.serveLoad wid lid p).2.complete = false) : s.advanceLoad wid lid p =
    (s.serveLoad wid lid p).1.modWave wid (fun _ => { w with loads := tset w.loads lid (s.serveLoad wid lid p).2 }) := by
  have hw : tget? (s.serveLoad wid lid p).1.waves wid = some w := by
    rw [State.sameArch_waves (of_fst_same (State.serveLoad_same s wid lid p (State.sameArch_refl _)))]; exact h
  simp only [State.advanceLoad, hc, Bool.false_eq_true, if_false, State.modWave_of_some _ hw]

/-- A load that is complete lands. -/
theorem State.advanceLoad_lands (he : w.ended = false) (hc : (s.serveLoad wid lid p).2.complete = true) : ∃ ls cs, tget? ls lid = none ∧
    s.advanceLoad wid lid p = (s.serveLoad wid lid p).1.modWave wid (fun _ =>
      { w.land lid (s.serveLoad wid lid p).2 with loads := ls, causes := cs }) := by
  have hw : tget? (s.serveLoad wid lid p).1.waves wid = some w := by
    rw [State.sameArch_waves (of_fst_same (State.serveLoad_same s wid lid p (State.sameArch_refl _)))]; exact h
  obtain ⟨cs, hd⟩ := State.deliver_of_some (wid := wid) (s := (s.serveLoad wid lid p).1.modWave wid (fun _ =>
    { w with loads := tset w.loads lid (s.serveLoad wid lid p).2 })) (w := { w with loads := tset w.loads lid (s.serveLoad wid lid p).2 })
    (by simp only [State.modWave_waves, tget?_tmodify, if_true, hw, Option.map_some]) he lid (s.serveLoad wid lid p).2
  refine ⟨tdel (tset w.loads lid (s.serveLoad wid lid p).2) lid, cs, by rw [tget?_tdel, if_pos rfl], ?_⟩
  simp only [State.advanceLoad, hc, if_true, State.modWave_of_some _ hw, hd, State.modWave_const_modWave_const hw, Wave.land_loads]

end

/-- Settles O32. -/
theorem loadDataReturns : Obligations.LoadDataReturns := by
  intro s wid lid p hp he
  obtain ⟨w, hw⟩ : ∃ w, tget? s.waves wid = some w := by
    cases hw : tget? s.waves wid with
    | some w => exact ⟨w, rfl⟩
    | none => simp only [tgetD, hw, Option.getD_none] at hp; cases hp
  have hwd : tgetD s.waves wid {} = w := by simp only [tgetD, hw, Option.getD_some]
  rw [hwd] at hp he ⊢
  obtain ⟨g, hg, hq⟩ := s.follows_serveLoad wid lid p
  have hs : s.sameArch (s.serveLoad wid lid p).1 := of_fst_same (State.serveLoad_same s wid lid p (State.sameArch_refl _))
  have hframe (v : Wave) : ({ (s.serveLoad wid lid p).1.modWave wid (fun _ => v) with
      waves := s.waves, cores := s.cores, clusters := s.clusters, stackTbl := s.stackTbl, homes := s.homes, net := s.net,
      waiting := s.waiting } : State) = s := by
    have hr := congrArg (fun t : State => ({ t with waves := s.waves } : State)) hs.rest
    exact hr
  have hothers (v : Wave) (k : Nat) (hk : k ≠ wid) :
      tget? ((s.serveLoad wid lid p).1.modWave wid (fun _ => v)).waves k = tget? s.waves k := by
    rw [State.modWave_waves, tget?_tmodify, if_neg hk, State.sameArch_waves hs]
  have hwave (v : Wave) : tgetD ((s.serveLoad wid lid p).1.modWave wid (fun _ => v)).waves wid {} = v := by
    rw [State.modWave_waves, State.sameArch_waves hs, tgetD_tmodify_same _ _ _ _ (by rw [hw]; rfl)]
  have hlanes : (s.serveLoad wid lid p).2.lanes = p.lanes.map g := by rw [hq]
  refine ⟨s.advanceLoad wid lid p, (s.serveLoad wid lid p).2, ?_, ?_, fun k x y hx hy hgot => ?_, ?_⟩
  · rw [exec_loadDataReturn, execLoadDataReturn, hwd, hp]
  · rw [hlanes, List.map_map]
    refine List.map_congr_left (fun x _ => ?_)
    obtain ⟨⟨h1, h2, h3, h4⟩, -⟩ := hg x
    simp only [Function.comp, h1, h2, h3, h4]
  · rw [hlanes, List.getElem?_map, hx] at hy
    cases hy
    exact (hg x).2 hgot
  · cases hc : (s.serveLoad wid lid p).2.complete with
    | true =>
      obtain ⟨ls, cs, hls, ha⟩ := State.advanceLoad_lands hw lid p he hc
      rw [ha]
      refine ⟨hframe _, hothers _, fun _ => ?_, nofun⟩
      rw [hwave]
      exact ⟨hls, rfl, rfl⟩
    | false =>
      rw [State.advanceLoad_waits hw lid p hc]
      exact ⟨hframe _, hothers _, nofun, fun _ => hwave _⟩

end Sys2Proof.Machine

namespace Sys2Proof.Machine
open Sys2Proof.Claims

/-! Loads (R165, R170, R171). -/

/-- A state with the waves and the memory system of another: what `memoryFrame` compares. -/
def State.apart (s t : State) : State :=
  { t with
      waves := s.waves, cores := s.cores, clusters := s.clusters, stackTbl := s.stackTbl, homes := s.homes, net := s.net,
      waiting := s.waiting }

theorem State.apart_sameArch (s : State) {t u : State} (h : t.sameArch u) : s.apart u = s.apart t := (congrArg s.apart h.rest :)
theorem State.apart_onlyCur (s : State) {t u : State} (h : t.onlyCur u) : s.apart u = s.apart t := (congrArg s.apart h.1 :)

/-- The lane of a load for an access: outside DRAM it has its value at once. -/
def loadLane (s : State) (z : Nat) (p : Nat × Dword × Cell) : LoadLane :=
  match p.2.2 with
  | .dram pa => { lane := p.1, pa := pa, z := z, va := p.2.1 }
  | c => { lane := p.1, z := z, va := p.2.1, cause := if (s.readCell c z).2 then 0x11 else 0,
           got := some (if (s.readCell c z).2 then (Config.undefinedData s.clk p.1).toNat else (s.readCell c z).1) }

theorem loadLane_access (s : State) (z : Nat) (p : Nat × Dword × Cell) :
    (loadLane s z p).lane = p.1 ∧ (loadLane s z p).va = p.2.1 ∧ (loadLane s z p).z = z := by
  simp only [loadLane]
  split <;> exact ⟨rfl, rfl, rfl⟩
theorem loadLane_pa {s : State} {z pa : Nat} {p : Nat × Dword × Cell} (h : inDram p.2.2 = some pa) : (loadLane s z p).pa = pa := by
  simp only [loadLane]
  split
  · rename_i e; rw [e] at h; exact (Option.some.inj h :)
  · rename_i e
    cases hc : p.2.2 with
    | dram a => exact absurd hc (e a)
    | _ => rw [hc] at h; cases h
theorem loadLane_got {s : State} {z : Nat} {p : Nat × Dword × Cell} (h : inDram p.2.2 = none) (hb : (s.readCell p.2.2 z).2 = false) :
    (loadLane s z p).got = some (s.readCell p.2.2 z).1 := by
  simp only [loadLane]
  split
  · rename_i e; rw [e] at h; cases h
  · simp only [hb, Bool.false_eq_true, if_false]

/-- A load as it enters flight. -/
def loadEntry (s : State) (opc : Nat) (r : MemReq) (dst : LoadDst) (cells : List (Nat × Dword × Cell)) : PLoad :=
  { dst := dst, lanes := cells.map (loadLane s r.z), level := (s.accessClass opc).level, acquire := (s.accessClass opc).acquire,
    planes := s.latchPlanes, pc := s.issue.pc, iword := s.issue.iword, lit := s.issue.lit, plane := s.issue.plane,
    bintodal := s.issue.form == .bintodal, issuedAt := s.clk, since := s.curSplit.since }

/-- A load whose checks pass enters flight. -/
theorem State.loadFlow_starts {s : State} {opc : Nat} {r : MemReq} {cells : List (Nat × Dword × Cell)} (dst : LoadDst) (empty : State)
    (hm : s.activeMask ≠ 0) (hh : s.held r.space = false) (ha : s.acquiring s.curWave = false) (hc : s.check r = .ok cells)
    (hw : (s.scratchWait r.space (s.accessClass opc)).isNone = true) :
    s.loadFlow opc r dst empty = (((s.cacheAll r).scratchDeps r.space).startLoad (loadEntry s opc r dst cells)).finishYield := by
  simp only [State.loadFlow, if_neg hm, State.heldLoad, hh, ha, hc, Option.isNone_iff_eq_none.1 hw, Bool.false_and, Bool.false_eq_true,
    if_false]
  rfl

/-- Landing changes registers and their errors, latches and the loads in flight. -/
theorem Wave.land_frame (w : Wave) (lid : Nat) (p : PLoad) : ∃ vs ss st ls lds,
    w.land lid p = { w with vregs := vs, sregs := ss, struck := st, latches := ls, loads := lds } := by
  simp only [Wave.land]
  rcases p.dst with ⟨_ | r, wide⟩ | ⟨_ | r, z, sg⟩ | q <;> exact ⟨_, _, _, _, _, rfl⟩

/-- A load that lands in a vector destination. -/
theorem Wave.land_vec {w : Wave} {p : PLoad} {d : VDst} {wide : Bool} (lid : Nat) (hd : p.dst = .vec (vdstReg d) wide) :
    (∀ r l, l < 32 → (w.land lid p).vreg r l = w.vregAfter p.mask d wide p.value r l) ∧ (w.land lid p).sregs = w.sregs := by
  simp only [Wave.land, hd]
  cases d with
  | nw => exact ⟨fun r l _ => rfl, rfl⟩
  | reg q => exact ⟨fun r l hl => w.vreg_setVLanes p.mask wide q p.value r l hl, rfl⟩

/-- A load that lands in a scalar destination. -/
theorem Wave.land_scalar {w : Wave} {p : PLoad} {d : SDst} {z : Nat} {sg : Bool} (lid : Nat) (hd : p.dst = .scalar (sdstReg d) z sg) :
    (∀ r, (w.land lid p).sreg r = if sdstReg d = some r then p.scalarValue z sg else w.sreg r) ∧ (w.land lid p).vregs = w.vregs := by
  simp only [Wave.land, hd]
  cases d with
  | nw => exact ⟨fun r => rfl, rfl⟩
  | reg q =>
    refine ⟨fun r => ?_, rfl⟩
    simp only [sdstReg, Wave.sreg, tgetD_tset, Option.some.injEq, eq_comm]

/-- An access is of 1, 2, 4 or 8 bytes (R170). -/
theorem accessBytes_cases (t : EType) : accessBytes t = 1 ∨ accessBytes t = 2 ∨ accessBytes t = 4 ∨ accessBytes t = 8 := by
  cases t <;> decide

/-- A scalar load extends its value from its width (R170). -/
theorem PLoad.scalarValue_eq (p : PLoad) (t : EType) (sg : Bool) : p.scalarValue (accessBytes t) sg =
    loadExtend (accessBytes t) sg (p.value 32).toNat := by
  have hv : BitVec.ofNat 64 (p.value 32).toNat = p.value 32 := by simp
  cases sg with
  | false => exact hv.symm
  | true =>
    rcases accessBytes_cases t with h | h | h | h <;> rw [h]
    case inr.inr.inr => exact hv.symm
    all_goals rfl

/-- The lanes of a mask, gathered again. -/
theorem LaneMask.getLsbD_ofLanes (ls : List Nat) (l : Nat) (h : l < 32) : (LaneMask.ofLanes ls).getLsbD l = decide (l ∈ ls) := by
  have hfold (m : LaneMask) : (ls.foldl (fun m l => m ||| (1#32 <<< l)) m).getLsbD l = (m.getLsbD l || decide (l ∈ ls)) := by
    induction ls generalizing m with
    | nil => simp
    | cons k ls ih =>
      rw [List.foldl_cons, ih]
      have hbit : (1#32 <<< k).getLsbD l = decide (l = k) := by
        simp only [BitVec.getLsbD_shiftLeft, BitVec.getLsbD_one, h, decide_true, Bool.true_and]
        by_cases hk : l < k
        · simp [hk, show l ≠ k by omega]
        · rw [decide_eq_false hk, Bool.not_false, Bool.true_and, Bool.eq_iff_iff, Bool.and_eq_true]
          simp only [decide_eq_true_iff]; omega
      rw [BitVec.getLsbD_or, hbit, Bool.or_assoc]
      simp only [List.mem_cons, Bool.decide_or]
  rw [LaneMask.ofLanes, hfold]; simp
theorem LaneMask.ofLanes_lanes (m : LaneMask) : LaneMask.ofLanes m.lanes = m := by
  refine BitVec.eq_of_getLsbD_eq (fun l hl => ?_)
  rw [LaneMask.getLsbD_ofLanes _ _ hl, Bool.eq_iff_iff, decide_eq_true_iff, LaneMask.mem_lanes m l hl]

/-- Where a load's lanes and destination come from. -/
theorem loadRow_dest {s : State} {i : Instr} {opc : Nat} {r : MemReq} {dst : Dest} (h : loadRow s i = some (opc, r, dst)) :
    (∃ d f, dst = .vec d ∧ r.lanes = s.activeLanes f) ∨ (∃ d, dst = .scalar d ∧ r.z = accessBytes s.etype) := by
  unfold loadRow at h
  split at h <;> cases h
  case h_2 => exact .inr ⟨_, rfl, rfl⟩
  case h_8 => exact .inr ⟨_, rfl, rfl⟩
  all_goals exact .inl ⟨_, _, rfl, rfl⟩

/-- The wave whose load has entered flight, its latches waiting for it. -/
def Wave.loading (w : Wave) (ls : Tbl LatchVal) : Wave := { w with resumed := false, latches := ls, nextLoad := w.nextLoad + 1 }

/-- A load that enters flight, from a state that differs from that of its issue in the memory system: it takes what can be served,
and lands at once if it is complete. -/
theorem State.startLoad_goes {s u : State} (hs : s.begun.sameArch u) (ha : s.waveAlive = true) (he : s.curWave.ended = false) (p : PLoad) :
    ∃ q ls, p.follows q ∧ s.apart (u.startLoad p) = s ∧
      (∀ k, k ≠ s.issue.wave → tget? (u.startLoad p).waves k = tget? s.waves k) ∧
      (q.complete = true → ∃ lds cs, tget? lds s.curWave.nextLoad = none ∧ (u.startLoad p).curWave =
        { (s.curWave.loading ls).land s.curWave.nextLoad q with loads := lds, causes := cs }) ∧
      (q.complete = false → (u.startLoad p).curWave =
        { s.curWave.loading ls with loads := tset s.curWave.loads s.curWave.nextLoad q }) := by
  have hau : u.waveAlive = true := by rw [State.waveAlive_sameArch hs, s.begun_alive]; exact ha
  have hwu : u.curWave = { s.curWave with resumed := false } := (State.sameArch_curWave hs).trans s.begun_curWave
  have hiu : u.issue = s.issue := (State.sameArch_issue hs).trans s.begun_issue
  obtain ⟨ls, hl⟩ := State.curWave_latchResult (.pending u.curWave.nextLoad) hau
  let v := (u.latchResult (.pending u.curWave.nextLoad)).modCur (fun w => { w with nextLoad := u.curWave.nextLoad + 1 })
  have hon : u.onlyCur v := State.onlyCur_modCur _ _ _ (State.onlyCur_latchResult _ _ _ u.onlyCur_refl)
  have hav : v.waveAlive = true := by
    rw [State.waveAlive_modCur, State.latchResult_alive]; exact hau
  have hwv : v.curWave = s.curWave.loading ls := by
    rw [State.curWave_modCur _ _ (by rw [State.latchResult_alive]; exact hau), hl, hwu]; rfl
  have hiv : v.issue.wave = s.issue.wave := by rw [← hiu]; exact congrArg Issue.wave (State.latchResult_issue u _)
  have hget : tget? v.waves s.issue.wave = some (s.curWave.loading ls) := by
    rw [← hwv, ← hiv]
    obtain ⟨w, hw⟩ := Option.isSome_iff_exists.1 hav
    rw [hw, State.curWave, tgetD, hw]; rfl
  have hv : v.sameArch (v.serveLoad s.issue.wave s.curWave.nextLoad p).1 :=
    of_fst_same (State.serveLoad_same _ _ _ _ (State.sameArch_refl _))
  have hstart : u.startLoad p = v.advanceLoad s.issue.wave s.curWave.nextLoad p := by
    rw [State.startLoad, hiu, hwu]
    simp only [v, hwu]
  have hframe (x : Wave) : s.apart ((v.serveLoad s.issue.wave s.curWave.nextLoad p).1.modWave s.issue.wave (fun _ => x)) = s := by
    calc s.apart ((v.serveLoad s.issue.wave s.curWave.nextLoad p).1.modWave s.issue.wave (fun _ => x))
        = s.apart (v.serveLoad s.issue.wave s.curWave.nextLoad p).1 := rfl
      _ = s.apart v := s.apart_sameArch hv
      _ = s.apart u := s.apart_onlyCur hon
      _ = s.apart s.begun := s.apart_sameArch hs
      _ = s := rfl
  have hothers (x : Wave) (k : Nat) (hk : k ≠ s.issue.wave) :
      tget? ((v.serveLoad s.issue.wave s.curWave.nextLoad p).1.modWave s.issue.wave (fun _ => x)).waves k = tget? s.waves k := by
    rw [State.modWave_waves, tget?_tmodify, if_neg hk, State.sameArch_waves hv, hon.2 k (by rw [hiu]; exact hk), State.sameArch_waves hs]
    exact s.onlyCur_begun.2 k hk
  have hwave (x : Wave) : ((v.serveLoad s.issue.wave s.curWave.nextLoad p).1.modWave s.issue.wave (fun _ => x)).curWave = x := by
    have hi : (v.serveLoad s.issue.wave s.curWave.nextLoad p).1.issue.wave = s.issue.wave := by rw [State.sameArch_issue hv, hiv]
    rw [State.curWave, State.modWave_issue, hi, State.modWave_waves, State.sameArch_waves hv,
      tgetD_tmodify_same _ _ _ _ (by rw [hget]; rfl)]
  rw [hstart]
  refine ⟨(v.serveLoad s.issue.wave s.curWave.nextLoad p).2, ls, State.follows_serveLoad _ _ _ _, ?_⟩
  cases hc : (v.serveLoad s.issue.wave s.curWave.nextLoad p).2.complete with
  | true =>
    obtain ⟨lds, cs, hlds, hadv⟩ := State.advanceLoad_lands hget s.curWave.nextLoad p he hc
    rw [hadv]
    exact ⟨hframe _, hothers _, fun _ => ⟨lds, cs, hlds, hwave _⟩, nofun⟩
  | false =>
    rw [State.advanceLoad_waits hget _ p hc]
    exact ⟨hframe _, hothers _, nofun, fun _ => hwave _⟩

theorem PLoad.follows_dst {p q : PLoad} (h : p.follows q) : q.dst = p.dst := by
  obtain ⟨g, -, rfl⟩ := h; rfl
theorem PLoad.follows_mask {p q : PLoad} (h : p.follows q) : q.mask = p.mask := by
  obtain ⟨g, hg, rfl⟩ := h
  have hl : (p.lanes.map g).map (fun x => x.lane) = p.lanes.map (fun x => x.lane) := by
    rw [List.map_map]
    exact List.map_congr_left (fun x _ => (hg x).1.1)
  simp only [PLoad.mask, hl]

/-- A load of the active lanes has their mask. -/
theorem loadEntry_mask {s : State} {opc : Nat} {r : MemReq} {dst : LoadDst} {cells : List (Nat × Dword × Cell)} {f : Nat → Dword}
    (hcells : cells.map (fun c => (c.1, c.2.1)) = r.lanes) (hl : r.lanes = s.activeLanes f) :
    (loadEntry s opc r dst cells).mask = s.activeMask := by
  have hlanes : (cells.map (loadLane s r.z)).map (fun x => x.lane) = s.activeMask.lanes := by
    calc (cells.map (loadLane s r.z)).map (fun x => x.lane)
        = cells.map (fun c => c.1) := by
          rw [List.map_map]
          exact List.map_congr_left (fun c _ => (loadLane_access s r.z c).1)
      _ = (cells.map (fun c => (c.1, c.2.1))).map Prod.fst := by rw [List.map_map]; rfl
      _ = s.activeMask.lanes := by rw [hcells, hl, State.activeLanes, List.map_map]; exact List.map_id _
  rw [PLoad.mask, show (loadEntry s opc r dst cells).lanes = cells.map (loadLane s r.z) from rfl, hlanes,
    List.filter_eq_self.2 (fun l hl => decide_eq_true (LaneMask.lanes_lt _ l hl)), LaneMask.ofLanes_lanes]

/-- The registers once a load has landed are its result. -/
theorem resultIn_land {s u : State} {i : Instr} {opc : Nat} {r : MemReq} {dst : Dest} {cells : List (Nat × Dword × Cell)}
    (hrow : loadRow s.begun i = some (opc, r, dst)) (hcells : cells.map (fun c => (c.1, c.2.1)) = r.lanes) {q : PLoad} {ls : Tbl LatchVal}
    (hq : (loadEntry s.begun opc r (destLoad s r.z dst) cells).follows q) {lid : Nat} {lds : Tbl PLoad} {cs : List TrapInfo}
    (hu : u.curWave = { (s.curWave.loading ls).land lid q with loads := lds, causes := cs }) :
    resultIn s u dst (fun l => (q.value l).toNat) (loadExtend r.z (etSigned s.etype) (q.value 32).toNat) := by
  have hdst : q.dst = destLoad s r.z dst := PLoad.follows_dst hq
  rcases loadRow_dest hrow with ⟨d, f, rfl, hl⟩ | ⟨d, rfl, hz⟩
  · obtain ⟨hv, hs⟩ := Wave.land_vec (w := s.curWave.loading ls) (d := d) lid hdst
    have hmask : q.mask = s.activeMask := by
      rw [PLoad.follows_mask hq, loadEntry_mask hcells hl, s.begun_activeMask]
    have hval : (fun l => BitVec.ofNat 64 (q.value l).toNat) = q.value := by funext l; simp
    simp only [resultIn, hu, hval]
    rw [hmask] at hv
    exact ⟨hv, hs⟩
  · obtain ⟨hs, hv⟩ := Wave.land_scalar (w := s.curWave.loading ls) (d := d) lid hdst
    rw [hz, State.begun_etype, PLoad.scalarValue_eq] at hs
    simp only [resultIn, hu, hz, State.begun_etype]
    exact ⟨hs, hv⟩

/-- What a load is told of its accesses. -/
theorem loadEntry_lane {s : State} {opc : Nat} {r : MemReq} {dst : LoadDst} {cells : List (Nat × Dword × Cell)} {q : PLoad}
    (hq : (loadEntry s opc r dst cells).follows q) {k : Nat} {c : Nat × Dword × Cell} {x : LoadLane} (hc : cells[k]? = some c)
    (hx : q.lanes[k]? = some x) : (loadLane s r.z c).follows x := by
  obtain ⟨g, hg, rfl⟩ := hq
  have hx' : ((cells.map (loadLane s r.z)).map g)[k]? = some x := hx
  rw [List.getElem?_map, List.getElem?_map, hc] at hx'
  cases hx'
  exact hg _

/-- Settles O23. -/
theorem loadsComplete : Obligations.LoadsComplete := by
  intro i s opc r dst cells hrow hi hm hh hq hc hsw
  obtain ⟨empty, hx⟩ := exec_loadRow hrow hi
  rw [State.loadFlow_starts _ _ (by rwa [s.begun_activeMask]) hh hq hc hsw] at hx
  have hs : s.begun.sameArch ((s.begun.cacheAll r).scratchDeps r.space) :=
    State.scratchDeps_same _ _ (State.cacheAll_same _ _ (State.sameArch_refl _))
  obtain ⟨q, ls, hfol, hframe, hothers, hland, hwait⟩ := State.startLoad_goes hs hi.1 hi.2.2.2.2.2
    (loadEntry s.begun opc r (destLoad s r.z dst) cells)
  have hlen : q.lanes.length = cells.length := by
    obtain ⟨g, -, rfl⟩ := hfol
    exact (List.length_map _).trans (List.length_map _)
  refine ⟨_, q, hx, ⟨hframe, hothers, ?_⟩, hlen, ?_, ?_, fun k c x hk hxk => ?_, fun hcomp => ?_, fun hcomp => ?_⟩
  · cases hcomp : q.complete with
    | true =>
      obtain ⟨lds, cs, -, hw⟩ := hland hcomp
      obtain ⟨vs, ss, st, ls', lds', hl⟩ := (s.curWave.loading ls).land_frame s.curWave.nextLoad q
      rw [hw, hl]; rfl
    | false => rw [hwait hcomp]; rfl
  · obtain ⟨g, -, rfl⟩ := hfol; rfl
  · obtain ⟨g, -, rfl⟩ := hfol; rfl
  · obtain ⟨⟨hlane, hpa, hva, hz⟩, hgot⟩ := loadEntry_lane hfol hk hxk
    obtain ⟨elane, eva, ez⟩ := loadLane_access s.begun r.z c
    refine ⟨hlane.trans elane, hva.trans eva, hz.trans ez, fun pa hp => hpa.trans (loadLane_pa hp), fun hd hb => ?_⟩
    have hg := loadLane_got hd (by rwa [s.begun_readCell])
    rw [hgot (by rw [hg]; rfl), hg, s.begun_readCell]
  · obtain ⟨lds, cs, hlds, hw⟩ := hland hcomp
    refine ⟨by rw [hw]; exact hlds, resultIn_land hrow (State.check_ok hc).2.1 hfol hw⟩
  · rw [hwait hcomp]
    exact ⟨tget?_tset_same _ _ _, by rw [resultIn, hwait hcomp]; exact ⟨rfl, rfl⟩⟩

end Sys2Proof.Machine

namespace Sys2Proof.Machine
open Sys2Proof.Claims

/-! Stores (R165, R170, R268, R314). -/

/-- The bytes of a value are its digits. -/
theorem leBytes_getD (n v k : Nat) (h : k < n) : (leBytes n v).getD k 0 = BitVec.ofNat 8 (v / 256 ^ k) := by
  induction n generalizing v k with
  | zero => omega
  | succ n ih =>
    cases k with
    | zero => simp [leBytes]
    | succ k =>
      rw [leBytes, List.getD_cons_succ, ih _ _ (by omega), Nat.div_div_eq_div_mul, Nat.pow_succ, Nat.mul_comm]

theorem any_of_tget? {α : Type} {t : Tbl α} {n : Nat} {v : α} (q : α → Bool) (h : tget? t n = some v) (hq : q v = true) :
    t.any (fun p => q p.2) = true := by
  induction t with
  | nil => cases h
  | cons p t ih =>
    simp only [tget?] at h
    rw [List.any_cons, Bool.or_eq_true]
    split at h
    · cases h; exact .inl hq
    · exact .inr (ih h)

/-- Replacing an entry by one of which a test says the same is no change of whether some entry meets it. -/
theorem any_tset_of_tget? {α : Type} {t : Tbl α} {n : Nat} {v x : α} (q : α → Bool) (h : tget? t n = some v) (hq : q x = q v) :
    (tset t n x).any (fun p => q p.2) = t.any (fun p => q p.2) := by
  induction t with
  | nil => cases h
  | cons p t ih =>
    obtain ⟨k, w⟩ := p
    have hin := any_of_tget? q h
    simp only [tget?] at h
    simp only [tset]
    split
    · rw [List.any_cons, hq]
      cases hv : q v with
      | false => rfl
      | true => exact (hin hv).symm
    · split
      · rename_i hk
        rw [if_pos hk.symm] at h
        cases h
        rw [List.any_cons, List.any_cons, hq]
      · rename_i hk
        rw [if_neg (Ne.symm hk)] at h
        rw [List.any_cons, List.any_cons, ih h]

theorem tget?_tmodify_isSome {α : Type} (t : Tbl α) (n k : Nat) (f : α → α) : (tget? (tmodify t n f) k).isSome = (tget? t k).isSome := by
  rw [tget?_tmodify]
  split
  · subst k; exact Option.isSome_map
  · rfl

theorem State.deviceByte_modCtx (s : State) (k pa : Nat) {f : Context → Context}
    (hf : ∀ x, (f x).saveBase = x.saveBase ∧ (f x).saveSize = x.saveSize) : (s.modCtx k f).deviceByte pa = s.deviceByte pa := by
  simp only [State.deviceByte, State.modCtx, tmodify]
  split
  · rename_i v hv
    refine any_tset_of_tget? (fun x => decide (x.saveBase ≤ pa ∧ pa < x.saveBase + min 8192 x.saveSize)) hv ?_
    rw [(hf v).1, (hf v).2]
  · rfl

/-- What the stores of an instruction may change: its core's write queue, scratchpads, and the trap frame of its wave. -/
structure State.Storing (t u : State) : Prop where
  rest : ({ u with waves := t.waves, cores := t.cores, blocks := t.blocks, ctxs := t.ctxs } : State) = t
  others : ∀ k, k ≠ t.issue.wave → tget? u.waves k = tget? t.waves k
  alive : u.waveAlive = t.waveAlive
  wave : ({ u.curWave with frame := t.curWave.frame, struck := t.curWave.struck } : Wave) = t.curWave
  resides : ∀ c, u.resides c ↔ t.resides c
  blocks : ∀ b, ({ u.block b with scratch := (t.block b).scratch, spoison := (t.block b).spoison, lanes := (t.block b).lanes,
                                  lpoison := (t.block b).lpoison } : Block) = t.block b
  device : ∀ pa, u.deviceByte pa = t.deviceByte pa
  cores : ∀ k, k ≠ t.curWave.core → u.core k = t.core k
  core : ({ u.core t.curWave.core with wq := (t.core t.curWave.core).wq, nextWrite := (t.core t.curWave.core).nextWrite } : Core) =
    t.core t.curWave.core

theorem State.Storing.refl (t : State) : t.Storing t :=
  ⟨rfl, fun _ _ => rfl, rfl, rfl, fun _ => Iff.rfl, fun _ => rfl, fun _ => rfl, fun _ _ => rfl, rfl⟩

theorem State.Storing.issue {t u : State} (h : t.Storing u) : u.issue = t.issue := (congrArg State.issue h.rest :)
theorem State.Storing.clk {t u : State} (h : t.Storing u) : u.clk = t.clk := (congrArg State.clk h.rest :)
theorem State.Storing.mem {t u : State} (h : t.Storing u) : u.mem = t.mem := (congrArg State.mem h.rest :)

/-- A change of the bytes and marks of a resident block. -/
theorem State.Storing.modBlock {t u : State} (h : t.Storing u) {b : Nat} (hb : (tget? t.blocks b).isSome = true) {f : Block → Block}
    (hf : ∀ x y : Block, ({ f x with scratch := y.scratch, spoison := y.spoison, lanes := y.lanes, lpoison := y.lpoison } : Block) =
      { x with scratch := y.scratch, spoison := y.spoison, lanes := y.lanes, lpoison := y.lpoison }) :
    t.Storing (u.modBlock b f) := by
  have hbu : (tget? u.blocks b).isSome = true := (h.resides (.spad b 0)).2 hb
  refine { h with resides := fun c => ?_, blocks := fun k => ?_ }
  · rw [← h.resides c]
    cases c <;> simp only [State.resides, State.modBlock, tget?_tmodify_isSome]
  · rw [State.block_modBlock _ _ _ _ hbu]
    split
    · subst k; exact (hf _ _).trans (h.blocks _)
    · exact h.blocks k

/-- A write at a place other than DRAM changes nothing but the place. -/
theorem State.Storing.writeCell {t u : State} (h : t.Storing u) (ha : t.waveAlive = true) {c : Cell} (hc : t.resides c) (bs : List Byte) :
    t.Storing (u.writeCell c bs) := by
  have hau : u.waveAlive = true := h.alive.trans ha
  cases c with
  | dram pa => exact h
  | frame o =>
    refine { h with others := fun k hk => ?_, alive := ?_, wave := ?_ }
    · rw [← h.others k hk]
      exact u.tget?_modCur_other _ (by rw [h.issue]; exact hk)
    · exact (u.waveAlive_modCur _).trans h.alive
    · simp only [State.writeCell, u.curWave_modCur _ hau]; exact h.wave
  | spad b a => exact h.modBlock hc (fun _ _ => rfl)
  | lanep b a => exact h.modBlock hc (fun _ _ => rfl)
  | stk k y a =>
    refine { h with resides := fun c => ?_, device := fun pa => ?_ }
    · rw [← h.resides c]
      cases c <;> simp only [State.resides, State.writeCell, State.modCtx, tget?_tmodify_isSome]
    · rw [← h.device pa]
      exact State.deviceByte_modCtx _ _ _ (fun _ => ⟨rfl, rfl⟩)

/-- The entry of the write queue for a store to DRAM (R314). -/
def State.storeEntry (s : State) (lane : Nat) (va : Dword) (pa : Nat) (bs : List Byte) : WqEntry :=
  { pa := pa, bytes := s.ownBytes pa bs, epoch := (s.core s.curWave.core).epoch, wave := s.issue.wave, trap := s.lossOf lane va,
    ctx := s.curWave.ctx, launch := s.curWave.launch, entered := s.clk }

/-- A store to DRAM enters the write queue of the wave's core. -/
theorem State.Storing.enterStore_dram {t u : State} (h : t.Storing u) (lane : Nat) (va : Dword) (pa : Nat) (bs : List Byte) :
    u.enterStore lane va (.dram pa) bs = u.modCore t.curWave.core (fun x =>
      { x with wq := tset x.wq x.nextWrite (t.storeEntry lane va pa bs), nextWrite := x.nextWrite + 1 }) := by
  have hw := h.wave
  have hcore : u.curWave.core = t.curWave.core := (congrArg Wave.core hw :)
  have hctx : u.curWave.ctx = t.curWave.ctx := (congrArg Wave.ctx hw :)
  have hlaunch : u.curWave.launch = t.curWave.launch := (congrArg Wave.launch hw :)
  have hepoch : (u.core t.curWave.core).epoch = (t.core t.curWave.core).epoch := (congrArg Core.epoch h.core :)
  have hown : u.ownBytes pa bs = t.ownBytes pa bs := by simp only [State.ownBytes, h.device, h.mem]
  have hloss : u.lossOf lane va = t.lossOf lane va := by simp only [State.lossOf, State.info, h.issue, h.clk]
  simp only [State.enterStore, State.modCore, State.storeEntry, hcore, hctx, hlaunch, hepoch, hown, hloss, h.issue, h.clk]

/-- A store changes what stores may. -/
theorem State.Storing.enterStore {t u : State} (h : t.Storing u) (ha : t.waveAlive = true) {c : Cell} (hc : t.resides c) (lane : Nat)
    (va : Dword) (bs : List Byte) : t.Storing (u.enterStore lane va c bs) := by
  cases c with
  | dram pa =>
    rw [h.enterStore_dram]
    refine { h with resides := h.resides, cores := fun k hk => ?_, core := ?_ }
    · rw [State.core_modCore, if_neg hk]; exact h.cores k hk
    · rw [State.core_modCore, if_pos rfl]; exact h.core
  | _ => exact h.writeCell ha hc bs

/-- The stores of an instruction, lane by lane. -/
def State.enterStores (s : State) (z : Nat) (data : Nat → Nat) (cells : List (Nat × Dword × Cell)) : State :=
  cells.foldl (fun u p => u.enterStore p.1 p.2.1 p.2.2 (leBytes z (data p.1))) s

/-- The accesses of a store that lie in DRAM, in order. -/
def dramStores (cells : List (Nat × Dword × Cell)) : List (Nat × Dword × Nat) :=
  cells.filterMap (fun p => (inDram p.2.2).map (fun pa => (p.1, p.2.1, pa)))

/-- What one access leaves at a place. -/
theorem writtenByte_leBytes (z : Nat) (data : Nat → Nat) (p : Nat × Dword × Cell) (q : Cell) (old : Byte) :
    writtenByte p.2.2 (leBytes z (data p.1)) q old = storedByte z [p] data q old := by
  simp only [writtenByte, leBytes_length, storedByte, List.foldl_cons, List.foldl_nil]
  cases hk : byteIn z p.2.2 q with
  | none => rfl
  | some k =>
    obtain ⟨hlt, -⟩ := byteIn_eq_some_iff.1 hk
    exact leBytes_getD _ _ _ hlt

section
variable {t : State} (ha : t.waveAlive = true) (z : Nat) (data : Nat → Nat)
include ha

/-- A store leaves its bytes at its place outside DRAM. -/
theorem State.Storing.cellByte_enterStore {u : State} (h : t.Storing u) {p : Nat × Dword × Cell} (hp : t.resides p.2.2) {q : Cell}
    (hq : inDram q = none) : cellByte (u.enterStore p.1 p.2.1 p.2.2 (leBytes z (data p.1))) q =
      if readOnlyPlace q then cellByte u q else storedByte z [p] data q (cellByte u q) := by
  rw [← writtenByte_leBytes]
  have hwrite (hd : inDram p.2.2 = none) := cellByte_writeCell (leBytes z (data p.1)) q (h.alive.trans ha) ((h.resides _).2 hp) hd
  cases hc : p.2.2 with
  | dram pa =>
    have hsame : cellByte (u.enterStore p.1 p.2.1 (.dram pa) (leBytes z (data p.1))) q = cellByte u q := by
      cases q with
      | dram a => cases hq
      | _ => rfl
    have hnone : byteIn (leBytes z (data p.1)).length (.dram pa) q = none := by
      cases q with
      | dram a => cases hq
      | _ => rfl
    rw [hsame, writtenByte_of_none _ hnone, ite_self]
  | _ => rw [hc] at hwrite; exact hwrite rfl

variable (cells : List (Nat × Dword × Cell)) (hres : ∀ p ∈ cells, t.resides p.2.2)
include hres

theorem State.Storing.enterStores {u : State} (h : t.Storing u) : t.Storing (u.enterStores z data cells) := by
  induction cells generalizing u with
  | nil => exact h
  | cons p ps ih => exact ih (fun q hq => hres q (List.mem_cons_of_mem _ hq)) (h.enterStore ha (hres p List.mem_cons_self) _ _ _)

/-- The bytes outside DRAM are those that the highest lane leaves (R170). -/
theorem State.Storing.cellByte_enterStores {u : State} (h : t.Storing u) {q : Cell} (hq : inDram q = none) :
    cellByte (u.enterStores z data cells) q = if readOnlyPlace q then cellByte u q else storedByte z cells data q (cellByte u q) := by
  induction cells generalizing u with
  | nil => exact (ite_self _).symm
  | cons p ps ih =>
    have hp := hres p List.mem_cons_self
    have hrec := ih (fun q hq => hres q (List.mem_cons_of_mem _ hq)) (h.enterStore ha hp p.1 p.2.1 (leBytes z (data p.1)))
    rw [h.cellByte_enterStore ha z data hp hq] at hrec
    refine hrec.trans ?_
    split
    · rfl
    · rfl

/-- The stores to DRAM enter the write queue in order, behind those already there (R314). -/
theorem State.Storing.queue_enterStores {u : State} (h : t.Storing u) :
    ((u.enterStores z data cells).core t.curWave.core).nextWrite = (u.core t.curWave.core).nextWrite + (dramStores cells).length ∧
    (∀ k, k < (u.core t.curWave.core).nextWrite →
      tget? ((u.enterStores z data cells).core t.curWave.core).wq k = tget? (u.core t.curWave.core).wq k) ∧
    ∀ j x, (dramStores cells)[j]? = some x → tget? ((u.enterStores z data cells).core t.curWave.core).wq
      ((u.core t.curWave.core).nextWrite + j) = some (t.storeEntry x.1 x.2.1 x.2.2 (leBytes z (data x.1))) := by
  induction cells generalizing u with
  | nil => exact ⟨rfl, fun _ _ => rfl, nofun⟩
  | cons p ps ih =>
    obtain ⟨hnext, hold, hnew⟩ := ih (fun q hq => hres q (List.mem_cons_of_mem _ hq))
      (h.enterStore ha (hres p List.mem_cons_self) p.1 p.2.1 (leBytes z (data p.1)))
    cases hc : p.2.2 with
    | dram pa =>
      have hds : dramStores (p :: ps) = (p.1, p.2.1, pa) :: dramStores ps := by
        rw [dramStores, List.filterMap_cons, hc]; rfl
      have hcore : (u.enterStore p.1 p.2.1 p.2.2 (leBytes z (data p.1))).core t.curWave.core = { u.core t.curWave.core with
          wq := tset (u.core t.curWave.core).wq (u.core t.curWave.core).nextWrite (t.storeEntry p.1 p.2.1 pa (leBytes z (data p.1))),
          nextWrite := (u.core t.curWave.core).nextWrite + 1 } := by
        rw [hc, h.enterStore_dram, State.core_modCore, if_pos rfl]
      rw [hcore] at hnext hold hnew
      rw [hds]
      refine ⟨hnext.trans (by rw [List.length_cons]; dsimp only; omega), fun k hk => ?_, fun j x hx => ?_⟩
      · exact (hold k (Nat.lt_succ_of_lt hk)).trans (tget?_tset_other _ _ (Nat.ne_of_lt hk))
      · cases j with
        | zero =>
          cases hx
          exact (hold _ (Nat.lt_succ_self _)).trans (tget?_tset_same _ _ _)
        | succ j =>
          have hj := hnew j x hx
          rwa [show (u.core t.curWave.core).nextWrite + (j + 1) = (u.core t.curWave.core).nextWrite + 1 + j by omega]
    | _ =>
      have hds : dramStores (p :: ps) = dramStores ps := by
        rw [dramStores, List.filterMap_cons, hc]; rfl
      rw [hc] at hnext hold hnew
      rw [hds, show u.enterStores z data (p :: ps) = (u.enterStore p.1 p.2.1 p.2.2 (leBytes z (data p.1))).enterStores z data ps from rfl, hc]
      exact ⟨hnext, hold, hnew⟩

end

/-- The state in which the stores of an instruction enter: its release has begun its epoch, and its translations are at hand. -/
def State.storeBase (s : State) (opc : Nat) (r : MemReq) : State :=
  (if (s.accessClass opc).release then s.released s.curWave.core (s.accessClass opc).level else s).cacheAll r

/-- A store whose checks pass, that has nothing to wait for and finds room in its core's queue, enters its bytes. -/
theorem State.storeFlow_enters {s : State} {opc : Nat} {r : MemReq} {cells : List (Nat × Dword × Cell)} (data : Nat → Nat)
    (hm : s.activeMask ≠ 0) (hh : s.held r.space = false) (hq : s.acquiring s.curWave = false) (hc : s.check r = .ok cells)
    (hl : s.curWave.loads = []) (hg : (s.accessClass opc).release = true → (s.gate (s.accessClass opc).level true false).isNone = true)
    (hroom : r.space = .global → (s.core s.curWave.core).room cells.length = true) :
    s.storeFlow opc r data = ((s.storeBase opc r).enterStores r.z data cells).finishYield := by
  have hgate : (if (s.accessClass opc).release then s.gate (s.accessClass opc).level true false else none) = none := by
    split
    · exact Option.isNone_iff_eq_none.1 (hg ‹_›)
    · rfl
  have hroom' : (r.space == MSpace.global && !(s.core s.curWave.core).room cells.length) = false := by
    cases hsp : r.space == MSpace.global with
    | false => rfl
    | true => rw [hroom (by simpa using hsp)]; rfl
  simp only [State.storeFlow, if_neg hm, State.heldWrite, hh, hq, hc, hl, hgate, hroom', List.isEmpty_nil, Bool.not_true, Bool.false_and,
    Bool.false_eq_true, if_false]
  rfl

/-- A store has bytes. -/
theorem storeRow_pos {s : State} {i : Instr} {opc : Nat} {r : MemReq} {data : Nat → Nat} (h : storeRow s i = some (opc, r, data)) : 0 < r.z := by
  have ha : 0 < accessBytes s.etype := by have := accessBytes_cases s.etype; omega
  have hw : 0 < wordBytes s.etype := by rw [wordBytes]; split <;> omega
  unfold storeRow at h
  split at h <;> cases h
  case h_3 => exact hw
  all_goals exact ha

/-- Translations of an access change cores alone. -/
theorem State.cacheAll_frame (s : State) (r : MemReq) : ({ s.cacheAll r with cores := s.cores } : State) = s := by
  simp only [State.cacheAll]
  split
  · refine List.foldlRecOn (motive := fun u : State => ({ u with cores := s.cores } : State) = s) _ _ rfl (fun u hu p _ => ?_)
    split
    · exact hu
    · simp only [State.cacheXlate]
      split
      · exact hu
      split
      · exact hu
      split
      · exact hu
      · exact hu
  · rfl

theorem State.storeBase_frame (s : State) (opc : Nat) (r : MemReq) : ({ s.storeBase opc r with cores := s.cores } : State) = s := by
  have h := congrArg (fun t : State => ({ t with cores := s.cores } : State))
    (State.cacheAll_frame (if (s.accessClass opc).release then s.released s.curWave.core (s.accessClass opc).level else s) r)
  refine Eq.trans h ?_
  cases (s.accessClass opc).release <;> rfl

theorem State.storeBase_same (s : State) (opc : Nat) (r : MemReq) : s.sameArch (s.storeBase opc r) := by
  refine State.cacheAll_same _ _ ?_
  split
  · exact State.released_same _ _ _ (State.sameArch_refl _)
  · exact State.sameArch_refl _

/-- Of the other cores, and of the queue of its own, the release changes nothing. -/
theorem State.storeBase_core (s : State) (opc : Nat) (r : MemReq) :
    (∀ k, k ≠ s.curWave.core → (s.storeBase opc r).core k = s.core k) ∧
    ((s.storeBase opc r).core s.curWave.core).wq = (s.core s.curWave.core).wq ∧
    ((s.storeBase opc r).core s.curWave.core).nextWrite = (s.core s.curWave.core).nextWrite := by
  let v := if (s.accessClass opc).release then s.released s.curWave.core (s.accessClass opc).level else s
  have hv : v.curWave = s.curWave := by
    simp only [v]; cases (s.accessClass opc).release <;> rfl
  have hother (k : Nat) (hk : k ≠ s.curWave.core) : v.core k = s.core k := by
    simp only [v]
    split
    · rw [State.released, State.core_modCore, if_neg hk]
    · rfl
  have hown : (v.core s.curWave.core).wq = (s.core s.curWave.core).wq ∧
      (v.core s.curWave.core).nextWrite = (s.core s.curWave.core).nextWrite := by
    simp only [v]
    split
    · rw [State.core_released]
      split
      · split <;> exact ⟨rfl, rfl⟩
      · exact ⟨rfl, rfl⟩
    · exact ⟨rfl, rfl⟩
  refine ⟨fun k hk => ?_, ?_⟩
  · obtain ⟨ts, hx, hts⟩ := v.cacheAll_core r k
    rw [hv] at hts
    rw [State.storeBase, hx, hts hk, hother k hk]
  · obtain ⟨ts, hx, -⟩ := v.cacheAll_core r s.curWave.core
    rw [State.storeBase, hx]
    exact hown

/-- Settles O25. -/
theorem storesComplete : Obligations.StoresComplete := by
  intro i s opc r data cells hrow hi hm hh hq hc hl hg hroom c ds
  let t := s.begun.storeBase opc r
  let u := t.enterStores r.z data cells
  have hs : s.begun.sameArch t := s.begun.storeBase_same opc r
  have hissue : t.issue = s.issue := (State.sameArch_issue hs).trans s.begun_issue
  have hwave : t.curWave = { s.curWave with resumed := false } := (State.sameArch_curWave hs).trans s.begun_curWave
  have hcore : t.curWave.core = c := by rw [hwave]
  have halive : t.waveAlive = true := by rw [State.waveAlive_sameArch hs, s.begun_alive]; exact hi.1
  have hres : ∀ p ∈ cells, t.resides p.2.2 := fun p hp => by
    rw [State.resides_sameArch hs]
    exact State.resides_of_check (storeRow_pos hrow) hc p hp
  obtain ⟨hcores, hwq, hnext⟩ := s.begun.storeBase_core opc r
  rw [s.begun_core] at hcores hwq hnext
  have hu : t.Storing u := (State.Storing.refl t).enterStores halive r.z data cells hres
  obtain ⟨hn, hold, hnew⟩ := (State.Storing.refl t).queue_enterStores halive r.z data cells hres
  rw [hcore, hnext] at hn hold hnew
  refine ⟨u, ?_, ?_, fun k hk => ?_, ?_, fun q hq => ?_, fun b => ?_, fun k hk => ?_, hn, fun k hk => (hold k hk).trans (by rw [hwq]; rfl),
    fun j x hx => ?_⟩
  · rw [exec_storeRow hrow hi, State.storeFlow_enters data (by rwa [s.begun_activeMask]) hh hq hc (by rw [s.begun_curWave]; exact hl) hg
      (fun hsp => by rw [s.begun_core]; exact decide_eq_true (hroom hsp))]
  · have h := congrArg (fun x : State => ({ x with waves := s.waves, cores := s.cores, blocks := s.blocks, ctxs := s.ctxs } : State)) hu.rest
    have h' := congrArg (fun x : State => ({ x with waves := s.waves, blocks := s.blocks, ctxs := s.ctxs } : State))
      (s.begun.storeBase_frame opc r)
    exact Eq.trans h h'
  · rw [hu.others k (by rw [hissue]; exact hk), State.sameArch_waves hs]
    exact s.onlyCur_begun.2 k hk
  · have h := congrArg (fun w : Wave => ({ w with frame := s.curWave.frame, struck := s.curWave.struck, resumed := s.curWave.resumed } : Wave))
      (hu.wave.trans hwave)
    exact h
  · rw [(State.Storing.refl t).cellByte_enterStores halive r.z data cells hres hq, cellByte_sameArch hs, cellByte_begun]
  · have h := hu.blocks b
    rwa [show t.block b = s.block b by rw [State.block, State.sameArch_blocks hs]; rfl] at h
  · exact (hu.cores k (by rw [hcore]; exact hk)).trans (hcores k hk)
  · have hdev (pa : Nat) : t.deviceByte pa = s.deviceByte pa := by rw [State.deviceByte, State.sameArch_ctxs hs]; rfl
    have hown : t.ownBytes x.2.2 (leBytes r.z (data x.1)) = s.ownBytes x.2.2 (leBytes r.z (data x.1)) := by
      rw [State.ownBytes, State.ownBytes, State.sameArch_mem hs]; simp only [hdev]; rfl
    have hepoch : (u.core c).epoch = (t.core t.curWave.core).epoch := by
      rw [← hcore]; exact (congrArg Core.epoch hu.core :)
    refine ⟨_, hnew j x hx, rfl, rfl, rfl, ?_, hown, ?_, hepoch.symm⟩
    · rw [State.storeEntry, State.lossOf, State.info, hissue]
    · rw [State.storeEntry, hissue]

end Sys2Proof.Machine

namespace Sys2Proof.Machine
open Sys2Proof.Claims

/-! Writes of read-modify-writes (R172, R314 to R318). -/

theorem cellAddr_cellPlus (c : Cell) (k : Nat) : cellAddr (cellPlus c k) = cellAddr c + k := by cases c <;> rfl

/-- Two places whose accesses begin at one address of one table are one. -/
theorem cellPlus_injective {c d : Cell} {j k : Nat} (ha : cellAddr c = cellAddr d) (h : cellPlus c j = cellPlus d k) : c = d := by
  cases c <;> cases d <;> simp_all [cellPlus, cellAddr]

/-- Aligned accesses at different places have no byte in common. -/
theorem byteIn_of_aligned {z k : Nat} {c d : Cell} (hne : c ≠ d) (hc : cellAddr c % z = 0) (hd : cellAddr d % z = 0) (hk : k < z) :
    byteIn z d (cellPlus c k) = none := by
  rw [Option.eq_none_iff_forall_ne_some]
  intro j hj
  obtain ⟨hjz, he⟩ := byteIn_eq_some_iff.1 hj
  have haddr : cellAddr c + k = cellAddr d + j := by rw [← cellAddr_cellPlus, he, cellAddr_cellPlus]
  have hkj : k = j := by
    have hmod := congrArg (· % z) haddr
    simpa only [Nat.add_mod, hc, hd, Nat.zero_add, Nat.mod_mod, Nat.mod_eq_of_lt hk, Nat.mod_eq_of_lt hjz] using hmod
  exact hne (cellPlus_injective (by omega) he)

/-- A write none of whose bytes only the device writes leaves what it writes. -/
theorem State.ownBytes_of_plain {s : State} {pa : Nat} {bs : List Byte} (h : ∀ k, k < bs.length → s.deviceByte (pa + k) = false) :
    s.ownBytes pa bs = bs := by
  refine List.ext_getElem (by simp [State.ownBytes]) (fun k hk hk' => ?_)
  have hplain := h k hk'
  simp only [State.ownBytes, List.getElem_map, List.getElem_zipIdx, Nat.zero_add, hplain, Bool.false_eq_true, if_false]

/-- A write at the owner, where the device writes nothing and no decant record lives: the bytes, and marks of poison that go. -/
theorem State.writeOwned_eq {s : State} {pa : Nat} {bs : List Byte} (hd : ∀ k, k < bs.length → s.deviceByte (pa + k) = false)
    (hc : tget? (s.cluster (homeSlice (lineOf pa))).counters (lineOf pa) = none) : ∃ P N W, (∀ g ∈ P, g ∈ s.poison) ∧
    s.writeOwned pa bs = { s with mem := memPut s.mem pa bs, poison := P, net := N, waiting := W } := by
  have hbreak : ({ s.memWrite pa bs with poison := clearGranules s.poison pa bs.length } : State).decantBreak (lineOf pa) =
      { s.memWrite pa bs with poison := clearGranules s.poison pa bs.length } := by
    rw [State.decantBreak, if_neg]
    show ¬ (tget? (s.cluster (homeSlice (lineOf pa))).counters (lineOf pa)).isSome = true
    rw [hc]; exact Bool.false_ne_true
  simp only [State.writeOwned, State.ownBytes_of_plain hd, State.writeBytes, hbreak]
  split
  · exact ⟨_, _, _, fun g hg => List.mem_of_mem_filter hg, rfl⟩
  · exact ⟨_, _, _, fun g hg => List.mem_of_mem_filter hg, rfl⟩

/-- What follows a write at the owner is no change of what a program sees. -/
theorem State.perform_same (s : State) (core pa : Nat) (bs : List Byte) (id epoch : Nat) :
    (s.writeOwned pa bs).sameArch (s.perform core pa bs id epoch) := by
  simp only [State.perform]
  refine State.settle_same _ _ (State.modCore_same _ _ _ (State.recordTag_same _ _ _ _ _ (State.invalidateOthers_same _ _ _ _ _ ?_)))
  exact foldl_same _ (fun u k hu => State.markUnpub_same _ _ (State.dirtyCopy_same _ _ _ _ hu)) _ _ (State.sameArch_refl _)

/-- What the writes of a read-modify-write may change: DRAM and the blocks' scratchpads, and the memory system. -/
structure State.Atomic (t u : State) : Prop where
  rest : ({ u with
    mem := t.mem, poison := t.poison, blocks := t.blocks, cores := t.cores, clusters := t.clusters, stackTbl := t.stackTbl,
    homes := t.homes, net := t.net, waiting := t.waiting } : State) = t
  counters : ∀ g, (u.cluster g).counters = (t.cluster g).counters
  resident : ∀ b, (tget? u.blocks b).isSome = (tget? t.blocks b).isSome
  poison : ∀ q, ∀ g ∈ u.cellPoison q, g ∈ t.cellPoison q

theorem State.Atomic.refl (t : State) : t.Atomic t := ⟨rfl, fun _ => rfl, fun _ => rfl, fun _ _ => id⟩

theorem State.Atomic.waves {t u : State} (h : t.Atomic u) : u.waves = t.waves := (congrArg State.waves h.rest :)
theorem State.Atomic.issue {t u : State} (h : t.Atomic u) : u.issue = t.issue := (congrArg State.issue h.rest :)
theorem State.Atomic.clk {t u : State} (h : t.Atomic u) : u.clk = t.clk := (congrArg State.clk h.rest :)
theorem State.Atomic.ctxs {t u : State} (h : t.Atomic u) : u.ctxs = t.ctxs := (congrArg State.ctxs h.rest :)
theorem State.Atomic.launches {t u : State} (h : t.Atomic u) : u.launches = t.launches := (congrArg State.launches h.rest :)
theorem State.Atomic.curWave {t u : State} (h : t.Atomic u) : u.curWave = t.curWave := by
  simp only [State.curWave, h.waves, h.issue]
theorem State.Atomic.waveAlive {t u : State} (h : t.Atomic u) : u.waveAlive = t.waveAlive := by
  simp only [State.waveAlive, h.waves, h.issue]
theorem State.Atomic.deviceByte {t u : State} (h : t.Atomic u) (pa : Nat) : u.deviceByte pa = t.deviceByte pa := by
  rw [State.deviceByte, State.deviceByte, h.ctxs]
theorem State.Atomic.homeLost {t u : State} (h : t.Atomic u) (pa : Nat) : u.homeLost pa = t.homeLost pa := by
  have hd : u.dead = t.dead := (congrArg State.dead h.rest :)
  have ho : u.offline = t.offline := (congrArg State.offline h.rest :)
  rw [State.homeLost, State.homeLost, hd, ho]

theorem State.Atomic.trans {t u v : State} (h : t.Atomic u) (h' : u.Atomic v) : t.Atomic v := by
  refine ⟨?_, fun g => (h'.counters g).trans (h.counters g), fun b => (h'.resident b).trans (h.resident b),
    fun q g hg => h.poison q g (h'.poison q g hg)⟩
  have hr := congrArg (fun x : State => ({ x with
    mem := t.mem, poison := t.poison, blocks := t.blocks, cores := t.cores, clusters := t.clusters, stackTbl := t.stackTbl,
    homes := t.homes, net := t.net, waiting := t.waiting } : State)) h'.rest
  exact Eq.trans hr h.rest

/-- What the memory system may change is none of it. -/
theorem State.Atomic.of_sameArch {t u : State} (h : t.sameArch u) : t.Atomic u := by
  refine ⟨?_, h.counters, fun b => by rw [State.sameArch_blocks h], fun q g hg => ?_⟩
  · have hr := congrArg (fun x : State => ({ x with mem := t.mem, poison := t.poison, blocks := t.blocks } : State)) h.rest
    exact hr
  · rwa [State.cellPoison_congr (State.sameArch_poison h) (State.sameArch_blocks h) (State.sameArch_ctxs h)] at hg

/-- The words of a read-modify-write lie in DRAM at a home that is not lost, away from what only the device writes and from live decant
records, or in the scratchpad of a resident block; they are aligned and without poison. -/
structure State.AtomicWord (s : State) (z : Nat) (c : Cell) : Prop where
  aligned : cellAddr c % z = 0
  clean : (s.readCell c z).2 = false
  place : (∃ pa, c = .dram pa ∧ s.homeLost pa = false ∧ (∀ k, k < z → s.deviceByte (pa + k) = false) ∧
      tget? (s.cluster (homeSlice (lineOf pa))).counters (lineOf pa) = none) ∨
    ∃ b n, c = .spad b n ∧ (tget? s.blocks b).isSome = true

/-- A word stays one. -/
theorem State.AtomicWord.mono {t u : State} {z : Nat} {c : Cell} (h : t.AtomicWord z c) (hu : t.Atomic u) : u.AtomicWord z c := by
  refine ⟨h.aligned, State.readCell_clean (hu.poison c) h.clean, ?_⟩
  rcases h.place with ⟨pa, rfl, hl, hd, hc⟩ | ⟨b, n, rfl, hb⟩
  · refine .inl ⟨pa, rfl, (hu.homeLost pa).trans hl, fun k hk => (hu.deviceByte _).trans (hd k hk), ?_⟩
    rw [hu.counters]; exact hc
  · exact .inr ⟨b, n, rfl, (hu.resident b).trans hb⟩

/-- A write at the owner changes its bytes, where the device writes nothing and no decant record lives. -/
theorem State.writeOwned_atomic {s : State} {pa : Nat} {bs : List Byte} (hd : ∀ k, k < bs.length → s.deviceByte (pa + k) = false)
    (hc : tget? (s.cluster (homeSlice (lineOf pa))).counters (lineOf pa) = none) :
    s.Atomic (s.writeOwned pa bs) ∧ ∀ q, cellByte (s.writeOwned pa bs) q = writtenByte (.dram pa) bs q (cellByte s q) := by
  obtain ⟨P, N, W, hP, hw⟩ := State.writeOwned_eq hd hc
  rw [hw]
  refine ⟨⟨rfl, fun _ => rfl, fun _ => rfl, fun q g hg => ?_⟩, fun q => ?_⟩
  · cases q with
    | dram a => exact hP g hg
    | _ => exact hg
  · cases q with
    | dram a => exact memByte_memPut_getD _ _ _ _
    | _ => rfl

/-- A write of a block's scratchpad clears marks of poison alone. -/
theorem State.writeSpad_poison {u : State} {b n : Nat} (bs : List Byte) (hb : (tget? u.blocks b).isSome = true) (q : Cell) :
    ∀ g ∈ (u.writeCell (.spad b n) bs).cellPoison q, g ∈ u.cellPoison q := by
  intro g hg
  cases q with
  | spad y a =>
    simp only [State.cellPoison, State.writeCell, State.block_modBlock _ _ _ _ hb] at hg ⊢
    split at hg
    · subst y; exact List.mem_of_mem_filter hg
    · exact hg
  | lanep y a =>
    simp only [State.cellPoison, State.writeCell, State.block_modBlock _ _ _ _ hb] at hg ⊢
    split at hg
    · subst y; exact hg
    · exact hg
  | _ => exact hg

/-- The write of a word: its bytes, and nothing else. -/
theorem State.AtomicWord.rmwWrite {u : State} {z : Nat} {c : Cell} (h : u.AtomicWord z c) (ha : u.waveAlive = true) {bs : List Byte}
    (hz : bs.length = z) : u.Atomic (u.rmwWrite c bs) ∧ ∀ q, cellByte (u.rmwWrite c bs) q = writtenByte c bs q (cellByte u q) := by
  rcases h.place with ⟨pa, rfl, -, hd, hc⟩ | ⟨b, n, rfl, hb⟩
  · let v := u.modCore u.curWave.core (fun x => { x with nextWrite := (u.core u.curWave.core).nextWrite + 1 })
    have hv : u.sameArch v := State.modCore_same _ _ _ (State.sameArch_refl _)
    obtain ⟨howned, hbytes⟩ := State.writeOwned_atomic (s := v) (pa := pa) (bs := bs) (fun k hk => hd k (hz ▸ hk)) hc
    have hperf : (v.writeOwned pa bs).sameArch (u.rmwWrite (.dram pa) bs) := State.perform_same _ _ _ _ _ _
    refine ⟨((State.Atomic.of_sameArch hv).trans howned).trans (State.Atomic.of_sameArch hperf), fun q => ?_⟩
    rw [cellByte_sameArch hperf, hbytes, cellByte_sameArch hv]
  · exact ⟨⟨rfl, fun _ => rfl, fun k => tget?_tmodify_isSome _ _ _ _, State.writeSpad_poison bs hb⟩, cellByte_writeSpad bs ha hb⟩

/-- An access of a word that writes nothing changes nothing that a program sees. -/
theorem State.rmwTouch_same (s : State) (z : Nat) (c : Cell) : s.sameArch (s.rmwTouch z c) := by
  simp only [State.rmwTouch]
  split
  · exact State.enterSlice_same _ _ _ _ _ (State.sameArch_refl _)
  · exact State.sameArch_refl _

/-! Groups of lanes (R172). -/

/-- The value that a group leaves in a word. -/
def groupLeaves (f : Group) (z m : Nat) (ls : List Nat) : Nat :=
  match (f m ls).2 with
  | some v => v % 256 ^ z
  | none => m

/-- What a group does with its word: it stores a value, or touches the word alone. -/
def State.storeBack (s : State) (z : Nat) (c : Cell) : Option Nat → State
  | some v => s.rmwWrite c (leBytes z v)
  | none => s.rmwTouch z c

/-- One group on a word: it stores its value, and gives each lane the value it found. -/
theorem State.AtomicWord.rmwGroup {u : State} {z : Nat} {c : Cell} (h : u.AtomicWord z c) (ha : u.waveAlive = true) (f : Group) (ls : List Nat)
    (res : RmwResult) : ∃ v, u.rmwGroup z f c ls res = (v, { res with olds := res.olds ++ (f (u.readCell c z).1 ls).1 }) ∧ u.Atomic v ∧
      (v.readCell c z).1 = groupLeaves f z (u.readCell c z).1 ls ∧ ∀ q, byteIn z c q = none → cellByte v q = cellByte u q := by
  have hgo : u.rmwGroup z f c ls res =
      (u.storeBack z c (f (u.readCell c z).1 ls).2, { res with olds := res.olds ++ (f (u.readCell c z).1 ls).1 }) := by
    have hclean := h.clean
    rcases h.place with ⟨pa, rfl, hl, -, -⟩ | ⟨b, n, rfl, -⟩
    · simp only [State.rmwGroup, hclean, hl, Bool.or_self, Bool.false_eq_true, if_false]
      rfl
    · simp only [State.rmwGroup, hclean, Bool.or_self, Bool.false_eq_true, if_false]
      rfl
  rw [hgo, groupLeaves]
  cases (f (u.readCell c z).1 ls).2 with
  | none =>
    have hs := u.rmwTouch_same z c
    exact ⟨_, rfl, State.Atomic.of_sameArch hs, State.readCell_congr (fun k _ => cellByte_sameArch hs _), fun q _ => cellByte_sameArch hs q⟩
  | some v =>
    obtain ⟨hat, hbytes⟩ := h.rmwWrite ha (leBytes_length z v)
    refine ⟨_, rfl, hat, ?_, fun q hq => ?_⟩
    · have hread := State.readCell_of_bytes (u := u.rmwWrite c (leBytes z v)) (c := c) (leBytes z v) (fun k hk => by
        rw [hbytes, writtenByte_cellPlus _ hk])
      rwa [leBytes_length, leNat_leBytes] at hread
    · exact (hbytes q).trans (writtenByte_of_none _ (by rw [leBytes_length]; exact hq))

/-- The groups of a read-modify-write, in order. -/
def State.rmwGroups (s : State) (z : Nat) (f : Group) (gs : List (Cell × List Nat)) (res : RmwResult) : State × RmwResult :=
  gs.foldl (fun acc g => acc.1.rmwGroup z f g.1 g.2 acc.2) (s, res)

/-- Groups at different words: each finds and leaves what it would alone. -/
theorem State.rmwGroups_spec {u : State} {z : Nat} (f : Group) {gs : List (Cell × List Nat)} (res : RmwResult) (ha : u.waveAlive = true)
    (hw : ∀ g ∈ gs, u.AtomicWord z g.1) (hne : (gs.map Prod.fst).Nodup) : ∃ v, u.rmwGroups z f gs res =
      (v, { res with olds := res.olds ++ gs.flatMap (fun g => (f (u.readCell g.1 z).1 g.2).1) }) ∧ u.Atomic v ∧
      (∀ g ∈ gs, (v.readCell g.1 z).1 = groupLeaves f z (u.readCell g.1 z).1 g.2) ∧
      ∀ q, (∀ g ∈ gs, byteIn z g.1 q = none) → cellByte v q = cellByte u q := by
  induction gs generalizing u res with
  | nil => exact ⟨u, by simp [State.rmwGroups], State.Atomic.refl u, nofun, fun _ _ => rfl⟩
  | cons g gs ih =>
    obtain ⟨hg, hrest⟩ := List.nodup_cons.1 hne
    have hgw := hw g List.mem_cons_self
    obtain ⟨v, hv, hat, hread, hbytes⟩ := hgw.rmwGroup ha f g.2 res
    have hapart (x : Cell × List Nat) (hx : x ∈ gs) {k : Nat} (hk : k < z) : byteIn z x.1 (cellPlus g.1 k) = none :=
      byteIn_of_aligned (fun e => hg (e ▸ List.mem_map_of_mem hx)) hgw.aligned (hw x (List.mem_cons_of_mem _ hx)).aligned hk
    have hapart' (x : Cell × List Nat) (hx : x ∈ gs) {k : Nat} (hk : k < z) : byteIn z g.1 (cellPlus x.1 k) = none :=
      byteIn_of_aligned (fun e => hg (e ▸ List.mem_map_of_mem hx)) (hw x (List.mem_cons_of_mem _ hx)).aligned hgw.aligned hk
    have hsame (x : Cell × List Nat) (hx : x ∈ gs) : (v.readCell x.1 z).1 = (u.readCell x.1 z).1 :=
      State.readCell_congr (fun k hk => hbytes _ (hapart' x hx hk))
    obtain ⟨w, hw', hat', hread', hbytes'⟩ := ih (u := v) { res with olds := res.olds ++ (f (u.readCell g.1 z).1 g.2).1 } (hat.waveAlive.trans ha)
      (fun x hx => (hw x (List.mem_cons_of_mem _ hx)).mono hat) hrest
    refine ⟨w, ?_, hat.trans hat', fun x hx => ?_, fun q hq => ?_⟩
    · have holds : gs.flatMap (fun g => (f (v.readCell g.1 z).1 g.2).1) = gs.flatMap (fun g => (f (u.readCell g.1 z).1 g.2).1) :=
        List.flatMap_congr (fun x hx => by rw [hsame x hx])
      have hstep : u.rmwGroups z f (g :: gs) res = v.rmwGroups z f gs { res with olds := res.olds ++ (f (u.readCell g.1 z).1 g.2).1 } := by
        rw [State.rmwGroups, List.foldl_cons, hv]; rfl
      rw [hstep, hw', holds, List.flatMap_cons, List.append_assoc]
    · rcases List.mem_cons.1 hx with rfl | hx
      · rw [State.readCell_congr (s := v) (fun k hk => hbytes' _ (fun y hy => hapart y hy hk)), hread]
      · rw [hread' x hx, hsame x hx]
    · rw [hbytes' q (fun y hy => hq y (List.mem_cons_of_mem _ hy)), hbytes q (hq g List.mem_cons_self)]

end Sys2Proof.Machine

namespace Sys2Proof.Machine
open Sys2Proof.Claims

/-! Atomics, compare-and-swaps and reductions (R172 to R176). -/

/-- Reading lines at their owners enters nothing in a write queue. -/
def State.sameQueues (s u : State) : Prop := ∀ k, (u.core k).wq = (s.core k).wq

theorem State.sameQueues_modCore {s u : State} (h : s.sameQueues u) (c : Nat) {f : Core → Core} (hf : ∀ x, (f x).wq = x.wq) :
    s.sameQueues (u.modCore c f) := by
  intro k
  rw [State.core_modCore]
  split
  · subst k; rw [hf]; exact h _
  · exact h k
theorem State.sameQueues_dropL1 {s u : State} (h : s.sameQueues u) (line core : Nat) : s.sameQueues (u.dropL1 line core) := by
  simp only [State.dropL1]
  split
  · exact State.sameQueues_modCore h _ (fun _ => rfl)
  · exact h
theorem State.sameQueues_dropPart {s u : State} (h : s.sameQueues u) (stack k : Nat) : s.sameQueues (u.dropPart stack k) := by
  refine List.foldlRecOn (motive := fun v : State => s.sameQueues v) _ _ h (fun v hv l _ => ?_)
  split
  · exact hv
  · exact hv
theorem State.sameQueues_dropOwn {s u : State} (h : s.sameQueues u) (core line : Nat) (ks : List Nat) :
    s.sameQueues (u.dropOwn core line ks) := by
  refine List.foldlRecOn (motive := fun v : State => s.sameQueues v) _ _ ?_ (fun v hv k _ => ?_)
  · split
    · exact State.sameQueues_dropL1 h _ _
    · exact h
  · split
    · exact hv
    · exact State.sameQueues_dropPart hv _ _
theorem State.sameQueues_recordDeps {s u : State} (h : s.sameQueues u) (core line : Nat) : s.sameQueues (u.recordDeps core line) := by
  simp only [State.recordDeps]
  split
  · exact h
  · exact State.sameQueues_modCore h _ (fun _ => rfl)
theorem State.sameQueues_noteRead {s u : State} (h : s.sameQueues u) (core line : Nat) (v : LineView) :
    s.sameQueues (u.noteRead core line v) := by
  simp only [State.noteRead]
  split
  · exact h
  · exact State.sameQueues_modCore h _ (fun _ => rfl)

/-- Lines that can all be read at their owners enter nothing in a write queue. -/
theorem State.sameQueues_rmwLines (s : State) (c : AccessClass) (z : Nat) (cells : List (Nat × Dword × Cell))
    (h : (s.rmwLines c z cells).2 = true) : s.sameQueues (s.rmwLines c z cells).1 := by
  refine List.foldlRecOn (motive := fun (a : State × Bool) => a.2 = true → s.sameQueues a.1) _ _ (fun _ _ => rfl) (fun a ha line _ => ?_) h
  dsimp only
  split
  · exact ha
  split
  · exact fun hf => by cases hf
  · exact fun hok => State.sameQueues_noteRead (State.sameQueues_recordDeps (State.sameQueues_dropOwn (ha hok) _ _ _) _ _) _ _ _

/-- The state in which the groups of a read-modify-write find their words. -/
def State.rmwBase (s : State) (opc : Nat) (r : MemReq) (cells : List (Nat × Dword × Cell)) : State :=
  let s1 := ((s.cacheAll r).rmwLines (s.accessClass opc) r.z cells).1
  (if (s.accessClass opc).release then s1.released s.curWave.core (s.accessClass opc).level else s1).scratchDeps r.space

theorem State.rmwBase_same (s : State) (opc : Nat) (r : MemReq) (cells : List (Nat × Dword × Cell)) : s.sameArch (s.rmwBase opc r cells) := by
  have h1 : s.sameArch ((s.cacheAll r).rmwLines (s.accessClass opc) r.z cells).1 :=
    of_fst_same (State.rmwLines_same _ _ _ _ (State.cacheAll_same _ _ (State.sameArch_refl _)))
  refine State.scratchDeps_same _ _ ?_
  split
  · exact State.released_same _ _ _ h1
  · exact h1

/-- The old value of a lane among those that the groups gave. -/
def oldIn (olds : List (Nat × Nat)) (l : Nat) : Nat := ((olds.find? (fun p => p.1 = l)).map Prod.snd).getD 0

/-- A read-modify-write whose checks pass, that has nothing to wait for, performs its groups and writes what they found. -/
theorem State.rmwFlow_performs {s v : State} {opc : Nat} {r : MemReq} {f : Group} {cells : List (Nat × Dword × Cell)} {olds : List (Nat × Nat)}
    (ld : Option LoadDst) (empty : State) (put : State → (Nat → Nat) → State) (hm : s.activeMask ≠ 0) (hh : s.held r.space = false)
    (hq : s.acquiring s.curWave = false) (hc : s.check r = .ok cells) (hl : s.curWave.loads = [])
    (hg : (s.accessClass opc).release = true → (s.gate (s.accessClass opc).level true false).isNone = true)
    (hsw : (s.scratchWait r.space (s.accessClass opc)).isNone = true)
    (hroom : r.space = .global → (s.core s.curWave.core).wq.length + (groupCells cells).length ≤ 64)
    (hready : ((s.cacheAll r).rmwLines (s.accessClass opc) r.z cells).2 = true)
    (hgroups : (s.rmwBase opc r cells).rmwGroups r.z f (groupCells cells) {} = (v, { olds := olds })) :
    s.rmwFlow opc r f ld empty put = (put v (oldIn olds)).finishYield := by
  have hgate : (if (s.accessClass opc).release then s.gate (s.accessClass opc).level true false else none) = none := by
    split
    · exact Option.isNone_iff_eq_none.1 (hg ‹_›)
    · rfl
  have hwq : (((s.cacheAll r).rmwLines (s.accessClass opc) r.z cells).1.core s.curWave.core).wq = (s.core s.curWave.core).wq :=
    (State.sameQueues_rmwLines _ _ _ _ hready _).trans (s.cacheAll_wq r _)
  have hfull : (!((s.cacheAll r).rmwLines (s.accessClass opc) r.z cells).2 || (r.space == MSpace.global &&
      !(((s.cacheAll r).rmwLines (s.accessClass opc) r.z cells).1.core s.curWave.core).room (groupCells cells).length)) = false := by
    rw [hready, Core.room, hwq]
    cases hsp : r.space == MSpace.global with
    | false => rfl
    | true => simp only [hroom (by simpa using hsp), decide_true, Bool.not_true, Bool.and_false, Bool.or_self]
  have hfold := hgroups
  rw [State.rmwGroups, State.rmwBase] at hfold
  simp only [State.rmwFlow, if_neg hm, State.heldWrite, hh, hq, hc, hl, hgate, Option.isNone_iff_eq_none.1 hsw, hfull, hfold,
    List.isEmpty_nil, Bool.not_true, Bool.false_and, Bool.false_eq_true, if_false]
  rfl

end Sys2Proof.Machine

namespace Sys2Proof.Machine
open Sys2Proof.Claims

/-! Results of read-modify-writes (R175, R176). -/

/-- The wave after a vector result. -/
theorem State.curWave_putV {s : State} (d : VDst) (wide : Bool) (f : Nat → Dword) (h : s.waveAlive = true) : ∃ vs cs ls,
    (s.putV d wide f).curWave = { s.curWave with vregs := vs, struck := cs, latches := ls } ∧
    ∀ r l, l < 32 → tgetD vs (r * 32 + l) 0 = s.curWave.vregAfter s.activeMask d wide f r l := by
  cases d with
  | reg q =>
    let t := s.modCur (fun w => { w with vregs := setVLanes wide q.val s.activeMask f w.vregs, struck := mendV wide q.val s.activeMask w.struck })
    obtain ⟨ls, hl⟩ := State.curWave_latchResult (s := t) (.vec wide ((List.range 32).map (fun l => t.curWave.vlane wide q.val l)))
      (by rw [State.waveAlive_modCur]; exact h)
    refine ⟨_, mendV wide q.val s.activeMask s.curWave.struck, ls, ?_, fun r l hl => s.curWave.vreg_setVLanes s.activeMask wide q f r l hl⟩
    rw [show s.putV (.reg q) wide f = t.latchResult _ from rfl, hl, s.curWave_modCur _ h]
  | nw =>
    obtain ⟨ls, hl⟩ := State.curWave_latchResult (s := s) (.vec wide ((List.range 32).map (fun l => if s.activeMask.getLsbD l then f l else 0))) h
    exact ⟨s.curWave.vregs, s.curWave.struck, ls, hl, fun _ _ _ => rfl⟩
theorem State.onlyCur_putV (s : State) (d : VDst) (wide : Bool) (f : Nat → Dword) : s.onlyCur (s.putV d wide f) := by
  cases d with
  | reg q => exact State.onlyCur_latchResult _ _ _ (State.onlyCur_modCur _ _ _ s.onlyCur_refl)
  | nw => exact State.onlyCur_latchResult _ _ _ s.onlyCur_refl

/-- A word of a value of 64 bits. -/
theorem ofNat_word_low (n : Nat) : (BitVec.ofNat 64 n).setWidth 32 = BitVec.ofNat 32 n := by
  refine BitVec.eq_of_toNat_eq ?_
  simp only [BitVec.toNat_setWidth, BitVec.toNat_ofNat]
  omega
theorem ofNat_word_high (n : Nat) : (BitVec.ofNat 64 n).extractLsb' 32 32 = BitVec.ofNat 32 (n / 2 ^ 32) := by
  refine BitVec.eq_of_toNat_eq ?_
  simp only [BitVec.extractLsb'_toNat, BitVec.toNat_ofNat, Nat.shiftRight_eq_div_pow]
  omega

/-- The four words of a quad in the lanes of a mask. -/
theorem tgetD_setQuad (m : LaneMask) (q : Nat) (f : Nat → Nat) (t : Tbl Word) (r l : Nat) (hl : l < 32) :
    tgetD (setVLanes true (4 * q + 2) m (fun l => BitVec.ofNat 64 (f l / 2 ^ 64)) (setVLanes true (4 * q) m (fun l => BitVec.ofNat 64 (f l)) t))
      (r * 32 + l) 0 = if m.getLsbD l = true ∧ 4 * q ≤ r ∧ r < 4 * q + 4 then BitVec.ofNat 32 (f l / 2 ^ (32 * (r - 4 * q)))
        else tgetD t (r * 32 + l) 0 := by
  simp only [setVLanes, tgetD_setVLanes _ _ _ _ _ _ (LaneMask.lanes_lt m) _ hl, LaneMask.mem_lanes m l hl, true_and, ofNat_word_low,
    ofNat_word_high, Nat.div_div_eq_div_mul, ← Nat.pow_add]
  by_cases hm : m.getLsbD l = true
  · simp only [hm, true_and]
    by_cases hr : 4 * q ≤ r ∧ r < 4 * q + 4
    · rw [if_pos hr]
      obtain h | h | h | h : r = 4 * q ∨ r = 4 * q + 1 ∨ r = 4 * q + 2 ∨ r = 4 * q + 3 := by omega
      · subst h; rw [if_neg (by omega), if_neg (by omega), if_pos rfl]; simp
      · subst h; simp
      · subst h; simp
      · subst h; simp
    · rw [if_neg hr, if_neg (by omega), if_neg (by omega), if_neg (by omega), if_neg (by omega)]
  · simp only [hm]; rfl

section
variable {s v : State} (ha : s.waveAlive = true) (hm : s.activeMask ≠ 0) (hv : v.waves = s.begun.waves) (hi : v.issue = s.issue)
  (old : Nat → Nat)
include ha hm hv hi

/-- Writing the old values changes registers and their errors and the latches of the wave, and gives the result. -/
theorem destPut_result (dst : Dest) : v.onlyCur (destPut s dst v old) ∧
    (∃ vs ss cs ls, (destPut s dst v old).curWave = { v.curWave with vregs := vs, sregs := ss, struck := cs, latches := ls }) ∧
    resultIn s (destPut s dst v old) dst old (if etIsInt s.etype then extend64 s.etype (old 32) else BitVec.ofNat 64 (old 32)) := by
  have hw : v.curWave = { s.curWave with resumed := false } := by
    rw [← s.begun_curWave, State.curWave, State.curWave, hi, hv]; rfl
  have hav : v.waveAlive = true := by rw [← ha, ← s.begun_alive, State.waveAlive, State.waveAlive, hi, hv]; rfl
  have hmask : v.activeMask = s.activeMask := by
    rw [State.activeMask, State.activeMask, hi, hw]; rfl
  cases dst with
  | vec d =>
    obtain ⟨vs, cs, ls, hput, hr⟩ := State.curWave_putV d (etIs64 s.etype) (fun l => BitVec.ofNat 64 (old l)) hav
    refine ⟨State.onlyCur_putV _ _ _ _, ⟨vs, v.curWave.sregs, cs, ls, hput⟩, ?_⟩
    simp only [resultIn, destPut, hput]
    rw [hmask, hw] at hr
    exact ⟨hr, by rw [hw]⟩
  | scalar d =>
    obtain ⟨ss, cs, ls, hput, hr⟩ := State.curWave_putS d (if etIsInt s.etype then extend64 s.etype (old 32) else BitVec.ofNat 64 (old 32)) hav
    refine ⟨State.onlyCur_putS v.onlyCur_refl _ _, ⟨v.curWave.vregs, ss, cs, ls, hput⟩, ?_⟩
    simp only [resultIn, destPut, hput]
    simp only [hmask, ne_eq, hm, not_false_eq_true, true_and, hw] at hr
    exact ⟨hr, by rw [hw]; rfl⟩
  | quad q =>
    have hput := v.curWave_modCur (fun w => { w with
      vregs := setVLanes true (4 * q.val + 2) v.activeMask (fun l => BitVec.ofNat 64 (old l / 2 ^ 64))
        (setVLanes true (4 * q.val) v.activeMask (fun l => BitVec.ofNat 64 (old l)) w.vregs),
      struck := mendV true (4 * q.val + 2) v.activeMask (mendV true (4 * q.val) v.activeMask w.struck) }) hav
    refine ⟨State.onlyCur_modCur _ _ _ v.onlyCur_refl, ⟨_, v.curWave.sregs, _, v.curWave.latches, hput⟩, ?_⟩
    simp only [resultIn, destPut, State.putQuad, hput]
    refine ⟨fun r l hl => (tgetD_setQuad _ _ _ _ _ _ hl).trans ?_, by rw [hw]⟩
    rw [hmask, hw]; rfl
  | none =>
    refine ⟨v.onlyCur_refl, ⟨v.curWave.vregs, v.curWave.sregs, v.curWave.struck, v.curWave.latches, rfl⟩, ?_⟩
    show v.curWave.vregs = s.curWave.vregs ∧ v.curWave.sregs = s.curWave.sregs
    rw [hw]; exact ⟨rfl, rfl⟩

end

/-! The words of a read-modify-write. -/

theorem groupCells_fst (cells : List (Nat × Dword × Cell)) : (groupCells cells).map Prod.fst = (cells.map (fun p => p.2.2)).dedup := by
  rw [groupCells, List.map_map]; exact List.map_id _
theorem groupCells_nodup (cells : List (Nat × Dword × Cell)) : ((groupCells cells).map Prod.fst).Nodup := by
  rw [groupCells_fst]; exact List.nodup_dedup _
theorem mem_groupCells {cells : List (Nat × Dword × Cell)} {g : Cell × List Nat} (h : g ∈ groupCells cells) : ∃ p ∈ cells, p.2.2 = g.1 := by
  have hg : g.1 ∈ (groupCells cells).map Prod.fst := List.mem_map_of_mem h
  rw [groupCells_fst, List.mem_dedup, List.mem_map] at hg
  exact hg

/-- The request of a read-modify-write: one word of 4, 8 or 16 bytes, in DRAM or in cluster memory. -/
theorem atomicRow_request {s : State} {i : Instr} {opc : Nat} {r : MemReq} {f : Group} {dst : Dest}
    (h : atomicRow s i = some (opc, r, f, dst)) :
    r.window = false ∧ (r.space = .global ∨ r.space = .cluster) ∧ (r.z = wordBytes s.etype ∨ r.z = 16) := by
  unfold atomicRow at h
  split at h <;> cases h
  case h_11 => exact ⟨rfl, .inl rfl, .inr rfl⟩
  case h_20 => exact ⟨rfl, .inr rfl, .inl rfl⟩
  case h_21 => exact ⟨rfl, .inr rfl, .inl rfl⟩
  all_goals exact ⟨rfl, .inl rfl, .inl rfl⟩

/-- The word of an atomic divides the cluster memory of a block. -/
theorem word_dvd {s : State} {z : Nat} (h : z = wordBytes s.etype ∨ z = 16) : 0 < z ∧ z ∣ 2 ^ 19 := by
  have hw : wordBytes s.etype = 4 ∨ wordBytes s.etype = 8 := by
    rw [wordBytes]; split <;> simp
  obtain rfl | rfl | rfl : z = 4 ∨ z = 8 ∨ z = 16 := by omega
  · exact ⟨by omega, by norm_num⟩
  · exact ⟨by omega, by norm_num⟩
  · exact ⟨by omega, by norm_num⟩

/-- Checks that pass give words that a read-modify-write can work on, if those in DRAM can be reached and none is poisoned. -/
theorem State.atomicWord_of_check {s : State} {r : MemReq} {cells : List (Nat × Dword × Cell)} (hwin : r.window = false)
    (hsp : r.space = .global ∨ r.space = .cluster) (hz : 0 < r.z ∧ r.z ∣ 2 ^ 19) (hc : s.check r = .ok cells)
    (hp : ∀ p ∈ cells, (s.readCell p.2.2 r.z).2 = false ∧ ∀ pa, inDram p.2.2 = some pa → s.homeLost pa = false ∧ pa % r.z = 0 ∧
      (∀ k, k < r.z → s.deviceByte (pa + k) = false) ∧ tget? (s.cluster (homeSlice (lineOf pa))).counters (lineOf pa) = none) :
    ∀ p ∈ cells, s.AtomicWord r.z p.2.2 := by
  intro p hmem
  obtain ⟨hal, hlanes, hplace⟩ := State.check_ok hc
  obtain ⟨hclean, hdram⟩ := hp p hmem
  have hpl := hplace p hmem
  rw [State.placeOf] at hpl
  rcases hsp with hsp | hsp
  · rw [if_pos (by simp [hsp])] at hpl
    rcases State.globalCell_ok hpl with ⟨pa, hpa⟩ | ⟨hw, -⟩
    · obtain ⟨hl, ha, hd, hcnt⟩ := hdram pa (by rw [hpa]; rfl)
      exact ⟨by rw [hpa]; exact ha, hclean, .inl ⟨pa, hpa, hl, hd, hcnt⟩⟩
    · rw [hwin] at hw; cases hw
  · rw [if_neg (by simp [hsp]), hsp] at hpl
    rcases State.scratchCell_ok hpl with ⟨hst, -⟩ | ⟨hst, -⟩ | ⟨-, -, b, n, hbn, hsize, hn⟩
    · cases hst
    · cases hst
    · have hva : p.2.1.toNat % r.z = 0 := hal _ (hlanes ▸ List.mem_map_of_mem (f := fun c : Nat × Dword × Cell => (c.1, c.2.1)) hmem)
      refine ⟨?_, hclean, .inr ⟨b, n, hbn, State.blockResident_of_pos hz.1 (.inl hsize)⟩⟩
      rw [hbn]
      rcases hn with rfl | rfl
      · exact hva
      · exact (Nat.mod_mod_of_dvd _ hz.2).trans hva

/-- Settles O26: the groups work on words that have no byte in common, and the wave takes what they found. -/
theorem atomicsComplete : Obligations.AtomicsComplete := by
  intro i s opc r f dst cells hrow hi hm hh hq hc hl hg hsw hroom hready hp
  obtain ⟨hwin, hsp, hz⟩ := atomicRow_request hrow
  obtain ⟨ld, empty, hx⟩ := exec_atomicRow hrow hi
  have hbase := s.begun.rmwBase_same opc r cells
  have hwords : ∀ p ∈ cells, s.begun.AtomicWord r.z p.2.2 :=
    State.atomicWord_of_check hwin hsp (word_dvd hz) hc (fun p hmem => by rw [s.begun_readCell]; exact hp p hmem)
  have halive : (s.begun.rmwBase opc r cells).waveAlive = true := by
    rw [State.waveAlive_sameArch hbase, s.begun_alive]; exact hi.1
  obtain ⟨v, hv, hat, hread, hbytes⟩ := State.rmwGroups_spec f {} halive (gs := groupCells cells) (fun g hgc => by
    obtain ⟨p, hmem, he⟩ := mem_groupCells hgc
    exact he ▸ (hwords p hmem).mono (State.Atomic.of_sameArch hbase)) (groupCells_nodup cells)
  have hsame (q : Cell) : cellByte (s.begun.rmwBase opc r cells) q = cellByte s q := by rw [cellByte_sameArch hbase, cellByte_begun]
  have hfound (c : Cell) : ((s.begun.rmwBase opc r cells).readCell c r.z).1 = (s.readCell c r.z).1 :=
    State.readCell_congr (fun k _ => hsame _)
  simp only [hfound] at hread
  have holds : ([] : List (Nat × Nat)) ++ (groupCells cells).flatMap (fun g => (f ((s.begun.rmwBase opc r cells).readCell g.1 r.z).1 g.2).1) =
      (groupCells cells).flatMap (fun g => (f (s.readCell g.1 r.z).1 g.2).1) := by
    rw [List.nil_append]; exact List.flatMap_congr (fun g _ => by rw [hfound])
  have hfrom : s.begun.Atomic v := (State.Atomic.of_sameArch hbase).trans hat
  obtain ⟨hon, ⟨vs, ss, cs, ls, hw⟩, hres⟩ := destPut_result hi.1 hm hfrom.waves (hfrom.issue.trans s.begun_issue)
    (oldOf s r.z f cells) dst
  have hplace (q : Cell) : cellByte (destPut s dst v (oldOf s r.z f cells)) q = cellByte v q :=
    cellByte_onlyCur hon (by rw [hw]) q
  have hwave : v.curWave = { s.curWave with resumed := false } := hfrom.curWave.trans s.begun_curWave
  refine ⟨destPut s dst v (oldOf s r.z f cells), ?_, hres, fun g hgc => ?_, fun q hq => ?_, fun k hk => ?_, ?_, ?_, ?_, ?_, ?_⟩
  · rw [hx, State.rmwFlow_performs ld empty (destPut s dst) (by rwa [s.begun_activeMask]) hh hq hc (by rw [s.begun_curWave]; exact hl) hg hsw
      (by rw [s.begun_core]; exact hroom) hready hv]
    have hold : oldIn (([] : List (Nat × Nat)) ++
        (groupCells cells).flatMap (fun g => (f ((s.begun.rmwBase opc r cells).readCell g.1 r.z).1 g.2).1)) = oldOf s r.z f cells := by
      funext l; rw [oldIn, oldOf, holds]
    exact congrArg (fun o => (.next (destPut s dst v o).finishYield : Host.Outcome State Fault Refusal)) hold
  · exact (State.readCell_congr (fun k _ => hplace _)).trans (hread g hgc)
  · rw [hplace, hbytes q (fun g hgc => ?_), hsame]
    obtain ⟨p, hmem, he⟩ := mem_groupCells hgc
    exact he ▸ hq p hmem
  · rw [hon.2 k (by rw [hfrom.issue]; exact hk), hfrom.waves]
    exact s.onlyCur_begun.2 k hk
  · rw [hw, hwave]
  · rw [hw, hwave]
  · rw [hw, hwave]
  · exact (congrArg State.launches hon.1 :).trans hfrom.launches
  · exact (congrArg State.clk hon.1 :).trans hfrom.clk

end Sys2Proof.Machine

namespace Sys2Proof.Machine
open Sys2Proof.Claims

/-! What a matrix instruction changes before its command enters the queue: caches' records, tiles, windows, drain records and slots. -/

/-- A block but for its tiles and windows. -/
def Block.untiled (b : Block) : Block := { b with tiles := [], windows := [] }

/-- The bytes and accumulator elements of a block. -/
def Block.contents (b : Block) : Tbl Byte × Tbl Word × Tbl Byte := (b.scratch, b.acc, b.lanes)

/-- A wave but for its count of engine work and the mark of a resumed wave. -/
def Wave.unworked (w : Wave) : Wave := { w with engPending := 0, resumed := false }

/-- A touch of a window changes tiles and windows of blocks, and counts engine work of the wave that issues. -/
theorem State.touch_keeps {P : State → Prop}
    (hblock : ∀ u k f, (∀ b : Block, (f b).untiled = b.untiled) → P u → P (u.modBlock k f))
    (hcur : ∀ u : State, P u → P (u.modCur (fun w => { w with engPending := w.engPending + 1 }))) {u : State} (hu : P u) (b w : Nat)
    (byMma : Bool) : P (u.touch b w byMma) := by
  have hgo {v : State} (f : Window → Window) (hv : P v) :
      P ((v.modWindow b w f).modCur (fun w => { w with engPending := w.engPending + 1 })) := hcur _ (hblock _ _ _ (fun _ => rfl) hv)
  have htiles {v : State} (k : Nat) (ts : List Nat) (f : Tile → Tile) (hv : P v) : P (v.modTiles k ts f) :=
    hblock _ _ _ (fun x => by obtain ⟨y, e⟩ := x.modTiles_frame ts f; rw [e]; rfl) hv
  simp only [State.touch]
  split
  · exact hu
  split
  · exact hgo _ hu
  · exact hgo _ (List.foldlRecOn (motive := P) _ _ hu (fun v hv k _ => htiles k _ _ hv))

/-- The taking of one operand tile of a command (R197, R198). -/
def State.takeTile (b : Nat) (mark : Bool) (u : State) (t : Nat) : State :=
  let cnt (x : Tile) : Tile := { x with count := x.count + 1, mark := x.mark || mark }
  match (u.mxTile t).1 with
  | some w => (u.touch b w true).modTiles b [t] cnt
  | none => u.modTiles b [t] (fun x => cnt { x with engine := true, holder := .matrix })

theorem State.takeTiles_eq_foldl (s : State) (ts : List Nat) (mark : Bool) :
    s.takeTiles ts mark = ts.foldl (State.takeTile s.curBlockId mark) s := rfl

/-- Taking tiles changes no more than touching windows does. -/
theorem State.takeTiles_keeps {P : State → Prop}
    (hblock : ∀ u k f, (∀ b : Block, (f b).untiled = b.untiled) → P u → P (u.modBlock k f))
    (hcur : ∀ u : State, P u → P (u.modCur (fun w => { w with engPending := w.engPending + 1 }))) {u : State} (hu : P u) (ts : List Nat)
    (mark : Bool) : P (u.takeTiles ts mark) := by
  refine List.foldlRecOn (motive := P) ts _ hu (fun v hv t _ => ?_)
  dsimp only
  split
  · exact hblock _ _ _ (fun _ => rfl) (State.touch_keeps hblock hcur hv _ _ _)
  · exact hblock _ _ _ (fun _ => rfl) hv

/-- A change of a block keeps the part of it that it keeps in every block. -/
theorem State.block_modBlock_kept {β : Type} (g : Block → β) {f : Block → Block} (hf : ∀ x, g (f x) = g x) (s : State) (b k : Nat) :
    g ((s.modBlock b f).block k) = g (s.block k) := by
  by_cases hk : k = b
  · subst hk; exact tgetD_tmodify_kept _ _ _ _ g hf
  · exact congrArg g (tgetD_tmodify_other _ _ _ hk)

theorem State.untiled_takeTiles (s : State) (ts : List Nat) (mark : Bool) (k : Nat) :
    ((s.takeTiles ts mark).block k).untiled = (s.block k).untiled :=
  State.takeTiles_keeps (P := fun u => (u.block k).untiled = (s.block k).untiled)
    (fun _ _ _ hf hu => (State.block_modBlock_kept Block.untiled hf _ _ _).trans hu) (fun _ hu => hu) rfl ts mark

/-- A matrix instruction that issues from `s` has come to `u`, with its command not yet queued: neither memory nor an accumulator, a
scratchpad byte or another wave has changed, and of its own wave nothing but engine work. -/
structure Readied (s u : State) : Prop where
  issue : u.issue = s.issue
  clk : u.clk = s.clk
  mem : u.mem = s.mem
  queue : ∀ k, (u.core k).mq = (s.core k).mq
  resident : ∀ k, (tget? u.blocks k).isSome = (tget? s.blocks k).isSome
  block : ∀ k, (u.block k).contents = (s.block k).contents
  others : ∀ k, k ≠ s.issue.wave → tget? u.waves k = tget? s.waves k
  alive : u.waveAlive = s.waveAlive
  wave : u.curWave.unworked = s.curWave.unworked

theorem Readied.modCore {s u : State} (h : Readied s u) (k : Nat) {f : Core → Core} (hf : ∀ c, (f c).mq = c.mq) :
    Readied s (u.modCore k f) :=
  { h with
    queue := fun j => by
      rw [State.core_modCore]
      split
      · subst j; rw [hf, h.queue]
      · exact h.queue j }

theorem Readied.modBlock {s u : State} (h : Readied s u) (k : Nat) {f : Block → Block} (hf : ∀ b, (f b).contents = b.contents) :
    Readied s (u.modBlock k f) :=
  { h with
    resident := fun j => (tget?_tmodify_isSome _ _ _ _).trans (h.resident j)
    block := fun j => (State.block_modBlock_kept Block.contents hf _ _ _).trans (h.block j) }

theorem Readied.modCur {s u : State} (h : Readied s u) {f : Wave → Wave} (hf : ∀ w, (f w).unworked = w.unworked) :
    Readied s (u.modCur f) :=
  { h with
    others := fun k hk => (State.tget?_modCur_other _ _ (h.issue ▸ hk)).trans (h.others k hk)
    alive := (State.waveAlive_modCur _ _).trans h.alive
    wave := (tgetD_tmodify_kept _ _ _ _ Wave.unworked hf).trans h.wave }

theorem Readied.refl (s : State) : Readied s s := ⟨rfl, rfl, rfl, fun _ => rfl, fun _ => rfl, fun _ => rfl, fun _ _ => rfl, rfl, rfl⟩

theorem readied_begun (s : State) : Readied s s.begun := (Readied.refl s).modCur (fun _ => rfl)

theorem Readied.handed {s u : State} (h : Readied s u) (ts : List Nat) : Readied s (handed u ts) := by
  rw [Claims.handed]
  split
  · exact h
  · simp only [State.released, OfNat.one_ne_ofNat, if_false]
    exact h.modCore _ (fun _ => rfl)

theorem Readied.scratchDeps {s u : State} (h : Readied s u) (sp : MSpace) : Readied s (u.scratchDeps sp) := by
  simp only [State.scratchDeps]
  split
  · exact h
  · exact h.modCore _ (fun _ => rfl)

theorem Readied.takeTiles {s u : State} (h : Readied s u) (ts : List Nat) (mark : Bool) : Readied s (u.takeTiles ts mark) :=
  State.takeTiles_keeps (P := Readied s) (fun _ k _ hf hv => hv.modBlock k (fun b => (congrArg Block.contents (hf b) :)))
    (fun _ hv => hv.modCur (fun _ => rfl)) h ts mark

theorem Readied.curBlockId {s u : State} (h : Readied s u) : u.curBlockId = s.curBlockId := by
  have hblock : u.curWave.block = s.curWave.block := (congrArg Wave.block h.wave :)
  rw [State.curBlockId, hblock]; rfl

/-- Each tile of a command that no copy window holds is the matrix unit's, and counts the command (R197, R198). -/
def tilesTaken (s u : State) (ts : List Nat) (mark : Bool) : Prop :=
  (∀ t ∈ ts, (s.curBlock.tile t).holder = .none ∨ (s.curBlock.tile t).holder = .matrix) →
    ∀ t, (u.block s.curBlockId).tile t = if t ∈ ts
      then { s.curBlock.tile t with engine := true, holder := .matrix, count := (s.curBlock.tile t).count + 1,
                                    mark := (s.curBlock.tile t).mark || mark }
      else s.curBlock.tile t

/-- The command that enters the queue of its core. -/
theorem State.mq_pushMx (u : State) (op : MxOp) (ts : List Nat) :
    ∃ c : MxCmd, ((u.pushMx op ts).core u.curWave.core).mq = (u.core u.curWave.core).mq ++ [c] ∧ c.op = op ∧ c.wave = u.issue.wave ∧
      c.block = u.curBlockId ∧ c.tiles = ts ∧ c.enter = u.clk :=
  ⟨_, congrArg Core.mq (tgetD_tset_same _ _ _ _), rfl, rfl, rfl, rfl, rfl⟩

/-- A command enters the queue of its core behind those already there (R199). -/
theorem Readied.commandQueued {s u : State} (h : Readied s u) (ha : s.waveAlive = true) (op : MxOp) {ts : List Nat} {mark : Bool}
    (ht : tilesTaken s u ts mark) : commandQueued s (u.pushMx op ts) op ts mark := by
  have hw : (u.pushMx op ts).curWave = { u.curWave with mxPending := u.curWave.mxPending + 1 } :=
    State.curWave_modCur (u.modCore _ _) _ (h.alive.trans ha)
  have hcore : u.curWave.core = s.curWave.core := (congrArg Wave.core h.wave :)
  have hcontents (b : Nat) : (u.block b).scratch = (s.block b).scratch ∧ (u.block b).acc = (s.block b).acc ∧
      (u.block b).lanes = (s.block b).lanes := by simpa only [Block.contents, Prod.mk.injEq] using h.block b
  refine ⟨⟨h.mem, hcontents, fun k hk => ?_, ?_, ?_, ?_, ?_, ?_, ?_⟩, ?_, ?_, ht⟩
  · exact (State.tget?_modCur_other _ _ (h.issue ▸ hk)).trans (h.others k hk)
  · rw [hw]; exact (congrArg Wave.vregs h.wave :)
  · rw [hw]; exact (congrArg Wave.sregs h.wave :)
  · rw [hw]; exact (congrArg Wave.preds h.wave :)
  · rw [hw]; exact (congrArg Wave.mode h.wave :)
  · rw [hw]; exact (congrArg Wave.splits h.wave :)
  · rw [hw]; exact (congrArg Wave.latches h.wave :)
  · rw [hw]; exact (congrArg (fun w => w.mxPending + 1) h.wave :)
  · have hq := u.mq_pushMx op ts
    rwa [hcore, h.queue, h.issue, h.curBlockId, h.clk] at hq

theorem spanTiles_nodup (a n : Nat) : (spanTiles a n).Nodup := by
  rw [spanTiles]
  split
  · exact List.nodup_nil
  · exact List.Nodup.map (fun _ _ h => Nat.add_left_cancel h) List.nodup_range

/-- A tile that no window and no other engine holds is taken for the matrix unit. -/
theorem State.takeTile_of_free {u : State} {t : Nat} (h : (u.curBlock.tile t).holder = .none ∨ (u.curBlock.tile t).holder = .matrix)
    (b : Nat) (mark : Bool) : u.takeTile b mark t = u.modBlock b (Block.modTile t
      (fun x => { x with engine := true, holder := .matrix, count := x.count + 1, mark := x.mark || mark })) := by
  have hm : (u.mxTile t).1 = none := by
    rcases h with h | h <;> simp only [State.mxTile, h]
  simp only [State.takeTile, hm]
  rfl

/-- Tiles that no window and no other engine holds are all taken for the matrix unit, each once. -/
theorem State.tilesTaken_takeTiles {u : State} (hb : (tget? u.blocks u.curBlockId).isSome = true) {ts : List Nat} (hts : ts.Nodup)
    (mark : Bool) : tilesTaken u (u.takeTiles ts mark) ts mark := by
  intro hfree t
  rw [State.takeTiles_eq_foldl]
  induction ts generalizing u with
  | nil => rfl
  | cons k ts ih =>
    obtain ⟨hk, hts⟩ := List.nodup_cons.1 hts
    rw [List.foldl_cons, State.takeTile_of_free (hfree k List.mem_cons_self)]
    let f : Tile → Tile := fun x => { x with engine := true, holder := .matrix, count := x.count + 1, mark := x.mark || mark }
    let v := u.modBlock u.curBlockId (Block.modTile k f)
    have htile (j : Nat) : (v.curBlock).tile j = if j = k then f (u.curBlock.tile k) else u.curBlock.tile j := by
      rw [show v.curBlock = _ from (State.block_modBlock _ _ _ _ hb).trans (if_pos rfl)]
      exact Block.tile_modTile _ _ _ _
    have hrest := ih (u := v) ((tget?_tmodify_isSome _ _ _ _).trans hb) hts (fun j hj => by
      rw [htile, if_neg (ne_of_mem_of_not_mem hj hk)]
      exact hfree j (List.mem_cons_of_mem _ hj))
    refine hrest.trans ?_
    rw [htile]
    by_cases hj : t = k
    · subst hj; simp [hk, f]
    · simp [hj]

/-- Tiles are taken of the block as it stood when the instruction issued. -/
theorem Readied.tilesTaken {s u : State} (h : Readied s u) (hblocks : u.blocks = s.blocks) (hb : blockHere s) {ts : List Nat}
    (hts : ts.Nodup) (mark : Bool) : tilesTaken s (u.takeTiles ts mark) ts mark := by
  have hid := h.curBlockId
  have hcur : u.curBlock = s.curBlock := by simp only [State.curBlock, State.block, hid, hblocks]
  have ht := State.tilesTaken_takeTiles (u := u) (by rw [hid, hblocks]; exact hb.2) hts mark
  rwa [Machine.tilesTaken, hcur, hid] at ht

/-- A change of the block that keeps its tiles. -/
theorem tilesTaken.modBlock {s u : State} {ts : List Nat} {mark : Bool} (h : tilesTaken s u ts mark) (k : Nat) {f : Block → Block}
    (hf : ∀ b, (f b).tiles = b.tiles) : tilesTaken s (u.modBlock k f) ts mark :=
  fun hfree t => (State.block_modBlock_kept (fun b => b.tile t) (fun b => by simp only [Block.tile, hf]) _ _ _).trans (h hfree t)

@[simp] theorem handed_blocks (s : State) (ts : List Nat) : (handed s ts).blocks = s.blocks := by
  rw [Claims.handed]; split <;> rfl
@[simp] theorem handed_issue (s : State) (ts : List Nat) : (handed s ts).issue = s.issue := by
  rw [Claims.handed]; split <;> rfl
@[simp] theorem State.scratchDeps_blocks (s : State) (sp : MSpace) : (s.scratchDeps sp).blocks = s.blocks := by
  simp only [State.scratchDeps]; split <;> rfl

/-! A matrix instruction's checks before its effect (R192, R193, R197, R199). -/

theorem mxIssue_issues {i : Instr} {s : State} (body : State → State) (hi : s.issues i) (hm : s.activeMask ≠ 0)
    (hq : (s.core s.curWave.core).mq.length < 16) (hacq : s.begun.acquiring s.begun.curWave = false) :
    mxIssue i s body = .next (body s.begun) := by
  have hfull : (decide (16 ≤ (s.begun.core s.begun.curWave.core).mq.length) || s.begun.acquiring s.begun.curWave) = false := by
    rw [hacq, s.begun_core, Bool.or_false]
    exact decide_eq_false (Nat.not_le.2 hq)
  rw [mxIssue, issueOp_issues _ _ _ hi, s.begun_activeMask, if_neg hm, hfull]
  rfl

theorem State.failIf_false (s : State) (c d : Nat) : s.failIf false c d = none := rfl

theorem firstTrap_eq_none {ts : List (Option TrapInfo)} (h : ∀ t ∈ ts, t = none) : firstTrap ts = none :=
  List.findSome?_eq_none_iff.2 h

theorem State.mxAddrCheck_eq_none {s : State} {xs : List (Dword × Nat)} (h : ∀ p ∈ xs, operandInside s p.1.toNat p.2) :
    s.mxAddrCheck xs = none := by
  have hsize : xs.find? (fun p => s.curBlock.size < p.1.toNat + p.2) = none :=
    List.find?_eq_none.2 (fun p hp => by simpa using (h p hp).2)
  have halign : xs.find? (fun p => p.1.toNat % 128 != 0) = none :=
    List.find?_eq_none.2 (fun p hp => by simp [(h p hp).1])
  simp only [State.mxAddrCheck, hsize, halign, Option.map_none]

theorem State.mxTileCheck_eq_none {s : State} {ts : List Nat} (h : tilesFree s ts) (a : Dword) : s.mxTileCheck a ts = none := by
  have hfind : ts.find? (fun t => !(s.mxTile t).2) = none := List.find?_eq_none.2 (fun t ht => by simp [h t ht])
  rw [State.mxTileCheck, hfind, Option.map_none]

theorem operandInside_begun {s : State} {a n : Nat} (h : operandInside s a n) : operandInside s.begun a n := by
  rwa [operandInside, s.begun_curBlock]
theorem tilesFree_begun {s : State} {ts : List Nat} (h : tilesFree s ts) : tilesFree s.begun ts := by
  intro t ht
  have h := h t ht
  rw [State.mxTile] at h ⊢
  rwa [s.begun_curBlock]

theorem State.afterHandOver_eq {s : State} {ts : List Nat} (h : handsAtOnce s ts) (k : State → State) :
    s.afterHandOver ts k = k (handed s ts) := by
  have hall : ts.all (fun t => (s.curBlock.tile t).holder == .matrix || (s.curBlock.tile t).offered) = ts.all (takenFree s) := rfl
  rw [State.afterHandOver, State.afterRelease, hall, Claims.handed]
  split
  · rfl
  · rw [h.resolve_left ‹_›]

/-! What each command finds when its tiles have been taken. -/

/-- The block with a drain record set. -/
def Block.setDrain (d : Nat) (r : DrainRec) (b : Block) : Block := { b with drains := tset b.drains d r }
/-- The block with a slot set. -/
def Block.setSlot (d : Nat) (x : WSlot) (b : Block) : Block := { b with slots := tset b.slots d x }

theorem Readied.block_queued {s u : State} (h : Readied s u) (hb : blockHere s) (f : Block → Block) (op : MxOp) (ts : List Nat) :
    ((u.modBlock s.curBlockId f).pushMx op ts).block s.curBlockId = f (u.block s.curBlockId) :=
  (State.block_modBlock u _ _ f ((h.resident _).trans hb.2)).trans (if_pos rfl)

theorem Readied.drains_queued {s u : State} (h : Readied s u) (hblocks : u.blocks = s.blocks) (hb : blockHere s) (ts : List Nat)
    (mark : Bool) (d : Nat) (r : DrainRec) (op : MxOp) (k : Nat) :
    tgetD ((((u.takeTiles ts mark).modBlock s.curBlockId (Block.setDrain d r)).pushMx op ts).block s.curBlockId).drains k {} =
      if k = d then r else tgetD s.curBlock.drains k {} := by
  have hd : ((u.takeTiles ts mark).block s.curBlockId).drains = (u.block s.curBlockId).drains :=
    (congrArg Block.drains (u.untiled_takeTiles ts mark _) :)
  rw [(h.takeTiles ts mark).block_queued hb, Block.setDrain, tgetD_tset, hd, State.block, hblocks]
  rfl

theorem Readied.slots_queued {s u : State} (h : Readied s u) (hblocks : u.blocks = s.blocks) (hb : blockHere s) (ts : List Nat)
    (mark : Bool) (d : Nat) (x : WSlot) (op : MxOp) (k : Nat) :
    tgetD ((((u.takeTiles ts mark).modBlock s.curBlockId (Block.setSlot d x)).pushMx op ts).block s.curBlockId).slots k {} =
      if k = d then x else tgetD s.curBlock.slots k {} := by
  have hx : ((u.takeTiles ts mark).block s.curBlockId).slots = (u.block s.curBlockId).slots :=
    (congrArg Block.slots (u.untiled_takeTiles ts mark _) :)
  rw [(h.takeTiles ts mark).block_queued hb, Block.setSlot, tgetD_tset, hx, State.block, hblocks]
  rfl

/-- The state once the vectors of a drain record have been read, as loads of the core's scratchpad (R202). -/
def State.vectorsRead (s : State) (vecs : List Nat) : State := if vecs.isEmpty then s else s.scratchDeps .core

theorem Readied.vectorsRead {s u : State} (h : Readied s u) (vecs : List Nat) : Readied s (u.vectorsRead vecs) := by
  rw [State.vectorsRead]
  split
  · exact h
  · exact h.scratchDeps _
theorem State.vectorsRead_blocks (s : State) (vecs : List Nat) : (s.vectorsRead vecs).blocks = s.blocks := by
  rw [State.vectorsRead]; split
  · rfl
  · exact s.scratchDeps_blocks _

/-- The words of a format block that an MMA accepts with its A operand at an address (R192, R193, R200). -/
structure FormatAccepted (s : State) (addr : Nat) (r : Nat → Nat) : Prop where
  flags : r 0 / 2 ^ 29 % 8 = 0
  high0 : r 0 / 2 ^ 36 = 0
  high2 : r 2 / 2 ^ 32 = 0
  word3 : r 3 = 0
  act : r 0 / 2 ^ 32 % 16 < 2
  alen : r 0 / 256 % 256 = if 13 ≤ r 0 % 16 then 16 else 0
  blen : r 0 / 65536 % 256 = if 13 ≤ r 0 / 16 % 16 then 16 else 0
  afmt : mxFormat (r 0 % 16) = true
  bfmt : mxFormat (r 0 / 16 % 16) = true
  slot : r 0 / 2 ^ 24 % 16 < 2 * s.curBlock.accum
  issued : (tgetD s.curBlock.slots (r 0 / 2 ^ 24 % 16) {}).issued = some (r 0 / 16 % 16)
  a : operandInside s addr (aBytes (r 0 % 16))
  vecs : ∀ v ∈ [r 1 % 2 ^ 32, r 1 / 2 ^ 32, r 2 % 2 ^ 32], v ≠ 0xFFFFFFFF → operandInside s v 128

/-- A word of a format block. -/
def State.formatWord (s : State) (b : Fin 16) (k : Nat) : Nat := (s.curWave.sreg (4 * b.val + k)).toNat

/-- The drain record that an MMA sets (R201). -/
def formatRecord (r : Nat → Nat) : DrainRec :=
  ⟨noneIfOnes (r 1 % 2 ^ 32), noneIfOnes (r 1 / 2 ^ 32), noneIfOnes (r 2 % 2 ^ 32), r 0 / 2 ^ 32 % 16⟩

/-- The vectors that a format block names lie inside the scratchpad. -/
theorem vectors_inside {s : State} {vs : List Nat} (hlt : ∀ v ∈ vs, v < 2 ^ 32) (h : ∀ v ∈ vs, v ≠ 0xFFFFFFFF → operandInside s v 128) :
    ∀ p ∈ (vs.map noneIfOnes).filterMap (fun v => v.map (fun n => ((BitVec.ofNat 64 n : Dword), 128))), operandInside s p.1.toNat p.2 := by
  intro p hp
  simp only [List.filterMap_map, List.mem_filterMap, Function.comp_apply, Option.map_eq_some_iff, noneIfOnes] at hp
  obtain ⟨v, hv, n, hn, rfl⟩ := hp
  split at hn
  · cases hn
  · cases hn
    have hlt := hlt v hv
    rw [BitVec.toNat_ofNat, Nat.mod_eq_of_lt (by omega)]
    exact h v hv ‹_›

theorem State.formatWord_lt (s : State) (b : Fin 16) (k : Nat) : s.formatWord b k < 2 ^ 64 := BitVec.isLt _

theorem FormatAccepted.addrCheck {s : State} {addr : Dword} {b : Fin 16} (h : FormatAccepted s addr.toNat (s.formatWord b)) :
    s.begun.mxAddrCheck ((addr, aBytes (s.formatWord b 0 % 16)) ::
      ([noneIfOnes (s.formatWord b 1 % 2 ^ 32), noneIfOnes (s.formatWord b 1 / 2 ^ 32), noneIfOnes (s.formatWord b 2 % 2 ^ 32)].filterMap
        (fun v => v.map (fun n => ((BitVec.ofNat 64 n : Dword), 128))))) = none := by
  have hlt : ∀ v ∈ [s.formatWord b 1 % 2 ^ 32, s.formatWord b 1 / 2 ^ 32, s.formatWord b 2 % 2 ^ 32], v < 2 ^ 32 := by
    have h1 := s.formatWord_lt b 1
    simp only [List.mem_cons, List.not_mem_nil, or_false]
    rintro v (rfl | rfl | rfl) <;> omega
  refine State.mxAddrCheck_eq_none (fun p hp => operandInside_begun ?_)
  rcases List.mem_cons.1 hp with rfl | hp
  · exact h.a
  · exact vectors_inside hlt h.vecs p hp

/-! MMZ, MMD, WLOAD and MMA once they issue, with room in the queue and no acquire of the wave in flight (R199). -/

section
variable {s : State} (hm : s.activeMask ≠ 0) (hq : (s.core s.curWave.core).mq.length < 16)
  (hacq : s.begun.acquiring s.begun.curWave = false)
include hm hq hacq

theorem exec_mmz_queues {d : Fin 8} (hi : s.issues (.mmz d)) :
    exec (.mmz d) s = .next ((s.begun.modBlock s.curBlockId (Block.setDrain d.val {})).pushMx (.mmz d.val) []).finish := by
  rw [exec_mmz, execMmz, mxIssue_issues _ hi hm hq hacq, s.begun_curBlockId]
  rfl

theorem exec_wload_queues {d : Fin 16} {a : SSrc} {f : Fin 80} (hi : s.issues (.wload d a f)) (hf : mxFormat f.val = true)
    (hd : d.val < 2 * s.curBlock.accum) :
    let addr := (s.readS64 a).toNat
    let ts := spanTiles addr (imageBytes f.val)
    operandInside s addr (imageBytes f.val) → tilesFree s ts → handsAtOnce s.begun ts →
    exec (.wload d a f) s = .next (((((handed s.begun ts).takeTiles ts true).modBlock s.curBlockId
        (Block.setSlot d.val { tgetD s.curBlock.slots d.val {} with issued := some f.val })).pushMx (.wload d.val addr f.val) ts).finish) := by
  intro addr ts ho ht hh
  have haddr : s.begun.mxAddrCheck [(s.readS64 a, imageBytes f.val)] = none :=
    State.mxAddrCheck_eq_none (by simpa using operandInside_begun ho)
  have hslot : decide (2 * s.curBlock.accum ≤ d.val) = false := decide_eq_false (Nat.not_le.2 hd)
  have htile := State.mxTileCheck_eq_none (tilesFree_begun ht) (s.readS64 a)
  rw [exec_wload, execWload, mxIssue_issues _ hi hm hq hacq]
  simp only [State.begun_readS64, State.begun_curBlock, hf, hslot, haddr, htile, Bool.not_true, State.failIf_false,
    firstTrap_eq_none (ts := [none, none, none, none]) (by simp), State.orElse, State.afterHandOver_eq hh,
    ((readied_begun s).handed _).curBlockId, addr, ts]
  rfl

theorem exec_mmd_queues {d : Fin 8} {a : SSrc} {flag : Bool} {n : Nat} (hi : s.issues (.mmd d a flag)) (hn : mmdBytes s.etype = some n) :
    let addr := (s.readS64 a).toNat
    let rcd := tgetD s.curBlock.drains d.val {}
    let vecs := [rcd.ascale, rcd.bscale, rcd.bias].filterMap id
    let ts := spanTiles addr n
    operandInside s addr n → tilesFree s ts → handsAtOnce s.begun ts →
    (vecs = [] ∨ ((handed s.begun ts).scratchWait .core (handed s.begun ts).plainClass).isNone = true) →
    (∀ v ∈ vecs, ∀ k ∈ spanTiles v 128, (s.curBlock.tile k).engine = false) →
    exec (.mmd d a flag) s = .next (((((handed s.begun ts).vectorsRead vecs).takeTiles ts true).pushMx
      (.mmd d.val addr s.issue.mode flag (rcd.act == 1) (rcd.ascale.map s.curBlock.vec32) (rcd.bscale.map s.curBlock.vec32)
        (rcd.bias.map s.curBlock.vec32) (vecs.any (fun v => (s.curBlock.poisoned v 128).isSome))) ts).finish) := by
  intro addr rcd vecs ts ho ht hh hv hvt
  have haddr : s.begun.mxAddrCheck [(s.readS64 a, n)] = none := State.mxAddrCheck_eq_none (by simpa using operandInside_begun ho)
  have htile := State.mxTileCheck_eq_none (tilesFree_begun ht) (s.readS64 a)
  have hvec : (vecs.flatMap (fun v => (spanTiles v 128).map (fun k => (v, k)))).find? (fun p => (s.curBlock.tile p.2).engine) = none := by
    refine List.find?_eq_none.2 (fun p hp => ?_)
    obtain ⟨v, hmem, hp⟩ := List.mem_flatMap.1 hp
    obtain ⟨k, hk, rfl⟩ := List.mem_map.1 hp
    exact Bool.not_eq_true _ ▸ hvt v hmem k hk
  have hwait : (if vecs.isEmpty then none else (handed s.begun ts).scratchWait .core (handed s.begun ts).plainClass) = none := by
    rcases hv with hv | hv
    · rw [hv]; rfl
    · rw [Option.isNone_iff_eq_none.1 hv, ite_self]
  rw [exec_mmd, execMmd, mxIssue_issues _ hi hm hq hacq]
  simp only [State.begun_readS64, State.begun_curBlock, State.begun_etype, hn, Option.getD_some, Option.isNone_some, haddr, htile,
    hvec, Option.map_none, State.failIf_false, firstTrap_eq_none (ts := [none, none, none, none]) (by simp), State.orElse,
    State.afterHandOver_eq hh, hwait, addr, ts, rcd, vecs, handed_issue, State.begun_issue]
  rfl

theorem exec_mma_queues {d : Fin 8} {a : SSrc} {b : Fin 16} (hi : s.issues (.mma d a b)) :
    let r := s.formatWord b
    let addr := (s.readS64 a).toNat
    let ts := spanTiles addr (aBytes (r 0 % 16))
    let rel := decide (r 0 / 2 ^ 28 % 2 = 1)
    FormatAccepted s addr r → tilesFree s ts → handsAtOnce s.begun ts →
    exec (.mma d a b) s = .next (((((handed s.begun ts).takeTiles ts rel).modBlock s.curBlockId
      (Block.setDrain d.val (formatRecord r))).pushMx (.mma d.val addr (r 0 % 16) (r 0 / 16 % 16) (r 0 / 2 ^ 24 % 16) rel) ts).finish) := by
  intro r addr ts rel hf ht hh
  have htile := State.mxTileCheck_eq_none (tilesFree_begun ht) (s.readS64 a)
  have hword (k : Nat) : (s.curWave.sreg (4 * b.val + k)).toNat = s.formatWord b k := rfl
  have hslot : decide (2 * s.curBlock.accum ≤ s.formatWord b 0 / 2 ^ 24 % 16) = false := decide_eq_false (Nat.not_le.2 hf.slot)
  have hact : decide (2 ≤ s.formatWord b 0 / 2 ^ 32 % 16) = false := decide_eq_false (Nat.not_le.2 hf.act)
  rw [exec_mma, execMma, mxIssue_issues _ hi hm hq hacq]
  simp only [State.begun_readS64, State.begun_curBlock, State.begun_sreg, hword, hf.flags, hf.high0, hf.high2, hf.word3, hact, hf.alen,
    hf.blen, hf.afmt, hf.bfmt, hslot, hf.issued, hf.addrCheck, htile, bne_self_eq_false, Bool.or_self, Bool.not_true, Option.isNone_some,
    State.failIf_false, firstTrap_eq_none (ts := [none, none, none, none, none, none, none, none]) (by simp), State.orElse,
    State.afterHandOver_eq hh, ((readied_begun s).handed _).curBlockId, addr, ts, r, rel]
  rfl

end

/-- A command whose tiles have been taken, and which has changed drain records or slots alone, is queued. -/
theorem Readied.commandQueued_taking {s u : State} (h : Readied s u) (hblocks : u.blocks = s.blocks) (hb : blockHere s)
    (ha : s.waveAlive = true) (a n : Nat) (mark : Bool) (op : MxOp) {f : Block → Block}
    (hf : ∀ b, (f b).contents = b.contents) (hft : ∀ b, (f b).tiles = b.tiles) :
    Claims.commandQueued s (((u.takeTiles (spanTiles a n) mark).modBlock s.curBlockId f).pushMx op (spanTiles a n)) op (spanTiles a n) mark :=
  ((h.takeTiles _ _).modBlock _ hf).commandQueued ha op ((h.tilesTaken hblocks hb (spanTiles_nodup a n) mark).modBlock _ hft)

/-- Settles O33: each instruction readies the state, and its command is then pushed. -/
theorem matrixIssue : Obligations.MatrixIssue := by
  intro s hb hm hq hacq
  have hbegun := readied_begun s
  refine ⟨fun d hi => ?_, fun d a flag n hi hn => ?_, fun d a f hi hf hd => ?_⟩
  · refine ⟨_, exec_mmz_queues hm hq hacq hi, ?_, fun k => ?_⟩
    · exact (hbegun.modBlock _ (f := Block.setDrain d.val {}) (fun _ => rfl)).commandQueued hi.1 _
        (tilesTaken.modBlock (fun _ _ => (if_neg List.not_mem_nil).symm) _ (fun _ => rfl))
    · rw [hbegun.block_queued hb]
      exact tgetD_tset _ _ _ _ _
  · intro addr rcd vecs ho ht hh hv hvt
    have hready := (hbegun.handed (spanTiles addr n)).vectorsRead vecs
    refine ⟨_, exec_mmd_queues hm hq hacq hi hn ho ht hh hv hvt, ?_⟩
    exact (hready.takeTiles _ _).commandQueued hi.1 _
      (hready.tilesTaken ((State.vectorsRead_blocks _ _).trans (handed_blocks _ _)) hb (spanTiles_nodup addr n) true)
  · intro addr ho ht hh
    have hready := hbegun.handed (spanTiles addr (imageBytes f.val))
    refine ⟨_, exec_wload_queues hm hq hacq hi hf hd ho ht hh, ?_, fun k => ?_⟩
    · exact hready.commandQueued_taking (handed_blocks _ _) hb hi.1 _ _ _ _ (fun _ => rfl) (fun _ => rfl)
    · refine (hready.slots_queued (handed_blocks _ _) hb _ _ _ _ _ k).trans ?_
      split
      · subst k; rfl
      · rfl

/-- MMSYNC moves on once no command of the wave is left, and stalls before (R205). -/
theorem exec_mmsync_issues {s : State} (hi : s.issues .mmsync) (hm : s.activeMask ≠ 0) :
    exec .mmsync s = .next (if s.curWave.mxPending = 0 then s.begun.finish else s.begun.stall .retry) := by
  rw [exec_mmsync, execMmsync, issueOp_issues _ _ _ hi, s.begun_activeMask, s.begun_curWave, decide_eq_false hm, Bool.false_or]
  simp only [decide_eq_true_eq]

/-- Settles O34: an accepted format block readies the state, and the command is then pushed. -/
theorem mmaIssue : Obligations.MmaIssue := by
  intro d a b s hb hm
  refine ⟨?_, fun hi => ⟨fun hp => ?_, fun hp => ?_⟩⟩
  · intro hi hq hacq r afmt bfmt slot addr vecs hflags hhigh0 hhigh2 hword3 hact halen hblen hafmt hbfmt hslot hissued ha hvecs ht hh
    have hf : FormatAccepted s addr (s.formatWord b) :=
      ⟨hflags, hhigh0, hhigh2, hword3, hact, halen, hblen, hafmt, hbfmt, hslot, hissued, ha, hvecs⟩
    have hready := (readied_begun s).handed (spanTiles addr (aBytes afmt))
    exact ⟨_, exec_mma_queues hm hq hacq hi hf ht hh,
      hready.commandQueued_taking (handed_blocks _ _) hb hi.1 _ _ _ _ (fun _ => rfl) (fun _ => rfl),
      hready.drains_queued (handed_blocks _ _) hb _ _ _ _ _⟩
  · rw [exec_mmsync_issues hi hm, if_pos hp]
    exact ⟨_, rfl, State.effectDone_finish hi.1⟩
  · rw [exec_mmsync_issues hi hm, if_neg hp]

end Sys2Proof.Machine

namespace Sys2Proof.Machine
open Sys2Proof.Claims

/-! What issuing engine work leaves alone (`workFrame`), one update of the state at a time. -/

/-- An instruction that issues from `s` has come to `u`, and has changed no more than queueing engine work does. -/
structure Engaged (s u : State) : Prop where
  issue : u.issue = s.issue
  frame : workFrame s u

theorem engaged_of_sameArch {s x : State} (h : s.begun.sameArch x) : Engaged s x := by
  have hw : x.curWave = { s.curWave with resumed := false } := (State.sameArch_curWave h).trans s.begun_curWave
  have hblock (b : Nat) : x.block b = s.block b := by rw [State.block, State.sameArch_blocks h]; rfl
  refine ⟨(State.sameArch_issue h :), (State.sameArch_mem h :), fun b => by rw [hblock]; exact ⟨rfl, rfl, rfl⟩, fun k hk => ?_,
    ?_, ?_, ?_, ?_, ?_, ?_⟩
  · rw [State.sameArch_waves h]; exact s.onlyCur_begun.2 k hk
  all_goals rw [hw]

theorem engaged_begun (s : State) : Engaged s s.begun := engaged_of_sameArch s.begun.sameArch_refl

theorem Engaged.modBlock {s u : State} (h : Engaged s u) (k : Nat) {f : Block → Block} (hf : ∀ b, (f b).contents = b.contents) :
    Engaged s (u.modBlock k f) := by
  obtain ⟨hi, hmem, hblock, hrest⟩ := h
  refine ⟨hi, hmem, fun b => ?_, hrest⟩
  have hb : ((u.modBlock k f).block b).contents = (s.block b).contents :=
    (State.block_modBlock_kept Block.contents hf u k b).trans (by simpa only [Block.contents, Prod.mk.injEq] using hblock b)
  simpa only [Block.contents, Prod.mk.injEq] using hb

theorem Engaged.modCur {s u : State} (h : Engaged s u) {f : Wave → Wave} (hf : ∀ w, (f w).unworked = w.unworked) :
    Engaged s (u.modCur f) := by
  obtain ⟨hi, hmem, hblock, hothers, hv, hs, hp, hm, hsp, hl⟩ := h
  have hwave : (u.modCur f).curWave.unworked = u.curWave.unworked := tgetD_tmodify_kept _ _ _ _ Wave.unworked hf
  refine ⟨hi, hmem, hblock, fun k hk => ?_, ?_, ?_, ?_, ?_, ?_, ?_⟩
  · exact (State.tget?_modCur_other _ _ (hi ▸ hk)).trans (hothers k hk)
  · exact (congrArg Wave.vregs hwave :).trans hv
  · exact (congrArg Wave.sregs hwave :).trans hs
  · exact (congrArg Wave.preds hwave :).trans hp
  · exact (congrArg Wave.mode hwave :).trans hm
  · exact (congrArg Wave.splits hwave :).trans hsp
  · exact (congrArg Wave.latches hwave :).trans hl

theorem Engaged.modCluster {s u : State} (h : Engaged s u) (g : Nat) (f : Cluster → Cluster) : Engaged s (u.modCluster g f) :=
  ⟨h.issue, h.frame⟩

theorem Engaged.touch {s u : State} (h : Engaged s u) (b w : Nat) (byMma : Bool) : Engaged s (u.touch b w byMma) :=
  State.touch_keeps (P := Engaged s) (fun _ k _ hf hv => hv.modBlock k (fun b => (congrArg Block.contents (hf b) :)))
    (fun _ hv => hv.modCur (fun _ => rfl)) h b w byMma

theorem Block.contents_modTiles (b : Block) (ts : List Nat) (f : Tile → Tile) : (b.modTiles ts f).contents = b.contents := by
  obtain ⟨x, e⟩ := b.modTiles_frame ts f
  rw [e]; rfl

theorem Engaged.modTiles {s u : State} (h : Engaged s u) (b : Nat) (ts : List Nat) (f : Tile → Tile) :
    Engaged s (u.modTiles b ts f) := h.modBlock b (fun k => k.contents_modTiles ts f)

theorem Engaged.modWindow {s u : State} (h : Engaged s u) (b w : Nat) (f : Window → Window) :
    Engaged s (u.modWindow b w f) := h.modBlock b (fun _ => rfl)

/-! Tiles and windows of a block. -/

theorem WinDesc.span_nodup (d : WinDesc) : d.span.Nodup :=
  List.Nodup.map (fun _ _ h => Nat.add_left_cancel h) List.nodup_range

theorem State.resident_modBlock (s : State) (b k : Nat) (f : Block → Block) :
    (tget? (s.modBlock b f).blocks k).isSome = (tget? s.blocks k).isSome := tget?_tmodify_isSome _ _ _ _

theorem State.resident_modTiles (s : State) (b k : Nat) (ts : List Nat) (f : Tile → Tile) :
    (tget? (s.modTiles b ts f).blocks k).isSome = (tget? s.blocks k).isSome := s.resident_modBlock _ _ _

theorem State.tile_modTiles {s : State} {b : Nat} (hb : (tget? s.blocks b).isSome = true) {ts : List Nat} (hts : ts.Nodup)
    (f : Tile → Tile) (t : Nat) :
    ((s.modTiles b ts f).block b).tile t = if t ∈ ts then f ((s.block b).tile t) else (s.block b).tile t := by
  rw [State.modTiles, State.block_modBlock _ _ _ _ hb, if_pos rfl]
  exact Block.tile_modTiles _ f t hts

theorem State.window_modTiles (s : State) (b : Nat) (ts : List Nat) (f : Tile → Tile) (k w : Nat) :
    ((s.modTiles b ts f).block k).window w = (s.block k).window w :=
  State.block_modBlock_kept (fun x => x.window w) (fun x => by obtain ⟨y, e⟩ := x.modTiles_frame ts f; rw [e]; rfl) s b k

theorem State.window_modWindow {s : State} {b : Nat} (hb : (tget? s.blocks b).isSome = true) (w : Nat) (f : Window → Window) (j : Nat) :
    ((s.modWindow b w f).block b).window j = if j = w then f ((s.block b).window w) else (s.block b).window j := by
  rw [State.modWindow, State.block_modBlock _ _ _ _ hb, if_pos rfl]
  exact tgetD_tset _ _ _ _ _

theorem State.tile_modWindow (s : State) (b w : Nat) (f : Window → Window) (k t : Nat) :
    ((s.modWindow b w f).block k).tile t = (s.block k).tile t :=
  State.block_modBlock_kept (fun x => x.tile t) (f := fun x => { x with windows := tset x.windows w (f (x.window w)) }) (fun _ => rfl) s b k

/-- The tiles of a binding that go back to the threads: those that the copy engine holds for it and that are not kept (R218, R222). -/
theorem State.tile_dropBinding {s : State} {b : Nat} (hb : (tget? s.blocks b).isSome = true) (w : Nat) (keep : List Nat) (t : Nat) :
    ((s.dropBinding b w keep).block b).tile t =
      if t ∈ ((s.block b).window w).desc.span ∧ ((s.block b).tile t).holder = .copy w ∧ t ∉ keep
      then ((s.block b).tile t).handBack else (s.block b).tile t := by
  rw [State.dropBinding, State.tile_modTiles hb (((s.block b).window w).desc.span_nodup.filter _)]
  simp only [List.mem_filter, Bool.and_eq_true, beq_iff_eq, Bool.not_eq_true', List.contains_eq_mem, decide_eq_false_iff_not]

/-- The state in which an ABSENT window has handed back the tiles that it holds, but for those kept (R218, R222). -/
def State.handedBack (s : State) (b w : Nat) (keep : List Nat) : State :=
  if ((s.block b).window w).st == .absent then s.dropBinding b w keep else s

theorem Engaged.handedBack {s u : State} (h : Engaged s u) (b w : Nat) (keep : List Nat) : Engaged s (u.handedBack b w keep) := by
  rw [State.handedBack]; split
  · exact h.modTiles _ _ _
  · exact h

theorem State.window_handedBack (s : State) (b w : Nat) (keep : List Nat) (j : Nat) :
    ((s.handedBack b w keep).block b).window j = (s.block b).window j := by
  rw [State.handedBack]; split
  · exact State.window_modTiles _ _ _ _ _ _
  · rfl

theorem State.resident_handedBack (s : State) (b w : Nat) (keep : List Nat) (k : Nat) :
    (tget? (s.handedBack b w keep).blocks k).isSome = (tget? s.blocks k).isSome := by
  rw [State.handedBack]; split
  · exact State.resident_modTiles _ _ _ _ _
  · rfl

theorem State.tile_handedBack {s : State} {b : Nat} (hb : (tget? s.blocks b).isSome = true) (w : Nat) (keep : List Nat) (t : Nat) :
    ((s.handedBack b w keep).block b).tile t =
      if ((s.block b).window w).st = .absent ∧ t ∈ ((s.block b).window w).desc.span ∧ ((s.block b).tile t).holder = .copy w ∧ t ∉ keep
      then ((s.block b).tile t).handBack else (s.block b).tile t := by
  rw [State.handedBack]; split
  · rename_i h
    rw [State.tile_dropBinding hb]
    simp only [beq_iff_eq.1 h, true_and]
  · rename_i h
    rw [if_neg (fun ht => h (beq_iff_eq.2 ht.1))]

/-- A window takes its binding: it is ABSENT, and the tiles of its destination are its own (R218). -/
theorem State.bindWindow_binds {s u : State} (h : Engaged s u) {b : Nat} (hb : (tget? u.blocks b).isSome = true) (w : Nat) (d : WinDesc) :
    Engaged s (u.bindWindow b w d) ∧
      (∀ j, ((u.bindWindow b w d).block b).window j =
        if j = w then { (u.block b).window j with st := .absent, desc := d, bound := true } else (u.block b).window j) ∧
      (∀ t ∈ d.span, ((u.bindWindow b w d).block b).tile t = { (u.block b).tile t with engine := true, holder := .copy w }) ∧
      ∀ t, t ∉ d.span → ((u.block b).tile t).holder ≠ .copy w → ((u.bindWindow b w d).block b).tile t = (u.block b).tile t := by
  let held (t : Tile) : Tile := { t with engine := true, holder := .copy w }
  let bound (x : Window) : Window := { x with st := .absent, desc := d, bound := true }
  have e : u.bindWindow b w d = ((u.handedBack b w d.span).modTiles b d.span held).modWindow b w bound := rfl
  have hr : (tget? (u.handedBack b w d.span).blocks b).isSome = true := (u.resident_handedBack b w _ b).trans hb
  refine ⟨e ▸ ((h.handedBack b w _).modTiles _ _ _).modWindow _ _ _, fun j => ?_, fun t ht => ?_, fun t ht hh => ?_⟩
  · rw [e, State.window_modWindow ((State.resident_modTiles _ _ _ _ _).trans hr)]
    simp only [State.window_modTiles, State.window_handedBack]
    split
    · subst j; rfl
    · rfl
  · rw [e, State.tile_modWindow, State.tile_modTiles hr d.span_nodup, if_pos ht, State.tile_handedBack hb, if_neg (fun h => h.2.2.2 ht)]
  · rw [e, State.tile_modWindow, State.tile_modTiles hr d.span_nodup, if_neg ht, State.tile_handedBack hb, if_neg (fun h => hh h.2.2.1)]

/-! Records that an instruction reads at issue (R213), and the tiles that WBIND takes (R218). -/

theorem State.readRecord_reads {s x : State} {a : Dword} {bs : List Byte} (h : recordRead s a x bs) (k : State → List Byte → State) :
    s.readRecord a k = k x bs := by
  obtain ⟨hal, hfr, hheld, hacq, pa, v, hx, hl, hw, hq, hr, hbad, rfl⟩ := h
  simp [State.readRecord, hal, hfr, hheld, hacq, hx, hl, hw, hq, hr, hbad]

theorem sameArch_of_recordRead {s x : State} {a : Dword} {bs : List Byte} (h : recordRead s a x bs) : s.sameArch x := by
  obtain ⟨-, -, -, -, pa, v, -, -, -, -, hr, -, -⟩ := h
  exact of_yes_same (State.readLine_same _ _ _ _ _ _ (State.cacheXlate_same _ _ _ _ s.sameArch_refl)) hr

/-- The state in which WBIND has taken its tiles: a THREAD tile among them makes the taking a release at core scope (R218). -/
def State.taken (s : State) (ts : List Nat) : State :=
  if ts.all (fun t => (s.curBlock.tile t).engine) then s else s.released s.curWave.core 1

theorem State.afterTaking_eq {s : State} {ts : List Nat} (h : takesAtOnce s ts) (k : State → State) : s.afterTaking ts k = k (s.taken ts) := by
  rw [State.afterTaking, State.afterRelease, State.taken]
  split
  · rfl
  · rw [h.resolve_left (fun ht => ‹¬_› (List.all_eq_true.2 ht))]

theorem State.taken_same {s u : State} (h : s.sameArch u) (ts : List Nat) : s.sameArch (u.taken ts) := by
  rw [State.taken]; split
  · exact h
  · exact State.released_same _ _ _ h

theorem State.sameArch_block {s u : State} (h : s.sameArch u) (b : Nat) : u.block b = s.block b := by
  rw [State.block, State.sameArch_blocks h]; rfl
theorem State.sameArch_curBlockId {s u : State} (h : s.sameArch u) : u.curBlockId = s.curBlockId := by
  rw [State.curBlockId, State.sameArch_curWave h]; rfl
theorem State.sameArch_curBlock {s u : State} (h : s.sameArch u) : u.curBlock = s.curBlock := by
  rw [State.curBlock, State.sameArch_curBlockId h, State.sameArch_block h]; rfl
theorem State.sameArch_curSize {s u : State} (h : s.sameArch u) : u.curSize = s.curSize := by
  simp only [State.curSize, State.sameArch_curWave h, State.sameArch_block h]

end Sys2Proof.Machine

namespace Sys2Proof.Machine
open Sys2Proof.Claims

/-! WBIND, WTOUCH, WUNBIND and WSTAT (R216 to R222). -/

/-- A WBIND whose descriptor and destination pass the checks of R218 binds its window. -/
theorem exec_wbind_binds {s x : State} {d : Fin 16} {a : SSrc} {bs : List Byte} {wd : WinDesc} (hi : s.issues (.wbind d a))
    (hb : blockHere s) (hm : s.activeMask ≠ 0) (hr : recordRead s.begun (s.readS64 a) x bs) (hp : parseWindow bs = some wd)
    (hinf : (s.curBlock.window d.val).st ≠ .inflight) (hsta : (s.curBlock.window d.val).st ≠ .stalled)
    (hsize : wd.dest + wd.tiles * 8192 ≤ s.curBlock.size) (hflag : ∀ f, wd.flagAddr = some f → f < s.curBlock.size)
    (hfree : ∀ t ∈ wd.span, (s.curBlock.tile t).engine = false ∨ (s.curBlock.tile t).holder = .none ∨
      ((s.curBlock.tile t).holder = .copy d.val ∧ (s.curBlock.window d.val).st = .absent)) (ht : takesAtOnce x wd.span) :
    exec (.wbind d a) s = .next ((x.taken wd.span).bindWindow s.curBlockId d.val wd).finish := by
  have hx := sameArch_of_recordRead hr
  have hblock : x.curBlock = s.curBlock := (State.sameArch_curBlock hx).trans s.begun_curBlock
  have hid : (x.taken wd.span).curBlockId = s.curBlockId :=
    (State.sameArch_curBlockId (State.taken_same hx _)).trans s.begun_curBlockId
  have hsz : x.curSize = s.curBlock.size :=
    (State.sameArch_curSize hx).trans (s.begun_curSize.trans (State.curSize_of_blockHere hb))
  have hbusy : ((s.curBlock.window d.val).st == .inflight || (s.curBlock.window d.val).st == .stalled) = false := by simp [hinf, hsta]
  have hfl : (wd.flagAddr.any fun f => decide (s.curBlock.size ≤ f)) = false := by
    cases hf : wd.flagAddr with
    | none => rfl
    | some f => simpa using hflag f hf
  have hheld : wd.span.find? (fun t => (s.curBlock.tile t).engine && (s.curBlock.tile t).holder != .none &&
      !((s.curBlock.tile t).holder == .copy d.val && (s.curBlock.window d.val).st == .absent)) = none :=
    List.find?_eq_none.2 (fun t h => by rcases hfree t h with h | h | h <;> simp [h])
  rw [exec_wbind, execWbind, issueOp_issues _ _ _ hi, s.begun_activeMask, if_neg hm, s.begun_readS64, State.readRecord_reads hr]
  simp only [hp, hblock, hsz, hbusy, hfl, hheld, if_neg (Nat.not_lt.2 hsize), Bool.false_eq_true, if_false, State.afterTaking_eq ht, hid]

/-- `v` is `u` but for tiles of blocks. -/
structure TilesOnly (u v : State) : Prop where
  rest : ({ v with blocks := u.blocks } : State) = u
  resident : ∀ k, (tget? v.blocks k).isSome = (tget? u.blocks k).isSome
  window : ∀ k j, (v.block k).window j = (u.block k).window j

theorem TilesOnly.refl (u : State) : TilesOnly u u := ⟨rfl, fun _ => rfl, fun _ _ => rfl⟩

theorem TilesOnly.modTiles {u v : State} (h : TilesOnly u v) (b : Nat) (ts : List Nat) (f : Tile → Tile) :
    TilesOnly u (v.modTiles b ts f) :=
  ⟨h.rest, fun k => (v.resident_modTiles b k ts f).trans (h.resident k), fun k j => (v.window_modTiles b ts f k j).trans (h.window k j)⟩

/-- The touch of an ABSENT window starts its copy, once the tiles of its multicast targets are held (R219 to R221). -/
theorem State.touch_of_absent {u : State} {b w : Nat} (h : ((u.block b).window w).st = .absent) (byMma : Bool) :
    ∃ (v : State) (f : Window → Window), TilesOnly u v ∧
      u.touch b w byMma = (v.modWindow b w f).modCur (fun x => { x with engPending := x.engPending + 1 }) ∧
      ∀ x, (f x).st = .inflight ∧ (f x).desc = x.desc ∧ (f x).starter = u.issue.wave ∧ (f x).started = u.clk := by
  have htargets (ks : List Nat) (ts : List Nat) (f : Tile → Tile) : TilesOnly u (ks.foldl (fun (v : State) k => v.modTiles k ts f) u) :=
    List.foldlRecOn (motive := TilesOnly u) ks _ (TilesOnly.refl u) (fun v hv k _ => hv.modTiles k ts f)
  simp only [State.touch, h, bne_self_eq_false, Bool.false_eq_true, if_false]
  split
  · exact ⟨u, _, TilesOnly.refl u, rfl, fun x => ⟨rfl, rfl, rfl, rfl⟩⟩
  · refine ⟨_, _, htargets _ _ _, rfl, fun x => ⟨rfl, rfl, ?_, ?_⟩⟩
    · exact (congrArg (fun t : State => t.issue.wave) (htargets _ _ _).rest :)
    · exact (congrArg State.clk (htargets _ _ _).rest :)

/-- WTOUCH of a bound window touches it, with no load of the wave in flight (R219, R278). -/
theorem exec_wtouch_touches {s : State} {w : Fin 16} (hi : s.issues (.wtouch w)) (hm : s.activeMask ≠ 0)
    (hst : (s.curBlock.window w.val).st ≠ .free) (hacq : s.begun.acquiring s.begun.curWave = false) (hl : s.curWave.loads = []) :
    exec (.wtouch w) s = .next (s.begun.touch s.curBlockId w.val).finish := by
  have hloads : s.begun.curWave.loads = [] := by rw [s.begun_curWave]; exact hl
  rw [exec_wtouch, execWtouch, issueOp_issues _ _ _ hi, s.begun_activeMask, if_neg hm, s.begun_curBlock, s.begun_curBlockId,
    if_neg (by simpa using hst), hacq, hloads]
  rfl

theorem exec_wtouch_free {s : State} {w : Fin 16} (hi : s.issues (.wtouch w)) (hm : s.activeMask ≠ 0)
    (hst : (s.curBlock.window w.val).st = .free) :
    exec (.wtouch w) s = .next (s.begun.trapHere (s.info 0x04 s.curSplit.mask.toNat)) := by
  rw [exec_wtouch, execWtouch, issueOp_issues _ _ _ hi, s.begun_activeMask, if_neg hm, s.begun_curBlock, if_pos (by simp [hst]),
    State.maskDetail, s.begun_split]
  rfl

/-- The copy of an ABSENT window that WTOUCH starts. -/
theorem State.touch_starts {s : State} (ha : s.waveAlive = true) (hb : blockHere s) {w : Nat} (hst : (s.curBlock.window w).st = .absent) :
    let u := s.begun.touch s.curBlockId w
    let x := (u.block s.curBlockId).window w
    u.curWave.engPending = s.curWave.engPending + 1 ∧ x.st = .inflight ∧ x.desc = (s.curBlock.window w).desc ∧
      x.starter = s.issue.wave ∧ x.started = s.clk ∧
      ∀ j, j ≠ w → (u.block s.curBlockId).window j = s.curBlock.window j := by
  intro u x
  obtain ⟨v, f, hv, hu, hf⟩ := State.touch_of_absent (u := s.begun) (b := s.curBlockId) (w := w) hst false
  have hres : (tget? v.blocks s.curBlockId).isSome = true := (hv.resident _).trans hb.2
  have hwin (j : Nat) : (u.block s.curBlockId).window j = if j = w then f (s.curBlock.window w) else s.curBlock.window j := by
    rw [show u = _ from hu]
    refine (State.window_modWindow hres w f j).trans ?_
    rw [hv.window, hv.window]; rfl
  have hx : x = f (s.curBlock.window w) := (hwin w).trans (if_pos rfl)
  have hwave : v.curWave = s.begun.curWave := (congrArg State.curWave hv.rest :)
  have halive : v.waveAlive = true := (congrArg State.waveAlive hv.rest :).trans (s.begun_alive.trans ha)
  obtain ⟨h1, h2, h3, h4⟩ := hf (s.curBlock.window w)
  refine ⟨?_, hx ▸ h1, hx ▸ h2, hx ▸ h3, hx ▸ h4, fun j hj => (hwin j).trans (if_neg hj)⟩
  rw [show u = _ from hu, State.curWave_modCur (v.modWindow _ _ _) _ halive]
  show v.curWave.engPending + 1 = _
  rw [hwave, s.begun_curWave]

/-- A touch of a window that is not ABSENT does nothing (R219). -/
theorem State.touch_of_not_absent {u : State} {b w : Nat} (h : ((u.block b).window w).st ≠ .absent) (byMma : Bool) :
    u.touch b w byMma = u := if_pos (bne_iff_ne.2 h)

theorem exec_wunbind_free {s : State} {w : Fin 16} (hi : s.issues (.wunbind w)) (hm : s.activeMask ≠ 0)
    (hst : (s.curBlock.window w.val).st = .free) : exec (.wunbind w) s = .next s.begun.finish := by
  rw [exec_wunbind, execWunbind, issueOp_issues _ _ _ hi, s.begun_activeMask, if_neg hm, s.begun_curBlock, hst]

theorem exec_wunbind_frees {s : State} {w : Fin 16} (hi : s.issues (.wunbind w)) (hm : s.activeMask ≠ 0)
    (hst : (s.curBlock.window w.val).st = .absent ∨ (s.curBlock.window w.val).st = .present) : exec (.wunbind w) s =
      .next ((s.begun.handedBack s.curBlockId w.val []).modWindow s.curBlockId w.val (fun x => { x with st := .free })).finish := by
  have hw : ((s.begun.block s.curBlockId).window w.val).st = (s.curBlock.window w.val).st := rfl
  rw [exec_wunbind, execWunbind, issueOp_issues _ _ _ hi, s.begun_activeMask, if_neg hm, s.begun_curBlock, s.begun_curBlockId,
    State.handedBack, hw]
  rcases hst with h | h <;> rw [h] <;> rfl

/-- Unbinding frees the window and, while it is ABSENT, hands back the tiles that it holds; nothing else of the block changes (R222). -/
theorem State.handedBack_frees {s : State} (hb : blockHere s) (w : Nat) :
    let u := (s.begun.handedBack s.curBlockId w []).modWindow s.curBlockId w (fun x => { x with st := .free })
    Engaged s u ∧ (∀ j, (u.block s.curBlockId).window j =
        if j = w then { s.curBlock.window j with st := .free } else s.curBlock.window j) ∧
      ∀ t, (u.block s.curBlockId).tile t =
        if (s.curBlock.window w).st = .absent ∧ t ∈ (s.curBlock.window w).desc.span ∧ (s.curBlock.tile t).holder = .copy w
        then (s.curBlock.tile t).handBack else s.curBlock.tile t := by
  have hblock : s.begun.block s.curBlockId = s.curBlock := rfl
  have hb' : (tget? s.begun.blocks s.curBlockId).isSome = true := hb.2
  refine ⟨((engaged_begun s).handedBack _ _ _).modWindow _ _ _, fun j => ?_, fun t => ?_⟩
  · rw [State.window_modWindow ((State.resident_handedBack _ _ _ _ _).trans hb'), State.window_handedBack, State.window_handedBack, hblock]
    split
    · subst j; rfl
    · rfl
  · rw [State.tile_modWindow, State.tile_handedBack hb', hblock]
    simp only [List.not_mem_nil, not_false_eq_true, and_true]

theorem exec_wstat_reads {s : State} {d : SDst} {w : Fin 16} (hi : s.issues (.wstat d w)) :
    exec (.wstat d w) s = .next (s.begun.putS d (BitVec.ofNat 64 (s.curBlock.window w.val).word)).finish := by
  rw [exec_wstat, execWstat, issueOp_issues _ _ _ hi, s.begun_curBlock]

/-- Settles O37: each instruction issues and comes to the state that its rule above names. -/
theorem windowsComplete : Obligations.WindowsComplete := by
  intro s hb hm k
  refine ⟨?_, fun w hi => ⟨exec_wtouch_free hi hm, fun hst hacq hl => ?_, fun hf ha hacq hl => ?_⟩,
    fun w hi => ⟨fun hst => ?_, fun hst => ?_⟩, ?_⟩
  · intro d a x bs wd hi hr hp hinf hsta hsize hflag hfree ht
    have hsame := State.taken_same (sameArch_of_recordRead hr) wd.span
    have hblock : (x.taken wd.span).block k = s.curBlock := State.sameArch_block hsame k
    have hres : (tget? (x.taken wd.span).blocks k).isSome = true := by rw [State.sameArch_blocks hsame]; exact hb.2
    obtain ⟨hu, hwin, hin, hout⟩ := State.bindWindow_binds (engaged_of_sameArch hsame) hres d.val wd
    rw [hblock] at hwin hin hout
    exact ⟨_, exec_wbind_binds hi hb hm hr hp hinf hsta hsize hflag hfree ht, hu.frame, hwin, hin, hout⟩
  · exact ⟨_, exec_wtouch_touches hi hm (by simp [hst]) hacq hl, ((engaged_begun s).touch _ _ _).frame,
      State.touch_starts hi.1 hb hst⟩
  · refine ⟨_, exec_wtouch_touches hi hm hf hacq hl, ?_⟩
    rw [State.touch_of_not_absent (show ((s.begun.block _).window _).st ≠ _ from ha)]
    exact State.effectDone_finish hi.1
  · exact ⟨_, exec_wunbind_free hi hm hst, State.effectDone_finish hi.1⟩
  · obtain ⟨hu, hwin, htile⟩ := State.handedBack_frees hb w.val
    exact ⟨_, exec_wunbind_frees hi hm hst, hu.frame, hwin, htile⟩
  · intro d w hi x code
    have hword : code + x.last * 2 ^ 8 + (if x.bound then x.desc.dest / 8192 * 2 ^ 16 + (x.desc.tiles - 1) * 2 ^ 24 else 0) = x.word := by
      have hcode : code = x.st.code := by simp only [code]; cases x.st <;> rfl
      rw [hcode]; rfl
    rw [hword]
    exact ⟨_, exec_wstat_reads hi, s.scalarDone_putS d _ hi.1⟩

end Sys2Proof.Machine

namespace Sys2Proof.Machine
open Sys2Proof.Claims

/-! GATHER (R231, R232). -/

/-- The command of an accepted descriptor, as the wave that issues queues it. -/
def State.gatherEntry (s : State) (c : GatherCmd) : GatherCmd := { c with
  wave := s.issue.wave, block := s.curBlockId, ctx := s.curWave.ctx, pc := s.issue.pc, iword := s.issue.iword,
  lit := s.issue.lit, bintodal := s.issue.form == .bintodal, seq := s.clk, entered := s.clk, mark := (s.core s.curWave.core).nextWrite }

/-- The command has taken its tiles and entered the queue of its cluster's gather engine. -/
def State.queueGather (s : State) (c : GatherCmd) : State :=
  ((s.modTiles s.curBlockId c.tiles (fun t => { t with holder := .gather })).modCluster (clusterOf s.curWave.core)
    (fun g => { g with gather := g.gather ++ [s.gatherEntry c] })).modCur (fun v => { v with engPending := v.engPending + 1 })

theorem parseGather_commit {bs : List Byte} {c : GatherCmd} (h : parseGather bs = some c) : c.commit = 0 := by
  simp only [parseGather] at h
  split at h
  · cases h
  · obtain ⟨-, h⟩ := Option.ite_none_right_eq_some.1 h
    exact (Option.some.inj h) ▸ rfl

/-- A GATHER whose descriptor and tiles pass the checks queues its command, while the queue has room and no load of the wave is in
flight (R231, R232, R278). -/
theorem exec_gather_queues {s x : State} {a : SSrc} {bs : List Byte} {c : GatherCmd} (hi : s.issues (.gather a)) (hb : blockHere s)
    (hm : s.activeMask ≠ 0) (hr : recordRead s.begun (s.readS64 a) x bs) (hp : parseGather bs = some c)
    (hsize : c.spad + c.spanBytes ≤ s.curBlock.size) (hflag : ∀ f, c.flagAddr = some f → f < s.curBlock.size)
    (hfree : ∀ t ∈ c.tiles, (s.curBlock.tile t).engine = true ∧ (s.curBlock.tile t).holder = .none)
    (hq : (x.cluster (clusterOf s.curWave.core)).gather.length < 16) (hl : s.curWave.loads = []) :
    exec (.gather a) s = .next (x.queueGather c).finish := by
  have hx := sameArch_of_recordRead hr
  have hblock : x.curBlock = s.curBlock := (State.sameArch_curBlock hx).trans s.begun_curBlock
  have hwave : x.curWave = { s.curWave with resumed := false } := (State.sameArch_curWave hx).trans s.begun_curWave
  have hsz : x.curSize = s.curBlock.size :=
    (State.sameArch_curSize hx).trans (s.begun_curSize.trans (State.curSize_of_blockHere hb))
  have hfl : (c.flagAddr.any fun f => decide (s.curBlock.size ≤ f)) = false := by
    cases hf : c.flagAddr with
    | none => rfl
    | some f => simpa using hflag f hf
  have hheld : c.tiles.find? (fun t => !(s.curBlock.tile t).offered) = none :=
    List.find?_eq_none.2 (fun t h => by simp [Tile.offered, hfree t h])
  have hloads : x.curWave.loads = [] := by rw [hwave]; exact hl
  rw [← show x.curWave.core = s.curWave.core by rw [hwave]] at hq
  rw [exec_gather, execGather, issueOp_issues _ _ _ hi, s.begun_activeMask, if_neg hm, s.begun_readS64, State.readRecord_reads hr]
  simp only [hp, hblock, hsz, hfl, hheld, if_neg (Nat.not_lt.2 hsize), if_neg (Nat.not_le.2 hq), hloads, Bool.false_eq_true, if_false,
    List.isEmpty_nil, Bool.not_true]
  rfl

/-- What the queued command leaves alone, and what it holds. -/
theorem State.queueGather_queues {s x : State} (hx : s.begun.sameArch x) (ha : s.waveAlive = true) (hb : blockHere s) (c : GatherCmd) :
    Engaged s (x.queueGather c) ∧ (x.queueGather c).curWave.engPending = s.curWave.engPending + 1 ∧
      ((x.queueGather c).cluster (clusterOf s.curWave.core)).gather = (x.cluster (clusterOf s.curWave.core)).gather ++ [x.gatherEntry c] ∧
      ∀ t, ((x.queueGather c).block s.curBlockId).tile t =
        if t ∈ c.tiles then { s.curBlock.tile t with holder := .gather } else s.curBlock.tile t := by
  have hwave : x.curWave = { s.curWave with resumed := false } := (State.sameArch_curWave hx).trans s.begun_curWave
  have hcore : x.curWave.core = s.curWave.core := by rw [hwave]
  have hid : x.curBlockId = s.curBlockId := (State.sameArch_curBlockId hx).trans s.begun_curBlockId
  have hres : (tget? x.blocks s.curBlockId).isSome = true := by rw [State.sameArch_blocks hx]; exact hb.2
  let x1 := x.modTiles x.curBlockId c.tiles (fun t => { t with holder := .gather })
  let x2 := x1.modCluster (clusterOf x.curWave.core) (fun g => { g with gather := g.gather ++ [x.gatherEntry c] })
  have hx2 : x.queueGather c = x2.modCur (fun v => { v with engPending := v.engPending + 1 }) := rfl
  refine ⟨(((engaged_of_sameArch hx).modTiles _ _ _).modCluster _ _).modCur (fun _ => rfl), ?_, ?_, fun t => ?_⟩
  · have halive : x.waveAlive = true := (State.waveAlive_sameArch hx).trans (s.begun_alive.trans ha)
    rw [hx2, x2.curWave_modCur _ halive]
    show x.curWave.engPending + 1 = _
    rw [hwave]
  · rw [← hcore]
    have hcl : x2.cluster (clusterOf x.curWave.core) = _ := (x1.cluster_modCluster _ _ _).trans (if_pos rfl)
    rw [hx2]
    exact congrArg Cluster.gather hcl
  · have htile := State.tile_modTiles hres (spanTiles_nodup c.spad c.spanBytes) (fun t => { t with holder := .gather }) t
    rw [State.sameArch_block hx, ← hid] at htile
    rw [← hid]
    refine htile.trans ?_
    rw [hid]; rfl

/-! SPAWN (R236). -/

/-- A bin that the thread of a SPAWN has entered. -/
def State.enteredBin (s : State) (key arg : Dword) (x : Bin) : Bin :=
  x.enter key (s.curWave.launch.getD 0) s.curWave.ctx s.clk (s.timeNs + s.curCtx.spawnPeriod) (arg.setWidth 32, arg.extractLsb' 32 32)
    (s.curWave.core, ((s.released s.curWave.core 2).core s.curWave.core).epoch)

/-- The thread of a SPAWN has entered a bin, as a release at cluster scope. -/
def State.binEntered (s : State) (k : Nat) (key arg : Dword) : State :=
  (s.released s.curWave.core 2).modCluster (clusterOf s.curWave.core)
    (fun c => { c with bins := tset c.bins k (s.enteredBin key arg (tgetD c.bins k {})) })

theorem State.enterBin_eq (s : State) (k : Nat) (key arg : Dword) : s.enterBin k key arg = (s.binEntered k key arg).finish := rfl

/-- A bin after a thread has entered it: it launches when full, and an empty one takes the key and starts its timer. -/
theorem Bin.enter_threads (b : Bin) (key : Dword) (launch ctx clk deadline : Nat) (t : Word × Word) (src : Nat × Nat) :
    (b.enter key launch ctx clk deadline t src).threads = b.threads ++ [t] ∧
      (b.enter key launch ctx clk deadline t src).launching = decide (32 ≤ b.threads.length + 1) ∧
      (b.threads = [] → (b.enter key launch ctx clk deadline t src).key = key ∧
        (b.enter key launch ctx clk deadline t src).deadline = deadline) := by
  cases hb : b.threads with
  | nil => simp [Bin.enter, hb]
  | cons x xs => simp [Bin.enter, hb]

theorem State.binEntered_enters (s : State) (j : Nat) (key arg : Dword) :
    let u := s.begun.binEntered j key arg
    let g := clusterOf s.curWave.core
    let bins := s.cluster g
    Engaged s u ∧ (tgetD (u.cluster g).bins j {}).threads = (tgetD bins.bins j {}).threads ++ [(arg.setWidth 32, arg.extractLsb' 32 32)] ∧
      (tgetD (u.cluster g).bins j {}).launching = decide (32 ≤ (tgetD bins.bins j {}).threads.length + 1) ∧
      ((tgetD bins.bins j {}).threads = [] → (tgetD (u.cluster g).bins j {}).key = key ∧
        (tgetD (u.cluster g).bins j {}).deadline = s.timeNs + max 1 (s.curCtx.spawntmr.toNat % 2 ^ 16)) ∧
      ∀ i, i ≠ j → tgetD (u.cluster g).bins i {} = tgetD bins.bins i {} := by
  intro u g bins
  have hctx : s.begun.curCtx = s.curCtx := by rw [State.curCtx, s.begun_curWave]; rfl
  have hcore : s.begun.curWave.core = s.curWave.core := by rw [s.begun_curWave]
  have hcl : u.cluster g = { bins with bins := tset bins.bins j (s.begun.enteredBin key arg (tgetD bins.bins j {})) } := by
    refine (State.cluster_modCluster _ _ _ _).trans ?_
    rw [hcore, if_pos rfl]; rfl
  obtain ⟨hth, hla, hkey⟩ : _ ∧ _ ∧ ((tgetD bins.bins j {}).threads = [] → (s.begun.enteredBin key arg (tgetD bins.bins j {})).key = key ∧
      (s.begun.enteredBin key arg (tgetD bins.bins j {})).deadline = _) := Bin.enter_threads _ _ _ _ _ _ _ _
  refine ⟨(engaged_of_sameArch (State.released_same _ _ _ s.begun.sameArch_refl)).modCluster _ _, ?_, ?_, ?_, fun i hij => ?_⟩
  · rw [hcl, tgetD_tset_same]; exact hth
  · rw [hcl, tgetD_tset_same]; exact hla
  · rw [hcl, tgetD_tset_same, ← show s.begun.curCtx.spawnPeriod = max 1 (s.curCtx.spawntmr.toNat % 2 ^ 16) by rw [hctx]; rfl]
    exact hkey
  · rw [hcl, tgetD_tset_other _ _ _ hij]

section
variable {s : State} {a b : SSrc} (hi : s.issues (.spawn a b)) (hm : s.activeMask ≠ 0) (halign : (s.readS64 a).toNat % 4 = 0)
  (hkey : (s.readS64 a).toNat < 2 ^ 55)
include hi hm halign hkey

/-- A SPAWN that was promised a bin, or that finds one, enters it (R236). -/
theorem exec_spawn_enters {j : Nat} (h : (s.curSplit.wait = some (.bin j) ∧ (tgetD (s.cluster (clusterOf s.curWave.core)).bins j {}).threads = []) ∨
    ((∀ k, s.curSplit.wait ≠ some (.bin k)) ∧ s.begun.gate 2 true false = none ∧
      (s.cluster (clusterOf s.curWave.core)).binFor (s.readS64 a) (s.curWave.launch.getD 0)
        (s.begun.binAwaited (clusterOf s.curWave.core)) = some j)) :
    exec (.spawn a b) s = .next (s.begun.binEntered j (s.readS64 a) (s.readS64 b)).finish := by
  have hcl (g : Nat) : s.begun.cluster g = s.cluster g := rfl
  have hwait : s.begun.curWave.split.wait = s.curSplit.wait := congrArg Split.wait s.begun_split
  rw [exec_spawn, execSpawn, issueOp_issues _ _ _ hi]
  simp only [s.begun_activeMask, if_neg hm, s.begun_readS64, hwait, s.begun_core, hcl, halign, if_neg (Nat.not_le.2 hkey), bne_self_eq_false,
    Bool.false_eq_true, if_false]
  rcases h with ⟨hw, he⟩ | ⟨hw, hg, hf⟩
  · simp only [hw, he, List.isEmpty_nil, if_true, State.enterBin_eq]
  · split
    · exact absurd ‹_› (hw _)
    · have hlaunch : s.begun.curWave.launch = s.curWave.launch := by rw [s.begun_curWave]
      simp only [hg, hlaunch, hf, State.enterBin_eq]

/-- A SPAWN that finds no bin flushes the oldest one and waits for it (R236). -/
theorem exec_spawn_flushes (hw : ∀ k, s.curSplit.wait ≠ some (.bin k)) (hg : s.begun.gate 2 true false = none)
    (hf : (s.cluster (clusterOf s.curWave.core)).binFor (s.readS64 a) (s.curWave.launch.getD 0)
      (s.begun.binAwaited (clusterOf s.curWave.core)) = none) :
    let k := (s.cluster (clusterOf s.curWave.core)).oldestBin
    exec (.spawn a b) s = .next ((s.begun.modCluster (clusterOf s.curWave.core)
      (fun c => { c with bins := tmodify c.bins k (fun x => { x with launching := true }) })).stall (.bin k)) := by
  have hcl (g : Nat) : s.begun.cluster g = s.cluster g := rfl
  have hwait : s.begun.curWave.split.wait = s.curSplit.wait := congrArg Split.wait s.begun_split
  have hlaunch : s.begun.curWave.launch = s.curWave.launch := by rw [s.begun_curWave]
  rw [exec_spawn, execSpawn, issueOp_issues _ _ _ hi]
  simp only [s.begun_activeMask, if_neg hm, s.begun_readS64, hwait, s.begun_core, hcl, halign, if_neg (Nat.not_le.2 hkey), bne_self_eq_false,
    Bool.false_eq_true, if_false, hg, hlaunch, hf]

end

/-- The timer of a bin: it launches with what it holds, and nothing else of the package changes (R236, R345). -/
theorem exec_spawnBinTimer_launches {s : State} {g j : Nat} {x : Bin} (hx : tget? (s.cluster g).bins j = some x) :
    ∃ t : State, exec (.spawnBinTimer g j) s = .next t ∧
      ({ t with clusters := s.clusters } : State) = s ∧ (∀ i, i ≠ g → t.cluster i = s.cluster i) ∧
      ({ t.cluster g with bins := (s.cluster g).bins } : Cluster) = s.cluster g ∧
      (∀ i, i ≠ j → tget? (t.cluster g).bins i = tget? (s.cluster g).bins i) ∧
      tget? (t.cluster g).bins j = some (if x.threads ≠ [] ∧ x.deadline ≤ s.timeNs then { x with launching := true } else x) := by
  refine ⟨s.modCluster g (fun c => { c with bins := tmodify c.bins j (fun b =>
    if !b.threads.isEmpty && b.deadline ≤ s.timeNs then { b with launching := true } else b) }), rfl, rfl, fun i hig => ?_, ?_,
    fun i hij => ?_, ?_⟩
  · exact (State.cluster_modCluster _ _ _ _).trans (if_neg hig)
  · rw [State.cluster_modCluster, if_pos rfl]
  · rw [State.cluster_modCluster, if_pos rfl, tget?_tmodify, if_neg hij]
  · rw [State.cluster_modCluster, if_pos rfl, tget?_tmodify, if_pos rfl, hx]
    simp

/-- Settles O38: the command as it stands in its queue, the thread in its bin, and the timer of a bin. -/
theorem gatherAndSpawnComplete : Obligations.GatherAndSpawnComplete := by
  refine ⟨?_, ?_, fun s g j x hx => exec_spawnBinTimer_launches hx⟩
  · intro s a x bs c hb hm hi hr hp hsize hflag hfree hq hl
    have hx := sameArch_of_recordRead hr
    obtain ⟨hu, heng, hgather, htile⟩ := State.queueGather_queues hx hi.1 hb c
    have hctx : x.curWave.ctx = s.curWave.ctx := by rw [State.sameArch_curWave hx, s.begun_curWave]
    have hid : x.curBlockId = s.curBlockId := (State.sameArch_curBlockId hx).trans s.begun_curBlockId
    have hissue : x.issue = s.begun.issue := State.sameArch_issue hx
    exact ⟨_, exec_gather_queues hi hb hm hr hp hsize hflag hfree hq hl, hu.frame, heng,
      ⟨_, hgather, rfl, rfl, rfl, rfl, rfl, rfl, rfl, rfl, rfl, congrArg Issue.wave hissue, hid, hctx,
        (parseGather_commit hp :)⟩, htile⟩
  · intro s a b hm hi key arg g bins halign hkey
    refine ⟨fun j h => ?_, fun hw hg hf => ?_⟩
    · obtain ⟨hu, hrest⟩ := s.binEntered_enters j key arg
      exact ⟨_, exec_spawn_enters hi hm halign hkey h, hu.frame, hrest⟩
    · refine ⟨_, exec_spawn_flushes hi hm halign hkey hw hg hf, ((engaged_begun s).modCluster _ _).frame, ?_⟩
      rw [State.cluster_modCluster, if_pos rfl]
      exact (tget?_tmodify _ _ _ _).trans (if_pos rfl)

end Sys2Proof.Machine

namespace Sys2Proof.Machine
open Sys2Proof.Claims

/-! The object tables (R328). -/

/-- `u` is `x` but for the object tables and the slices. -/
structure TablesOnly (x u : State) : Prop where
  rest : ({ u with objects := x.objects, stackTbl := x.stackTbl } : State) = x

theorem TablesOnly.refl (x : State) : TablesOnly x x := ⟨rfl⟩
theorem TablesOnly.mem {x u : State} (h : TablesOnly x u) : u.mem = x.mem := (congrArg State.mem h.rest :)
theorem TablesOnly.homes {x u : State} (h : TablesOnly x u) : u.homes = x.homes := (congrArg State.homes h.rest :)
theorem TablesOnly.curWave {x u : State} (h : TablesOnly x u) : u.curWave = x.curWave := (congrArg State.curWave h.rest :)
theorem TablesOnly.waveAlive {x u : State} (h : TablesOnly x u) : u.waveAlive = x.waveAlive := (congrArg State.waveAlive h.rest :)
theorem TablesOnly.activeMask {x u : State} (h : TablesOnly x u) : u.activeMask = x.activeMask := (congrArg State.activeMask h.rest :)
theorem TablesOnly.messages {x u : State} (h : TablesOnly x u) : u.net ++ u.waiting = x.net ++ x.waiting := (congrArg (fun s : State => s.net ++ s.waiting) h.rest :)

theorem TablesOnly.modObject {x u : State} (h : TablesOnly x u) (n gen : Nat) (f : ObjEntry → ObjEntry) : TablesOnly x (u.modObject n gen f) :=
  List.foldlRecOn (motive := TablesOnly x) _ _ h (fun v hv k _ => by
    show TablesOnly x (if _ then _ else _)
    split
    · exact ⟨hv.rest⟩
    · exact hv)

/-- After a conversion the object tables are as they were: only the slices' lines have new keys (R330). -/
theorem State.rekey_keeps {x u : State} (h : TablesOnly x u) (o : ObjEntry) : TablesOnly x (u.rekey o) ∧ (u.rekey o).objects = u.objects := by
  have hstep (v : State) (hv : TablesOnly x v ∧ v.objects = u.objects) (k line : Nat) (c : Option SliceLine) :
      TablesOnly x (v.setCopy k line c) ∧ (v.setCopy k line c).objects = u.objects := ⟨⟨hv.1.rest⟩, hv.2⟩
  refine List.foldlRecOn (motive := fun v => TablesOnly x v ∧ v.objects = u.objects) _ _ ⟨h, rfl⟩ (fun v hv t _ => ?_)
  refine List.foldlRecOn (motive := fun v => TablesOnly x v ∧ v.objects = u.objects) _ _ hv (fun w hw p _ => ?_)
  split
  · exact hstep w hw _ _ _
  · exact hstep w hw _ _ _

/-- The keys of the object tables tell stacks and numbers apart. -/
theorem objectKey_inj {k j m n : Nat} (hm : m < 4096) (hn : n < 4096) : k * 4096 + m = j * 4096 + n ↔ k = j ∧ m = n := by omega

/-- A change of the entry that one stack's table holds of an object, while it is live. -/
def State.modObjectAt (s : State) (n gen : Nat) (f : ObjEntry → ObjEntry) (k : Nat) : State :=
  let o := tgetD s.objects (k * 4096 + n) {}
  if o.live && o.gen = gen then { s with objects := tset s.objects (k * 4096 + n) (f o) } else s

theorem State.objects_modObjectAt (s : State) (n gen : Nat) (f : ObjEntry → ObjEntry) (k i : Nat) :
    tgetD (s.modObjectAt n gen f k).objects i {} =
      if i = k * 4096 + n ∧ (tgetD s.objects i {}).live = true ∧ (tgetD s.objects i {}).gen = gen then f (tgetD s.objects i {})
      else tgetD s.objects i {} := by
  by_cases hi : i = k * 4096 + n
  · subst hi
    simp only [State.modObjectAt, Bool.and_eq_true, decide_eq_true_eq, true_and]
    split
    · exact tgetD_tset_same _ _ _ _
    · rfl
  · rw [if_neg (fun h => hi h.1), State.modObjectAt]
    split
    · exact tgetD_tset_other _ _ _ hi
    · rfl

/-- A change of the live entries of an object, at every stack. -/
theorem State.objects_modObject (s : State) {n : Nat} (hn : n < 4096) (gen : Nat) (f : ObjEntry → ObjEntry) {k : Nat} (hk : k < 8)
    {m : Nat} (hm : m < 4096) : tgetD (s.modObject n gen f).objects (k * 4096 + m) {} =
      if m = n ∧ (tgetD s.objects (k * 4096 + m) {}).live = true ∧ (tgetD s.objects (k * 4096 + m) {}).gen = gen
      then f (tgetD s.objects (k * 4096 + m) {}) else tgetD s.objects (k * 4096 + m) {} := by
  have key (ks : List Nat) (hks : ks.Nodup) (u : State) :
      tgetD (ks.foldl (fun u k => u.modObjectAt n gen f k) u).objects (k * 4096 + m) {} =
        if k ∈ ks ∧ m = n ∧ (tgetD u.objects (k * 4096 + m) {}).live = true ∧ (tgetD u.objects (k * 4096 + m) {}).gen = gen
        then f (tgetD u.objects (k * 4096 + m) {}) else tgetD u.objects (k * 4096 + m) {} := by
    induction ks generalizing u with
    | nil => simp
    | cons j ks ih =>
      obtain ⟨hj, hks⟩ := List.nodup_cons.1 hks
      rw [List.foldl_cons, ih hks]
      simp only [State.objects_modObjectAt, objectKey_inj hm hn]
      by_cases hkj : k = j
      · subst j
        simp only [hj, false_and, if_false, List.mem_cons, true_or, true_and]
      · simp only [hkj, false_and, if_false, List.mem_cons, false_or]
  have h := key (List.range 8) List.nodup_range s
  simp only [List.mem_range, hk, true_and] at h
  exact h

/-- The entries of a declaration, at the stacks that home part of the object. -/
theorem tgetD_entries (ks : List Nat) {n : Nat} (hn : n < 4096) (o : ObjEntry) (t : Tbl ObjEntry) (k : Nat) {m : Nat} (hm : m < 4096) :
    tgetD (ks.foldl (fun t k => tset t (k * 4096 + n) o) t) (k * 4096 + m) {} =
      if m = n ∧ k ∈ ks then o else tgetD t (k * 4096 + m) {} := by
  induction ks generalizing t with
  | nil => simp
  | cons j ks ih =>
    rw [List.foldl_cons, ih, tgetD_tset]
    simp only [objectKey_inj hm hn, List.mem_cons]
    by_cases hk : k ∈ ks <;> by_cases hj : k = j <;> by_cases hmn : m = n <;> simp [hk, hj, hmn]

theorem State.foldl_entries (ks : List Nat) (n : Nat) (o : ObjEntry) (x : State) :
    ks.foldl (fun (u : State) k => { u with objects := tset u.objects (k * 4096 + n) o }) x =
      { x with objects := ks.foldl (fun t k => tset t (k * 4096 + n) o) x.objects } := by
  induction ks generalizing x with
  | nil => rfl
  | cons k ks ih => exact ih _

/-- No entry of a number has been declared more often than the number. -/
theorem State.gen_le_generation (s : State) (n : Nat) {k : Nat} (hk : k < 8) : (tgetD s.objects (k * 4096 + n) {}).gen ≤ s.generation n := by
  have key (g : Nat → Nat) (ks : List Nat) : ∀ a, a ≤ ks.foldl (fun a k => max a (g k)) a ∧ ∀ j ∈ ks, g j ≤ ks.foldl (fun a k => max a (g k)) a := by
    induction ks with
    | nil => exact fun a => ⟨le_refl a, fun j hj => (List.not_mem_nil hj).elim⟩
    | cons i ks ih =>
      intro a
      obtain ⟨h1, h2⟩ := ih (max a (g i))
      exact ⟨(le_max_left _ _).trans h1, List.forall_mem_cons.2 ⟨(le_max_right _ _).trans h1, h2⟩⟩
  exact (key (fun k => (tgetD s.objects (k * 4096 + n) {}).gen) (List.range 8) 0).2 k (List.mem_range.2 hk)

/-! Conversions (R330). -/

/-- The units of a table depend on the shapes and the parts of its objects. -/
theorem State.unitLines_congr {s u : State} (h : ∀ i, (tgetD u.objects i {}).shape = (tgetD s.objects i {}).shape ∧
    (tgetD u.objects i {}).frames = (tgetD s.objects i {}).frames) (k : Nat) : u.unitLines k = s.unitLines k := by
  simp only [State.unitLines, ObjEntry.lineAt, h]

theorem State.modObject_shape (s : State) (n gen : Nat) {f : ObjEntry → ObjEntry} (hs : ∀ o, (f o).shape = o.shape)
    (hf : ∀ o, (f o).frames = o.frames) (i : Nat) : (tgetD (s.modObject n gen f).objects i {}).shape = (tgetD s.objects i {}).shape ∧
      (tgetD (s.modObject n gen f).objects i {}).frames = (tgetD s.objects i {}).frames := by
  refine List.foldlRecOn (motive := fun u : State => (tgetD u.objects i {}).shape = (tgetD s.objects i {}).shape ∧
    (tgetD u.objects i {}).frames = (tgetD s.objects i {}).frames) (List.range 8) (fun u k => u.modObjectAt n gen f k) ⟨rfl, rfl⟩
    (fun u hu k _ => ?_)
  rw [u.objects_modObjectAt]
  split
  · rw [hs, hf]; exact hu
  · exact hu

/-- With no unit of the range tracked and no message on its way, a conversion ends at once, and the entries change. -/
theorem State.convertOn_of_quiet {s : State} {o : ObjEntry} (ht : s.trackedUnits o = []) (hb : s.rangeBusy o = false) (n : Nat)
    (f : ObjEntry → ObjEntry) (k : State → State) : s.convertOn n o f k = k ((s.modObject n o.gen f).rekey o) := by
  simp [State.convertOn, State.convert, ht, hb]

theorem State.dropOn_of_quiet {s : State} {o : ObjEntry} (ht : s.trackedUnits o = []) (hb : s.rangeBusy o = false) (n : Nat) :
    s.dropOn n o = ((s.modObject n o.gen (fun x => { x with live := false, dropping := false, frames := [] })).rekey o).finish :=
  State.convertOn_of_quiet ht hb _ _ _

theorem State.declareOn_of_quiet {s : State} {o : ObjEntry} (ht : s.trackedUnits o = []) (hb : s.rangeBusy o = false) (d : SDst) (n : Nat) :
    s.declareOn d n o = (((s.modObject n o.gen (fun x => { x with declaring := false })).rekey o).putS d (handleOf n o.gen)).finish :=
  State.convertOn_of_quiet ht hb _ _ _

theorem State.trackedUnits_congr {s u : State} (hh : u.homes = s.homes) (hl : ∀ k, u.unitLines k = s.unitLines k) (o : ObjEntry) :
    u.trackedUnits o = s.trackedUnits o := by
  simp only [State.trackedUnits, hh, hl]
theorem State.rangeBusy_congr {s u : State} (hm : u.net ++ u.waiting = s.net ++ s.waiting) (hl : ∀ k, u.unitLines k = s.unitLines k) (o : ObjEntry) :
    u.rangeBusy o = s.rangeBusy o := by
  simp only [State.rangeBusy, hm, hl]

/-! OBJDECL and OBJDROP (R239, R240). -/

/-- A scalar result changes no more than the destination. -/
theorem State.putS_result {u : State} (ha : u.waveAlive = true) (hm : u.activeMask ≠ 0) (d : SDst) (v : Dword) :
    (u.putS d v).objects = u.objects ∧ (u.putS d v).mem = u.mem ∧ (u.putS d v).curWave.vregs = u.curWave.vregs ∧
      ∀ r, (u.putS d v).curWave.sreg r = if sdstReg d = some r then v else u.curWave.sreg r := by
  have ho := State.onlyCur_putS u.onlyCur_refl d v
  obtain ⟨rs, cs, ls, hw, hr⟩ := State.curWave_putS (s := u) d v ha
  refine ⟨(congrArg State.objects ho.1 :), (congrArg State.mem ho.1 :), by rw [hw]; rfl, fun r => ?_⟩
  rw [hw, show (Wave.written _ _ _ _ _).sreg r = _ from hr r]
  simp only [hm, ne_eq, not_false_eq_true, true_and]

theorem State.convertingObject_of_wait {s : State} (h : s.curSplit.wait = none) : s.begun.convertingObject = none := by
  simp only [State.convertingObject, s.begun_split, h]

/-- The parts of a shape's range, in the address space of the wave that issues. -/
def State.shapeFrames (x : State) (sh : Shape) : List ObjFrame := x.framesOf x.curWave.ctx sh.range.1 sh.range.2
/-- The lowest object number that is free in each of some stacks. -/
def State.freeNumber (x : State) (ks : List Nat) : Option Nat := (List.range 4096).find? (fun n => ks.all (fun k => x.numberFree k n))
/-- A live object shares a byte with some parts. -/
def State.overlaps (x : State) (frames : List ObjFrame) : Bool :=
  (tvals x.objects).any (fun o => o.live && o.frames.any (fun g => frames.any (framesMeet g)))
/-- The entry of an object while its range is converted. -/
def State.newEntry (x : State) (sh : Shape) (n : Nat) : ObjEntry :=
  { ctx := x.curWave.ctx, gen := x.generation n + 1, live := true, declaring := true, shape := sh, frames := x.shapeFrames sh }
/-- The state in which every stack that homes part of the object has its entry. -/
def State.entered (x : State) (sh : Shape) (n : Nat) : State :=
  { x with objects := (x.objectStacks (x.shapeFrames sh)).foldl (fun t k => tset t (k * 4096 + n) (x.newEntry sh n)) x.objects }

theorem State.declare_full {x : State} {sh : Shape} (hf : x.freeNumber (x.objectStacks (x.shapeFrames sh)) = none) (d : SDst) :
    x.declare d sh = (x.putS d 0x8000000000000001#64).finish := by
  rw [State.freeNumber, State.shapeFrames] at hf
  unfold State.declare
  dsimp only
  rw [hf]

theorem State.declare_numbered {x : State} {sh : Shape} {n : Nat} (hf : x.freeNumber (x.objectStacks (x.shapeFrames sh)) = some n) (d : SDst) :
    x.declare d sh = if x.overlaps (x.shapeFrames sh) then (x.putS d 0x8000000000000002#64).finish
      else (x.entered sh n).declareOn d n (x.newEntry sh n) := by
  rw [State.freeNumber, State.shapeFrames] at hf
  unfold State.declare
  dsimp only
  rw [hf]
  dsimp only
  rw [State.foldl_entries]
  rfl

/-- An OBJDECL whose record passes declares its shape. -/
theorem exec_objdecl_declares {d : SDst} {a : SSrc} {s x : State} {bs : List Byte} {sh : Shape} (hi : s.issues (.objdecl d a))
    (hm : s.activeMask ≠ 0) (hw : s.curSplit.wait = none) (hr : recordRead s.begun (s.readS64 a) x bs) (hp : parseShape bs = some sh) :
    exec (.objdecl d a) s = .next (x.declare d sh) := by
  rw [exec_objdecl, execObjdecl, issueOp_issues _ _ _ hi, s.begun_activeMask, if_neg hm, State.convertingObject_of_wait hw, s.begun_readS64,
    State.readRecord_reads hr, hp]

/-- A declaration that meets no tracked unit makes the object's entries and writes its handle. -/
theorem State.declare_enters {x : State} (ha : x.waveAlive = true) (hm : x.activeMask ≠ 0) (d : SDst) {sh : Shape} {n : Nat}
    (hf : x.freeNumber (x.objectStacks (x.shapeFrames sh)) = some n) (ho : x.overlaps (x.shapeFrames sh) = false)
    (ht : (x.entered sh n).trackedUnits (x.newEntry sh n) = []) (hb : (x.entered sh n).rangeBusy (x.newEntry sh n) = false) :
    ∃ u : State, x.declare d sh = u.finish ∧ u.mem = x.mem ∧ u.curWave.vregs = x.curWave.vregs ∧
      (∀ r, u.curWave.sreg r = if sdstReg d = some r then handleOf n (x.generation n + 1) else x.curWave.sreg r) ∧
      ∀ k, k < 8 → ∀ m, m < 4096 → tgetD u.objects (k * 4096 + m) {} =
        if m = n ∧ k ∈ x.objectStacks (x.shapeFrames sh) then { x.newEntry sh n with declaring := false } else tgetD x.objects (k * 4096 + m) {} := by
  have hn : n < 4096 := by
    rw [State.freeNumber] at hf
    exact List.mem_range.1 (List.mem_of_find?_eq_some hf)
  obtain ⟨hz, hzobj⟩ := State.rekey_keeps ((TablesOnly.mk rfl : TablesOnly x (x.entered sh n)).modObject n (x.newEntry sh n).gen
    (fun e => { e with declaring := false })) (x.newEntry sh n)
  obtain ⟨h1, h2, h3, h4⟩ := State.putS_result (hz.waveAlive.trans ha) (by rw [hz.activeMask]; exact hm) d (handleOf n (x.newEntry sh n).gen)
  refine ⟨_, ?_, h2.trans hz.mem, h3.trans (by rw [hz.curWave]), fun r => (h4 r).trans (by rw [hz.curWave]; rfl), fun k hk m hm' => ?_⟩
  · rw [State.declare_numbered hf, ho, if_neg Bool.false_ne_true]
    exact State.declareOn_of_quiet ht hb d n
  · rw [h1, hzobj, State.objects_modObject _ hn _ _ hk hm', State.entered, tgetD_entries _ hn _ _ k hm']
    by_cases hin : m = n ∧ k ∈ x.objectStacks (x.shapeFrames sh)
    · rw [if_pos hin, if_pos hin, if_pos ⟨hin.1, rfl, rfl⟩]
    · have hgen : ¬ (m = n ∧ (tgetD x.objects (k * 4096 + m) {}).live = true ∧
          (tgetD x.objects (k * 4096 + m) {}).gen = (x.newEntry sh n).gen) := by
        rintro ⟨rfl, -, hg⟩
        have hle := x.gen_le_generation m hk
        have hlt : (x.newEntry sh m).gen = x.generation m + 1 := rfl
        omega
      rw [if_neg hin, if_neg hin, if_neg hgen]

/-- The object that a handle names, if its bits are those of a handle. -/
def State.named (s : State) (h : Nat) : Option ObjEntry :=
  if h / 2 ^ 12 % 16 = 0 && h < 2 ^ 32 then s.objectOf s.curWave.ctx (h % 4096) (h / 2 ^ 16) else none

/-- An OBJDROP that waits for no conversion traps on a dead handle, and else begins the conversion. -/
theorem exec_objdrop_begins {a : SSrc} {s : State} (hi : s.issues (.objdrop a)) (hm : s.activeMask ≠ 0) (hw : s.curSplit.wait = none) :
    exec (.objdrop a) s = .next (match s.named (s.readS64 a).toNat with
      | none => s.begun.trapHere (s.info 0x04 s.curSplit.mask.toNat)
      | some o => (s.begun.modObject ((s.readS64 a).toNat % 4096) o.gen (fun x => { x with dropping := true })).dropOn
          ((s.readS64 a).toNat % 4096) { o with dropping := true }) := by
  have hnamed : (if (s.readS64 a).toNat / 2 ^ 12 % 16 = 0 && (s.readS64 a).toNat < 2 ^ 32 then
      s.begun.objectOf s.begun.curWave.ctx ((s.readS64 a).toNat % 4096) ((s.readS64 a).toNat / 2 ^ 16) else none) =
      s.named (s.readS64 a).toNat := by rw [s.begun_curWave]; rfl
  rw [exec_objdrop, execObjdrop, issueOp_issues _ _ _ hi, s.begun_activeMask, if_neg hm, State.convertingObject_of_wait hw]
  simp only [s.begun_readS64, hnamed, State.maskDetail, s.begun_split]
  rfl

/-- The end of an object whose range meets no tracked unit: its live entries go, in every stack. -/
theorem State.drop_ends {s : State} {n : Nat} (hn : n < 4096) {o : ObjEntry} (ht : s.trackedUnits o = []) (hb : s.rangeBusy o = false) :
    ∃ u : State, (s.modObject n o.gen (fun x => { x with dropping := true })).dropOn n { o with dropping := true } = u.finish ∧
      TablesOnly s u ∧ ∀ k, k < 8 → (tgetD u.objects (k * 4096 + n) {}).live =
        ((tgetD s.objects (k * 4096 + n) {}).live && (tgetD s.objects (k * 4096 + n) {}).gen != o.gen) := by
  have hv : TablesOnly s (s.modObject n o.gen (fun x => { x with dropping := true })) := (TablesOnly.refl s).modObject _ _ _
  have hlines := State.unitLines_congr (s.modObject_shape n o.gen (f := fun x => { x with dropping := true }) (fun _ => rfl) (fun _ => rfl))
  obtain ⟨hz, hzobj⟩ := State.rekey_keeps (hv.modObject n o.gen (fun x => { x with live := false, dropping := false, frames := [] }))
    { o with dropping := true }
  have ht' := (State.trackedUnits_congr hv.homes hlines { o with dropping := true }).trans ht
  have hb' := (State.rangeBusy_congr hv.messages hlines { o with dropping := true }).trans hb
  refine ⟨_, State.dropOn_of_quiet ht' hb' n, hz, fun k hk => ?_⟩
  rw [hzobj, State.objects_modObject _ hn _ _ hk hn, State.objects_modObject _ hn _ _ hk hn]
  generalize tgetD s.objects (k * 4096 + n) {} = e
  by_cases hl : e.live = true <;> by_cases hg : e.gen = o.gen <;> simp [hl, hg]

/-- Settles O40: where no unit of the range is tracked, conversions end at once, and a new generation exceeds every entry of its number. -/
theorem objectsComplete : Obligations.ObjectsComplete := by
  refine ⟨?_, ?_⟩
  · intro d a s x bs sh hi hm hw hr hp
    have hx := sameArch_of_recordRead hr
    have hex := exec_objdecl_declares hi hm hw hr hp
    have hwave : x.curWave = { s.curWave with resumed := false } := (State.sameArch_curWave hx).trans s.begun_curWave
    have halive : x.waveAlive = true := (State.waveAlive_sameArch hx).trans (s.begun_alive.trans hi.1)
    have hobjs : x.objects = s.objects := (congrArg State.objects hx.rest :)
    have hmem : x.mem = s.begun.mem := State.sameArch_mem hx
    have hact : x.activeMask ≠ 0 := by
      have hissue : x.issue = s.begun.issue := State.sameArch_issue hx
      rw [State.activeMask, State.sameArch_curWave hx, hissue, ← State.activeMask, s.begun_activeMask]
      exact hm
    have hsreg (r : Nat) : x.curWave.sreg r = s.curWave.sreg r := by rw [hwave]; rfl
    rw [← show x.curWave.ctx = s.curWave.ctx by rw [hwave]]
    have hcode (v : Dword) (hv : x.declare d sh = (x.putS d v).finish) : ∃ u : State, exec (.objdecl d a) s = .next u.finish ∧
        u.objects = s.objects ∧ u.mem = s.mem ∧ ∀ r, u.curWave.sreg r = if sdstReg d = some r then v else s.curWave.sreg r := by
      obtain ⟨h1, h2, -, h4⟩ := State.putS_result halive hact d v
      exact ⟨_, hex.trans (congrArg _ hv), h1.trans hobjs, h2.trans hmem, fun r => (h4 r).trans (by rw [hsreg])⟩
    intro frames ks free overlap
    refine ⟨fun hf => hcode _ ?_, fun n hf ho => hcode _ ?_, fun n hf ho => ?_⟩
    · exact State.declare_full hf d
    · exact (State.declare_numbered hf d).trans (if_pos ho)
    · intro o y ht hb
      obtain ⟨u, hu, h1, h2, h3, h4⟩ := State.declare_enters halive hact d hf ho ht hb
      refine ⟨u, hex.trans (congrArg _ hu), h1.trans hmem, h2.trans (by rw [hwave]), fun r => (h3 r).trans (by rw [hsreg]; rfl), ?_⟩
      rw [← hobjs]
      exact h4
  · intro a s hi hm hw h
    have hex := exec_objdrop_begins hi hm hw
    refine ⟨fun hdead => ?_, fun o h32 h16 ho ht hb => ?_⟩
    · have hnamed : s.named h = none := by
        rw [State.named]
        rcases hdead with hd | hd | hd
        · rw [decide_eq_false (Nat.not_lt.2 hd), Bool.and_false]; rfl
        · rw [decide_eq_false hd]; rfl
        · rw [hd, ite_self]
      rw [hex, hnamed]
    · have hnamed : s.named h = some o := by
        rw [State.named, decide_eq_true h16, decide_eq_true h32]; exact ho
      obtain ⟨u, hu, huo, hlive⟩ := State.drop_ends (s := s.begun) (Nat.mod_lt h (by decide)) ht hb
      rw [hex, hnamed]
      exact ⟨u, congrArg _ hu, huo.mem, by rw [huo.curWave, s.begun_curWave], hlive⟩

end Sys2Proof.Machine

namespace Sys2Proof.Machine
open Sys2Proof.Claims

/-! What the memory system changes when lines move: caches, queues, home entries, messages and release tags, one function at a time. -/

/-- A property of states that survives every change of the cores, the slices' lines, the home entries and the messages, and of the
release tags of a cluster. -/
structure Transported (P : State → Prop) : Prop where
  rest : ∀ (u : State) (cores : Tbl Core) (lines : Tbl Stack) (homes : Tbl HomeEntry) (net waiting : List Instr), P u →
    P { u with cores := cores, stackTbl := lines, homes := homes, net := net, waiting := waiting }
  tags : ∀ (u : State) (g : Nat) (ts : Cluster → List Tag), P u → P (u.modCluster g (fun c => { c with tags := ts c }))

section
variable {P : State → Prop} (hP : Transported P)
include hP

theorem Transported.send {s : State} (h : P s) (i : Instr) : P (s.send i) := hP.rest s _ _ _ _ _ h
theorem Transported.modCore {s : State} (h : P s) (c : Nat) (f : Core → Core) : P (s.modCore c f) := hP.rest s _ _ _ _ _ h
theorem Transported.setCopy {s : State} (h : P s) (y line : Nat) (c : Option SliceLine) : P (s.setCopy y line c) := hP.rest s _ _ _ _ _ h

theorem Transported.sendOnce {s : State} (h : P s) (i : Instr) : P (s.sendOnce i) := by
  rw [State.sendOnce]; split
  · exact h
  · exact hP.send h i

theorem Transported.setHome {s : State} (h : P s) (k : Nat) (e : HomeEntry) : P (s.setHome k e) := by
  rw [State.setHome]; split
  · exact hP.rest s _ _ _ _ _ h
  · exact hP.rest s _ _ _ _ _ h

theorem Transported.askFpub {s : State} (h : P s) (core epoch level requester : Nat) : P (s.askFpub core epoch level requester) := by
  rw [State.askFpub]; split
  · exact h
  · exact hP.sendOnce h _

theorem Transported.settle {s : State} (h : P s) (line : Nat) : P (s.settle line) := by
  refine List.foldlRecOn (motive := P) _ _ h (fun u hu p _ => ?_)
  refine List.foldlRecOn (motive := P) _ _ hu (fun v hv o _ => ?_)
  dsimp only
  split
  · split
    · exact hP.sendOnce hv _
    · exact hv
  · exact hv

theorem Transported.dropL1 {s : State} (h : P s) (line core : Nat) : P (s.dropL1 line core) := by
  rw [State.dropL1]; split
  · exact hP.modCore h _ _
  · exact h

/-- Every core drops its copies of some lines. -/
theorem Transported.dropLines {s : State} (h : P s) (ls : List Nat) :
    P (ls.foldl (fun (u : State) l => u.cores.foldl (fun (u : State) p => u.dropL1 l p.1) u) s) :=
  List.foldlRecOn (motive := P) _ _ h (fun _ hu _ _ => List.foldlRecOn (motive := P) _ _ hu (fun _ hv _ _ => hP.dropL1 hv _ _))

theorem Transported.dropPart {s : State} (h : P s) (y k : Nat) : P (s.dropPart y k) := by
  refine List.foldlRecOn (motive := P) _ _ h (fun u hu l _ => ?_)
  split
  · exact hP.setCopy hu _ _ _
  · exact hu

theorem Transported.turnPart {s : State} (h : P s) (y k : Nat) (f : CopyState → CopyState) : P (s.turnPart y k f) := by
  refine List.foldlRecOn (motive := P) _ _ h (fun u hu l _ => ?_)
  split
  · split
    · exact hP.setCopy hu _ _ _
    · exact hu
  · exact hu

theorem Transported.publishUnit {s : State} (h : P s) (k : Nat) : P (s.publishUnit k) := by
  refine List.foldlRecOn (motive := P) _ _ (hP.setHome ?_ _ _) (fun u hu l _ => hP.settle hu l)
  refine List.foldlRecOn (motive := P) _ _ (hP.dropLines h _) (fun u hu y _ => ?_)
  split
  · split
    · exact hP.turnPart hu _ _ _
    · exact hP.dropPart hu _ _
  · exact hu

theorem Transported.publishLine {s : State} (h : P s) (line : Nat) : P (s.publishLine line) :=
  List.foldlRecOn (motive := P) _ _ h (fun _ hu k _ => hP.publishUnit hu k)

theorem Transported.writeBack {s : State} (h : P s) (y k : Nat) : P (s.writeBack y k) := by
  have hasked : P ((s.unitLines k).foldl (fun u l => (u.tagsOf l).foldl (fun u t => u.askFpub t.core t.epoch 6 t.core) u) s) :=
    List.foldlRecOn (motive := P) _ _ h (fun u hu l _ => List.foldlRecOn (motive := P) _ _ hu (fun v hv t _ => hP.askFpub hv _ _ _ _))
  unfold State.writeBack; extract_lets; split
  · exact hP.sendOnce hasked _
  · exact hasked

theorem Transported.evict {s : State} (h : P s) (y line : Nat) : P (s.evict y line) := by
  rw [State.evict]; split
  · refine hP.setCopy (List.foldlRecOn (motive := P) _ _ h (fun u hu p _ => hP.dropPart ?_ _ _)) _ _ _
    split
    · exact hP.writeBack hu _ _
    · exact hu
  · exact h

theorem Transported.placeCopy {s : State} (h : P s) (g line : Nat) (c : SliceLine) (cls : Nat) : P (s.placeCopy g line c cls) := by
  unfold State.placeCopy
  extract_lets ways ls cls'
  split
  · exact h
  · split
    extract_lets aged s1 hashed s2
    have haged : P aged := List.foldlRecOn (motive := P) _ _ h (fun u hu p _ => hP.setCopy hu _ _ _)
    have hs1 : P s1 := by
      unfold s1
      split
      · exact hP.evict haged _ _
      · exact haged
    refine hP.setCopy ?_ _ _ _
    unfold s2
    split
    · exact hs1
    · split
      · exact hP.evict hs1 _ _
      · exact hs1

theorem Transported.moveTags {s : State} (h : P s) (line a b : Nat) : P (s.moveTags line a b) := by
  unfold State.moveTags; extract_lets; split
  · exact h
  · split
    · exact h
    · exact hP.tags _ _ _ (hP.tags _ _ _ h)

theorem Transported.touchCopy {s : State} (h : P s) (core line : Nat) (counts : Bool) : P (s.touchCopy core line counts) := by
  unfold State.touchCopy
  extract_lets g
  split
  · exact h
  · extract_lets c1 c
    split
    · split
      · exact hP.askFpub (hP.setCopy h _ _ _) _ _ _ _
      · exact hP.moveTags (hP.placeCopy (hP.setCopy h _ _ _) _ _ _ _) _ _ _
    · exact hP.setCopy h _ _ _

theorem Transported.enterSlice {s : State} (h : P s) (core line : Nat) (ks : List Nat) (counts : Bool) :
    P (s.enterSlice core line ks counts) := by
  unfold State.enterSlice; extract_lets; split
  · exact hP.touchCopy (hP.setCopy h _ _ _) _ _ _
  · split
    · exact h
    · exact hP.placeCopy h _ _ _ _

theorem Transported.sendHome {s : State} (h : P s) (k : Nat) : P (s.sendHome k) := by
  have hparts : P ((List.range 8).foldl (fun (u : State) y => u.dropPart y k)
      ((s.unitLines k).foldl (fun (u : State) l => u.cores.foldl (fun (u : State) p => u.dropL1 l p.1) u) s)) :=
    List.foldlRecOn (motive := P) _ _ (hP.dropLines h _) (fun _ hu y _ => hP.dropPart hu y k)
  exact hP.rest _ _ _ _ _ _ hparts

theorem Transported.homeRoom {s : State} (h : P s) (k : Nat) : P (s.homeRoom k) := by
  unfold State.homeRoom; extract_lets; split
  · exact h
  · split
    · exact hP.sendHome h _
    · exact h

theorem Transported.install {s : State} (h : P s) (g k : Nat) (st : CopyState) (fresh : Option Nat) : P (s.install g k st fresh) := by
  refine List.foldlRecOn (motive := P) _ _ h (fun u hu l _ => ?_)
  split
  · exact hP.setCopy hu _ _ _
  · exact hP.placeCopy hu _ _ _ _

theorem Transported.bringIn {s : State} (h : P s) (core ctx line : Nat) (ks : List Nat) (counts : Bool) :
    P (s.bringIn core ctx line ks counts) := by
  refine List.foldlRecOn (motive := P) _ _ ?_ (fun u hu k _ => ?_)
  · split
    · exact hP.enterSlice h _ _ _ _
    · exact h
  · split
    · exact hu
    · exact hP.install (hP.setHome (hP.homeRoom hu k) _ _) _ _ _ _

theorem Transported.noteRead {s : State} (h : P s) (core line : Nat) (v : LineView) : P (s.noteRead core line v) := by
  unfold State.noteRead; extract_lets; split
  · exact h
  · exact hP.modCore h _ _

theorem Transported.engineBrings {s : State} (h : P s) (core line : Nat) : P (s.engineBrings core line) := by
  unfold State.engineBrings; extract_lets; split
  · exact hP.bringIn h _ _ _ _ _
  · exact h

/-- A core's copies of a line that an engine has read for it are refreshed (R269). -/
theorem Transported.refreshCore {s : State} (h : P s) (core line : Nat) : P (s.refreshCore core line) := by
  have hbrings := hP.engineBrings h core line
  refine hP.noteRead ?_ _ _ _
  have hown : P (if (tget? ((s.engineBrings core line).core core).l1 line).any
      (fun x => x.data != ((s.engineBrings core line).ownerView line).bytes) then (s.engineBrings core line).dropL1 line core
      else s.engineBrings core line) := by
    split
    · exact hP.dropL1 hbrings _ _
    · exact hbrings
  split
  · split
    · exact hown
    · exact List.foldlRecOn (motive := P) _ _ hown (fun _ hu p _ => hP.dropPart hu _ _)
  · exact hown

theorem Transported.refreshWords {s : State} (h : P s) (ctx core : Nat) (vas : List Dword) : P (s.refreshWords ctx core vas) :=
  List.foldlRecOn (motive := P) _ _ h (fun _ hu l _ => hP.refreshCore hu core l)

end

/-- What a program sees is kept (`State.sameArch`), and so is the queue of every gather engine. -/
structure SeenSame (s u : State) : Prop where
  arch : s.sameArch u
  gather : ∀ g, (u.cluster g).gather = (s.cluster g).gather

theorem SeenSame.refl (s : State) : SeenSame s s := ⟨s.sameArch_refl, fun _ => rfl⟩

theorem transported_seenSame (s : State) : Transported (SeenSame s) where
  rest u cores lines homes net waiting h := ⟨State.sameArch_mk u cores lines homes net waiting h.arch, h.gather⟩
  tags u g ts h := ⟨State.modCluster_same u g _ (fun _ => rfl) h.arch, fun k => by
    rw [State.cluster_modCluster]; split
    · subst k; exact h.gather _
    · exact h.gather k⟩

theorem State.publishLine_seen (s : State) (line : Nat) : SeenSame s (s.publishLine line) :=
  (transported_seenSame s).publishLine (SeenSame.refl s) line
theorem State.refreshWords_seen (s : State) (ctx core : Nat) (vas : List Dword) : SeenSame s (s.refreshWords ctx core vas) :=
  (transported_seenSame s).refreshWords (SeenSame.refl s) ctx core vas

end Sys2Proof.Machine

namespace Sys2Proof.Machine
open Sys2Proof.Claims

/-! A write at package scope (`State.publish`), and the completion record (`State.appendRecord`). -/

/-- Waves, blocks, contexts and the queues of the gather engines are those of `s`. -/
structure QueuesSame (s u : State) : Prop where
  work : s.sameWork u
  gather : ∀ g, (u.cluster g).gather = (s.cluster g).gather

theorem QueuesSame.trans {s t u : State} (h : QueuesSame s t) (h' : QueuesSame t u) : QueuesSame s u :=
  ⟨State.sameWork_trans h.work h'.work, fun g => (h'.gather g).trans (h.gather g)⟩
theorem QueuesSame.waves {s u : State} (h : QueuesSame s u) : u.waves = s.waves := h.work.1
theorem QueuesSame.blocks {s u : State} (h : QueuesSame s u) : u.blocks = s.blocks := h.work.2.1
theorem QueuesSame.ctxs {s u : State} (h : QueuesSame s u) : u.ctxs = s.ctxs := h.work.2.2

theorem SeenSame.queues {s u : State} (h : SeenSame s u) : QueuesSame s u :=
  ⟨⟨State.sameArch_waves h.arch, State.sameArch_blocks h.arch, (congrArg State.ctxs h.arch.rest :)⟩, h.gather⟩

theorem State.gather_modCluster (s : State) (g : Nat) {f : Cluster → Cluster} (hf : ∀ c, (f c).gather = c.gather) (k : Nat) :
    ((s.modCluster g f).cluster k).gather = (s.cluster k).gather := by
  rw [State.cluster_modCluster]; split
  · subst k; exact hf _
  · rfl

/-- A decant record that breaks takes no gather command with it. -/
theorem State.gather_decantRetire (s : State) (r cause detail g : Nat) :
    ((s.decantRetire r cause detail).cluster g).gather = (s.cluster g).gather := by
  rw [State.decantRetire, State.gather_modCluster (f := fun c => { c with counters := tdel c.counters r }) _ _ (fun _ => rfl)]
  simp only [State.cluster, tgetD, tget?_tmap]
  cases tget? s.clusters g with
  | none => rfl
  | some c => rfl

theorem State.writeBytes_queues (s : State) (pa : Nat) (bs : List Byte) : QueuesSame s (s.writeBytes pa bs) := by
  refine ⟨s.sameWork_writeBytes pa bs, fun g => ?_⟩
  simp only [State.writeBytes, State.decantBreak]
  split
  · exact State.gather_decantRetire _ _ _ _ g
  · rfl

theorem State.writeOwned_queues (s : State) (pa : Nat) (bs : List Byte) : QueuesSame s (s.writeOwned pa bs) := by
  obtain ⟨⟨hw, hb, hc⟩, hg⟩ := s.writeBytes_queues pa (s.ownBytes pa bs)
  rw [State.writeOwned]
  split
  · exact ⟨⟨hw, hb, hc⟩, hg⟩
  · exact ⟨⟨hw, hb, hc⟩, hg⟩

theorem State.publish_queues (s : State) (pa : Nat) (bs : List Byte) : QueuesSame s (s.publish pa bs) :=
  (s.writeOwned_queues pa bs).trans (State.publishLine_seen _ _).queues

/-- A write where no decant record lives writes its own bytes alone. -/
theorem State.memByte_publish_outside {s : State} {pa : Nat} (hc : s.counter (lineOf pa) = none) {bs : List Byte} {a : Nat}
    (ha : a < pa ∨ pa + bs.length ≤ a) : memByte (s.publish pa bs).mem a = memByte s.mem a := by
  have hbreak : ({ s.memWrite pa (s.ownBytes pa bs) with poison := clearGranules s.poison pa (s.ownBytes pa bs).length } : State).decantBreak
      (lineOf pa) = { s.memWrite pa (s.ownBytes pa bs) with poison := clearGranules s.poison pa (s.ownBytes pa bs).length } := by
    rw [State.decantBreak, if_neg]
    show ¬ (s.counter (lineOf pa)).isSome = true
    rw [hc]; exact Bool.false_ne_true
  have hmem : (s.publish pa bs).mem = memPut s.mem pa (s.ownBytes pa bs) := by
    rw [State.publish, State.sameArch_mem (State.publishLine_seen _ _).arch]
    simp only [State.writeOwned, State.writeBytes, hbreak]
    split
    · rfl
    · rfl
  rw [hmem, memByte_memPut_outside]
  rwa [State.ownBytes, List.length_map, List.length_zipIdx]

theorem Record.image_length (r : Record) (seq time : Nat) : (r.image seq time).length = 64 := by
  simp only [Record.image, List.length_append, leBytes_length]

/-- `u` is `s` but for the blocks and what moves lines; the decant counters live as in `s`. -/
structure Landed (s u : State) : Prop where
  rest : ({ u with blocks := s.blocks, cores := s.cores, clusters := s.clusters, stackTbl := s.stackTbl, homes := s.homes, net := s.net,
                   waiting := s.waiting } : State) = s
  counters : ∀ g, (u.cluster g).counters = (s.cluster g).counters

theorem Landed.refl (s : State) : Landed s s := ⟨rfl, fun _ => rfl⟩
theorem Landed.modBlock {s u : State} (h : Landed s u) (k : Nat) (f : Block → Block) : Landed s (u.modBlock k f) := ⟨h.rest, h.counters⟩
theorem Landed.seen {s u v : State} (h : Landed s u) (hv : SeenSame u v) : Landed s v :=
  ⟨(congrArg (fun x : State => { x with blocks := s.blocks, cores := s.cores, clusters := s.clusters, stackTbl := s.stackTbl, homes := s.homes,
                                         net := s.net, waiting := s.waiting }) hv.arch.rest :).trans h.rest,
    fun g => (hv.arch.counters g).trans (h.counters g)⟩
theorem Landed.modCluster {s u : State} (h : Landed s u) (g : Nat) {f : Cluster → Cluster} (hf : ∀ c, (f c).counters = c.counters) :
    Landed s (u.modCluster g f) := by
  refine ⟨h.rest, fun k => ?_⟩
  rw [State.cluster_modCluster]; split
  · subst k; exact (hf _).trans (h.counters _)
  · exact h.counters k
theorem Landed.mem {s u : State} (h : Landed s u) : u.mem = s.mem := (congrArg State.mem h.rest :)
theorem Landed.waves {s u : State} (h : Landed s u) : u.waves = s.waves := (congrArg State.waves h.rest :)
theorem Landed.ctxs {s u : State} (h : Landed s u) : u.ctxs = s.ctxs := (congrArg State.ctxs h.rest :)
theorem Landed.counter {s u : State} (h : Landed s u) (r : Nat) : u.counter r = s.counter r := by
  rw [State.counter, State.counter, h.counters]
theorem Landed.enginePlace {s u : State} (h : Landed s u) (ctx : Nat) (va : Dword) (a : Access) :
    u.enginePlace ctx va a = s.enginePlace ctx va a := by
  have hdead : u.dead = s.dead := (congrArg State.dead h.rest :)
  have hoff : u.offline = s.offline := (congrArg State.offline h.rest :)
  simp only [State.enginePlace, State.xlateWalk, State.walk, State.homeLost, State.ctx, h.mem, h.ctxs, hdead, hoff]
  <;> rfl
theorem Landed.ringSlot {s u : State} (h : Landed s u) (ctx : Nat) : ringSlot u ctx = ringSlot s ctx := by
  simp only [Claims.ringSlot, State.ctx, h.ctxs, h.enginePlace]
  <;> rfl

theorem State.appendRecord_queues (s : State) (ctx : Nat) (r : Record) : (s.appendRecord ctx r).waves = s.waves ∧
    (s.appendRecord ctx r).blocks = s.blocks ∧ ∀ g, ((s.appendRecord ctx r).cluster g).gather = (s.cluster g).gather := by
  rw [State.appendRecord]
  split
  · exact ⟨rfl, rfl, fun _ => rfl⟩
  · dsimp only
    split
    · have h := s.publish_queues
      exact ⟨(h _ _).waves, (h _ _).blocks, (h _ _).gather⟩
    · exact ⟨rfl, rfl, fun _ => rfl⟩

theorem State.appendRecord_off {s : State} {ctx : Nat} (h : (s.ctx ctx).cring = 0) (r : Record) : s.appendRecord ctx r = s := by
  rw [State.appendRecord, h]; rfl

/-- The record is written at its slot of the ring, if there is one, and nowhere else in DRAM. -/
theorem State.appendRecord_onlyRecord {s : State} {ctx : Nat} (hc : ∀ p, ringSlot s ctx = some p → s.counter (lineOf p) = none) (r : Record) :
    onlyRecord s (s.appendRecord ctx r) (ringSlot s ctx) := by
  intro a ha
  rw [State.appendRecord]
  split
  · rfl
  · rename_i hring
    have hslot : ringSlot s ctx = match s.enginePlace ctx (s.ctx ctx).ringPlace .write with
        | .ok pa => some pa
        | .error _ => none := if_neg (by simpa using hring)
    dsimp only
    split
    · rename_i pa hpa
      rw [hpa] at hslot
      exact State.memByte_publish_outside (hc pa hslot) (by rw [Record.image_length]; exact ha pa hslot)
    · rfl

/-- The record after work that has landed. -/
theorem Landed.onlyRecord {s u : State} (h : Landed s u) {ctx : Nat} (hc : ∀ p, Claims.ringSlot s ctx = some p → s.counter (lineOf p) = none)
    (r : Record) : Claims.onlyRecord s (u.appendRecord ctx r) (Claims.ringSlot s ctx) := by
  intro a ha
  rw [← h.mem]
  exact State.appendRecord_onlyRecord (fun p hp => (h.counter _).trans (hc p (h.ringSlot ctx ▸ hp))) r a (h.ringSlot ctx ▸ ha)

/-! Writes into scratchpads. -/

/-- What a list of bytes at an address leaves at each address. -/
def bytesAt (a : Nat) (bs : List Byte) (n : Nat) : Option Byte := if a ≤ n ∧ n < a + bs.length then some (bs.getD (n - a) 0) else none

theorem memByte_memPut_bytesAt (m : Tbl Byte) (a : Nat) (bs : List Byte) (n : Nat) :
    memByte (memPut m a bs) n = (bytesAt a bs n).getD (memByte m n) := by
  rw [memByte_memPut, bytesAt]; split <;> rfl

theorem flagByte_some (f : Nat) (v : Word) (n : Nat) : flagByte (some f) v n = bytesAt f (leBytes 4 v.toNat) n := by
  simp only [flagByte, bytesAt, leBytes_length]
  split
  · rename_i h
    have hlt : n - f < (leBytes 4 v.toNat).length := by rw [leBytes_length]; omega
    rw [List.getElem?_eq_getElem hlt, List.getD_eq_getElem _ _ hlt]
  · rfl

theorem State.scratch_modBlock_kept (s : State) (k : Nat) {f : Block → Block} (hf : ∀ b, (f b).scratch = b.scratch) (j : Nat) :
    ((s.modBlock k f).block j).scratch = (s.block j).scratch := State.block_modBlock_kept Block.scratch hf s k j

theorem Block.scratch_modTiles (b : Block) (ts : List Nat) (f : Tile → Tile) : (b.modTiles ts f).scratch = b.scratch :=
  (congrArg Prod.fst (b.contents_modTiles ts f) :)

/-- The scratchpads after tiles of a block complete and its flag is written (R223). -/
theorem State.memByte_finishBlock {s : State} {b : Nat} (hb : (tget? s.blocks b).isSome = true) (ts : List Nat) (flag : Option Nat) (v : Word)
    (k n : Nat) : memByte ((s.finishBlock b ts flag v).block k).scratch n =
      if k = b then (flagByte flag v n).getD (memByte (s.block k).scratch n) else memByte (s.block k).scratch n := by
  have htiles (j : Nat) : ((s.modTiles b ts Tile.complete).block j).scratch = (s.block j).scratch :=
    s.scratch_modBlock_kept b (fun x => x.scratch_modTiles ts _) j
  cases flag with
  | none =>
    show memByte ((s.modTiles b ts Tile.complete).block k).scratch n = _
    rw [htiles, show flagByte none v n = none from rfl, Option.getD_none, ite_self]
  | some f =>
    show memByte (((s.modTiles b ts Tile.complete).modBlock b (fun x => { x with scratch := memPut x.scratch f (leBytes 4 v.toNat) })).block k).scratch n = _
    rw [State.block_modBlock _ _ _ _ ((s.resident_modTiles _ _ _ _).trans hb)]
    split
    · subst k
      show memByte (memPut ((s.modTiles b ts Tile.complete).block b).scratch f _) n = _
      rw [memByte_memPut_bytesAt, htiles, flagByte_some]
    · rw [htiles]

end Sys2Proof.Machine

namespace Sys2Proof.Machine
open Sys2Proof.Claims

/-! How a copy lands (R220 to R228). -/

/-- The bytes of some blocks' scratchpads at an address, when each of the blocks takes the same write there. -/
theorem State.memByte_foldl_targets {step : State → Nat → State} {o : Option Byte} {n : Nat}
    (hres : ∀ u k j, (tget? (step u k).blocks j).isSome = (tget? u.blocks j).isSome)
    (hstep : ∀ u k, (tget? u.blocks k).isSome = true → ∀ j, memByte ((step u k).block j).scratch n =
      if j = k then o.getD (memByte (u.block j).scratch n) else memByte (u.block j).scratch n) (ks : List Nat) :
    ∀ u : State, (∀ k ∈ ks, (tget? u.blocks k).isSome = true) → ∀ j, memByte ((ks.foldl step u).block j).scratch n =
      if j ∈ ks then o.getD (memByte (u.block j).scratch n) else memByte (u.block j).scratch n := by
  induction ks with
  | nil => intro u _ j; simp
  | cons k ks ih =>
    intro u hu j
    obtain ⟨hk, hks⟩ := List.forall_mem_cons.1 hu
    rw [List.foldl_cons, ih _ (fun i hi => (hres u k i).trans (hks i hi)), hstep u k hk]
    by_cases hj : j = k
    · subst j
      cases o <;> simp
    · simp [hj]

theorem State.resident_foldl {step : State → Nat → State} (hres : ∀ u k j, (tget? (step u k).blocks j).isSome = (tget? u.blocks j).isSome)
    (ks : List Nat) (u : State) (j : Nat) : (tget? (ks.foldl step u).blocks j).isSome = (tget? u.blocks j).isSome :=
  List.foldlRecOn (motive := fun v : State => (tget? v.blocks j).isSome = (tget? u.blocks j).isSome) _ _ rfl
    (fun v hv k _ => (hres v k j).trans hv)

/-- A block whose completion flag has been written. -/
def Block.flagged (f : Nat) (v : Word) (k : Block) : Block := { k with scratch := memPut k.scratch f (leBytes 4 v.toNat) }

/-- The rows of a copy are written into its targets (R223). -/
def State.copyLanded (s : State) (ks : List Nat) (d : WinDesc) (data : List Byte) (bad : List Nat) : State :=
  ks.foldl (fun (u : State) k => u.modBlock k (Block.engineWrite d.dest data bad)) s

/-- The tiles of a copy's targets return and the flags are written (R223). -/
def State.copyReturned (s : State) (ks : List Nat) (block window : Nat) (d : WinDesc) : State :=
  ks.foldl (fun (u : State) k =>
    u.finishBlock k (u.heldBy k (if k = block then .copy window else .mcast block window) d.span) d.flagAddr d.flagVal) s

/-- The targets' cores see what the engine has read for them (R269). -/
def State.copySeen (s : State) (ks : List Nat) (ctx : Nat) (d : WinDesc) : State :=
  ks.foldl (fun (u : State) k => u.refreshWords ctx (u.block k).core d.words) s

theorem State.copySeen_seen (s : State) (ks : List Nat) (ctx : Nat) (d : WinDesc) : SeenSame s (s.copySeen ks ctx d) :=
  List.foldlRecOn (motive := SeenSame s) _ _ (SeenSame.refl s) (fun _ hu _ _ => (transported_seenSame s).refreshWords hu _ _ _)

theorem State.resident_finishBlock (s : State) (b : Nat) (ts : List Nat) (flag : Option Nat) (v : Word) (k : Nat) :
    (tget? (s.finishBlock b ts flag v).blocks k).isSome = (tget? s.blocks k).isSome := by
  cases flag with
  | none => exact s.resident_modTiles _ _ _ _
  | some f => exact (State.resident_modBlock _ _ _ _).trans (s.resident_modTiles _ _ _ _)

theorem Landed.finishBlock {s u : State} (h : Landed s u) (b : Nat) (ts : List Nat) (flag : Option Nat) (v : Word) :
    Landed s (u.finishBlock b ts flag v) := by
  cases flag with
  | none => exact h.modBlock _ _
  | some f => exact (h.modBlock _ _).modBlock _ _

/-- The windows of blocks are kept, and tiles of one block complete. -/
theorem State.window_finishBlock (s : State) (b : Nat) (ts : List Nat) (flag : Option Nat) (v : Word) (k j : Nat) :
    ((s.finishBlock b ts flag v).block k).window j = (s.block k).window j := by
  cases flag with
  | none => exact s.window_modTiles _ _ _ _ _
  | some f => exact (State.block_modBlock_kept (fun x => x.window j) (f := Block.flagged f v) (fun _ => rfl) _ _ _).trans (s.window_modTiles _ _ _ _ _)

theorem State.tile_finishBlock {s : State} {b : Nat} (hb : (tget? s.blocks b).isSome = true) {ts : List Nat} (hts : ts.Nodup)
    (flag : Option Nat) (v : Word) (t : Nat) : ((s.finishBlock b ts flag v).block b).tile t =
      if t ∈ ts then ((s.block b).tile t).complete else (s.block b).tile t := by
  rw [← State.tile_modTiles hb hts Tile.complete t]
  cases flag with
  | none => rfl
  | some f => exact State.block_modBlock_kept (fun x => x.tile t) (f := Block.flagged f v) (fun _ => rfl) _ _ _

theorem State.tile_finishBlock_other (s : State) {b k : Nat} (hk : k ≠ b) (ts : List Nat) (flag : Option Nat) (v : Word) (t : Nat) :
    ((s.finishBlock b ts flag v).block k).tile t = (s.block k).tile t := by
  have htiles : (s.modTiles b ts Tile.complete).block k = s.block k := tgetD_tmodify_other _ _ _ hk
  rw [← htiles]
  cases flag with
  | none => rfl
  | some f => exact State.block_modBlock_kept (fun x => x.tile t) (f := Block.flagged f v) (fun _ => rfl) _ _ _

/-! The state of a copy after each step. -/

section
variable {s : State} {ks : List Nat} (hks : ∀ k ∈ ks, (tget? s.blocks k).isSome = true) (block window : Nat) (d : WinDesc)
  (data : List Byte) (bad : List Nat)

theorem State.landed_copy : Landed s ((s.copyLanded ks d data bad).copyReturned ks block window d) := by
  refine List.foldlRecOn (motive := Landed s) _ _ ?_ (fun u hu k _ => hu.finishBlock _ _ _ _)
  exact List.foldlRecOn (motive := Landed s) _ _ (Landed.refl s) (fun u hu k _ => hu.modBlock _ _)

theorem State.resident_copyLanded (j : Nat) : (tget? (s.copyLanded ks d data bad).blocks j).isSome = (tget? s.blocks j).isSome :=
  State.resident_foldl (fun u _ _ => u.resident_modBlock _ _ _) ks s j

theorem State.resident_copyReturned (s : State) (ks : List Nat) (j : Nat) :
    (tget? (s.copyReturned ks block window d).blocks j).isSome = (tget? s.blocks j).isSome :=
  State.resident_foldl (fun u _ _ => u.resident_finishBlock _ _ _ _ _) ks s j

theorem State.window_copyReturned (k j : Nat) :
    (((s.copyLanded ks d data bad).copyReturned ks block window d).block k).window j = (s.block k).window j := by
  refine List.foldlRecOn (motive := fun u : State => (u.block k).window j = (s.block k).window j) _ _ ?_
    (fun u hu i _ => (u.window_finishBlock _ _ _ _ _ _).trans hu)
  exact List.foldlRecOn (motive := fun u : State => (u.block k).window j = (s.block k).window j) _ _ rfl
    (fun u hu i _ => (State.block_modBlock_kept (fun x => x.window j) (f := Block.engineWrite d.dest data bad) (fun _ => rfl) u i k).trans hu)

theorem State.tile_copyLanded (k t : Nat) : ((s.copyLanded ks d data bad).block k).tile t = (s.block k).tile t :=
  List.foldlRecOn (motive := fun u : State => (u.block k).tile t = (s.block k).tile t) _ _ rfl
    (fun u hu i _ => (State.block_modBlock_kept (fun x => x.tile t) (f := Block.engineWrite d.dest data bad) (fun _ => rfl) u i k).trans hu)

include hks

/-- The bytes of every scratchpad once a copy has landed: the flag, the rows, or what stood there (R223). -/
theorem State.memByte_copyReturned (k n : Nat) :
    memByte (((s.copyLanded ks d data bad).copyReturned ks block window d).block k).scratch n =
      if k ∈ ks then (flagByte d.flagAddr d.flagVal n).getD ((bytesAt d.dest data n).getD (memByte (s.block k).scratch n))
      else memByte (s.block k).scratch n := by
  have hrows := State.memByte_foldl_targets (step := fun u k => u.modBlock k (Block.engineWrite d.dest data bad)) (o := bytesAt d.dest data n)
    (fun u _ _ => u.resident_modBlock _ _ _) (fun u i hi j => by
      rw [State.block_modBlock _ _ _ _ hi]
      split
      · subst j; exact memByte_memPut_bytesAt _ _ _ _
      · rfl) ks s hks k
  have hflags := State.memByte_foldl_targets (o := flagByte d.flagAddr d.flagVal n)
    (step := fun u k => u.finishBlock k (u.heldBy k (if k = block then .copy window else .mcast block window) d.span) d.flagAddr d.flagVal)
    (fun u _ _ => u.resident_finishBlock _ _ _ _ _) (fun u i hi j => State.memByte_finishBlock hi _ _ _ _ _) ks (s.copyLanded ks d data bad)
    (fun i hi => (State.resident_copyLanded d data bad i).trans (hks i hi)) k
  refine hflags.trans ?_
  rw [show memByte ((s.copyLanded ks d data bad).block k).scratch n = _ from hrows]
  by_cases hk : k ∈ ks <;> simp only [hk, if_true, if_false]

/-- The tiles of the window's own block once its copy has landed: those that it held complete (R223). -/
theorem State.tile_copyReturned (t : Nat) :
    (((s.copyLanded ks d data bad).copyReturned ks block window d).block block).tile t =
      if block ∈ ks ∧ t ∈ d.span ∧ ((s.block block).tile t).holder = .copy window then ((s.block block).tile t).complete
      else (s.block block).tile t := by
  have hcomplete (x : Tile) : x.complete.holder ≠ .copy window := by
    rw [Tile.complete]; split <;> exact Holder.noConfusion
  have key (js : List Nat) : ∀ u : State, (∀ k ∈ js, (tget? u.blocks k).isSome = true) →
      ((u.copyReturned js block window d).block block).tile t =
        if block ∈ js ∧ t ∈ d.span ∧ ((u.block block).tile t).holder = .copy window then ((u.block block).tile t).complete
        else (u.block block).tile t := by
    induction js with
    | nil => intro u _; simp [State.copyReturned]
    | cons k js ih =>
      intro u hu
      obtain ⟨hk, hjs⟩ := List.forall_mem_cons.1 hu
      let v := u.finishBlock k (u.heldBy k (if k = block then .copy window else .mcast block window) d.span) d.flagAddr d.flagVal
      rw [show u.copyReturned (k :: js) block window d = v.copyReturned js block window d from rfl,
        ih v (fun i hi => (u.resident_finishBlock _ _ _ _ _).trans (hjs i hi))]
      by_cases hkb : k = block
      · subst k
        have hv : (v.block block).tile t = if t ∈ d.span ∧ ((u.block block).tile t).holder = .copy window then ((u.block block).tile t).complete
            else (u.block block).tile t := by
          refine (State.tile_finishBlock hk (d.span_nodup.filter _) _ _ t).trans ?_
          simp only [List.mem_filter, if_true, beq_iff_eq]
        rw [hv]
        by_cases hheld : t ∈ d.span ∧ ((u.block block).tile t).holder = .copy window
        · simp [hheld, hcomplete]
        · simp [hheld]
      · have hv : (v.block block).tile t = (u.block block).tile t := u.tile_finishBlock_other (Ne.symm hkb) _ _ _ t
        rw [hv]
        simp [Ne.symm hkb]
  have h := key ks (s.copyLanded ks d data bad) (fun k hk => (State.resident_copyLanded d data bad k).trans (hks k hk))
  rwa [State.tile_copyLanded] at h

end

end Sys2Proof.Machine

namespace Sys2Proof.Machine
open Sys2Proof.Claims

/-! COPY_COMPLETE and COPY_ABANDON (R216, R220 to R228). -/

theorem State.scratch_modWindow (s : State) (b w : Nat) (f : Window → Window) (k : Nat) :
    ((s.modWindow b w f).block k).scratch = (s.block k).scratch :=
  s.scratch_modBlock_kept b (f := fun x => { x with windows := tset x.windows w (f (x.window w)) }) (fun _ => rfl) k

/-- Work ends with its record: its wave has one piece of work fewer, and the scratchpads and the gather queues are as the work left them. -/
theorem State.record_settled (u : State) (ctx : Nat) (r : Record) (wid : Nat) :
    (∀ k, ((u.appendRecord ctx r).settleWork wid).block k = u.block k) ∧
      (tgetD ((u.appendRecord ctx r).settleWork wid).waves wid {}).engPending = (tgetD u.waves wid {}).engPending - 1 ∧
      ∀ g, (((u.appendRecord ctx r).settleWork wid).cluster g).gather = (u.cluster g).gather := by
  obtain ⟨hw, hb, hg⟩ := u.appendRecord_queues ctx r
  refine ⟨fun k => congrArg (fun t => (tgetD t k {} : Block)) hb, ?_, hg⟩
  rw [← hw]
  show (tgetD (tmodify (u.appendRecord ctx r).waves wid _) wid {}).engPending = _
  rw [tgetD, tget?_tmodify, if_pos rfl, tgetD]
  cases tget? (u.appendRecord ctx r).waves wid with
  | none => rfl
  | some w => rfl

theorem State.resident_of_copyReady {s : State} {b w : Nat} (h : s.copyReady b w = true) : (tget? s.blocks b).isSome = true := by
  rw [State.copyReady] at h
  cases hb : tget? s.blocks b with
  | none => rw [hb] at h; cases h
  | some k => rfl

theorem State.holds_iff {s : State} {k ctx : Nat} {y : Block} (hy : tget? s.blocks k = some y) :
    s.holds k ctx = true ↔ y.ctx = ctx ∧ y.released = false := by
  simp [State.holds, hy]

/-- The targets of a window's copy that are there still (R229). -/
def State.copyTargets (s : State) (block window : Nat) : List Nat :=
  ((s.block block).window window).targets.filter (fun k => s.holds k (s.block block).ctx)
/-- The bytes that a copy has read. -/
def State.copyData (s : State) (block window : Nat) : List Byte := (s.copyWords block window).flatMap (fun v => leBytes 4 v.1)
/-- The places of its poisoned words. -/
def State.copyBad (s : State) (block window : Nat) : List Nat :=
  ((s.copyWords block window).zipIdx.filter (fun p => p.1.2)).map (fun p => ((s.block block).window window).desc.dest + 4 * p.2)
/-- Its status: 4 with a target gone, 5 with a poisoned word (R225, R228, R229). -/
def State.copyStatus (s : State) (block window : Nat) : Nat :=
  if (s.copyTargets block window).length < ((s.block block).window window).targets.length then 4
  else if (s.copyBad block window).isEmpty then 0 else 5
/-- The state in which a copy has landed and its window is PRESENT. -/
def State.copyPresent (s : State) (block window : Nat) : State :=
  let d := ((s.block block).window window).desc
  let ks := s.copyTargets block window
  ((((s.copyLanded ks d (s.copyData block window) (s.copyBad block window)).copyReturned ks block window d).copySeen ks (s.block block).ctx d).modWindow
    block window (fun y => { y with st := .present, last := s.copyStatus block window, seen := [] }))

section
variable {s : State} {block window : Nat} (hr : s.copyReady block window = true)
include hr

theorem exec_copyComplete_waits (hf : s.copyFault block window = none)
    (hw : s.recordReady (s.block block).ctx (s.block block).core ((s.block block).window window).mark = false) :
    exec (.copyComplete block window) s =
      .next (s.startFence (s.block block).core ((s.block block).window window).mark 6 true false) := by
  simp [execCopyComplete, hr, hf, hw]

theorem exec_copyComplete_lands (hf : s.copyFault block window = none) (hbad : ((s.block block).window window).bad = none)
    (hw : s.recordReady (s.block block).ctx (s.block block).core ((s.block block).window window).mark = true) :
    ∃ r, exec (.copyComplete block window) s = .next (((s.copyPresent block window).appendRecord (s.block block).ctx r).settleWork
      ((s.block block).window window).starter) := by
  simp only [exec_copyComplete, execCopyComplete, hr, hf, hw, hbad, Bool.not_true, Option.isSome_none, Bool.or_self, Bool.false_eq_true, if_false]
  exact ⟨_, rfl⟩

/-- What the scratchpads, the window and its tiles hold once a copy has landed. -/
theorem State.copyPresent_landed : Landed s (s.copyPresent block window) ∧
    (∀ k n, memByte ((s.copyPresent block window).block k).scratch n = if k ∈ s.copyTargets block window
      then (flagByte ((s.block block).window window).desc.flagAddr ((s.block block).window window).desc.flagVal n).getD
        ((bytesAt ((s.block block).window window).desc.dest (s.copyData block window) n).getD (memByte (s.block k).scratch n))
      else memByte (s.block k).scratch n) ∧
    ((s.copyPresent block window).block block).window window =
      { (s.block block).window window with st := .present, last := s.copyStatus block window, seen := [] } ∧
    ∀ t, ((s.copyPresent block window).block block).tile t = if block ∈ s.copyTargets block window ∧
        t ∈ ((s.block block).window window).desc.span ∧ ((s.block block).tile t).holder = .copy window
      then ((s.block block).tile t).complete else (s.block block).tile t := by
  have hres := State.resident_of_copyReady hr
  have hks : ∀ k ∈ s.copyTargets block window, (tget? s.blocks k).isSome = true := fun k hk => by
    have hholds := List.of_mem_filter hk
    cases hb : tget? s.blocks k with
    | none => simp [State.holds, hb] at hholds
    | some y => rfl
  let d := ((s.block block).window window).desc
  let ks := s.copyTargets block window
  let u := (s.copyLanded ks d (s.copyData block window) (s.copyBad block window)).copyReturned ks block window d
  have hseen : SeenSame u (u.copySeen ks (s.block block).ctx d) := u.copySeen_seen _ _ _
  have hblock (k : Nat) : (u.copySeen ks (s.block block).ctx d).block k = u.block k := State.sameArch_block hseen.arch k
  have hpres : (tget? (u.copySeen ks (s.block block).ctx d).blocks block).isSome = true := by
    rw [State.sameArch_blocks hseen.arch, State.resident_copyReturned, State.resident_copyLanded]; exact hres
  refine ⟨((State.landed_copy _ _ _ _ _).seen hseen).modBlock _ _, fun k n => ?_, ?_, fun t => ?_⟩
  · rw [State.copyPresent, State.scratch_modWindow, hblock]
    exact State.memByte_copyReturned hks _ _ _ _ _ k n
  · rw [State.copyPresent, State.window_modWindow hpres, if_pos rfl, hblock, State.window_copyReturned]
  · rw [State.copyPresent, State.tile_modWindow, hblock]
    exact State.tile_copyReturned hks _ _ _ _ _ t

end

/-- The status of a copy says whether a target is gone, and whether a word of the source was poisoned. -/
theorem State.copyStatus_eq (s : State) (block window : Nat) : s.copyStatus block window =
    if ((s.block block).window window).targets.any (fun k => (tget? s.blocks k).all (fun y => y.ctx != (s.block block).ctx || y.released)) then 4
    else if (s.copyWords block window).any (fun v => v.2) then 5 else 0 := by
  have hgone : (s.copyTargets block window).length < ((s.block block).window window).targets.length ↔
      ((s.block block).window window).targets.any (fun k => (tget? s.blocks k).all (fun y => y.ctx != (s.block block).ctx || y.released)) = true := by
    rw [State.copyTargets, List.length_filter_lt_length_iff_exists, List.any_eq_true]
    refine exists_congr (fun k => and_congr_right (fun _ => ?_))
    cases hk : tget? s.blocks k <;> simp [State.holds, hk, or_iff_not_imp_left]
  have hbad : (s.copyBad block window).isEmpty = true ↔ ¬ (s.copyWords block window).any (fun v => v.2) = true := by
    rw [State.copyBad, List.isEmpty_map, List.isEmpty_iff, List.filter_eq_nil_iff, List.any_eq_true, not_exists]
    refine ⟨fun h v hv => ?_, fun h p hp hbad => h p.1 ⟨(List.mem_zipIdx' hp).2 ▸ List.getElem_mem _, hbad⟩⟩
    obtain ⟨i, hi, rfl⟩ := List.mem_iff_getElem.1 hv.1
    exact h (_, i) (List.mem_zipIdx_iff_getElem?.2 (List.getElem?_eq_getElem hi)) hv.2
  simp only [State.copyStatus, hgone, hbad]
  rw [ite_not]

/-! The end of an attempt that meets a fault (R227). -/

theorem State.defer_alive {s : State} {wid : Nat} (he : (tgetD s.waves wid {}).ended = false) (t : TrapInfo) :
    s.defer wid t = s.modWave wid (fun w => { w with causes := insertCause t w.causes }) := by
  rw [State.defer, he]; rfl

/-- A wave takes the cause of its work's fault, and has one piece of work fewer. -/
theorem State.waves_deferred {u : State} {wid : Nat} (he : (tgetD u.waves wid {}).ended = false) (t : TrapInfo) {w : Wave}
    (hw : tget? u.waves wid = some w) : tget? ((u.defer wid t).settleWork wid).waves wid =
      some { w with causes := insertCause t w.causes, engPending := w.engPending - 1 } := by
  rw [State.defer_alive he]
  show tget? (tmodify (tmodify u.waves wid _) wid _) wid = _
  rw [tget?_tmodify, if_pos rfl, tget?_tmodify, if_pos rfl, hw]
  rfl

/-- Taking the cause changes waves alone. -/
theorem State.deferred_rest {u : State} {wid : Nat} (he : (tgetD u.waves wid {}).ended = false) (t : TrapInfo) :
    ((u.defer wid t).settleWork wid).mem = u.mem ∧ (∀ k, ((u.defer wid t).settleWork wid).block k = u.block k) ∧
      ∀ g, ((u.defer wid t).settleWork wid).cluster g = u.cluster g := by
  rw [State.defer_alive he]
  exact ⟨rfl, fun _ => rfl, fun _ => rfl⟩

/-- A window whose copy has met a fault. -/
def Window.faulted (x : Window) (e : XFault) (va : Dword) : Window :=
  { x with st := .stalled, replays := x.replays + 1, fault := e.cause, faddr := va, taken := false, seen := [] }

theorem exec_copyAbandon_stalls {s : State} {block window : Nat} (hr : s.copyReady block window = true) {va : Dword} {e : XFault}
    (hf : s.copyFault block window = some (va, e)) : ∃ t : TrapInfo, t.cause = e.cause ∧ t.faddr = va ∧
      t.detail = e.detail + window * 256 + 4096 ∧ exec (.copyAbandon block window) s =
        .next (((s.modWindow block window (fun y => y.faulted e va)).defer ((s.block block).window window).starter t).settleWork
          ((s.block block).window window).starter) := by
  simp only [exec_copyAbandon, execCopyAbandon, hr, hf, Bool.not_true, Bool.false_eq_true, if_false]
  exact ⟨_, rfl, rfl, rfl, rfl⟩

/-- Settles O42: the steps of R223 one after another, each with what it leaves of the scratchpads, the window and the tiles. -/
theorem copiesEnd : Obligations.CopiesEnd := by
  intro s block window hr he b x d ready
  have hres := State.resident_of_copyReady hr
  refine ⟨fun hf hw => exec_copyComplete_waits hr hf hw, fun hf hbad hw hslot => ?_, fun va e hf => ?_⟩
  · intro words data gone
    obtain ⟨r, hex⟩ := exec_copyComplete_lands hr hf hbad hw
    obtain ⟨hland, hbytes, hwin, htile⟩ := State.copyPresent_landed hr
    obtain ⟨hblock, heng, -⟩ := (s.copyPresent block window).record_settled b.ctx r x.starter
    have hnone : ¬ ((s.block block).window window).bad.isSome = true := by rw [show _ = none from hbad]; exact Bool.false_ne_true
    have hwords : s.copyWords block window = words := if_neg hnone
    have hdata : s.copyData block window = data := by rw [State.copyData, hwords]
    refine ⟨_, hex, fun k y hy a => ?_, ?_, ?_, fun k hk => ?_, fun hin hrel k hk hheld hcount => ?_, ?_, ?_⟩
    · have hmem : k ∈ s.copyTargets block window ↔ k ∈ x.targets ∧ y.ctx = b.ctx ∧ y.released = false := by
        rw [State.copyTargets, List.mem_filter, State.holds_iff hy]
      have hy' : s.block k = y := by rw [State.block, tgetD, hy]; rfl
      rw [hblock, hbytes, hdata, hy']
      simp only [hmem]
      split
      · rw [bytesAt]; split <;> rfl
      · rfl
    · rw [hblock, hwin]
    · rw [hblock, hwin]
      exact (s.copyStatus_eq block window).trans (by rw [hwords])
    · rw [hblock, htile, if_neg]
      exact fun h => hk.elim (fun hk => hk h.2.1) (fun hk => hk h.2.2)
    · obtain ⟨y, hy⟩ := Option.isSome_iff_exists.1 hres
      have hy' : b = y := by show s.block block = y; rw [State.block, tgetD, hy]; rfl
      have hin' : block ∈ s.copyTargets block window := List.mem_filter.2 ⟨hin, (State.holds_iff hy).2 ⟨hy' ▸ rfl, hy' ▸ hrel⟩⟩
      rw [hblock, htile, if_pos ⟨hin', hk, hheld⟩, Tile.complete]
      exact if_pos hcount
    · rw [heng, hland.waves]
    · exact hland.onlyRecord (fun p hp => (hslot p hp).1) r
  · obtain ⟨t, hcause, hfaddr, hdetail, hex⟩ := exec_copyAbandon_stalls hr hf
    let u := s.modWindow block window (fun y => y.faulted e va)
    obtain ⟨hmem, hblock, -⟩ := State.deferred_rest (u := u) he t
    refine ⟨_, hex, hmem, fun k => ?_, ?_, fun w hw => ⟨_, t, State.waves_deferred (u := u) he t hw, rfl, hcause, hfaddr, hdetail, rfl, rfl, rfl⟩⟩
    · rw [hblock]; exact s.scratch_modWindow _ _ _ k
    · rw [hblock]; exact (State.window_modWindow hres _ _ _).trans (if_pos rfl)

end Sys2Proof.Machine

namespace Sys2Proof.Machine
open Sys2Proof.Claims

/-! The queue of a gather engine (R231, R232). -/

theorem Cluster.mem_of_gatherNext_go {c : GatherCmd} : ∀ (before xs : List GatherCmd), Cluster.gatherNext.go before xs = some c → c ∈ xs
  | _, [], h => by simp [Cluster.gatherNext.go] at h
  | before, x :: xs, h => by
    rw [Cluster.gatherNext.go] at h
    split at h
    · exact Option.some.inj h ▸ List.mem_cons_self
    · exact List.mem_cons_of_mem _ (Cluster.mem_of_gatherNext_go _ _ h)

/-- The command that acts next stands in its queue. -/
theorem State.mem_of_gatherDue {s : State} {g : Nat} {c : GatherCmd} (h : s.gatherDue g = some c) : c ∈ (s.cluster g).gather := by
  rw [State.gatherDue] at h
  split at h
  · rename_i x hx
    obtain ⟨-, h⟩ := Option.ite_none_right_eq_some.1 h
    exact Cluster.mem_of_gatherNext_go _ _ (Option.some.inj h ▸ hx)
  · cases h

theorem State.gather_setGather (s : State) (g seq : Nat) (c : Option GatherCmd) :
    ((s.setGather g seq c).cluster g).gather = (s.cluster g).gather.filterMap (fun x => if x.seq = seq then c else some x) :=
  congrArg Cluster.gather ((s.cluster_modCluster g g _).trans (if_pos rfl))

/-- A command that leaves its queue. -/
theorem filterMap_leaves (seq : Nat) (cs : List GatherCmd) :
    cs.filterMap (fun x => if x.seq = seq then none else some x) = cs.filter (fun x => decide (x.seq ≠ seq)) := by
  induction cs with
  | nil => rfl
  | cons c cs ih => by_cases h : c.seq = seq <;> simp [h, ih]

/-! Scatter-add (R233, R234): what its rows leave alone. -/

/-- `u` and `c1` are a state and a command that applying elements of the command `c` can lead to from `s`: blocks, contexts and gather
queues are as they were, of the waves no more than the causes of the command's wave have changed, and of the command no more than its progress. -/
structure Scattered (s : State) (c : GatherCmd) (u : State) (c1 : GatherCmd) : Prop where
  blocks : u.blocks = s.blocks
  ctxs : u.ctxs = s.ctxs
  gather : ∀ g, (u.cluster g).gather = (s.cluster g).gather
  waves : ∃ f : List TrapInfo → List TrapInfo, tgetD u.waves c.wave {} = { tgetD s.waves c.wave {} with causes := f (tgetD s.waves c.wave {}).causes }
  cmd : ({ c1 with commit := c.commit, oorCount := c.oorCount, oorFirst := c.oorFirst, applied := c.applied, bad := c.bad, row := c.row } : GatherCmd) = c

theorem Scattered.refl (s : State) (c : GatherCmd) : Scattered s c s c := ⟨rfl, rfl, fun _ => rfl, ⟨id, rfl⟩, rfl⟩

theorem Scattered.wave {s u : State} {c c1 : GatherCmd} (h : Scattered s c u c1) : c1.wave = c.wave := (congrArg GatherCmd.wave h.cmd :)

section
variable {s : State} {c : GatherCmd} (he : (tgetD s.waves c.wave {}).ended = false)
include he

/-- The wave of a scatter-add takes a cause. -/
theorem Scattered.defer {u : State} {c1 : GatherCmd} (h : Scattered s c u c1) (t : TrapInfo) : Scattered s c (u.defer c1.wave t) c1 := by
  obtain ⟨f, hf⟩ := h.waves
  have hended : (tgetD u.waves c.wave {}).ended = false := by rw [hf]; exact he
  rw [h.wave, State.defer_alive hended]
  refine ⟨h.blocks, h.ctxs, h.gather, ?_, h.cmd⟩
  show ∃ f', tgetD (tmodify u.waves c.wave _) c.wave {} = _
  cases hw : tget? u.waves c.wave with
  | none =>
    refine ⟨f, Eq.trans ?_ hf⟩
    rw [tgetD, tget?_tmodify, if_pos rfl, tgetD, hw]; rfl
  | some w =>
    refine ⟨fun cs => insertCause t (f cs), ?_⟩
    rw [tgetD_tmodify_same _ _ _ _ (by rw [hw]; rfl), hf]

/-- An element is applied, or its word is poisoned (R234, R405). -/
theorem Scattered.scatterElem {u : State} {c1 : GatherCmd} (h : Scattered s c u c1) (va : Dword) (pa src : Nat) (bad : Bool) :
    Scattered s c (u.scatterElem c1 va pa src bad) c1 := by
  rw [State.scatterElem]
  split
  · exact h.defer he _
  · have hq := u.publish_queues pa (leBytes 4 (addF32 .rne (memNat u.mem pa 4) src))
    have hpub : Scattered s c (u.publish pa (leBytes 4 (addF32 .rne (memNat u.mem pa 4) src))) c1 :=
      ⟨hq.blocks.trans h.blocks, hq.ctxs.trans h.ctxs, fun g => (hq.gather g).trans (h.gather g), by rw [hq.waves]; exact h.waves, h.cmd⟩
    dsimp only
    split
    · exact ⟨hpub.blocks, hpub.ctxs, hpub.gather, hpub.waves, hpub.cmd⟩
    · exact hpub

theorem Scattered.scatterNext {u : State} {c1 : GatherCmd} (h : Scattered s c u c1) :
    Scattered s c (u.scatterNext c1).1 (u.scatterNext c1).2 := by
  rw [State.scatterNext]
  split
  · exact h
  · rename_i va pa rest hrow
    extract_lets b a bad marked s1 c2
    have hs1 : Scattered s c s1 c1 := by
      unfold s1
      split
      · exact h
      · exact h.scatterElem he _ _ _ _
    refine ⟨hs1.blocks, hs1.ctxs, hs1.gather, hs1.waves, ?_⟩
    dsimp only
    split
    · exact hs1.cmd
    · exact hs1.cmd

theorem Scattered.scatterElems (n : Nat) : ∀ {u : State} {c1 : GatherCmd}, Scattered s c u c1 →
    Scattered s c (State.scatterElems n u c1).1 (State.scatterElems n u c1).2 := by
  induction n with
  | zero => exact fun h => h
  | succ n ih => exact fun h => ih (h.scatterNext he)

theorem Scattered.finishRow {u : State} {c1 : GatherCmd} (h : Scattered s c u c1) : Scattered s c (u.finishRow c1).1 (u.finishRow c1).2 :=
  h.scatterElems he _

theorem Scattered.scatterPos {u : State} {c1 : GatherCmd} (h : Scattered s c u c1) : Scattered s c (u.scatterPos c1).1 (u.scatterPos c1).2 := by
  refine Scattered.finishRow he ⟨h.blocks, h.ctxs, h.gather, h.waves, ?_⟩
  unfold State.scatterBegin
  dsimp only
  split
  · exact h.cmd
  · exact h.cmd
  · exact h.cmd

theorem Scattered.scatterRun (n : Nat) : ∀ {u : State} {c1 : GatherCmd}, Scattered s c u c1 →
    Scattered s c (State.scatterRun n u c1).1 (State.scatterRun n u c1).2 := by
  induction n with
  | zero => exact fun h => h
  | succ n ih => exact fun h => ih (h.scatterPos he)

end

/-- With no row begun there is none to complete. -/
theorem State.finishRow_of_nil {s : State} {c : GatherCmd} (h : c.row = []) : s.finishRow c = (s, c) := by
  rw [State.finishRow, h]; rfl

end Sys2Proof.Machine

namespace Sys2Proof.Machine
open Sys2Proof.Claims

/-! The rows of a gather or a bag-reduce (R231, R233). -/

theorem State.wordsData_length (s : State) (c : GatherCmd) (ws : List Dword) : (s.wordsData c ws).1.length = 4 * ws.length := by
  simp only [State.wordsData, List.length_flatMap, leBytes_length, List.map_const', List.length_map, List.sum_replicate, smul_eq_mul]
  omega

theorem rowWords_length (a : Dword) (n : Nat) : (rowWords a n).length = n / 4 := by rw [rowWords, List.length_map, List.length_range]

theorem State.gatherRow_length (s : State) (c : GatherCmd) (p : Nat) : (s.gatherRow c p).1.length ≤ c.rowb := by
  rw [State.gatherRow]
  split
  · rw [State.wordsData_length, rowWords_length]; omega
  · exact List.length_replicate.le
  · exact List.length_replicate.le

theorem State.bagRow_length {s : State} {c : GatherCmd} {stop seg : Nat} {r : List Byte × List Nat} (h : s.bagRow c stop seg = some r) :
    r.1.length ≤ c.rowb := by
  unfold State.bagRow at h
  extract_lets all at h
  split at h
  · split at h
    · cases h
    · split at h
      · cases h; exact List.length_replicate.le
      · cases h
        simp only [all, List.length_flatMap, leBytes_length, List.map_const', List.length_range, List.sum_replicate, smul_eq_mul]
        omega
  · cases h; exact List.length_replicate.le

/-- No row is longer than the command says, and there is one row to a number. -/
theorem State.gatherRows_spec (s : State) (c : GatherCmd) : (∀ r ∈ s.gatherRows c, r.2.1.length ≤ c.rowb) ∧
    ∀ r ∈ s.gatherRows c, ∀ r' ∈ s.gatherRows c, r.1 = r'.1 → r = r' := by
  rw [State.gatherRows]
  split
  · split
    · exact ⟨fun r hr => (List.not_mem_nil hr).elim, fun r hr => (List.not_mem_nil hr).elim⟩
    · have hrow (r : Nat × List Byte × List Nat) (hr : r ∈ (List.range c.nseg).filterMap (fun k => (s.bagRow c (s.gatherStop c) k).map (fun r => (k, r)))) :
          s.bagRow c (s.gatherStop c) r.1 = some r.2 := by
        obtain ⟨k, -, hk⟩ := List.mem_filterMap.1 hr
        obtain ⟨x, hx, rfl⟩ := Option.map_eq_some_iff.1 hk
        exact hx
      refine ⟨fun r hr => State.bagRow_length (hrow r hr), fun r hr r' hr' e => Prod.ext e (Option.some.inj ?_)⟩
      rw [← hrow r hr, ← hrow r' hr', e]
  · have hrow (r : Nat × List Byte × List Nat) (hr : r ∈ (List.range (s.gatherStop c)).map (fun p => (p, s.gatherRow c p))) :
        s.gatherRow c r.1 = r.2 := by
      obtain ⟨p, -, rfl⟩ := List.mem_map.1 hr
      rfl
    refine ⟨fun r hr => hrow r hr ▸ s.gatherRow_length c r.1, fun r hr r' hr' e => Prod.ext e ?_⟩
    rw [← hrow r hr, ← hrow r' hr', e]

/-! Several writes into one memory. -/

/-- Writes that all miss a byte leave it. -/
theorem memByte_foldl_memPut_outside {n : Nat} (ws : List (Nat × List Byte)) (h : ∀ w ∈ ws, bytesAt w.1 w.2 n = none) (m : Tbl Byte) :
    memByte (ws.foldl (fun m w => memPut m w.1 w.2) m) n = memByte m n := by
  induction ws generalizing m with
  | nil => rfl
  | cons w ws ih =>
    obtain ⟨hw, hws⟩ := List.forall_mem_cons.1 h
    rw [List.foldl_cons, ih hws, memByte_memPut_bytesAt, hw, Option.getD_none]

/-- Writes that agree on a byte, one of which writes it, leave what they agree on. -/
theorem memByte_foldl_memPut_inside {n : Nat} {v : Byte} (ws : List (Nat × List Byte)) (hv : ∀ w ∈ ws, ∀ x, bytesAt w.1 w.2 n = some x → x = v)
    (h : ∃ w ∈ ws, bytesAt w.1 w.2 n = some v) (m : Tbl Byte) : memByte (ws.foldl (fun m w => memPut m w.1 w.2) m) n = v := by
  induction ws generalizing m with
  | nil => obtain ⟨w, hw, -⟩ := h; exact (List.not_mem_nil hw).elim
  | cons w ws ih =>
    obtain ⟨-, hws⟩ := List.forall_mem_cons.1 hv
    rw [List.foldl_cons]
    by_cases hin : ∃ w ∈ ws, bytesAt w.1 w.2 n = some v
    · exact ih hws hin _
    · have hout : ∀ w ∈ ws, bytesAt w.1 w.2 n = none := fun w' hw' => Option.eq_none_iff_forall_ne_some.2
        (fun x hx => hin ⟨w', hw', hws w' hw' x hx ▸ hx⟩)
      obtain ⟨w', hw', hx⟩ := h
      obtain rfl : w' = w := (List.mem_cons.1 hw').resolve_right (fun hw' => hin ⟨w', hw', hx⟩)
      rw [memByte_foldl_memPut_outside ws hout, memByte_memPut_bytesAt, hx, Option.getD_some]

/-! The rows of a command as they stand in its block. -/

/-- The state in which some rows of a command are written into its block. -/
def State.rowsLanded (s : State) (c : GatherCmd) (rows : List (Nat × List Byte × List Nat)) : State :=
  rows.foldl (fun (u : State) r =>
    let a := c.spad + r.1 * c.rowb
    u.modBlock c.block (Block.engineWrite a r.2.1 (r.2.2.map (fun e => a + 4 * e)))) s

theorem State.rowsLanded_landed (s : State) (c : GatherCmd) (rows : List (Nat × List Byte × List Nat)) : Landed s (s.rowsLanded c rows) :=
  List.foldlRecOn (motive := Landed s) _ _ (Landed.refl s) (fun _ hu _ _ => hu.modBlock _ _)

theorem State.rowsLanded_other (s : State) (c : GatherCmd) (rows : List (Nat × List Byte × List Nat)) {k : Nat} (hk : k ≠ c.block) :
    (s.rowsLanded c rows).block k = s.block k :=
  List.foldlRecOn (motive := fun u : State => u.block k = s.block k) _ _ rfl (fun _ hu _ _ => (tgetD_tmodify_other _ _ _ hk).trans hu)

/-- A block stands or not whatever is written into its scratchpad. -/
theorem State.holds_modBlock (s : State) (b : Nat) {f : Block → Block} (hf : ∀ y, (f y).ctx = y.ctx ∧ (f y).released = y.released) (k ctx : Nat) :
    (s.modBlock b f).holds k ctx = s.holds k ctx := by
  show (tget? (tmodify s.blocks b f) k).any _ = _
  rw [tget?_tmodify]
  split
  · subst k
    rw [State.holds, Option.any_map]
    exact congrArg (fun p => (tget? s.blocks b).any p) (funext fun y => by simp only [hf])
  · rfl

theorem State.holds_rowsLanded (s : State) (c : GatherCmd) (rows : List (Nat × List Byte × List Nat)) (k ctx : Nat) :
    (s.rowsLanded c rows).holds k ctx = s.holds k ctx :=
  List.foldlRecOn (motive := fun u : State => u.holds k ctx = s.holds k ctx) _ _ rfl
    (fun u hu r _ => (u.holds_modBlock _ (f := Block.engineWrite (c.spad + r.1 * c.rowb) r.2.1 (r.2.2.map (fun e => c.spad + r.1 * c.rowb + 4 * e)))
      (fun _ => ⟨rfl, rfl⟩) _ _).trans hu)

theorem State.scratch_rowsLanded {c : GatherCmd} (rows : List (Nat × List Byte × List Nat)) :
    ∀ {s : State}, (tget? s.blocks c.block).isSome = true → ((s.rowsLanded c rows).block c.block).scratch =
      (rows.map (fun r => (c.spad + r.1 * c.rowb, r.2.1))).foldl (fun m w => memPut m w.1 w.2) (s.block c.block).scratch := by
  induction rows with
  | nil => intro s _; rfl
  | cons r rows ih =>
    intro s hs
    rw [List.map_cons, List.foldl_cons]
    refine (ih ((s.resident_modBlock _ _ _).trans hs)).trans ?_
    rw [State.block_modBlock _ _ _ _ hs, if_pos rfl]
    rfl

/-- The bytes of a command's rows: each row at its place, and nothing else. -/
theorem State.memByte_rowsLanded {s : State} {c : GatherCmd} (hs : (tget? s.blocks c.block).isSome = true) :
    (∀ row ∈ s.gatherRows c, row.2.1.length = c.rowb → ∀ j, j < c.rowb →
      memByte ((s.rowsLanded c (s.gatherRows c)).block c.block).scratch (c.spad + row.1 * c.rowb + j) = row.2.1.getD j 0) ∧
    ∀ a, (∀ row ∈ s.gatherRows c, a < c.spad + row.1 * c.rowb ∨ c.spad + row.1 * c.rowb + row.2.1.length ≤ a) →
      memByte ((s.rowsLanded c (s.gatherRows c)).block c.block).scratch a = memByte (s.block c.block).scratch a := by
  obtain ⟨hlen, huniq⟩ := s.gatherRows_spec c
  refine ⟨fun row hrow hl j hj => ?_, fun a ha => ?_⟩
  · have hat : bytesAt (c.spad + row.1 * c.rowb) row.2.1 (c.spad + row.1 * c.rowb + j) = some (row.2.1.getD j 0) := by
      rw [bytesAt, if_pos ⟨by omega, by omega⟩, Nat.add_sub_cancel_left]
    rw [State.scratch_rowsLanded _ hs]
    refine memByte_foldl_memPut_inside _ ?_ ⟨_, List.mem_map_of_mem hrow, hat⟩ _
    intro w hw x hx
    obtain ⟨r, hr, rfl⟩ := List.mem_map.1 hw
    have hr1 : r.1 = row.1 := by
      have hle := hlen r hr
      rw [bytesAt] at hx
      split at hx
      · rename_i hin
        dsimp only at hin
        rcases Nat.lt_trichotomy r.1 row.1 with hlt | heq | hgt
        · have := Nat.mul_le_mul_right c.rowb hlt
          rw [Nat.succ_mul] at this
          omega
        · exact heq
        · have := Nat.mul_le_mul_right c.rowb hgt
          rw [Nat.succ_mul] at this
          omega
      · cases hx
    obtain rfl := huniq r hr row hrow hr1
    exact Option.some.inj (hx.symm.trans hat)
  · rw [State.scratch_rowsLanded _ hs]
    refine memByte_foldl_memPut_outside _ (fun w hw => ?_) _
    obtain ⟨r, hr, rfl⟩ := List.mem_map.1 hw
    have := ha r hr
    exact if_neg (fun h => by dsimp only at h; omega)

end Sys2Proof.Machine

namespace Sys2Proof.Machine
open Sys2Proof.Claims

/-! GATHER_COMPLETE and GATHER_ABANDON (R231 to R235). -/

/-- The state in which a command's tiles have returned, its flag is written and it has left its queue (R223). -/
def State.gatherLeft (u : State) (g : Nat) (c : GatherCmd) : State :=
  (if u.holds c.block c.ctx then u.finishBlock c.block (u.heldBy c.block .gather c.tiles) c.flagAddr c.flagVal else u).setGather g c.seq none

theorem State.finishGather_record (u : State) (g : Nat) (c : GatherCmd) (status bytes outs : Nat) (first : Option Nat) :
    ∃ r, u.finishGather g c status bytes outs first = ((u.gatherLeft g c).appendRecord c.ctx r).settleWork c.wave := ⟨_, rfl⟩

theorem State.resident_of_holds {s : State} {k ctx : Nat} (h : s.holds k ctx = true) : (tget? s.blocks k).isSome = true := by
  cases hk : tget? s.blocks k with
  | none => rw [State.holds, hk] at h; cases h
  | some y => rfl

theorem Landed.gatherLeft {s u : State} (h : Landed s u) (g : Nat) (c : GatherCmd) : Landed s (u.gatherLeft g c) := by
  rw [State.gatherLeft, State.setGather]
  split
  · exact (h.finishBlock _ _ _ _).modCluster _ (fun _ => rfl)
  · exact h.modCluster _ (fun _ => rfl)

/-- What a command leaves when it ends: its queue without it, its flag, and its wave with one piece of work fewer. -/
theorem State.gatherLeft_left (u : State) (g : Nat) (c : GatherCmd) :
    ((u.gatherLeft g c).cluster g).gather = (u.cluster g).gather.filter (fun y => decide (y.seq ≠ c.seq)) ∧
      (∀ k, k ≠ c.block → ((u.gatherLeft g c).block k).scratch = (u.block k).scratch) ∧
      (u.holds c.block c.ctx = true → ∀ n, memByte ((u.gatherLeft g c).block c.block).scratch n =
        (flagByte c.flagAddr c.flagVal n).getD (memByte (u.block c.block).scratch n)) := by
  have hclusters (b : Nat) (ts : List Nat) (flag : Option Nat) (v : Word) : (u.finishBlock b ts flag v).clusters = u.clusters := by
    cases flag <;> rfl
  have hother (ts : List Nat) (flag : Option Nat) (v : Word) (k : Nat) (hk : k ≠ c.block) :
      (u.finishBlock c.block ts flag v).block k = u.block k := by
    have htiles : (u.modTiles c.block ts Tile.complete).block k = u.block k := tgetD_tmodify_other _ _ _ hk
    cases flag with
    | none => exact htiles
    | some f => exact (tgetD_tmodify_other _ _ _ hk).trans htiles
  refine ⟨?_, fun k hk => ?_, fun h n => ?_⟩
  · rw [State.gatherLeft, State.gather_setGather, filterMap_leaves]
    split
    · rw [State.cluster, hclusters]; rfl
    · rfl
  · rw [State.gatherLeft]
    split
    · exact congrArg Block.scratch (hother _ _ _ k hk)
    · rfl
  · rw [State.gatherLeft, if_pos h]
    exact (State.memByte_finishBlock (State.resident_of_holds h) _ _ _ _ _).trans (if_pos rfl)

/-- What the end of a command leaves (R223): the queue, the scratchpads and the wave. -/
theorem State.finishGather_ends (u : State) (g : Nat) (c : GatherCmd) (status bytes outs : Nat) (first : Option Nat) :
    let t := u.finishGather g c status bytes outs first
    (t.cluster g).gather = (u.cluster g).gather.filter (fun y => decide (y.seq ≠ c.seq)) ∧
      (tgetD t.waves c.wave {}).engPending = (tgetD u.waves c.wave {}).engPending - 1 ∧
      (∀ k, k ≠ c.block → (t.block k).scratch = (u.block k).scratch) ∧
      (u.holds c.block c.ctx = true → ∀ n, memByte (t.block c.block).scratch n =
        (flagByte c.flagAddr c.flagVal n).getD (memByte (u.block c.block).scratch n)) ∧
      ((u.ctx c.ctx).cring = 0 → t.mem = u.mem) ∧
      ∀ s, Landed s u → (∀ p, ringSlot s c.ctx = some p → s.counter (lineOf p) = none) → onlyRecord s t (ringSlot s c.ctx) := by
  intro t
  obtain ⟨r, ht⟩ := u.finishGather_record g c status bytes outs first
  obtain ⟨hblock, heng, hgather⟩ := (u.gatherLeft g c).record_settled c.ctx r c.wave
  obtain ⟨hleft, hother, hflag⟩ := u.gatherLeft_left g c
  have hland : Landed u (u.gatherLeft g c) := (Landed.refl u).gatherLeft g c
  rw [show t = _ from ht]
  refine ⟨(hgather g).trans hleft, by rw [heng, hland.waves], fun k hk => by rw [hblock]; exact hother k hk,
    fun h n => by rw [hblock]; exact hflag h n, fun hring => ?_, fun s hs hc => (hs.gatherLeft g c).onlyRecord hc r⟩
  have hctx : (u.gatherLeft g c).ctx c.ctx = u.ctx c.ctx := by rw [State.ctx, hland.ctxs]; rfl
  rw [State.appendRecord_off (hctx.symm ▸ hring)]
  exact hland.mem

/-- A command's words have been read for its core, if its block stands. -/
def State.rowsSeen (s : State) (c : GatherCmd) : State :=
  if s.holds c.block c.ctx then
    (s.rowsLanded c (s.gatherRows c)).refreshWords c.ctx ((s.rowsLanded c (s.gatherRows c)).block c.block).core (s.gatherReads c)
  else s

theorem State.completeRows_eq (s : State) (g : Nat) (c : GatherCmd) :
    ∃ status bytes outs first, s.completeRows g c = (s.rowsSeen c).finishGather g c status bytes outs first := by
  cases h : s.holds c.block c.ctx with
  | false =>
    simp only [State.completeRows, State.rowsSeen, h, Bool.false_eq_true, if_false]
    exact ⟨_, _, _, _, rfl⟩
  | true =>
    simp only [State.completeRows, State.rowsSeen, h, if_true]
    exact ⟨_, _, _, _, rfl⟩

/-- The scratchpads, the queues and the waves once the command's rows stand. -/
theorem State.rowsSeen_spec (s : State) (c : GatherCmd) : Landed s (s.rowsSeen c) ∧
    (∀ g, ((s.rowsSeen c).cluster g).gather = (s.cluster g).gather) ∧
    (∀ k, k ≠ c.block → (s.rowsSeen c).block k = s.block k) ∧
    (s.rowsSeen c).holds c.block c.ctx = s.holds c.block c.ctx ∧
    (s.holds c.block c.ctx = true → (s.rowsSeen c).block c.block = (s.rowsLanded c (s.gatherRows c)).block c.block) := by
  let v := s.rowsLanded c (s.gatherRows c)
  have hland : Landed s v := s.rowsLanded_landed c _
  have hgather (g : Nat) : (v.cluster g).gather = (s.cluster g).gather :=
    List.foldlRecOn (motive := fun u : State => (u.cluster g).gather = (s.cluster g).gather) _ _ rfl (fun _ hu _ _ => hu)
  have hseen : SeenSame v (v.refreshWords c.ctx (v.block c.block).core (s.gatherReads c)) := v.refreshWords_seen _ _ _
  rw [State.rowsSeen]
  split
  · refine ⟨hland.seen hseen, fun g => (hseen.gather g).trans (hgather g), fun k hk => ?_, ?_, fun _ => State.sameArch_block hseen.arch _⟩
    · exact (State.sameArch_block hseen.arch k).trans (s.rowsLanded_other c _ hk)
    · rw [State.holds, State.sameArch_blocks hseen.arch]
      exact s.holds_rowsLanded c _ _ _
  · rename_i h
    exact ⟨Landed.refl s, fun _ => rfl, fun _ _ => rfl, rfl, fun h' => absurd h' h⟩

/-- The state and the command in which a scatter-add has applied its rows (R234). -/
def State.scattered (s : State) (c : GatherCmd) : State × GatherCmd := State.scatterRun (s.gatherStop c - c.commit) s c

theorem State.completeScatter_eq (s : State) (g : Nat) (c : GatherCmd) : ∃ status bytes outs first,
    s.completeScatter g c = (s.scattered c).1.finishGather g (s.scattered c).2 status bytes outs first := ⟨_, _, _, _, rfl⟩

section
variable {s : State} {g : Nat} {c : GatherCmd} (hd : s.gatherDue g = some c)
include hd

theorem exec_gatherComplete_waits (hf : s.gatherFault c = none) (hw : s.recordReady c.ctx (s.block c.block).core c.mark = false) :
    exec (.gatherComplete g) s = .next (s.startFence (s.block c.block).core c.mark 6 true false) := by
  simp [execGatherComplete, hd, hf, hw]

theorem exec_gatherComplete_rows (hf : s.gatherFault c = none) (hw : s.recordReady c.ctx (s.block c.block).core c.mark = true)
    (hop : c.op ≠ .scatter) : exec (.gatherComplete g) s = .next (s.completeRows g c) := by
  cases h : c.op with
  | scatter => exact absurd h hop
  | gather => simp [execGatherComplete, hd, hf, hw, h]
  | bag => simp [execGatherComplete, hd, hf, hw, h]

theorem exec_gatherComplete_scatter (hf : s.gatherFault c = none) (hw : s.recordReady c.ctx (s.block c.block).core c.mark = true)
    (hop : c.op = .scatter) :
    exec (.gatherComplete g) s = .next ((s.finishRow c).1.completeScatter g (s.finishRow c).2) := by
  simp [execGatherComplete, hd, hf, hw, hop]

end

/-- A command whose attempt has met a fault. -/
def GatherCmd.faulted (c : GatherCmd) (e : XFault) (va : Dword) : GatherCmd :=
  { c with stalled := true, taken := false, replays := c.replays + 1, fault := e.cause, faddr := va, seen := [] }

/-- The state and the command when a fault at a position stops the command: a scatter-add has applied the positions before it (R234). -/
def State.scatteredTo (s : State) (c : GatherCmd) (p : Nat) : State × GatherCmd :=
  if c.op == .scatter then State.scatterRun (p - (s.finishRow c).2.commit) (s.finishRow c).1 (s.finishRow c).2 else s.finishRow c

theorem exec_gatherAbandon_stalls {s : State} {g : Nat} {c : GatherCmd} (hd : s.gatherDue g = some c) {p : Nat} {va : Dword} {e : XFault}
    (hf : s.gatherFault c = some (p, va, e)) : ∃ t : TrapInfo, t.cause = e.cause ∧ t.faddr = va ∧ t.detail = e.detail + 8192 ∧
      exec (.gatherAbandon g) s = .next ((((s.scatteredTo c p).1.setGather g c.seq (some ((s.scatteredTo c p).2.faulted e va))).defer
        c.wave t).settleWork c.wave) := by
  simp only [exec_gatherAbandon, execGatherAbandon, hd, hf]
  exact ⟨_, rfl, rfl, rfl, rfl⟩

section
variable {s : State} {c : GatherCmd} (he : (tgetD s.waves c.wave {}).ended = false)
include he

theorem Scattered.scatteredTo (p : Nat) : Scattered s c (s.scatteredTo c p).1 (s.scatteredTo c p).2 := by
  rw [State.scatteredTo]
  split
  · exact ((Scattered.refl s c).finishRow he).scatterRun he _
  · exact (Scattered.refl s c).finishRow he

/-- What a scatter-add leaves when it ends. -/
theorem State.scatter_ends (g : Nat) : ∃ t : State, (s.finishRow c).1.completeScatter g (s.finishRow c).2 = t ∧
    (t.cluster g).gather = (s.cluster g).gather.filter (fun y => decide (y.seq ≠ c.seq)) ∧
    (tgetD t.waves c.wave {}).engPending = (tgetD s.waves c.wave {}).engPending - 1 ∧
    (∀ k, k ≠ c.block → (t.block k).scratch = (s.block k).scratch) ∧
    (s.holds c.block c.ctx = true → ∀ n, memByte (t.block c.block).scratch n =
      (flagByte c.flagAddr c.flagVal n).getD (memByte (s.block c.block).scratch n)) ∧
    (c.row = [] → (s.ctx c.ctx).cring = 0 → t.mem = (s.scattered c).1.mem) := by
  let q := (s.finishRow c).1.scattered (s.finishRow c).2
  have hq : Scattered s c q.1 q.2 := ((Scattered.refl s c).finishRow he).scatterRun he _
  obtain ⟨status, bytes, outs, first, heq⟩ := (s.finishRow c).1.completeScatter_eq g (s.finishRow c).2
  obtain ⟨h1, h2, h3, h4, h5, -⟩ := q.1.finishGather_ends g q.2 status bytes outs first
  have hseq : q.2.seq = c.seq := (congrArg GatherCmd.seq hq.cmd :)
  have hblk : q.2.block = c.block := (congrArg GatherCmd.block hq.cmd :)
  have hctx : q.2.ctx = c.ctx := (congrArg GatherCmd.ctx hq.cmd :)
  have hflag : q.2.flagAddr = c.flagAddr := (congrArg GatherCmd.flagAddr hq.cmd :)
  have hval : q.2.flagVal = c.flagVal := (congrArg GatherCmd.flagVal hq.cmd :)
  have hblock (k : Nat) : q.1.block k = s.block k := by rw [State.block, hq.blocks]; rfl
  have hholds : q.1.holds c.block c.ctx = s.holds c.block c.ctx := by rw [State.holds, hq.blocks]; rfl
  obtain ⟨f, hwave⟩ := hq.waves
  rw [hseq, hq.gather] at h1
  rw [hq.wave, hwave] at h2
  simp only [hblk, hblock] at h3
  simp only [hblk, hctx, hholds, hflag, hval, hblock] at h4
  refine ⟨_, heq, h1, h2, h3, h4, fun hrow hring => ?_⟩
  have hring' : (q.1.ctx q.2.ctx).cring = 0 := by rw [hctx, State.ctx, hq.ctxs]; exact hring
  refine (h5 hring').trans ?_
  rw [show q = (s.finishRow c).1.scattered (s.finishRow c).2 from rfl, State.finishRow_of_nil hrow]

end

/-- What a gather or a bag-reduce leaves when it ends. -/
theorem State.rows_end (s : State) (g : Nat) (c : GatherCmd) : ∃ t : State, s.completeRows g c = t ∧
    (t.cluster g).gather = (s.cluster g).gather.filter (fun y => decide (y.seq ≠ c.seq)) ∧
    (tgetD t.waves c.wave {}).engPending = (tgetD s.waves c.wave {}).engPending - 1 ∧
    (∀ k, k ≠ c.block → (t.block k).scratch = (s.block k).scratch) ∧
    ((∀ p, ringSlot s c.ctx = some p → s.counter (lineOf p) = none) → onlyRecord s t (ringSlot s c.ctx)) ∧
    (s.holds c.block c.ctx = true → ∀ n, memByte (t.block c.block).scratch n =
      (flagByte c.flagAddr c.flagVal n).getD (memByte ((s.rowsLanded c (s.gatherRows c)).block c.block).scratch n)) := by
  obtain ⟨status, bytes, outs, first, heq⟩ := s.completeRows_eq g c
  obtain ⟨hland, hgather, hother, hholds, hrows⟩ := s.rowsSeen_spec c
  obtain ⟨h1, h2, h3, h4, -, h6⟩ := (s.rowsSeen c).finishGather_ends g c status bytes outs first
  refine ⟨_, heq, h1.trans (by rw [hgather]), h2.trans (by rw [hland.waves]), fun k hk => (h3 k hk).trans (by rw [hother k hk]),
    h6 s hland, fun h n => ?_⟩
  rw [h4 (hholds.trans h) n, hrows h]

/-- Settles O43: a gather or bag-reduce by the bytes of its rows, a scatter-add by what its elements leave alone (`Scattered`). -/
theorem gathersEnd : Obligations.GathersEnd := by
  intro s g c hd he core applied
  refine ⟨fun hf hw => exec_gatherComplete_waits hd hf hw, fun hf hw => ?_, fun p va e hf => ?_⟩
  · by_cases hop : c.op = .scatter
    · obtain ⟨t, ht, hgather, heng, hother, hflag, hmem⟩ := State.scatter_ends he g
      exact ⟨t, ht ▸ exec_gatherComplete_scatter hd hf hw hop, hgather, heng, hother, fun h => absurd hop h, fun h => absurd hop h,
        fun _ hrow => ⟨hmem hrow, hflag⟩⟩
    · obtain ⟨t, ht, hgather, heng, hother, hrecord, hbytes⟩ := s.rows_end g c
      refine ⟨t, ht ▸ exec_gatherComplete_rows hd hf hw hop, hgather, heng, hother, fun _ hc => hrecord (fun p hp => (hc p hp).1),
        fun _ hh => ?_, fun h => absurd h hop⟩
      obtain ⟨hin, hout⟩ := State.memByte_rowsLanded (State.resident_of_holds hh)
      refine ⟨fun row hrow hl j hj hnone => ?_, fun a ha => ?_⟩
      · rw [hbytes hh, hnone, Option.getD_none, hin row hrow hl j hj]
      · rw [hbytes hh, hout a ha]
  · obtain ⟨t, hcause, hfaddr, hdetail, hex⟩ := exec_gatherAbandon_stalls hd hf
    have hq := Scattered.scatteredTo he p
    let u := (s.scatteredTo c p).1.setGather g c.seq (some ((s.scatteredTo c p).2.faulted e va))
    obtain ⟨f, hwave⟩ := hq.waves
    have he' : (tgetD u.waves c.wave {}).ended = false := by
      show (tgetD (s.scatteredTo c p).1.waves c.wave {}).ended = false
      rw [hwave]; exact he
    obtain ⟨hmem, hblock, hcluster⟩ := State.deferred_rest he' t
    refine ⟨_, hex, fun k => ?_, ⟨(s.scatteredTo c p).2.faulted e va, ?_, ?_, rfl, ?_, rfl, rfl⟩, fun hrow => ?_, fun hop hrow w hw => ?_⟩
    · rw [hblock]
      show ((s.scatteredTo c p).1.block k).scratch = _
      rw [State.block, hq.blocks]; rfl
    · rw [hcluster, State.gather_setGather, hq.gather]
      exact List.mem_filterMap.2 ⟨c, State.mem_of_gatherDue hd, if_pos rfl⟩
    · exact (congrArg GatherCmd.seq hq.cmd :)
    · exact congrArg (· + 1) (congrArg GatherCmd.replays hq.cmd :)
    · rw [hmem]
      show (s.scatteredTo c p).1.mem = _
      rw [State.scatteredTo, State.finishRow_of_nil hrow]
      by_cases hop : c.op = .scatter <;> simp [hop, applied]
    · have hs : (s.scatteredTo c p).1 = s := by rw [State.scatteredTo, if_neg (by simpa using hop), State.finishRow_of_nil hrow]
      have hw' : tget? u.waves c.wave = some w := by
        show tget? (s.scatteredTo c p).1.waves c.wave = some w
        rw [hs]; exact hw
      exact ⟨_, t, State.waves_deferred he' t hw', rfl, hcause, hfaddr, hdetail, rfl⟩

end Sys2Proof.Machine

namespace Sys2Proof.Machine
open Sys2Proof.Claims

/-! What a slice keeps of a counter (R245, R257). -/

/-- What a slice keeps of a counter after a change: an entry with nothing in it is no entry. -/
theorem State.allowance_setAllowance (s : State) (g r : Nat) (e : AllowEntry) : (s.setAllowance g r e).allowance g r =
    if e.held || !e.waiters.isEmpty || e.req || !e.later.isEmpty then { e with used := s.clk } else {} := by
  simp only [State.allowance, State.setAllowance, State.cluster_modCluster, if_true]
  split
  · rw [tgetD_tset_same]
  · rw [tgetD_tdel, if_pos rfl]

/-- An entry that is held is kept. -/
theorem State.allowance_setAllowance_held (s : State) (g r : Nat) {e : AllowEntry} (h : e.held = true) :
    (s.setAllowance g r e).allowance g r = { e with used := s.clk } := by
  rw [State.allowance_setAllowance, h]; rfl

theorem State.a_setAllowance_held (s : State) (g r : Nat) {e : AllowEntry} (h : e.held = true) :
    ((s.setAllowance g r e).allowance g r).a = e.a := by
  rw [State.allowance_setAllowance_held s g r h]

/-- What a slice shows of an entry is what it was given: an entry with nothing in it shows nothing. -/
theorem State.allowance_setAllowance_shown (s : State) (g r : Nat) (e : AllowEntry) :
    ((s.setAllowance g r e).allowance g r).held = e.held ∧ ((s.setAllowance g r e).allowance g r).waiters = e.waiters ∧
      ((s.setAllowance g r e).allowance g r).req = e.req := by
  rw [State.allowance_setAllowance]
  split
  · exact ⟨rfl, rfl, rfl⟩
  · rename_i h
    simp only [Bool.or_eq_true, Bool.not_eq_true', not_or, Bool.not_eq_true, Bool.not_eq_false, List.isEmpty_iff] at h
    obtain ⟨⟨⟨hheld, hwaiters⟩, hreq⟩, -⟩ := h
    exact ⟨hheld.symm, hwaiters.symm, hreq.symm⟩
@[simp] theorem State.held_setAllowance (s : State) (g r : Nat) (e : AllowEntry) : ((s.setAllowance g r e).allowance g r).held = e.held :=
  (s.allowance_setAllowance_shown g r e).1
@[simp] theorem State.waiters_setAllowance (s : State) (g r : Nat) (e : AllowEntry) :
    ((s.setAllowance g r e).allowance g r).waiters = e.waiters := (s.allowance_setAllowance_shown g r e).2.1
@[simp] theorem State.req_setAllowance (s : State) (g r : Nat) (e : AllowEntry) : ((s.setAllowance g r e).allowance g r).req = e.req :=
  (s.allowance_setAllowance_shown g r e).2.2

/-- The order that an operation carries out: what its slice and its home never change of it (R256, R257). -/
def DecantOp.order (d : DecantOp) : DecantOp := { d with done := false, lo := 0, hi := 0, trap := none }

/-- `u` is `s` but for the allowance entries of slices, the answers of operations and the messages in flight. -/
structure Sliced (s u : State) : Prop where
  rest : ({ u with clusters := s.clusters, decants := s.decants, net := s.net } : State) = s
  counters : ∀ g, (u.cluster g).counters = (s.cluster g).counters
  orders : ∀ op, (tget? u.decants op).map DecantOp.order = (tget? s.decants op).map DecantOp.order

theorem Sliced.refl (s : State) : Sliced s s := ⟨rfl, fun _ => rfl, fun _ => rfl⟩
theorem Sliced.mem {s u : State} (h : Sliced s u) : u.mem = s.mem := (congrArg State.mem h.rest :)
theorem Sliced.nextDecant {s u : State} (h : Sliced s u) : u.nextDecant = s.nextDecant := (congrArg State.nextDecant h.rest :)
theorem Sliced.counter {s u : State} (h : Sliced s u) (r : Nat) : u.counter r = s.counter r := by
  rw [State.counter, State.counter, h.counters]
theorem Sliced.reserve {s u : State} (h : Sliced s u) (r : Nat) : u.reserve r = s.reserve r := by
  rw [State.reserve, State.reserve, h.mem]

theorem Sliced.setAllowance {s u : State} (h : Sliced s u) (g r : Nat) (e : AllowEntry) : Sliced s (u.setAllowance g r e) := by
  refine ⟨h.rest, fun k => ?_, h.orders⟩
  rw [State.setAllowance, State.cluster_modCluster]; split
  · subst k; exact h.counters g
  · exact h.counters k
theorem Sliced.send {s u : State} (h : Sliced s u) (i : Instr) : Sliced s (u.send i) := ⟨h.rest, h.counters, h.orders⟩
theorem Sliced.decantDone {s u : State} (h : Sliced s u) (op : Nat) (lo hi : Dword) : Sliced s (u.decantDone op lo hi) := by
  refine ⟨h.rest, h.counters, fun k => ?_⟩
  rw [← h.orders k, State.decantDone, tget?_tmodify]; split
  · subst k; cases tget? u.decants op <;> rfl
  · rfl
theorem Sliced.takesDone {s u : State} (h : Sliced s u) (ops : List Nat) (ok : Bool) : Sliced s (u.takesDone ops ok) :=
  List.foldlRecOn (motive := Sliced s) _ _ h (fun _ hv _ _ => hv.decantDone _ _ _)
theorem Sliced.ask {s u : State} (h : Sliced s u) (g r : Nat) : Sliced s (u.ask g r) := by
  unfold State.ask; dsimp only
  split
  · exact h
  · split
    · exact h
    · exact (h.setAllowance _ _ _).send _
theorem Sliced.serveWaiters {s u : State} (h : Sliced s u) (g r : Nat) : Sliced s (u.serveWaiters g r) :=
  (h.takesDone _ _).setAllowance _ _ _
theorem Sliced.toHome {s u : State} (h : Sliced s u) (g r op : Nat) (m : Instr) : Sliced s (u.toHome g r op m) := by
  unfold State.toHome; dsimp only
  split
  · exact h.setAllowance _ _ _
  · exact h.send _
theorem Sliced.submit {s u : State} (h : Sliced s u) (op : Nat) (d : DecantOp) : Sliced s (u.submit op d) := by
  unfold State.submit; dsimp only
  split
  · split
    · exact (h.setAllowance _ _ _).decantDone _ _ _
    · exact (h.setAllowance _ _ _).ask _ _
  · split
    · exact ((h.setAllowance _ _ _).serveWaiters _ _).decantDone _ _ _
    · exact h.toHome _ _ _ _
  all_goals exact h.toHome _ _ _ _
theorem Sliced.pumpOn {s : State} (g r n : Nat) : ∀ {u : State}, Sliced s u → Sliced s (u.pumpOn g r n) := by
  induction n with
  | zero => exact fun h => h
  | succ n ih =>
    intro u h
    rw [State.pumpOn]
    split
    · exact h
    · split
      · exact h
      · exact ih (((h.setAllowance _ _ _).submit _ _).setAllowance _ _ _)
theorem Sliced.pump {s u : State} (h : Sliced s u) (g r : Nat) : Sliced s (u.pump g r) := Sliced.pumpOn g r _ h

/-- A slice in which nothing waits for an answer has nothing to go on with. -/
theorem State.pump_of_nil {s : State} {g r : Nat} (h : (s.allowance g r).later = []) : s.pump g r = s := by
  rw [State.pump, h]; rfl

/-- Without a waiting take a slice asks for nothing. -/
theorem State.ask_of_nil {s : State} {g r : Nat} (h : (s.allowance g r).waiters = []) : s.ask g r = s := by
  rw [State.ask, h]

/-- Takes that wait still wait once their slice has asked for units. -/
theorem State.waiters_ask (s : State) (g r : Nat) : ((s.ask g r).allowance g r).waiters = (s.allowance g r).waiters := by
  unfold State.ask; dsimp only
  split
  · rfl
  · split
    · rfl
    · exact State.waiters_setAllowance s g r _

/-- Without a waiting take an entry that is held is served as it is. -/
theorem State.serveWaiters_of_nil {s : State} {g r : Nat} (h : (s.allowance g r).waiters = []) :
    s.serveWaiters g r = s.setAllowance g r (s.allowance g r) := by
  rw [State.serveWaiters, h]
  show s.setAllowance g r { s.allowance g r with waiters := [] } = _
  rw [← h]

/-- A slice takes up units while no take waits. -/
theorem State.allowance_serveWaiters_held {s : State} {g r : Nat} {e : AllowEntry} (hh : e.held = true) (hw : e.waiters = []) :
    ∃ n, ((s.setAllowance g r e).serveWaiters g r).allowance g r = { e with used := n } := by
  have he := s.allowance_setAllowance_held g r hh
  rw [State.serveWaiters_of_nil (by rw [he]; exact hw), he]
  exact ⟨_, State.allowance_setAllowance_held _ g r hh⟩

end Sys2Proof.Machine

namespace Sys2Proof.Machine
open Sys2Proof.Claims

/-! The image of a record, and a counter in its home table (R243, R244). -/

/-- RESERVE after a change of it, if 48 bits hold it. -/
theorem State.reserve_setReserve (s : State) (r : Nat) {v : Nat} (hv : v < 2 ^ 48) : (s.setReserve r v).reserve r = v := by
  have hmem : (s.setReserve r v).mem = memPut s.mem (r + 8) (leBytes 6 v) := State.sameArch_mem (State.publishLine_seen _ _).arch
  have hread : memNat (memPut s.mem (r + 8) (leBytes 6 v)) (r + 8) (leBytes 6 v).length = leNat (leBytes 6 v) :=
    memNat_of_bytes _ (fun k hk => memByte_memPut_inside _ _ _ _ hk)
  rw [State.reserve, hmem]
  rw [leBytes_length, leNat_leBytes] at hread
  omega

/-- A change of RESERVE writes its 6 bytes alone. -/
theorem State.memByte_setReserve (s : State) (r v : Nat) {a : Nat} (ha : a < r + 8 ∨ r + 14 ≤ a) :
    memByte (s.setReserve r v).mem a = memByte s.mem a := by
  have hmem : (s.setReserve r v).mem = memPut s.mem (r + 8) (leBytes 6 v) := State.sameArch_mem (State.publishLine_seen _ _).arch
  rw [hmem, memByte_memPut_outside]
  rw [leBytes_length]; exact ha

@[simp] theorem State.counter_setReserve (s : State) (r v q : Nat) : (s.setReserve r v).counter q = s.counter q := by
  rw [State.counter, State.counter, State.setReserve, State.setImage, (State.publishLine_seen _ _).arch.counters]; rfl

@[simp] theorem State.counter_modCounter (s : State) (r : Nat) (f : HomeCounter → HomeCounter) :
    (s.modCounter r f).counter r = (s.counter r).map f := by
  simp only [State.counter, State.modCounter, State.cluster_modCluster, if_true, tget?_tmodify]

@[simp] theorem State.counter_popHome (s : State) (r : Nat) (m : HomeMode) :
    (s.popHome r m).counter r = (s.counter r).map (fun c => { c with queue := c.queue.drop 1, mode := m }) := State.counter_modCounter _ _ _

/-- What a home does with a counter changes no allowance entry. -/
@[simp] theorem State.allowance_modCounter (s : State) (q : Nat) (f : HomeCounter → HomeCounter) (g r : Nat) :
    (s.modCounter q f).allowance g r = s.allowance g r := by
  rw [State.allowance, State.modCounter, State.cluster_modCluster]; split
  · subst g; rfl
  · rfl

/-- Units on their way depend on the messages, and on the active slices and the partial SERVE of the counter. -/
theorem State.travelling_congr {s u : State} {r : Nat} (hn : u.net = s.net)
    (ha : ((u.counter r).getD {}).active = ((s.counter r).getD {}).active) (hp : ((u.counter r).getD {}).part = ((s.counter r).getD {}).part) :
    u.travelling r = s.travelling r := by
  simp only [State.travelling, hn, ha, hp]

/-- A counter whose queue alone differs. -/
theorem State.travelling_modCounter (s : State) (r : Nat) {f : HomeCounter → HomeCounter}
    (hf : ∀ c, (f c).active = c.active ∧ (f c).part = c.part) : (s.modCounter r f).travelling r = s.travelling r := by
  have hc := s.counter_modCounter r f
  refine State.travelling_congr rfl ?_ ?_
  · rw [hc]; cases s.counter r with
    | none => rfl
    | some c => exact (hf c).1
  · rw [hc]; cases s.counter r with
    | none => rfl
    | some c => exact (hf c).2

theorem State.keeps_modCounter (s : State) (r : Nat) {f : HomeCounter → HomeCounter}
    (hf : ∀ c, (f c).active = c.active ∧ (f c).part = c.part) (v k : Nat) : (s.modCounter r f).keeps r v k = s.keeps r v k := by
  rw [State.keeps, State.keeps, State.travelling_modCounter s r hf, State.counter_modCounter]
  cases s.counter r with
  | none => rfl
  | some c => simp only [Option.map_some, (hf c).2]; rfl

/-! Grants (R259). -/

theorem le_grantUnits (act : Tbl Nat) (g sum v cap : Nat) : sum ≤ grantUnits act g sum v cap := Nat.le_max_left _ _

/-- A slice's demand is part of the demand of all. -/
theorem tgetD_le_sum (t : Tbl Nat) (g : Nat) : tgetD t g 0 ≤ (tvals t).sum := by
  induction t with
  | nil => exact Nat.le_refl 0
  | cons p t ih =>
    obtain ⟨k, d⟩ := p
    simp only [tgetD, tget?, tvals, List.map_cons, List.sum_cons] at ih ⊢
    split
    · exact Nat.le_add_right _ _
    · exact Nat.le_trans ih (Nat.le_add_left _ _)

/-- The home grants no more than it has. -/
theorem grantUnits_le (act : Tbl Nat) (g cap : Nat) {sum v : Nat} (h : sum ≤ v) : grantUnits act g sum v cap ≤ v := by
  have hshare : v * tgetD act g 0 / (tvals act).foldl (· + ·) 0 ≤ v := by
    rw [← List.sum_eq_foldl]
    exact Nat.div_le_of_le_mul (Nat.mul_comm v _ ▸ Nat.mul_le_mul_left v (tgetD_le_sum act g))
  rw [grantUnits]
  split <;> omega

/-! The home serves a counter's queue (R258). -/

/-- A counter with no message queued has at most its state to change. -/
theorem State.runHome_idle {s : State} {r : Nat} (h : ∀ c, s.counter r = some c → c.queue = []) :
    s.runHome r = s ∨ ∃ f : HomeCounter → HomeMode, s.runHome r = s.modCounter r (fun c => { c with mode := f c }) := by
  rw [State.runHome]
  cases hc : s.counter r with
  | none => exact .inl rfl
  | some c =>
    have hq := h c hc
    simp only [State.serveHome, hc, hq]
    cases hm : c.mode with
    | direct => exact .inr ⟨fun c => if c.part.isSome then .direct else .normal, rfl⟩
    | normal => exact .inl rfl
    | recalling => exact .inl rfl

/-- A counter in NORMAL with no message queued stands as it is. -/
theorem State.serveHome_of_nil {s : State} {r : Nat} {c : HomeCounter} (hc : s.counter r = some c) (hq : c.queue = []) (hm : c.mode = .normal)
    (n : Nat) : s.serveHome r n = s := by
  cases n with
  | zero => rfl
  | succ n => simp only [State.serveHome, hc, hq, hm]

/-- In NORMAL a home serves the head of a counter's queue, and goes on while the queue grows shorter. -/
theorem State.serveHome_normal {s : State} {r n : Nat} {c d : HomeCounter} {m : HomeMsg} {ms : List HomeMsg} (hc : s.counter r = some c)
    (hq : c.queue = m :: ms) (hm : c.mode = .normal) (hd : (s.serveNormal r c m).counter r = some d) (hlt : d.queue.length < (m :: ms).length) :
    s.serveHome r (n + 1) = (s.serveNormal r c m).serveHome r n := by
  cases c
  cases hq
  cases hm
  rw [State.serveHome, hc]
  dsimp only
  rw [hd]
  exact if_pos hlt

/-- The home once a message has joined a counter's queue. -/
def State.joined (s : State) (r : Nat) (m : HomeMsg) : State := s.modCounter r (fun c => { c with queue := c.queue ++ [m] })

theorem State.travelling_joined (s : State) (r : Nat) (m : HomeMsg) : (s.joined r m).travelling r = s.travelling r :=
  State.travelling_modCounter s r (f := fun c => { c with queue := c.queue ++ [m] }) (fun _ => ⟨rfl, rfl⟩)
theorem State.keeps_joined (s : State) (r : Nat) (m : HomeMsg) (v k : Nat) : (s.joined r m).keeps r v k = s.keeps r v k :=
  State.keeps_modCounter s r (f := fun c => { c with queue := c.queue ++ [m] }) (fun _ => ⟨rfl, rfl⟩) v k
theorem State.travelling_popHome (s : State) (r : Nat) (m : HomeMode) : (s.popHome r m).travelling r = s.travelling r :=
  State.travelling_modCounter s r (f := fun c => { c with queue := c.queue.drop 1, mode := m }) (fun _ => ⟨rfl, rfl⟩)

theorem State.counter_joined {s : State} {r : Nat} {c : HomeCounter} (hc : s.counter r = some c) (hq : c.queue = []) (m : HomeMsg) :
    (s.joined r m).counter r = some { c with queue := [m] } := by
  rw [State.joined, State.counter_modCounter, hc, Option.map_some, hq]; rfl

/-- A message that reaches a counter in NORMAL with no other queued is served alone, if that leaves the counter so. -/
theorem State.atHome_normal {s : State} {r : Nat} {c d : HomeCounter} (hc : s.counter r = some c) (hq : c.queue = []) (hm : c.mode = .normal)
    (g op : Nat) {m : HomeMsg} (hd : ((s.joined r m).serveNormal r { c with queue := [m] } m).counter r = some d)
    (hdq : d.queue = []) (hdm : d.mode = .normal) : s.atHome r g op m = (s.joined r m).serveNormal r { c with queue := [m] } m := by
  have hj := State.counter_joined hc hq m
  rw [State.atHome, hc]
  show (s.joined r m).runHome r = _
  rw [State.runHome, hj]
  show (s.joined r m).serveHome r (3 + 1) = _
  rw [State.serveHome_normal (ms := []) hj rfl hm hd (by rw [hdq]; exact Nat.zero_lt_one), State.serveHome_of_nil hd hdq hdm]

end Sys2Proof.Machine

namespace Sys2Proof.Machine
open Sys2Proof.Claims

/-! Messages at the home of a counter (R256 to R259). -/

theorem memNat_lt (m : Tbl Byte) (a n : Nat) : memNat m a n < 256 ^ n := by
  induction n generalizing a with
  | zero => exact Nat.one_pos
  | succ n ih =>
    have hrest := ih (a + 1)
    have hbyte := (memByte m a).isLt
    rw [memNat, pow_succ]
    omega

theorem State.reserve_lt (s : State) (r : Nat) : s.reserve r < 2 ^ 48 := memNat_lt s.mem (r + 8) 6

/-- A message that is the next of its lane arrives. -/
theorem State.arriveInOrder_first {s : State} {i : Instr} (h : firstOfLane s i) (f : State → State) :
    s.arriveInOrder i f = .next (f (arrived s i)) := by
  obtain ⟨hnext, hfirst⟩ := h
  simp only [State.arriveInOrder, hfirst, if_true, State.arrive, hnext]
  rfl

theorem State.mem_net_send (s : State) (i : Instr) : i ∈ (s.send i).net := List.mem_append_right _ (List.mem_singleton_self i)

/-- A message to a counter that is not live is answered with its fault (R250, R263). -/
theorem State.atHome_dead {s : State} {r : Nat} (h : s.counter r = none) (g op : Nat) (m : HomeMsg) :
    s.atHome r g op m = s.send (.decantStatusReply r g op 0 0 (if s.homeLost r then 0x16 else s.deadDetail r)) := by
  rw [State.atHome, h]

section
variable {s : State} {r : Nat} {c : HomeCounter} (hc : s.counter r = some c) (hq : c.queue = []) (hm : c.mode = .normal)
include hc hq hm

/-- A REQ within RESERVE, where an entry at the slice keeps the invariant, is answered with a GRANT of at least what it asks. -/
theorem State.atHome_req {g sum : Nat} (first op : Nat) (hsum : sum ≤ s.reserve r)
    (hk : s.keeps r (s.reserve r) (demand c.active g sum).length = true) : ∃ (u : State) (n : Nat),
    s.atHome r g op (.req g sum first) = u.send (.decantGrant r g n) ∧ sum ≤ n ∧ u.reserve r + n = s.reserve r ∧
      ∀ a, (a < r + 8 ∨ r + 14 ≤ a) → memByte u.mem a = memByte s.mem a := by
  let x := s.joined r (.req g sum first)
  let n := grantUnits (demand c.active g sum) g sum (s.reserve r) (s.cap r)
  let u := ((x.popHome r .normal).modCounter r (fun d => { d with active := demand c.active g sum })).setReserve r (s.reserve r - n)
  have hkeeps : x.keeps r (s.reserve r) (demand c.active g sum).length = true := (s.keeps_joined r _ _ _).trans hk
  have hserve : x.serveNormal r { c with queue := [.req g sum first] } (.req g sum first) = u.send (.decantGrant r g n) :=
    (if_pos hsum).trans (if_pos hkeeps)
  have hcounter : u.counter r = some { c with queue := [], mode := .normal, active := demand c.active g sum } := by
    rw [State.counter_setReserve, State.counter_modCounter, State.counter_popHome, State.counter_joined hc hq]; rfl
  have hle : n ≤ s.reserve r := grantUnits_le _ _ _ hsum
  have hlt := s.reserve_lt r
  have hreserve : u.reserve r = s.reserve r - n := State.reserve_setReserve _ _ (by omega)
  refine ⟨u, n, (State.atHome_normal hc hq hm g op (by rw [hserve]; exact hcounter) rfl rfl).trans hserve, le_grantUnits _ _ _ _ _, by omega,
    fun a ha => State.memByte_setReserve _ r _ ha⟩

/-- A GIVE that keeps the invariant raises RESERVE and is answered. -/
theorem State.atHome_give {g n : Nat} (op : Nat) (hk : s.keeps r (s.reserve r + n) c.active.length = true) : ∃ u : State,
    s.atHome r g op (.give g n op) = u.send (.decantStatusReply r g op (decantResult n 0).toNat 0 0) ∧ u.reserve r = s.reserve r + n := by
  let x := s.joined r (.give g n op)
  have hkeeps : x.keeps r (s.reserve r + n) c.active.length = true := (s.keeps_joined r _ _ _).trans hk
  let u := (x.popHome r .normal).setReserve r (s.reserve r + n)
  have hserve : x.serveNormal r { c with queue := [.give g n op] } (.give g n op) =
      u.send (.decantStatusReply r g op (decantResult n 0).toNat 0 0) := if_pos hkeeps
  have hcounter : u.counter r = some { c with queue := [], mode := .normal } := by
    rw [State.counter_setReserve, State.counter_popHome, State.counter_joined hc hq]; rfl
  have hlt : s.reserve r + n < 2 ^ 48 := by
    rw [State.keeps, decide_eq_true_iff, decantMax] at hk
    omega
  exact ⟨u, (State.atHome_normal hc hq hm g op (by rw [hserve]; exact hcounter) rfl rfl).trans hserve, State.reserve_setReserve _ _ hlt⟩

/-- A DCREAD is answered with the bounds of R253. -/
theorem State.atHome_read (g op : Nat) : ∃ u : State,
    s.atHome r g op (.read g .read op) = u.send (.decantStatusReply r g op (s.reserve r)
      (decantResult (min decantMax (s.reserve r + s.outUnits r c)) (s.readStatus r)) 0) ∧ u.mem = s.mem := by
  let x := s.joined r (.read g .read op)
  have hout : (x.popHome r .normal).outUnits r { c with queue := [.read g .read op] } = s.outUnits r c := by
    rw [State.outUnits, State.travelling_popHome, State.travelling_joined]; rfl
  have hserve : x.serveNormal r { c with queue := [.read g .read op] } (.read g .read op) =
      (x.popHome r .normal).send (.decantStatusReply r g op (s.reserve r)
        (decantResult (min decantMax (s.reserve r + s.outUnits r c)) (s.readStatus r)) 0) := by
    rw [← hout]; rfl
  have hcounter : (x.popHome r .normal).counter r = some { c with queue := [], mode := .normal } := by
    rw [State.counter_popHome, State.counter_joined hc hq]; rfl
  exact ⟨_, (State.atHome_normal hc hq hm g op (by rw [hserve]; exact hcounter) rfl rfl).trans hserve, rfl⟩

/-- Units that come back raise RESERVE, and end the slice's entry. -/
theorem State.unitsHome_normal (g : Nat) {n : Nat} (hn : s.reserve r + n < 2 ^ 48) :
    (s.unitsHome r g n).reserve r = s.reserve r + n ∧ ∃ x, (s.unitsHome r g n).counter r = some x ∧ tget? x.active g = none := by
  let d : HomeCounter := { c with
    active := tdel c.active g, recallFrom := c.recallFrom.filter (fun x => x != g),
    part := if c.part.any (fun p => p.1 == g) then none else c.part, mode := .normal }
  let u := (s.setReserve r (s.reserve r + n)).modCounter r (fun _ => d)
  have hcounter : u.counter r = some d := by
    rw [State.counter_modCounter, State.counter_setReserve, hc]; rfl
  have hrun : u.runHome r = u := by
    rw [State.runHome, hcounter]
    exact State.serveHome_of_nil hcounter hq rfl _
  have hunits : s.unitsHome r g n = u := by
    rw [← hrun, State.unitsHome, hc]
    simp only [hm]
    rfl
  rw [hunits]
  exact ⟨State.reserve_setReserve s r hn, d, hcounter, by rw [tget?_tdel, if_pos rfl]⟩

end

end Sys2Proof.Machine

namespace Sys2Proof.Machine
open Sys2Proof.Claims

/-! Messages at a slice (R257, R258). -/

/-- What a slice keeps of a counter is not changed by a home whose queue holds no message of the counter. -/
theorem State.runHome_slice {s : State} {r : Nat} (h : ∀ c, s.counter r = some c → c.queue = []) (g : Nat) :
    (s.runHome r).allowance g r = s.allowance g r ∧ (s.runHome r).mem = s.mem ∧ (s.runHome r).net = s.net ∧
      (s.runHome r).decants = s.decants := by
  rcases State.runHome_idle h with he | ⟨f, he⟩
  · rw [he]; exact ⟨rfl, rfl, rfl, rfl⟩
  · rw [he]; exact ⟨s.allowance_modCounter r _ g r, rfl, rfl, rfl⟩

/-- DECANT_GRANT at a slice that holds an entry and where no take waits. -/
theorem exec_decantGrant_adds {s : State} {r g n : Nat} (h : firstOfLane s (.decantGrant r g n)) (hh : (s.allowance g r).held = true)
    (hw : (s.allowance g r).waiters = []) (hidle : ∀ c, s.counter r = some c → c.queue = []) :
    ∃ t : State, exec (.decantGrant r g n) s = .next t ∧ (t.allowance g r).a = (s.allowance g r).a + n ∧ (t.allowance g r).held = true ∧
      (t.allowance g r).req = false ∧ t.mem = s.mem := by
  let x := arrived s (.decantGrant r g n)
  let e : AllowEntry := { s.allowance g r with held := true, a := (s.allowance g r).a + n, req := false }
  let u := (x.setAllowance g r e).serveWaiters g r
  obtain ⟨k, hu⟩ := State.allowance_serveWaiters_held (s := x) (g := g) (r := r) (e := e) rfl hw
  have hsliced : Sliced x u := ((Sliced.refl x).setAllowance g r e).serveWaiters g r
  obtain ⟨hallow, hmem, -, -⟩ := State.runHome_slice (s := u) (r := r) (fun c hc => hidle c ((hsliced.counter r).symm.trans hc)) g
  have hexec : exec (.decantGrant r g n) s = .next (u.runHome r) := by
    rw [exec_decantGrant, execDecantGrant, State.arriveInOrder_first h]
    have hheld : (x.allowance g r).held = true := hh
    dsimp only
    rw [if_pos hheld]
    dsimp only
    exact congrArg (fun v : State => Host.Outcome.next (v.runHome r)) (State.ask_of_nil (s := u) (by rw [hu]; exact hw))
  rw [hu] at hallow
  exact ⟨_, hexec, by rw [hallow], by rw [hallow], by rw [hallow], hmem.trans hsliced.mem⟩

theorem State.decantN_of_some {s : State} {op : Nat} {x : DecantOp} (h : tget? s.decants op = some x) : s.decantN op = x.n := by
  rw [State.decantN, tgetD, h]; rfl

/-- One take that fits the units is served. -/
theorem State.serveTakes_one {s : State} {op a : Nat} (h : s.decantN op ≤ a) : s.serveTakes [op] a = ([op], [], a - s.decantN op) := by
  rw [State.serveTakes, if_pos h]; rfl

theorem State.decants_decantDone {s : State} {op : Nat} {x : DecantOp} (h : tget? s.decants op = some x) (lo hi : Dword) :
    tget? (s.decantDone op lo hi).decants op = some { x with done := true, lo := lo, hi := hi } := by
  rw [State.decantDone, tget?_tmodify, if_pos rfl, h]; rfl

/-- A take that is served ends with its units. -/
theorem State.decants_takeServed {s : State} {op : Nat} {x : DecantOp} (h : tget? s.decants op = some x) :
    tget? (s.takesDone [op] true).decants op = some { x with done := true, lo := decantResult x.n 0, hi := 0 } := by
  exact (State.decants_decantDone h _ _).trans (by rw [State.decantN_of_some h]; rfl)

/-- DECANT_SERVE of at least what the one waiting take needs. -/
theorem exec_decantServe_serves {s : State} {r g n op : Nat} {d : DecantOp} (h : firstOfLane s (.decantServe r g n))
    (hw : (s.allowance g r).waiters = [op]) (hd : tget? s.decants op = some d) (hn : d.n ≤ n) (hsum : (s.allowance g r).sum ≤ n)
    (hidle : ∀ c, s.counter r = some c → c.queue = []) :
    ∃ t : State, exec (.decantServe r g n) s = .next t ∧ (t.allowance g r).waiters = [] ∧ (t.allowance g r).req = false ∧
      (n ≠ d.n → .decantReturn r g (n - d.n) ∈ t.net) ∧
      tget? t.decants op = some { d with done := true, lo := decantResult d.n 0, hi := 0 } := by
  let x := arrived s (.decantServe r g n)
  let u := (x.takesDone [op] true).setAllowance g r { s.allowance g r with waiters := [], req := false }
  let v := if n - d.n = 0 then u else u.send (.decantReturn r g (n - d.n))
  have hdn : x.decantN op = d.n := State.decantN_of_some hd
  have htakes : x.serveTakes (x.allowance g r).waiters n = ([op], [], n - d.n) := by
    rw [show (x.allowance g r).waiters = [op] from hw, ← hdn]
    exact State.serveTakes_one (by rw [hdn]; exact hn)
  have hsliced : Sliced x u := ((Sliced.refl x).takesDone _ _).setAllowance _ _ _
  have hv : v.clusters = u.clusters ∧ v.decants = u.decants ∧ (n ≠ d.n → .decantReturn r g (n - d.n) ∈ v.net) := by
    by_cases h0 : n - d.n = 0
    · refine ⟨by simp only [v, if_pos h0], by simp only [v, if_pos h0], fun hne => absurd h0 (by omega)⟩
    · simp only [v, if_neg h0]
      exact ⟨rfl, rfl, fun _ => State.mem_net_send _ _⟩
  obtain ⟨hclusters, hdecants, hnet⟩ := hv
  have hvu : v.allowance g r = u.allowance g r := by rw [State.allowance, State.allowance, State.cluster, State.cluster, hclusters]
  have hvw : (v.allowance g r).waiters = [] := by rw [hvu]; exact State.waiters_setAllowance _ g r _
  have hvr : (v.allowance g r).req = false := by rw [hvu]; exact State.req_setAllowance _ g r _
  have hvc : v.counter r = s.counter r := by
    rw [State.counter, State.cluster, hclusters]; exact hsliced.counter r
  obtain ⟨hallow, -, hrnet, hrdec⟩ := State.runHome_slice (s := v) (r := r) (fun c hc => hidle c (hvc.symm.trans hc)) g
  have hexec : exec (.decantServe r g n) s = .next (v.runHome r) := by
    rw [exec_decantServe, execDecantServe, State.arriveInOrder_first h]
    dsimp only
    rw [if_neg (show ¬ n < (x.allowance g r).sum from Nat.not_lt.2 hsum), htakes]
    exact congrArg (fun v : State => Host.Outcome.next (v.runHome r)) (State.ask_of_nil hvw)
  refine ⟨_, hexec, by rw [hallow, hvw], by rw [hallow, hvr], fun hne => by rw [hrnet]; exact hnet hne, ?_⟩
  rw [hrdec, hdecants]
  exact State.decants_takeServed (s := x) hd

/-- DECANT_RECALL at a slice with an entry: the entry is answered and deleted. -/
theorem exec_decantRecall_answers {s : State} {r g : Nat} (h : firstOfLane s (.decantRecall r g)) (hh : (s.allowance g r).held = true) :
    ∃ t : State, exec (.decantRecall r g) s = .next t ∧ (t.allowance g r).held = false ∧
      .decantAnswer r g (s.allowance g r).a ∈ t.net ∧ t.mem = s.mem := by
  refine ⟨((arrived s (.decantRecall r g)).setAllowance g r { s.allowance g r with held := false, a := 0 }).send
    (.decantAnswer r g (s.allowance g r).a), ?_, State.held_setAllowance _ g r _, State.mem_net_send _ _, rfl⟩
  rw [exec_decantRecall, execDecantRecall, State.arriveInOrder_first h]
  exact congrArg Host.Outcome.next (if_pos hh)

/-- DECANT_RECALL at a slice whose entry is on its way home. -/
theorem exec_decantRecall_gone {s : State} {r g : Nat} (h : firstOfLane s (.decantRecall r g)) (hh : (s.allowance g r).held = false) :
    exec (.decantRecall r g) s = .next (arrived s (.decantRecall r g)) := by
  rw [exec_decantRecall, execDecantRecall, State.arriveInOrder_first h]
  exact congrArg Host.Outcome.next (if_neg (by rw [show ((arrived s (.decantRecall r g)).allowance g r).held = false from hh]; exact Bool.false_ne_true))

/-- DECANT_STATUS_REPLY to an operation other than the slice's REQ ends it. -/
theorem exec_decantStatusReply_ends {s : State} {r g op lo dt : Nat} {hi : Dword} {d : DecantOp}
    (h : firstOfLane s (.decantStatusReply r g op lo hi dt)) (hd : tget? s.decants op = some d)
    (hreq : ¬ ((s.allowance g r).req = true ∧ (s.allowance g r).first = op)) (hl : (s.allowance g r).later = []) :
    ∃ t : State, exec (.decantStatusReply r g op lo hi dt) s = .next t ∧ ({ t with decants := s.decants, net := s.net } : State) = s ∧
      tget? t.decants op = some { d with done := true, lo := BitVec.ofNat 64 lo, hi := hi, trap := replyTrap dt } := by
  let u := (arrived s (.decantStatusReply r g op lo hi dt)).decantEnd op (BitVec.ofNat 64 lo) hi (replyTrap dt)
  have hexec : exec (.decantStatusReply r g op lo hi dt) s = .next (u.pump g r) := by
    rw [exec_decantStatusReply, execDecantStatusReply, State.arriveInOrder_first h]
    have hother : ¬ ((s.allowance g r).req && decide ((s.allowance g r).first = op)) = true := by simpa using hreq
    exact congrArg Host.Outcome.next (if_neg hother)
  rw [State.pump_of_nil (s := u) hl] at hexec
  refine ⟨u, hexec, rfl, ?_⟩
  show tget? (tmodify s.decants op _) op = _
  rw [tget?_tmodify, if_pos rfl, hd]; rfl

/-- DECANT_STATUS_REPLY to the slice's REQ: the take that it named ends EMPTY. -/
theorem exec_decantStatusReply_empty {s : State} {r g op lo : Nat} {hi : Dword} {d : DecantOp}
    (h : firstOfLane s (.decantStatusReply r g op lo hi 0)) (hd : tget? s.decants op = some d) (hreq : (s.allowance g r).req = true)
    (hf : (s.allowance g r).first = op) (hw : (s.allowance g r).waiters = [op]) :
    ∃ t : State, exec (.decantStatusReply r g op lo hi 0) s = .next t ∧ t.mem = s.mem ∧ (t.allowance g r).waiters = [] ∧
      (t.allowance g r).req = false ∧ tget? t.decants op = some { d with done := true, lo := decantResult 0 1, hi := 0 } := by
  let x := arrived s (.decantStatusReply r g op lo hi 0)
  let u := (x.takesDone [op] false).setAllowance g r { s.allowance g r with waiters := [], req := false }
  have huw : (u.allowance g r).waiters = [] := State.waiters_setAllowance _ g r _
  have hanswer : x.reqAnswered r g op 0 = u.ask g r := by
    have hxw : (x.allowance g r).waiters = [op] := hw
    simp only [State.reqAnswered, if_true, hxw, List.contains_cons, beq_self_eq_true, Bool.true_or, List.filter_cons, bne_self_eq_false,
      Bool.false_eq_true, if_false, List.filter_nil]
    rfl
  have hexec : exec (.decantStatusReply r g op lo hi 0) s = .next (u.ask g r) := by
    rw [exec_decantStatusReply, execDecantStatusReply, State.arriveInOrder_first h, ← hanswer]
    have hsame : ((s.allowance g r).req && decide ((s.allowance g r).first = op)) = true := by simp [hreq, hf]
    exact congrArg Host.Outcome.next (if_pos hsame)
  rw [State.ask_of_nil huw] at hexec
  exact ⟨u, hexec, rfl, huw, State.req_setAllowance _ g r _, State.decants_decantDone (s := x) hd _ _⟩

end Sys2Proof.Machine

namespace Sys2Proof.Machine
open Sys2Proof.Claims

/-! The loss of a C-die (R262, R263). -/

/-- No operation of a lost stack's clusters is left, and none of its slices keeps an allowance. -/
structure StackGone (stack : Nat) (s : State) : Prop where
  ops : ∀ p ∈ s.decants, p.2.cluster / 32 ≠ stack
  slices : ∀ k, k / 32 = stack → (s.cluster k).allow = []

theorem StackGone.modCluster {stack : Nat} {s : State} (h : StackGone stack s) (g : Nat) {f : Cluster → Cluster}
    (hf : ∀ c, (f c).allow = c.allow) : StackGone stack (s.modCluster g f) := by
  refine ⟨h.ops, fun k hk => ?_⟩
  rw [State.cluster_modCluster]; split
  · subst k; exact (hf _).trans (h.slices g hk)
  · exact h.slices k hk

theorem transported_stackGone (stack : Nat) : Transported (StackGone stack) where
  rest _ _ _ _ _ _ h := ⟨h.ops, h.slices⟩
  tags _ g _ h := h.modCluster g (fun _ => rfl)

section
variable {stack : Nat} {s : State} (h : StackGone stack s)
include h

theorem StackGone.send (i : Instr) : StackGone stack (s.send i) := ⟨h.ops, h.slices⟩
theorem StackGone.modCounter (r : Nat) (f : HomeCounter → HomeCounter) : StackGone stack (s.modCounter r f) := h.modCluster _ (fun _ => rfl)
theorem StackGone.popHome (r : Nat) (m : HomeMode) : StackGone stack (s.popHome r m) := h.modCounter _ _
theorem StackGone.setImage (a : Nat) (bs : List Byte) : StackGone stack (s.setImage a bs) := by
  have hwritten : StackGone stack (s.memWrite a bs) := ⟨h.ops, h.slices⟩
  exact (transported_stackGone stack).publishLine hwritten _
theorem StackGone.setReserve (r v : Nat) : StackGone stack (s.setReserve r v) := h.setImage _ _

theorem StackGone.decantRetire (r cause detail : Nat) : StackGone stack (s.decantRetire r cause detail) := by
  rw [State.decantRetire]
  refine StackGone.modCluster ⟨fun p hp => ?_, fun k hk => ?_⟩ _ (f := fun c => { c with counters := tdel c.counters r }) (fun _ => rfl)
  · obtain ⟨q, hq, rfl⟩ := List.mem_map.1 hp
    have hcluster := h.ops q hq
    dsimp only
    split
    · exact hcluster
    · exact hcluster
  · have hnone := h.slices k hk
    simp only [State.cluster, tgetD, tget?_tmap] at hnone ⊢
    cases hc : tget? s.clusters k with
    | none => rfl
    | some c =>
      rw [hc] at hnone
      simp only [Option.map_some, Option.getD_some] at hnone ⊢
      rw [hnone]; rfl

theorem StackGone.dropCounter (r g op : Nat) : StackGone stack (s.dropCounter r g op) := ((h.send _).decantRetire _ _ _).setImage _ _

theorem StackGone.startRecall (r : Nat) (c : HomeCounter) : StackGone stack (s.startRecall r c) :=
  List.foldlRecOn (motive := StackGone stack) _ _ (h.modCounter _ _) (fun _ hu _ _ => hu.send _)

theorem StackGone.serveDirect (r : Nat) (m : HomeMsg) : StackGone stack (s.serveDirect r m) := by
  have hpop := h.popHome r .direct
  match m with
  | .req g sum first =>
    simp only [State.serveDirect]
    split
    · exact (hpop.setReserve _ _).send _
    · split
      · exact ((hpop.modCounter _ _).setReserve _ _).send _
      · exact hpop.send _
  | .give g n op => exact (hpop.setReserve _ _).send _
  | .read g .read op => exact hpop.send _
  | .read g .exact op => exact hpop.send _
  | .read g .drop op => exact hpop.dropCounter _ _ _

/-- What a home does in NORMAL with a message that it cannot serve at once. -/
theorem StackGone.recalls (r : Nat) (c : HomeCounter) (m : HomeMsg) (a b : Prop) [Decidable a] [Decidable b] :
    StackGone stack (if a then s.serveDirect r m else if b then s else s.startRecall r c) := by
  split
  · exact h.serveDirect r m
  · split
    · exact h
    · exact h.startRecall r c

theorem StackGone.serveNormal (r : Nat) (c : HomeCounter) (m : HomeMsg) : StackGone stack (s.serveNormal r c m) := by
  have hpop := h.popHome r .normal
  match m with
  | .req g sum first =>
    simp only [State.serveNormal]
    split
    · split
      · exact ((hpop.modCounter _ _).setReserve _ _).send _
      · exact (hpop.setReserve _ _).send _
    · exact h.recalls r c _ _ _
  | .give g n op =>
    simp only [State.serveNormal]
    split
    · exact (hpop.setReserve _ _).send _
    · exact h.recalls r c _ _ _
  | .read g .read op => exact hpop.send _
  | .read g .exact op => exact h.recalls r c _ _ _
  | .read g .drop op => exact h.recalls r c _ _ _

end

theorem StackGone.serveHome {stack : Nat} (r n : Nat) : ∀ {s : State}, StackGone stack s → StackGone stack (s.serveHome r n) := by
  induction n with
  | zero => exact fun h => h
  | succ n ih =>
    intro s h
    rw [State.serveHome]
    split
    · exact h
    · split
      · exact h.modCounter _ _
      · exact h
      · exact h
      · split
        · exact h
        · exact ih (h.serveDirect _ _)
      · dsimp only
        split
        · split
          · exact ih (h.serveNormal _ _ _)
          · exact h.serveNormal _ _ _
        · exact h.serveNormal _ _ _

theorem StackGone.runHome {stack : Nat} {s : State} (h : StackGone stack s) (r : Nat) : StackGone stack (s.runHome r) := by
  rw [State.runHome]
  split
  · exact StackGone.serveHome _ _ h
  · exact h

theorem StackGone.loseEntries {stack : Nat} {s : State} (h : StackGone stack s) (lost r : Nat) : StackGone stack (s.loseEntries lost r) := by
  rw [State.loseEntries]
  split
  · exact h
  · dsimp only
    refine StackGone.runHome (StackGone.modCounter ?_ _ _) _
    split
    · exact h
    · exact h.setImage _ _

/-- The operations and the allowances of a lost C-die go; some messages are left. -/
def State.withoutStack (s : State) (stack : Nat) (net : List Instr) : State := { s with
  net := net, decants := s.decants.filter (fun p => !onStack stack p.2.cluster),
  clusters := s.clusters.map (fun p => if onStack stack p.1 then (p.1, { p.2 with allow := [] }) else p) }

theorem State.stackGone_withoutStack (s : State) (stack : Nat) (net : List Instr) : StackGone stack (s.withoutStack stack net) := by
  refine ⟨fun p hp => ?_, fun k hk => ?_⟩
  · have hout := (List.mem_filter.1 hp).2
    simpa [onStack] using hout
  · simp only [State.cluster, State.withoutStack, tgetD]
    have hkey : ∀ q : Nat × Cluster, (if onStack stack q.1 then (q.1, { q.2 with allow := [] }) else q).1 = q.1 := fun q => by split <;> rfl
    rw [tget?_map_keyed hkey]
    cases tget? s.clusters k with
    | none => rfl
    | some c => simp [onStack, hk]

/-- DECANT_CDIE_LOSS drops what the lost C-die held, and no home that survives brings it back. -/
theorem exec_decantCdieLoss_drops {s : State} {stack : Nat} (h : s.next? (.decantCdieLoss stack) = true) :
    ∃ t : State, exec (.decantCdieLoss stack) s = .next t ∧ StackGone stack t := by
  rw [exec_decantCdieLoss, execDecantCdieLoss, State.arrive, if_pos h]
  exact ⟨_, rfl, List.foldlRecOn (motive := StackGone stack) _ _ (State.stackGone_withoutStack _ stack _) (fun _ hu r _ => hu.loseEntries stack r)⟩

end Sys2Proof.Machine

namespace Sys2Proof.Machine
open Sys2Proof.Claims

/-- A message to the home of a counter that is not live is answered with its fault. -/
theorem exec_decant_dead {s : State} {r g op : Nat} {i : Instr} {m : HomeMsg} (h : firstOfLane s i)
    (hx : exec i s = s.arriveInOrder i (fun u => u.atHome r g op m)) (hc : s.counter r = none) : exec i s = .next ((arrived s i).send
      (.decantStatusReply r g op 0 0 (if s.homeLost r then 0x16 else s.deadDetail r))) := by
  rw [hx, State.arriveInOrder_first h, State.atHome_dead (s := arrived s i) hc]
  rfl

/-- DECANT_RETURN and DECANT_ANSWER raise RESERVE in NORMAL, and end the slice's entry. -/
theorem exec_decantUnits_return {s : State} {r g n : Nat} {i : Instr} {c : HomeCounter} (hi : i = .decantReturn r g n ∨ i = .decantAnswer r g n)
    (h : firstOfLane s i) (hc : s.counter r = some c) (hq : c.queue = []) (hm : c.mode = .normal) (hn : s.reserve r + n < 2 ^ 48) :
    ∃ t : State, exec i s = .next t ∧ t.reserve r = s.reserve r + n ∧ ∃ x, t.counter r = some x ∧ tget? x.active g = none := by
  have hunits := State.unitsHome_normal (s := arrived s i) hc hq hm g hn
  have harrive := State.arriveInOrder_first h
  rcases hi with rfl | rfl
  · have hpump := (Sliced.refl ((arrived s (.decantReturn r g n)).unitsHome r g n)).pump g r
    refine ⟨_, harrive (fun s => (s.unitsHome r g n).pump g r), ?_⟩
    rw [hpump.reserve, hpump.counter]
    exact hunits
  · exact ⟨_, harrive (fun s => s.unitsHome r g n), hunits⟩

/-- Settles O44: at its home a message to a counter in NORMAL is served alone, and at its slice the entry takes it. -/
theorem decantMessages : Obligations.DecantMessages := by
  intro s r g
  refine ⟨?_, ?_, ?_, ?_, ?_, ?_, ?_⟩
  · intro i sum first n op kind hi h hc
    rcases hi with ⟨rfl, rfl⟩ | rfl | rfl
    · exact exec_decant_dead (m := .req g sum first) h rfl hc
    · exact exec_decant_dead (m := .give g n op) h rfl hc
    · exact exec_decant_dead (m := .read g kind op) h rfl hc
  · intro c hc hq hm
    refine ⟨fun sum first h hsum hk => ?_, fun n op h hk => ?_, fun op h => ?_, fun n i hi h hn => exec_decantUnits_return hi h hc hq hm hn⟩
    · obtain ⟨u, n, hu, hle, hreserve, hmem⟩ := State.atHome_req (s := arrived s (.decantReq r g sum first)) hc hq hm first
        ((arrived s (.decantReq r g sum first)).firstTake g r) hsum hk
      exact ⟨_, n, (State.arriveInOrder_first h _).trans (congrArg _ hu), hle, hreserve, State.mem_net_send _ _, hmem⟩
    · obtain ⟨u, hu, hreserve⟩ := State.atHome_give (s := arrived s (.decantGiveMsg r g n op)) hc hq hm op hk
      exact ⟨_, (State.arriveInOrder_first h _).trans (congrArg _ hu), hreserve, State.mem_net_send _ _⟩
    · obtain ⟨u, hu, hmem⟩ := State.atHome_read (s := arrived s (.decantReadAtHome r g .read op)) hc hq hm g op
      exact ⟨_, (State.arriveInOrder_first h _).trans (congrArg _ hu), hmem, State.mem_net_send _ _⟩
  · exact fun h => ⟨exec_decantRecall_answers h, exec_decantRecall_gone h⟩
  · exact fun n h hh hw hidle => exec_decantGrant_adds h hh hw hidle
  · exact fun n op x h hw hx hn hsum hidle => exec_decantServe_serves h hw hx hn hsum hidle
  · intro op lo hi dt x h hx
    refine ⟨fun hreq hl => exec_decantStatusReply_ends h hx hreq hl, fun hreq hf hw hdt => ?_⟩
    subst hdt
    exact exec_decantStatusReply_empty h hx hreq hf hw
  · intro stack h
    obtain ⟨t, ht, hgone⟩ := exec_decantCdieLoss_drops h
    exact ⟨t, ht, hgone.ops, hgone.slices⟩

end Sys2Proof.Machine

namespace Sys2Proof.Machine
open Sys2Proof.Claims

/-! What a decant instruction waits for, and the translation that its core caches (R249, R255, R377). -/

theorem tmodify_tmodify {α : Type} (t : Tbl α) (n : Nat) {f : α → α} (hf : ∀ v, f (f v) = f v) :
    tmodify (tmodify t n f) n f = tmodify t n f := by
  cases h : tget? t n with
  | none => rw [show tmodify t n f = t by rw [tmodify, h], tmodify, h]
  | some v => rw [tmodify_of_some f h, tmodify_of_some f (tget?_tset_same t n _), tset_tset, hf]

/-- An instruction that has begun has begun. -/
@[simp] theorem State.begun_begun (s : State) : s.begun.begun = s.begun :=
  congrArg (fun ws : Tbl Wave => ({ s with waves := ws } : State)) (tmodify_tmodify s.waves s.issue.wave (fun _ => rfl))

theorem State.cacheXlate_eq (s : State) (core ctx : Nat) (va : Dword) : ∃ cs, s.cacheXlate core ctx va = { s with cores := cs } := by
  simp only [State.cacheXlate]
  split
  · exact ⟨s.cores, rfl⟩
  · split
    · exact ⟨s.cores, rfl⟩
    · split
      · exact ⟨s.cores, rfl⟩
      · exact ⟨_, rfl⟩

/-- `u` is `s` but for its cores, and a line with no message and no queued store in `s` has none in `u`. -/
structure Gated (s u : State) : Prop where
  rest : ({ u with cores := s.cores } : State) = s
  idle : ∀ line, s.lineBusy line = false → u.lineBusy line = false

theorem Gated.refl (s : State) : Gated s s := ⟨rfl, fun _ => id⟩

/-- A release that completes queues no store. -/
theorem State.gated_released (s : State) (core level : Nat) : Gated s (s.released core level) := by
  refine ⟨rfl, fun line h => ?_⟩
  simp only [State.lineBusy, Bool.or_eq_false_iff] at h ⊢
  obtain ⟨hmsg, hwrites⟩ := h
  refine ⟨hmsg, ?_⟩
  rw [List.any_eq_not_all_not, Bool.not_eq_false'] at hwrites ⊢
  have hkept : ∀ c : Core, (if level = 6 then (if c.relMark ≤ s.releaseMark then { c with relLevel := 0 } else c)
      else { c with epoch := c.epoch + 1, relLevel := level, relMark := c.nextWrite } : Core).queued line = c.queued line := by
    intro c
    split
    · split <;> rfl
    · rfl
  refine tset_all _ s.cores core _ ?_ hwrites
  rw [hkept]
  exact all_tgetD (q := fun c : Core => !c.queued line) core rfl (by rwa [tvals, List.all_map])

/-- A decant instruction that waits for no load, and for no earlier write as a release, goes on. -/
theorem State.decantGate_passes {s : State} {writes : Bool} (h : decantClear s.begun writes) :
    ∃ u, Gated s.begun u ∧ ∀ k, s.begun.decantGate writes k = k u := by
  obtain ⟨hacq, hloads, hgate⟩ := h
  rw [State.begun_begun] at hacq
  simp only [State.decantGate, hacq, hloads, List.isEmpty_nil, Bool.not_true, Bool.false_eq_true, if_false]
  split
  · rename_i hw
    rw [Bool.and_eq_true, decide_eq_true_iff] at hw
    rw [hgate hw.1 hw.2]
    exact ⟨_, State.gated_released _ _ _, fun _ => rfl⟩
  · exact ⟨_, Gated.refl _, fun _ => rfl⟩

end Sys2Proof.Machine

namespace Sys2Proof.Machine
open Sys2Proof.Claims

/-! DCINIT (R250, R251). -/

theorem freshRecord_length (v cap : Nat) : (freshRecord v cap).length = 64 := by
  simp only [freshRecord, List.length_append, leBytes_length]

/-- The state in which a record is declared at its home. -/
def State.declared (s : State) (va : Dword) (r v cap : Nat) : State :=
  (((s.cacheXlate s.curWave.core s.curWave.ctx va).publish r (freshRecord v cap)).sendHome r).modCluster (homeSlice r) (fun c =>
    { c with counters := tset c.counters r {} })

theorem lineOf_of_aligned {r : Nat} (h : r % 64 = 0) : lineOf r = r := by rw [lineOf]; omega

/-- Declaring a record where none lives writes its image, makes its home entry, and changes no wave. -/
theorem State.declared_writes {s : State} {r : Nat} (hr : r % 64 = 0) (hc : s.counter r = none)
    (hd : ∀ k, k < 64 → s.deviceByte (r + k) = false) (va : Dword) (v cap : Nat) :
    (s.declared va r v cap).mem = memPut s.mem r (freshRecord v cap) ∧ (s.declared va r v cap).waves = s.waves ∧
      (s.declared va r v cap).issue = s.issue ∧ (s.declared va r v cap).counter r = some {} := by
  obtain ⟨cs, hcs⟩ := s.cacheXlate_eq s.curWave.core s.curWave.ctx va
  let x : State := { s with cores := cs }
  have hhome : tget? (x.cluster (homeSlice (lineOf r))).counters (lineOf r) = none := by rw [lineOf_of_aligned hr]; exact hc
  obtain ⟨P, N, W, -, hw⟩ := State.writeOwned_eq (s := x) (pa := r) (bs := freshRecord v cap)
    (fun k hk => hd k (by rwa [freshRecord_length] at hk)) hhome
  have hseen : SeenSame (x.writeOwned r (freshRecord v cap)) ((x.publish r (freshRecord v cap)).sendHome r) :=
    (transported_seenSame _).sendHome (State.publishLine_seen _ _) r
  have hdeclared : s.declared va r v cap = ((x.publish r (freshRecord v cap)).sendHome r).modCluster (homeSlice r) (fun c =>
      { c with counters := tset c.counters r {} }) := by rw [State.declared, hcs]
  rw [hdeclared]
  refine ⟨(State.sameArch_mem hseen.arch).trans (by rw [hw]), (State.sameArch_waves hseen.arch).trans (by rw [hw]),
    (State.sameArch_issue hseen.arch).trans (by rw [hw]), ?_⟩
  rw [State.counter, State.cluster_modCluster, if_pos rfl]
  exact tget?_tset_same _ _ _

/-- The record is declared by the wave that issues, which changes no more than by having begun. -/
theorem Gated.declared_writes {s u : State} (hu : Gated s.begun u) {r : Nat} (hr : r % 64 = 0) (hc : s.counter r = none)
    (hd : ∀ k, k < 64 → s.deviceByte (r + k) = false) (va : Dword) (v cap : Nat) :
    (u.declared va r v cap).mem = memPut s.mem r (freshRecord v cap) ∧ (u.declared va r v cap).counter r = some {} ∧
      (u.declared va r v cap).waves = s.begun.waves ∧ (u.declared va r v cap).curWave = { s.curWave with resumed := false } := by
  have hclusters : u.clusters = s.clusters := (congrArg State.clusters hu.rest :)
  have hctxs : u.ctxs = s.ctxs := (congrArg State.ctxs hu.rest :)
  have hmem : u.mem = s.mem := (congrArg State.mem hu.rest :)
  have hwaves : u.waves = s.begun.waves := (congrArg State.waves hu.rest :)
  have hissue : u.issue = s.issue := (congrArg State.issue hu.rest :)
  obtain ⟨hm, hw, hi, hcounter⟩ := State.declared_writes (s := u) hr (by rw [State.counter, State.cluster, hclusters]; exact hc)
    (fun k hk => by rw [State.deviceByte, hctxs]; exact hd k hk) va v cap
  refine ⟨by rw [hm, hmem], hcounter, hw.trans hwaves, ?_⟩
  rw [State.curWave, hw, hi, hwaves, hissue]
  exact s.begun_curWave

/-- DCINIT of a record that no home holds and whose line is idle declares it. -/
theorem exec_dcinit_declares {d : Fin 64} {a b : SSrc} {s : State} {r : Nat} (hi : s.issues (.dcinit d a b)) (hm : s.activeMask ≠ 0)
    (hg : decantClear s.begun true) (hv : (s.readS64 b).toNat < 2 ^ 48) (hcap : (s.curWave.sreg d.val).toNat < 2 ^ 40)
    (hcheck : s.begun.decantCheck (s.readS64 a) false = .ok r) (hc : s.counter r = none) (hst : s.recordState r ∈ [0, 1, 2, 15])
    (hlen : (s.cluster (homeSlice r)).counters.length < 1024) (hbusy : s.lineBusy r = false) : ∃ u, Gated s.begun u ∧
      exec (.dcinit d a b) s =
        .next (u.declared (s.readS64 a) r (s.readS64 b).toNat (s.curWave.sreg d.val).toNat).finish := by
  have hin : (decide (decantMax < (s.readS64 b).toNat) || decide (2 ^ 40 - 1 < (s.curWave.sreg d.val).toNat)) = false := by
    rw [decantMax, Bool.or_eq_false_iff, decide_eq_false_iff_not, decide_eq_false_iff_not]; omega
  obtain ⟨u, hu, hgate⟩ := State.decantGate_passes hg
  have hmem : u.mem = s.mem := (congrArg State.mem hu.rest :)
  have hclusters : u.clusters = s.clusters := (congrArg State.clusters hu.rest :)
  refine ⟨u, hu, ?_⟩
  have hc' : ¬ (u.counter r).isSome = true := by
    rw [State.counter, State.cluster, hclusters, ← State.cluster, ← State.counter, hc]; exact Bool.false_ne_true
  have hst' : ¬ (!([0, 1, 2, 15].contains (u.recordState r))) = true := by
    rw [State.recordState, hmem, ← State.recordState, List.contains_iff_mem.2 hst]; exact Bool.false_ne_true
  have hlen' : ¬ 1024 ≤ (u.cluster (homeSlice r)).counters.length := by
    rw [State.cluster, hclusters]; exact Nat.not_le.2 hlen
  have hbusy' : ¬ u.lineBusy r = true := by rw [hu.idle r hbusy]; exact Bool.false_ne_true
  rw [exec_dcinit, execDcinit, issueOp_issues _ _ _ hi, s.begun_activeMask, if_neg hm, s.begun_readS64, s.begun_readS64, s.begun_sreg,
    hin, hcheck]
  refine congrArg _ ((hgate _).trans ?_)
  exact (if_neg hc').trans ((if_neg hst').trans ((if_neg hlen').trans (if_neg hbusy')))

end Sys2Proof.Machine

namespace Sys2Proof.Machine
open Sys2Proof.Claims

/-! Filing an operation with its slice (R256, R257). -/

/-- Where no message of a counter is on its way and none waits, the slice has none outstanding at the home. -/
theorem State.outstandingAt_of_quiet {s : State} {g r : Nat} (h : decantQuiet s g r) : s.outstandingAt g r = false := by
  obtain ⟨hnet, -, hqueue⟩ := h
  have hq : ((s.counter r).getD {}).queue = [] := by
    cases hc : s.counter r with
    | none => rfl
    | some c => exact hqueue c hc
  rw [State.outstandingAt, hq, List.any_nil, Bool.or_false, List.any_eq_false]
  intro i hi
  have hlane := hnet i hi
  split
  case h_5 => exact Bool.false_ne_true
  all_goals cases hlane

/-- A slice with nothing outstanding sends an operation home at once. -/
theorem State.toHome_of_quiet {s : State} {g r : Nat} (h : decantQuiet s g r) (op : Nat) (m : Instr) : s.toHome g r op m = s.send m := by
  have hout := State.outstandingAt_of_quiet h
  obtain ⟨-, hlater, -⟩ := h
  rw [State.toHome, hout, hlater]; rfl

section
variable {s : State} {op : Nat} {d : DecantOp}

theorem State.submit_give (hk : d.kind = 1) : s.submit op d =
    if (s.allowance d.cluster d.record).held && (s.allowance d.cluster d.record).a + d.n ≤ s.cap d.record then
      ((s.setAllowance d.cluster d.record { s.allowance d.cluster d.record with
        a := (s.allowance d.cluster d.record).a + d.n }).serveWaiters d.cluster d.record).decantDone op (decantResult d.n 0) 0
    else s.toHome d.cluster d.record op (.decantGiveMsg d.record d.cluster d.n op) := by
  rw [State.submit, hk]; rfl

theorem State.submit_take (hk : d.kind = 0) : s.submit op d =
    if (s.allowance d.cluster d.record).waiters.isEmpty && (s.allowance d.cluster d.record).held && d.n ≤ (s.allowance d.cluster d.record).a then
      (s.setAllowance d.cluster d.record { s.allowance d.cluster d.record with
        a := (s.allowance d.cluster d.record).a - d.n }).decantDone op (decantResult d.n 0) 0
    else (s.setAllowance d.cluster d.record { s.allowance d.cluster d.record with
      waiters := (s.allowance d.cluster d.record).waiters ++ [op] }).ask d.cluster d.record := by
  rw [State.submit, hk]; rfl

/-- Reads go to the home where no message of the counter is on its way. -/
theorem State.submit_read (hq : decantQuiet s d.cluster d.record) {kind : DecantRead}
    (hk : d.kind = 2 ∧ kind = .read ∨ d.kind = 3 ∧ kind = .exact ∨ d.kind = 4 ∧ kind = .drop) :
    s.submit op d = s.send (.decantReadAtHome d.record d.cluster kind op) := by
  rcases hk with ⟨hk, rfl⟩ | ⟨hk, rfl⟩ | ⟨hk, rfl⟩
  all_goals
    rw [State.submit, hk]
    exact State.toHome_of_quiet hq op _

/-- What a slice does with an operation leaves the operation what it is. -/
theorem State.submit_order (hd : tget? s.decants op = some d) : ∃ x, tget? (s.submit op d).decants op = some x ∧
    x.wave = d.wave ∧ x.kind = d.kind ∧ x.n = d.n ∧ x.cluster = d.cluster ∧ x.record = d.record := by
  obtain ⟨x, hx, horder⟩ := Option.map_eq_some_iff.1 ((((Sliced.refl s).submit op d).orders op).trans (congrArg _ hd))
  exact ⟨x, hx, (congrArg DecantOp.wave horder :), (congrArg DecantOp.kind horder :), (congrArg DecantOp.n horder :),
    (congrArg DecantOp.cluster horder :), (congrArg DecantOp.record horder :)⟩

section
variable {e : AllowEntry} (he : s.allowance d.cluster d.record = e)
include he

/-- A take within the allowance is done at once. -/
theorem State.submit_take_done (hk : d.kind = 0) (hd : tget? s.decants op = some d) (hh : e.held = true) (hw : e.waiters = []) (hn : d.n ≤ e.a) :
    ((s.submit op d).allowance d.cluster d.record).a = e.a - d.n ∧
      tget? (s.submit op d).decants op = some { d with done := true, lo := decantResult d.n 0, hi := 0 } := by
  subst he
  rw [State.submit_take hk, if_pos (by rw [hw, hh, decide_eq_true hn]; rfl)]
  exact ⟨State.a_setAllowance_held s d.cluster d.record (e := { s.allowance d.cluster d.record with
    a := (s.allowance d.cluster d.record).a - d.n }) hh, State.decants_decantDone (s := s.setAllowance _ _ _) hd _ _⟩

/-- A give that CAP has room for is done at once where no take waits. -/
theorem State.submit_give_done (hk : d.kind = 1) (hd : tget? s.decants op = some d) (hh : e.held = true) (hw : e.waiters = [])
    (hn : e.a + d.n ≤ s.cap d.record) : ((s.submit op d).allowance d.cluster d.record).a = e.a + d.n ∧
      tget? (s.submit op d).decants op = some { d with done := true, lo := decantResult d.n 0, hi := 0 } := by
  let f : AllowEntry := { e with a := e.a + d.n }
  let u := (s.setAllowance d.cluster d.record f).serveWaiters d.cluster d.record
  have hsubmit : s.submit op d = u.decantDone op (decantResult d.n 0) 0 := by
    rw [State.submit_give hk, he]
    exact if_pos (by rw [hh, decide_eq_true hn]; rfl)
  obtain ⟨k, hu⟩ := State.allowance_serveWaiters_held (s := s) (g := d.cluster) (r := d.record) (e := f) hh hw
  have hnone : ((s.setAllowance d.cluster d.record f).allowance d.cluster d.record).waiters = [] := (State.waiters_setAllowance s _ _ f).trans hw
  have hdecants : u.decants = s.decants := (congrArg State.decants (State.serveWaiters_of_nil hnone) :)
  rw [hsubmit]
  exact ⟨(congrArg AllowEntry.a hu :), State.decants_decantDone (s := u) (by rw [hdecants]; exact hd) _ _⟩

/-- Another take waits at its slice. -/
theorem State.submit_take_waits (hk : d.kind = 0) (h : e.held = false ∨ e.waiters ≠ [] ∨ e.a < d.n) :
    op ∈ ((s.submit op d).allowance d.cluster d.record).waiters := by
  have hnot : ¬ (e.waiters.isEmpty && e.held && decide (d.n ≤ e.a)) = true := by
    rw [Bool.and_eq_true, Bool.and_eq_true, List.isEmpty_iff, decide_eq_true_iff]
    rintro ⟨⟨hw, hh⟩, hn⟩
    rcases h with h | h | h
    · rw [h] at hh; cases hh
    · exact h hw
    · omega
  rw [State.submit_take hk, he, if_neg hnot, State.waiters_ask, State.waiters_setAllowance]
  exact List.mem_append_right _ (List.mem_singleton_self op)

/-- Another give goes to the home. -/
theorem State.submit_give_goes (hk : d.kind = 1) (h : e.held = false ∨ s.cap d.record < e.a + d.n)
    (hq : decantQuiet s d.cluster d.record) : .decantGiveMsg d.record d.cluster d.n op ∈ (s.submit op d).net := by
  have hnot : ¬ (e.held && decide (e.a + d.n ≤ s.cap d.record)) = true := by
    rw [Bool.and_eq_true, decide_eq_true_iff]
    rintro ⟨hh, hn⟩
    rcases h with h | h
    · rw [h] at hh; cases hh
    · omega
  rw [State.submit_give hk, he, if_neg hnot, State.toHome_of_quiet hq]
  exact State.mem_net_send _ _

end

end

end Sys2Proof.Machine

namespace Sys2Proof.Machine
open Sys2Proof.Claims

/-! DCTAKE, DCGIVE, DCREAD, DCREADX and DCDROP (R246 to R252). -/

/-- A scalar register and the mark of its error, without a result. -/
def State.putBound (s : State) (r : Nat) (v : Dword) : State :=
  s.modCur (fun w => { w with sregs := tset w.sregs r v, struck := mendS r w.struck })

theorem State.putBound_registers {s : State} (ha : s.waveAlive = true) (r : Nat) (v : Dword) :
    (s.putBound r v).curWave.vregs = s.curWave.vregs ∧ (s.putBound r v).curWave.preds = s.curWave.preds ∧
      ∀ k, (s.putBound r v).curWave.sreg k = if k = r then v else s.curWave.sreg k := by
  rw [State.putBound, State.curWave_modCur _ _ ha]
  exact ⟨rfl, rfl, fun k => tgetD_tset _ _ _ _ _⟩

/-- How a decant instruction writes the two words of its result (R248). -/
def decantPut (i : Instr) (lo hi : Dword) (s : State) : State :=
  match i with
  | .dctake d _ _ | .dcgive d _ _ | .dcreadx d _ | .dcdrop d _ => s.putS d lo
  | .dcread d _ => (s.putS (.reg ⟨2 * d.val, by omega⟩) lo).putBound (2 * d.val + 1) hi
  | _ => s

/-- A decant instruction that issues goes through the flow of its operation. -/
theorem exec_decantRow {i : Instr} {s : State} {va : Dword} {kind n : Nat} (h : decantRow s.begun i = some (va, kind, n)) (hi : s.issues i) :
    ∃ empty, exec i s = .next (s.begun.decantFlow va kind n empty (decantPut i)) := by
  unfold decantRow at h
  split at h <;> cases h
  case h_1 d a b => exact ⟨_, by rw [exec_dctake, execDctake, issueOp_issues _ _ _ hi]; rfl⟩
  case h_2 d a b => exact ⟨_, by rw [exec_dcgive, execDcgive, issueOp_issues _ _ _ hi]; rfl⟩
  case h_3 d a => exact ⟨_, by rw [exec_dcread, execDcread, issueOp_issues _ _ _ hi]; rfl⟩
  case h_4 d a => exact ⟨_, by rw [exec_dcreadx, execDcreadx, issueOp_issues _ _ _ hi]; rfl⟩
  case h_5 d a => exact ⟨_, by rw [exec_dcdrop, execDcdrop, issueOp_issues _ _ _ hi]; rfl⟩

/-- An operation that its wave does not wait for yet is issued. -/
theorem State.decantFlow_issues {s : State} (va : Dword) (kind n : Nat) (empty : State) (put : Dword → Dword → State → State)
    (hm : s.activeMask ≠ 0) (hw : ∀ op, s.curSplit.wait ≠ some (.decant op)) :
    s.decantFlow va kind n empty put = s.issueDecant va kind n := by
  rw [State.decantFlow, if_neg hm]
  split
  · rename_i op h; exact absurd h (hw op)
  · rfl

/-- The operation of a decant instruction that issues. -/
def State.newDecant (s : State) (va : Dword) (kind n r : Nat) : DecantOp :=
  { wave := s.issue.wave, kind := kind, n := n, cluster := clusterOf s.curWave.core, record := r, va := va, entered := s.clk }

/-- The state in which an operation is filed under the next number. -/
def State.filed (s : State) (d : DecantOp) : State := { s with decants := tset s.decants s.nextDecant d, nextDecant := s.nextDecant + 1 }

/-- An operation whose checks and waits are over is filed, and its slice takes it up. -/
theorem State.issueDecant_files {s : State} {va : Dword} {kind n r : Nat} (hn : n < 2 ^ 48) (hcheck : s.begun.decantCheck va false = .ok r)
    (hg : decantClear s.begun (decide (kind ≠ 2))) (hq : (s.core s.curWave.core).queued (lineOf r) = false) : ∃ (u : State) (cs : Tbl Core),
    Gated s.begun u ∧ s.begun.issueDecant va kind n =
      ((({ u.filed (u.newDecant va kind n r) with cores := cs } : State).submit s.nextDecant (u.newDecant va kind n r)).stall
        (.decant s.nextDecant)) := by
  obtain ⟨u, hu, hgate⟩ := State.decantGate_passes hg
  obtain ⟨cs, hcs⟩ := (u.filed (u.newDecant va kind n r)).cacheXlate_eq u.curWave.core u.curWave.ctx va
  have hnext : u.nextDecant = s.nextDecant := (congrArg State.nextDecant hu.rest :)
  have hin : decide (decantMax < n) = false := decide_eq_false (by rw [decantMax]; omega)
  have hqueue : ¬ (s.begun.core s.begun.curWave.core).queued (lineOf r) = true := by
    rw [s.begun_core]; exact fun h => Bool.false_ne_true (hq.symm.trans h)
  have hwrites : (kind != 2) = decide (kind ≠ 2) := by rw [Bool.eq_iff_iff, bne_iff_ne, decide_eq_true_iff]
  refine ⟨u, cs, hu, ?_⟩
  rw [← hcs, ← hnext, State.issueDecant, hin, hcheck]
  dsimp only
  rw [if_neg hqueue, hwrites, hgate]
  rfl

/-- A quiet counter stays so where messages, slices and homes stand as before. -/
theorem decantQuiet_congr {s u : State} (hnet : u.net = s.net) (hclusters : u.clusters = s.clusters) {g r : Nat} (h : decantQuiet s g r) :
    decantQuiet u g r := by
  obtain ⟨hmsg, hlater, hqueue⟩ := h
  refine ⟨by rw [hnet]; exact hmsg, ?_, fun c hc => hqueue c ?_⟩
  · rw [State.allowance, State.cluster, hclusters]; exact hlater
  · rw [State.counter, State.cluster, hclusters] at hc; exact hc

/-- What filing an operation does at its slice (R256, R257). -/
theorem decant_files {i : Instr} {s : State} {va : Dword} {kind n r : Nat} (h : decantRow s.begun i = some (va, kind, n)) (hi : s.issues i)
    (hm : s.activeMask ≠ 0) (hw : ∀ op, s.curSplit.wait ≠ some (.decant op)) (hn : n < 2 ^ 48) (hcheck : s.begun.decantCheck va false = .ok r)
    (hg : decantClear s.begun (decide (kind ≠ 2))) (hq : (s.core s.curWave.core).queued (lineOf r) = false) : ∃ (x : State) (d : DecantOp),
      exec i s = .next ((x.submit s.nextDecant d).stall (.decant s.nextDecant)) ∧ tget? x.decants s.nextDecant = some d ∧
      x.nextDecant = s.nextDecant + 1 ∧ x.mem = s.mem ∧ x.net = s.net ∧ x.clusters = s.clusters ∧
      d.wave = s.issue.wave ∧ d.kind = kind ∧ d.n = n ∧ d.cluster = clusterOf s.curWave.core ∧ d.record = r := by
  obtain ⟨empty, hexec⟩ := exec_decantRow h hi
  obtain ⟨u, cs, hu, hfiles⟩ := State.issueDecant_files hn hcheck hg hq
  have hnext : u.nextDecant = s.nextDecant := (congrArg State.nextDecant hu.rest :)
  have hcore : u.curWave.core = s.curWave.core := (congrArg (fun t : State => t.curWave.core) hu.rest :).trans s.begun_core
  refine ⟨{ u.filed (u.newDecant va kind n r) with cores := cs }, u.newDecant va kind n r, ?_, ?_, by rw [← hnext]; rfl,
    (congrArg State.mem hu.rest :), (congrArg State.net hu.rest :), (congrArg State.clusters hu.rest :), ?_, rfl, rfl, ?_, rfl⟩
  · rw [hexec, State.decantFlow_issues va kind n _ _ (by rwa [s.begun_activeMask]) (by rwa [s.begun_split]), hfiles]
  · rw [← hnext]; exact tget?_tset_same _ _ _
  · exact (congrArg (fun t : State => t.issue.wave) hu.rest :)
  · exact congrArg clusterOf hcore

/-! The end of an operation (R247, R248). -/

/-- The registers after a scalar result. -/
theorem State.putS_registers {s : State} (ha : s.waveAlive = true) (hm : s.activeMask ≠ 0) (d : SDst) (v : Dword) :
    (s.putS d v).curWave.vregs = s.curWave.vregs ∧ (s.putS d v).curWave.preds = s.curWave.preds ∧
      ∀ r, (s.putS d v).curWave.sreg r = if sdstReg d = some r then v else s.curWave.sreg r := by
  obtain ⟨rs, cs, ls, hw, hr⟩ := State.curWave_putS (s := s) d v ha
  refine ⟨by rw [hw]; rfl, by rw [hw]; rfl, fun r => ?_⟩
  rw [hw, show (Wave.written _ _ _ _ _).sreg r = _ from hr r]
  simp only [hm, ne_eq, not_false_eq_true, true_and]

/-- The result of a decant instruction goes to its destination alone. -/
theorem decantPut_writes {i : Instr} {x s : State} {row : Dword × Nat × Nat} (h : decantRow x i = some row) (ha : s.waveAlive = true)
    (hm : s.activeMask ≠ 0) (lo hi : Dword) : s.onlyCur (decantPut i lo hi s) ∧
      (decantPut i lo hi s).curWave.vregs = s.curWave.vregs ∧ (decantPut i lo hi s).curWave.preds = s.curWave.preds ∧
      ∀ r, (decantPut i lo hi s).curWave.sreg r = match decantDst i r with
        | some false => lo
        | some true => hi
        | none => s.curWave.sreg r := by
  have hsingle (d : SDst) : s.onlyCur (s.putS d lo) ∧ (s.putS d lo).curWave.vregs = s.curWave.vregs ∧
      (s.putS d lo).curWave.preds = s.curWave.preds ∧
      ∀ r, (s.putS d lo).curWave.sreg r = match (if sdstReg d = some r then some false else none : Option Bool) with
        | some false => lo
        | some true => hi
        | none => s.curWave.sreg r := by
    obtain ⟨hv, hp, hr⟩ := State.putS_registers ha hm d lo
    refine ⟨State.onlyCur_putS s.onlyCur_refl d lo, hv, hp, fun r => (hr r).trans ?_⟩
    split <;> rfl
  unfold decantRow at h
  split at h <;> cases h
  case h_1 d a b => exact hsingle d
  case h_2 d a b => exact hsingle d
  case h_4 d a => exact hsingle d
  case h_5 d a => exact hsingle d
  case h_3 d a =>
    obtain ⟨hv, hp, hr⟩ := State.putS_registers ha hm (.reg ⟨2 * d.val, by omega⟩) lo
    obtain ⟨hv', hp', hr'⟩ := State.putBound_registers (s := s.putS (.reg ⟨2 * d.val, by omega⟩) lo) (by rw [State.putS_alive]; exact ha)
      (2 * d.val + 1) hi
    refine ⟨State.onlyCur_modCur _ _ _ (State.onlyCur_putS s.onlyCur_refl _ lo), hv'.trans hv, hp'.trans hp, fun r => ?_⟩
    refine (hr' r).trans ?_
    rw [hr]
    simp only [sdstReg, decantDst, Option.some.injEq]
    by_cases h1 : r = 2 * d.val + 1
    · rw [if_pos h1, if_neg (by omega), if_pos h1]
    · rw [if_neg h1]
      by_cases h2 : r = 2 * d.val
      · rw [if_pos h2.symm, if_pos h2]
      · rw [if_neg (Ne.symm h2), if_neg h2, if_neg h1]

/-- A decant instruction at its own operation: it waits until the operation is done, and then ends with its result or its trap. -/
theorem State.decantFlow_ends {s : State} (va : Dword) (kind n : Nat) (empty : State) (put : Dword → Dword → State → State) {op : Nat}
    {x : DecantOp} (hm : s.activeMask ≠ 0) (hw : s.curSplit.wait = some (.decant op)) (hx : tget? s.decants op = some x) :
    (x.done = false → s.decantFlow va kind n empty put = s) ∧
    (x.done = true → x.trap = none →
      s.decantFlow va kind n empty put = (put x.lo x.hi { s with decants := tdel s.decants op }).finish) ∧
    ∀ c dt, x.done = true → x.trap = some (c, dt) → s.decantFlow va kind n empty put =
      ({ s with decants := tdel s.decants op } : State).trapHere (s.info c dt x.va) := by
  simp only [State.decantFlow, if_neg hm, hw, hx]
  refine ⟨fun hd => ?_, fun hd ht => ?_, fun c dt hd ht => ?_⟩
  · simp only [hd, Bool.not_false, if_true]
  · simp only [hd, ht, Bool.not_true, Bool.false_eq_true, if_false]
  · simp only [hd, ht, Bool.not_true, Bool.false_eq_true, if_false]
    rfl

/-- Settles O39: the gate passes where nothing is waited for, a filed operation is taken up by its slice, and a done one writes its result. -/
theorem decantInstructions : Obligations.DecantInstructions := by
  refine ⟨?_, ?_, ?_⟩
  · intro d a b s r hi hm hg hv hcap hcheck hr hc hst hlen hbusy hdev
    obtain ⟨u, hu, hexec⟩ := exec_dcinit_declares hi hm hg hv hcap hcheck hc hst hlen hbusy
    obtain ⟨hmem, hcounter, hwaves, hwave⟩ := hu.declared_writes hr hc hdev (s.readS64 a) (s.readS64 b).toNat (s.curWave.sreg d.val).toNat
    refine ⟨_, hexec, fun k hk => ?_, fun k hk => ?_, hcounter, by rw [hwave], by rw [hwave], fun k hk => ?_⟩
    · rw [hmem, memByte_memPut_inside _ _ _ _ (by rw [freshRecord_length]; exact hk)]
    · rw [hmem, memByte_memPut_outside _ _ _ _ (by rw [freshRecord_length]; exact hk)]
    · rw [hwaves]; exact s.onlyCur_begun.2 k hk
  · intro i s va kind n r h hi hm hw hn hcheck hg hq g op e
    obtain ⟨x, d, hexec, hd, hnext, hmem, hnet, hclusters, hwave, hkind, rfl, hslice, hrecord⟩ := decant_files h hi hm hw hn hcheck hg hq
    have hsliced := (Sliced.refl x).submit op d
    have he : x.allowance d.cluster d.record = e := by rw [hslice, hrecord, State.allowance, State.cluster, hclusters]; rfl
    have hcap : x.cap d.record = s.cap r := by rw [hrecord, State.cap, hmem]; rfl
    have hquiet (hs : decantQuiet s g r) : decantQuiet x d.cluster d.record := by
      rw [hslice, hrecord]; exact decantQuiet_congr hnet hclusters hs
    obtain ⟨y, hy, hyw, hyk, hyn, hyg, hyr⟩ := State.submit_order hd
    have hread (hs : decantQuiet s g r) {rk : DecantRead} (hk : d.kind = 2 ∧ rk = .read ∨ d.kind = 3 ∧ rk = .exact ∨ d.kind = 4 ∧ rk = .drop) :
        .decantReadAtHome d.record d.cluster rk op ∈ (x.submit op d).net := by
      rw [State.submit_read (hquiet hs) hk]; exact State.mem_net_send _ _
    refine ⟨x.submit op d, hexec, hsliced.nextDecant.trans hnext, hsliced.mem.trans hmem,
      ⟨y, hy, hyw.trans hwave, hyk.trans hkind, hyn, hyg.trans hslice, hyr.trans hrecord⟩,
      fun hk hh hw' hn' => ?_, fun hk hh hw' hn' => ?_, fun hk hor => ?_, fun hs => ?_⟩
    all_goals subst hkind hrecord
    · obtain ⟨ha, hdone⟩ := State.submit_take_done he hk hd hh hw' hn'
      rw [hslice] at ha
      exact ⟨ha, _, hdone, rfl, rfl⟩
    · obtain ⟨ha, hdone⟩ := State.submit_give_done he hk hd hh hw' (hcap ▸ hn')
      rw [hslice] at ha
      exact ⟨ha, _, hdone, rfl, rfl⟩
    · have hwaits := State.submit_take_waits (op := op) he hk hor
      rwa [hslice] at hwaits
    · rw [hslice] at hread
      refine ⟨fun hk hor => ?_, fun hk => hread hs (.inl ⟨hk, rfl⟩), fun hk => hread hs (.inr (.inl ⟨hk, rfl⟩)),
        fun hk => hread hs (.inr (.inr ⟨hk, rfl⟩))⟩
      have hgoes := State.submit_give_goes (op := op) he hk (hcap ▸ hor) (hquiet hs)
      rwa [hslice] at hgoes
  · intro i s va kind n op x h hi hm hw hx
    obtain ⟨empty, hexec⟩ := exec_decantRow h hi
    obtain ⟨hwaits, hends, htraps⟩ := State.decantFlow_ends (s := s.begun) va kind n empty (decantPut i) (by rwa [s.begun_activeMask])
      (by rwa [s.begun_split]) hx
    refine ⟨fun hd => by rw [hexec, hwaits hd], fun hd ht => ?_, fun c dt hd ht => by rw [hexec, htraps c dt hd ht]; rfl⟩
    let y : State := { s.begun with decants := tdel s.decants op }
    obtain ⟨⟨hrest, hothers⟩, hv, hp, hr⟩ := decantPut_writes h (s := y) (s.begun_alive.trans hi.1) (by
      show s.begun.activeMask ≠ 0
      rwa [s.begun_activeMask]) x.lo x.hi
    have hcur : y.curWave = { s.curWave with resumed := false } := s.begun_curWave
    refine ⟨decantPut i x.lo x.hi y, by rw [hexec, hends hd ht]; rfl,
      (congrArg (fun t : State => { t with waves := s.waves, decants := s.decants }) hrest :),
      (congrArg State.decants hrest :), fun k hk => (hothers k hk).trans (s.onlyCur_begun.2 k hk), hv.trans (by rw [hcur]),
      hp.trans (by rw [hcur]), fun r => (hr r).trans (by rw [hcur]; rfl)⟩

end Sys2Proof.Machine

namespace Sys2Proof.Machine
open Sys2Proof.Claims

/-! What coherence messages leave alone: the frames in which lines, copies and messages move. -/

/-- The memory system alone has changed. -/
theorem transportFrame_of_sameArch {s t : State} (h : s.sameArch t) : transportFrame s t :=
  (congrArg (fun x : State => ({ x with fabric := { x.fabric with dataFrom := s.fabric.dataFrom } } : State)) h.rest :)

theorem transportFrame_arrived (s : State) (i : Instr) : transportFrame s (arrived s i) := rfl

/-- What the memory system changes after a transport is part of it. -/
theorem transportFrame.sameArch {s u t : State} (hu : transportFrame s u) (h : u.sameArch t) : transportFrame s t := by
  have hr := congrArg (fun x : State => ({ x with
    cores := s.cores, clusters := s.clusters, stackTbl := s.stackTbl, homes := s.homes, net := s.net, waiting := s.waiting,
    fabric := { x.fabric with dataFrom := s.fabric.dataFrom } } : State)) h.rest
  exact Eq.trans hr hu

/-- The messages in flight have changed at most, and none of them has gone. -/
structure State.Posted (s u : State) : Prop where
  rest : ({ u with net := s.net } : State) = s
  net : s.net ⊆ u.net

section
variable {s u v : State}

theorem State.Posted.refl (s : State) : s.Posted s := ⟨rfl, List.Subset.refl _⟩
theorem State.Posted.cores (h : s.Posted u) : u.cores = s.cores := (congrArg State.cores h.rest :)
theorem State.Posted.clusters (h : s.Posted u) : u.clusters = s.clusters := (congrArg State.clusters h.rest :)
theorem State.Posted.homes (h : s.Posted u) : u.homes = s.homes := (congrArg State.homes h.rest :)
theorem State.Posted.waiting (h : s.Posted u) : u.waiting = s.waiting := (congrArg State.waiting h.rest :)
theorem State.Posted.core (h : s.Posted u) (k : Nat) : u.core k = s.core k := by rw [State.core, h.cores]; rfl
theorem State.Posted.partAt (h : s.Posted u) (y k : Nat) : u.partAt y k = s.partAt y k :=
  (congrArg (fun x : State => x.partAt y k) h.rest :)

theorem State.Posted.sameArch (h : s.Posted u) : s.sameArch u where
  rest := (congrArg (fun x : State => ({ x with
    cores := s.cores, clusters := s.clusters, stackTbl := s.stackTbl, homes := s.homes, waiting := s.waiting } : State)) h.rest :)
  counters g := by rw [State.cluster, h.clusters]; rfl

theorem State.Posted.send (h : s.Posted u) (i : Instr) : s.Posted (u.send i) :=
  ⟨h.rest, fun _ hj => List.mem_append_left _ (h.net hj)⟩
theorem State.Posted.sendOnce (h : s.Posted u) (i : Instr) : s.Posted (u.sendOnce i) := by
  rw [State.sendOnce]; split
  · exact h
  · exact h.send i
theorem State.Posted.askFpub (h : s.Posted u) (core epoch level requester : Nat) : s.Posted (u.askFpub core epoch level requester) := by
  rw [State.askFpub]; split
  · exact h
  · exact h.sendOnce _
theorem State.Posted.foldl {α : Type} {f : State → α → State} (hf : ∀ v a, s.Posted v → s.Posted (f v a)) (h : s.Posted u) (l : List α) :
    s.Posted (l.foldl f u) :=
  List.foldlRecOn (motive := fun v : State => s.Posted v) _ _ h (fun v hv a _ => hf v a hv)
theorem State.Posted.sendInvs (h : s.Posted u) (line core : Nat) (gs : List Nat) : s.Posted (u.sendInvs line core gs) :=
  h.foldl (fun _ _ hv => hv.sendOnce _) gs
theorem State.Posted.invalidateOlder (h : s.Posted u) (y line : Nat) : s.Posted (u.invalidateOlder y line) := h.sendInvs _ _ _
theorem State.Posted.settle (h : s.Posted u) (line : Nat) : s.Posted (u.settle line) := by
  refine h.foldl (fun v p hv => hv.foldl (fun x o hx => ?_) _) _
  dsimp only
  split
  · split
    · exact hx.sendOnce _
    · exact hx
  · exact hx
theorem State.Posted.pressOut (h : s.Posted u) (core level : Nat) (o : Nat × OutWrite) : s.Posted (u.pressOut core level o) := by
  unfold State.pressOut
  extract_lets l s1
  have hs1 : s.Posted s1 := by
    unfold s1; split
    · exact h.sendOnce _
    · exact h
  split
  · exact hs1
  split
  · exact hs1.sendInvs _ _ _
  split
  · exact hs1
  · exact hs1.foldl (fun _ _ hv => hv.sendOnce _) _
theorem State.Posted.press (h : s.Posted u) (core mark level : Nat) : s.Posted (u.press core mark level) := by
  refine h.foldl (fun v o hv => ?_) _
  split
  · exact hv.pressOut _ _ _
  · exact hv
theorem State.Posted.repress (h : s.Posted u) (core : Nat) : s.Posted (u.repress core) := by
  refine h.foldl (fun v w hv => hv.foldl (fun x sp hx => ?_) _) _
  split
  · split
    · exact hx.press _ _ _
    · exact hx
  · exact hx
end

/-- Slice copies, release tags and the messages in flight have changed at most: cores, home entries and waves stand as before. -/
structure State.Shelved (s u : State) : Prop where
  rest : ({ u with clusters := s.clusters, stackTbl := s.stackTbl, net := s.net } : State) = s

section
variable {s u : State}

theorem State.Shelved.refl (s : State) : s.Shelved s := ⟨rfl⟩
theorem State.Shelved.posted {v : State} (h : s.Shelved u) (hv : u.Posted v) : s.Shelved v :=
  ⟨Eq.trans (congrArg (fun x : State => ({ x with clusters := s.clusters, stackTbl := s.stackTbl, net := s.net } : State)) hv.rest :) h.rest⟩
theorem State.Shelved.cores (h : s.Shelved u) : u.cores = s.cores := (congrArg State.cores h.rest :)
theorem State.Shelved.homes (h : s.Shelved u) : u.homes = s.homes := (congrArg State.homes h.rest :)
theorem State.Shelved.waves (h : s.Shelved u) : u.waves = s.waves := (congrArg State.waves h.rest :)
theorem State.Shelved.core (h : s.Shelved u) (k : Nat) : u.core k = s.core k := by rw [State.core, h.cores]; rfl

theorem State.Shelved.setCopy (h : s.Shelved u) (y line : Nat) (c : Option SliceLine) : s.Shelved (u.setCopy y line c) := ⟨h.rest⟩
theorem State.Shelved.modCluster (h : s.Shelved u) (g : Nat) (f : Cluster → Cluster) : s.Shelved (u.modCluster g f) := ⟨h.rest⟩
theorem State.Shelved.foldl {α : Type} {f : State → α → State} (hf : ∀ v a, s.Shelved v → s.Shelved (f v a)) (h : s.Shelved u)
    (l : List α) : s.Shelved (l.foldl f u) :=
  List.foldlRecOn (motive := fun v : State => s.Shelved v) _ _ h (fun v hv a _ => hf v a hv)
theorem State.Shelved.dropPart (h : s.Shelved u) (y k : Nat) : s.Shelved (u.dropPart y k) := by
  refine h.foldl (fun v l hv => ?_) _
  split
  · exact hv.setCopy _ _ _
  · exact hv
theorem State.Shelved.turnPart (h : s.Shelved u) (y k : Nat) (f : CopyState → CopyState) : s.Shelved (u.turnPart y k f) := by
  refine h.foldl (fun v l hv => ?_) _
  split
  · split
    · exact hv.setCopy _ _ _
    · exact hv
  · exact hv
theorem State.Shelved.writeBack (h : s.Shelved u) (y k : Nat) : s.Shelved (u.writeBack y k) := by
  refine h.posted ?_
  have hasked : u.Posted ((u.unitLines k).foldl (fun u l => (u.tagsOf l).foldl (fun u t => u.askFpub t.core t.epoch 6 t.core) u) u) :=
    (State.Posted.refl u).foldl (fun _ _ hv => hv.foldl (fun _ _ hx => hx.askFpub _ _ _ _) _) _
  unfold State.writeBack; extract_lets; split
  · exact hasked.sendOnce _
  · exact hasked
theorem State.Shelved.evict (h : s.Shelved u) (y line : Nat) : s.Shelved (u.evict y line) := by
  rw [State.evict]; split
  · refine State.Shelved.setCopy (h.foldl (fun v p hv => State.Shelved.dropPart ?_ _ _) _) _ _ _
    split
    · exact hv.writeBack _ _
    · exact hv
  · exact h
theorem State.Shelved.placeCopy (h : s.Shelved u) (g line : Nat) (c : SliceLine) (cls : Nat) : s.Shelved (u.placeCopy g line c cls) := by
  unfold State.placeCopy
  extract_lets ways ls cls'
  split
  · exact h
  split
  extract_lets aged s1 hashed s2
  have haged : s.Shelved aged := h.foldl (fun _ _ hv => hv.setCopy _ _ _) _
  have hs1 : s.Shelved s1 := by
    unfold s1; split
    · exact haged.evict _ _
    · exact haged
  refine State.Shelved.setCopy ?_ _ _ _
  unfold s2; split
  · exact hs1
  split
  · exact hs1.evict _ _
  · exact hs1
theorem State.Shelved.moveTags (h : s.Shelved u) (line a b : Nat) : s.Shelved (u.moveTags line a b) := by
  unfold State.moveTags; extract_lets; split
  · exact h
  split
  · exact h
  · exact (h.modCluster _ _).modCluster _ _
theorem State.Shelved.gatherTags (h : s.Shelved u) (line g : Nat) : s.Shelved (u.gatherTags line g) := h.foldl (fun _ _ hv => hv.moveTags _ _ _) _
theorem State.Shelved.touchCopy (h : s.Shelved u) (core line : Nat) (counts : Bool) : s.Shelved (u.touchCopy core line counts) := by
  unfold State.touchCopy
  extract_lets g
  split
  · exact h
  extract_lets c1 c
  split
  · split
    · exact (h.setCopy _ _ _).posted ((State.Posted.refl _).askFpub _ _ _ _)
    · exact ((h.setCopy _ _ _).placeCopy _ _ _ _).moveTags _ _ _
  · exact h.setCopy _ _ _
theorem State.Shelved.install (h : s.Shelved u) (g k : Nat) (st : CopyState) (fresh : Option Nat) : s.Shelved (u.install g k st fresh) := by
  refine h.foldl (fun v l hv => ?_) _
  dsimp only
  split
  · exact hv.setCopy _ _ _
  · exact hv.placeCopy _ _ _ _
theorem State.Shelved.dirtyCopy (h : s.Shelved u) (core line k : Nat) : s.Shelved (u.dirtyCopy core line k) := by
  unfold State.dirtyCopy
  extract_lets x e st
  split
  · split
    · exact (h.setCopy _ _ _).touchCopy _ _ _
    · exact h.placeCopy _ _ _ _
  · rename_i s1 _
    refine State.Shelved.dropPart ?_ _ _
    unfold s1; split
    · exact h.setCopy _ _ _
    · exact h
end

/-! Messages under way. -/

theorem underWay_sendOnce (s : State) (i : Instr) : underWay (s.sendOnce i) i := by
  rw [State.sendOnce]
  split
  · rename_i h
    simpa only [underWay, Bool.or_eq_true, List.contains_iff_mem] using h
  · exact .inl (s.mem_net_send i)
theorem underWay.posted {s u : State} {i : Instr} (hi : underWay s i) (h : s.Posted u) : underWay u i :=
  hi.imp (fun hn => h.net hn) (fun hw => h.waiting ▸ hw)

/-! Folds and tables. -/

/-- Each step of a fold makes a thing hold of its own element and keeps it of every other. -/
theorem foldl_each {α β : Type} {Q : β → α → Prop} {f : β → α → β} (hmakes : ∀ u a, Q (f u a) a)
    (hkeeps : ∀ u a b, Q u b → Q (f u a) b) (l : List α) (u : β) : ∀ a ∈ l, Q (l.foldl f u) a := by
  induction l generalizing u with
  | nil => exact fun _ ha => absurd ha List.not_mem_nil
  | cons b l ih =>
    intro a ha
    rcases List.mem_cons.1 ha with rfl | ha
    · exact List.foldlRecOn (motive := fun v : β => Q v a) l f (hmakes u a) (fun v hv b _ => hkeeps v b a hv)
    · exact ih _ a ha

/-- What a table gives stands in it. -/
theorem tget?_mem {α : Type} {t : Tbl α} {k : Nat} {v : α} (h : tget? t k = some v) : (k, v) ∈ t := by
  induction t with
  | nil => cases h
  | cons q t ih =>
    obtain ⟨n, x⟩ := q
    rw [tget?] at h
    split at h
    · rename_i hn
      cases h; subst hn; exact List.mem_cons_self
    · exact List.mem_cons_of_mem _ (ih h)

/-! How a message arrives. -/

theorem State.arrive_next {s : State} {i : Instr} (h : s.next? i = true) (f : State → State) : s.arrive i f = .next (f (arrived s i)) := by
  rw [State.arrive, if_pos h]; rfl
theorem State.arriveOrWait_next {s : State} {i : Instr} (h : s.next? i = true) (f : State → State) :
    ∃ N W, s.arriveOrWait i f = .next (f { s with net := N, waiting := W }) := by
  rw [State.arriveOrWait]
  split
  · exact ⟨_, _, rfl⟩
  · exact ⟨_, _, State.arrive_next h f⟩

theorem State.arriveOrWait_holds {s : State} {i : Instr} {f : State → State} {P : State → Prop} (h : s.next? i = true)
    (hP : ∀ N W, P (f { s with net := N, waiting := W })) : ∃ t, s.arriveOrWait i f = .next t ∧ P t := by
  obtain ⟨N, W, he⟩ := State.arriveOrWait_next h f
  exact ⟨_, he, hP N W⟩

/-- A message that reaches a free entry is served there. -/
theorem State.atEntry_reaches {s : State} {k : Nat} {i : Instr} {free : State → Bool} {f : State → State} (h : reaches s k i)
    (hfree : free s = true) (harrived : free (arrived s i) = true) :
    ∃ N W, s.atEntry k i free f = .next (f { s with net := N, waiting := W }) := by
  rcases h with h | ⟨h, hn⟩
  · rw [State.atEntry, h]
    simp only [hfree, if_true]
    exact ⟨_, _, rfl⟩
  · rw [State.atEntry, h]
    simp only [State.arrive_next hn, harrived, if_true]
    exact ⟨_, _, rfl⟩

/-- The messages at hand may differ and nothing else. -/
theorem State.sameArch_messages (s : State) (N W : List Instr) : s.sameArch { s with net := N, waiting := W } := ⟨rfl, fun _ => rfl⟩

theorem State.goingHome_arrived {s : State} {i : Instr} (k : Nat) (hi : ∀ y, i ≠ .wb k y) : (arrived s i).goingHome k = s.goingHome k := by
  have hmem (y : Nat) : (.wb k y ∈ s.net.erase i) ↔ .wb k y ∈ s.net := List.mem_erase_of_ne (hi y).symm
  have hc (y : Nat) : (s.net.erase i ++ s.waiting).contains (.wb k y) = (s.net ++ s.waiting).contains (.wb k y) := by
    rw [Bool.eq_iff_iff]
    simp only [List.contains_iff_mem, List.mem_append, hmem]
  exact congrArg (fun b => (s.homeEntry k).owned && b) (hc _)

/-! Answers to forced publishes (R327). -/

/-- The answer to a forced publish that a core has been asked for is under way. -/
def FpubReq.answered (u : State) (core : Nat) (f : FpubReq) : Prop := underWay u (.fack core f.epoch f.level f.requester)

/-- Of the cores and clusters, forced publishes that cores have been asked for have changed at most: each is kept, or its answer is under
way. -/
structure State.Replied (s u : State) : Prop where
  core : ∀ k, ({ u.core k with fpubs := (s.core k).fpubs } : Core) = s.core k
  clusters : u.clusters = s.clusters
  kept : ∀ k, ∀ f ∈ (s.core k).fpubs, f ∈ (u.core k).fpubs ∨ f.answered u k

section
variable {s u v : State}

theorem State.Replied.refl (s : State) : s.Replied s :=
  ⟨fun _ => rfl, rfl, fun _ _ h => .inl h⟩
theorem State.Replied.outs (h : s.Replied u) (k : Nat) : (u.core k).outs = (s.core k).outs := (congrArg Core.outs (h.core k) :)
theorem State.Replied.deps (h : s.Replied u) (k : Nat) : (u.core k).deps = (s.core k).deps := (congrArg Core.deps (h.core k) :)

theorem State.Replied.posted (h : s.Replied u) (hv : u.Posted v) : s.Replied v where
  core k := by rw [hv.core]; exact h.core k
  clusters := hv.clusters.trans h.clusters
  kept k f hf := by
    rw [hv.core]
    exact (h.kept k f hf).imp id (fun hu => underWay.posted hu hv)

/-- A core answers one of the requests. -/
theorem State.Replied.answer (h : s.Replied u) (core : Nat) (f : FpubReq) :
    s.Replied ((u.modCore core (fun c => { c with fpubs := c.fpubs.erase f })).sendOnce (.fack core f.epoch f.level f.requester)) := by
  let x := u.modCore core (fun c => { c with fpubs := c.fpubs.erase f })
  have hx (k : Nat) : x.core k = if k = core then { u.core core with fpubs := (u.core core).fpubs.erase f } else u.core k :=
    State.core_modCore _ _ _ _
  have hp : x.Posted (x.sendOnce (.fack core f.epoch f.level f.requester)) := (State.Posted.refl x).sendOnce _
  refine ⟨fun k => ?_, hp.clusters.trans h.clusters, fun k g hg => ?_⟩
  · rw [hp.core, hx, ← h.core k]
    split
    · subst k; rfl
    · rfl
  · rw [hp.core, hx]
    rcases h.kept k g hg with hu | hu
    · by_cases hk : k = core
      · subst hk
        by_cases hgf : g = f
        · subst hgf; exact .inr (underWay_sendOnce _ _)
        · rw [if_pos rfl]
          exact .inl ((List.mem_erase_of_ne hgf).2 hu)
      · rw [if_neg hk]; exact .inl hu
    · exact .inr (underWay.posted (s := x) hu hp)
end

theorem State.replied_retryFpubs (s : State) (core : Nat) : s.Replied (s.retryFpubs core) := by
  refine List.foldlRecOn (motive := fun u : State => s.Replied u) _ _ (State.Replied.refl s) (fun u hu f _ => ?_)
  extract_lets c deps done
  split
  · exact hu.answer core f
  · exact hu.posted (((State.Posted.refl u).foldl (fun _ _ hv => hv.askFpub _ _ _ _) _).press _ _ _)

end Sys2Proof.Machine

namespace Sys2Proof.Machine
open Sys2Proof.Claims

/-! What a served read returns (R313, R244). -/

/-- A read that nothing holds back, wider than the core, finds no store of the core to the line in its queue. -/
theorem State.readBlock_unqueued {s : State} {core ctx line : Nat} {ks : List Nat} {cls : AccessClass}
    (h : s.readBlock core ctx line ks cls = none) (hl : 2 ≤ cls.level) : (s.core core).queued line = false := by
  unfold State.readBlock at h
  extract_lets tags at h
  split at h
  · cases h
  split at h
  · cases h
  split at h
  · cases h
  split at h
  · cases h
  split at h
  · cases h
  · rename_i hn
    simp only [hl, decide_true, Bool.true_and, Bool.or_eq_true, not_or, Bool.not_eq_true] at hn
    exact hn.1

theorem State.sliceRead_yes {s u : State} {core ctx line : Nat} {ks : List Nat} {v : LineView}
    (h : s.sliceRead core ctx line ks = .yes v u) : ∃ t0, s.stackView core ctx line ks = some (v, t0) := by
  unfold State.sliceRead at h
  split at h
  · rename_i hv
    rw [← (Served.yes.inj h).1]
    exact ⟨_, hv⟩
  · cases h

theorem State.ownerRead_yes {s u : State} {core ctx line level : Nat} {ks : List Nat} {v : LineView}
    (h : s.ownerRead core ctx line ks level = .yes v u) : v = s.ownerView line := by
  unfold State.ownerRead at h
  extract_lets y stale at h
  split at h
  · cases h
  split at h
  · cases h
  · exact (Served.yes.inj h).1.symm

/-- Settles O24, along the branches of a read that nothing holds back. -/
theorem readServesView : Obligations.ReadServesView := by
  intro s core ctx line ks cls v u h
  refine ⟨(of_yes_same (State.readLine_same s core ctx line ks cls (State.sameArch_refl s)) h).rest, ?_⟩
  unfold State.readLine at h
  split at h
  · cases h
  rename_i hb
  refine ⟨State.readBlock_unqueued hb, fun hr => ?_, fun hr => ?_⟩
  · rw [if_pos hr] at h
    cases h; rfl
  rw [if_neg (by simp [hr])] at h
  split at h
  · rename_i hl
    refine ⟨fun _ w hw => ?_, fun _ hw => ?_, fun _ => by omega, fun _ => by omega⟩
    · rw [hw] at h
      cases h; rfl
    · rw [hw] at h
      exact State.sliceRead_yes h
  split at h
  · exact ⟨fun _ => by omega, fun _ => by omega, fun _ _ => State.sliceRead_yes h, fun _ => by omega⟩
  · exact ⟨fun _ => by omega, fun _ => by omega, fun _ _ => by omega, fun _ => State.ownerRead_yes h⟩

end Sys2Proof.Machine

namespace Sys2Proof.Machine
open Sys2Proof.Claims

/-! L1 copies (R311, R318). -/

theorem State.l1_dropL1 (s : State) (line core k : Nat) {m : Nat} :
    tget? ((s.dropL1 line core).core k).l1 m = if k = core ∧ m = line then none else tget? (s.core k).l1 m := by
  rw [State.dropL1]
  split
  · rw [State.core_modCore]
    by_cases hk : k = core
    · subst k; simp only [if_true, tget?_tdel, true_and]
    · simp only [hk, false_and, if_false]
  · rename_i h
    split
    · rename_i hk
      rw [hk.1, hk.2]
      exact Option.not_isSome_iff_eq_none.1 h
    · rfl
theorem State.dropL1_homes (s : State) (line core : Nat) : (s.dropL1 line core).homes = s.homes := by
  rw [State.dropL1]; split <;> rfl

/-- The directories name every core of the stack that holds the line. -/
theorem State.mem_l1Holders {s : State} {stack line k : Nat} (hk : k / 256 = stack) (h : (tget? (s.core k).l1 line).isSome = true) :
    k ∈ s.l1Holders stack line := by
  cases hc : tget? s.cores k with
  | none => rw [State.core, tgetD, hc] at h; cases h
  | some c =>
    rw [State.core, tgetD, hc] at h
    refine List.mem_map.2 ⟨(k, c), List.mem_filter.2 ⟨tget?_mem hc, ?_⟩, rfl⟩
    simpa [hk] using h

/-- Cores that drop a line have no copy of it. -/
theorem State.l1_dropEach (s : State) (line : Nat) (ks : List Nat) :
    ∀ k ∈ ks, tget? ((ks.foldl (fun (u : State) k => u.dropL1 line k) s).core k).l1 line = none :=
  foldl_each (Q := fun u k => tget? (u.core k).l1 line = none) (fun u k => by rw [State.l1_dropL1, if_pos ⟨rfl, rfl⟩])
    (fun u a b hb => by rw [State.l1_dropL1, hb, ite_self]) ks s

/-- Dropping copies of a line makes none. -/
theorem State.l1_dropEach_none {s : State} {line m k : Nat} (ks : List Nat) (h : tget? (s.core k).l1 m = none) :
    tget? ((ks.foldl (fun (u : State) j => u.dropL1 line j) s).core k).l1 m = none :=
  List.foldlRecOn (motive := fun u : State => tget? (u.core k).l1 m = none) _ _ h (fun u hu j _ => by rw [State.l1_dropL1, hu, ite_self])

/-- A core that drops a line if it holds it has no copy of it. -/
theorem State.l1_dropHolders {s : State} {line k : Nat} {ks : List Nat} (h : (tget? (s.core k).l1 line).isSome = true → k ∈ ks) :
    tget? ((ks.foldl (fun (u : State) j => u.dropL1 line j) s).core k).l1 line = none := by
  cases hl : tget? (s.core k).l1 line with
  | none => exact State.l1_dropEach_none _ hl
  | some l => exact s.l1_dropEach line _ k (h (by rw [hl]; rfl))

/-! Writes at the owner (R314 to R318). -/

theorem State.cores_markUnpub (s : State) (k : Nat) : (s.markUnpub k).cores = s.cores := by
  unfold State.markUnpub State.setHome
  extract_lets e
  split
  · split <;> rfl
  · rfl

theorem State.cores_recordTag (s : State) (core line : Nat) (ks : List Nat) (epoch : Nat) : (s.recordTag core line ks epoch).cores = s.cores := by
  unfold State.recordTag
  extract_lets rl own tag
  split <;> rfl

theorem State.sameQueues_of_cores {s u v : State} (h : s.sameQueues u) (hc : v.cores = u.cores) : s.sameQueues v := fun k => by
  simp only [State.core, hc]
  exact h k
theorem State.sameQueues_invalidateOthers {s u : State} (h : s.sameQueues u) (core pa n : Nat) (ks : List Nat) :
    s.sameQueues (u.invalidateOthers core pa n ks) := by
  intro k
  simp only [State.invalidateOthers]
  rw [((State.Posted.refl _).sendInvs _ _ _).core]
  refine State.sameQueues_modCore h core ?_ k
  exact fun _ => rfl

/-- What follows a write at the owner enters nothing in a write queue and takes nothing from one. -/
theorem State.sameQueues_perform {s : State} {pa : Nat} {bs : List Byte} (core id epoch : Nat)
    (hd : ∀ k, k < bs.length → s.deviceByte (pa + k) = false)
    (hc : tget? (s.cluster (homeSlice (lineOf pa))).counters (lineOf pa) = none) : s.sameQueues (s.perform core pa bs id epoch) := by
  obtain ⟨P, N, W, -, hw⟩ := State.writeOwned_eq hd hc
  have hcopies : ((s.unitsAt pa bs.length).foldl (fun (u : State) k => (u.dirtyCopy core (lineOf pa) k).markUnpub k)
      (s.writeOwned pa bs)).cores = s.cores := by
    refine List.foldlRecOn (motive := fun u : State => u.cores = s.cores) _ _ (congrArg State.cores hw :) (fun u hu k _ => ?_)
    rw [State.cores_markUnpub, ((State.Shelved.refl u).dirtyCopy _ _ _).cores, hu]
  have hown := State.sameQueues_invalidateOthers (State.sameQueues_of_cores (s := s) (fun _ => rfl) hcopies) core pa bs.length
    (s.unitsAt pa bs.length)
  have htag := State.sameQueues_of_cores hown (State.cores_recordTag _ core (lineOf pa) (s.unitsAt pa bs.length) epoch)
  intro k
  simp only [State.perform]
  rw [((State.Posted.refl _).settle _).core]
  refine State.sameQueues_modCore htag core ?_ k
  exact fun _ => rfl

/-- The core keeps a record of its write until it is visible in the package. -/
theorem State.outs_perform (s : State) (core pa : Nat) (bs : List Byte) (id epoch : Nat) :
    (tget? ((s.perform core pa bs id epoch).core core).outs id).isSome = true := by
  simp only [State.perform]
  rw [((State.Posted.refl _).settle _).core, State.core_modCore, if_pos rfl, tget?_tset_same]
  rfl

theorem State.core_dequeue (s : State) (core id : Nat) : ((s.dequeue core id).core core).wq = tdel (s.core core).wq id := by
  rw [State.dequeue, State.core_modCore, if_pos rfl]

theorem State.cores_defer (s : State) (wid : Nat) (t : TrapInfo) : (s.defer wid t).cores = s.cores := by
  simp only [State.defer]
  split
  · simp only [State.reportFatal, State.modCtx_cores, State.logDry, State.memWrite_cores]
  · rfl

/-- A queued write is the oldest of its line. -/
theorem any_wq_of_oldest {wq : Tbl WqEntry} {id : Nat} {e : WqEntry} (h : ∀ p ∈ wq, p.1 < id → lineOf p.2.pa ≠ lineOf e.pa) :
    (wq.any (fun p => p.1 < id && lineOf p.2.pa = lineOf e.pa)) = false := by
  simpa using h

section
variable {s : State} {core id : Nat} {e : WqEntry} (he : tget? (s.core core).wq id = some e)
  (hfirst : ∀ p ∈ (s.core core).wq, p.1 < id → lineOf p.2.pa ≠ lineOf e.pa) (hd : s.writeDropped core id = false)
include he hfirst hd

theorem exec_wr_lost (hl : s.homeLost (lineOf e.pa) = true) : exec (.wr core id) s = .next ((s.dequeue core id).loseStore e) := by
  rw [exec_wr, execWr, he]
  simp only [any_wq_of_oldest hfirst, hd, hl, Bool.or_self, Bool.false_eq_true, if_false, if_true]

section
variable (hl : s.homeLost (lineOf e.pa) = false) (hcv : s.converting (lineOf e.pa) = false) (hh : s.homeHeld (lineOf e.pa) = false)
  (ht : s.tagFull core (lineOf e.pa) (s.unitsAt e.pa e.bytes.length) = none) (hc : s.counter (lineOf e.pa) = none)
include hl hcv hh ht hc

/-- A write that nothing else holds back waits for ownership of its units. -/
theorem exec_wr_gains {u : State} (hg : s.gainUnits core (s.unitsAt e.pa e.bytes.length) = some u) : exec (.wr core id) s = .next u := by
  have hr : s.liveRecord (lineOf e.pa) = false := Option.isSome_eq_false_iff.2 (Option.isNone_iff_eq_none.2 hc)
  rw [exec_wr, execWr, he]
  simp only [any_wq_of_oldest hfirst, hd, hl, hcv, hh, ht, hr, hg, Bool.or_self, Bool.false_eq_true, if_false]

/-- A write whose units are all at hand is performed. -/
theorem exec_wr_performs (hg : s.gainUnits core (s.unitsAt e.pa e.bytes.length) = none)
    (hready : ∀ k ∈ s.unitsAt e.pa e.bytes.length, s.ownerReady k = true ∧ s.ownerClear core k = true) :
    exec (.wr core id) s = .next ((s.dequeue core id).perform core e.pa e.bytes id e.epoch) := by
  have hr : s.liveRecord (lineOf e.pa) = false := Option.isSome_eq_false_iff.2 (Option.isNone_iff_eq_none.2 hc)
  have hall : ((s.unitsAt e.pa e.bytes.length).any (fun k => !s.ownerReady k || !s.ownerClear core k)) = false := by
    rw [List.any_eq_false]
    intro k hk
    simp [hready k hk]
  rw [exec_wr, execWr, he]
  simp only [any_wq_of_oldest hfirst, hd, hl, hcv, hh, ht, hr, hg, hall, Bool.or_self, Bool.false_eq_true, if_false]

end
end

theorem State.gainUnits_none {s : State} {core : Nat} {ks : List Nat}
    (h : ∀ k ∈ ks, s.ownerStack k = stackOf core ∨ s.cacheWays (clusterOf core) = 0) : s.gainUnits core ks = none := by
  rw [State.gainUnits]
  split
  · rfl
  · rename_i hw
    rw [Option.map_eq_none_iff, List.find?_eq_none]
    intro k hk
    simp [(h k hk).resolve_right hw]

theorem State.gainUnits_asks {s : State} {core k : Nat} {ks : List Nat} (hw : 0 < s.cacheWays (clusterOf core))
    (hk : ks.find? (fun j => s.ownerStack j ≠ stackOf core) = some k) (ha : s.asked k (stackOf core) = false) :
    s.gainUnits core ks = some (s.send (.getx k (stackOf core) core)) := by
  have hf : ks.find? (fun j => s.ownerStack j != stackOf core) = some k := by
    rw [← hk]; congr 1; funext j; rw [bne, Bool.beq_eq_decide_eq, decide_not]
  rw [State.gainUnits, if_neg (by omega), hf, Option.map_some, ha]
  simp

/-- The record of a write after PACK, until it is visible in the package (R322). -/
def OutWrite.after (o : OutWrite) (level : Nat) : Option OutWrite :=
  if max o.level level < 6 then some { o with level := max o.level level } else none

/-- The records of a core after PACK of one of them. -/
def Core.packed (id level : Nat) (c : Core) : Core :=
  { c with outs := match tget? c.outs id with
      | some o => if max o.level level < 6 then tset c.outs id { o with level := max o.level level } else tdel c.outs id
      | none => c.outs }

theorem Core.packed_outs {c : Core} {id level : Nat} {o : OutWrite} (h : tget? c.outs id = some o) :
    tget? (c.packed id level).outs id = o.after level := by
  simp only [Core.packed, OutWrite.after, h]
  split
  · rw [tget?_tset_same]
  · rw [tget?_tdel, if_pos rfl]

/-- PACK changes the record of its write, requests for forced publishes and messages. -/
theorem exec_pack_marks {s : State} {core id level : Nat} {o : OutWrite} (h : s.next? (.pack core id level) = true)
    (ho : tget? (s.core core).outs id = some o) : ∃ t : State, exec (.pack core id level) s = .next t ∧ transportFrame s t ∧
      tget? (t.core core).outs id = o.after level := by
  let v := (arrived s (.pack core id level)).modCore core (Core.packed id level)
  refine ⟨(v.retryFpubs core).repress core, (exec_pack ..).trans (State.arrive_next h _), ?_, ?_⟩
  · exact transportFrame_of_sameArch (State.repress_same _ _ (State.retryFpubs_same _ _ (State.modCore_same _ _ _ (State.sameArch_messages s _ _))))
  · rw [((State.Posted.refl _).repress core).core, (State.replied_retryFpubs v core).outs, State.core_modCore, if_pos rfl]
    exact Core.packed_outs ho

/-- INV drops every copy of the line in the cluster but the writer's (R318). -/
theorem exec_inv_drops {s : State} {line g w : Nat} (h : s.next? (.inv line g w) = true) : ∃ t : State,
    exec (.inv line g w) s = .next t ∧ transportFrame s t ∧ underWay t (.iack line g) ∧
      ∀ k, clusterOf k = g → k ≠ w → tget? (t.core k).l1 line = none := by
  refine ⟨_, (exec_inv ..).trans (State.arrive_next h _), ?_, underWay_sendOnce _ _, fun k hk hw => ?_⟩
  · exact transportFrame_of_sameArch (State.sendOnce_same _ _ (foldl_same _ (fun u k hu => State.dropL1_same _ _ _ hu) _ _
      (State.sameArch_messages s _ _)))
  · rw [((State.Posted.refl _).sendOnce _).core]
    have hstack : k / 256 = g / 32 := by rw [clusterOf] at hk; omega
    exact State.l1_dropHolders (fun hl => List.mem_filter.2 ⟨State.mem_l1Holders hstack hl, by simp [hk, hw]⟩)

/-- Settles O45, one message at a time. -/
theorem writesAreVisible : Obligations.WritesAreVisible := by
  refine fun s core => ⟨fun id e he hfirst hd => ⟨fun hl => ?_, fun hl hcv hh ht hc => ⟨fun hown hdev => ?_, fun k hw hk ha => ?_⟩⟩,
    fun id level o h ho => exec_pack_marks h ho, fun line g w h => exec_inv_drops h, fun line g h => ?_⟩
  · refine ⟨_, exec_wr_lost he hfirst hd hl, ?_, fun w hw hew => ?_⟩
    · rw [State.core, State.loseStore, State.cores_defer]
      exact (congrArg (tget? · id) (s.core_dequeue core id)).trans (by rw [tget?_tdel, if_pos rfl])
    · rw [State.loseStore, State.defer_of_some (s := s.dequeue core id) hw hew]
      refine ⟨rfl, { w with causes := insertCause e.trap w.causes }, ?_, rfl⟩
      rw [State.modWave_waves, tget?_tmodify, if_pos rfl, show tget? (s.dequeue core id).waves e.wave = some w from hw]
      rfl
  · let v := s.dequeue core id
    obtain ⟨P, N, W, -, hwr⟩ := State.writeOwned_eq (s := v) hdev hc
    have hs : (v.writeOwned e.pa e.bytes).sameArch (v.perform core e.pa e.bytes id e.epoch) := State.perform_same _ _ _ _ _ _
    refine ⟨v.perform core e.pa e.bytes id e.epoch, ?_, fun a => ?_, ?_, State.outs_perform _ _ _ _ _ _, ?_, ?_, ?_⟩
    · exact exec_wr_performs he hfirst hd hl hcv hh ht hc (State.gainUnits_none (fun k hk => (hown k hk).1)) (fun k hk => (hown k hk).2)
    · rw [State.sameArch_mem hs, hwr]
      exact memByte_memPut _ _ _ _
    · rw [State.sameQueues_perform (s := v) core id e.epoch hdev hc core, s.core_dequeue, tget?_tdel, if_pos rfl]
    · rw [State.sameArch_waves hs, hwr]; rfl
    · rw [State.sameArch_blocks hs, hwr]; rfl
    · rw [State.sameArch_ctxs hs, hwr]; rfl
  · exact exec_wr_gains he hfirst hd hl hcv hh ht hc (State.gainUnits_asks hw hk ha)
  · exact ⟨_, (exec_iack ..).trans (State.arrive_next h _), transportFrame_of_sameArch (State.settle_same _ _ (State.sameArch_messages s _ _))⟩

end Sys2Proof.Machine

namespace Sys2Proof.Machine
open Sys2Proof.Claims

/-! Forced publishes (R324 to R327, R409). -/

/-- A forced publish is answered, or its core has noted it. -/
def publishAsked (u : State) (core epoch level requester : Nat) : Prop :=
  underWay u (.fack core epoch level requester) ∨ ∃ f ∈ (u.core core).fpubs, f.epoch = epoch ∧ f.level = level ∧ f.requester = requester

theorem publishAsked_of_mem {u : State} {core : Nat} {f : FpubReq} (h : f ∈ (u.core core).fpubs ∨ f.answered u core) :
    publishAsked u core f.epoch f.level f.requester :=
  h.elim (fun hf => .inr ⟨f, hf, rfl, rfl, rfl⟩) .inl

section
variable {s : State} {core epoch level requester : Nat} (h : s.next? (.fpub core epoch level requester) = true)
include h

theorem exec_fpub_lost (hd : s.dead.contains (dieOf core) = true) : exec (.fpub core epoch level requester) s =
    .next ((arrived s (.fpub core epoch level requester)).sendOnce (.fack core epoch level requester)) := by
  rw [exec_fpub, execFpub, State.arrive_next h, if_pos (show (arrived s _).dead.contains (dieOf core) = true from hd)]

theorem exec_fpub_asks (hd : s.dead.contains (dieOf core) = false) : ∃ t : State, exec (.fpub core epoch level requester) s = .next t ∧
    (arrived s (.fpub core epoch level requester)).sameArch t ∧ publishAsked t core epoch level requester := by
  let a := arrived s (.fpub core epoch level requester)
  let f : FpubReq := ⟨epoch, level, requester, (a.core core).nextWrite⟩
  have hlive : ¬ a.dead.contains (dieOf core) = true := Bool.eq_false_iff.1 hd
  by_cases hf : (a.core core).fpubs.any (fun x => x.epoch = epoch && x.level = level && x.requester = requester) = true
  · refine ⟨a, ?_, a.sameArch_refl, .inr ?_⟩
    · rw [exec_fpub, execFpub, State.arrive_next h, if_neg hlive]
      exact congrArg _ (if_pos hf)
    · simpa [and_assoc] using hf
  · let v := a.modCore core (fun c => { c with fpubs := c.fpubs ++ [f] })
    refine ⟨v.retryFpubs core, ?_, State.retryFpubs_same _ _ (State.modCore_same _ _ _ a.sameArch_refl), ?_⟩
    · rw [exec_fpub, execFpub, State.arrive_next h, if_neg hlive]
      exact congrArg _ (if_neg hf)
    · have hv : f ∈ (v.core core).fpubs := by
        rw [State.core_modCore, if_pos rfl]
        exact List.mem_append_right _ (List.mem_singleton_self f)
      exact publishAsked_of_mem (f := f) ((v.replied_retryFpubs core).kept core f hv)

end

/-- A dependency on the writes of a core up to an epoch, once they are known at a level. -/
def Dep.learn (core epoch level : Nat) (d : Dep) : Dep :=
  if d.core = core && d.epoch ≤ epoch then { d with level := max d.level level } else d
/-- See `Dep.learn`. -/
def Tag.learn (core epoch level : Nat) (t : Tag) : Tag :=
  if t.core = core && t.epoch ≤ epoch then { t with level := max t.level level } else t

theorem Dep.learn_package {core epoch : Nat} {d : Dep} (h : (d.learn core epoch 6).level < 6) (hc : (d.learn core epoch 6).core = core) :
    epoch < (d.learn core epoch 6).epoch := by
  by_cases hn : (d.core = core && d.epoch ≤ epoch) = true
  · rw [Dep.learn, if_pos hn] at h
    have h6 : max d.level 6 < 6 := h
    omega
  · rw [Dep.learn, if_neg hn] at hc ⊢
    simpa [hc] using hn
theorem Tag.learn_package {core epoch : Nat} {t : Tag} (h : (t.learn core epoch 6).level < 6) (hc : (t.learn core epoch 6).core = core) :
    epoch < (t.learn core epoch 6).epoch := by
  by_cases hn : (t.core = core && t.epoch ≤ epoch) = true
  · rw [Tag.learn, if_pos hn] at h
    have h6 : max t.level 6 < 6 := h
    omega
  · rw [Tag.learn, if_neg hn] at hc ⊢
    simpa [hc] using hn

/-- The state in which the answer of a core has reached its requester: dependencies, tags and the core's mark are known at the level. -/
def State.learned (s : State) (core epoch level requester : Nat) : State :=
  let s1 := s.modCore requester (fun c => { c with deps := (c.deps.map (Dep.learn core epoch level)).filter (fun d => d.level < 6) })
  let s2 : State := { s1 with
    clusters := tmap s1.clusters (fun c => { c with tags := (c.tags.map (Tag.learn core epoch level)).filter (fun t => t.level < 6) }) }
  s2.modCore core (fun c =>
    if c.relLevel != 0 && c.epoch ≤ epoch then { c with relLevel := if level = 6 then 0 else max c.relLevel level } else c)

theorem State.learned_frame (s : State) (i : Instr) (core epoch level requester : Nat) :
    transportFrame s ((arrived s i).learned core epoch level requester) := rfl
theorem State.learned_deps (s : State) (core epoch level requester : Nat) : ((s.learned core epoch level requester).core requester).deps =
    ((s.core requester).deps.map (Dep.learn core epoch level)).filter (fun d => d.level < 6) := by
  let v := s.modCore requester (fun c => { c with deps := (c.deps.map (Dep.learn core epoch level)).filter (fun d => d.level < 6) })
  have hv : (v.core requester).deps = ((s.core requester).deps.map (Dep.learn core epoch level)).filter (fun d => d.level < 6) := by
    rw [State.core_modCore, if_pos rfl]
  unfold State.learned
  extract_lets
  rw [State.core_modCore]
  split
  · rename_i hr
    subst hr
    split
    · exact hv
    · exact hv
  · exact hv

theorem State.learned_cluster {s : State} {core epoch level requester g : Nat} {c : Cluster}
    (h : tget? (s.learned core epoch level requester).clusters g = some c) :
    ∃ c0 : Cluster, { c0 with tags := (c0.tags.map (Tag.learn core epoch level)).filter (fun t => t.level < 6) } = c := by
  have hm : tget? (tmap s.clusters (fun c => { c with tags := (c.tags.map (Tag.learn core epoch level)).filter (fun t => t.level < 6) })) g =
    some c := h
  rw [tget?_tmap] at hm
  obtain ⟨c0, -, hc⟩ := Option.map_eq_some_iff.1 hm
  exact ⟨c0, hc⟩

theorem exec_fack_learns {s : State} {core epoch level requester : Nat} (h : s.next? (.fack core epoch level requester) = true)
    (hd : s.dead.contains (dieOf core) = false) : exec (.fack core epoch level requester) s =
      .next (((arrived s (.fack core epoch level requester)).learned core epoch level requester).retryFpubs requester) := by
  have hlive : ¬ (arrived s (.fack core epoch level requester)).dead.contains (dieOf core) = true := Bool.eq_false_iff.1 hd
  rw [exec_fack, execFack, State.arrive_next h]
  dsimp only
  rw [if_neg hlive]
  rfl

/-! Rebase (R321). -/

theorem exec_rebase_core {s : State} {core : Nat} (h : (s.core core).base + 65535 ≤ s.coreTick core) :
    exec (.rebase true core) s = .next (s.modCore core (fun c => { c with
      base := s.coreTick core - 32767, l1 := c.l1.filter (fun p => ((s.coreTick core - 32767 : Nat) : Int) ≤ p.2.t0) })) := by
  simp only [exec_rebase, execRebase, if_true, if_neg (Nat.not_lt.2 h)]

/-- A slice with a new base keeps no older tag. -/
def Cluster.rebased (b : Nat) (c : Cluster) : Cluster := { c with base := b, tags := c.tags.filter (fun t => b ≤ t.tick) }

theorem State.clusters_setHome (s : State) (k : Nat) (e : HomeEntry) : (s.setHome k e).clusters = s.clusters := by
  rw [State.setHome]; split <;> rfl

theorem exec_rebase_slice {s : State} {g : Nat} (h : (s.cluster g).base + 65535 ≤ s.tickOf g) : ∃ t : State,
    exec (.rebase false g) s = .next t ∧ s.sameArch t ∧ t.cluster g = (s.cluster g).rebased (s.tickOf g - 32767) := by
  simp only [exec_rebase, execRebase, Bool.false_eq_true, if_false, if_neg (Nat.not_lt.2 h)]
  refine ⟨_, rfl, ?_, ?_⟩
  · refine foldl_same _ (fun u p hu => ?_) _ _ (State.sameArch_mk _ _ _ _ _ _ (State.modCluster_same _ _ _ (fun _ => rfl) s.sameArch_refl))
    split
    · exact State.setHome_same _ _ _ hu
    · exact hu
  · refine List.foldlRecOn (motive := fun u : State => u.cluster g = (s.cluster g).rebased (s.tickOf g - 32767)) _ _ ?_ (fun u hu p _ => ?_)
    · exact (State.cluster_modCluster s g g (Cluster.rebased (s.tickOf g - 32767))).trans (if_pos rfl)
    · rw [← hu]
      split
      · exact congrArg (tgetD · g {}) (State.clusters_setHome _ _ _)
      · rfl

/-- Settles O47, one message at a time. -/
theorem forcedPublishes : Obligations.ForcedPublishes := by
  refine fun s core epoch level requester => ⟨fun h => ?_, fun h hd => ⟨_, exec_fack_learns h hd, ?_, ?_⟩, ⟨fun hn => ?_, fun hn => ?_⟩,
    fun hn => ?_, fun hn => ?_⟩
  · cases hd : s.dead.contains (dieOf core) with
    | true => exact ⟨_, exec_fpub_lost h hd, transportFrame_of_sameArch (State.sendOnce_same _ _ (State.sameArch_messages s _ _)),
        fun _ => underWay_sendOnce _ _, nofun⟩
    | false =>
      obtain ⟨t, hx, hs, ha⟩ := exec_fpub_asks h hd
      exact ⟨t, hx, transportFrame.sameArch (transportFrame_arrived s _) hs, nofun, fun _ => ha⟩
  · exact transportFrame.sameArch (State.learned_frame s _ core epoch level requester) (State.retryFpubs_same _ _ (State.sameArch_refl _))
  · rintro rfl
    have hr := ((arrived s (.fack core epoch 6 requester)).learned core epoch 6 requester).replied_retryFpubs requester
    refine ⟨fun d hdep hc => ?_, fun g c hg x hx hc => ?_⟩
    · rw [hr.deps, State.learned_deps] at hdep
      obtain ⟨hm, hl⟩ := List.mem_filter.1 hdep
      obtain ⟨d', -, rfl⟩ := List.mem_map.1 hm
      exact Dep.learn_package (of_decide_eq_true hl) hc
    · rw [hr.clusters] at hg
      obtain ⟨c', rfl⟩ := State.learned_cluster hg
      obtain ⟨hm, hl⟩ := List.mem_filter.1 hx
      obtain ⟨x', -, rfl⟩ := List.mem_map.1 hm
      exact Tag.learn_package (of_decide_eq_true hl) hc
  · simp only [exec_rebase, execRebase, if_true, if_pos hn]
  · refine ⟨_, exec_rebase_core hn, transportFrame_of_sameArch (State.modCore_same _ _ _ s.sameArch_refl), ?_, fun p hp => ?_⟩
    · rw [State.core_modCore, if_pos rfl]
    · rw [State.core_modCore, if_pos rfl] at hp
      exact of_decide_eq_true (List.mem_filter.1 hp).2
  · simp only [exec_rebase, execRebase, Bool.false_eq_true, if_false, if_pos hn]
  · obtain ⟨t, hx, hs, hc⟩ := exec_rebase_slice hn
    refine ⟨t, hx, transportFrame_of_sameArch hs, by rw [hc, Cluster.rebased], fun x hmem => ?_⟩
    rw [hc] at hmem
    exact of_decide_eq_true (List.mem_filter.1 hmem).2

end Sys2Proof.Machine

namespace Sys2Proof.Machine
open Sys2Proof.Claims

/-! Home entries (R312, R317). -/

theorem State.home_setHome (s : State) (k : Nat) (e : HomeEntry) : tgetD (s.setHome k e).homes k {} =
    if e.owned || e.sh != 0 || e.xi || e.xpub.isSome then { e with tile := isTile k } else {} := by
  rw [State.setHome]
  split
  · exact tgetD_tset_same _ _ _ _
  · exact (tgetD_tdel _ _ _ _).trans (if_pos rfl)

/-- What an entry says of owner, sharers and publication is kept, even where no entry need stand. -/
theorem State.owned_setHome (s : State) (k : Nat) (e : HomeEntry) : (tgetD (s.setHome k e).homes k {}).owned = e.owned := by
  rw [State.home_setHome]
  split
  · rfl
  · rename_i h
    simp only [Bool.or_eq_true, not_or, Bool.not_eq_true] at h
    exact h.1.1.1.symm
theorem State.shares_setHome (s : State) (k y : Nat) (e : HomeEntry) : (tgetD (s.setHome k e).homes k {}).shares k y = e.shares k y := by
  rw [State.home_setHome]
  split
  · rfl
  · rename_i h
    simp only [Bool.or_eq_true, not_or, Bool.not_eq_true, bne_eq_false_iff_eq] at h
    obtain ⟨⟨⟨-, hsh⟩, hxi⟩, -⟩ := h
    simp [HomeEntry.shares, hsh, hxi]
theorem State.xpub_setHome (s : State) (k : Nat) (e : HomeEntry) : (tgetD (s.setHome k e).homes k {}).xpub = e.xpub := by
  rw [State.home_setHome]
  split
  · rfl
  · rename_i h
    simp only [Bool.or_eq_true, not_or, Bool.not_eq_true, Option.isSome_eq_false_iff, Option.isNone_iff_eq_none] at h
    exact h.2.symm
theorem State.home_setHome_of_owned (s : State) (k : Nat) {e : HomeEntry} (h : e.owned = true) :
    tgetD (s.setHome k e).homes k {} = { e with tile := isTile k } := by
  rw [State.home_setHome, h]; rfl
theorem State.home_setHome_of_xpub (s : State) (k : Nat) {e : HomeEntry} (h : e.xpub.isSome = true) :
    tgetD (s.setHome k e).homes k {} = { e with tile := isTile k } := by
  rw [State.home_setHome, h, Bool.or_true]; rfl

theorem HomeEntry.shares_addSharer (e : HomeEntry) (k y : Nat) : (e.addSharer k y).shares k y = true := by
  have hy : y % 4 < 4 := Nat.mod_lt _ (by decide)
  by_cases h : y / 4 = unitHome k / 4
  · simp only [HomeEntry.shares, HomeEntry.addSharer, if_pos h]
    simp [hy]
  · simp only [HomeEntry.shares, HomeEntry.addSharer, if_neg h]
theorem HomeEntry.owned_addSharer (e : HomeEntry) (k y : Nat) : (e.addSharer k y).owned = e.owned := by
  rw [HomeEntry.addSharer]; split <;> rfl

/-- The sharer bit of one stack is cleared. -/
def HomeEntry.cutSharer (k : Nat) (e : HomeEntry) (y : Nat) : HomeEntry :=
  if y / 4 = unitHome k / 4 then { e with sh := e.sh &&& ~~~(1#4 <<< (y % 4)) } else { e with xi := false }

theorem HomeEntry.shares_cutSharer_same (e : HomeEntry) (k y : Nat) : (e.cutSharer k y).shares k y = false := by
  have hy : y % 4 < 4 := Nat.mod_lt _ (by decide)
  by_cases h : y / 4 = unitHome k / 4
  · simp only [HomeEntry.shares, HomeEntry.cutSharer, if_pos h]
    simp [hy]
  · simp only [HomeEntry.shares, HomeEntry.cutSharer, if_neg h]
theorem HomeEntry.shares_cutSharer_clear {e : HomeEntry} {k z : Nat} (y : Nat) (h : e.shares k z = false) :
    (e.cutSharer k y).shares k z = false := by
  by_cases hz : z / 4 = unitHome k / 4
  · simp only [HomeEntry.shares, if_pos hz, HomeEntry.cutSharer] at h ⊢
    split
    · simp [h]
    · exact h
  · simp only [HomeEntry.shares, if_neg hz, HomeEntry.cutSharer] at h ⊢
    split
    · exact h
    · rfl

/-- A publication clears the bits of all that it has cut (R317). -/
theorem HomeEntry.shares_cutSharers (e : HomeEntry) (k : Nat) (ys : List Nat) : ∀ y ∈ ys, (e.cutSharers k ys).shares k y = false := by
  intro y hy
  have hcut : (ys.foldl (HomeEntry.cutSharer k) e).shares k y = false :=
    foldl_each (Q := fun (e : HomeEntry) y => e.shares k y = false) (fun e y => e.shares_cutSharer_same k y)
      (fun e y z hz => HomeEntry.shares_cutSharer_clear y hz) ys e y hy
  unfold HomeEntry.cutSharers
  extract_lets e1
  split
  · exact hcut
  · exact hcut

theorem State.shares_grant (s : State) (k y ctx : Nat) : (tgetD (s.grant k y ctx).homes k {}).shares k y = true := by
  rw [State.grant]
  exact (State.shares_setHome _ _ _ _).trans (HomeEntry.shares_addSharer _ k y)

theorem State.homes_sendHome (s : State) (k : Nat) : (s.sendHome k).homes = tdel s.homes k := by
  have hlines : ((s.unitLines k).foldl (fun (u : State) l => u.cores.foldl (fun (u : State) p => u.dropL1 l p.1) u) s).homes = s.homes :=
    List.foldlRecOn (motive := fun u : State => u.homes = s.homes) _ _ rfl (fun u hu l _ =>
      List.foldlRecOn (motive := fun u : State => u.homes = s.homes) _ _ hu (fun v hv p _ => (v.dropL1_homes _ _).trans hv))
  refine congrArg (tdel · k) (Eq.trans ?_ hlines)
  exact ((State.Shelved.refl _).foldl (fun _ _ hv => hv.dropPart _ _) _).homes

/-- Room for an entry is made by others (R311). -/
theorem State.homeEntry_homeRoom (s : State) (k : Nat) : (s.homeRoom k).homeEntry k = s.homeEntry k := by
  have hnone {u : State} (h : tget? u.homes k = none) : u.homeEntry k = {} := by
    simp [State.homeEntry, tgetD, h]
  unfold State.homeRoom
  extract_lets es
  split
  · rfl
  · rename_i h
    simp only [Bool.or_eq_true, not_or, Option.not_isSome_iff_eq_none] at h
    split
    · rw [hnone h.1, hnone]
      rw [State.homes_sendHome, tget?_tdel, h.1, ite_self]
    · rfl
theorem State.ownerStack_homeRoom (s : State) (k : Nat) : (s.homeRoom k).ownerStack k = s.ownerStack k := by
  simp only [State.ownerStack, State.homeEntry_homeRoom]

/-! Units where nothing but the memory system has changed. -/

theorem State.sameArch_unitLines {s u : State} (h : s.sameArch u) (k : Nat) : u.unitLines k = s.unitLines k := by
  simp only [State.unitLines, State.sameArch_objects h]
theorem State.sameArch_unitData {s u : State} (h : s.sameArch u) (k : Nat) : u.unitData k = s.unitData k := by
  rw [State.unitData, State.unitData, State.sameArch_unitLines h, State.sameArch_mem h]

/-! Requests at the home (R317). -/

theorem homeServes_needless {s : State} {k stack : Nat} (h : homeServes s k stack) : s.needless k stack = false := by
  obtain ⟨hv, hl, ho, -⟩ := h
  simp [State.needless, hv, hl, ho]
theorem homeServes_entryFree {s : State} {k stack : Nat} (h : homeServes s k stack) : s.entryFree k = true := by
  obtain ⟨-, -, -, ho, hp, hh, hd⟩ := h
  simp only [State.entryFree, hp, hh, hd, Option.isNone_none, Bool.not_false, Bool.and_true]
  simpa using ho

/-- A request that the entry can serve is served. -/
theorem State.atEntry_serves {s : State} {k stack : Nat} {i : Instr} (f : State → State) (hi : ∀ y, i ≠ .wb k y) (hr : reaches s k i)
    (hs : homeServes s k stack) :
    ∃ N W, s.atEntry k i (fun s => s.needless k stack || s.entryFree k) f = .next (f { s with net := N, waiting := W }) := by
  have hfree := homeServes_entryFree hs
  refine State.atEntry_reaches hr ?_ ?_
  · rw [hfree, Bool.or_true]
  · have he : (arrived s i).entryFree k = s.entryFree k :=
      congrArg (fun b => (s.ownerReady k || b) && (s.homeEntry k).xpub.isNone && !s.unitHeld k && (s.unitLines k).all s.dramClear)
        (State.goingHome_arrived k hi)
    rw [he, hfree, Bool.or_true]

section
variable {s : State} {k stack core : Nat} (hr : reaches s k (.gets k stack core)) (hs : homeServes s k stack)
include hr hs

/-- GETS of a unit that its home owns and nobody else holds moves the ownership. -/
theorem exec_gets_alone (hx : s.ownerStack k = unitHome k) (ha : ∀ y ∈ (s.homeEntry k).sharers k, y = stack)
    (hh : s.holdsUnit (unitHome k) k = false) (hw : 0 < s.cacheWays (clusterOf core)) : ∃ t : State,
      exec (.gets k stack core) s = .next t ∧ transportFrame s t ∧ .data k stack core true (s.unitData k) ∈ t.net ∧
      (tgetD t.homes k {}).owned = true ∧ (tgetD t.homes k {}).owner = stack := by
  obtain ⟨N, W, he⟩ := State.atEntry_serves _ (fun _ => Instr.noConfusion) hr hs
  have hall : (((s.homeEntry k).sharers k).all (fun y => y = stack) && !s.holdsUnit (unitHome k) k &&
      s.cacheWays (clusterOf core) > 0) = true := by
    simpa [hh, hw] using ha
  let u : State := { s with net := N, waiting := W }
  let e : HomeEntry := { (u.homeRoom k).homeEntry k with owned := true, owner := stack, sh := 0, xi := false, unpub := false }
  refine ⟨((u.homeRoom k).setHome k ((u.homeRoom k).lendTo k (u.coreCtx core) e)).send (.data k stack core true (s.unitData k)),
    (exec_gets ..).trans (he.trans (congrArg _ ?_)), ?_, State.mem_net_send _ _, ?_, ?_⟩
  · exact (if_neg (Bool.eq_false_iff.1 (homeServes_needless hs))).trans ((if_pos hx).trans (if_pos hall))
  · exact transportFrame_of_sameArch (State.send_same _ _ (State.setHome_same _ _ _ (State.homeRoom_same _ _ (State.sameArch_messages s N W))))
  · exact State.owned_setHome _ _ _
  · exact congrArg HomeEntry.owner (State.home_setHome_of_owned (u.homeRoom k) k (e := (u.homeRoom k).lendTo k (u.coreCtx core) e) rfl)

/-- GETS of another unit that its home owns leaves the home its owner. -/
theorem exec_gets_shares (hx : s.ownerStack k = unitHome k) (ha : ¬((∀ y ∈ (s.homeEntry k).sharers k, y = stack) ∧
    s.holdsUnit (unitHome k) k = false ∧ 0 < s.cacheWays (clusterOf core))) : ∃ t : State,
      exec (.gets k stack core) s = .next t ∧ transportFrame s t ∧ .data k stack core false (s.unitData k) ∈ t.net ∧
      (tgetD t.homes k {}).shares k stack = true := by
  obtain ⟨N, W, he⟩ := State.atEntry_serves _ (fun _ => Instr.noConfusion) hr hs
  have hall : ¬ (((s.homeEntry k).sharers k).all (fun y => y = stack) && !s.holdsUnit (unitHome k) k &&
      s.cacheWays (clusterOf core) > 0) = true := by
    simpa [and_assoc] using ha
  let u : State := { s with net := N, waiting := W }
  refine ⟨((u.turnPart (unitHome k) k CopyState.share).grant k stack (u.coreCtx core)).send (.data k stack core false (s.unitData k)),
    (exec_gets ..).trans (he.trans (congrArg _ ?_)), ?_, State.mem_net_send _ _, State.shares_grant _ _ _ _⟩
  · exact (if_neg (Bool.eq_false_iff.1 (homeServes_needless hs))).trans ((if_pos hx).trans (if_neg hall))
  · exact transportFrame_of_sameArch (State.send_same _ _ (State.grant_same _ _ _ _ (State.turnPart_same _ _ _ _ (State.sameArch_messages s N W))))

/-- GETS of a unit that another stack owns is forwarded to it. -/
theorem exec_gets_forwards (hx : s.ownerStack k ≠ unitHome k) : ∃ t : State,
      exec (.gets k stack core) s = .next t ∧ transportFrame s t ∧ .fwd k stack core false ∈ t.net ∧
      (tgetD t.homes k {}).shares k stack = true := by
  obtain ⟨N, W, he⟩ := State.atEntry_serves _ (fun _ => Instr.noConfusion) hr hs
  let u : State := { s with net := N, waiting := W }
  refine ⟨(u.grant k stack (u.coreCtx core)).send (.fwd k stack core false),
    (exec_gets ..).trans (he.trans (congrArg _ ?_)), ?_, State.mem_net_send _ _, State.shares_grant _ _ _ _⟩
  · exact (if_neg (Bool.eq_false_iff.1 (homeServes_needless hs))).trans (if_neg hx)
  · exact transportFrame_of_sameArch (State.send_same _ _ (State.grant_same _ _ _ _ (State.sameArch_messages s N W)))

end

/-- The ownership of a unit moves to a stack in its entry; an owner other than the home becomes a sharer (R317). -/
def State.moveOwner (s : State) (k stack core : Nat) : State :=
  let x := s.ownerStack k
  let e1 := if x = unitHome k then s.homeEntry k else (s.homeEntry k).addSharer k x
  s.setHome k (s.lendTo k (s.holderCtx x k) (s.lendTo k (s.coreCtx core)
    { e1 with owned := decide (stack != unitHome k), owner := stack, unpub := e1.sh != 0 || e1.xi }))

theorem State.owned_moveOwner (s : State) (k stack core : Nat) :
    (tgetD (s.moveOwner k stack core).homes k {}).owned = decide (stack ≠ unitHome k) := by
  refine (State.owned_setHome _ _ _).trans ?_
  simp [State.lendTo]
theorem State.owner_moveOwner (s : State) {k stack : Nat} (core : Nat) (h : stack ≠ unitHome k) :
    (tgetD (s.moveOwner k stack core).homes k {}).owner = stack := by
  refine congrArg HomeEntry.owner (State.home_setHome_of_owned _ _ ?_)
  simp [State.lendTo, h]
theorem State.shares_moveOwner (s : State) {k : Nat} (stack core : Nat) (h : s.ownerStack k ≠ unitHome k) :
    (tgetD (s.moveOwner k stack core).homes k {}).shares k (s.ownerStack k) = true := by
  refine (State.shares_setHome _ _ _ _).trans ?_
  rw [if_neg h]
  exact HomeEntry.shares_addSharer _ k _
theorem State.moveOwner_same {s0 s : State} (h : s0.sameArch s) (k stack core : Nat) : s0.sameArch (s.moveOwner k stack core) :=
  State.setHome_same _ _ _ h

section
variable {s : State} {k stack core : Nat} (hr : reaches s k (.getx k stack core)) (hs : homeServes s k stack)
include hr hs

/-- GETX moves the ownership in the entry; the home answers for what it has owned itself, and forwards the rest. -/
theorem exec_getx_moves : ∃ t : State, exec (.getx k stack core) s = .next t ∧ transportFrame s t ∧
    (tgetD t.homes k {}).owned = decide (stack ≠ unitHome k) ∧ (stack ≠ unitHome k → (tgetD t.homes k {}).owner = stack) ∧
    (s.ownerStack k = unitHome k → .data k stack core true (s.unitData k) ∈ t.net) ∧
    (s.ownerStack k ≠ unitHome k → .fwd k stack core true ∈ t.net ∧ (tgetD t.homes k {}).shares k (s.ownerStack k) = true) := by
  obtain ⟨N, W, he⟩ := State.atEntry_serves _ (fun _ => Instr.noConfusion) hr hs
  let u : State := State.homeRoom { s with net := N, waiting := W } k
  have hu : s.sameArch u := State.homeRoom_same _ _ (State.sameArch_messages s N W)
  have hx : u.ownerStack k = s.ownerStack k := State.ownerStack_homeRoom _ _
  have hneed := Bool.eq_false_iff.1 (homeServes_needless hs)
  by_cases hh : u.ownerStack k = unitHome k
  · have ht : ((u.moveOwner k stack core).turnPart (unitHome k) k (fun _ => .s)).homes = (u.moveOwner k stack core).homes :=
      ((State.Shelved.refl _).turnPart _ _ _).homes
    refine ⟨((u.moveOwner k stack core).turnPart (unitHome k) k (fun _ => .s)).send (.data k stack core true (u.unitData k)),
      (exec_getx ..).trans (he.trans (congrArg _ ?_)), ?_, ?_, fun hst => ?_, fun _ => ?_, fun hn => absurd (hx.symm.trans hh) hn⟩
    · exact (if_neg hneed).trans (if_pos hh)
    · exact transportFrame_of_sameArch (State.send_same _ _ (State.turnPart_same _ _ _ _ (State.moveOwner_same hu _ _ _)))
    · exact (congrArg (fun hs => (tgetD hs k {}).owned) ht).trans (u.owned_moveOwner k stack core)
    · exact (congrArg (fun hs => (tgetD hs k {}).owner) ht).trans (u.owner_moveOwner core hst)
    · rw [State.sameArch_unitData hu]
      exact State.mem_net_send _ _
  · refine ⟨(u.moveOwner k stack core).send (.fwd k stack core true), (exec_getx ..).trans (he.trans (congrArg _ ?_)), ?_, ?_, fun hst => ?_,
      fun hn => absurd (hx.trans hn) hh, fun _ => ⟨State.mem_net_send _ _, ?_⟩⟩
    · exact (if_neg hneed).trans (if_neg hh)
    · exact transportFrame_of_sameArch (State.send_same _ _ (State.moveOwner_same hu _ _ _))
    · exact u.owned_moveOwner k stack core
    · exact u.owner_moveOwner core hst
    · rw [← hx]
      exact u.shares_moveOwner stack core hh

end

/-- FWD is answered with the bytes of the unit as its owner holds them. -/
theorem exec_fwd_answers {s : State} {k stack core : Nat} {excl : Bool} (h : s.next? (.fwd k stack core excl) = true) : ∃ t : State,
    exec (.fwd k stack core excl) s = .next t ∧ transportFrame s t ∧ .data k stack core excl (s.unitData k) ∈ t.net := by
  let a : State := arrived s (.fwd k stack core excl)
  let u : State := { a with fabric := { a.fabric with dataFrom := (.fwd k stack core excl, a.fwdSlice k stack) :: a.fabric.dataFrom } }
  let v : State := if excl then ((List.range 8).filter (fun y => y != stack && (u.partAt y k).any (fun p => p.st.owns))).foldl
      (fun (u : State) y => u.turnPart y k (fun _ => .s)) u
    else u.turnPart (u.ownerStack k) k CopyState.share
  have hv : u.sameArch v := by
    unfold v
    split
    · exact foldl_same _ (fun u y hu => State.turnPart_same _ _ _ _ hu) _ _ u.sameArch_refl
    · exact State.turnPart_same _ _ _ _ u.sameArch_refl
  refine ⟨v.send (.data k stack core excl (u.unitData k)), (exec_fwd ..).trans (State.arrive_next h _), ?_, State.mem_net_send _ _⟩
  exact transportFrame.sameArch (u := u) rfl (State.send_same _ _ hv)

/-! Write-backs (R317). -/

/-- A unit goes home: the entry names no owner, and messages go to older copies. -/
theorem State.owned_ownHome (s : State) (k stack : Nat) : (tgetD (s.ownHome k stack).homes k {}).owned = false := by
  unfold State.ownHome
  extract_lets h kept entry e e1
  have he1 : e1.owned = false := by
    refine List.foldlRecOn (motive := fun e : HomeEntry => e.owned = false) _ _ rfl (fun e he c _ => ?_)
    exact (HomeEntry.owned_addSharer e k stack).trans he
  have hhomes := (((State.Shelved.refl (s.setHome k e1)).turnPart h k (fun _ => .e)).foldl (f := fun (u : State) l =>
    (u.gatherTags l (u.ownSlice k)).invalidateOlder h l) (fun v l hv => (hv.gatherTags _ _).posted ((State.Posted.refl _).invalidateOlder _ _))
    (s.unitLines k)).homes
  rw [hhomes, State.owned_setHome, he1]

theorem State.invalidateOlder_same {s0 s : State} (h : s0.sameArch s) (y line : Nat) : s0.sameArch (s.invalidateOlder y line) :=
  State.sendInvs_same _ _ _ _ h
theorem State.ownHome_same {s0 s : State} (h : s0.sameArch s) (k stack : Nat) : s0.sameArch (s.ownHome k stack) :=
  foldl_same _ (fun _ _ hu => State.invalidateOlder_same (State.gatherTags_same _ _ _ hu) _ _) _ _
    (State.turnPart_same _ _ _ _ (State.setHome_same _ _ _ h))

theorem exec_wb_returns {s : State} {k stack : Nat} (h : reaches s k (.wb k stack)) (ht : s.tagged k = false)
    (ho : (s.homeEntry k).owned = true) (hx : (s.homeEntry k).owner = stack) : ∃ t : State,
      exec (.wb k stack) s = .next t ∧ transportFrame s t ∧ (tgetD t.homes k {}).owned = false := by
  obtain ⟨N, W, he⟩ := State.atEntry_reaches (free := fun _ => true) (f := fun s =>
    if (s.homeEntry k).owned && (s.homeEntry k).owner = stack then s.ownHome k stack else s) h rfl rfl
  have hown : ((s.homeEntry k).owned && (s.homeEntry k).owner = stack) = true := by simp [ho, hx]
  refine ⟨State.ownHome { s with net := N, waiting := W } k stack, ?_, ?_, State.owned_ownHome _ _ _⟩
  · rw [exec_wb, execWb, ht, Bool.false_and, if_neg Bool.false_ne_true, he]
    exact congrArg _ (if_pos hown)
  · exact transportFrame_of_sameArch (State.ownHome_same (State.sameArch_messages s N W) _ _)

end Sys2Proof.Machine

namespace Sys2Proof.Machine
open Sys2Proof.Claims

/-! Publication (R317, R318). -/

/-- The stacks that a publication of a unit cuts off: its sharers within the releaser's unit of the level, and its home where ownership
has left a copy there. -/
def State.publishCut (s : State) (k stack level : Nat) : List Nat :=
  (List.range 8).filter (fun y => y ≠ s.ownerStack k ∧ (6 ≤ level ∨ y / 4 = stack / 4) ∧
    ((s.homeEntry k).shares k y = true ∨ y = unitHome k ∧ s.holdsUnit y k = true))

/-- The entry of a unit while a publication runs. -/
def State.publishing (s : State) (k stack level : Nat) : HomeEntry :=
  { s.homeEntry k with xpub := some (stack, level), waitX := s.publishCut k stack level, cut := s.publishCut k stack level }

/-- The messages with which a publication begins. -/
def State.sendCuts (s : State) (k stack level : Nat) (cut : List Nat) : State :=
  if cut.isEmpty then s.sendOnce (.xdone k stack level) else cut.foldl (fun (u : State) y => u.sendOnce (.xinv k y)) s

theorem State.posted_sendCuts (s : State) (k stack level : Nat) (cut : List Nat) : s.Posted (s.sendCuts k stack level cut) := by
  rw [State.sendCuts]
  split
  · exact (State.Posted.refl s).sendOnce _
  · exact (State.Posted.refl s).foldl (fun _ _ hv => hv.sendOnce _) _
theorem State.sendCuts_same {s0 s : State} (h : s0.sameArch s) (k stack level : Nat) (cut : List Nat) :
    s0.sameArch (s.sendCuts k stack level cut) := by
  rw [State.sendCuts]
  split
  · exact State.sendOnce_same _ _ h
  · exact foldl_same _ (fun _ _ hu => State.sendOnce_same _ _ hu) _ _ h
theorem State.sendCuts_done (s : State) (k stack level : Nat) {cut : List Nat} (h : cut = []) :
    underWay (s.sendCuts k stack level cut) (.xdone k stack level) := by
  subst h; exact underWay_sendOnce _ _
theorem State.sendCuts_each (s : State) (k stack level : Nat) {cut : List Nat} :
    ∀ y ∈ cut, underWay (s.sendCuts k stack level cut) (.xinv k y) := by
  intro y hy
  rw [State.sendCuts, if_neg (by rw [List.isEmpty_iff]; exact List.ne_nil_of_mem hy)]
  exact foldl_each (Q := fun u y => underWay u (.xinv k y)) (fun u y => underWay_sendOnce u _)
    (fun u a b hb => underWay.posted hb ((State.Posted.refl u).sendOnce _)) cut s y hy

/-- XPUB starts a publication: XINV goes to every stack that it cuts off. -/
theorem exec_xpub_cuts {s : State} {k stack level : Nat} (h : reaches s k (.xpub k stack level))
    (ho : s.ownerReady k = true ∨ s.goingHome k = true) (hp : (s.homeEntry k).xpub = none) : ∃ t : State,
      exec (.xpub k stack level) s = .next t ∧ transportFrame s t ∧ (tgetD t.homes k {}).xpub = some (stack, level) ∧
      (tgetD t.homes k {}).waitX = s.publishCut k stack level ∧ (s.publishCut k stack level = [] → underWay t (.xdone k stack level)) ∧
      ∀ y ∈ s.publishCut k stack level, underWay t (.xinv k y) := by
  have hfree : ((s.ownerReady k || s.goingHome k) && (s.homeEntry k).xpub.isNone) = true := by
    rw [hp, Option.isNone_none, Bool.and_true, Bool.or_eq_true]; exact ho
  have hcut : (List.range 8).filter (fun y => y != s.ownerStack k && (level ≥ 6 || y / 4 == stack / 4) &&
      ((s.homeEntry k).shares k y || (y = unitHome k && s.holdsUnit y k))) = s.publishCut k stack level :=
    List.filter_congr (fun y _ => by rw [Bool.eq_iff_iff]; simp [and_assoc])
  obtain ⟨N, W, he⟩ := State.atEntry_reaches (free := fun s => (s.ownerReady k || s.goingHome k) && (s.homeEntry k).xpub.isNone) (f := _) h hfree
    ((congrArg (fun b => (s.ownerReady k || b) && (s.homeEntry k).xpub.isNone) (State.goingHome_arrived k (fun _ => Instr.noConfusion))).trans hfree)
  let u : State := State.setHome { s with net := N, waiting := W } k (s.publishing k stack level)
  have hu : s.sameArch u := State.setHome_same _ _ _ (State.sameArch_messages s N W)
  have hhome : tgetD u.homes k {} = { s.publishing k stack level with tile := isTile k } := State.home_setHome_of_xpub _ k rfl
  have hsend := State.posted_sendCuts u k stack level (s.publishCut k stack level)
  refine ⟨u.sendCuts k stack level (s.publishCut k stack level), (exec_xpub ..).trans (he.trans (congrArg _ ?_)),
    transportFrame_of_sameArch (State.sendCuts_same hu _ _ _ _), ?_, ?_, fun hc => State.sendCuts_done _ _ _ _ hc, State.sendCuts_each _ _ _ _⟩
  · unfold u State.publishing
    rw [← hcut]
    rfl
  · rw [hsend.homes, hhome]; rfl
  · rw [hsend.homes, hhome]; rfl

/-! The end of a copy (R317). -/

theorem State.copyAt_setCopy (s : State) (y line : Nat) (c : Option SliceLine) (z m : Nat) :
    (s.setCopy y line c).copyAt z m = if z = y ∧ m = line then c else s.copyAt z m := by
  simp only [State.copyAt, State.setCopy, tgetD_tset]
  by_cases hz : z = y
  · subst hz
    cases c with
    | none => simp only [if_true, tget?_tdel, true_and]
    | some x => simp only [if_true, tget?_tset, true_and]
  · simp only [hz, false_and, if_false]

/-- What a line's slice copy holds of a unit. -/
def State.linePart (s : State) (y k line : Nat) : Option Part := (s.copyAt y line).bind (fun c => c.part k)

/-- A line drops what it holds of a unit. -/
def State.dropLinePart (y k : Nat) (s : State) (line : Nat) : State :=
  match s.copyAt y line with
  | some c => s.setCopy y line (if (tdel c.parts k).isEmpty then none else some { c with parts := tdel c.parts k })
  | none => s

theorem State.linePart_dropLinePart (s : State) (y k line m : Nat) :
    (s.dropLinePart y k line).linePart y k m = if m = line then none else s.linePart y k m := by
  unfold State.dropLinePart State.linePart
  cases hc : s.copyAt y line with
  | none =>
    dsimp only
    split
    · rename_i hm
      subst hm; rw [hc]; rfl
    · rfl
  | some c =>
    simp only [State.copyAt_setCopy, true_and]
    by_cases hm : m = line
    · rw [if_pos hm, if_pos hm]
      split
      · rfl
      · exact (tget?_tdel _ _ _).trans (if_pos rfl)
    · rw [if_neg hm, if_neg hm]

theorem State.partAt_dropPart (s : State) (y k : Nat) : (s.dropPart y k).partAt y k = none := by
  have hlines : ∀ l ∈ s.unitLines k, (s.dropPart y k).linePart y k l = none :=
    foldl_each (Q := fun u l => u.linePart y k l = none) (fun u l => (u.linePart_dropLinePart y k l l).trans (if_pos rfl))
      (fun u a b hb => (u.linePart_dropLinePart y k a b).trans (by rw [hb, ite_self])) (s.unitLines k) s
  rw [State.partAt, State.sameArch_unitLines (State.dropPart_same s y k s.sameArch_refl), List.findSome?_eq_none_iff]
  exact hlines

/-- A unit and the L1 copies of its lines leave a stack. -/
theorem State.partAt_dropUnit (s : State) (y k : Nat) : (s.dropUnit y k).partAt y k = none := by
  have hdrop (u : State) (l : Nat) (cs : List Nat) (h : u.partAt y k = none) :
      (cs.foldl (fun (u : State) c => u.dropL1 l c) u).partAt y k = none :=
    List.foldlRecOn (motive := fun u : State => u.partAt y k = none) _ _ h (fun u hu c _ => by
      rw [State.dropL1]; split
      · exact hu
      · exact hu)
  exact List.foldlRecOn (motive := fun u : State => u.partAt y k = none) _ _ (s.partAt_dropPart y k) (fun u hu l _ => hdrop u l _ hu)
theorem State.l1_dropUnit (s : State) (y k : Nat) :
    ∀ l ∈ s.unitLines k, ∀ c, c / 256 = y → tget? ((s.dropUnit y k).core c).l1 l = none := by
  refine foldl_each (Q := fun (u : State) l => ∀ c, c / 256 = y → tget? (u.core c).l1 l = none) (fun u l c hc => ?_) (fun u a b hb c hc => ?_)
    (s.unitLines k) (s.dropPart y k)
  · exact State.l1_dropHolders (fun h => State.mem_l1Holders hc h)
  · exact State.l1_dropEach_none _ (hb c hc)
theorem State.dropUnit_same {s0 s : State} (h : s0.sameArch s) (y k : Nat) : s0.sameArch (s.dropUnit y k) :=
  foldl_same _ (fun _ _ hu => foldl_same _ (fun _ _ hv => State.dropL1_same _ _ _ hv) _ _ hu) _ _ (State.dropPart_same _ _ _ h)

theorem exec_xinv_drops {s : State} {k stack : Nat} (h : s.next? (.xinv k stack) = true) : ∃ t : State, exec (.xinv k stack) s = .next t ∧
    transportFrame s t ∧ underWay t (.xack k stack) ∧ ((s.partAt stack k).any (fun p => p.st.owns) = false → t.partAt stack k = none ∧
      ∀ line ∈ s.unitLines k, ∀ c, c / 256 = stack → tget? (t.core c).l1 line = none) := by
  let a : State := arrived s (.xinv k stack)
  let u : State := if (a.partAt stack k).any (fun p => p.st.owns) then a else a.dropUnit stack k
  have hu : s.sameArch u := by
    unfold u
    split
    · exact State.sameArch_messages s _ _
    · exact State.dropUnit_same (State.sameArch_messages s _ _) _ _
  refine ⟨u.sendOnce (.xack k stack), (exec_xinv ..).trans (State.arrive_next h _), transportFrame_of_sameArch (State.sendOnce_same _ _ hu),
    underWay_sendOnce _ _, fun ho => ?_⟩
  have hdrop : u = a.dropUnit stack k := if_neg (Bool.eq_false_iff.1 ho)
  have hp : u.Posted (u.sendOnce (.xack k stack)) := (State.Posted.refl u).sendOnce _
  refine ⟨?_, fun l hl c hc => ?_⟩
  · rw [hp.partAt, hdrop]
    exact a.partAt_dropUnit stack k
  · rw [hp.core, hdrop]
    exact a.l1_dropUnit stack k l hl c hc

/-! The end of a publication (R317). -/

theorem exec_xack_counts {s : State} {k stack y level : Nat} (h : s.next? (.xack k stack) = true) (hx : (s.homeEntry k).xpub = some (y, level)) :
    ∃ t : State, exec (.xack k stack) s = .next t ∧ transportFrame s t ∧
      (tgetD t.homes k {}).waitX = (s.homeEntry k).waitX.filter (fun z => z != stack) ∧
      ((s.homeEntry k).waitX = [stack] → underWay t (.xdone k y level)) := by
  let e : HomeEntry := { s.homeEntry k with xpub := some (y, level), waitX := (s.homeEntry k).waitX.filter (fun z => z != stack) }
  let u : State := (arrived s (.xack k stack)).setHome k e
  have hu : s.sameArch u := State.setHome_same _ _ _ (State.sameArch_messages s _ _)
  have hw : (tgetD u.homes k {}).waitX = (s.homeEntry k).waitX.filter (fun z => z != stack) :=
    congrArg HomeEntry.waitX (State.home_setHome_of_xpub (arrived s (.xack k stack)) k (e := e) rfl)
  have hexec : exec (.xack k stack) s = .next (if e.waitX.isEmpty then u.sendOnce (.xdone k y level) else u) := by
    rw [exec_xack, execXack, State.arrive_next h]
    dsimp only
    rw [show ((arrived s (.xack k stack)).homeEntry k).xpub = some (y, level) from hx]
    rfl
  by_cases he : e.waitX.isEmpty = true
  · refine ⟨u.sendOnce (.xdone k y level), by rw [hexec, if_pos he], transportFrame_of_sameArch (State.sendOnce_same _ _ hu), ?_,
      fun _ => underWay_sendOnce _ _⟩
    rw [((State.Posted.refl u).sendOnce _).homes, hw]
  · refine ⟨u, by rw [hexec, if_neg he], transportFrame_of_sameArch hu, hw, fun hl => absurd ?_ he⟩
    simp [e, hl]

theorem exec_xdone_clears {s : State} {k stack level : Nat} (h : s.next? (.xdone k stack level) = true) : ∃ t : State,
    exec (.xdone k stack level) s = .next t ∧ transportFrame s t ∧ (tgetD t.homes k {}).xpub = none ∧
      ∀ y ∈ (s.homeEntry k).cut, (tgetD t.homes k {}).shares k y = false := by
  let e : HomeEntry := { (s.homeEntry k).cutSharers k (s.homeEntry k).cut with xpub := none, waitX := [], cut := [] }
  let u : State := (arrived s (.xdone k stack level)).setHome k e
  have hsettle : u.Posted ((s.unitLines k).foldl (fun (u : State) l => u.settle l) u) := (State.Posted.refl u).foldl (fun _ _ hv => hv.settle _) _
  refine ⟨(s.unitLines k).foldl (fun (u : State) l => u.settle l) u, (exec_xdone ..).trans (State.arrive_next h _), ?_, ?_, fun y hy => ?_⟩
  · exact transportFrame_of_sameArch (foldl_same _ (fun _ _ hv => State.settle_same _ _ hv) _ _
      (State.setHome_same _ _ _ (State.sameArch_messages s _ _)))
  · rw [hsettle.homes, State.xpub_setHome]
  · rw [hsettle.homes, State.shares_setHome]
    exact (s.homeEntry k).shares_cutSharers k _ y hy

end Sys2Proof.Machine

namespace Sys2Proof.Machine
open Sys2Proof.Claims

/-! Loads that arriving data serve (R313, R317). -/

/-- No wave that a fatal trap has stopped has a load in flight. -/
def State.loadsLive (s : State) : Prop := ∀ n w, tget? s.waves n = some w → w.loads ≠ [] → w.ended = false

/-- Loads have been served at most: L1 copies stand as before, and so do memory, scratchpads and contexts where every load is that of a
wave that goes on. -/
structure State.Fed (s u : State) : Prop where
  l1 : ∀ c, (u.core c).l1 = (s.core c).l1
  cells : s.loadsLive → u.loadsLive ∧ u.mem = s.mem ∧ u.blocks = s.blocks ∧ u.ctxs = s.ctxs ∧ u.poison = s.poison

section
variable {s u v : State}

theorem State.Fed.refl (s : State) : s.Fed s := ⟨fun _ => rfl, fun h => ⟨h, rfl, rfl, rfl, rfl⟩⟩
theorem State.Fed.trans (h : s.Fed u) (hv : u.Fed v) : s.Fed v := by
  refine ⟨fun c => (hv.l1 c).trans (h.l1 c), fun hs => ?_⟩
  obtain ⟨hl, hm, hb, hc, hp⟩ := h.cells hs
  obtain ⟨hl', hm', hb', hc', hp'⟩ := hv.cells hl
  exact ⟨hl', hm'.trans hm, hb'.trans hb, hc'.trans hc, hp'.trans hp⟩
theorem State.Fed.of_sameArch (h : s.sameArch u) (hl : ∀ c, (u.core c).l1 = (s.core c).l1) : s.Fed u :=
  ⟨hl, fun hs => ⟨fun n w hw => hs n w (by rw [← State.sameArch_waves h]; exact hw), State.sameArch_mem h, State.sameArch_blocks h,
    State.sameArch_ctxs h, State.sameArch_poison h⟩⟩
theorem State.Fed.modCore (s : State) (core : Nat) (f : Core → Core) (hf : ∀ c, (f c).l1 = c.l1) : s.Fed (s.modCore core f) :=
  .of_sameArch (State.modCore_same _ _ _ s.sameArch_refl) (fun c => by
    rw [State.core_modCore]; split
    · subst c; exact hf _
    · rfl)
theorem State.Fed.foldl {α : Type} {f : State → α → State} (hf : ∀ v a, s.Fed v → s.Fed (f v a)) (h : s.Fed u) (l : List α) :
    s.Fed (l.foldl f u) :=
  List.foldlRecOn (motive := fun v : State => s.Fed v) _ _ h (fun v hv a _ => hf v a hv)

/-- A change of a wave that has a load in flight, other than of the mark that a fatal trap has stopped it. -/
theorem State.Fed.modWave {wid : Nat} {w : Wave} (hw : tget? s.waves wid = some w) (hl : w.loads ≠ []) (f : Wave → Wave)
    (hf : ∀ w, (f w).ended = w.ended) : s.Fed (s.modWave wid f) := by
  refine ⟨fun _ => rfl, fun hs => ⟨fun n x hx hx' => ?_, rfl, rfl, rfl, rfl⟩⟩
  rw [State.modWave_waves, tget?_tmodify] at hx
  split at hx
  · rw [hw] at hx
    cases hx
    exact (hf w).trans (hs wid w hw hl)
  · exact hs n x hx hx'

theorem State.Fed.deliver {wid : Nat} {w : Wave} (hw : tget? s.waves wid = some w) (hl : w.loads ≠ []) (lid : Nat) (p : PLoad) :
    s.Fed (s.deliver wid lid p) := by
  refine ⟨fun c => ?_, fun hs => ?_⟩
  · have hcores : (s.deliver wid lid p).cores = s.cores := by
      unfold State.deliver
      extract_lets s1
      split
      · rw [State.cores_defer]; rfl
      · rfl
    rw [State.core, hcores]; rfl
  · obtain ⟨cs, he⟩ := State.deliver_of_some hw (hs wid w hw hl) lid p
    rw [he, ← State.modWave_of_some (fun w => { w.land lid p with causes := cs }) hw]
    refine State.Fed.cells (State.Fed.modWave hw hl _ ?_) hs
    exact fun w => w.land_ended lid p

theorem State.Fed.touchCopy (s : State) (core line : Nat) : s.Fed (s.touchCopy core line) :=
  .of_sameArch (State.touchCopy_same _ _ _ _ s.sameArch_refl) (fun c => by rw [((State.Shelved.refl s).touchCopy _ _ _).core])
theorem State.Fed.recordDeps (s : State) (core line : Nat) : s.Fed (s.recordDeps core line) := by
  unfold State.recordDeps
  extract_lets new
  split
  · exact State.Fed.refl s
  · exact State.Fed.modCore s _ _ (fun _ => rfl)
theorem State.Fed.noteRead (s : State) (core line : Nat) (v : LineView) : s.Fed (s.noteRead core line v) := by
  unfold State.noteRead
  extract_lets o
  split
  · exact State.Fed.refl s
  · exact State.Fed.modCore s _ _ (fun _ => rfl)

/-- A read that must wait asks for forced publishes at most. -/
theorem State.posted_depWait {core : Nat} {new : List Dep} (h : s.depWait core new = some u) : s.Posted u := by
  unfold State.depWait at h
  extract_lets ds at h
  split at h
  · cases h
  · obtain ⟨d, -, rfl⟩ := Option.map_eq_some_iff.1 h
    exact (State.Posted.refl s).askFpub _ _ _ _
theorem State.posted_readBlock {core ctx line : Nat} {ks : List Nat} {cls : AccessClass} (h : s.readBlock core ctx line ks cls = some u) :
    s.Posted u := by
  unfold State.readBlock at h
  extract_lets tags at h
  split at h
  · cases h; exact State.Posted.refl s
  split at h
  · cases h; exact State.Posted.refl s
  split at h
  · cases h; exact (State.Posted.refl s).foldl (fun _ _ hv => hv.askFpub _ _ _ _) _
  split at h
  · rename_i hw
    cases h; exact State.posted_depWait hw
  split at h
  · cases h; exact State.Posted.refl s
  · cases h

/-- What the read that serves a load leaves noted in caches and queues (R298, R326). -/
def State.servedFrom (s : State) (hit : Bool) (core line : Nat) (v : LineView) : State :=
  ((if hit then s.touchCopy core line else s).recordDeps core line).noteRead core line v

theorem State.Fed.servedFrom (s : State) (hit : Bool) (core line : Nat) (v : LineView) : s.Fed (s.servedFrom hit core line v) := by
  refine .trans (.trans ?_ (State.Fed.recordDeps _ core line)) (State.Fed.noteRead _ core line v)
  cases hit with
  | true => exact State.Fed.touchCopy s core line
  | false => exact State.Fed.refl s
theorem State.servedFrom_same (s : State) (hit : Bool) (core line : Nat) (v : LineView) : s.sameArch (s.servedFrom hit core line v) := by
  refine State.noteRead_same _ _ _ _ (State.recordDeps_same _ _ _ ?_)
  cases hit with
  | true => exact State.touchCopy_same _ _ _ _ s.sameArch_refl
  | false => exact s.sameArch_refl

/-- A load that has taken lanes, and has landed if it is complete. -/
theorem State.Fed.serves {wid lid : Nat} {p0 : PLoad} (h : tget? (tgetD s.waves wid {}).loads lid = some p0) (p : PLoad) (hit : Bool)
    (core line : Nat) (v : LineView) :
    let u := (s.modWave wid (fun w => { w with loads := tset w.loads lid p })).servedFrom hit core line v
    s.Fed u ∧ s.Fed (u.deliver wid lid p) := by
  intro u
  obtain ⟨w, hw⟩ : ∃ w, tget? s.waves wid = some w := by
    cases hw : tget? s.waves wid with
    | some w => exact ⟨w, rfl⟩
    | none => rw [tgetD, hw] at h; cases h
  have hl : w.loads ≠ [] := fun hn => by rw [tgetD, hw, Option.getD_some, hn] at h; cases h
  have hput : tset w.loads lid p ≠ [] := fun hn => by
    have hx := tget?_tset_same w.loads lid p
    rw [hn] at hx; cases hx
  have hu : s.Fed u := by
    refine (State.Fed.modWave hw hl _ ?_).trans (State.Fed.servedFrom _ hit core line v)
    exact fun _ => rfl
  refine ⟨hu, hu.trans (State.Fed.deliver (w := { w with loads := tset w.loads lid p }) ?_ hput lid p)⟩
  rw [State.sameArch_waves (State.servedFrom_same _ hit core line v), State.modWave_waves, tget?_tmodify, if_pos rfl, hw]
  rfl

theorem State.Fed.feedLine (s : State) (core k : Nat) (hit : Bool) (wid lid line : Nat) : s.Fed (s.feedLine core k hit wid lid line) := by
  unfold State.feedLine
  extract_lets w
  split
  · exact State.Fed.refl s
  rename_i p0 h0
  extract_lets p ks
  split
  · exact State.Fed.refl s
  split
  · obtain ⟨hu, hd⟩ := State.Fed.serves h0 (p.put (s.core core) line (LoadLane.fill s.clk _)) hit core line _
    extract_lets p1 u u1
    split
    · exact hd
    · exact hu
  · rename_i hb
    have hp := State.posted_readBlock hb
    exact .of_sameArch hp.sameArch (fun c => by rw [hp.core])
  · exact State.Fed.refl s

theorem State.Fed.feed (s : State) (core k : Nat) (hit : Bool) : s.Fed (s.feed core k hit) :=
  (State.Fed.refl s).foldl (fun _ _ hu => hu.foldl (fun _ _ hv => hv.foldl (fun x _ hx => hx.trans (State.Fed.feedLine x _ _ _ _ _ _)) _) _) _

end

/-! Data at the requesting stack (R313, R317). -/

theorem State.takeOwnership_same {s0 s : State} (h : s0.sameArch s) (k stack core : Nat) : s0.sameArch (s.takeOwnership k stack core) := by
  have h1 : s0.sameArch (s.install (clusterOf core) k .e (some core)) := State.install_same _ _ _ _ _ h
  unfold State.takeOwnership
  extract_lets s1
  split
  · refine State.dropPart_same _ _ _ ?_
    split
    · exact State.writeBack_same _ _ _ h1
    · exact h1
  · exact foldl_same _ (fun _ _ hu => State.invalidateOlder_same (State.gatherTags_same _ _ _ hu) _ _) _ _ h1
theorem State.fillData_same {s0 s : State} (h : s0.sameArch s) (core k : Nat) : s0.sameArch (s.fillData core k) := by
  refine foldl_same _ (fun u l hu => ?_) _ _ h
  split
  · split
    · exact State.fillFrom_same _ _ _ _ hu
    · exact State.fillL1_same _ _ _ _ hu
  · exact hu

/-- Data that a core wants enter its L1 as the owner holds them. -/
theorem State.l1_fillL1 (s : State) (core line : Nat) (x : L1Line) :
    tget? ((s.fillL1 core line x).core core).l1 line = some { x with used := s.clk } := by
  unfold State.fillL1
  extract_lets s1
  rw [State.core_modCore, if_pos rfl]
  dsimp only
  rw [tget?_tset_same]
theorem State.unitLines_line {s : State} {k : Nat} (h : isTile k = false) : s.unitLines k = [k] := by rw [State.unitLines, h]; rfl
theorem State.l1_fillData {s : State} {core k : Nat} (ht : isTile k = false) (hw : s.wantsLine core k = true) :
    ∃ l, tget? ((s.fillData core k).core core).l1 k = some l ∧ l.data = memBytes s.mem k 64 := by
  simp only [State.fillData, State.unitLines_line ht, List.foldl_cons, List.foldl_nil, hw, ht, if_true, Bool.false_eq_true, if_false]
  exact ⟨_, State.l1_fillL1 _ _ _ _, rfl⟩

/-- INV goes to every L1 copy of a unit in a stack that is older than its owner's. -/
def State.invalidateUnit (s : State) (stack k : Nat) : State := (s.unitLines k).foldl (fun (u : State) l => u.invalidateOlder stack l) s

theorem State.posted_invalidateUnit (s : State) (stack k : Nat) : s.Posted (s.invalidateUnit stack k) :=
  (State.Posted.refl s).foldl (fun _ _ hv => hv.invalidateOlder _ _) _
theorem State.invalidateUnit_same {s0 s : State} (h : s0.sameArch s) (stack k : Nat) : s0.sameArch (s.invalidateUnit stack k) :=
  foldl_same _ (fun _ _ hu => State.invalidateOlder_same hu _ _) _ _ h

section
variable {s : State} {k stack core : Nat} {bs : List Byte}

/-- DATA moves copies and serves loads. -/
theorem exec_data_feeds {excl : Bool} (h : s.next? (.data k stack core excl bs) = true) :
    ∃ t : State, exec (.data k stack core excl bs) s = .next t ∧ ∃ u : State, s.sameArch u ∧ u.Fed t := by
  rw [exec_data, execData]
  extract_lets m
  split
  · split
    · exact ⟨_, rfl, _, State.forceTag_same _ _ s.sameArch_refl, State.Fed.refl _⟩
    · exact ⟨_, State.arrive_next h _, _, State.forceTag_same _ _ (State.sameArch_messages s _ _), State.Fed.refl _⟩
  refine State.arriveOrWait_holds (P := fun t => ∃ u : State, s.sameArch u ∧ u.Fed t) h (fun N W => ?_)
  have hs : s.sameArch { s with net := N, waiting := W } := State.sameArch_messages s N W
  dsimp only
  split
  · exact ⟨_, hs, State.Fed.refl _⟩
  split
  · exact ⟨_, State.fillData_same (State.takeOwnership_same hs k stack core) core k, State.Fed.feed _ _ _ _⟩
  split
  · exact ⟨_, hs, State.Fed.refl _⟩
  split
  · exact ⟨_, State.askCopy_same _ _ _ hs, State.Fed.refl _⟩
  · exact ⟨_, State.invalidateUnit_same (State.fillData_same (State.install_same _ _ _ _ _ hs) core k) stack k, State.Fed.feed _ _ _ _⟩

/-- A copy that no publication has cut off enters the stack and the L1 that wants it, and serves loads. -/
theorem exec_data_installs (h : s.next? (.data k stack core false bs) = true) (hv : s.unitValid k = true)
    (hd : s.dead.contains (dieOf core) = false) (hx : s.ownerStack k ≠ stack) (hs : (s.homeEntry k).shares k stack = true)
    (hc : (s.homeEntry k).cut.contains stack = false) : ∃ N W hit, exec (.data k stack core false bs) s = .next
      (((((({ s with net := N, waiting := W } : State).install (clusterOf core) k .s).fillData core k).invalidateUnit stack k)).feed core k hit) := by
  obtain ⟨N, W, he⟩ := State.arriveOrWait_next h _
  let u : State := { s with net := N, waiting := W }
  refine ⟨N, W, (u.unitLines k).any (fun l => (u.copyAt stack l).isSome), (exec_data ..).trans (he.trans (congrArg _ ?_))⟩
  have hvalid : ¬ (!s.unitValid k || (!false && s.dead.contains (dieOf core))) = true := by rw [hv, hd]; decide
  have hshared : ¬ (!(s.homeEntry k).shares k stack || (s.homeEntry k).cut.contains stack) = true := by rw [hs, hc]; decide
  exact (if_neg hvalid).trans ((if_neg Bool.false_ne_true).trans ((if_neg hx).trans (if_neg hshared)))

/-- The L1 that wants the line of such a copy has it from then on. -/
theorem exec_data_fills (h : s.next? (.data k stack core false bs) = true) (ht : isTile k = false) (hv : s.unitValid k = true)
    (hd : s.dead.contains (dieOf core) = false) (hx : s.ownerStack k ≠ stack) (hs : (s.homeEntry k).shares k stack = true)
    (hc : (s.homeEntry k).cut.contains stack = false) (hw : s.wantsLine core k = true) : ∃ t : State,
      exec (.data k stack core false bs) s = .next t ∧ ∃ l, tget? (t.core core).l1 k = some l ∧ l.data = memBytes s.mem k 64 := by
  obtain ⟨N, W, hit, he⟩ := exec_data_installs h hv hd hx hs hc
  let u : State := State.install { s with net := N, waiting := W } (clusterOf core) k .s
  have hu : State.Shelved { s with net := N, waiting := W } u := (State.Shelved.refl _).install _ _ _ _
  have hmem : u.mem = s.mem := State.sameArch_mem (State.install_same _ _ _ _ _ (State.sameArch_messages s N W))
  have hwants : u.wantsLine core k = true := by
    rw [State.wantsLine, hu.core, hu.waves]; exact hw
  obtain ⟨l, hl, hdata⟩ := State.l1_fillData ht hwants
  refine ⟨_, he, l, ?_, hdata.trans (by rw [hmem])⟩
  rw [(State.Fed.feed _ core k hit).l1, (State.posted_invalidateUnit _ stack k).core]
  exact hl

end

/-- Settles O46, one message at a time. -/
theorem lineTransfers : Obligations.LineTransfers := by
  intro s k stack core h x
  refine ⟨fun hr hs => ?_, fun hr hs => exec_getx_moves hr hs, fun excl hn => exec_fwd_answers hn, fun excl bs hn => ?_,
    fun hr ht ho hx => exec_wb_returns hr ht ho hx, fun level hr ho hp => exec_xpub_cuts hr ho hp, fun hn => exec_xinv_drops hn,
    fun y level hn hx => exec_xack_counts hn hx, fun level hn => ?_⟩
  · intro alone
    by_cases hx : x = h
    · by_cases ha : alone
      · obtain ⟨hsh, hh, hw⟩ := ha
        obtain ⟨t, he, hf, hd⟩ := exec_gets_alone hr hs hx hsh hh hw
        exact ⟨t, he, hf, fun _ _ => hd, fun _ hn => absurd ⟨hsh, hh, hw⟩ hn, fun hn => absurd hx hn⟩
      · obtain ⟨t, he, hf, hd⟩ := exec_gets_shares hr hs hx ha
        exact ⟨t, he, hf, fun _ hn => absurd hn ha, fun _ _ => hd, fun hn => absurd hx hn⟩
    · obtain ⟨t, he, hf, hd⟩ := exec_gets_forwards hr hs hx
      exact ⟨t, he, hf, fun hn => absurd hn hx, fun hn => absurd hn hx, fun _ => hd⟩
  · obtain ⟨t, he, u, hu, hfed⟩ := exec_data_feeds hn
    refine ⟨t, he, fun hl => ?_, fun hex ht hv hd hx hsh hc hw => ?_⟩
    · have hlive : u.loadsLive := fun n w hw => hl (n, w) (tget?_mem (State.sameArch_waves hu ▸ hw))
      obtain ⟨-, hm, hb, hc, hp⟩ := hfed.cells hlive
      exact ⟨hm.trans (State.sameArch_mem hu), hb.trans (State.sameArch_blocks hu), hc.trans (State.sameArch_ctxs hu),
        hp.trans (State.sameArch_poison hu)⟩
    · subst hex
      obtain ⟨t', he', hl⟩ := exec_data_fills hn ht hv hd hx hsh hc hw
      rw [Host.Outcome.next.inj (he.symm.trans he')]
      exact hl
  · obtain ⟨t, he, hf, hp, hs⟩ := exec_xdone_clears hn
    exact ⟨t, he, hf, hp, fun y hy _ => hs y hy⟩

end Sys2Proof.Machine

namespace Sys2Proof.Machine
open Sys2Proof.Claims

/-! Management commands on the package (R424, R427). -/

/-- On a free path a command does what it does, and its replies leave. -/
theorem State.command_replies {s : State} (h : commandsTaken s) (d : Done) : s.command (some d) = .next (emitAll d.state d.replies) := by
  obtain ⟨hup, hjob⟩ := h
  rw [State.command, hup, hjob]; rfl

section
variable {s : State} (ht : commandsTaken s)
include ht

theorem exec_mgmtMemoryRegion_sets {i : Nat} (hi : i < 4096) (e : BitVec 192) : exec (.mgmtMemoryRegion i e) s =
    .next { s with nd := { s.nd with regions := tset s.nd.regions i (e &&& regionMask) } } := by
  rw [exec_mgmtMemoryRegion, execMgmtMemoryRegion, State.setRegion, if_neg (by omega), State.command_some ht]

theorem exec_mgmtPowerCap_sets {w : Nat} (hmin : 1000 ≤ w) (hmax : w ≤ 5000) : exec (.mgmtPowerCap w) s =
    .next { s with power := { s.power with cap := w } } := by
  rw [exec_mgmtPowerCap, execMgmtPowerCap, State.setCap, if_neg (by simp; omega), State.command_some ht]

theorem exec_mgmtRaiseSvn_raises {v : Nat} (hmin : s.nd.svn ≤ v) (hmax : v ≤ 255) : exec (.mgmtRaiseSvn v) s =
    .next { s with nd := { s.nd with svn := v } } := by
  rw [exec_mgmtRaiseSvn, execMgmtRaiseSvn, State.raiseSvn, if_neg (by simp; omega), State.command_some ht]

theorem exec_mgmtWarmReset_asks {die : Nat} {u : State} (hu : s.askReset die = some u) : exec (.mgmtWarmReset die) s = .next u := by
  rw [exec_mgmtWarmReset, execMgmtWarmReset, State.warmReset, hu, Option.map_some, State.command_some ht]

theorem exec_mgmtReadDrydown_replies {unit first count : Nat} (hu : dryUnit unit = true) (hf : first < 4096) (hc : count ≤ 4096)
    (r : ReplyTo) : exec (.mgmtReadDrydown unit first count r) s = .next (emitAll s (replyParts r ((tgetD s.dry unit {}).header unit ++
      (List.range count).flatMap (fun i => (tgetD (tgetD s.dry unit {}).slots ((first + i) % 4096) {}).image)))) := by
  rw [exec_mgmtReadDrydown, execMgmtReadDrydown, State.readDrydown, if_neg (by simp [hu]; omega), State.command_replies ht]

theorem exec_mgmtAttest_replies (hb : s.nd.bootFailed = false) (nonce : BitVec 256) (r : ReplyTo) : exec (.mgmtAttest nonce r) s =
    .next (emitAll s (replyParts r (reportBody s nonce))) := by
  rw [exec_mgmtAttest, execMgmtAttest, if_neg (by simp [hb]), State.attest, State.command_replies ht]; rfl

end

/-- A package whose boot has failed still attests (R423). -/
theorem exec_mgmtAttest_failedBoot {s : State} (hb : s.nd.bootFailed = true) (nonce : BitVec 256) (r : ReplyTo) :
    exec (.mgmtAttest nonce r) s = .next (emitAll s (replyParts r (reportBody s nonce))) := by
  rw [exec_mgmtAttest, execMgmtAttest, if_pos hb]; rfl

/-! The records of a management frame (R425, R426). -/

/-- The acknowledgement just filed is among those kept. -/
theorem tget?_keepAck (acks : Tbl (List Byte)) (seq : Nat) (a : List Byte) : tget? (keepAck acks seq a) seq = some a := by
  rw [keepAck, tget?_filter_key (fun n => decide (seq < n + 64)), if_pos (by simp), tget?_tset_same]

theorem State.runJob_waits {s : State} {j : MgmtJob} {w : JobWait} (hw : j.waits = some w) (ho : s.waitOver w = false) (n : Nat) :
    s.runJob j (n + 1) = s.modNd (fun x => { x with job := some j }) := by
  rw [State.runJob, if_pos (by simp [hw, ho])]

section
variable {s : State} {j : MgmtJob} (hw : j.waits = none)
include hw

theorem State.runJob_ends (hl : frameEntries j.payload ≤ j.statuses.length) (n : Nat) : s.runJob j (n + 1) = s.endJob j := by
  rw [State.runJob, if_neg (by simp [hw]), if_pos hl]

theorem State.runJob_refused (hl : j.statuses.length < frameEntries j.payload)
    (hr : s.performRecord ⟨j.source, recField j.payload 8 8, j.statuses.length⟩ (frameRecord j.payload j.statuses.length) = none) (n : Nat) :
    s.runJob j (n + 1) = s.runJob { j with statuses := j.statuses ++ [0x10], waits := none } n := by
  rw [State.runJob, if_neg (by simp [hw]), if_neg (by omega)]
  simp only [hr]

theorem State.runJob_performs {d : Done} (hl : j.statuses.length < frameEntries j.payload)
    (hr : s.performRecord ⟨j.source, recField j.payload 8 8, j.statuses.length⟩ (frameRecord j.payload j.statuses.length) = some d) (n : Nat) :
    s.runJob j (n + 1) = d.state.runJob { j with statuses := j.statuses ++ [0], waits := d.waits, replies := j.replies ++ d.replies } n := by
  rw [State.runJob, if_neg (by simp [hw]), if_neg (by omega)]
  simp only [hr]

end

/-- A frame is over: its acknowledgement is kept, and leaves before the replies. -/
theorem State.endJob_acks (s : State) (j : MgmtJob) : ∃ v : State,
    s.endJob j = emitAll v (.datagram j.source (ackBytes j.payload (j.statuses.map (fun x => (0, x)))) :: j.replies) ∧
      v.nd.lastSeq = s.nd.lastSeq ∧
      tget? v.nd.acks (recField j.payload 8 8) = some (ackBytes j.payload (j.statuses.map (fun x => (0, x)))) ∧
      ({ v with nd := s.nd } : State) = s :=
  ⟨_, rfl, rfl, tget?_keepAck _ _ _, rfl⟩

section
variable {s : State} {source : Nat} {p : List Byte} (hone : frameEntries p = 1)
include hone

theorem State.runJob_oneRefused (hr : s.performRecord ⟨source, recField p 8 8, 0⟩ (frameRecord p 0) = none) :
    s.runJob { source := source, payload := p } 65 = s.endJob { source := source, payload := p, statuses := [0x10] } := by
  rw [State.runJob_refused (j := { source := source, payload := p }) rfl (hone ▸ Nat.one_pos) hr 64]
  exact State.runJob_ends (j := { source := source, payload := p, statuses := [0x10] }) rfl hone.le 63

section
variable {d : Done} (hr : s.performRecord ⟨source, recField p 8 8, 0⟩ (frameRecord p 0) = some d)
include hr

theorem State.runJob_onePerformed (hd : d.waits = none) : s.runJob { source := source, payload := p } 65 =
    d.state.endJob { source := source, payload := p, statuses := [0], replies := d.replies } := by
  rw [State.runJob_performs (j := { source := source, payload := p }) rfl (hone ▸ Nat.one_pos) hr 64, hd]
  exact State.runJob_ends (j := { source := source, payload := p, statuses := [0], replies := d.replies }) rfl hone.le 63

theorem State.runJob_oneWaits {w : JobWait} (hd : d.waits = some w) (ho : d.state.waitOver w = false) :
    s.runJob { source := source, payload := p } 65 = d.state.modNd (fun x => { x with
      job := some { source := source, payload := p, statuses := [0], waits := some w, replies := d.replies } }) := by
  rw [State.runJob_performs (j := { source := source, payload := p }) rfl (hone ▸ Nat.one_pos) hr 64, hd]
  exact State.runJob_waits rfl ho 63

end
end

/-! Management frames (R332 to R334, R425). -/

/-- The key that authenticates a management frame: a context number other than 0 names none. -/
def mgmtFrameKey (s : State) (p : List Byte) : Option (BitVec 256) := if recField p 5 1 = 0 then some s.nd.mgmtKey else none

section
variable {s : State} (source : Nat) {p : List Byte} (hup : s.portUp = true) (htype : recField p 7 1 = 1)

theorem exec_managementFrame_long (hlen : 9216 < p.length) : exec (.managementFrame source p) s = .next s := by
  rw [exec_managementFrame, execManagementFrame, if_pos (by simp [frameLimit, hlen])]

include hup htype

theorem exec_managementFrame_queued (hlen : p.length ≤ 9216) (hbusy : s.nd.job ≠ none ∨ s.nd.frames ≠ []) :
    exec (.managementFrame source p) s = .next { s with nd := { s.nd with frames := s.nd.frames ++ [(source, p)] } } := by
  rw [exec_managementFrame, execManagementFrame, if_neg (by simp [hup, htype, frameLimit, Nat.not_lt.2 hlen]),
    if_pos (by simpa [Option.isSome_iff_ne_none] using hbusy)]
  rfl

theorem exec_managementFrame_starts (hlen : p.length ≤ 9216) (hjob : s.nd.job = none) (hframes : s.nd.frames = []) :
    exec (.managementFrame source p) s = .next (s.startFrame source p) := by
  rw [exec_managementFrame, execManagementFrame, if_neg (by simp [hup, htype, frameLimit, Nat.not_lt.2 hlen]), if_neg (by simp [hjob, hframes])]

end

theorem State.startFrame_refused {s : State} {p a : List Byte}
    (h : frameRefused p (mgmtFrameKey s p) "ILRUS-MGMT" s.nd.lastSeq s.nd.acks = some a) (source : Nat) :
    s.startFrame source p = s.emit (.datagram source a) := by
  unfold mgmtFrameKey at h
  simp only [State.startFrame, h]

theorem State.startFrame_accepted {s : State} {p : List Byte}
    (h : frameRefused p (mgmtFrameKey s p) "ILRUS-MGMT" s.nd.lastSeq s.nd.acks = none) (source : Nat) :
    s.startFrame source p =
      ({ s with nd := { s.nd with lastSeq := recField p 8 8 } } : State).runJob { source := source, payload := p } 65 := by
  unfold mgmtFrameKey at h
  simp only [State.startFrame, h]
  rfl

/-- Settles O51: each command, then a frame by whether it waits, is refused or is performed. -/
theorem packageCommands : Obligations.PackageCommands := by
  refine fun s => ⟨fun ht => ⟨fun i e hi => exec_mgmtMemoryRegion_sets ht hi e, fun w => exec_mgmtPowerCap_sets ht,
    fun v => exec_mgmtRaiseSvn_raises ht, fun die u => exec_mgmtWarmReset_asks ht,
    fun unit first count r hu hf hc => exec_mgmtReadDrydown_replies ht hu hf hc r,
    fun nonce r hb => exec_mgmtAttest_replies ht hb nonce r⟩, fun nonce r hb => exec_mgmtAttest_failedBoot hb nonce r, ?_⟩
  intro source p hup htype key seq u
  refine ⟨exec_managementFrame_long source, exec_managementFrame_queued source hup htype, fun hlen hjob hframes => ?_⟩
  rw [exec_managementFrame_starts source hup htype hlen hjob hframes]
  refine ⟨fun a ha => by rw [State.startFrame_refused ha], fun ha hone => ?_⟩
  rw [State.startFrame_accepted ha]
  refine ⟨fun hr => ?_, fun d hr => ⟨fun hd => ?_, fun w hd ho => ?_⟩⟩
  · rw [State.runJob_oneRefused hone hr]
    obtain ⟨v, hend, hseq, hack, hframe⟩ := u.endJob_acks { source := source, payload := p, statuses := [0x10] }
    exact ⟨v, congrArg _ hend, hseq, hack, (congrArg (fun x : State => ({ x with nd := s.nd } : State)) hframe :)⟩
  · rw [State.runJob_onePerformed hone hr hd]
    obtain ⟨v, hend, -, -, hframe⟩ := d.state.endJob_acks { source := source, payload := p, statuses := [0], replies := d.replies }
    exact ⟨v, congrArg _ hend, hframe⟩
  · rw [State.runJob_oneWaits hone hr hd ho]
    exact ⟨_, rfl, rfl, rfl⟩

end Sys2Proof.Machine

namespace Sys2Proof.Machine
open Sys2Proof.Claims

/-! Code-line fills read through the slice path (R364). -/

section
variable {s u : State}

theorem State.Shelved.trans {v : State} (h : s.Shelved u) (hv : u.Shelved v) : s.Shelved v :=
  ⟨Eq.trans (congrArg (fun x : State => ({ x with clusters := s.clusters, stackTbl := s.stackTbl, net := s.net } : State)) hv.rest :) h.rest⟩
theorem State.Shelved.enterSlice (h : s.Shelved u) (core line : Nat) (ks : List Nat) (counts : Bool) :
    s.Shelved (u.enterSlice core line ks counts) := by
  unfold State.enterSlice; extract_lets; split
  · exact (h.setCopy _ _ _).touchCopy _ _ _
  split
  · exact h
  · exact h.placeCopy _ _ _ _
theorem State.Posted.askCopies (h : s.Posted u) (core ctx line : Nat) (ks : List Nat) : s.Posted (u.askCopies core ctx line ks) := by
  refine h.foldl (fun v k hv => ?_) _
  split
  · rw [State.askCopy]; split
    · exact hv
    · exact hv.send _
  · exact hv

theorem transportFrame.shelved {t : State} (hu : transportFrame s u) (h : u.Shelved t) : transportFrame s t := by
  have hr := congrArg (fun x : State => ({ x with
    cores := s.cores, clusters := s.clusters, stackTbl := s.stackTbl, homes := s.homes, net := s.net, waiting := s.waiting,
    fabric := { x.fabric with dataFrom := s.fabric.dataFrom } } : State)) h.rest
  exact Eq.trans hr hu

end

/-- The state after a read, whether it was served or not. -/
def Served.after : Served → State
  | .yes _ u => u
  | .notYet u => u

theorem State.codeRead_shelved (s : State) (core ctx line : Nat) : s.Shelved (s.codeRead core ctx line).after := by
  unfold State.codeRead; extract_lets ks; split
  · exact (State.Shelved.refl s).enterSlice _ _ _ _
  split
  · split
    · exact State.Shelved.refl s
    · exact State.Shelved.refl s
  · exact (State.Shelved.refl s).posted ((State.Posted.refl s).askCopies _ _ _ _)

/-- A fill changes no more than slices' lines, release tags and messages before its line is installed. -/
theorem State.fillLines_shelved (s : State) (core ctx pa : Nat) : s.Shelved (s.fillLines core ctx pa).1 := by
  have ha := s.codeRead_shelved core ctx pa
  unfold State.fillLines
  split
  · rename_i u hu
    rw [hu] at ha; exact ha
  · rename_i a u hu
    rw [hu] at ha
    have hb := u.codeRead_shelved core ctx (pa + 64)
    split
    · rename_i v hv
      rw [hv] at hb; exact ha.trans hb
    · rename_i b v hv
      rw [hv] at hb; exact ha.trans hb

theorem State.core_installCode_other (s : State) {core k : Nat} (key : Nat) (bs : List Byte) (h : k ≠ core) :
    (s.installCode core key bs).core k = s.core k := by
  rw [State.installCode, State.core_modCore, if_neg h]
theorem State.icache_installCode (s : State) (core key : Nat) (bs : List Byte) :
    tget? ((s.installCode core key bs).core core).icache key = some bs := by
  rw [State.installCode, State.core_modCore, if_pos rfl, tget?_tset_same]

/-! Traps leave the cores alone (R90, R369, R372). -/

theorem State.cores_withdraw (s : State) : s.withdraw.cores = s.cores := by
  unfold State.withdraw
  split
  · split <;> rfl
  · rfl
  · rfl
theorem State.cores_markTaken (s : State) (t : TrapInfo) : (s.markTaken t).cores = s.cores := by
  unfold State.markTaken
  split <;> rfl
theorem State.cores_failLaunch (s : State) (l : Option Nat) : (s.failLaunch l).cores = s.cores := by cases l <;> rfl
theorem State.cores_reportFatal (s : State) (w : Wave) (t : TrapInfo) (resume : Dword) : (s.reportFatal w t resume).cores = s.cores := by
  simp only [State.reportFatal, State.modCtx_cores, State.logDry, State.memWrite_cores]
theorem State.cores_fatalTrap (s : State) (wid : Nat) (t : TrapInfo) (resume : Dword) : (s.fatalTrap wid t resume).cores = s.cores := by
  simp only [State.fatalTrap, State.cores_failLaunch, State.dropCarve, State.modCtx_cores, State.modWave_cores]
  exact List.foldlRecOn (motive := fun u : State => u.cores = s.cores) _ _ rfl (fun _ hu _ _ => (State.cores_reportFatal _ _ _ _).trans hu)
theorem State.cores_trapWave (s : State) (wid : Nat) (t : TrapInfo) (resume : Dword) : (s.trapWave wid t resume).cores = s.cores := by
  unfold State.trapWave
  extract_lets w tv s1
  have hs1 : s1.cores = s.cores := by unfold s1; split <;> rfl
  split
  · rw [State.cores_fatalTrap, hs1]
  · exact hs1
theorem State.cores_trapDeferred (s : State) (t : TrapInfo) : (s.trapDeferred t).cores = s.cores := by
  rw [State.trapDeferred, State.trapHere, State.cores_trapWave, State.cores_markTaken, State.modCur_cores, State.cores_withdraw]

theorem State.fetchTrap_traps (s : State) (wid : Nat) (t : TrapInfo) : ∃ v : State, s.fetchTrap wid t = .trap v ∧ v.cores = s.cores := by
  unfold State.fetchTrap
  split
  · exact ⟨_, rfl, s.cores_trapDeferred _⟩
  · exact ⟨_, rfl, State.cores_trapWave _ _ _ _⟩

theorem State.cores_fillFault (s : State) (wid line cause detail : Nat) : (s.fillFault wid line cause detail).cores = s.cores := by
  unfold State.fillFault
  split
  · rfl
  extract_lets w s1 w1 sp acc q u a
  obtain ⟨v, hv, hc⟩ := u.fetchTrap_traps wid (u.info cause detail (if a.toNat / 128 * 128 = line then a else BitVec.ofNat 64 line))
  rw [hv]
  exact hc

theorem State.cores_logCodePoison (s : State) (core ctx pa : Nat) (vs : List LineView) : (s.logCodePoison core ctx pa vs).cores = s.cores := by
  rw [State.logCodePoison]; split <;> rfl

/-! ICACHE_FILL (R364, R365). -/

/-- What a fill that nothing holds back does. -/
def State.fillLine (s : State) (core ctx line wave : Nat) : State :=
  match s.enginePlace ctx (BitVec.ofNat 64 line) .fetch with
  | .error e => s.fillFault wave line e.cause e.detail
  | .ok pa => match s.fillLines core ctx pa with
    | (u, none) => u.send (.icacheFill core ctx line wave)
    | (u, some vs) => match u.fillCheck ctx (BitVec.ofNat 64 line) vs with
      | .ok bs => u.installCode core (codeKeyOf ctx (BitVec.ofNat 64 line)) bs
      | .error (cause, detail) => (u.logCodePoison core ctx pa vs).fillFault wave line cause detail

theorem exec_icacheFill_fills {s : State} {core ctx line wave : Nat} (hn : s.next? (.icacheFill core ctx line wave) = true)
    (hcarve : (s.ctx ctx).carveBusy = false ∨ (s.ctx ctx).carves.head? = some wave)
    (hwait : (arrived s (.icacheFill core ctx line wave)).engineWaits core ctx .fetch [BitVec.ofNat 64 line] = false) :
    exec (.icacheFill core ctx line wave) s = .next ((arrived s (.icacheFill core ctx line wave)).fillLine core ctx line wave) := by
  have hfree : ¬ ((s.ctx ctx).carveBusy && (s.ctx ctx).carves.head? != some wave) = true := by
    rcases hcarve with h | h <;> simp [h]
  rw [exec_icacheFill, execIcacheFill, State.arrive_next hn]
  exact congrArg _ ((if_neg hfree).trans (if_neg (by rw [hwait]; exact Bool.false_ne_true)))

section
variable {s : State} {core ctx line : Nat} (wave : Nat)

theorem State.fillLine_unplaced {e : XFault} (hp : s.enginePlace ctx (BitVec.ofNat 64 line) .fetch = .error e) :
    (s.fillLine core ctx line wave).cores = s.cores := by
  simp only [State.fillLine, hp]
  exact s.cores_fillFault _ _ _ _

variable {pa : Nat} (hp : s.enginePlace ctx (BitVec.ofNat 64 line) .fetch = .ok pa)
include hp

theorem State.fillLine_waits {v : State} (hf : s.fillLines core ctx pa = (v, none)) :
    s.fillLine core ctx line wave = v.send (.icacheFill core ctx line wave) := by
  simp only [State.fillLine, hp, hf]

variable {v : State} {vs : List LineView} (hf : s.fillLines core ctx pa = (v, some vs))
include hf

theorem State.fillLine_matches {bs : List Byte} (hc : v.fillCheck ctx (BitVec.ofNat 64 line) vs = .ok bs) :
    s.fillLine core ctx line wave = v.installCode core (codeKeyOf ctx (BitVec.ofNat 64 line)) bs := by
  simp only [State.fillLine, hp, hf, hc]

theorem State.fillLine_mismatches {e : Nat × Nat} (hc : v.fillCheck ctx (BitVec.ofNat 64 line) vs = .error e) :
    (s.fillLine core ctx line wave).cores = s.cores := by
  have hv : s.Shelved v := by have h := s.fillLines_shelved core ctx pa; rwa [hf] at h
  simp only [State.fillLine, hp, hf, hc]
  rw [State.cores_fillFault, State.cores_logCodePoison, hv.cores]

end

section
variable {s : State} {core ctx line wave : Nat} (hn : s.next? (.icacheFill core ctx line wave) = true)
  (hcarve : (s.ctx ctx).carveBusy = false ∨ (s.ctx ctx).carves.head? = some wave)
  (hwait : (arrived s (.icacheFill core ctx line wave)).engineWaits core ctx .fetch [BitVec.ofNat 64 line] = false)
include hn hcarve hwait

/-- A fill that leaves the cores alone installs nothing. -/
theorem exec_icacheFill_installsNone (hc : ((arrived s (.icacheFill core ctx line wave)).fillLine core ctx line wave).cores = s.cores) :
    ∃ t : State, exec (.icacheFill core ctx line wave) s = .next t ∧ ∀ k, (t.core k).icache = (s.core k).icache :=
  ⟨_, exec_icacheFill_fills hn hcarve hwait, fun k => by rw [State.core, hc]; rfl⟩

variable {pa : Nat} {v : State}
  (hp : (arrived s (.icacheFill core ctx line wave)).enginePlace ctx (BitVec.ofNat 64 line) .fetch = .ok pa)
include hp

/-- A fill whose lines are not at hand comes up again. -/
theorem exec_icacheFill_repeats (hf : (arrived s (.icacheFill core ctx line wave)).fillLines core ctx pa = (v, none)) : ∃ t : State,
    exec (.icacheFill core ctx line wave) s = .next t ∧ transportFrame s t ∧ .icacheFill core ctx line wave ∈ t.net := by
  have hv := (arrived s (.icacheFill core ctx line wave)).fillLines_shelved core ctx pa
  rw [hf] at hv
  refine ⟨_, exec_icacheFill_fills hn hcarve hwait, ?_⟩
  rw [State.fillLine_waits wave hp hf]
  exact ⟨transportFrame.shelved (transportFrame_arrived s _) (hv.posted ((State.Posted.refl v).send _)), v.mem_net_send _⟩

/-- A fill whose tag matches is installed in its core. -/
theorem exec_icacheFill_installs {vs : List LineView} {bs : List Byte}
    (hf : (arrived s (.icacheFill core ctx line wave)).fillLines core ctx pa = (v, some vs))
    (hc : v.fillCheck ctx (BitVec.ofNat 64 line) vs = .ok bs) : ∃ t : State, exec (.icacheFill core ctx line wave) s = .next t ∧
      transportFrame s t ∧ tget? (t.core core).icache (codeKeyOf ctx (BitVec.ofNat 64 line)) = some bs ∧
      ∀ k, k ≠ core → (t.core k).icache = (s.core k).icache := by
  have hv := (arrived s (.icacheFill core ctx line wave)).fillLines_shelved core ctx pa
  rw [hf] at hv
  refine ⟨_, exec_icacheFill_fills hn hcarve hwait, ?_⟩
  rw [State.fillLine_matches wave hp hf hc]
  refine ⟨?_, v.icache_installCode _ _ _, fun k hk => ?_⟩
  · exact transportFrame.sameArch (transportFrame.shelved (transportFrame_arrived s _) hv) (State.modCore_same _ _ _ v.sameArch_refl)
  · rw [v.core_installCode_other _ _ hk, hv.core]; rfl

end

end Sys2Proof.Machine

namespace Sys2Proof.Machine
open Sys2Proof.Claims

/-! Wait words (R280, R338). -/

theorem State.sameArch_launches {s u : State} (h : s.sameArch u) : u.launches = s.launches := (congrArg State.launches h.rest :)
theorem State.sameArch_out {s u : State} (h : s.sameArch u) : u.out = s.out := (congrArg State.out h.rest :)
theorem State.launch_congr {s u : State} (h : u.launches = s.launches) (k : Nat) : u.launch k = s.launch k := by
  rw [State.launch, h]; rfl

theorem exec_waitWordPoll_reads {s : State} {ctx q k : Nat} {rest : List Nat} (hq : ((s.ctx ctx).queue q).pending = k :: rest)
    (hr : (s.launch k).ready = false) : exec (.waitWordPoll ctx q) s = .next ((s.readWaits k).runIfReady s ctx) := by
  simp only [exec_waitWordPoll, execWaitWordPoll, hq, hr, Bool.false_eq_true, if_false]

theorem State.readWaits_held {s : State} {k : Nat} (h : (s.waitLines (s.launch k)).any s.homeWaits = true) : s.readWaits k = s := by
  rw [State.readWaits]
  exact if_pos (by rw [h, Bool.or_true])

section
variable {s : State} {k : Nat} (hr : (s.launch k).ready = false) (hf : (s.launch k).failed = false)
  (hh : (s.waitLines (s.launch k)).any s.homeWaits = false)
include hr hf hh

/-- Narrower releases of the wait words' lines are published first. -/
theorem State.readWaits_asks (ht : (s.waitLines (s.launch k)).flatMap s.tagsOf ≠ []) : transportFrame s (s.readWaits k) := by
  unfold State.readWaits
  extract_lets l lines tags
  rw [if_neg (by rw [hr, hf, hh]; decide), if_pos (by rw [Bool.not_eq_true', List.isEmpty_eq_false_iff]; exact ht)]
  exact transportFrame_of_sameArch (foldl_same _ (fun u t hu => State.askFpub_same _ _ _ _ _ hu) _ _ s.sameArch_refl)

variable (hlive : (tget? s.launches k).isSome = true)
include hlive

/-- The wait words make their launch ready, leave it waiting or fail it. -/
theorem State.readWaits_settles (ht : (s.waitLines (s.launch k)).flatMap s.tagsOf = []) :
    ((s.readWaits k).launch k).ready = (s.waits (s.launch k) == .ready) ∧ (s.readWaits k).mem = s.mem ∧
      (s.readWaits k).waves = s.waves ∧
      (((s.readWaits k).launch k).failed = true ↔ s.waits (s.launch k) ≠ .ready ∧ s.waits (s.launch k) ≠ .waiting) := by
  unfold State.readWaits
  extract_lets l lines tags
  rw [if_neg (by rw [hr, hf, hh]; decide), if_neg (by rw [show tags = [] from ht]; decide)]
  split
  · rename_i hw
    have hs : s.sameArch (lines.foldl (fun (u : State) x => u.publishLine x) s) :=
      foldl_same _ (fun u x hu => State.publishLine_same _ _ hu) _ _ s.sameArch_refl
    have hl := State.sameArch_launches hs
    rw [State.launch_modLaunch _ _ _ _ (by rw [hl]; exact hlive), if_pos rfl, State.launch_congr hl, show s.waits (s.launch k) = _ from hw]
    exact ⟨rfl, (State.sameArch_mem hs :), (State.sameArch_waves hs :), by simp [hf]⟩
  · rename_i hw
    rw [State.launch_congr (s := s) (u := s.modQueue l.ctx l.queue _) rfl, show s.waits (s.launch k) = _ from hw]
    exact ⟨hr, rfl, rfl, by simp [hf]⟩
  · rename_i hw
    rw [State.abandonLaunch, State.launch_modLaunch _ _ _ _ hlive, if_pos rfl, show s.waits (s.launch k) = _ from hw]
    exact ⟨hr, rfl, rfl, by simp⟩
  · rename_i hw
    rw [State.abandonLaunch, State.launch_modLaunch _ _ _ _ (by exact hlive), if_pos rfl, show s.waits (s.launch k) = _ from hw]
    exact ⟨hr, rfl, rfl, by simp⟩

end

/-! QUEUE_RESERVING (R341). -/

theorem State.queue_modQueue {s : State} {ctx : Nat} (h : (tget? s.ctxs ctx).isSome = true) (q n : Nat) (f : Queue → Queue) :
    ((s.modQueue ctx q f).ctx ctx).queue n = if n = q then f ((s.ctx ctx).queue q) else (s.ctx ctx).queue n := by
  rw [State.modQueue, State.ctx_modCtx _ _ _ _ h, if_pos rfl]
  exact tgetD_tset _ _ _ _ _

theorem exec_queueReserving_reserves {s : State} {ctx q k x : Nat} (hk : s.readyHead ctx q = some k)
    (hs : 64 ≤ ((s.ctx ctx).queue q).skips) (hr : ((s.ctx ctx).queue q).reserving = none)
    (hx : s.reserveUnit ctx (s.launch k) = some x) : exec (.queueReserving ctx q) s =
      .next (s.modQueue ctx q (fun y => { y with reserving := some ((s.launch k).coloc, x) })) := by
  simp only [exec_queueReserving, execQueueReserving, hk, hx, hr, Nat.not_lt.2 hs, decide_false, Option.isSome_none, Bool.or_self,
    Bool.false_eq_true, if_false]

/-! What leaves the package (R398, R401). -/

theorem State.emit_sent {s : State} {o : Out} (h : s.nd.holds o = false) : s.emit o = { s with out := s.out ++ [o] } := by
  rw [State.emit, h]; rfl
theorem State.emit_held {s : State} {o : Out} (h : s.nd.holds o = true) :
    s.emit o = { s with nd := { s.nd with heldOut := s.nd.heldOut ++ [o] } } := if_pos h
/-- What leaves the package is no change within it. -/
theorem State.emit_frame (s : State) (o : Out) : ({ s.emit o with nd := s.nd, out := s.out } : State) = s := by
  rw [State.emit]; split <;> rfl

theorem State.sendNotice_none {s : State} {l : Launch} (h : l.notice = 0) (lost : Bool) : s.sendNotice l lost = s := if_pos h
theorem State.sendNotice_sends {s : State} {l : Launch} {qp : Nat} (h : l.notice ≠ 0) (hq : (s.ctx l.ctx).noticeQp = some qp)
    (he : s.nd.qpError.contains qp = false) (lost : Bool) :
    s.sendNotice l lost = s.emit (.notice qp l.notice (noticeBytes l lost s.timeNs)) := by
  simp only [State.sendNotice, if_neg h, hq, he, Bool.false_eq_true, if_false]
theorem State.sendNotice_frame (s : State) (l : Launch) (lost : Bool) :
    ({ s.sendNotice l lost with ctxs := s.ctxs, nd := s.nd, out := s.out } : State) = s := by
  have hemit (u : State) (o : Out) (hu : ({ u with ctxs := s.ctxs } : State) = s) :
      ({ u.emit o with ctxs := s.ctxs, nd := s.nd, out := s.out } : State) = s := by
    have hr := congrArg (fun x : State => ({ x with ctxs := s.ctxs, nd := s.nd, out := s.out } : State)) (u.emit_frame o)
    exact Eq.trans hr (congrArg (fun x : State => ({ x with nd := s.nd, out := s.out } : State)) hu :)
  unfold State.sendNotice
  split
  · rfl
  split
  · split
    · exact hemit _ _ rfl
    · exact hemit _ _ rfl
  · exact hemit _ _ rfl

/-! A word written at package scope (R277, R316). -/

section
variable {s : State} {pa : Nat} (hc : s.counter (lineOf pa) = none) {bs : List Byte}
  (hd : ∀ k, k < bs.length → s.deviceByte (pa + k) = false)
include hc hd

theorem State.mem_publish : (s.publish pa bs).mem = memPut s.mem pa bs := by
  obtain ⟨P, N, W, -, hw⟩ := State.writeOwned_eq hd hc
  rw [State.publish, State.sameArch_mem (State.publishLine_same _ _ (State.sameArch_refl _)), hw]
theorem State.caches_publish : (s.publish pa bs).caches = s.caches := by
  obtain ⟨P, N, W, -, hw⟩ := State.writeOwned_eq hd hc
  have h := (State.publishLine_same (s.writeOwned pa bs) (lineOf pa) (State.sameArch_refl _)).rest
  rw [State.publish, (congrArg State.caches h :), hw]

end

section
variable {s : State} {pa : Nat} (hc : s.counter (lineOf pa) = none) (hd : ∀ a, pa ≤ a → a < pa + 8 → s.deviceByte a = false)
include hc hd

theorem State.memNat_publish {v : Nat} (hv : v < 2 ^ 64) : memNat (s.publish pa (leBytes 8 v)).mem pa 8 = v := by
  have hplain : ∀ k, k < (leBytes 8 v).length → s.deviceByte (pa + k) = false := fun k hk =>
    hd _ (Nat.le_add_right _ _) (by rw [leBytes_length] at hk; omega)
  have h := memNat_of_bytes (m := (s.publish pa (leBytes 8 v)).mem) (a := pa) (leBytes 8 v) (fun k hk => by
    rw [State.mem_publish hc hplain, memByte_memPut_inside _ _ _ _ hk])
  rw [leBytes_length, leNat_leBytes] at h
  rw [h, Nat.mod_eq_of_lt (by omega)]

end

theorem State.memByte_publish_word {s : State} {pa : Nat} (hc : s.counter (lineOf pa) = none) (v : Nat) {a : Nat} (ha : a < pa ∨ pa + 8 ≤ a) :
    memByte (s.publish pa (leBytes 8 v)).mem a = memByte s.mem a :=
  State.memByte_publish_outside hc (by rwa [leBytes_length])

/-! Where an engine's access lies (R277, R377). -/

/-- Where an engine's access lies depends on DRAM, the contexts and the homes that are lost alone. -/
theorem State.enginePlace_congr {s u : State} (hm : u.mem = s.mem) (hc : u.ctxs = s.ctxs) (hd : u.dead = s.dead) (ho : u.offline = s.offline)
    (ctx : Nat) (va : Dword) (a : Access) : u.enginePlace ctx va a = s.enginePlace ctx va a := by
  simp only [State.enginePlace, State.xlateWalk, State.walk, State.homeLost, State.ctx, hm, hc, hd, ho]
  <;> rfl

@[simp] theorem State.enginePlace_modLaunch (s : State) (k : Nat) (f : Launch → Launch) (ctx : Nat) (va : Dword) (a : Access) :
    (s.modLaunch k f).enginePlace ctx va a = s.enginePlace ctx va a :=
  State.enginePlace_congr (s := s) (u := s.modLaunch k f) rfl rfl rfl rfl _ _ _
@[simp] theorem State.enginePlace_arrived (s : State) (i : Instr) (ctx : Nat) (va : Dword) (a : Access) :
    (arrived s i).enginePlace ctx va a = s.enginePlace ctx va a :=
  State.enginePlace_congr (s := s) (u := arrived s i) rfl rfl rfl rfl _ _ _
theorem State.signalWaits_modLaunch (s : State) (k : Nat) (f : Launch → Launch) (l : Launch) :
    (s.modLaunch k f).signalWaits l = s.signalWaits l := by
  simp only [State.signalWaits, State.enginePlace_modLaunch]
  rfl

/-! LAUNCH_DRAIN (R280, R337, R401). -/

/-- The event word after a signal is a word. -/
theorem signalled_lt (e : Nat) (failed : Bool) : signalled e failed < 2 ^ 64 := by
  unfold signalled
  have hf : (if failed || decide (2 ^ 63 ≤ e) then 2 ^ 63 else 0) ≤ 2 ^ 63 := by split <;> omega
  omega

/-- It is known since when a launch has been over. -/
def State.notedOver (s : State) (k t : Nat) : State := s.modLaunch k (fun x => { x with overAt := some t })

theorem State.pressCtx_same (s : State) (ctx t : Nat) : s.sameArch (s.pressCtx ctx t) := by
  refine foldl_same _ (fun u k hu => ?_) _ _ s.sameArch_refl
  split
  · exact hu
  · exact State.startFence_same _ _ _ _ _ _ hu

section
variable {s : State} {k : Nat} {l : Launch} (hl : tget? s.launches k = some l) (hd : l.drained = false) (ho : s.launchOver k = true)
include hl hd ho

theorem exec_launchDrain_presses (hs : s.shownCtx l.ctx (l.overAt.getD s.clk) = false) : exec (.launchDrain k) s =
    .next ((s.notedOver k (l.overAt.getD s.clk)).pressCtx l.ctx (l.overAt.getD s.clk)) := by
  rw [exec_launchDrain, execLaunchDrain, hl]
  exact (if_neg (by rw [hd, ho]; decide)).trans (if_pos (by rw [Bool.not_eq_true']; exact hs))

variable (hs : s.shownCtx l.ctx (l.overAt.getD s.clk) = true)
include hs

theorem exec_launchDrain_waits (hw : s.signalWaits l = true) : exec (.launchDrain k) s = .next (s.notedOver k (l.overAt.getD s.clk)) := by
  rw [exec_launchDrain, execLaunchDrain, hl]
  refine (if_neg (by rw [hd, ho]; decide)).trans ((if_neg ?_).trans (if_pos ((State.signalWaits_modLaunch _ _ _ _).trans hw)))
  rw [Bool.not_eq_true', Bool.not_eq_false]
  exact hs

theorem exec_launchDrain_signals (hw : s.signalWaits l = false) {u : State} {lost : Bool}
    (hu : (s.notedOver k (l.overAt.getD s.clk)).signal l = (u, lost)) : exec (.launchDrain k) s =
      .next ((u.modLaunch k (fun x => { x with drained := true, siglost := lost })).sendNotice l lost) := by
  rw [exec_launchDrain, execLaunchDrain, hl]
  refine (if_neg (by rw [hd, ho]; decide)).trans ((if_neg ?_).trans ((if_neg ?_).trans ?_))
  · rw [Bool.not_eq_true', Bool.not_eq_false]
    exact hs
  · rw [Bool.not_eq_true]
    exact (State.signalWaits_modLaunch _ _ _ _).trans hw
  · unfold State.notedOver at hu
    rw [hu]

theorem exec_launchDrain_goesOn : ∃ t : State, exec (.launchDrain k) s = .next t := by
  cases hw : s.signalWaits l with
  | true => exact ⟨_, exec_launchDrain_waits hl hd ho hs hw⟩
  | false => exact ⟨_, exec_launchDrain_signals hl hd ho hs hw rfl⟩

end

theorem State.launch_modLaunch_same {s : State} {k : Nat} {l : Launch} (hl : tget? s.launches k = some l) (f : Launch → Launch) :
    (s.modLaunch k f).launch k = f l := by
  rw [State.launch_modLaunch _ _ _ _ (by rw [hl]; rfl), if_pos rfl, State.launch, tgetD, hl]; rfl

/-- A launch whose context's writes are still to be seen presses them and stays. -/
theorem exec_launchDrain_unseen {s : State} {k : Nat} {l : Launch} (hl : tget? s.launches k = some l) (hd : l.drained = false)
    (ho : s.launchOver k = true) (hs : s.shownCtx l.ctx (l.overAt.getD s.clk) = false) : ∃ t : State, exec (.launchDrain k) s = .next t ∧
      (t.launch k).drained = false ∧ (t.launch k).overAt = some (l.overAt.getD s.clk) ∧ t.mem = s.mem ∧ t.out = s.out := by
  have hpress := (s.notedOver k (l.overAt.getD s.clk)).pressCtx_same l.ctx (l.overAt.getD s.clk)
  refine ⟨_, exec_launchDrain_presses hl hd ho hs, ?_, ?_, (State.sameArch_mem hpress :), (State.sameArch_out hpress :)⟩
  · rw [State.launch_congr (State.sameArch_launches hpress), State.notedOver, State.launch_modLaunch_same hl]
    exact hd
  · rw [State.launch_congr (State.sameArch_launches hpress), State.notedOver, State.launch_modLaunch_same hl]

section
variable {s : State} {k : Nat} {l : Launch} (hl : tget? s.launches k = some l) (hd : l.drained = false) (ho : s.launchOver k = true)
  (hs : s.shownCtx l.ctx (l.overAt.getD s.clk) = true)
include hl hd ho hs

/-- A launch without a signal word drains at once, and gives its notice. -/
theorem exec_launchDrain_unsignalled (hsig : l.signal = 0) : ∃ t : State, exec (.launchDrain k) s = .next t ∧
    (t.launch k).drained = true ∧ (t.launch k).siglost = false ∧ t.mem = s.mem ∧ (l.notice = 0 → t.out = s.out) ∧
    ∀ qp, l.notice ≠ 0 → (s.ctx l.ctx).noticeQp = some qp → s.nd.qpError.contains qp = false →
      (s.nd.holds (.notice qp l.notice (noticeBytes l false s.timeNs)) = false →
        t.out = s.out ++ [.notice qp l.notice (noticeBytes l false s.timeNs)]) ∧
      (s.nd.holds (.notice qp l.notice (noticeBytes l false s.timeNs)) = true →
        t.nd.heldOut = s.nd.heldOut ++ [.notice qp l.notice (noticeBytes l false s.timeNs)]) := by
  let u := (s.notedOver k (l.overAt.getD s.clk)).modLaunch k (fun x => { x with drained := true, siglost := false })
  have hnoted : tget? (s.notedOver k (l.overAt.getD s.clk)).launches k = some { l with overAt := some (l.overAt.getD s.clk) } := by
    show tget? (tmodify s.launches k _) k = _
    rw [tget?_tmodify, if_pos rfl, hl]; rfl
  have hkept := u.sendNotice_frame l false
  have hsent (qp : Nat) (hz : l.notice ≠ 0) (hq : (s.ctx l.ctx).noticeQp = some qp) (he : s.nd.qpError.contains qp = false) :
      u.sendNotice l false = u.emit (.notice qp l.notice (noticeBytes l false s.timeNs)) := State.sendNotice_sends (s := u) hz hq he false
  have hlaunch : (u.sendNotice l false).launch k = u.launch k := State.launch_congr (congrArg State.launches hkept :) k
  refine ⟨u.sendNotice l false, exec_launchDrain_signals hl hd ho hs (by simp [State.signalWaits, hsig]) (if_pos hsig), ?_, ?_,
    (congrArg State.mem hkept :), fun hz => ?_, fun qp hz hq he => ⟨fun hh => ?_, fun hh => ?_⟩⟩
  · rw [hlaunch, State.launch_modLaunch_same hnoted]
  · rw [hlaunch, State.launch_modLaunch_same hnoted]
  · rw [State.sendNotice_none hz]; rfl
  · rw [hsent qp hz hq he, State.emit_sent (s := u) hh]; rfl
  · rw [hsent qp hz hq he, State.emit_held (s := u) hh]; rfl

/-- The signal of a launch counts in its event word, before the launch is drained and its notice leaves. -/
theorem exec_launchDrain_counts {pa : Nat} (hsig : l.signal ≠ 0) (hw : s.signalWaits l = false)
    (hp : s.enginePlace l.ctx l.signal .rmw = .ok pa) (hclean : s.poisonedAt pa = false) (hc : s.counter (lineOf pa) = none)
    (hdev : ∀ a, pa ≤ a → a < pa + 8 → s.deviceByte a = false) : ∃ u : State, exec (.launchDrain k) s =
      .next (((u.rereadWaits pa).modLaunch k (fun x => { x with drained := true, siglost := false })).sendNotice l false) ∧
      memNat u.mem pa 8 = signalled (memNat s.mem pa 8) l.failed ∧ ∀ a, (a < pa ∨ pa + 8 ≤ a) → memByte u.mem a = memByte s.mem a := by
  let v := s.notedOver k (l.overAt.getD s.clk)
  have hplace : v.enginePlace l.ctx l.signal .rmw = .ok pa := (State.enginePlace_modLaunch _ _ _ _ _ _).trans hp
  refine ⟨v.publish pa (leBytes 8 (signalled (memNat s.mem pa 8) l.failed)), exec_launchDrain_signals hl hd ho hs hw ?_, ?_, fun a ha => ?_⟩
  · rw [State.signal, if_neg hsig, hplace]
    exact if_neg (by rw [Bool.not_eq_true]; exact hclean)
  · exact State.memNat_publish (s := v) hc hdev (signalled_lt _ _)
  · exact State.memByte_publish_word (s := v) hc _ ha

end

end Sys2Proof.Machine

namespace Sys2Proof.Machine
open Sys2Proof.Claims

/-! LAUNCH_FRAME (R332 to R336). -/

/-- A frame that is accepted is no longer than the port carries (R332, R398). -/
theorem length_le_of_accepted {p : List Byte} {key : Option (BitVec 256)} {custom : String} {last : Nat} {acks : Tbl (List Byte)}
    (h : frameRefused p key custom last acks = none) : p.length ≤ 9216 := by
  unfold frameRefused at h
  extract_lets seq at h
  split at h
  · cases h
  · rename_i hgood
    simp only [frameBad, Bool.or_eq_true, not_or, decide_eq_true_eq, bne_iff_ne, ne_eq, not_not] at hgood
    obtain ⟨⟨⟨⟨⟨⟨⟨-, -⟩, hcount⟩, hlen⟩, -⟩, -⟩, -⟩, -⟩ := hgood
    omega

/-- Filing a record changes the launches and the queues of contexts alone, and every context stays. -/
structure State.Filed (s u : State) : Prop where
  rest : ({ u with ctxs := s.ctxs, launches := s.launches, nextLaunch := s.nextLaunch } : State) = s
  known : ∀ n, (tget? u.ctxs n).isSome = (tget? s.ctxs n).isSome

section
variable {s u : State} (h : s.Filed u)
include h

theorem State.Filed.mem : u.mem = s.mem := (congrArg State.mem h.rest :)
theorem State.Filed.waves : u.waves = s.waves := (congrArg State.waves h.rest :)
theorem State.Filed.cores : u.cores = s.cores := (congrArg State.cores h.rest :)
theorem State.Filed.nd : u.nd = s.nd := (congrArg State.nd h.rest :)
theorem State.Filed.out : u.out = s.out := (congrArg State.out h.rest :)

theorem State.Filed.modCtx (n : Nat) (f : Context → Context) : s.Filed (u.modCtx n f) :=
  ⟨h.rest, fun _ => (tget?_tmodify_isSome _ _ _ _).trans (h.known _)⟩

theorem State.Filed.fileRecord (n : Nat) (r : List Byte) : s.Filed (u.fileRecord n r).1 := by
  unfold State.fileRecord
  extract_lets l lid s1
  have hs1 : s.Filed s1 := ⟨h.rest, h.known⟩
  split
  · exact h
  split
  · exact h
  split
  · exact h
  · exact (hs1.modCtx _ _).modCtx _ _

end

theorem State.Filed.refl (s : State) : s.Filed s := ⟨rfl, fun _ => rfl⟩

theorem State.fileAll_concat (s : State) (n : Nat) (rs : List (List Byte)) (r : List Byte) : s.fileAll n (rs ++ [r]) =
    (((s.fileAll n rs).1.fileRecord n r).1, (s.fileAll n rs).2 ++ [((s.fileAll n rs).1.fileRecord n r).2]) := by
  rw [State.fileAll, List.foldl_append]; rfl

/-- The records of a frame are filed one by one, each with its entry. -/
theorem State.fileAll_filed (s : State) (n : Nat) (rs : List (List Byte)) :
    s.Filed (s.fileAll n rs).1 ∧ (s.fileAll n rs).2.length = rs.length := by
  induction rs using List.reverseRecOn with
  | nil => exact ⟨State.Filed.refl s, rfl⟩
  | append_singleton rs r ih =>
    obtain ⟨hfiled, hcount⟩ := ih
    rw [State.fileAll_concat]
    exact ⟨hfiled.fileRecord n r, by rw [List.length_append, List.length_append, hcount]; rfl⟩

section
variable {s : State} (source : Nat) {p : List Byte} (hup : s.portUp = true) (htype : recField p 7 1 ≠ 1)

theorem exec_launchFrame_long (hlen : 9216 < p.length) : exec (.launchFrame source p) s = .next s := by
  rw [exec_launchFrame, execLaunchFrame]
  exact if_pos (by simp [frameLimit, hlen])

include hup htype

theorem exec_launchFrame_refused (hlen : p.length ≤ 9216) {a : List Byte}
    (hr : frameRefused p ((tget? s.ctxs (recField p 5 1)).map (fun x => x.launchKey)) "ILRUS-LAUNCH" (s.ctx (recField p 5 1)).lastSeq
      (s.ctx (recField p 5 1)).acks = some a) : exec (.launchFrame source p) s = .next (s.emit (.datagram source a)) := by
  rw [exec_launchFrame, execLaunchFrame]
  refine (if_neg (by simp [hup, htype, frameLimit, Nat.not_lt.2 hlen])).trans ?_
  rw [hr]

/-- An accepted frame files its records, is acknowledged, and may set the dispatcher running. -/
theorem exec_launchFrame_files {c : Context} (hctx : tget? s.ctxs (recField p 5 1) = some c)
    (hr : frameRefused p (some c.launchKey) "ILRUS-LAUNCH" c.lastSeq c.acks = none) : ∃ (u : State) (es : List (Nat × Nat)),
      exec (.launchFrame source p) s = .next (u.runIfReady s (recField p 5 1)) ∧ es.length = frameEntries p ∧
      (s.nd.holds (.datagram source (ackBytes p es)) = false → u.out = s.out ++ [.datagram source (ackBytes p es)]) ∧
      (u.ctx (recField p 5 1)).lastSeq = recField p 8 8 ∧
      tget? (u.ctx (recField p 5 1)).acks (recField p 8 8) = some (ackBytes p es) ∧ u.mem = s.mem ∧ u.waves = s.waves ∧ u.cores = s.cores := by
  let n := recField p 5 1
  let rs := (List.range (frameEntries p)).map (frameRecord p)
  let es := (s.fileAll n rs).2
  let ack (x : Context) : Context := { x with lastSeq := recField p 8 8, acks := keepAck x.acks (recField p 8 8) (ackBytes p es) }
  let v := (s.fileAll n rs).1.modCtx n ack
  obtain ⟨hfiled, hcount⟩ := s.fileAll_filed n rs
  have hv : s.Filed v := hfiled.modCtx n ack
  have hack : v.ctx n = ack ((s.fileAll n rs).1.ctx n) :=
    (State.ctx_modCtx _ _ _ _ ((hfiled.known n).trans (by rw [show tget? s.ctxs n = some c from hctx]; rfl))).trans (if_pos rfl)
  have hframe := v.emit_frame (.datagram source (ackBytes p es))
  have hkept : (v.emit (.datagram source (ackBytes p es))).ctx n = v.ctx n :=
    (congrArg (fun x : State => x.ctx n) hframe :)
  refine ⟨v.emit (.datagram source (ackBytes p es)), es, ?_, hcount.trans (by simp [rs]), fun hh => ?_, ?_, ?_, ?_, ?_, ?_⟩
  · rw [exec_launchFrame, execLaunchFrame]
    refine (if_neg (by simp [hup, htype, frameLimit, Nat.not_lt.2 (length_le_of_accepted hr)])).trans ?_
    rw [State.ctx_of_some hctx, hctx, Option.map_some, hr]
  · rw [State.emit_sent (by rw [hv.nd]; exact hh), hv.out]
  · exact (congrArg Context.lastSeq (hkept.trans hack) :)
  · exact (congrArg (fun x : Context => tget? x.acks (recField p 8 8)) (hkept.trans hack)).trans (tget?_keepAck _ _ _)
  · exact (congrArg State.mem hframe :).trans hv.mem
  · exact (congrArg State.waves hframe :).trans hv.waves
  · exact (congrArg State.cores hframe :).trans hv.cores

end

end Sys2Proof.Machine

namespace Sys2Proof.Machine
open Sys2Proof.Claims

/-! Translation records (R357 to R360). -/

theorem exec_translationRequest_claims {s : State} {stack ctx rcd image pa : Nat}
    (hn : s.next? (.translationRequest stack ctx rcd image) = true) (hp : s.enginePlace ctx (BitVec.ofNat 64 rcd) .rmw = .ok pa)
    (hw : s.homeWaits (lineOf pa) = false) (hclean : s.poisonedAt pa = false) : exec (.translationRequest stack ctx rcd image) s =
      .next (if memNat s.mem pa 8 % 4 = 0
        then (arrived s (.translationRequest stack ctx rcd image)).publish pa (leBytes 8 (1 + image * 4 + stack * 256))
        else arrived s (.translationRequest stack ctx rcd image)) := by
  rw [exec_translationRequest, execTranslationRequest, hp]
  dsimp only
  rw [hw, State.arrive_next hn, if_neg Bool.false_ne_true]
  have habsent : ((arrived s (.translationRequest stack ctx rcd image)).poisonedAt pa ||
      memNat (arrived s (.translationRequest stack ctx rcd image)).mem pa 8 % 4 != 0) = (memNat s.mem pa 8 % 4 != 0) := by
    show (s.poisonedAt pa || memNat s.mem pa 8 % 4 != 0) = _
    rw [hclean, Bool.false_or]
  rw [habsent]
  by_cases hst : memNat s.mem pa 8 % 4 = 0
  · rw [if_pos hst, if_neg (by simp [hst])]
  · rw [if_neg hst, if_pos (by simpa using hst)]

/-- A request claims a record that is ABSENT, and leaves another as it is. -/
theorem exec_translationRequest_word {s : State} {stack ctx rcd image pa : Nat}
    (hn : s.next? (.translationRequest stack ctx rcd image) = true) (hstack : stack < 8) (himage : image < 8)
    (hp : s.enginePlace ctx (BitVec.ofNat 64 rcd) .rmw = .ok pa) (hw : s.homeWaits (lineOf pa) = false) (hclean : s.poisonedAt pa = false)
    (hc : s.counter (lineOf pa) = none) (hd : ∀ a, pa ≤ a → a < pa + 8 → s.deviceByte a = false) : ∃ t : State,
      exec (.translationRequest stack ctx rcd image) s = .next t ∧
      memNat t.mem pa 8 = (if memNat s.mem pa 8 % 4 = 0 then 1 + image * 4 + stack * 256 else memNat s.mem pa 8) ∧
      ∀ a, (a < pa ∨ pa + 8 ≤ a) → memByte t.mem a = memByte s.mem a := by
  let v := arrived s (.translationRequest stack ctx rcd image)
  refine ⟨_, exec_translationRequest_claims hn hp hw hclean, ?_⟩
  by_cases hst : memNat s.mem pa 8 % 4 = 0
  · rw [if_pos hst, if_pos hst]
    exact ⟨State.memNat_publish (s := v) hc hd (by omega), fun a ha => State.memByte_publish_word (s := v) hc _ ha⟩
  · rw [if_neg hst, if_neg hst]
    exact ⟨rfl, fun _ _ => rfl⟩

section
variable {s : State} {pa n : Nat} (hc : s.counter (lineOf pa) = none)
include hc

theorem State.memByte_settleRecord {a : Nat} (ha : a < pa ∨ pa + 8 ≤ a) : memByte (s.settleRecord pa n).mem a = memByte s.mem a :=
  State.memByte_publish_word hc _ ha

variable (hd : ∀ a, pa ≤ a → a < pa + 8 → s.deviceByte a = false)
include hd

theorem State.caches_settleRecord : (s.settleRecord pa n).caches = s.caches :=
  State.caches_publish hc (fun _ hk => hd _ (Nat.le_add_right _ _) (by rw [leBytes_length] at hk; omega))

/-- A settled record is in its new state, of which bits 1:0 of its first word tell. -/
theorem State.memNat_settleRecord (hn : n < 4) : memNat (s.settleRecord pa n).mem pa 8 % 4 = n := by
  have hlt := memNat_lt s.mem pa 8
  rw [State.settleRecord, State.memNat_publish hc hd (by omega)]
  omega

end

theorem State.deviceByte_setCache (s : State) (place : Nat) (c : CodeCache) (pa : Nat) :
    (s.setCache place c).deviceByte pa = s.deviceByte pa := by
  simp only [State.deviceByte, State.setCache, List.any_map]
  rfl

section
variable {s : State} {ctx rcd pa k : Nat} {o : CodeObj} (hp : s.enginePlace ctx (BitVec.ofNat 64 rcd) .rmw = .ok pa)
  (ho : (s.ctx ctx).recordOwner rcd = some (k, o)) (hw : s.homeWaits (lineOf pa) = false)
  (hcw : (s.cachePlace ctx o).any (fun p => s.homeWaits (lineOf p)) = false) (hst : memNat s.mem pa 8 % 4 = 1)
  (hlost : (s.dead.contains (2 * (memNat s.mem pa 8 / 2 ^ 8 % 8)) && s.dead.contains (2 * (memNat s.mem pa 8 / 2 ^ 8 % 8) + 1)) = false)
include hp ho hw hcw hst hlost

theorem exec_translationJobDone_declines {r : Option Translated} (hr : r = none ∨ s.cachePlace ctx o = none ∨
      s.functionWords ctx (o.images.getD (memNat s.mem pa 8 / 4 % 8) {}) ((rcd - o.xltab.toNat) / 32) = none) :
    exec (.translationJobDone ctx rcd r) s = .next (s.settleRecord pa 3) := by
  rw [exec_translationJobDone, execTranslationJobDone, hp, ho]
  dsimp only
  rw [hw, hcw, hst, hlost, if_neg (by decide), if_neg (by decide)]
  split
  · rfl
  · rfl
  · rfl
  · rename_i hplace hwords
    rcases hr with h | h | h
    · cases h
    · cases hplace.symm.trans h
    · cases hwords.symm.trans h

theorem exec_translationJobDone_readies {place : Nat} {x : Translated} {ws : List (Nat × Nat)} {u : State}
    (hplace : s.cachePlace ctx o = some place)
    (hwords : s.functionWords ctx (o.images.getD (memNat s.mem pa 8 / 4 % 8) {}) ((rcd - o.xltab.toNat) / 32) = some ws)
    (hlegal : legalResult x (o.images.getD (memNat s.mem pa 8 / 4 % 8) {}) ws ((rcd - o.xltab.toNat) / 32)
      (o.tcode.toNat + (s.codeCache ctx o).nextFree) = true) (hu : s.placeCode ctx rcd o x = some u) :
    exec (.translationJobDone ctx rcd (some x)) s = .next ((u.setCache place ((s.codeCache ctx o).allocated x)).settleRecord pa 2) := by
  rw [exec_translationJobDone, execTranslationJobDone, hp, ho]
  dsimp only
  rw [hw, hcw, hst, hlost, if_neg (by decide), if_neg (by decide), hplace, hwords]
  dsimp only
  rw [hlegal, hu, if_neg (by decide)]

end

/-- Settles O49, one event at a time. -/
theorem launchAndTranslation : Obligations.LaunchAndTranslation := by
  intro s
  refine ⟨?_, ?_, ?_, ?_, ?_, ?_, ?_, ?_⟩
  · intro core ctx line wave i hn hcarve u va hwait
    exact ⟨fun e hp => exec_icacheFill_installsNone hn hcarve hwait (State.fillLine_unplaced wave hp),
      fun pa v hp => ⟨exec_icacheFill_repeats hn hcarve hwait hp, fun vs hf => ⟨fun bs => exec_icacheFill_installs hn hcarve hwait hp hf,
        fun e hc => exec_icacheFill_installsNone hn hcarve hwait (State.fillLine_mismatches wave hp hf hc)⟩⟩⟩
  · intro ctx q k rest hq hr hf hlive
    exact ⟨fun hh => by rw [exec_waitWordPoll_reads hq hr, State.readWaits_held hh],
      fun hh => ⟨_, exec_waitWordPoll_reads hq hr, State.readWaits_settles hr hf hh hlive, State.readWaits_asks hr hf hh⟩⟩
  · intro ctx q k c x y hc hk hs hr hx hy
    have hlive : (tget? s.ctxs ctx).isSome = true := by rw [hc]; rfl
    rw [← State.ctx_of_some hc] at hs hr
    refine ⟨_, exec_queueReserving_reserves hk hs hr hx, ?_, rfl, fun n hn => ?_⟩
    · rw [State.queue_modQueue hlive, if_pos rfl, hy]
    · rw [State.queue_modQueue hlive, if_neg hn]
  · intro k l hl hd ho at'
    exact ⟨exec_launchDrain_unseen hl hd ho, fun hs => ⟨exec_launchDrain_goesOn hl hd ho hs, exec_launchDrain_unsignalled hl hd ho hs,
      fun pa hsig hw hp _ hclean hc hdev => exec_launchDrain_counts hl hd ho hs hsig hw hp hclean hc hdev⟩⟩
  · intro source p a n hup htype
    exact ⟨exec_launchFrame_long source, fun hlen hr => exec_launchFrame_refused source hup htype hlen hr⟩
  · intro source p c n hup htype hctx hr
    exact exec_launchFrame_files source hup htype hctx hr
  · intro stack ctx rcd image pa i hn hstack himage u hp hw _ hclean hc hd
    rw [State.enginePlace_arrived] at hp
    exact exec_translationRequest_word hn hstack himage hp hw hclean hc hd
  · intro ctx rcd pa k o hp ho st c im f hw hcw hst hlost _
    refine ⟨fun hc hd r hr => ?_, fun place x ws u hplace hwords hlegal hu hc hd => ?_⟩
    · exact ⟨_, exec_translationJobDone_declines hp ho hw hcw hst hlost hr, State.memNat_settleRecord hc hd (by decide),
        fun a ha => State.memByte_settleRecord hc ha⟩
    · let v := u.setCache place (c.allocated x)
      have hdev : ∀ a, pa ≤ a → a < pa + 8 → v.deviceByte a = false := fun a ha hb => (u.deviceByte_setCache _ _ a).trans (hd a ha hb)
      refine ⟨_, exec_translationJobDone_readies hp ho hw hcw hst hlost hplace hwords hlegal hu,
        State.memNat_settleRecord (s := v) hc hdev (by decide), ?_⟩
      rw [State.caches_settleRecord (s := v) hc hdev]
      exact tget?_tset_same _ _ _

end Sys2Proof.Machine

namespace Sys2Proof.Machine

/-! What every turn leaves of the form of memory (log 2). -/

/-- Every instruction and every event keeps the canonical form, each by the law of its meaning. -/
theorem exec_keepsMem (i : Instr) (s : State) (hs : s.memCanonical) : KeepsMem (exec i s) :=
  match i with
  | .trapz d a b => execTrapz_wf d a b s hs
  | .nop => execNop_wf s hs
  | .adds d a b => execAdds_wf d a b s hs
  | .subs d a b => execSubs_wf d a b s hs
  | .muls d a b => execMuls_wf d a b s hs
  | .mulhs d a b => execMulhs_wf d a b s hs
  | .divs d a b => execDivs_wf d a b s hs
  | .rems d a b => execRems_wf d a b s hs
  | .ands d a b => execAnds_wf d a b s hs
  | .ors d a b => execOrs_wf d a b s hs
  | .xors d a b => execXors_wf d a b s hs
  | .andns d a b => execAndns_wf d a b s hs
  | .shls d a b => execShls_wf d a b s hs
  | .shrs d a b => execShrs_wf d a b s hs
  | .sras d a b => execSras_wf d a b s hs
  | .rols d a b => execRols_wf d a b s hs
  | .mins d a b => execMins_wf d a b s hs
  | .maxs d a b => execMaxs_wf d a b s hs
  | .movs d a => execMovs_wf d a s hs
  | .nots d a => execNots_wf d a s hs
  | .negs d a => execNegs_wf d a s hs
  | .clzs d a => execClzs_wf d a s hs
  | .popcs d a => execPopcs_wf d a s hs
  | .seqs d a b => execSeqs_wf d a b s hs
  | .snes d a b => execSnes_wf d a b s hs
  | .slts d a b => execSlts_wf d a b s hs
  | .sles d a b => execSles_wf d a b s hs
  | .leas d a b => execLeas_wf d a b s hs
  | .bfxs d a b => execBfxs_wf d a b s hs
  | .br a b => execBr_wf a b s hs
  | .brz a b => execBrz_wf a b s hs
  | .brnz a b => execBrnz_wf a b s hs
  | .call d b => execCall_wf d b s hs
  | .ret a => execRet_wf a s hs
  | .rejoin b => execRejoin_wf b s hs
  | .exit => execExit_wf s hs
  | .yield => execYield_wf s hs
  | .plset a => execPlset_wf a s hs
  | .plget d => execPlget_wf d s hs
  | .trap b => execTrap_wf b s hs
  | .brk => execBrk_wf s hs
  | .crrd d b => execCrrd_wf d b s hs
  | .setm b => execSetm_wf b s hs
  | .setmf a b => execSetmf_wf a b s hs
  | .getm d => execGetm_wf d s hs
  | .pand d a b => execPand_wf d a b s hs
  | .por d a b => execPor_wf d a b s hs
  | .pxor d a b => execPxor_wf d a b s hs
  | .pandn d a b => execPandn_wf d a b s hs
  | .pfroms d a => execPfroms_wf d a s hs
  | .ptos d a => execPtos_wf d a s hs
  | .maskrd d => execMaskrd_wf d s hs
  | .addv d a b => execAddv_wf d a b s hs
  | .subv d a b => execSubv_wf d a b s hs
  | .mulv d a b => execMulv_wf d a b s hs
  | .mulhv d a b => execMulhv_wf d a b s hs
  | .divv d a b => execDivv_wf d a b s hs
  | .remv d a b => execRemv_wf d a b s hs
  | .minv d a b => execMinv_wf d a b s hs
  | .maxv d a b => execMaxv_wf d a b s hs
  | .absv d a => execAbsv_wf d a s hs
  | .negv d a => execNegv_wf d a s hs
  | .madv d a b => execMadv_wf d a b s hs
  | .msubv d a b => execMsubv_wf d a b s hs
  | .andv d a b => execAndv_wf d a b s hs
  | .orv d a b => execOrv_wf d a b s hs
  | .xorv d a b => execXorv_wf d a b s hs
  | .andnv d a b => execAndnv_wf d a b s hs
  | .notv d a => execNotv_wf d a s hs
  | .shlv d a b => execShlv_wf d a b s hs
  | .shrv d a b => execShrv_wf d a b s hs
  | .srav d a b => execSrav_wf d a b s hs
  | .rolv d a b => execRolv_wf d a b s hs
  | .clzv d a => execClzv_wf d a s hs
  | .popcv d a => execPopcv_wf d a s hs
  | .movv d a => execMovv_wf d a s hs
  | .bfxv d a b => execBfxv_wf d a b s hs
  | .dot4v d a b => execDot4v_wf d a b s hs
  | .dot2v d a b => execDot2v_wf d a b s hs
  | .avgv d a b => execAvgv_wf d a b s hs
  | .sqrtv d a => execSqrtv_wf d a s hs
  | .rcpv d a => execRcpv_wf d a s hs
  | .rsqv d a => execRsqv_wf d a s hs
  | .exp2v d a => execExp2v_wf d a s hs
  | .log2v d a => execLog2v_wf d a s hs
  | .sinv d a => execSinv_wf d a s hs
  | .cosv d a => execCosv_wf d a s hs
  | .tanhv d a => execTanhv_wf d a s hs
  | .floorv d a => execFloorv_wf d a s hs
  | .ceilv d a => execCeilv_wf d a s hs
  | .truncv d a => execTruncv_wf d a s hs
  | .rintv d a => execRintv_wf d a s hs
  | .fracv d a => execFracv_wf d a s hs
  | .copysv d a b => execCopysv_wf d a b s hs
  | .classv d a => execClassv_wf d a s hs
  | .scalbv d a b => execScalbv_wf d a b s hs
  | .cvtv d a b => execCvtv_wf d a b s hs
  | .packsxv d a b => execPacksxv_wf d a b s hs
  | .unpksxv d a b => execUnpksxv_wf d a b s hs
  | .cmpeqv d a b => execCmpeqv_wf d a b s hs
  | .cmpnev d a b => execCmpnev_wf d a b s hs
  | .cmpltv d a b => execCmpltv_wf d a b s hs
  | .cmplev d a b => execCmplev_wf d a b s hs
  | .cmpgtv d a b => execCmpgtv_wf d a b s hs
  | .cmpgev d a b => execCmpgev_wf d a b s hs
  | .cmpunv d a b => execCmpunv_wf d a b s hs
  | .selv d a b => execSelv_wf d a b s hs
  | .shflv d a b => execShflv_wf d a b s hs
  | .shupv d a b => execShupv_wf d a b s hs
  | .shdnv d a b => execShdnv_wf d a b s hs
  | .shxrv d a b => execShxrv_wf d a b s hs
  | .bcastv d a b => execBcastv_wf d a b s hs
  | .voteall d a => execVoteall_wf d a s hs
  | .voteany d a => execVoteany_wf d a s hs
  | .ballot d a => execBallot_wf d a s hs
  | .redaddv d a => execRedaddv_wf d a s hs
  | .redminv d a => execRedminv_wf d a s hs
  | .redmaxv d a => execRedmaxv_wf d a s hs
  | .redandv d a => execRedandv_wf d a s hs
  | .redorv d a => execRedorv_wf d a s hs
  | .scanv d a => execScanv_wf d a s hs
  | .movsv d a => execMovsv_wf d a s hs
  | .movvs d a b => execMovvs_wf d a b s hs
  | .firstl d => execFirstl_wf d s hs
  | .ldv d a b => execLdv_wf d a b s hs
  | .stv d a b => execStv_wf d a b s hs
  | .lds d a b => execLds_wf d a b s hs
  | .sts d a b => execSts_wf d a b s hs
  | .ldvb d a b => execLdvb_wf d a b s hs
  | .stvb d a b => execStvb_wf d a b s hs
  | .pref a b => execPref_wf a b s hs
  | .aadd d a b => execAadd_wf d a b s hs
  | .amin d a b => execAmin_wf d a b s hs
  | .amax d a b => execAmax_wf d a b s hs
  | .aand d a b => execAand_wf d a b s hs
  | .aor d a b => execAor_wf d a b s hs
  | .axor d a b => execAxor_wf d a b s hs
  | .axchg d a b => execAxchg_wf d a b s hs
  | .aincw d a b => execAincw_wf d a b s hs
  | .adecw d a b => execAdecw_wf d a b s hs
  | .cas d a b => execCas_wf d a b s hs
  | .cas128 d a b => execCas128_wf d a b s hs
  | .aadds d a b => execAadds_wf d a b s hs
  | .cass d a b => execCass_wf d a b s hs
  | .fence b => execFence_wf b s hs
  | .waita d a b => execWaita_wf d a b s hs
  | .drain b => execDrain_wf b s hs
  | .rdadd a b => execRdadd_wf a b s hs
  | .rdmin a b => execRdmin_wf a b s hs
  | .rdmax a b => execRdmax_wf a b s hs
  | .rdand a b => execRdand_wf a b s hs
  | .rdor a b => execRdor_wf a b s hs
  | .rdxor a b => execRdxor_wf a b s hs
  | .ldp d a b => execLdp_wf d a b s hs
  | .stp d a b => execStp_wf d a b s hs
  | .ldc d a b => execLdc_wf d a b s hs
  | .stc d a b => execStc_wf d a b s hs
  | .ldk d a b => execLdk_wf d a b s hs
  | .stk d a b => execStk_wf d a b s hs
  | .ldl d a b => execLdl_wf d a b s hs
  | .stl d a b => execStl_wf d a b s hs
  | .aaddc d a b => execAaddc_wf d a b s hs
  | .casc d a b => execCasc_wf d a b s hs
  | .townGive a b => execTownGive_wf a b s hs
  | .townTake a b => execTownTake_wf a b s hs
  | .twait d a b => execTwait_wf d a b s hs
  | .barv d a => execBarv_wf d a s hs
  | .barw a b => execBarw_wf a b s hs
  | .ldps d a b => execLdps_wf d a b s hs
  | .stps d a b => execStps_wf d a b s hs
  | .mma d a b => execMma_wf d a b s hs
  | .mmz d => execMmz_wf d s hs
  | .mmd d a b => execMmd_wf d a b s hs
  | .wload d a b => execWload_wf d a b s hs
  | .mmsync => execMmsync_wf s hs
  | .wbind d a => execWbind_wf d a s hs
  | .wtouch b => execWtouch_wf b s hs
  | .wunbind b => execWunbind_wf b s hs
  | .gather a => execGather_wf a s hs
  | .spawn a b => execSpawn_wf a b s hs
  | .dcinit d a b => execDcinit_wf d a b s hs
  | .dctake d a b => execDctake_wf d a b s hs
  | .dcgive d a b => execDcgive_wf d a b s hs
  | .dcread d a => execDcread_wf d a s hs
  | .dcreadx d a => execDcreadx_wf d a s hs
  | .dcdrop d a => execDcdrop_wf d a s hs
  | .objdecl d a => execObjdecl_wf d a s hs
  | .objdrop a => execObjdrop_wf a s hs
  | .wstat d b => execWstat_wf d b s hs
  | .crwr a b => execCrwr_wf a b s hs
  | .carve d a => execCarve_wf d a s hs
  | .tret => execTret_wf s hs
  | .tlbinv a b => execTlbinv_wf a b s hs
  | .icinv a b => execIcinv_wf a b s hs
  | .splitRotation wave => execSplitRotation_wf wave s hs
  | .loadDataReturn wave load => execLoadDataReturn_wf wave load s hs
  | .waveExchange out into => execWaveExchange_wf out into s hs
  | .waitaPeriodicWake wave => execWaitaPeriodicWake_wf wave s hs
  | .drainComplete wave => execDrainComplete_wf wave s hs
  | .waveEnd wave => execWaveEnd_wf wave s hs
  | .mmaExecute core => execMmaExecute_wf core s hs
  | .mmzExecute core => execMmzExecute_wf core s hs
  | .mmdExecute core => execMmdExecute_wf core s hs
  | .wloadExecute core => execWloadExecute_wf core s hs
  | .copyComplete block window => execCopyComplete_wf block window s hs
  | .copyAbandon block window => execCopyAbandon_wf block window s hs
  | .gatherComplete cluster => execGatherComplete_wf cluster s hs
  | .gatherAbandon cluster => execGatherAbandon_wf cluster s hs
  | .spawnBinTimer cluster bin => execSpawnBinTimer_wf cluster bin s hs
  | .spawnWaveStart cluster bin => execSpawnWaveStart_wf cluster bin s hs
  | .decantReq record slice sum first => execDecantReq_wf record slice sum first s hs
  | .decantGiveMsg record slice units op => execDecantGiveMsg_wf record slice units op s hs
  | .decantReturn record slice units => execDecantReturn_wf record slice units s hs
  | .decantAnswer record slice units => execDecantAnswer_wf record slice units s hs
  | .decantReadAtHome record slice kind op => execDecantReadAtHome_wf record slice kind op s hs
  | .decantRecall record slice => execDecantRecall_wf record slice s hs
  | .decantGrant record slice units => execDecantGrant_wf record slice units s hs
  | .decantServe record slice units => execDecantServe_wf record slice units s hs
  | .decantStatusReply record slice op lo hi detail => execDecantStatusReply_wf record slice op lo hi detail s hs
  | .decantCdieLoss stack => execDecantCdieLoss_wf stack s hs
  | .wr core write => execWr_wf core write s hs
  | .pack core write level => execPack_wf core write level s hs
  | .inv line cluster writer => execInv_wf line cluster writer s hs
  | .iack line cluster => execIack_wf line cluster s hs
  | .gets line stack core => execGets_wf line stack core s hs
  | .getx line stack core => execGetx_wf line stack core s hs
  | .fwd line stack core excl => execFwd_wf line stack core excl s hs
  | .data line stack core excl bytes => execData_wf line stack core excl bytes s hs
  | .wb line stack => execWb_wf line stack s hs
  | .xpub line stack level => execXpub_wf line stack level s hs
  | .xinv line stack => execXinv_wf line stack s hs
  | .xack line stack => execXack_wf line stack s hs
  | .xdone line stack level => execXdone_wf line stack level s hs
  | .fpub core epoch level requester => execFpub_wf core epoch level requester s hs
  | .fack core epoch level requester => execFack_wf core epoch level requester s hs
  | .rebase isCore unit => execRebase_wf isCore unit s hs
  | .icacheFill core ctx line wave => execIcacheFill_wf core ctx line wave s hs
  | .waitWordPoll ctx queue => execWaitWordPoll_wf ctx queue s hs
  | .queueReserving ctx queue => execQueueReserving_wf ctx queue s hs
  | .launchDrain launch => execLaunchDrain_wf launch s hs
  | .translationRequest stack ctx record image => execTranslationRequest_wf stack ctx record image s hs
  | .handlerPreemptTimeout wave => execHandlerPreemptTimeout_wf wave s hs
  | .invalidationComplete wave => execInvalidationComplete_wf wave s hs
  | .launchFrame source payload => execLaunchFrame_wf source payload s hs
  | .managementFrame source payload => execManagementFrame_wf source payload s hs
  | .translationJobDone ctx record result => execTranslationJobDone_wf ctx record result s hs
  | .coreRetire cluster physical => execCoreRetire_wf cluster physical s hs
  | .elementFailure element => execElementFailure_wf element s hs
  | .routeRewrite element => execRouteRewrite_wf element s hs
  | .elementRetire element => execElementRetire_wf element s hs
  | .retirePowerDown element => execRetirePowerDown_wf element s hs
  | .retransmitTimeout source home => execRetransmitTimeout_wf source home s hs
  | .replayFilterArrival source home seq request => execReplayFilterArrival_wf source home seq request s hs
  | .rdmaWrite qp rkey va bytes => execRdmaWrite_wf qp rkey va bytes s hs
  | .rdmaRead qp rkey va length => execRdmaRead_wf qp rkey va length s hs
  | .atomicCompareSwap qp rkey va compare swap => execAtomicCompareSwap_wf qp rkey va compare swap s hs
  | .atomicFetchAdd qp rkey va add => execAtomicFetchAdd_wf qp rkey va add s hs
  | .roceUnsupportedRequest qp => execRoceUnsupportedRequest_wf qp s hs
  | .neighbourResolution query => execNeighbourResolution_wf query s hs
  | .ethernetFrameDrop frame => execEthernetFrameDrop_wf frame s hs
  | .dramScrub die corrected uncorrectable => execDramScrub_wf die corrected uncorrectable s hs
  | .smcHeartbeat stack answered => execSmcHeartbeat_wf stack answered s hs
  | .dieLost die => execDieLost_wf die s hs
  | .rebuildDone die => execRebuildDone_wf die s hs
  | .thermalLimit die celsius => execThermalLimit_wf die celsius s hs
  | .thermalRecover die celsius => execThermalRecover_wf die celsius s hs
  | .powerSample readings => execPowerSample_wf readings s hs
  | .powerOn => execPowerOn_wf s hs
  | .packageReset => execPackageReset_wf s hs
  | .mgmtCreateContext ctx clusters ptroot saveBase saveSize launchKey codeKey => execMgmtCreateContext_wf ctx clusters ptroot saveBase saveSize launchKey codeKey s hs
  | .mgmtDestroyContext ctx => execMgmtDestroyContext_wf ctx s hs
  | .mgmtPreempt ctx => execMgmtPreempt_wf ctx s hs
  | .mgmtResume ctx clusters => execMgmtResume_wf ctx clusters s hs
  | .mgmtSetKeys ctx launchKey codeKey => execMgmtSetKeys_wf ctx launchKey codeKey s hs
  | .mgmtFeatureMask ctx mask => execMgmtFeatureMask_wf ctx mask s hs
  | .mgmtQueueQuanta ctx queue quantum => execMgmtQueueQuanta_wf ctx queue quantum s hs
  | .mgmtMemoryRegion index entry => execMgmtMemoryRegion_wf index entry s hs
  | .mgmtUnregisterCodeObject ctx object => execMgmtUnregisterCodeObject_wf ctx object s hs
  | .mgmtPowerCap watts => execMgmtPowerCap_wf watts s hs
  | .mgmtWarmReset die => execMgmtWarmReset_wf die s hs
  | .mgmtReadDrydown unit first count reply => execMgmtReadDrydown_wf unit first count reply s hs
  | .mgmtAttest nonce reply => execMgmtAttest_wf nonce reply s hs
  | .mgmtRaiseSvn svn => execMgmtRaiseSvn_wf svn s hs
  | .mgmtWriteSillage ctx value => execMgmtWriteSillage_wf ctx value s hs
  | .mgmtWriteTrapvec ctx value => execMgmtWriteTrapvec_wf ctx value s hs
  | .mgmtWriteSpawntmr ctx value => execMgmtWriteSpawntmr_wf ctx value s hs
  | .mgmtWriteCtxmode ctx value => execMgmtWriteCtxmode_wf ctx value s hs
  | .mgmtWriteCring ctx value => execMgmtWriteCring_wf ctx value s hs
  | .mgmtBindNoticeQp ctx qp => execMgmtBindNoticeQp_wf ctx qp s hs
  | .dieWarmReset die => execDieWarmReset_wf die s hs
  | .warmResetStepDone die => execWarmResetStepDone_wf die s hs
  | .powerRemoval => execPowerRemoval_wf s hs
  | .roceAcknowledgement qp ok => execRoceAcknowledgement_wf qp ok s hs
  | .priorityFlowControl priority pause => execPriorityFlowControl_wf priority pause s hs

theorem State.runWave_keepsMem (s : State) (wid : Nat) (hs : s.memCanonical) : KeepsMem (s.runWave wid) := by
  rw [State.runWave]
  cases hp : s.prepare wid with
  | wait u => exact of_wait (s.prepare_wf wid hs) hp
  | trap u => exact u.noteIssue_wf wid 0 (of_trap (s.prepare_wf wid hs) hp)
  | run i u =>
    have hu : u.memCanonical := of_run (s.prepare_wf wid hs) hp
    dsimp only
    split
    · exact hu
    · exact exec_keepsMem i _ (u.noteIssue_wf wid (portOf i.opc) hu)

theorem State.issueWave_keepsMem (s : State) (wid : Nat) (hs : s.memCanonical) : KeepsMem (s.issueWave wid) := by
  rw [State.issueWave]
  split
  · exact hs
  · exact s.runWave_keepsMem (s.chosen wid) hs

theorem State.runTurn_keepsMem (s : State) (t : Turn) (hs : s.memCanonical) : KeepsMem (s.runTurn t) := by
  cases t with
  | wave w _ => exact s.issueWave_keepsMem w hs
  | event i _ =>
    rw [State.runTurn]
    split
    · exact exec_keepsMem i s hs
    · exact hs
  | upkeep u _ => exact s.runUpkeep_wf u hs
  | save c _ => exact s.saveTurn_wf c hs
  | strike e _ => exact s.strike_wf e hs
  | engine e _ => exact s.engineStep_wf e hs
  | idle _ => exact hs

/-- Settles O60: what the turn leaves in canonical form, the end of the turn keeps so. -/
theorem stepKeepsMemCanonical : Obligations.StepKeepsMemCanonical := by
  intro s t hs ht
  have hrun := State.runTurn_keepsMem { s with agenda := s.nextTurn.2.2 } s.nextTurn.1 hs
  simp only [step, State.turn] at ht
  split at ht
  · rename_i u hu
    cases ht
    exact u.afterTurn_wf s.nextTurn.2.1 (of_next hrun hu)
  · cases ht
  · cases ht

end Sys2Proof.Machine

namespace Sys2Proof.Machine
open Sys2Proof.Claims

/-! The one stop of the model (log 115). -/

/-- Settles O22: every instruction of a wave is issued by `issueOp`, whose first check is that the wave is resident. -/
theorem noWaveStops : Obligations.NoWaveStops := by
  intro i s hi hdead
  obtain ⟨body, hbody⟩ := exec_eq_issueOp i hi
  rw [hbody, issueOp, hdead]
  rfl

end Sys2Proof.Machine

namespace Sys2Proof.Machine
open Sys2Proof.Claims

/-! The trap frame (R370). -/

/-- The first fields of the trap frame, those before the splits, and the fields behind them. -/
theorem State.frameFields_split (s : State) (w : Wave) (t : TrapInfo) (r : Dword) (fatal : Bool) :
    ∃ post, s.frameFields w t r fatal =
      [(8, r.toNat), (8, t.pc.toNat), (8, t.faddr.toNat), (8, t.iword.toNat), (4, t.lit.toNat), (1, t.cause), (1, t.lane), (1, t.plane),
       (1, (if t.deferred then 1 else 0) + (if t.bintodal then 2 else 0) + (if w.handler then 4 else 0) + (if fatal then 8 else 0)),
       (4, t.detail), (2, w.mode.toNat), (1, w.issuing), (1, w.deferred.length), (8, w.planesWord), (8, 0)] ++ post :=
  ⟨_, by rw [State.frameFields, List.append_assoc, List.append_assoc, List.append_assoc]⟩

/-- The fields of a list with the byte at which each begins. -/
def placedFields : Nat → List (Nat × Nat) → List (Nat × Nat × Nat)
  | _, [] => []
  | a, f :: fs => (a, f) :: placedFields (a + f.1) fs

/-- A record holds each of its fields where the fields before it end. -/
theorem memNat_placedFields {pre fs post : List (Nat × Nat)} {f : Nat × Nat × Nat} (hf : f ∈ placedFields (fieldWidth pre) fs) :
    memNat (tblOfBytes (fieldBytes (pre ++ fs ++ post))) f.1 f.2.1 = f.2.2 % 256 ^ f.2.1 := by
  induction fs generalizing pre with
  | nil => cases hf
  | cons g gs ih =>
    rcases List.mem_cons.1 hf with rfl | hf
    · rw [List.append_assoc]
      exact memNat_field pre (gs ++ post) g.1 g.2
    · have hw : fieldWidth (pre ++ [g]) = fieldWidth pre + g.1 := by simp [fieldWidth]
      have := ih (pre := pre ++ [g]) (by rwa [hw])
      simpa using this

/-- The trap frame holds the fields of R370 at their bytes. -/
theorem State.memNat_frame (s : State) (w : Wave) (t : TrapInfo) (r : Dword) (fatal : Bool) :
    ∀ f ∈ Claims.frameFields w t r fatal, memNat (tblOfBytes (s.frameBytes w t r fatal)) f.1 f.2.1 = f.2.2 % 256 ^ f.2.1 := by
  obtain ⟨post, hfields⟩ := s.frameFields_split w t r fatal
  intro f hf
  rw [State.frameBytes, hfields]
  refine memNat_placedFields (pre := []) ?_
  fin_cases hf <;> simp [placedFields, fieldWidth]

/-- The frame with which a wave enters its handler is the one that R370 lays out. -/
theorem State.trapWave_enters_withFrame {s : State} {wid : Nat} {w : Wave} (t : TrapInfo) (r : Dword) (hw : tget? s.waves wid = some w)
    (hh : w.handler = false) (he : (s.ctx w.ctx).trapvec.toNat % 2 = 1) :
    s.trapWave wid t r = (s.poisonLogged w t).modWave wid
      (Wave.enterHandler (s.ctx w.ctx).trapvec (tblOfBytes ((s.poisonLogged w t).frameBytes w t r false)) r) := by
  have hd : tgetD s.waves wid {} = w := by rw [tgetD, hw]; rfl
  simp only [State.trapWave, hd, hh, he]
  rfl

theorem Wave.frame_enterHandler (tv : Dword) (frame : Tbl Byte) (r : Dword) (v : Wave) : (v.enterHandler tv frame r).frame = frame := rfl

/-- Settles O16. -/
theorem trapFrameFields : Obligations.TrapFrameFields := by
  intro s wid w t r hw hh he
  have hwaves : (s.poisonLogged w t).waves = s.waves := by
    have e := congrArg State.waves (s.poisonLogged_frame w t).1
    exact e
  refine ⟨w.enterHandler (s.ctx w.ctx).trapvec (tblOfBytes ((s.poisonLogged w t).frameBytes w t r false)) r, ?_, fun f hf => ?_⟩
  · rw [State.trapWave_enters_withFrame t r hw hh he, State.modWave_waves, tget?_tmodify, if_pos rfl, hwaves, hw]
    rfl
  · rw [Wave.frame_enterHandler]
    exact State.memNat_frame _ w t r false f hf

end Sys2Proof.Machine

namespace Sys2Proof.Machine
open Sys2Proof.Claims

/-! Fatal traps (R372, R381). -/

/-- The address of the slot of a context's fault log that its `j`-th report from now takes (R381). -/
def Context.faultSlot (c : Context) (j : Nat) : Nat := c.saveBase + 4096 + 256 * ((c.fatals + j) % 16)

/-- Causes of a wave are reported one after another. -/
def State.reportAll (s : State) (w : Wave) (r : Dword) (xs : List TrapInfo) : State := xs.foldl (fun u x => u.reportFatal w x r) s

section
variable (s : State) (w : Wave) (t : TrapInfo) (r : Dword) (xs : List TrapInfo)

theorem State.reportAll_cons : s.reportAll w r (t :: xs) = (s.reportFatal w t r).reportAll w r xs := by
  rw [State.reportAll, State.reportAll, List.foldl_cons]

theorem State.mem_reportFatal : (s.reportFatal w t r).mem =
    memPut (memPut s.mem ((s.ctx w.ctx).faultSlot 0) (s.frameBytes w t r true)) ((s.ctx w.ctx).saveBase + 5)
      [BitVec.ofNat 8 (min 255 ((s.ctx w.ctx).nfatal + 1))] := by
  simp only [State.reportFatal, State.modCtx_mem, State.logDry, State.memWrite, Context.faultSlot, Nat.add_zero]

theorem State.waves_reportFatal : (s.reportFatal w t r).waves = s.waves := by
  simp only [State.reportFatal, State.modCtx_waves, State.logDry, State.memWrite]

theorem State.launches_reportFatal : (s.reportFatal w t r).launches = s.launches := by
  simp only [State.reportFatal, State.modCtx_launches, State.logDry, State.memWrite]

theorem State.out_reportFatal : (s.reportFatal w t r).out = s.out ++ [.tell 0x0C w.core (w.ctx + 256 * t.cause)] := by
  simp only [State.reportFatal, State.modCtx_out, State.logDry, State.memWrite]

theorem State.ctxs_reportFatal : (s.reportFatal w t r).ctxs =
    tmodify s.ctxs w.ctx (fun x => { x with fatals := x.fatals + 1, nfatal := min 255 (x.nfatal + 1) }) := by
  simp only [State.reportFatal, State.modCtx, State.logDry, State.memWrite]

theorem State.waves_reportAll : (s.reportAll w r xs).waves = s.waves := by
  induction xs generalizing s with
  | nil => rfl
  | cons x xs ih => rw [State.reportAll_cons, ih, State.waves_reportFatal]

theorem State.launches_reportAll : (s.reportAll w r xs).launches = s.launches := by
  induction xs generalizing s with
  | nil => rfl
  | cons x xs ih => rw [State.reportAll_cons, ih, State.launches_reportFatal]

theorem State.out_reportAll : (s.reportAll w r xs).out = s.out ++ xs.map (fun x => .tell 0x0C w.core (w.ctx + 256 * x.cause)) := by
  induction xs generalizing s with
  | nil => simp [State.reportAll]
  | cons x xs ih =>
    rw [State.reportAll_cons, ih, State.out_reportFatal, List.map_cons, List.append_assoc, List.singleton_append]

variable {s w} (hctx : (tget? s.ctxs w.ctx).isSome = true)
include hctx

theorem State.ctx_reportFatal : (s.reportFatal w t r).ctx w.ctx =
    { s.ctx w.ctx with fatals := (s.ctx w.ctx).fatals + 1, nfatal := min 255 ((s.ctx w.ctx).nfatal + 1) } := by
  rw [State.ctx, State.ctxs_reportFatal, tgetD_tmodify_same _ _ _ _ hctx, State.ctx]

theorem State.isSome_ctx_reportFatal : (tget? (s.reportFatal w t r).ctxs w.ctx).isSome = true := by
  rw [State.ctxs_reportFatal, tget?_tmodify, if_pos rfl, Option.isSome_map]
  exact hctx

theorem State.faultSlot_reportFatal (j : Nat) :
    ((s.reportFatal w t r).ctx w.ctx).faultSlot j = (s.ctx w.ctx).faultSlot (j + 1) := by
  rw [State.ctx_reportFatal t r hctx]
  simp only [Context.faultSlot, Nat.add_assoc, Nat.add_comm 1 j]

/-- Reports change nothing of memory but the count of entries and the slots that they take. -/
theorem State.memByte_reportAll_outside {a : Nat} (ha : a ≠ (s.ctx w.ctx).saveBase + 5)
    (hs : ∀ j, j < xs.length → a < (s.ctx w.ctx).faultSlot j ∨ (s.ctx w.ctx).faultSlot j + 256 ≤ a) :
    memByte (s.reportAll w r xs).mem a = memByte s.mem a := by
  induction xs generalizing s with
  | nil => rfl
  | cons x xs ih =>
    have hlen := s.frameBytes_length w x r true
    rw [State.reportAll_cons, ih (State.isSome_ctx_reportFatal x r hctx) (by rwa [State.ctx_reportFatal x r hctx]) fun j hj => ?_,
      State.mem_reportFatal, memByte_memPut_outside _ _ _ _ (by simp only [List.length_singleton]; omega),
      memByte_memPut_outside _ _ _ _ (by rw [hlen]; exact hs 0 (by simp))]
    rw [State.faultSlot_reportFatal x r hctx]
    exact hs (j + 1) (by simpa using hj)

/-- The count of entries once causes have been reported. -/
theorem State.memByte_reportAll_count (hx : xs ≠ []) : memByte (s.reportAll w r xs).mem ((s.ctx w.ctx).saveBase + 5) =
    BitVec.ofNat 8 (min 255 ((s.ctx w.ctx).nfatal + xs.length)) := by
  induction xs generalizing s with
  | nil => exact absurd rfl hx
  | cons x xs ih =>
    have hc := State.ctx_reportFatal x r hctx
    by_cases hxs : xs = []
    · rw [hxs, State.reportAll_cons, State.reportAll, List.foldl_nil, State.mem_reportFatal, memByte_memPut, if_pos (by simp)]
      simp
    · have h := ih (State.isSome_ctx_reportFatal x r hctx) hxs
      rw [hc] at h
      rw [State.reportAll_cons]
      refine h.trans (congrArg _ ?_)
      simp only [List.length_cons]
      omega

/-- The entry of the first cause, if no later one takes its slot, is its frame. -/
theorem State.memByte_reportAll_first (hlen : xs.length < 16) {i : Nat} (hi : i < 256) :
    memByte (s.reportAll w r (t :: xs)).mem ((s.ctx w.ctx).faultSlot 0 + i) = (s.frameBytes w t r true).getD i 0 := by
  have hbytes := s.frameBytes_length w t r true
  rw [State.reportAll_cons, State.memByte_reportAll_outside r xs (State.isSome_ctx_reportFatal t r hctx), State.mem_reportFatal,
    memByte_memPut_outside, memByte_memPut_inside _ _ _ _ (by omega)]
  · simp only [Context.faultSlot, List.length_singleton]
    omega
  · rw [State.ctx_reportFatal t r hctx]
    simp only [Context.faultSlot]
    omega
  · intro j hj
    rw [State.faultSlot_reportFatal t r hctx]
    simp only [Context.faultSlot]
    omega

end

/-- The wave that a fatal trap has stopped (R372). -/
def Wave.stopped (frame : Tbl Byte) (v : Wave) : Wave :=
  { v.loseLatches with
    frame := frame, retired := BitVec.allOnes 32, splits := [], deferred := [], causes := [], ended := true, failed := true }

theorem Wave.stopped_marks (frame : Tbl Byte) (v : Wave) : (v.stopped frame).retired = BitVec.allOnes 32 ∧ (v.stopped frame).splits = [] ∧
    (v.stopped frame).deferred = [] ∧ (v.stopped frame).ended = true ∧ (v.stopped frame).failed = true ∧
    (v.stopped frame).frame = frame := by
  simp only [Wave.stopped, and_self]

section
variable {s : State} {wid : Nat} {w : Wave} (t : TrapInfo) (r : Dword)

theorem State.fatalTrap_eq (hw : tget? s.waves wid = some w) : s.fatalTrap wid t r =
    (((s.reportAll w r (t :: w.leftCauses)).modWave wid (Wave.stopped (tblOfBytes (s.frameBytes w t r true)))).dropCarve wid).failLaunch
      w.launch := by
  have hd : tgetD s.waves wid {} = w := by rw [tgetD, hw]; rfl
  rw [State.fatalTrap, hd]
  rfl

theorem State.mem_fatalTrap (hw : tget? s.waves wid = some w) :
    (s.fatalTrap wid t r).mem = (s.reportAll w r (t :: w.leftCauses)).mem := by
  rw [State.fatalTrap_eq t r hw]
  cases w.launch <;> simp only [State.failLaunch, State.abandonLaunch, State.modLaunch, State.dropCarve, State.modCtx_mem, State.modWave_mem]

theorem State.out_fatalTrap (hw : tget? s.waves wid = some w) : (s.fatalTrap wid t r).out =
    s.out ++ (t :: w.leftCauses).map (fun x => .tell 0x0C w.core (w.ctx + 256 * x.cause)) := by
  rw [State.fatalTrap_eq t r hw, ← State.out_reportAll s w r]
  cases w.launch <;> simp only [State.failLaunch, State.abandonLaunch, State.modLaunch, State.dropCarve, State.modCtx_out, State.modWave_out]

theorem State.waves_fatalTrap (hw : tget? s.waves wid = some w) : (s.fatalTrap wid t r).waves =
    tmodify s.waves wid (Wave.stopped (tblOfBytes (s.frameBytes w t r true))) := by
  rw [State.fatalTrap_eq t r hw, ← State.waves_reportAll s w r (t :: w.leftCauses)]
  cases w.launch <;> simp only [State.failLaunch, State.abandonLaunch, State.modLaunch, State.dropCarve, State.modCtx_waves, State.modWave_waves]

/-- The launch of a wave that a fatal trap stops has failed. -/
theorem State.launch_fatalTrap (hw : tget? s.waves wid = some w) {l : Nat} (hl : w.launch = some l)
    (hsome : (tget? s.launches l).isSome = true) : ((s.fatalTrap wid t r).launch l).failed = true := by
  rw [← State.launches_reportAll s w r (t :: w.leftCauses)] at hsome
  rw [State.fatalTrap_eq t r hw, hl]
  simp only [State.failLaunch, State.abandonLaunch, State.modLaunch, State.dropCarve, State.launch, State.modCtx_launches,
    State.modWave_launches, tgetD_tmodify_same _ _ _ _ hsome]

/-- Poison that traps a wave is recorded in the drydown records, and nowhere else. -/
theorem State.poisonLogged_eq (s : State) (w : Wave) (t : TrapInfo) : ∃ d, s.poisonLogged w t = { s with dry := d } := by
  rw [State.poisonLogged]
  split
  · exact ⟨_, rfl⟩
  · exact ⟨s.dry, rfl⟩

/-- In handler mode or with TRAPVEC.EN = 0 the trap is fatal. -/
theorem State.trapWave_fatal (hw : tget? s.waves wid = some w) (h : w.handler = true ∨ (s.ctx w.ctx).trapvec.toNat % 2 = 0) :
    s.trapWave wid t r = (s.poisonLogged w t).fatalTrap wid t r := by
  have hd : tgetD s.waves wid {} = w := by rw [tgetD, hw]; rfl
  have hc : (w.handler || (s.ctx w.ctx).trapvec.toNat % 2 == 0) = true := by simpa using h
  simp only [State.trapWave, hd, hc]
  rfl

end

theorem Wave.length_leftCauses (w : Wave) : w.leftCauses.length = (if w.handler then w.causes else []).length := by
  rw [Wave.leftCauses]
  split <;> simp

/-- What the host is told of the causes left names their codes alone. -/
theorem Wave.map_leftCauses {α : Type} (w : Wave) (f : TrapInfo → α) (hf : ∀ x, f { x with deferred := true } = f x) :
    w.leftCauses.map f = (if w.handler then w.causes else []).map f := by
  rw [Wave.leftCauses]
  split
  · rw [List.map_map]
    exact List.map_congr_left fun x _ => hf x
  · rfl

/-- Settles O17: the causes are reported one after another, then the wave stops and its launch fails. -/
theorem fatalTrap : Obligations.FatalTrap := by
  intro s wid w t r hw hctx hfatal c left slot u
  obtain ⟨d, hd⟩ := s.poisonLogged_eq w t
  let s0 : State := { s with dry := d }
  have hw0 : tget? s0.waves wid = some w := hw
  have hu : u = s0.fatalTrap wid t r := (State.trapWave_fatal t r hw hfatal).trans (congrArg (State.fatalTrap · wid t r) hd)
  have hlen : w.leftCauses.length = left.length := w.length_leftCauses
  have hcount : (t :: w.leftCauses).length = left.length + 1 := by rw [List.length_cons, hlen]
  obtain ⟨hretired, hsplits, hdeferred, hended, hfailed, hf⟩ := w.stopped_marks (tblOfBytes (s0.frameBytes w t r true))
  rw [hu, State.mem_fatalTrap t r hw0, State.out_fatalTrap t r hw0, State.waves_fatalTrap t r hw0]
  refine ⟨⟨w.stopped (tblOfBytes (s0.frameBytes w t r true)), by rw [tget?_tmodify, if_pos rfl, hw0, Option.map_some], hretired, hsplits,
    hdeferred, hended, hfailed, fun f hmem => ?_, fun hl i hi => ?_⟩, ?_, fun a ha hs => ?_,
    fun k hk => by rw [tget?_tmodify, if_neg hk], ?_, fun l hl hsome => State.launch_fatalTrap t r hw0 hl hsome⟩
  · rw [hf]
    exact s0.memNat_frame w t r true f hmem
  · rw [hf]
    exact (State.memByte_reportAll_first (s := s0) t r w.leftCauses hctx (by omega) hi).trans
      (memByte_tblOfBytes _ _ (by rw [State.frameBytes_length]; exact hi)).symm
  · have h := State.memByte_reportAll_count (s := s0) r (t :: w.leftCauses) hctx (List.cons_ne_nil _ _)
    rwa [hcount] at h
  · exact State.memByte_reportAll_outside (s := s0) r (t :: w.leftCauses) hctx ha fun j hj => hs j (by omega)
  · rw [List.map_cons, List.map_cons, w.map_leftCauses _ fun _ => rfl]

end Sys2Proof.Machine

namespace Sys2Proof.Machine
open Sys2Proof.Claims

/-! Clock steps (R429 to R431): what a change of them leaves alone. -/

/-- `u` is `s` but for the clocks of clusters and what the drydown records say of them; every cluster has the owner it had. -/
structure State.onlySteps (s u : State) : Prop where
  rest : ({ u with clusters := s.clusters, dry := s.dry } : State) = s
  owner : ∀ g, (u.cluster g).owner = (s.cluster g).owner

theorem State.onlySteps_refl (s : State) : s.onlySteps s := ⟨rfl, fun _ => rfl⟩

section
variable {s u : State} (h : s.onlySteps u)
include h

theorem State.onlySteps.dead_eq : u.dead = s.dead := (congrArg State.dead h.rest :)
theorem State.onlySteps.hot_eq : u.hot = s.hot := (congrArg State.hot h.rest :)
theorem State.onlySteps.ctxs_eq : u.ctxs = s.ctxs := (congrArg State.ctxs h.rest :)
theorem State.onlySteps.mem_eq : u.mem = s.mem := (congrArg State.mem h.rest :)
theorem State.onlySteps.waves_eq : u.waves = s.waves := (congrArg State.waves h.rest :)
theorem State.onlySteps.power_eq : u.power = s.power := (congrArg State.power h.rest :)

theorem State.onlySteps.shared_eq (g : Nat) : u.shared g = s.shared g := by
  simp only [State.shared, State.ctx, h.dead_eq, h.owner, h.ctxs_eq]

theorem State.onlySteps.heatStep_eq (g : Nat) : u.heatStep g = s.heatStep g := by
  rw [State.heatStep, State.heatStep, h.hot_eq]

theorem State.onlySteps.setStep (g n : Nat) : s.onlySteps (u.setStep g n) := by
  rw [State.setStep]
  split
  · exact h
  · refine ⟨Eq.trans ?_ h.rest, fun k => ?_⟩
    · simp only [State.logDry, State.modCluster]
    · rw [← h.owner k]
      simp only [State.logDry, State.modCluster, State.cluster, tgetD_tset]
      split
      · rename_i e; rw [e]
      · rfl

end

theorem State.step_setStep (s : State) (g n k : Nat) : ((s.setStep g n).cluster k).step = if k = g then n else (s.cluster k).step := by
  rw [State.setStep]
  split
  · rename_i hn
    split
    · rename_i e; rw [e, hn]
    · rfl
  · simp only [State.logDry, State.modCluster, State.cluster, tgetD_tset]
    split <;> rfl

/-- Clusters one after another take the step that `f` makes of the one they have. -/
theorem State.onlySteps_foldl {s0 : State} {f : Nat → Nat → Nat} {body : State → Nat → State}
    (hbody : ∀ u g, s0.onlySteps u → body u g = u.setStep g (f g (u.cluster g).step)) (gs : List Nat) (hgs : gs.Nodup) (s : State)
    (hs : s0.onlySteps s) : s0.onlySteps (gs.foldl body s) ∧
      ∀ k, ((gs.foldl body s).cluster k).step = if k ∈ gs then f k (s.cluster k).step else (s.cluster k).step := by
  induction gs generalizing s with
  | nil => exact ⟨hs, fun k => by simp⟩
  | cons g gs ih =>
    obtain ⟨hg, hgs⟩ := List.nodup_cons.1 hgs
    rw [List.foldl_cons, hbody s g hs]
    obtain ⟨hframe, hsteps⟩ := ih hgs _ (hs.setStep g _)
    refine ⟨hframe, fun k => ?_⟩
    rw [hsteps, State.step_setStep]
    by_cases hk : k = g
    · simp [hk, hg]
    · simp [hk]

/-! Heat (R430). -/

theorem mem_dieClusters {die g : Nat} : g ∈ dieClusters die ↔ g / 16 = die := by
  simp only [dieClusters, List.mem_map, List.mem_range]
  constructor
  · rintro ⟨i, hi, rfl⟩; omega
  · intro h; exact ⟨g % 16, by omega, by omega⟩

theorem nodup_dieClusters (die : Nat) : (dieClusters die).Nodup :=
  List.nodup_range.map fun a b h => by simpa using h

/-- What heat on a die has changed: the dies that are hot, the steps of that die's clusters, and the record of them. -/
theorem State.onlySteps.heated {s u : State} {hot : List Nat} (h : ({ s with hot := hot } : State).onlySteps u) :
    ({ u with hot := s.hot, clusters := s.clusters, dry := s.dry } : State) = s :=
  (congrArg (fun x : State => { x with hot := s.hot }) h.rest :)

theorem exec_thermalLimit_hot {s : State} {die c : Nat} (hdie : die < 16) (hdead : s.dead.contains die = false) (hlow : 105 ≤ c) (hhigh : c < 115) :
    ∃ t : State, exec (.thermalLimit die c) s = .next t ∧ die ∈ t.hot ∧
      (∀ g, (t.cluster g).step = if g / 16 = die then min (s.cluster g).step 8 else (s.cluster g).step) ∧
      ({ t with hot := s.hot, clusters := s.clusters, dry := s.dry } : State) = s := by
  let s1 : State := { s with hot := if s.hot.contains die then s.hot else s.hot ++ [die] }
  obtain ⟨hframe, hsteps⟩ := State.onlySteps_foldl (s0 := s1) (f := fun _ n => min n 8)
    (body := fun u g => u.setStep g (min (u.cluster g).step 8)) (fun _ _ _ => rfl) (dieClusters die) (nodup_dieClusters die) s1 s1.onlySteps_refl
  refine ⟨_, ?_, ?_, fun g => ?_, hframe.heated⟩
  · rw [exec_thermalLimit, execThermalLimit, hdead, if_neg (by simp; omega), if_neg (by omega)]
  · rw [hframe.hot_eq]
    show die ∈ if s.hot.contains die then s.hot else s.hot ++ [die]
    split
    · rename_i h; simpa using h
    · simp
  · rw [hsteps]
    simp only [mem_dieClusters]
    rfl

theorem exec_thermalLimit_loses {s : State} {die c : Nat} (hdie : die < 16) (hdead : s.dead.contains die = false) (hc : 115 ≤ c) :
    exec (.thermalLimit die c) s = exec (.dieLost die) s := by
  rw [exec_thermalLimit, execThermalLimit, hdead, if_neg (by simp; omega), if_pos hc, exec_dieLost, execDieLost, if_pos hdie]

theorem exec_thermalRecover_cool {s : State} {die c : Nat} (hhot : s.hot.contains die = true) (hdead : s.dead.contains die = false) (hc : c < 95) :
    ∃ t : State, exec (.thermalRecover die c) s = .next t ∧ t.hot = s.hot.erase die ∧
      (∀ g, (t.cluster g).step = if g / 16 = die ∧ s.shared g = false then 12 else (s.cluster g).step) ∧
      ({ t with hot := s.hot, clusters := s.clusters, dry := s.dry } : State) = s := by
  let s1 : State := { s with hot := s.hot.erase die }
  obtain ⟨hframe, hsteps⟩ := State.onlySteps_foldl (s0 := s1) (f := fun g n => if s1.shared g = false then 12 else n)
    (body := fun u g => if !u.shared g && !u.dead.contains die then u.setStep g 12 else u)
    (fun u g hu => by
      have hd : u.dead.contains die = false := by rw [hu.dead_eq]; exact hdead
      rw [hu.shared_eq, hd]
      cases s1.shared g
      · rfl
      · simp [State.setStep])
    (dieClusters die) (nodup_dieClusters die) s1 s1.onlySteps_refl
  refine ⟨_, ?_, hframe.hot_eq, fun g => ?_, hframe.heated⟩
  · rw [exec_thermalRecover, execThermalRecover, hhot, if_neg (by simp; omega)]
  · rw [hsteps]
    simp only [mem_dieClusters, ite_and]
    rfl

/-! Power samples (R429). -/

/-- The power readings with one more sample: those of the last 100 us. -/
def Power.sample (p : Power) (r : PowerReadings) : Power := { p with samples := (r.milliwatts :: p.samples).take 100 }
/-- The units whose mean is above their limit. -/
def Power.high (p : Power) : List Nat := powerUnits.filter (fun u => p.limit u * 100 < p.total u)
/-- Every mean lies below 95 % of its limit. -/
def Power.calm (p : Power) : Bool := powerUnits.all (fun u => p.total u < p.limit u * 95)
/-- The clusters whose clocks follow the limits of power. -/
def State.sharing (s : State) : List Nat := (List.range 256).filter s.shared

theorem State.mem_sharing {s : State} {g : Nat} : g ∈ s.sharing ↔ g < 256 ∧ s.shared g = true := by
  rw [State.sharing, List.mem_filter, List.mem_range]

theorem State.nodup_sharing (s : State) : s.sharing.Nodup := List.nodup_range.filter _

/-- The power manager has taken one more sample. -/
def State.sampled (s : State) (r : PowerReadings) : State := { s with power := s.power.sample r }
/-- The owned clusters of a unit above its limit whose clocks follow the limits of power. -/
def State.loaded (s : State) : List Nat := s.sharing.filter (fun g => (s.cluster g).owner.isSome && s.power.high.any (fun u => inUnit u g))
/-- A cluster loses a step, down to step 4. -/
def State.slow (u : State) (g : Nat) : State := u.setStep g (max 4 ((u.cluster g).step - 1))

/-- 100 us have passed since the clocks last rose. -/
def Power.riseDue (p : Power) (clk : Nat) : Bool :=
  match p.raised with
  | some t => decide (t + 150000 ≤ clk)
  | none => true
/-- A step that may rise is lower than heat allows. -/
def State.anyLow (s : State) : Bool := s.sharing.any (fun g => (s.cluster g).step < s.heatStep g)
/-- A cluster whose step is lower than heat allows gains one. -/
def State.raise (u : State) (g : Nat) : State := if (u.cluster g).step < u.heatStep g then u.setStep g ((u.cluster g).step + 1) else u

theorem Power.riseDue_of {p : Power} {clk : Nat} (h : ∀ x, p.raised = some x → x + 150000 ≤ clk) : p.riseDue clk = true := by
  rw [Power.riseDue]
  split
  · rename_i t ht; simpa using h t ht
  · rfl

section
variable {s : State} {r : PowerReadings}

theorem exec_powerSample_eq (s : State) (r : PowerReadings) : exec (.powerSample r) s =
    if !(s.power.sample r).high.isEmpty then
      .next (((s.sampled r).loaded).foldl State.slow (s.sampled r))
    else if (s.power.sample r).calm && (s.power.sample r).riseDue s.clk && (s.sampled r).anyLow then
      .next ((s.sampled r).sharing.foldl State.raise
        { s with power := { s.power.sample r with raised := some s.clk } })
    else .next (s.sampled r) := rfl

theorem exec_powerSample_high (h : (s.power.sample r).high ≠ []) : ∃ t : State, exec (.powerSample r) s = .next t ∧
    t.power = s.power.sample r ∧ t.mem = s.mem ∧ t.waves = s.waves ∧
    ∀ g, (t.cluster g).step = if g < 256 ∧ s.shared g = true ∧ (s.cluster g).owner ≠ none ∧
      (s.power.sample r).high.any (fun u => inUnit u g) = true then max 4 ((s.cluster g).step - 1) else (s.cluster g).step := by
  obtain ⟨hframe, hsteps⟩ := State.onlySteps_foldl (s0 := s.sampled r) (f := fun _ n => max 4 (n - 1)) (body := State.slow)
    (fun _ _ _ => rfl) (s.sampled r).loaded ((State.nodup_sharing _).filter _) (s.sampled r) (State.onlySteps_refl _)
  refine ⟨_, ?_, hframe.power_eq, hframe.mem_eq, hframe.waves_eq, fun g => ?_⟩
  · rw [exec_powerSample_eq, if_pos (by simpa using h)]
  · have hmem : g ∈ (s.sampled r).loaded ↔ g < 256 ∧ s.shared g = true ∧ (s.cluster g).owner ≠ none ∧
        (s.power.sample r).high.any (fun u => inUnit u g) = true := by
      rw [State.loaded, List.mem_filter, State.mem_sharing, Bool.and_eq_true, Option.isSome_iff_ne_none, and_assoc]
      rfl
    rw [hsteps]
    simp only [hmem]
    rfl

/-- The steps stay where no mean is above its limit and not every one is below 95 % of it. -/
theorem exec_powerSample_level (hcalm : (s.power.sample r).calm = false) (hhigh : (s.power.sample r).high = []) :
    exec (.powerSample r) s = .next { s with power := s.power.sample r } := by
  rw [exec_powerSample_eq, hhigh, hcalm]
  rfl

/-- While every mean is below 95 % of its limit, the clocks that may rise do so, once 100 us have passed since they last did. -/
theorem exec_powerSample_calm (hcalm : (s.power.sample r).calm = true) (hhigh : (s.power.sample r).high = [])
    (hraised : ∀ x, s.power.raised = some x → x + 150000 ≤ s.clk) : ∃ t : State, exec (.powerSample r) s = .next t ∧
    t.mem = s.mem ∧ t.waves = s.waves ∧ (t.power = s.power.sample r ∨ t.power = { s.power.sample r with raised := some s.clk }) ∧
    ∀ g, (t.cluster g).step = if g < 256 ∧ s.shared g = true ∧ (s.cluster g).step < s.heatStep g then
      (s.cluster g).step + 1 else (s.cluster g).step := by
  have heq := exec_powerSample_eq s r
  rw [hcalm, Power.riseDue_of (p := s.power.sample r) hraised, if_neg (by rw [hhigh]; simp), Bool.true_and, Bool.true_and] at heq
  cases hlow : (s.sampled r).anyLow with
  | true =>
    let s1 : State := { s with power := { s.power.sample r with raised := some s.clk } }
    obtain ⟨hframe, hsteps⟩ := State.onlySteps_foldl (s0 := s1) (f := fun g n => if n < s1.heatStep g then n + 1 else n) (body := State.raise)
      (fun u g hu => by
        rw [State.raise, hu.heatStep_eq]
        split
        · rfl
        · simp [State.setStep])
      (s.sampled r).sharing (State.nodup_sharing _) s1 s1.onlySteps_refl
    refine ⟨_, heq.trans (if_pos hlow), hframe.mem_eq, hframe.waves_eq, .inr hframe.power_eq, fun g => ?_⟩
    rw [hsteps]
    simp only [State.mem_sharing, ← ite_and, and_assoc]
    rfl
  | false =>
    refine ⟨_, heq.trans (if_neg (by simp [hlow])), rfl, rfl, .inl rfl, fun g => ?_⟩
    rw [if_neg]
    · rfl
    · rintro ⟨hg, hs, hstep⟩
      rw [State.anyLow, List.any_eq_false] at hlow
      exact hlow g (State.mem_sharing.2 ⟨hg, hs⟩) (decide_eq_true hstep)

end

/-! Boot (R422, R423, R436). -/

theorem State.bootFailure_unpowered (s : State) (d : Tbl Drydown) : ({ s.unpowered with dry := d } : State).bootFailure = s.bootFailure := rfl

/-- Boot runs to its end, or to the step that fails. -/
theorem State.boot_ends (s : State) : s.boot.nd.bootClk = s.clk ∧
    (s.bootFailure = none → s.boot.nd.bootStep = 5 ∧ s.boot.nd.bootFailed = false ∧ s.boot.timeNs = 0) ∧
    ∀ k, s.bootFailure = some k → s.boot.nd.bootStep = k ∧ s.boot.nd.bootFailed = true := by
  cases hk : s.bootFailure with
  | none =>
    have h : s.boot = { s with nd := { s.nd with bootStep := 5, bootFailed := false, bootClk := s.clk } } := by rw [State.boot, hk]
    rw [h]
    exact ⟨rfl, fun _ => ⟨rfl, rfl, by simp [State.timeNs]⟩, nofun⟩
  | some k =>
    have h : s.boot = { s with nd := { s.nd with bootStep := k, bootFailed := true, bootClk := s.clk } } := by rw [State.boot, hk]
    rw [h]
    exact ⟨rfl, nofun, fun j e => by cases e; exact ⟨rfl, rfl⟩⟩

/-- Boot changes the N-die alone, and of it neither the fused security version nor the fused keys. -/
theorem State.boot_frame (s : State) : ({ s.boot with nd := s.nd } : State) = s ∧ s.boot.nd.svn = s.nd.svn := by
  rw [State.boot]
  split <;> exact ⟨rfl, rfl⟩

/-- An image of the N-die below the fused security version fails boot step 2, which step 1 precedes. -/
theorem State.bootFailure_of_oldImage {s : State} (h1 : Config.stepFails s.clk 1 = false) (h2 : Config.imageSvn s.clk 0 < s.nd.svn) :
    s.bootFailure = some 2 := by
  have hone : s.stepOk 1 = true := by simp [State.stepOk, h1]
  have htwo : s.stepOk 2 = false := by simp [State.stepOk, State.imageOk, h2]
  simp [State.bootFailure, List.find?, hone, htwo]

theorem exec_powerOn_boots {s : State} (h : s.nd.bootStep = 0) : exec .powerOn s = .next s.boot := by
  rw [exec_powerOn, execPowerOn, if_pos h]

theorem exec_packageReset_boots {s : State} (h : s.nd.bootStep ≠ 0) :
    exec .packageReset s = .next ({ s.unpowered with dry := s.dry } : State).boot := by
  rw [exec_packageReset, execPackageReset, if_neg h]

/-- Without power the fuses of every cluster keep its retired cores. -/
theorem State.retired_unpowered (s : State) (g : Nat) : (s.unpowered.cluster g).retired = (s.cluster g).retired := by
  simp only [State.cluster, State.unpowered, tgetD, tget?_tmap]
  cases tget? s.clusters g <;> rfl

/-- Boot from a state that has the clk, the fused security version and the fused key of `s` ends as it would from `s`. -/
theorem State.boots {s u : State} (hfail : u.bootFailure = s.bootFailure) (hclk : u.clk = s.clk) : u.boot.nd.bootClk = s.clk ∧
    (s.bootFailure = none → u.boot.nd.bootStep = 5 ∧ u.boot.nd.bootFailed = false ∧ u.boot.timeNs = 0) ∧
    (∀ k, s.bootFailure = some k → u.boot.nd.bootStep = k ∧ u.boot.nd.bootFailed = true) ∧
    (Config.stepFails s.clk 1 = false → Config.imageSvn s.clk 0 < s.nd.svn → u.boot.nd.bootStep = 2 ∧ u.boot.nd.bootFailed = true) := by
  obtain ⟨hend, hok, hbad⟩ := u.boot_ends
  rw [hfail] at hok hbad
  exact ⟨hend.trans hclk, hok, hbad, fun h1 h2 => hbad 2 (State.bootFailure_of_oldImage h1 h2)⟩

/-- Settles O55, one event at a time. -/
theorem powerEvents : Obligations.PowerEvents := by
  intro s
  refine ⟨fun die c hdie hdead => ⟨fun hc => ?_, exec_thermalLimit_loses hdie hdead, exec_thermalLimit_hot hdie hdead⟩,
    fun die c hhot hdead => ⟨fun hc => ?_, exec_thermalRecover_cool hhot hdead⟩, ?_, ?_, ?_⟩
  · rw [exec_thermalLimit, execThermalLimit, if_pos (by simp [hc])]
  · rw [exec_thermalRecover, execThermalRecover, if_pos (by simp [hc])]
  · intro r p high calm
    exact ⟨exec_powerSample_high, exec_powerSample_level, exec_powerSample_calm⟩
  · rintro i (⟨rfl, hstep⟩ | ⟨rfl, hstep⟩)
    · obtain ⟨hend, hok, hbad, hold⟩ := State.boots (s := s) (u := s) rfl rfl
      exact ⟨s.boot, exec_powerOn_boots hstep, hend, hok, hbad, hold, fun _ => s.boot_frame.1, nofun⟩
    · let u : State := { s.unpowered with dry := s.dry }
      obtain ⟨hend, hok, hbad, hold⟩ := State.boots (s := s) (u := u) (s.bootFailure_unpowered s.dry) rfl
      obtain ⟨hframe, hsvn⟩ := u.boot_frame
      have field {α : Type} (f : State → α) (hf : f { u.boot with nd := u.nd } = f u.boot) : f u.boot = f u := hf.symm.trans (congrArg f hframe)
      exact ⟨u.boot, exec_packageReset_boots hstep, hend, hok, hbad, hold, nofun, fun _ =>
        ⟨field State.dry rfl, field State.waves rfl, field State.blocks rfl, field State.ctxs rfl, field State.dead rfl, field State.poison rfl, hsvn⟩⟩
  · exact ⟨s.unpowered, rfl, rfl, rfl, rfl, rfl, rfl, rfl, rfl, rfl, rfl, rfl, rfl, rfl, s.retired_unpowered⟩

end Sys2Proof.Machine

namespace Sys2Proof.Machine
open Sys2Proof.Claims

/-! Writes at package scope where no decant record lives (R277, R316). -/

/-- `u` is `s` but for DRAM, poison marks and what moves lines; the decant counters live as in `s`. -/
structure State.Published (s u : State) : Prop where
  rest : ({ u with mem := s.mem, poison := s.poison, cores := s.cores, clusters := s.clusters, stackTbl := s.stackTbl, homes := s.homes,
                   net := s.net, waiting := s.waiting } : State) = s
  counters : ∀ g, (u.cluster g).counters = (s.cluster g).counters

theorem State.Published.refl (s : State) : s.Published s := ⟨rfl, fun _ => rfl⟩

section
variable {s u : State} (h : s.Published u)
include h

theorem State.Published.nd_eq : u.nd = s.nd := (congrArg State.nd h.rest :)
theorem State.Published.out_eq : u.out = s.out := (congrArg State.out h.rest :)
theorem State.Published.waves_eq : u.waves = s.waves := (congrArg State.waves h.rest :)
theorem State.Published.blocks_eq : u.blocks = s.blocks := (congrArg State.blocks h.rest :)
theorem State.Published.fabric_eq : u.fabric = s.fabric := (congrArg State.fabric h.rest :)
theorem State.Published.counter_eq (r : Nat) : u.counter r = s.counter r := by rw [State.counter, State.counter, h.counters]

theorem State.Published.trans {v : State} (hv : u.Published v) : s.Published v :=
  ⟨(congrArg (fun x : State => { x with mem := s.mem, poison := s.poison, cores := s.cores, clusters := s.clusters, stackTbl := s.stackTbl,
                                        homes := s.homes, net := s.net, waiting := s.waiting }) hv.rest :).trans h.rest,
    fun g => (hv.counters g).trans (h.counters g)⟩

end

theorem State.Published.of_sameArch {s u : State} (h : s.sameArch u) : s.Published u :=
  ⟨(congrArg (fun x : State => { x with mem := s.mem, poison := s.poison }) h.rest :), h.counters⟩

theorem State.length_ownBytes (s : State) (pa : Nat) (bs : List Byte) : (s.ownBytes pa bs).length = bs.length := by
  rw [State.ownBytes, List.length_map, List.length_zipIdx]

/-- A byte that is not the device's is written as it is. -/
theorem State.getD_ownBytes {s : State} {pa : Nat} {bs : List Byte} {i : Nat} (hi : i < bs.length) (hd : s.deviceByte (pa + i) = false) :
    (s.ownBytes pa bs).getD i 0 = bs.getD i 0 := by
  rw [List.getD_eq_getElem _ _ (by rwa [State.length_ownBytes]), List.getD_eq_getElem _ _ hi]
  simp [State.ownBytes, hd]

theorem State.decantBreak_unchanged {s : State} {line : Nat} (hc : s.counter line = none) : s.decantBreak line = s := by
  rw [State.counter] at hc
  rw [State.decantBreak, hc]
  rfl

section
variable {s : State} {pa : Nat} (hc : s.counter (lineOf pa) = none) (bs : List Byte)
include hc

/-- Where no decant record lives a write at the owner changes its own bytes and the poison of its granules; data on their way show them. -/
theorem State.writeOwned_own : ∃ P N W, s.writeOwned pa bs =
    { s with mem := memPut s.mem pa (s.ownBytes pa bs), poison := P, net := N, waiting := W } := by
  have hbreak : ({ s.memWrite pa (s.ownBytes pa bs) with poison := clearGranules s.poison pa (s.ownBytes pa bs).length } : State).decantBreak
      (lineOf pa) = { s.memWrite pa (s.ownBytes pa bs) with poison := clearGranules s.poison pa (s.ownBytes pa bs).length } :=
    State.decantBreak_unchanged hc
  simp only [State.writeOwned, State.writeBytes, hbreak]
  split
  · exact ⟨_, _, _, rfl⟩
  · exact ⟨_, _, _, rfl⟩

theorem State.publish_published : s.Published (s.publish pa bs) := by
  obtain ⟨P, N, W, hw⟩ := State.writeOwned_own hc bs
  have hwrite : s.Published (s.writeOwned pa bs) := by
    rw [hw]
    exact ⟨rfl, fun _ => rfl⟩
  exact hwrite.trans (.of_sameArch (State.publishLine_same _ _ (State.sameArch_refl _)))

theorem State.mem_publish_own : (s.publish pa bs).mem = memPut s.mem pa (s.ownBytes pa bs) := by
  obtain ⟨P, N, W, hw⟩ := State.writeOwned_own hc bs
  rw [State.publish, State.sameArch_mem (State.publishLine_same _ _ (State.sameArch_refl _)), hw]

theorem State.memByte_publish_plain {i : Nat} (hi : i < bs.length) (hd : s.deviceByte (pa + i) = false) :
    memByte (s.publish pa bs).mem (pa + i) = bs.getD i 0 := by
  rw [State.mem_publish_own hc, memByte_memPut_inside _ _ _ _ (by rwa [State.length_ownBytes]), State.getD_ownBytes hi hd]

end

/-! The check of a remote request (R400). -/

section
variable {s : State} {qp rkey bit n : Nat} {va : Dword} {a : Access} (hq : s.qpUp qp = true)
include hq

theorem State.remote_refused {k : Nat} (h : s.checkRemote rkey bit va n a = .error k) (f : State → Parts → State) :
    s.remote qp rkey bit va n a f = .next (s.emit (.roceNak qp k)) := by
  rw [State.remote, hq, h]
  rfl

theorem State.remote_performed {ps : Parts} (h : s.checkRemote rkey bit va n a = .ok ps) (hheld : s.partsHeld ps = false)
    (f : State → Parts → State) : s.remote qp rkey bit va n a f = .next (f s ps) := by
  rw [State.remote, hq, h]
  dsimp only
  rw [hheld]
  rfl

end

/-- The parts of a range keep their offsets and lengths under translation. -/
theorem State.map_snd_translateParts {s : State} {ctx : Nat} {a : Access} {xs : List (Dword × Nat × Nat)} {ps : Parts}
    (h : s.translateParts ctx a xs = .ok ps) : ps.map Prod.snd = xs.map Prod.snd := by
  induction xs generalizing ps with
  | nil => cases h; rfl
  | cons x xs ih =>
    rw [State.translateParts] at h
    split at h
    · rename_i hr
      cases h
      rw [List.map_cons, List.map_cons, ih hr]
    · cases h

/-- A request that passes its check lies in the parts of its range. -/
theorem State.map_snd_checkRemote {s : State} {rkey bit n : Nat} {va : Dword} {a : Access} {ps : Parts}
    (h : s.checkRemote rkey bit va n a = .ok ps) : ps.map Prod.snd = (lineParts va n).map Prod.snd := by
  rw [State.checkRemote] at h
  split at h
  · cases h
  · split at h
    · cases h
    · split at h
      · cases h
      · rename_i hparts
        split at h
        · cases h
        · split at h
          · cases h
          · split at h
            · cases h
            · cases h
              exact State.map_snd_translateParts hparts

/-- A range of one part is that part: one that leaves its first line has a second. -/
theorem lineParts_single {va : Dword} {n : Nat} {x : Dword × Nat × Nat} (hn : 0 < n) (h : lineParts va n = [x]) : x.2 = (0, n) := by
  have ho : va.toNat % 64 < 64 := Nat.mod_lt _ (by omega)
  by_cases hfit : va.toNat % 64 + n ≤ 64
  · have hlines : (va.toNat % 64 + n + 63) / 64 = 1 := by omega
    have hlen : min n (64 - va.toNat % 64) = n := by omega
    simp only [lineParts, hlines, List.range_one, List.filterMap_cons, List.filterMap_nil, Nat.zero_mul, Nat.zero_sub, Nat.zero_add, hlen, hn,
      if_true, Nat.sub_zero, List.cons.injEq, and_true] at h
    rw [← h]
  · obtain ⟨k, hlines⟩ : ∃ k, (va.toNat % 64 + n + 63) / 64 = k + 2 := ⟨(va.toNat % 64 + n + 63) / 64 - 2, by omega⟩
    have h0 : 0 < min n (64 - va.toNat % 64) := by omega
    have h1 : 64 - va.toNat % 64 < min n (64 + 64 - va.toNat % 64) := by omega
    have hlen := congrArg List.length h
    simp only [lineParts, hlines, List.range_succ_eq_map, List.map_cons, List.filterMap_cons, Nat.zero_mul, Nat.zero_sub, Nat.zero_add,
      Nat.succ_eq_add_one, Nat.one_mul, h0, h1, if_true, List.length_cons, List.length_nil] at hlen
    omega

/-! Remote requests (R398 to R401). -/

/-- The parts of a remote write are published one after another (R400). -/
def State.publishParts (s : State) (bytes : List Byte) (ps : Parts) : State :=
  ps.foldl (fun (u : State) p => u.publish p.1 ((bytes.drop p.2.1).take p.2.2)) s

theorem State.publishParts_published {s : State} (bytes : List Byte) {ps : Parts} (hc : ∀ p ∈ ps, s.counter (lineOf p.1) = none) :
    s.Published (s.publishParts bytes ps) := by
  induction ps generalizing s with
  | nil => exact .refl s
  | cons p ps ih =>
    have hp := State.publish_published (hc p List.mem_cons_self) ((bytes.drop p.2.1).take p.2.2)
    exact hp.trans (ih fun q hq => (hp.counter_eq _).trans (hc q (List.mem_cons_of_mem p hq)))

theorem State.memByte_publishParts_outside {s : State} (bytes : List Byte) {ps : Parts} (hc : ∀ p ∈ ps, s.counter (lineOf p.1) = none)
    {a : Nat} (ha : ∀ p ∈ ps, a < p.1 ∨ p.1 + p.2.2 ≤ a) : memByte (s.publishParts bytes ps).mem a = memByte s.mem a := by
  induction ps generalizing s with
  | nil => rfl
  | cons p ps ih =>
    have hp0 := hc p List.mem_cons_self
    have hp := State.publish_published hp0 ((bytes.drop p.2.1).take p.2.2)
    refine (ih (fun q hq => (hp.counter_eq _).trans (hc q (List.mem_cons_of_mem p hq))) fun q hq => ha q (List.mem_cons_of_mem p hq)).trans ?_
    refine State.memByte_publish_outside hp0 ((ha p List.mem_cons_self).imp_right fun h => le_trans ?_ h)
    exact Nat.add_le_add_left (List.length_take_le _ _) _

theorem State.showLine_same {s0 : State} (s : State) (line : Nat) (hs : s0.sameArch s) : s0.sameArch (s.showLine line) := by
  rw [State.showLine]
  split
  · exact State.publishLine_same _ _ hs
  · exact hs

theorem State.showLines_same (s : State) (ps : Parts) : s.sameArch (ps.foldl (fun (u : State) p => u.showLine (lineOf p.1)) s) :=
  foldl_same _ (fun u p hu => State.showLine_same u (lineOf p.1) hu) ps s (State.sameArch_refl s)

section
variable {s : State} {qp rkey : Nat} {va : Dword} (hq : s.qpUp qp = true)
include hq

theorem exec_rdmaWrite_performed {bs : List Byte} (hlen : bs.length ≤ frameLimit) {ps : Parts}
    (h : s.checkRemote rkey 2 va bs.length .write = .ok ps) (hheld : s.partsHeld ps = false) :
    exec (.rdmaWrite qp rkey va bs) s = .next ((s.publishParts bs ps).emit (.roceAck qp)) := by
  rw [exec_rdmaWrite, execRdmaWrite, if_neg (by omega)]
  exact State.remote_performed hq h hheld _

theorem exec_rdmaRead_performed {n : Nat} {ps : Parts} (h : s.checkRemote rkey 1 va n .read = .ok ps) (hheld : s.partsHeld ps = false) :
    exec (.rdmaRead qp rkey va n) s = .next ((ps.foldl (fun (u : State) p => u.showLine (lineOf p.1)) s).emit
      (.roceData qp (ps.flatMap (fun p => memBytes s.mem p.1 p.2.2)))) := by
  rw [exec_rdmaRead, execRdmaRead]
  exact State.remote_performed hq h hheld _

/-- What a remote read-modify-write that passes its check does: the new value is published, or the line shown as it is. -/
def State.modified (s : State) (pa : Nat) (v : Option Nat) : State :=
  match v with
  | some v => s.publish pa (leBytes 8 v)
  | none => s.showLine (lineOf pa)

theorem State.remoteAtomic_performed {p : Nat × Nat × Nat} {ps : Parts} (h : s.checkRemote rkey 3 va 8 .rmw = .ok (p :: ps))
    (hheld : s.partsHeld (p :: ps) = false) (f : Nat → Option Nat) : s.remoteAtomic qp rkey va f =
      .next ((s.modified p.1 (f (memNat s.mem p.1 8))).emit (.roceOld qp (memNat s.mem p.1 8))) := by
  rw [State.remoteAtomic, State.remote_performed hq h hheld]
  dsimp only
  cases f (memNat s.mem p.1 8) <;> rfl

theorem exec_atomicCompareSwap_performed {x y : Dword} {p : Nat × Nat × Nat} {ps : Parts}
    (h : s.checkRemote rkey 3 va 8 .rmw = .ok (p :: ps)) (hheld : s.partsHeld (p :: ps) = false) :
    exec (.atomicCompareSwap qp rkey va x y) s = .next ((s.modified p.1
      (if memNat s.mem p.1 8 = x.toNat then some y.toNat else none)).emit (.roceOld qp (memNat s.mem p.1 8))) := by
  rw [exec_atomicCompareSwap, execAtomicCompareSwap, State.remoteAtomic_performed hq h hheld]

theorem exec_atomicFetchAdd_performed {x : Dword} {p : Nat × Nat × Nat} {ps : Parts}
    (h : s.checkRemote rkey 3 va 8 .rmw = .ok (p :: ps)) (hheld : s.partsHeld (p :: ps) = false) :
    exec (.atomicFetchAdd qp rkey va x) s = .next ((s.modified p.1 (some ((memNat s.mem p.1 8 + x.toNat) % 2 ^ 64))).emit
      (.roceOld qp (memNat s.mem p.1 8))) := by
  rw [exec_atomicFetchAdd, execAtomicFetchAdd, State.remoteAtomic_performed hq h hheld]

end

section
variable {s : State} {pa : Nat} (hc : s.counter (lineOf pa) = none)
include hc

theorem State.modified_published (v : Option Nat) : s.Published (s.modified pa v) := by
  cases v with
  | some v => exact State.publish_published hc _
  | none => exact .of_sameArch (State.showLine_same s _ s.sameArch_refl)

theorem State.memByte_modified_outside (v : Option Nat) {a : Nat} (ha : a < pa ∨ pa + 8 ≤ a) :
    memByte (s.modified pa v).mem a = memByte s.mem a := by
  cases v with
  | some v => exact State.memByte_publish_word hc v ha
  | none => rw [State.modified, State.sameArch_mem (State.showLine_same s _ s.sameArch_refl)]

/-- The word holds the new value, or what it held. -/
theorem State.memNat_modified (hd : ∀ a, pa ≤ a → a < pa + 8 → s.deviceByte a = false) {v : Option Nat} (hv : ∀ x, v = some x → x < 2 ^ 64) :
    memNat (s.modified pa v).mem pa 8 = v.getD (memNat s.mem pa 8) := by
  cases v with
  | some v => exact State.memNat_publish hc hd (hv v rfl)
  | none => rw [State.modified, State.sameArch_mem (State.showLine_same s _ s.sameArch_refl), Option.getD_none]

end

/-! Frames of a paused priority (R398). -/

theorem exec_priorityFlowControl_pauses {s : State} (hup : s.portUp = true) {priority : Nat} (hp : priority < 8) :
    exec (.priorityFlowControl priority true) s =
      .next { s with nd := { s.nd with paused := s.nd.paused.filter (fun p => p != priority) ++ [priority] } } := by
  rw [exec_priorityFlowControl, execPriorityFlowControl, hup, if_neg (by simp; omega)]
  rfl

theorem exec_priorityFlowControl_goesOn {s : State} (hup : s.portUp = true) {priority : Nat} (hp : priority < 8) :
    let nd : NDie := { s.nd with paused := s.nd.paused.filter (fun p => p != priority) }
    exec (.priorityFlowControl priority false) s =
      .next { s with nd := { nd with heldOut := s.nd.heldOut.filter nd.holds }, out := s.out ++ s.nd.heldOut.filter (fun o => !nd.holds o) } := by
  rw [exec_priorityFlowControl, execPriorityFlowControl, hup, if_neg (by simp; omega)]
  rfl

/-- Settles O53, one event at a time. -/
theorem portEvents : Obligations.PortEvents := by
  intro s qp rkey va hup
  refine ⟨fun hq => ⟨fun bs => ⟨fun hlen => ?_, fun k hlen h => ?_, fun ps hlen h hheld hc => ?_⟩, fun n => ⟨fun k h => ?_, fun ps h hheld => ?_⟩,
      fun x y => ⟨fun k h => ⟨?_, ?_⟩, fun p ps h hheld hc hd => ?_⟩⟩,
    ?_, ?_, fun he => ?_, fun query => ?_, fun f => rfl, fun o => State.emit_held, fun o => State.emit_sent, fun priority pause hp => ?_⟩
  · exact if_pos hlen
  · exact (if_neg (Nat.not_lt.2 hlen)).trans (State.remote_refused hq h _)
  · have hpub := State.publishParts_published bs hc
    refine ⟨_, exec_rdmaWrite_performed hq hlen h hheld, hpub.nd_eq, hpub.out_eq, hpub.waves_eq, hpub.blocks_eq,
      fun a ha => State.memByte_publishParts_outside bs hc ha, fun p hp i hi hd => ?_⟩
    have hsnd := State.map_snd_checkRemote h
    rw [hp, List.map_cons, List.map_nil] at hsnd
    obtain ⟨x, hx, hxp⟩ := List.map_eq_singleton_iff.1 hsnd.symm
    rw [lineParts_single (by omega) hx] at hxp
    have hoff : p.2.1 = 0 := by rw [← hxp]
    have hlen : p.2.2 = bs.length := by rw [← hxp]
    have hpart : s.publishParts bs ps = s.publish p.1 bs := by
      rw [hp, State.publishParts, List.foldl_cons, List.foldl_nil, hoff, hlen, List.drop_zero, List.take_length]
    rw [hpart]
    exact State.memByte_publish_plain (hc p (by rw [hp]; exact List.mem_singleton_self p)) bs hi hd
  · rw [exec_rdmaRead, execRdmaRead, State.remote_refused hq h]
  · have hs := s.showLines_same ps
    exact ⟨_, exec_rdmaRead_performed hq h hheld, (congrArg State.nd hs.rest :), State.sameArch_out hs, State.sameArch_mem hs,
      State.sameArch_waves hs, State.sameArch_blocks hs⟩
  · rw [exec_atomicCompareSwap, execAtomicCompareSwap, State.remoteAtomic, State.remote_refused hq h]
  · rw [exec_atomicFetchAdd, execAtomicFetchAdd, State.remoteAtomic, State.remote_refused hq h]
  · have hp (v : Option Nat) := State.modified_published hc v
    refine ⟨⟨_, exec_atomicCompareSwap_performed hq h hheld, (hp _).nd_eq, (hp _).out_eq, (hp _).waves_eq, ?_,
        fun a ha => State.memByte_modified_outside hc _ ha⟩,
      ⟨_, exec_atomicFetchAdd_performed hq h hheld, (hp _).nd_eq, (hp _).out_eq, (hp _).waves_eq, ?_,
        fun a ha => State.memByte_modified_outside hc _ ha⟩⟩
    · refine (State.memNat_modified hc hd fun z hz => ?_).trans ?_
      · split at hz
        · cases hz; exact y.isLt
        · cases hz
      · split <;> rfl
    · exact State.memNat_modified hc hd fun z hz => by cases hz; exact Nat.mod_lt _ (by decide)
  · rw [exec_roceUnsupportedRequest, execRoceUnsupportedRequest, if_pos hup]
  · rfl
  · rw [exec_roceAcknowledgement, execRoceAcknowledgement, hup, he]
    rfl
  · rw [exec_neighbourResolution, execNeighbourResolution, if_pos hup]
  · cases pause with
    | true =>
      refine ⟨_, exec_priorityFlowControl_pauses hup hp, fun p => ?_, fun _ => rfl, nofun⟩
      rw [List.mem_append, List.mem_filter, List.mem_singleton, bne_iff_ne, or_comm, and_comm (a := p ∈ _), eq_self_iff_true, and_true]
    | false =>
      refine ⟨_, exec_priorityFlowControl_goesOn hup hp, fun p => ?_, nofun, fun _ => ⟨rfl, rfl, rfl⟩⟩
      rw [List.mem_filter, bne_iff_ne, and_comm (a := p ∈ _)]
      simp

end Sys2Proof.Machine

namespace Sys2Proof.Machine
open Sys2Proof.Claims

/-! Routes avoid the elements that are routed around (R392, R395, R434). -/

theorem mem_of_leastOf {f : Nat → Nat} {ns : List Nat} {n : Nat} (h : leastOf f ns = some n) : n ∈ ns := by
  have hfold := List.foldlRecOn (motive := fun b : Option (Nat × Nat) => ∀ q, b = some q → q.1 ∈ ns) ns
    (fun b n => match b with
      | some q => if q.2 ≤ f n then some q else some (n, f n)
      | none => some (n, f n)) (b := none) nofun (fun b hb m hm q hq => by
    cases b with
    | none => cases hq; exact hm
    | some b =>
      dsimp only at hq
      split at hq
      · exact hb q hq
      · cases hq; exact hm)
  rw [leastOf, Option.map_eq_some_iff] at h
  obtain ⟨q, hq, rfl⟩ := h
  exact hfold q hq

theorem upElevator_clear {bad : List Element} {stack n c t : Nat} (h : upElevator bad stack n c = some t) :
    bad.contains (.elevator stack t) = false := by
  rw [upElevator] at h
  split at h
  · rename_i hc; cases h; simpa using hc
  · simpa using (List.mem_filter.1 (mem_of_leastOf h)).2

theorem downElevator_clear {bad : List Element} {stack c region t : Nat} (h : downElevator bad stack c region = some t) :
    bad.contains (.elevator stack t) = false := by
  rw [downElevator] at h
  split at h
  · rename_i hc; cases h; simpa using hc
  · simpa using (List.mem_filter.1 (mem_of_leastOf h)).2

theorem outPort_clear {bad : List Element} {stack n t p : Nat} (h : outPort bad stack n t = some p) :
    bad.contains (.port stack p) = false := by
  rw [outPort] at h
  split at h
  · have hmem := List.mem_of_getElem? h
    rw [portsTo, List.mem_filter, Bool.and_eq_true, portClear, Bool.and_eq_true] at hmem
    simpa using hmem.2.2.1
  · cases h

/-- A step along a mesh crosses no element. -/
theorem hopElement_toward (router : Nat) (a b : Nat × Nat) : hopElement router (toward a b) = none := by
  rw [toward]
  split
  · rfl
  split
  · rfl
  split
  · rfl
  split
  · rfl
  · rfl

/-- The hop of a slice router crosses no element that is routed around. -/
theorem sliceHop_clear {bad : List Element} {router region : Nat} {h : Hop} (hr : 256 ≤ router) (hn : router ≠ 512)
    (hh : sliceHop bad ((router - 256) / 32) ((router - 256) % 32) region = some h) {e : Element} (he : hopElement router h = some e) :
    bad.contains e = false := by
  rw [sliceHop] at hh
  split at hh
  · cases hh
  · rename_i x hx
    split at hh
    · cases hh
      rw [hopElement_toward] at he
      cases he
    · rename_i hxn
      have hxn : x = (router - 256) % 32 := by simpa using hxn
      split at hh
      · rename_i hstack
        cases hh
        split at he
        · rename_i hregion
          rw [exitSlice, if_pos hstack, if_neg (by omega), if_pos hregion] at hx
          have hclear := upElevator_clear hx
          rw [hopElement, if_neg (by omega)] at he
          cases he
          rwa [hxn, show (router - 256) % 32 = router % 32 by omega] at hclear
        · cases he
      · obtain ⟨p, hp, rfl⟩ := Option.map_eq_some_iff.1 hh
        rw [hopElement, if_neg hn] at he
        cases he
        exact outPort_clear hp

/-- The hop of a cluster router crosses no element that is routed around. -/
theorem clusterHop_clear {bad : List Element} {router region : Nat} {h : Hop} (hr : router < 256)
    (hh : clusterHop bad router region = some h) {e : Element} (he : hopElement router h = some e) : bad.contains e = false := by
  rw [clusterHop] at hh
  split at hh
  · cases hh
    rw [hopElement_toward] at he
    cases he
  · split at hh
    · cases hh
    · rename_i t ht
      split at hh
      · rename_i htr
        cases hh
        rw [hopElement, if_pos hr] at he
        cases he
        rw [← htr]
        exact downElevator_clear ht
      · cases hh
        rw [hopElement_toward] at he
        cases he

/-- No entry names an element that is routed around. -/
theorem hopOf_avoids {bad : List Element} {router region : Nat} {h : Hop} {e : Element} (hmem : e ∈ bad) (hh : hopOf bad router region = some h) :
    hopElement router h ≠ some e := by
  intro he
  have hcontains : bad.contains e = true := List.contains_iff_mem.2 hmem
  rw [hopOf] at hh
  split at hh
  · rename_i h512
    subst h512
    split at hh
    · cases hh; cases he
    · cases hh
      rw [hopElement, if_pos rfl] at he
      cases he
  · rename_i h512
    split at hh
    · exact Bool.false_ne_true ((sliceHop_clear ‹_› h512 hh he).symm.trans hcontains)
    · exact Bool.false_ne_true ((clusterHop_clear (by omega) hh he).symm.trans hcontains)

/-- An entry whose hop crosses an element that has failed is marked DOWN (R395). -/
theorem Fabric.entry_down {f : Fabric} {e : Element} (hd : e ∈ f.down) {router region : Nat} {h : Hop}
    (hh : hopOf f.around router region = some h) (he : hopElement router h = some e) : 32 ≤ f.entry router region := by
  have hdown : f.isDown e = true := by rw [Fabric.isDown, List.contains_iff_mem.2 hd, Bool.true_or]
  simp only [Fabric.entry, hh, Option.getD_some, he, Option.any_some, hdown, Bool.true_or, if_true]
  exact Nat.le_add_left _ _

/-! Failure and retirement (R394, R395). -/

/-- The fabric after an element has failed with the packets inside it. -/
def Fabric.broken (f : Fabric) (e : Element) (clk : Nat) (lost : List (Instr × Nat)) : Fabric :=
  { f with
    lost := lost, down := f.down ++ [e], leaving := f.leaving.filter (fun l => l.element != e),
    rewriteBy := if f.around.contains e then f.rewriteBy else f.rewriteBy ++ [(e, clk + 2000)] }

section
variable {s : State} {e : Element}

theorem State.breakElements_single (hdown : s.fabric.down.contains e = false) (hoff : s.fabric.off.contains e = false) :
    s.breakElements [e] = { s with fabric := s.fabric.broken e s.clk (s.dropInside e).fabric.lost } := by
  rw [State.breakElements, List.foldl_cons, List.foldl_nil, hdown, hoff]
  rfl

theorem exec_elementFailure_breaks (hvalid : elementValid e = true) (hdown : s.fabric.down.contains e = false)
    (hoff : s.fabric.off.contains e = false) : ∃ lost dry, let t : State := { s with fabric := s.fabric.broken e s.clk lost, dry := dry }
    exec (.elementFailure e) s = .next (if s.fabric.around.contains e then t.loseCutOff e else t) := by
  refine ⟨(s.dropInside e).fabric.lost, (s.logElement e 0x05 (if elementIsPort e then 1 else 0)).dry, ?_⟩
  rw [exec_elementFailure, execElementFailure, State.breakElements_single hdown hoff, hvalid, hdown, hoff]
  rfl

theorem State.loseCutOff_elevator (s : State) (h : elementIsPort e = false) : s.loseCutOff e = s := by
  rw [State.loseCutOff, h]
  rfl

theorem State.loseCutOff_joined (h : s.cutOff = []) : s.loseCutOff e = s := by
  rw [State.loseCutOff, h]
  split <;> rfl

/-- The fabric after the entries have been rewritten round a failed element. -/
def Fabric.rewritten (f : Fabric) (e : Element) : Fabric :=
  { f with
    rewriteBy := f.rewriteBy.filter (fun p => p.1 != e), around := if f.around.contains e then f.around else f.around ++ [e] }

theorem Fabric.mem_around_rewritten (f : Fabric) (e : Element) : e ∈ (f.rewritten e).around := by
  simp only [Fabric.rewritten]
  split
  · rename_i h; simpa using h
  · simp

theorem exec_routeRewrite_rewrites (h : s.fabric.rewriteBy.any (fun p => p.1 == e) = true) :
    ∃ dry, exec (.routeRewrite e) s = .next (({ s with fabric := s.fabric.rewritten e, dry := dry } : State).loseCutOff e) := by
  refine ⟨(s.logElement e 0x06 1).dry, ?_⟩
  have hnone : s.fabric.rewriteBy.all (fun p => p.1 != e) = false := by simpa using h
  rw [exec_routeRewrite, execRouteRewrite, hnone]
  rfl

theorem exec_elementRetire_starts (hvalid : elementValid e = true) (hworks : s.fabric.works e = true) :
    exec (.elementRetire e) s = .next (s.startRetire e) := by
  rw [exec_elementRetire, execElementRetire, hvalid, hworks]
  rfl

theorem State.quietFor_of_leaving {l : Leaving} (hl : l ∈ s.fabric.leaving) (hinside : l.inside = []) (hsince : l.since + 2048 ≤ s.clk) :
    s.quietFor l.element = true :=
  List.any_eq_true.2 ⟨l, hl, by simp [hinside, hsince]⟩

theorem State.quietFor_false {l : Leaving} (hl : s.fabric.leaving = [l]) (h : l.inside ≠ [] ∨ s.clk < l.since + 2048) :
    s.quietFor l.element = false := by
  rw [State.quietFor, hl]
  rcases h with h | h
  · simp [h]
  · simp [Nat.not_le.2 h]

end

end Sys2Proof.Machine

namespace Sys2Proof.Machine
open Sys2Proof.Claims

/-! What a source gives up in HOME_OFFLINE (R396, R408). -/

theorem mem_tset {α : Type} {t : Tbl α} {n : Nat} {v : α} {p : Nat × α} (h : p ∈ tset t n v) : p = (n, v) ∨ p ∈ t := by
  induction t with
  | nil => exact .inl (List.mem_singleton.1 h)
  | cons q t ih =>
    obtain ⟨k, w⟩ := q
    simp only [tset] at h
    split at h
    · exact List.mem_cons.1 h
    · split at h
      · exact (List.mem_cons.1 h).imp_right (List.mem_cons_of_mem _)
      · rcases List.mem_cons.1 h with h | h
        · exact .inr (h ▸ List.mem_cons_self)
        · exact (ih h).imp_right (List.mem_cons_of_mem _)

/-- `u` is `s` but for the cores and the waves, of which none has ended. -/
structure State.living (s u : State) : Prop where
  rest : ({ u with cores := s.cores, waves := s.waves } : State) = s
  running : ∀ p ∈ u.waves, p.2.ended = false

theorem State.living.refl {s : State} (h : ∀ p ∈ s.waves, p.2.ended = false) : s.living s := ⟨rfl, h⟩

section
variable {s u : State} (h : s.living u)
include h

theorem State.living.modWave (wid : Nat) {f : Wave → Wave} (hf : ∀ w, (f w).ended = w.ended) : s.living (u.modWave wid f) := by
  refine ⟨h.rest, fun p hp => ?_⟩
  rw [State.modWave_waves, tmodify] at hp
  split at hp
  · rename_i w hw
    rcases mem_tset hp with rfl | hp
    · exact (hf w).trans (h.running _ (tget?_mem hw))
    · exact h.running p hp
  · exact h.running p hp

theorem State.living.alive (wid : Nat) : (tgetD u.waves wid {}).ended = false := by
  rw [tgetD]
  cases hw : tget? u.waves wid with
  | none => rfl
  | some w => exact h.running _ (tget?_mem hw)

theorem State.living.defer (wid : Nat) (t : TrapInfo) : s.living (u.defer wid t) := by
  rw [State.defer_alive (h.alive wid)]
  exact h.modWave wid fun _ => rfl

theorem State.living.deliver (wid lid : Nat) (p : PLoad) : s.living (u.deliver wid lid p) := by
  have hland := h.modWave wid (f := fun w => w.land lid p) fun w => w.land_ended lid p
  rw [State.deliver]
  split
  · exact hland.defer wid _
  · exact hland

end

theorem State.fabric_defer (s : State) (wid : Nat) (t : TrapInfo) : (s.defer wid t).fabric = s.fabric := by
  simp only [State.defer]
  split
  · simp only [State.reportFatal, State.modCtx_fabric, State.logDry, State.memWrite]
  · rfl

theorem State.fabric_deliver (s : State) (wid lid : Nat) (p : PLoad) : (s.deliver wid lid p).fabric = s.fabric := by
  rw [State.deliver]
  split
  · exact State.fabric_defer _ _ _
  · rfl

/-- What is given up for one load. -/
def State.loseLoad (home wid : Nat) (v : State) (lp : Nat × PLoad) : State :=
  let p := lp.2.lose v.clk home
  let v1 := v.modWave wid (fun w => { w with loads := tset w.loads lp.1 p })
  if p.complete then v1.deliver wid lp.1 p else v1

theorem State.loseLoads_eq (s : State) (core home : Nat) : s.loseLoads core home =
    (s.waves.filter (fun p => p.2.core = core)).foldl (fun (u : State) wp => wp.2.loads.foldl (State.loseLoad home wp.1) u) s := rfl

theorem State.fabric_loseLoad (home wid : Nat) (v : State) (lp : Nat × PLoad) : (v.loseLoad home wid lp).fabric = v.fabric := by
  rw [State.loseLoad]
  split
  · exact State.fabric_deliver _ _ _ _
  · rfl

theorem State.fabric_loseLoads (s : State) (core home : Nat) : (s.loseLoads core home).fabric = s.fabric := by
  rw [State.loseLoads_eq]
  refine List.foldlRecOn (motive := fun u : State => u.fabric = s.fabric) _ _ rfl fun u hu wp _ => ?_
  exact List.foldlRecOn (motive := fun v : State => v.fabric = s.fabric) _ _ hu fun v hv lp _ => (v.fabric_loseLoad home wp.1 lp).trans hv

theorem State.living.loseLoads {s u : State} (h : s.living u) (core home : Nat) : s.living (u.loseLoads core home) := by
  rw [State.loseLoads_eq]
  refine List.foldlRecOn (motive := fun v : State => s.living v) _ _ h fun v hv wp _ => ?_
  refine List.foldlRecOn (motive := fun x : State => s.living x) _ _ hv fun x hx lp _ => ?_
  have hset := hx.modWave wp.1 (f := fun w => { w with loads := tset w.loads lp.1 (lp.2.lose x.clk home) }) fun _ => rfl
  rw [State.loseLoad]
  split
  · exact hset.deliver wp.1 lp.1 _
  · exact hset

/-- A queued write leaves its queue and ends in HOME_OFFLINE. -/
def State.loseWrite (core : Nat) (u : State) (p : Nat × WqEntry) : State := (u.dequeue core p.1).loseStore p.2

theorem State.loseWrites_eq (s : State) (core home : Nat) : s.loseWrites core home =
    ((s.core core).wq.filter (fun p => homeSlice p.2.pa = home)).foldl (State.loseWrite core) s := rfl

theorem State.fabric_loseWrites (s : State) (core home : Nat) : (s.loseWrites core home).fabric = s.fabric := by
  rw [State.loseWrites_eq]
  exact List.foldlRecOn (motive := fun u : State => u.fabric = s.fabric) _ _ rfl fun u hu p _ =>
    ((u.dequeue core p.1).fabric_defer p.2.wave p.2.trap).trans hu

theorem State.living.loseWrites {s u : State} (h : s.living u) (core home : Nat) : s.living (u.loseWrites core home) := by
  rw [State.loseWrites_eq]
  exact List.foldlRecOn (motive := fun v : State => s.living v) _ _ h fun v hv p _ => by
    have hq : s.living (v.dequeue core p.1) := ⟨hv.rest, hv.running⟩
    exact hq.defer p.2.wave p.2.trap

/-- Writes of one core given up leave its queue and no other. -/
theorem State.core_foldl_loseWrite (core : Nat) (ps : List (Nat × WqEntry)) (s : State) (k : Nat) : (ps.foldl (State.loseWrite core) s).core k =
    if k = core then { s.core core with wq := (s.core core).wq.filter (fun q => ps.all (fun p => q.1 != p.1)) } else s.core k := by
  induction ps generalizing s with
  | nil =>
    split
    · rename_i hk
      subst hk
      simp [List.filter_true]
    · rfl
  | cons p ps ih =>
    have hcore (j : Nat) : (s.loseWrite core p).core j =
        if j = core then { s.core core with wq := tdel (s.core core).wq p.1 } else s.core j := by
      rw [State.core, State.loseWrite, State.loseStore, State.cores_defer]
      exact State.core_modCore s core j _
    rw [List.foldl_cons, ih, hcore, hcore, if_pos rfl]
    split
    · simp only [tdel, List.filter_filter, List.all_cons, Bool.and_comm]
    · rfl

/-- Where a message starts and goes depends on no wave and no write queue. -/
theorem State.messageLane_congr {s : State} {cores : Tbl Core} {waves : Tbl Wave} {f : Fabric} {dry : Tbl Drydown}
    (hf : f.dataFrom = s.fabric.dataFrom) (ho : ∀ c, (tgetD cores c {}).outs = (s.core c).outs) (i : Instr) :
    ({ s with cores := cores, waves := waves, fabric := f, dry := dry } : State).messageLane i = s.messageLane i := by
  unfold State.messageLane
  split
  case h_4 => simp only [hf]
  case h_12 =>
    refine Eq.trans (congrArg (fun o => Option.map _ (tget? o _)) (ho _)) rfl
  all_goals rfl

/-- A request or response that a source carries once writes have left its queue it has carried before. -/
theorem State.carries_of_carries {s : State} {cores : Tbl Core} {waves : Tbl Wave} {f : Fabric} {dry : Tbl Drydown} {source home : Nat}
    (hsource : source < 2048) (hf : f.dataFrom = s.fabric.dataFrom) (ho : ∀ c, (tgetD cores c {}).outs = (s.core c).outs)
    (hwq : ∀ i e, tget? (tgetD cores source {}).wq i = some e → tget? (s.core source).wq i = some e) {i : Instr}
    (h : ({ s with cores := cores, waves := waves, fabric := f, dry := dry } : State).carries source home i = true) :
    s.carries source home i = true := by
  unfold State.carries at h ⊢
  split at h
  · rename_i c k
    rw [Bool.and_eq_true, beq_iff_eq, Option.any_eq_true] at h ⊢
    obtain ⟨rfl, e, he, hhome⟩ := h
    exact ⟨rfl, e, hwq k e he, hhome⟩
  · rw [Bool.and_eq_true, beq_iff_eq] at h
    omega
  · exact h
  · exact h
  · rename_i h1 h2 h3 h4
    rw [State.messageLane_congr hf ho] at h
    exact h

/-! Retransmission (R396). -/

/-- The fabric once what was lost of a source's requests to a home is on its way again. -/
def State.resent (s : State) (source home : Nat) (resend : Tbl Resend) : Fabric :=
  { s.fabric with lost := s.fabric.lost.filter (fun p => !s.carries source home p.1), resend := resend }

theorem State.carries_resent {s : State} {source home : Nat} {resend : Tbl Resend} :
    ∀ p ∈ (s.resent source home resend).lost, s.carries source home p.1 = false := by
  intro p hp
  simpa using (List.mem_filter.1 hp).2

/-- What a source's unanswered requests to a home leave of its queues when they end in HOME_OFFLINE. -/
def State.giveUp (s : State) (source home : Nat) : State :=
  if source < 2048 then s.loseWrites source home else if source < 4096 then s.loseLoads (source - 2048) home else s

theorem State.fabric_giveUp (s : State) (source home : Nat) : (s.giveUp source home).fabric = s.fabric := by
  rw [State.giveUp]
  split
  · exact s.fabric_loseWrites source home
  split
  · exact s.fabric_loseLoads (source - 2048) home
  · rfl

theorem State.living.giveUp {s : State} (h : ∀ p ∈ s.waves, p.2.ended = false) (source home : Nat) : s.living (s.giveUp source home) := by
  rw [State.giveUp]
  split
  · exact (State.living.refl h).loseWrites source home
  split
  · exact (State.living.refl h).loseLoads (source - 2048) home
  · exact .refl h

/-- A write queue that has been given up has nothing unanswered at the home (R396). -/
theorem State.unanswered_giveUp {s : State} {source home : Nat} {resend : Tbl Resend} (hsource : source < 2048)
    (h : ∀ p ∈ s.waves, p.2.ended = false) (dry : Tbl Drydown) :
    ({ ({ s with fabric := s.resent source home resend } : State).giveUp source home with dry := dry } : State).unanswered source home = [] := by
  let s1 : State := { s with fabric := s.resent source home resend }
  let u : State := s1.giveUp source home
  have hlive : s1.living u := State.living.giveUp (s := s1) h source home
  have hcore (k : Nat) : u.core k = if k = source then { s.core source with wq := (s.core source).wq.filter (fun q =>
      ((s.core source).wq.filter (fun p => homeSlice p.2.pa = home)).all (fun p => q.1 != p.1)) } else s.core k := by
    have hu : u = s1.loseWrites source home := if_pos hsource
    rw [hu, State.loseWrites_eq]
    exact State.core_foldl_loseWrite source _ s1 k
  have hu : ({ u with dry := dry } : State) =
      { s with cores := u.cores, waves := u.waves, fabric := s.resent source home resend, dry := dry } :=
    congrArg (fun x : State => { x with cores := u.cores, waves := u.waves, dry := dry }) hlive.rest
  have hqueue : ∀ p ∈ (u.core source).wq, homeSlice p.2.pa ≠ home := by
    intro p hp hhome
    rw [hcore, if_pos rfl, List.mem_filter, List.all_eq_true] at hp
    exact absurd (hp.2 p (List.mem_filter.2 ⟨hp.1, by simpa using hhome⟩)) (by simp)
  rw [hu, State.unanswered, if_pos hsource]
  refine List.append_eq_nil_iff.2 ⟨?_, ?_⟩
  · rw [List.map_eq_nil_iff, List.filter_eq_nil_iff]
    intro e he
    obtain ⟨p, hp, rfl⟩ := List.mem_map.1 he
    simpa using hqueue p hp
  · rw [List.map_eq_nil_iff, List.filter_eq_nil_iff]
    intro p hp hcarries
    refine Bool.false_ne_true ((State.carries_resent p hp).symm.trans
      (State.carries_of_carries (dry := dry) hsource rfl (fun c => ?_) (fun i e he => ?_) hcarries))
    · refine (congrArg Core.outs (hcore c)).trans ?_
      split
      · rename_i hc; rw [hc]
      · rfl
    · have hw := congrArg Core.wq (hcore source)
      rw [if_pos rfl] at hw
      have he' : tget? (u.core source).wq i = some e := he
      rw [hw, tget?_filter_key (fun k => ((s.core source).wq.filter (fun p => homeSlice p.2.pa = home)).all (fun p => k != p.1))] at he'
      split at he'
      · exact he'
      · cases he'

section
variable {s : State} {source home y : Nat} {ys : List Nat} (hy : s.unanswered source home = y :: ys)
include hy

theorem exec_retransmitTimeout_eq : exec (.retransmitTimeout source home) s =
    let rounds := s.roundsOf source home (ys.foldl min y)
    if s.clk < rounds.headD (ys.foldl min y) + 1024 then .next s
    else if rounds.length < 8 then
      .next (({ s with fabric := s.resent source home (tset s.fabric.resend (source * 256 + home) ⟨s.clk :: rounds⟩) } : State).logDry
        (sourceDie source) 0x07 0 home (source + 2 ^ 16 * (rounds.length + 1)) 0)
    else .next ((({ s with fabric := s.resent source home (tdel s.fabric.resend (source * 256 + home)) } : State).giveUp source home).logDry
      (sourceDie source) 0x08 0 home source 0) := by
  rw [exec_retransmitTimeout, execRetransmitTimeout, hy]
  rfl

variable (hdue : (s.roundsOf source home (ys.foldl min y)).headD (ys.foldl min y) + 1024 ≤ s.clk)
include hdue

theorem exec_retransmitTimeout_resends (h : (s.roundsOf source home (ys.foldl min y)).length < 8) :
    ∃ t : State, exec (.retransmitTimeout source home) s = .next t ∧
      tget? t.fabric.resend (source * 256 + home) = some ⟨s.clk :: s.roundsOf source home (ys.foldl min y)⟩ ∧ t.mem = s.mem ∧
      t.waves = s.waves ∧ ∀ p ∈ t.fabric.lost, s.carries source home p.1 = false := by
  refine ⟨_, (exec_retransmitTimeout_eq hy).trans ((if_neg (Nat.not_lt.2 hdue)).trans (if_pos h)), tget?_tset_same _ _ _, rfl, rfl, ?_⟩
  exact State.carries_resent (resend := tset s.fabric.resend (source * 256 + home) ⟨_⟩)

theorem exec_retransmitTimeout_ends (h : 8 ≤ (s.roundsOf source home (ys.foldl min y)).length) :
    ∃ t : State, exec (.retransmitTimeout source home) s = .next t ∧ tget? t.fabric.resend (source * 256 + home) = none ∧
      ((∀ p ∈ s.waves, p.2.ended = false) → t.mem = s.mem ∧ (source < 2048 → t.unanswered source home = [])) := by
  let s1 : State := { s with fabric := s.resent source home (tdel s.fabric.resend (source * 256 + home)) }
  refine ⟨_, (exec_retransmitTimeout_eq hy).trans ((if_neg (Nat.not_lt.2 hdue)).trans (if_neg (Nat.not_lt.2 h))), ?_,
    fun hrun => ⟨?_, fun hsource => ?_⟩⟩
  · have hf : tget? (s1.giveUp source home).fabric.resend (source * 256 + home) = none := by
      rw [State.fabric_giveUp]
      exact (tget?_tdel _ _ _).trans (if_pos rfl)
    exact hf
  · exact (congrArg State.mem (State.living.giveUp (s := s1) hrun source home).rest :)
  · exact State.unanswered_giveUp hsource hrun _

end

end Sys2Proof.Machine

namespace Sys2Proof.Machine
open Sys2Proof.Claims

/-! The replay filter (R397). -/

/-- What a request does to the bytes it covers, and what its response carries. -/
def Performed (s : State) (mem : Tbl Byte) (bs : List Byte) : FabRequest → Prop
  | .read a n => bs = memBytes s.mem a n ∧ mem = s.mem
  | .write a b => bs = [] ∧ ∀ i, i < b.length → memByte mem (a + i) = b.getD i 0
  | .add a n y => bs = leBytes n (memNat s.mem a n) ∧
      memNat mem a n = if s.poisonedAt a then memNat s.mem a n else (memNat s.mem a n + y) % 2 ^ (8 * n)

section
variable {s : State} {source home : Nat} {r : FabRequest}

theorem State.filter_congr {u : State} (h : u.fabric = s.fabric) : u.filter source home = s.filter source home :=
  congrArg (fun f : Fabric => tgetD f.filters (source * 256 + home) {}) h
theorem State.filter_setFilter (x : ReplayFilter) : (s.setFilter source home x).filter source home = x := tgetD_tset_same _ _ _ _

/-- A response is no frame of the port, so no pause holds it. -/
theorem State.emit_response (s : State) (source home seq : Nat) (bs : List Byte) :
    s.emit (.response source home seq bs) = { s with out := s.out ++ [.response source home seq bs] } := State.emit_sent rfl

/-- No earlier write of the source waits: the write is published. -/
theorem State.performWrite_publish (hq : 2048 ≤ source ∨ (s.core source).wq = []) (a : Nat) (bs : List Byte) :
    s.performWrite source a bs = s.publish a bs := by
  have hnone : (if source < 2048 then (s.core source).wq.find? (fun p => p.2.pa = a && p.2.bytes == bs) else none) = none := by
    rcases hq with h | h
    · exact if_neg (Nat.not_lt.2 h)
    · rw [h]
      exact ite_self _
  rw [State.performWrite, hnone]

section
variable (hhome : s.homeLost (requestAddr r) = false) (hc : s.counter (lineOf (requestAddr r)) = none)
  (hq : 2048 ≤ source ∨ (s.core source).wq = [])
include hhome hc hq

theorem State.performRequest_eq : s.performRequest source r = match r with
    | .read a n => (s, memBytes s.mem a n)
    | .write a bs => (s.publish a bs, [])
    | .add a n y => (if s.poisonedAt a then s else s.publish a (leBytes n ((memNat s.mem a n + y) % 2 ^ (8 * n))), leBytes n (memNat s.mem a n)) := by
  cases r with
  | read a n => exact if_neg (Bool.eq_false_iff.1 hhome)
  | write a bs => exact (if_neg (Bool.eq_false_iff.1 hhome)).trans (congrArg (·, []) (State.performWrite_publish hq a bs))
  | add a n y => exact if_neg (Bool.eq_false_iff.1 hhome)

theorem State.performRequest_published : s.Published (s.performRequest source r).1 := by
  rw [State.performRequest_eq hhome hc hq]
  cases r with
  | read a n => exact .refl s
  | write a bs => exact State.publish_published hc bs
  | add a n y =>
    dsimp only
    split
    · exact .refl s
    · exact State.publish_published hc _

theorem State.memByte_performRequest_outside {a : Nat} (ha : a < requestAddr r ∨ requestAddr r + requestSize r ≤ a) :
    memByte (s.performRequest source r).1.mem a = memByte s.mem a := by
  rw [State.performRequest_eq hhome hc hq]
  cases r with
  | read a n => rfl
  | write a bs => exact State.memByte_publish_outside hc ha
  | add a n y =>
    dsimp only
    split
    · rfl
    · exact State.memByte_publish_outside hc (by rwa [leBytes_length])

theorem State.performRequest_performs (hd : ∀ a, requestAddr r ≤ a → a < requestAddr r + requestSize r → s.deviceByte a = false) :
    Performed s (s.performRequest source r).1.mem (s.performRequest source r).2 r := by
  have hplain {i : Nat} (hi : i < requestSize r) : s.deviceByte (requestAddr r + i) = false :=
    hd _ (Nat.le_add_right _ _) (Nat.add_lt_add_left hi _)
  rw [State.performRequest_eq hhome hc hq]
  cases r with
  | read a n => exact ⟨rfl, rfl⟩
  | write a bs => exact ⟨rfl, fun i hi => State.memByte_publish_plain hc bs hi (hplain hi)⟩
  | add a n y =>
    refine ⟨rfl, ?_⟩
    dsimp only
    split
    · rfl
    · have hword := memNat_of_bytes (a := a) (leBytes n ((memNat s.mem a n + y) % 2 ^ (8 * n))) fun k hk =>
        State.memByte_publish_plain hc _ hk (hplain (by rwa [leBytes_length] at hk))
      rw [leBytes_length, leNat_leBytes, show 256 ^ n = 2 ^ (8 * n) from (pow_mul 2 8 n).symm, Nat.mod_mod] at hword
      exact hword

/-- The expected request is performed and answered, and the next one is expected. -/
theorem State.performExpected_performs (hd : ∀ a, requestAddr r ≤ a → a < requestAddr r + requestSize r → s.deviceByte a = false) :
    ∃ bs, (s.performExpected source home r).out = s.out ++ [.response source home (s.filter source home).expect bs] ∧
      ((s.performExpected source home r).filter source home).expect = ((s.filter source home).expect + 1) % 2 ^ 16 ∧
      ((s.performExpected source home r).filter source home).buffer = tdel (s.filter source home).buffer (s.filter source home).expect ∧
      (∀ a, (a < requestAddr r ∨ requestAddr r + requestSize r ≤ a) → memByte (s.performExpected source home r).mem a = memByte s.mem a) ∧
      Performed s (s.performExpected source home r).mem bs r := by
  have hpub := State.performRequest_published hhome hc hq
  have hperf := State.performRequest_performs hhome hc hq hd
  have hout := fun a => State.memByte_performRequest_outside hhome hc hq (a := a)
  have hfilter : (s.performRequest source r).1.filter source home = s.filter source home := State.filter_congr hpub.fabric_eq
  have heq : s.performExpected source home r = { (s.performRequest source r).1.setFilter source home
      { s.filter source home with expect := ((s.filter source home).expect + 1) % 2 ^ 16,
                                  buffer := tdel (s.filter source home).buffer (s.filter source home).expect,
                                  responses := (((s.filter source home).expect, (s.performRequest source r).2) ::
                                    (s.filter source home).responses).take 64 }
      with out := s.out ++ [.response source home (s.filter source home).expect (s.performRequest source r).2] } := by
    rw [← hfilter, ← hpub.out_eq]
    exact State.emit_response _ _ _ _ _
  refine ⟨(s.performRequest source r).2, ?_⟩
  generalize s.performRequest source r = q at *
  rw [heq]
  exact ⟨rfl, congrArg ReplayFilter.expect (State.filter_setFilter (s := q.1) _),
    congrArg ReplayFilter.buffer (State.filter_setFilter (s := q.1) _), hout, hperf⟩

end

/-- Nothing is performed while the next expected request has not arrived. -/
theorem State.performBuffered_none (h : tget? (s.filter source home).buffer (s.filter source home).expect = none) (n : Nat) :
    s.performBuffered source home n = s := by
  cases n with
  | zero => rfl
  | succ n => rw [State.performBuffered, h]

section
variable {seq : BitVec 16} (hdue : s.requestDue home r = true)
include hdue

theorem State.homeLost_of_requestDue : s.homeLost (requestAddr r) = false := by
  rw [State.requestDue, Bool.and_eq_true, Bool.not_eq_true'] at hdue
  exact hdue.2

theorem exec_replayFilterArrival_expected (h : (seq.toNat + 2 ^ 16 - (s.filter source home).expect) % 2 ^ 16 = 0) :
    exec (.replayFilterArrival source home seq r) s = .next ((s.performExpected source home r).performBuffered source home 64) := by
  rw [exec_replayFilterArrival, execReplayFilterArrival, hdue]
  exact if_pos h

theorem exec_replayFilterArrival_early (h0 : 0 < (seq.toNat + 2 ^ 16 - (s.filter source home).expect) % 2 ^ 16)
    (h : (seq.toNat + 2 ^ 16 - (s.filter source home).expect) % 2 ^ 16 < 64) (hnew : tget? (s.filter source home).buffer seq.toNat = none) :
    exec (.replayFilterArrival source home seq r) s = .next (s.setFilter source home
      { s.filter source home with buffer := tset (s.filter source home).buffer seq.toNat r }) := by
  rw [exec_replayFilterArrival, execReplayFilterArrival, hdue, hnew]
  exact (if_neg h0.ne').trans (if_pos h)

theorem exec_replayFilterArrival_duplicate (h : 2 ^ 16 - 64 ≤ (seq.toNat + 2 ^ 16 - (s.filter source home).expect) % 2 ^ 16) {bs : List Byte}
    (hresp : (s.filter source home).responses.find? (fun p => p.1 = seq.toNat) = some (seq.toNat, bs)) :
    exec (.replayFilterArrival source home seq r) s = .next { s with out := s.out ++ [.response source home seq.toNat bs] } := by
  have h0 : (seq.toNat + 2 ^ 16 - (s.filter source home).expect) % 2 ^ 16 ≠ 0 := fun e => absurd (e ▸ h) (by decide)
  have h64 : ¬(seq.toNat + 2 ^ 16 - (s.filter source home).expect) % 2 ^ 16 < 64 := fun e => absurd (lt_of_le_of_lt h e) (by decide)
  rw [exec_replayFilterArrival, execReplayFilterArrival, hdue, ← State.emit_response]
  refine (if_neg h0).trans ((if_neg h64).trans ((if_pos h).trans ?_))
  rw [hresp]

end

end

/-! The two phases of a retirement (R394). -/

theorem State.startRetire_eq (s : State) (e : Element) : ∃ dry, s.startRetire e =
    { s with fabric := { s.fabric with
        leaving := s.fabric.leaving ++ [⟨e, s.clk, s.crossing e⟩], around := (s.fabric.rewritten e).around }, dry := dry } :=
  ⟨(s.logElement e 0x06 1).dry, rfl⟩
theorem State.powerDown_eq (s : State) (e : Element) : ∃ dry, s.powerDown e =
    { s with fabric := { s.fabric with off := s.fabric.off ++ [e], leaving := s.fabric.leaving.filter (fun l => l.element != e) }, dry := dry } :=
  ⟨(s.logElement e 0x06 2).dry, rfl⟩

theorem exec_retirePowerDown_quiet {s : State} {e : Element} (h : s.quietFor e = true) :
    exec (.retirePowerDown e) s = .next (s.powerDown e) := by
  rw [exec_retirePowerDown, execRetirePowerDown, if_pos h]
theorem exec_retirePowerDown_waits {s : State} {e : Element} (h : s.quietFor e = false) : exec (.retirePowerDown e) s = .next s := by
  rw [exec_retirePowerDown, execRetirePowerDown, h]
  rfl

/-- Settles O52: failures, retirement and retransmission by the events' own lemmas; the filter performs the one request that it expects. -/
theorem fabricEvents : Obligations.FabricEvents := by
  intro s
  refine ⟨fun e he => ?_, fun source home y ys hy => ?_, fun source home seq r hdue hc hq hd => ?_⟩
  · refine ⟨fun hdown hoff => ⟨fun hnew => ?_, fun hrewritten => ?_⟩, fun h => ⟨?_, fun hjoined => ?_⟩, fun h => ?_, fun l hl heq => ?_⟩
    · obtain ⟨lost, dry, hexec⟩ := exec_elementFailure_breaks he hdown hoff
      rw [hnew] at hexec
      refine ⟨_, hexec, rfl, rfl, ?_, rfl, fun router region h hh hhop =>
        Fabric.entry_down (f := s.fabric.broken e s.clk lost) (List.mem_append_right _ List.mem_cons_self) hh hhop⟩
      simp only [Bool.false_eq_true, if_false, Fabric.broken, hnew]
    · obtain ⟨lost, dry, hexec⟩ := exec_elementFailure_breaks he hdown hoff
      rw [hrewritten] at hexec
      refine ⟨⟨_, hexec⟩, fun hport => ⟨_, hexec.trans (congrArg _ (State.loseCutOff_elevator _ hport)), rfl, rfl⟩⟩
    · obtain ⟨dry, hexec⟩ := exec_routeRewrite_rewrites h
      exact ⟨_, hexec⟩
    · obtain ⟨dry, hexec⟩ := exec_routeRewrite_rewrites h
      have hlose : ({ s with fabric := s.fabric.rewritten e, dry := dry } : State).loseCutOff e = { s with fabric := s.fabric.rewritten e, dry := dry } :=
        hjoined.elim (State.loseCutOff_elevator _) (State.loseCutOff_joined ·)
      refine ⟨_, hexec.trans (congrArg _ hlose), s.fabric.mem_around_rewritten e, fun p hp => ?_, rfl, fun router region h hh =>
        hopOf_avoids (s.fabric.mem_around_rewritten e) hh⟩
      simpa using (List.mem_filter.1 hp).2
    · obtain ⟨dry, hretire⟩ := s.startRetire_eq e
      exact ⟨_, (exec_elementRetire_starts he h).trans (congrArg _ hretire), rfl, List.contains_iff_mem.2 (s.fabric.mem_around_rewritten e), rfl, rfl⟩
    · subst heq
      obtain ⟨dry, hdown⟩ := s.powerDown_eq l.element
      refine ⟨fun hinside hsince => ⟨_, (exec_retirePowerDown_quiet (State.quietFor_of_leaving hl hinside hsince)).trans (congrArg _ hdown),
        rfl, fun y hy => ?_, rfl⟩, fun hone h => exec_retirePowerDown_waits (State.quietFor_false hone h)⟩
      simpa using (List.mem_filter.1 hy).2
  · exact ⟨fun h => (exec_retransmitTimeout_eq hy).trans (if_pos h),
      fun h => ⟨exec_retransmitTimeout_resends hy h, exec_retransmitTimeout_ends hy h⟩⟩
  · intro x ahead hexpect
    have hhome := State.homeLost_of_requestDue hdue
    refine ⟨fun h0 hnext => ?_, fun h0 h hnew => ?_, fun h bs hresp => exec_replayFilterArrival_duplicate hdue h hresp⟩
    · obtain ⟨bs, hout, hexp, hbuf, hmem, hperf⟩ := State.performExpected_performs (home := home) hhome hc hq hd
      refine ⟨_, bs, (exec_replayFilterArrival_expected hdue h0).trans (congrArg _ (State.performBuffered_none ?_ 64)), hout, hexp, hmem, ?_⟩
      · rw [hexp, hbuf, tget?_tdel]
        exact ite_eq_left_iff.2 fun _ => hnext
      · cases r <;> exact hperf
    · exact ⟨_, exec_replayFilterArrival_early hdue h0 h hnew, by rw [State.filter_setFilter]; exact tget?_tset_same _ _ _, rfl⟩

end Sys2Proof.Machine

namespace Sys2Proof.Machine
open Sys2Proof.Claims

/-- What a fold makes at one element of its list, and keeps at every other, holds after it. -/
theorem foldl_makes {α β : Type} {Inv Q : β → Prop} {f : β → α → β} {a : α} (hinv : ∀ u b, Inv u → Inv (f u b))
    (hmakes : ∀ u, Inv u → Q (f u a)) (hkeeps : ∀ u b, Inv u → Q u → Q (f u b)) {l : List α} (ha : a ∈ l) {u : β} (hu : Inv u) :
    Q (l.foldl f u) := by
  induction l generalizing u with
  | nil => cases ha
  | cons b l ih =>
    rcases List.mem_cons.1 ha with rfl | ha
    · exact (List.foldlRecOn (motive := fun v => Inv v ∧ Q v) l f ⟨hinv u a hu, hmakes u hu⟩
        fun v ⟨hv, hq⟩ b _ => ⟨hinv v b hv, hkeeps v b hv hq⟩).2
    · exact ih ha (hinv u b hu)

/-! The DRAM scrub (R404). -/

/-- `u` is `s` but for drydown records and poison: no granule has lost its poison, and what a clean copy hides stays poisoned in DRAM. -/
structure State.Scrubbed (s u : State) : Prop where
  rest : ({ u with dry := s.dry, poison := s.poison, dramBad := s.dramBad } : State) = s
  poison : ∀ a ∈ s.poison, a ∈ u.poison
  hidden : ∀ a ∈ s.dramBad, s.ownerPart a = some .e → a ∈ u.dramBad

theorem State.Scrubbed.refl (s : State) : s.Scrubbed s := ⟨rfl, fun _ h => h, fun _ h _ => h⟩

section
variable {s u : State} (h : s.Scrubbed u)
include h

theorem State.Scrubbed.ownerPart_eq (a : Nat) : u.ownerPart a = s.ownerPart a := (congrArg (fun x : State => x.ownerPart a) h.rest :)
theorem State.Scrubbed.ownerReady_eq (a : Nat) : u.ownerReady (u.unitAt a) = s.ownerReady (s.unitAt a) :=
  (congrArg (fun x : State => x.ownerReady (x.unitAt a)) h.rest :)

theorem State.Scrubbed.trans {v : State} (hv : u.Scrubbed v) : s.Scrubbed v :=
  ⟨(congrArg (fun x : State => { x with dry := s.dry, poison := s.poison, dramBad := s.dramBad }) hv.rest :).trans h.rest,
    fun a ha => hv.poison a (h.poison a ha), fun a ha he => hv.hidden a (h.hidden a ha he) ((h.ownerPart_eq a).trans he)⟩

end

/-- The step of `State.settleDram` for one granule: it shows, is written over, or stays hidden beneath a clean copy. -/
def State.settleGranule (u : State) (a : Nat) : State :=
  let drop (v : State) : State := { v with dramBad := v.dramBad.filter (fun x => x != a) }
  match u.ownerPart a with
  | some .e => u
  | some _ => drop u
  | none => if u.ownerReady (u.unitAt a) then drop { u with poison := if u.poison.contains a then u.poison else u.poison ++ [a] } else u

theorem State.Scrubbed.dropped {s : State} {a : Nat} (ha : s.ownerPart a ≠ some .e) {P : List Nat} (hP : ∀ b ∈ s.poison, b ∈ P) :
    s.Scrubbed { s with poison := P, dramBad := s.dramBad.filter (fun x => x != a) } :=
  ⟨rfl, hP, fun _ hb he => List.mem_filter.2 ⟨hb, bne_iff_ne.2 fun hba => ha (hba ▸ he)⟩⟩

theorem State.settleGranule_scrubbed (s : State) (a : Nat) : s.Scrubbed (s.settleGranule a) ∧ (s.settleGranule a).dry = s.dry := by
  rw [State.settleGranule]
  split
  · exact ⟨.refl s, rfl⟩
  · rename_i st hne hst
    exact ⟨.dropped (fun he => hne (Option.some.inj (hst.symm.trans he))) fun _ h => h, rfl⟩
  · rename_i hnone
    split
    · refine ⟨.dropped (by rw [hnone]; nofun) fun b hb => ?_, rfl⟩
      split
      · exact hb
      · exact List.mem_append_left _ hb
    · exact ⟨.refl s, rfl⟩

theorem State.settleGranule_shows {s : State} {a : Nat} (hnone : s.ownerPart a = none) (hready : s.ownerReady (s.unitAt a) = true) :
    a ∈ (s.settleGranule a).poison := by
  simp only [State.settleGranule, hnone, hready, if_true]
  split
  · rename_i h; simpa using h
  · exact List.mem_append_right _ List.mem_cons_self

theorem State.settleDram_scrubbed (s : State) : s.Scrubbed s.settleDram ∧ s.settleDram.dry = s.dry :=
  List.foldlRecOn (motive := fun u : State => s.Scrubbed u ∧ u.dry = s.dry) s.dramBad State.settleGranule ⟨.refl s, rfl⟩
    fun u ⟨hu, hdry⟩ a _ => ⟨hu.trans (u.settleGranule_scrubbed a).1, (u.settleGranule_scrubbed a).2.trans hdry⟩

/-- A granule that is poisoned beneath no copy is poisoned for every reader. -/
theorem State.settleDram_shows {s : State} {a : Nat} (ha : a ∈ s.dramBad) (hnone : s.ownerPart a = none)
    (hready : s.ownerReady (s.unitAt a) = true) : a ∈ s.settleDram.poison :=
  foldl_makes (Inv := s.Scrubbed) (Q := fun u : State => a ∈ u.poison) (fun u b hu => hu.trans (u.settleGranule_scrubbed b).1)
    (fun _ hu => State.settleGranule_shows ((hu.ownerPart_eq a).trans hnone) ((hu.ownerReady_eq a).trans hready))
    (fun u b _ => (State.settleGranule_scrubbed u b).1.poison a) ha (.refl s)

/-- What a line that cannot be corrected leaves of a granule of it. -/
def State.Poisoned (s u : State) (a : Nat) : Prop :=
  (s.ownerPart a = none → s.ownerReady (s.unitAt a) = true → a ∈ u.poison) ∧ (s.ownerPart a = some .e → a ∈ u.dramBad)

theorem State.poisonDram_scrubbed (s : State) (line : Nat) : s.Scrubbed (s.poisonDram line) ∧ (s.poisonDram line).dry = s.dry := by
  let s1 : State := { s with dramBad := s.dramBad ++ ((List.range 8).map (fun g => line + 8 * g)).filter (fun g => !s.dramBad.contains g) }
  have h : s.Scrubbed s1 := ⟨rfl, fun _ h => h, fun _ ha _ => List.mem_append_left _ ha⟩
  exact ⟨h.trans s1.settleDram_scrubbed.1, s1.settleDram_scrubbed.2⟩

theorem State.poisonDram_poisons (s : State) (line : Nat) {i : Nat} (hi : i < 8) : s.Poisoned (s.poisonDram line) (line + 8 * i) := by
  let s1 : State := { s with dramBad := s.dramBad ++ ((List.range 8).map (fun g => line + 8 * g)).filter (fun g => !s.dramBad.contains g) }
  have h : s.Scrubbed s1 := ⟨rfl, fun _ h => h, fun a ha _ => List.mem_append_left _ ha⟩
  have hbad : line + 8 * i ∈ s1.dramBad := by
    by_cases hin : line + 8 * i ∈ s.dramBad
    · exact List.mem_append_left _ hin
    · exact List.mem_append_right _ (List.mem_filter.2 ⟨List.mem_map.2 ⟨i, List.mem_range.2 hi, rfl⟩, by simpa using hin⟩)
  exact ⟨fun hnone hready => State.settleDram_shows hbad ((h.ownerPart_eq _).trans hnone) ((h.ownerReady_eq _).trans hready),
    fun he => s1.settleDram_scrubbed.1.hidden _ hbad ((h.ownerPart_eq _).trans he)⟩

theorem State.Poisoned.mono {s u v : State} {a : Nat} (hu : s.Scrubbed u) (hv : u.Scrubbed v) (h : s.Poisoned u a) : s.Poisoned v a :=
  ⟨fun hnone hready => hv.poison a (h.1 hnone hready), fun he => hv.hidden a (h.2 he) ((hu.ownerPart_eq a).trans he)⟩

theorem State.Poisoned.of_scrubbed {s u v : State} {a : Nat} (hu : s.Scrubbed u) (h : u.Poisoned v a) : s.Poisoned v a :=
  ⟨fun hnone hready => h.1 ((hu.ownerPart_eq a).trans hnone) ((hu.ownerReady_eq a).trans hready),
    fun he => h.2 ((hu.ownerPart_eq a).trans he)⟩

/-! Drydown records. -/

theorem State.logDry_scrubbed (s : State) (die kind store unit detail addr : Nat) : s.Scrubbed (s.logDry die kind store unit detail addr) :=
  ⟨rfl, fun _ h => h, fun _ h _ => h⟩
theorem State.count_logDry (s : State) (die kind store unit detail addr : Nat) :
    (tgetD (s.logDry die kind store unit detail addr).dry die {}).count = (tgetD s.dry die {}).count + 1 := by
  rw [State.logDry, tgetD_tset_same]

/-- A record of a die for each of some lines, with what else is done of each, counts them. -/
theorem State.count_foldl {s : State} {die : Nat} {f : State → Nat → State}
    (hf : ∀ u l, (tgetD (f u l).dry die {}).count = (tgetD u.dry die {}).count + 1) (ls : List Nat) :
    (tgetD (ls.foldl f s).dry die {}).count = (tgetD s.dry die {}).count + ls.length := by
  induction ls generalizing s with
  | nil => rfl
  | cons l ls ih => rw [List.foldl_cons, ih, hf, List.length_cons]; omega

/-- A correction at a clk is recorded. -/
def State.noteCorrected (die clk : Nat) (s : State) (l : Nat) : State := s.logDry die 0x01 11 0 (Config.syndrome clk (lineOf l)) (lineOf l)
/-- A line that cannot be corrected is recorded and poisoned. -/
def State.noteUncorrectable (die : Nat) (s : State) (l : Nat) : State := (s.logDry die 0x02 11 0 8 (lineOf l)).poisonDram (lineOf l)

theorem exec_dramScrub_scrubs {s : State} {die : Nat} (h : s.dead.contains die = false) (good bad : List Nat) :
    exec (.dramScrub die good bad) s = .next ((bad.filter (fun l => homeDie l == die && isDram l)).foldl (State.noteUncorrectable die)
      ((good.filter (fun l => homeDie l == die && isDram l)).foldl (State.noteCorrected die s.clk) s)) := by
  rw [exec_dramScrub, execDramScrub, h]
  rfl

theorem State.count_noteCorrected (die clk : Nat) (s : State) (l : Nat) :
    (tgetD (State.noteCorrected die clk s l).dry die {}).count = (tgetD s.dry die {}).count + 1 := s.count_logDry _ _ _ _ _ _
theorem State.noteUncorrectable_scrubbed (die : Nat) (s : State) (l : Nat) :
    s.Scrubbed (State.noteUncorrectable die s l) :=
  (s.logDry_scrubbed _ _ _ _ _ _).trans (State.poisonDram_scrubbed _ _).1
theorem State.count_noteUncorrectable (die : Nat) (s : State) (l : Nat) :
    (tgetD (State.noteUncorrectable die s l).dry die {}).count = (tgetD s.dry die {}).count + 1 := by
  rw [State.noteUncorrectable, (State.poisonDram_scrubbed _ _).2, State.count_logDry]

/-- The scrub counts every line of the die that it was given, and poisons those that it could not correct. -/
theorem dramScrub_settles {s : State} {die : Nat} (h : s.dead.contains die = false) (good bad : List Nat) :
    ∃ t : State, exec (.dramScrub die good bad) s = .next t ∧ s.Scrubbed t ∧
      (∀ l ∈ bad, homeDie l = die → isDram l = true → ∀ i, i < 8 → s.Poisoned t (lineOf l + 8 * i)) ∧
      (tgetD t.dry die {}).count = (tgetD s.dry die {}).count + ((good ++ bad).filter (fun l => homeDie l == die && isDram l)).length := by
  have hgood : s.Scrubbed ((good.filter (fun l => homeDie l == die && isDram l)).foldl (State.noteCorrected die s.clk) s) :=
    List.foldlRecOn (motive := s.Scrubbed) _ _ (.refl s) fun u hu l _ => hu.trans (u.logDry_scrubbed _ _ _ _ _ _)
  refine ⟨_, exec_dramScrub_scrubs h good bad, ?_, fun l hl hdie hdram i hi => ?_, ?_⟩
  · exact List.foldlRecOn (motive := s.Scrubbed) _ _ hgood fun u hu l _ => hu.trans (State.noteUncorrectable_scrubbed die u l)
  · refine foldl_makes (Inv := s.Scrubbed) (Q := fun u : State => s.Poisoned u (lineOf l + 8 * i)) (a := l)
      (fun u b hu => hu.trans (State.noteUncorrectable_scrubbed die u b)) (fun u hu => ?_)
      (fun u b hu hq => hq.mono hu (State.noteUncorrectable_scrubbed die u b)) (List.mem_filter.2 ⟨hl, by simp [hdie, hdram]⟩) hgood
    exact .of_scrubbed (hu.trans (u.logDry_scrubbed _ _ _ _ _ _)) (State.poisonDram_poisons _ _ hi)
  · rw [State.count_foldl (State.count_noteUncorrectable die), State.count_foldl (State.count_noteCorrected die s.clk), List.filter_append,
      List.length_append, Nat.add_assoc]

end Sys2Proof.Machine

namespace Sys2Proof.Machine
open Sys2Proof.Claims

/-! The rebuild after a lost die (R413 to R415). -/

/-- `u` is `s` but for the copies of lines, their directories and the messages between them, the replay filters and new poison. -/
structure State.Rebuilt (s u : State) : Prop where
  rest : ({ u with
    cores := s.cores, clusters := s.clusters, stackTbl := s.stackTbl, homes := s.homes, net := s.net, waiting := s.waiting, fabric := s.fabric,
    poison := s.poison, rebuilding := s.rebuilding } : State) = s
  poison : ∀ a ∈ s.poison, a ∈ u.poison

theorem State.Rebuilt.refl (s : State) : s.Rebuilt s := ⟨rfl, fun _ h => h⟩
theorem State.Rebuilt.of_sameArch {s u : State} (h : s.sameArch u) : s.Rebuilt u := by
  have hp : u.poison = s.poison := (congrArg State.poison h.rest :)
  exact ⟨(congrArg (fun x : State => { x with fabric := s.fabric, poison := s.poison, rebuilding := s.rebuilding }) h.rest :),
    fun a ha => hp ▸ ha⟩
theorem State.Rebuilt.trans {s u v : State} (h : s.Rebuilt u) (hv : u.Rebuilt v) : s.Rebuilt v :=
  ⟨(congrArg (fun x : State => { x with
      cores := s.cores, clusters := s.clusters, stackTbl := s.stackTbl, homes := s.homes, net := s.net, waiting := s.waiting, fabric := s.fabric,
      poison := s.poison, rebuilding := s.rebuilding }) hv.rest :).trans h.rest,
    fun a ha => hv.poison a (h.poison a ha)⟩
theorem State.Rebuilt.foldl {α : Type} {s : State} {f : State → α → State} (hf : ∀ (u : State) a, u.Rebuilt (f u a)) (l : List α) :
    s.Rebuilt (l.foldl f s) :=
  List.foldlRecOn (motive := s.Rebuilt) l f (.refl s) fun u hu a _ => hu.trans (hf u a)

theorem State.purge_rebuilt (s : State) (p : Instr → Bool) : s.Rebuilt (s.purge p) := ⟨rfl, fun _ h => h⟩

theorem State.settle_rebuilt (s : State) (line : Nat) : s.Rebuilt (s.settle line) := .of_sameArch (State.settle_same s line s.sameArch_refl)

theorem State.bringHome_rebuilt (s : State) (k : Nat) : s.Rebuilt (s.bringHome k) := by
  rw [State.bringHome]
  exact (State.Rebuilt.of_sameArch (State.sendHome_same s k s.sameArch_refl)).trans ((State.purge_rebuilt _ _).trans
    (.foldl (fun u l => .of_sameArch (State.settle_same _ l (State.gatherTags_same u l _ u.sameArch_refl))) _))

theorem State.poisonLine_rebuilt (s : State) (line : Nat) : s.Rebuilt (s.poisonLine line) := ⟨rfl, fun _ h => List.mem_append_left _ h⟩
theorem State.mem_poison_poisonLine (s : State) (line : Nat) {i : Nat} (hi : i < 8) : line + 8 * i ∈ (s.poisonLine line).poison := by
  by_cases hin : line + 8 * i ∈ s.poison
  · exact List.mem_append_left _ hin
  · exact List.mem_append_right _ (List.mem_filter.2 ⟨List.mem_map.2 ⟨i, List.mem_range.2 hi, rfl⟩, by simpa using hin⟩)

theorem State.rebuildPoison_rebuilt (s : State) (die : Nat) (lines : List Nat) : s.Rebuilt (s.rebuildPoison die lines) := by
  have h : s.Rebuilt (lines.dedup.foldl (fun (u : State) l => u.poisonLine l) s) := .foldl State.poisonLine_rebuilt _
  exact h.trans ⟨rfl, fun _ h => h⟩
theorem State.mem_poison_rebuildPoison (s : State) (die : Nat) {lines : List Nat} {line i : Nat} (hl : line ∈ lines) (hi : i < 8) :
    line + 8 * i ∈ (s.rebuildPoison die lines).poison :=
  foldl_makes (Inv := fun _ => True) (Q := fun u : State => line + 8 * i ∈ u.poison) (fun _ _ h => h)
    (fun u _ => u.mem_poison_poisonLine line hi) (fun u b _ => (u.poisonLine_rebuilt b).poison _) (List.mem_dedup.2 hl) trivial

theorem State.clusters_settle (s : State) (line : Nat) : (s.settle line).clusters = s.clusters := by
  rw [State.settle]
  refine List.foldlRecOn (motive := fun u : State => u.clusters = s.clusters) _ _ rfl fun u hu p _ => ?_
  refine List.foldlRecOn (motive := fun u : State => u.clusters = s.clusters) _ _ hu fun v hv o _ => ?_
  simp only [State.sendOnce]
  split
  · split
    · split
      · exact hv
      · exact hv
    · exact hv
  · exact hv

theorem State.ackForDie_rebuilt (s : State) (die : Nat) : s.Rebuilt (s.ackForDie die) := by
  rw [State.ackForDie]
  exact (State.purge_rebuilt _ _).trans (.foldl State.settle_rebuilt _)
theorem State.clusters_ackForDie (s : State) (die : Nat) : (s.ackForDie die).clusters = s.clusters := by
  rw [State.ackForDie]
  exact List.foldlRecOn (motive := fun u : State => u.clusters = s.clusters) _ _ rfl fun u hu l _ => (u.clusters_settle l).trans hu

/-- The lines that cores of a die wrote under unpublished releases. -/
def State.unpublished (s : State) (die : Nat) : List Nat :=
  (tvals s.clusters).flatMap (fun c => (c.tags.filter (fun t => dieOf t.core == die)).map (fun t => t.line))

theorem State.mem_unpublished {s : State} {die g : Nat} {c : Cluster} {t : Tag} (hc : tget? s.clusters g = some c) (ht : t ∈ c.tags)
    (hd : dieOf t.core = die) : t.line ∈ s.unpublished die :=
  List.mem_flatMap.2 ⟨c, List.mem_map.2 ⟨(g, c), tget?_mem hc, rfl⟩,
    List.mem_map.2 ⟨t, List.mem_filter.2 ⟨ht, beq_iff_eq.2 hd⟩, rfl⟩⟩

/-- The release tags of the cores of a die are gone. -/
def State.untag (s : State) (die : Nat) : State :=
  { s with clusters := tmap s.clusters (fun c => { c with tags := c.tags.filter (fun t => !(dieOf t.core == die)) }) }
theorem State.untag_rebuilt (s : State) (die : Nat) : s.Rebuilt (s.untag die) := ⟨rfl, fun _ h => h⟩

theorem State.dropTags_rebuilt (s : State) (die : Nat) : (s.rebuildPoison die (s.unpublished die)).Rebuilt (s.dropTags die) := by
  rw [State.dropTags]
  refine (State.untag_rebuilt _ die).trans (.foldl (fun u p => ?_) _)
  exact .foldl (fun v f => .of_sameArch (State.sendOnce_same v _ v.sameArch_refl)) _

theorem State.dropHomed_rebuilt (s : State) (die : Nat) : s.Rebuilt (s.dropHomed die) := by
  rw [State.dropHomed]
  exact .foldl State.bringHome_rebuilt _

theorem State.evictSlices_same (s : State) (gs : List Nat) : s.sameArch (s.evictSlices gs) := by
  rw [State.evictSlices]
  exact foldl_same _ (fun u p hu => State.evict_same u p.1 p.2 hu) _ _ s.sameArch_refl

/-- The clusters of a die are withdrawn. -/
def State.withdrawDie (s : State) (die : Nat) : State := (dieClusters die).foldl (fun (u : State) g => u.modCluster g Cluster.lose) s

theorem State.modCluster_rebuilt (s : State) (g : Nat) (f : Cluster → Cluster) : s.Rebuilt (s.modCluster g f) := ⟨rfl, fun _ h => h⟩
theorem State.withdrawDie_rebuilt (s : State) (die : Nat) : s.Rebuilt (s.withdrawDie die) :=
  .foldl (fun u g => u.modCluster_rebuilt g Cluster.lose) _

theorem State.cluster_withdrawDie (s : State) {die g : Nat} (hg : g / 16 = die) :
    ((s.withdrawDie die).cluster g).withdrawn = true ∧ ((s.withdrawDie die).cluster g).owner = none := by
  refine foldl_makes (Inv := fun _ => True) (Q := fun u : State => (u.cluster g).withdrawn = true ∧ (u.cluster g).owner = none) (fun _ _ h => h)
    (fun u _ => ?_) (fun u b _ hu => ?_) (mem_dieClusters.2 hg) trivial
  · rw [State.modCluster, State.cluster, tgetD_tset_same]
    exact ⟨rfl, rfl⟩
  · rw [State.modCluster, State.cluster, tgetD_tset]
    split
    · exact ⟨rfl, rfl⟩
    · exact hu

/-- The cores of a die are gone, with what the replay filters hold of them. -/
def State.loseCores (s : State) (die : Nat) : State :=
  ({ s with cores := s.cores.filter (fun p => dieOf p.1 != die) } : State).dropFilters die

theorem State.loseCores_rebuilt (s : State) (die : Nat) : s.Rebuilt (s.loseCores die) := ⟨rfl, fun _ h => h⟩
theorem State.cluster_loseCores (s : State) (die g : Nat) : (s.loseCores die).cluster g = s.cluster g := rfl

/-- The directories and engines without a die, and the replay filters of its cores. -/
def State.rebuiltWithout (s : State) (die : Nat) : State :=
  (State.withdrawDie ((((s.ackForDie die).dropTags die).dropHomed die).evictSlices (dieClusters die)) die).loseCores die

section
variable (s : State) (die : Nat)

/-- Once its poison is set, a line keeps it through the rest of the rebuild. -/
theorem State.rebuiltWithout_rebuilt :
    ((s.ackForDie die).rebuildPoison die (s.unpublished die)).Rebuilt (s.rebuiltWithout die) := by
  have htags := (s.ackForDie die).dropTags_rebuilt die
  have hun : (s.ackForDie die).unpublished die = s.unpublished die := by rw [State.unpublished, s.clusters_ackForDie, State.unpublished]
  rw [hun] at htags
  exact htags.trans ((State.dropHomed_rebuilt _ die).trans ((State.Rebuilt.of_sameArch (State.evictSlices_same _ (dieClusters die))).trans
    ((State.withdrawDie_rebuilt _ die).trans (State.loseCores_rebuilt _ die))))

theorem State.rebuilt_rebuiltWithout : s.Rebuilt (s.rebuiltWithout die) :=
  (s.ackForDie_rebuilt die).trans ((State.rebuildPoison_rebuilt _ _ _).trans (s.rebuiltWithout_rebuilt die))

theorem State.cluster_rebuiltWithout {g : Nat} (hg : g / 16 = die) :
    ((s.rebuiltWithout die).cluster g).withdrawn = true ∧ ((s.rebuiltWithout die).cluster g).owner = none := by
  rw [State.rebuiltWithout, State.cluster_loseCores]
  exact State.cluster_withdrawDie _ hg

theorem State.poison_rebuiltWithout {g i : Nat} {c : Cluster} {t : Tag} (hc : tget? s.clusters g = some c) (ht : t ∈ c.tags)
    (hd : dieOf t.core = die) (hi : i < 8) : t.line + 8 * i ∈ (s.rebuiltWithout die).poison :=
  (s.rebuiltWithout_rebuilt die).poison _ (State.mem_poison_rebuildPoison _ die (State.mem_unpublished hc ht hd) hi)

end

end Sys2Proof.Machine

namespace Sys2Proof.Machine
open Sys2Proof.Claims

/-! A lost die (R413 to R415): what it ran is lost before the rebuild. -/

/-- No context is held back by a warm reset. -/
def State.noneHeld (s : State) : Prop := ∀ c, (s.ctx c).heldBy = []

theorem State.noneHeld_of_ctxs {s : State} (h : ∀ p ∈ s.ctxs, p.2.heldBy = []) : s.noneHeld := by
  intro c
  rw [State.ctx, tgetD]
  cases hc : tget? s.ctxs c with
  | none => rfl
  | some x => exact h _ (tget?_mem hc)

theorem State.releaseHeld_unheld {s : State} (h : s.noneHeld) (die : Nat) : s.releaseHeld die = s := by
  rw [State.releaseHeld]
  refine List.foldlRecOn (motive := fun u : State => u = s) _ _ rfl fun u hu c _ => ?_
  subst hu
  rw [h c]
  rfl

theorem State.nextReset_unqueued {s : State} (h : s.resetQueue = []) (die : Nat) : s.nextReset die = s := by
  rw [State.nextReset, h]
  rfl

/-- A CARVE that is dropped changes its context's fields of CARVE alone. -/
theorem State.dropCarve_eq (s : State) (wid : Nat) : ∃ C, s.dropCarve wid = { s with ctxs := C } ∧
    ∀ c, (tgetD C c {}).heldBy = (s.ctx c).heldBy := by
  refine ⟨_, rfl, fun c => ?_⟩
  by_cases hc : c = (tgetD s.waves wid {}).ctx
  · subst hc
    refine tgetD_tmodify_kept s.ctxs _ _ {} Context.heldBy fun x => ?_
    split <;> rfl
  · exact congrArg Context.heldBy (tgetD_tmodify_other _ _ _ hc)

theorem State.dropCarves_eq (s : State) (ps : Tbl Wave) :
    ∃ C, ps.foldl (fun (u : State) p => u.dropCarve p.1) s = { s with ctxs := C } ∧ ∀ c, (tgetD C c {}).heldBy = (s.ctx c).heldBy := by
  refine List.foldlRecOn (motive := fun u : State => ∃ C, u = { s with ctxs := C } ∧ ∀ c, (tgetD C c {}).heldBy = (s.ctx c).heldBy) ps _
    ⟨s.ctxs, rfl, fun _ => rfl⟩ fun u hu p _ => ?_
  obtain ⟨C, rfl, hC⟩ := hu
  obtain ⟨D, hD, hheld⟩ := State.dropCarve_eq { s with ctxs := C } p.1
  exact ⟨D, hD, fun c => (hheld c).trans (hC c)⟩

/-- Some launches fail. -/
theorem State.abandon_eq (s : State) (ks : List Nat) :
    ∃ L, ks.foldl (fun (u : State) k => u.abandonLaunch k) s = { s with launches := L } ∧
      ∀ k ∈ ks, ∀ l, tget? L k = some l → l.failed = true := by
  let t : State := ks.foldl (fun (u : State) k => u.abandonLaunch k) s
  refine ⟨t.launches, ?_, fun k hk => ?_⟩
  · exact List.foldlRecOn (motive := fun u : State => u = { s with launches := u.launches }) ks _ rfl fun u hu k _ => by rw [hu]; rfl
  · refine foldl_makes (Inv := fun _ => True) (Q := fun u : State => ∀ l, tget? u.launches k = some l → l.failed = true)
      (fun _ _ h => h) (fun u _ l hl => ?_) (fun u b _ hu l hl => ?_) hk trivial
    · rw [State.abandonLaunch, State.modLaunch, tget?_tmodify, if_pos rfl, Option.map_eq_some_iff] at hl
      obtain ⟨x, -, rfl⟩ := hl
      rfl
    · rw [State.abandonLaunch, State.modLaunch, tget?_tmodify] at hl
      split at hl
      · obtain ⟨x, -, rfl⟩ := Option.map_eq_some_iff.1 hl
        rfl
      · exact hu l hl

theorem State.loseWaves_eq (s : State) (die : Nat) : ∃ C L, s.loseWaves die = { s with
      waves := s.waves.filter (fun p => !s.onDie die p.2.ctx p.2.core), blocks := s.blocks.filter (fun p => !s.onDie die p.2.ctx p.2.core),
      ctxs := C, launches := L } ∧
    (∀ c, (tgetD C c {}).heldBy = (s.ctx c).heldBy) ∧ ∀ k ∈ s.launchesOn die, ∀ l, tget? L k = some l → l.failed = true := by
  obtain ⟨C, hC, hheld⟩ := s.dropCarves_eq (s.waves.filter (fun p => s.onDie die p.2.ctx p.2.core))
  rw [State.loseWaves, hC]
  obtain ⟨L, hL, hfail⟩ := State.abandon_eq { s with
    waves := s.waves.filter (fun p => !s.onDie die p.2.ctx p.2.core), blocks := s.blocks.filter (fun p => !s.onDie die p.2.ctx p.2.core),
    ctxs := C } (s.launchesOn die)
  exact ⟨C, L, hL, hheld, hfail⟩

/-- What is left of a lost die's waves and blocks did not stand there. -/
theorem State.stands_of_mem_filter {s : State} {die ctx core : Nat} (h : (!s.onDie die ctx core) = true) (hd : dieOf core = die) :
    s.stands ctx = false := by
  rw [State.onDie, beq_iff_eq.2 hd, Bool.true_and, Bool.not_eq_true'] at h
  exact h

theorem Context.heldBy_withoutClusters (die : Nat) (c : Context) : (c.withoutClusters die).heldBy = c.heldBy := by
  rw [Context.withoutClusters]
  split <;> rfl
theorem Context.clusters_withoutClusters {die : Nat} {c : Context} (h : (c.withoutClusters die).phase ≠ .saved) :
    ∀ g ∈ (c.withoutClusters die).clusters, g / 16 ≠ die := by
  rw [Context.withoutClusters] at h ⊢
  split
  · rename_i hc
    rw [if_pos hc] at h
    rcases Bool.or_eq_true_iff.1 hc with hs | hall
    · exact absurd (beq_iff_eq.1 hs) h
    · simpa using hall
  · exact fun g hg => by simpa using (List.mem_filter.1 hg).2

/-- The state before the rebuild: the die is lost with what it ran, and `C` and `L` are left of the contexts and launches. -/
def State.without (s : State) (die : Nat) (C : Tbl Context) (L : Tbl Launch) : State :=
  { s.logDry (cdieRecord (die / 2)) 0x0A 0 0 die 0 with
    waves := s.waves.filter (fun p => !s.onDie die p.2.ctx p.2.core), blocks := s.blocks.filter (fun p => !s.onDie die p.2.ctx p.2.core),
    launches := L, ctxs := tmap C (Context.withoutClusters die),
    dead := s.dead ++ [die], offline := s.offline.erase die, resets := tdel s.resets die, resetQueue := s.resetQueue.erase die,
    hot := s.hot.erase die, missed := tdel s.missed die, rebuilding := tset s.rebuilding die 0 }

theorem State.loseDie_eq {s : State} {die : Nat} (hdie : die < 16) (hdead : s.dead.contains die = false) : ∃ C L,
    s.loseDie die = ((((s.without die C L).rebuiltWithout die).releaseHeld die).nextReset die).placeAll ∧
    (∀ c, (tgetD C c {}).heldBy = (s.ctx c).heldBy) ∧ ∀ k ∈ s.launchesOn die, ∀ l, tget? L k = some l → l.failed = true := by
  obtain ⟨C, L, hlose, hheld, hfail⟩ := State.loseWaves_eq (s.logDry (cdieRecord (die / 2)) 0x0A 0 0 die 0) die
  refine ⟨C, L, ?_, hheld, hfail⟩
  rw [State.loseDie, hlose, hdead, decide_eq_false (Nat.not_le.2 hdie)]
  rfl

theorem exec_dieLost_die {s : State} {die : Nat} (hdie : die < 16) : exec (.dieLost die) s = .next (s.loseDie die) := by
  rw [exec_dieLost, execDieLost, if_pos hdie]
theorem State.loseDie_dead {s : State} {die : Nat} (h : s.dead.contains die = true) : s.loseDie die = s := by
  rw [State.loseDie, h, Bool.or_true]
  rfl

/-- The state of a lost die, before contexts are placed again: nothing of it runs, and what its cores had not published is poisoned. -/
theorem exec_dieLost_loses {s : State} {die : Nat} (hdie : die < 16) (hdead : s.dead.contains die = false) (hqueue : s.resetQueue = [])
    (hheld : ∀ p ∈ s.ctxs, p.2.heldBy = []) :
    ∃ u : State, exec (.dieLost die) s = .next u.placeAll ∧ u.dead = s.dead ++ [die] ∧ u.mem = s.mem ∧
      (∀ p ∈ u.waves, dieOf p.2.core = die → s.stands p.2.ctx = false) ∧ (∀ p ∈ u.blocks, dieOf p.2.core = die → s.stands p.2.ctx = false) ∧
      (∀ k ∈ s.launchesOn die, ∀ l, tget? u.launches k = some l → l.failed = true) ∧
      (∀ g, g / 16 = die → (u.cluster g).withdrawn = true ∧ (u.cluster g).owner = none) ∧
      (∀ c x, tget? u.ctxs c = some x → x.phase ≠ .saved → ∀ g ∈ x.clusters, g / 16 ≠ die) ∧
      ∀ g c x i, tget? s.clusters g = some c → x ∈ c.tags → dieOf x.core = die → i < 8 → u.poison.contains (x.line + 8 * i) = true := by
  obtain ⟨C, L, hlose, hC, hL⟩ := State.loseDie_eq hdie hdead
  have hrest := (State.rebuilt_rebuiltWithout (s.without die C L) die).rest
  have hcluster := fun g => State.cluster_rebuiltWithout (s.without die C L) die (g := g)
  have hpoison := fun g i c x => State.poison_rebuiltWithout (s.without die C L) die (g := g) (i := i) (c := c) (t := x)
  generalize (s.without die C L).rebuiltWithout die = u at hlose hrest hcluster hpoison
  have hctxs : u.ctxs = tmap C (Context.withoutClusters die) := (congrArg State.ctxs hrest :)
  have hunheld : u.noneHeld := by
    intro c
    have hc : (tgetD C c {}).heldBy = [] := (hC c).trans (State.noneHeld_of_ctxs hheld c)
    rw [State.ctx, hctxs, tgetD, tget?_tmap]
    rw [tgetD] at hc
    cases hx : tget? C c with
    | none => rfl
    | some x =>
      rw [hx] at hc
      exact (x.heldBy_withoutClusters die).trans hc
  have hempty : u.resetQueue = [] := (congrArg State.resetQueue hrest :).trans (by rw [State.without, hqueue]; rfl)
  rw [State.releaseHeld_unheld hunheld, State.nextReset_unqueued hempty] at hlose
  have hwaves : u.waves = s.waves.filter (fun p => !s.onDie die p.2.ctx p.2.core) := (congrArg State.waves hrest :)
  have hblocks : u.blocks = s.blocks.filter (fun p => !s.onDie die p.2.ctx p.2.core) := (congrArg State.blocks hrest :)
  have hlaunches : u.launches = L := (congrArg State.launches hrest :)
  refine ⟨u, (exec_dieLost_die hdie).trans (congrArg _ hlose), (congrArg State.dead hrest :), (congrArg State.mem hrest :), ?_, ?_, ?_, hcluster,
    ?_, ?_⟩
  · intro p hp hd
    rw [hwaves, List.mem_filter] at hp
    exact State.stands_of_mem_filter hp.2 hd
  · intro p hp hd
    rw [hblocks, List.mem_filter] at hp
    exact State.stands_of_mem_filter hp.2 hd
  · rwa [hlaunches]
  · intro c x hx hphase
    rw [hctxs, tget?_tmap, Option.map_eq_some_iff] at hx
    obtain ⟨y, -, rfl⟩ := hx
    exact Context.clusters_withoutClusters hphase
  · exact fun g c x i hc hx hd hi => List.contains_iff_mem.2 (hpoison g i c x hc hx hd hi)

/-! What the loss of a die shares with its other reports (R413, R416). -/

theorem State.underWay_loseStack {s : State} {y : Nat} (h : s.lostStacks.contains y = false) : underWay (s.loseStack y) (.decantCdieLoss y) := by
  rw [State.loseStack, h]
  exact underWay_sendOnce _ _
theorem State.loseStack_lost {s : State} {y : Nat} (h : s.lostStacks.contains y = true) : s.loseStack y = s := by
  rw [State.loseStack, h]
  rfl

theorem exec_dieLost_stack {s : State} {y : Nat} (hy : y < 8) : exec (.dieLost (0x20 + y)) s = .next (s.loseStack y) := by
  have hrange : (decide (0x20 ≤ 0x20 + y) && decide (0x20 + y < 0x28)) = true := by simp; omega
  rw [exec_dieLost, execDieLost, if_neg (by omega), hrange, Nat.add_sub_cancel_left]
  rfl

theorem exec_rebuildDone_tells {s : State} {die n : Nat} (h : tget? s.rebuilding die = some n) :
    ∃ t : State, exec (.rebuildDone die) s = .next t ∧ t.out = s.out ++ [.tell 0x0B die (min n (2 ^ 32 - 1))] ∧ tget? t.rebuilding die = none ∧
      ({ t with out := s.out, dry := s.dry, rebuilding := s.rebuilding } : State) = s := by
  let u : State := (s.logDry (cdieRecord (die / 2)) 0x0B 0 0 (min n (2 ^ 32 - 1)) 0).logDry 0x30 0x0B 0 0 (min n (2 ^ 32 - 1)) 0
  refine ⟨{ u with out := s.out ++ [.tell 0x0B die (min n (2 ^ 32 - 1))], rebuilding := tdel s.rebuilding die }, ?_, rfl, ?_, rfl⟩
  · rw [exec_rebuildDone, execRebuildDone, h]
    rfl
  · rw [tget?_tdel, if_pos rfl]

/-- What a heartbeat of a die says of it. -/
def State.heartbeat (answered : List Nat) (u : State) (d : Nat) : State :=
  if u.dead.contains d || 16 ≤ d then u
  else if answered.contains d then { u with missed := tdel u.missed d }
  else if 3 ≤ tgetD u.missed d 0 + 1 then u.loseDie d else { u with missed := tset u.missed d (tgetD u.missed d 0 + 1) }

theorem exec_smcHeartbeat_eq (y : Nat) (answered : List Nat) (s : State) :
    exec (.smcHeartbeat y answered) s = .next ((s.heartbeat answered (2 * y)).heartbeat answered (2 * y + 1)) := rfl

section
variable {s : State} {answered : List Nat} {d : Nat}

theorem State.heartbeat_dead (h : s.dead.contains d = true) : s.heartbeat answered d = s := by
  rw [State.heartbeat, h]
  rfl

/-- A die that has not missed three heartbeats has its count, and nothing else changes. -/
theorem State.heartbeat_counts (hd : d < 16) (h : answered.contains d = true ∨ tgetD s.missed d 0 < 2) : ∃ M,
    s.heartbeat answered d = { s with missed := M } ∧ (∀ e, e ≠ d → tgetD M e 0 = tgetD s.missed e 0) ∧
      (s.dead.contains d = false → tgetD M d 0 = if answered.contains d then 0 else tgetD s.missed d 0 + 1) := by
  cases hdead : s.dead.contains d with
  | true => exact ⟨s.missed, State.heartbeat_dead hdead, fun _ _ => rfl, nofun⟩
  | false =>
    rw [State.heartbeat, hdead, decide_eq_false (Nat.not_le.2 hd)]
    cases ha : answered.contains d with
    | true => exact ⟨_, rfl, fun e he => by rw [tgetD, tget?_tdel, if_neg he, tgetD], fun _ => by rw [tgetD, tget?_tdel, if_pos rfl]; rfl⟩
    | false =>
      have hmissed : ¬3 ≤ tgetD s.missed d 0 + 1 := by
        rw [ha] at h
        have := h.resolve_left Bool.false_ne_true
        omega
      exact ⟨_, if_neg hmissed, fun e he => tgetD_tset_other _ _ _ he, fun _ => tgetD_tset_same _ _ _ _⟩

theorem State.heartbeat_loses (hd : d < 16) (ha : answered.contains d = false) (h : 2 ≤ tgetD s.missed d 0) :
    s.heartbeat answered d = s.loseDie d := by
  cases hdead : s.dead.contains d with
  | true => rw [State.heartbeat_dead hdead, State.loseDie_dead hdead]
  | false =>
    rw [State.heartbeat, hdead, decide_eq_false (Nat.not_le.2 hd), ha]
    exact if_pos (Nat.succ_le_succ h)

end

theorem exec_smcHeartbeat_counts {s : State} {answered : List Nat} {y : Nat} (hy : y < 8)
    (h : ∀ d, d = 2 * y ∨ d = 2 * y + 1 → answered.contains d = true ∨ tgetD s.missed d 0 < 2) : ∃ t : State,
    exec (.smcHeartbeat y answered) s = .next t ∧ ({ t with missed := s.missed } : State) = s ∧
      ∀ d, d = 2 * y ∨ d = 2 * y + 1 → s.dead.contains d = false →
        tgetD t.missed d 0 = if answered.contains d then 0 else tgetD s.missed d 0 + 1 := by
  obtain ⟨M, hM, hother, hfirst⟩ := State.heartbeat_counts (by omega) (h (2 * y) (.inl rfl))
  have hodd := hother (2 * y + 1) (by omega)
  obtain ⟨N, hN, hkept, hsecond⟩ := State.heartbeat_counts (s := { s with missed := M }) (by omega)
    (show answered.contains (2 * y + 1) = true ∨ tgetD M (2 * y + 1) 0 < 2 from hodd ▸ h (2 * y + 1) (.inr rfl))
  refine ⟨{ s with missed := N }, ?_, rfl, ?_⟩
  · rw [exec_smcHeartbeat_eq, hM, hN]
  · rintro d (rfl | rfl) hdead
    · exact (hkept _ (by omega)).trans (hfirst hdead)
    · exact (hsecond hdead).trans (by rw [hodd])

end Sys2Proof.Machine

namespace Sys2Proof.Machine
open Sys2Proof.Claims

/-! How a context stands for a warm reset (R410): its phase, its clusters, the dies that hold it back, and the resets in progress. -/

/-- How a context stands for a warm reset, with the resets in progress. -/
def State.standing (s : State) (c : Nat) : CtxPhase × List Nat × List Nat × Tbl Nat :=
  ((s.ctx c).phase, (s.ctx c).clusters, (s.ctx c).heldBy, s.resets)

theorem State.standing_congr {s u : State} (hc : u.ctxs = s.ctxs) (hr : u.resets = s.resets) (c : Nat) : u.standing c = s.standing c := by
  rw [State.standing, State.ctx, hc, hr]
  rfl
theorem State.sameArch_resets {s u : State} (h : s.sameArch u) : u.resets = s.resets := (congrArg State.resets h.rest :)
theorem State.standing_sameArch {s u : State} (h : s.sameArch u) (c : Nat) : u.standing c = s.standing c :=
  State.standing_congr (State.sameArch_ctxs h) (State.sameArch_resets h) c
theorem State.standing_foldl {α : Type} {c : Nat} {f : State → α → State} (hf : ∀ (u : State) a, (f u a).standing c = u.standing c) (l : List α)
    (s : State) : (l.foldl f s).standing c = s.standing c :=
  List.foldlRecOn (motive := fun u : State => u.standing c = s.standing c) l f rfl fun u hu a _ => (hf u a).trans hu

section
variable (s : State) (c n : Nat)

/-- A change of a context keeps how it stands when it keeps its phase, its clusters and what holds it. -/
theorem State.standing_modCtx {f : Context → Context} (hp : ∀ x, (f x).phase = x.phase) (hg : ∀ x, (f x).clusters = x.clusters)
    (hh : ∀ x, (f x).heldBy = x.heldBy) : (s.modCtx n f).standing c = s.standing c := by
  have hkept {β : Type} (g : Context → β) (h : ∀ x, g (f x) = g x) : g ((s.modCtx n f).ctx c) = g (s.ctx c) := by
    by_cases hc : c = n
    · subst hc; exact tgetD_tmodify_kept _ _ _ _ g h
    · exact congrArg g (tgetD_tmodify_other _ _ _ hc)
  exact Prod.ext (hkept _ hp) (Prod.ext (hkept _ hg) (Prod.ext (hkept _ hh) rfl))
theorem State.standing_modCtx_other (f : Context → Context) (h : c ≠ n) : (s.modCtx n f).standing c = s.standing c := by
  have hctx : (s.modCtx n f).ctx c = s.ctx c := tgetD_tmodify_other _ _ _ h
  rw [State.standing, hctx]
  rfl

theorem State.standing_modQueue (q : Nat) (f : Queue → Queue) : (s.modQueue n q f).standing c = s.standing c :=
  s.standing_modCtx c n (fun _ => rfl) (fun _ => rfl) (fun _ => rfl)

theorem State.standing_writeHeader (state : Nat) : (s.writeHeader n state).standing c = s.standing c := by
  have hbytes (u : State) (pa : Nat) (bs : List Byte) : (u.writeBytes pa bs).standing c = u.standing c := by
    simp only [State.writeBytes, State.decantBreak]
    split <;> rfl
  simp only [State.writeHeader, State.deviceWrite]
  split
  · rfl
  · exact State.standing_foldl (fun u i => (State.standing_sameArch (State.publishLine_same _ _ (State.sameArch_refl _)) c).trans (hbytes u _ _)) _ _

theorem State.standing_applyPower : (s.applyPower n).standing c = s.standing c := by
  have h := s.applyPower_frame n
  exact State.standing_congr (congrArg State.ctxs h :) (congrArg State.resets h :) c

/-! The dispatcher (R338, R339) changes queues, launches and what runs, never how a context stands. -/

theorem State.standing_eventFault (signal : Bool) (va : Dword) : (s.eventFault n signal va).standing c = s.standing c := by
  simp only [State.eventFault]
  split
  · simp only [State.emit]
    split <;> rfl
  · rfl

theorem State.standing_readWaits : (s.readWaits n).standing c = s.standing c := by
  simp only [State.readWaits]
  split
  · rfl
  · split
    · exact State.standing_foldl (fun u t => State.standing_sameArch (State.askFpub_same u _ _ _ _ u.sameArch_refl) c) _ _
    · split
      · exact State.standing_foldl (fun u x => State.standing_sameArch (State.publishLine_same u x u.sameArch_refl) c) _ s
      · exact s.standing_modQueue c _ _ _
      · rfl
      · exact s.standing_eventFault c _ _ _

theorem State.standing_settleQueue (q k : Nat) : (s.settleQueue n q k).standing c = s.standing c := by
  induction k generalizing s with
  | zero => rfl
  | succ k ih =>
    rw [State.settleQueue]
    split
    · exact s.standing_modQueue c _ _ _
    · extract_lets s1 l
      split
      · exact (ih _).trans ((s1.standing_modQueue c _ _ _).trans (s.standing_readWaits c _))
      · exact s.standing_readWaits c _

theorem State.standing_settleQueues : (s.settleQueues n).standing c = s.standing c :=
  State.standing_foldl (fun u q => u.standing_settleQueue c n q _) _ _

theorem State.standing_credit (k : Nat) (es : List Nat) : (s.credit n k es).standing c = s.standing c := by
  rw [State.credit]
  split
  · rfl
  · exact State.standing_foldl (fun u q => u.standing_modQueue c n q _) _ _

theorem State.standing_register {va : Dword} {u : State} {k : Nat} (h : s.register n va = some (u, k)) : u.standing c = s.standing c := by
  rw [State.register] at h
  split at h
  · cases h; rfl
  · split at h
    · cases h
      exact s.standing_modCtx c n (fun _ => rfl) (fun _ => rfl) (fun _ => rfl)
    · cases h

theorem State.standing_resolve {u : State} {b : Bool} (h : s.resolve n = (u, b)) : u.standing c = s.standing c := by
  rw [State.resolve] at h
  split at h
  · cases h; rfl
  · split at h
    · cases h; rfl
    · rename_i s1 o hr
      have hs := s.standing_register c _ hr
      extract_lets x obj forced image at h
      clear_value image
      split at h
      · obtain ⟨rfl, -⟩ := Prod.mk.inj h; exact hs
      · split at h
        · obtain ⟨rfl, -⟩ := Prod.mk.inj h; exact hs
        · obtain ⟨rfl, -⟩ := Prod.mk.inj h; exact hs

theorem State.standing_enterFunction (pos : Dword) : (s.enterFunction n pos).standing c = s.standing c := by
  simp only [State.enterFunction]
  split
  · rfl
  · split
    · rfl
    · split
      · rfl
      · split
        · rfl
        · split
          · split <;> rfl
          · rfl

theorem State.standing_startGang (cores : List Nat) : (s.startGang n cores).standing c = s.standing c := by
  have hblock (u : State) (l : Launch) (gang rank core : Nat) : (u.startBlock l n gang rank core).standing c = u.standing c := by
    rw [State.startBlock]
    refine (State.standing_foldl (fun v d => ?_) _ _).trans rfl
    rw [State.startWaveOf]
    exact State.standing_enterFunction _ c _ _
  rw [State.startGang]
  exact State.standing_foldl (fun u k => hblock u _ _ _ _) _ s

theorem State.standing_dispatchOne {u : State} (h : s.dispatchOne n = some u) : u.standing c = s.standing c := by
  rw [State.dispatchOne] at h
  split at h
  · cases h
  · extract_lets es s1 at h
    have hs1 : s1.standing c = s.standing c := s.standing_credit c n _ es
    split at h
    · cases h
    · split at h
      · cases h
      · rename_i k cores hp
        split at h
        · rename_i hr
          cases h
          exact (State.standing_settleQueues _ c n).trans ((s1.standing_resolve c _ hr).trans hs1)
        · rename_i u2 hr
          cases h
          have hgang : (State.startGang u2 k cores).standing c = s.standing c :=
            (State.standing_startGang _ c _ _).trans ((s1.standing_resolve c _ hr).trans hs1)
          refine (State.standing_settleQueues _ c n).trans ((State.standing_modQueue _ c n _ _).trans (Eq.trans ?_ hgang))
          exact State.standing_modCtx _ c n (fun _ => rfl) (fun _ => rfl) (fun _ => rfl)

theorem State.standing_dispatchLoop (k : Nat) : (s.dispatchLoop n k).standing c = s.standing c := by
  induction k generalizing s with
  | zero => rfl
  | succ k ih =>
    rw [State.dispatchLoop]
    split
    · rename_i hd; exact (ih _).trans (s.standing_dispatchOne c n hd)
    · rfl

theorem State.standing_dispatch : (s.dispatch n).standing c = s.standing c := by
  have hplace : (s.placeGangs n).standing c = s.standing c := by
    rw [State.placeGangs]
    split
    · rfl
    · exact (State.standing_dispatchLoop _ c n _).trans (s.standing_settleQueues c n)
  rw [State.dispatch]
  split
  · rfl
  · refine Eq.trans (State.standing_foldl (fun u q => ?_) _ _) hplace
    split
    · exact u.standing_modQueue c n q _
    · rfl

/-! A warm reset begins (R410). -/

theorem State.standing_preemptNow_other (h : c ≠ n) : (s.preemptNow n).standing c = s.standing c := by
  have hbegin (u : State) : (u.beginPreempt n).standing c = u.standing c :=
    (State.standing_writeHeader _ c n 1).trans (u.standing_modCtx_other c n _ h)
  rw [State.preemptNow]
  split
  · exact (hbegin _).trans ((State.standing_dispatch _ c n).trans ((State.standing_applyPower _ c n).trans
      ((State.standing_writeHeader _ c n 0).trans (s.standing_modCtx_other c n _ h))))
  · exact hbegin s

end

/-- A context is being saved for the warm reset of a die. -/
def Context.savedFor (c : Context) (die : Nat) : Prop := c.phase = .saving ∧ die ∈ c.heldBy

/-- A context that holds something stands in the table. -/
theorem State.ctx_isSome {s : State} {c : Nat} (h : s.ctx c ≠ {}) : ∃ x, tget? s.ctxs c = some x ∧ s.ctx c = x := by
  cases hc : tget? s.ctxs c with
  | none => exact absurd (by rw [State.ctx, tgetD, hc]; rfl) h
  | some x => exact ⟨x, rfl, State.ctx_of_some hc⟩

section
variable {s : State} {die c : Nat}

/-- A context that is not the one pre-empted stands as it did. -/
theorem State.standing_preemptFor_other {n : Nat} (h : c ≠ n) : (s.preemptFor die n).standing c = s.standing c := by
  rw [State.preemptFor]
  split
  · split
    · exact (State.standing_modCtx_other _ c n _ h).trans (s.standing_preemptNow_other c n h)
    · exact (State.standing_modCtx_other _ c n _ h).trans (s.standing_preemptNow_other c n h)
    · split
      · rfl
      · exact s.standing_modCtx_other c n _ h
    · rfl
  · rfl

/-- A running context of the die is saved for its reset. -/
theorem State.preemptFor_running {x : Context} (hx : tget? s.ctxs c = some x) (hg : x.clusters.any (fun g => g / 16 = die) = true)
    (hp : x.phase = .running) : ((s.preemptFor die c).ctx c).savedFor die := by
  have hsome : tget? (s.preemptNow c).ctxs c = some { x with phase := .saving, preemptAt := s.clk } := by
    obtain ⟨-, -, hkept⟩ := (withContext s c { x with phase := .saving, preemptAt := s.clk }).sameWork_writeHeader c 1
    rw [State.preemptNow_running hx hp, State.beginPreempt_of_some hx, hkept, withContext, tget?_tset_same]
  rw [State.preemptFor, State.ctx_of_some hx, hg, hp]
  simp only [if_true]
  rw [State.modCtx_of_some _ hsome, ctx_withContext, if_pos rfl]
  exact ⟨rfl, List.mem_append_right _ List.mem_cons_self⟩

/-- One that is already being saved for it stays so. -/
theorem State.preemptFor_saving {x : Context} (hx : tget? s.ctxs c = some x) (h : x.savedFor die) :
    ((s.preemptFor die c).ctx c).savedFor die := by
  obtain ⟨hp, hheld⟩ := h
  have hnot : x.heldBy.isEmpty = false := by
    rw [List.isEmpty_eq_false_iff]
    exact List.ne_nil_of_mem hheld
  rw [State.preemptFor, State.ctx_of_some hx, hp, hnot]
  simp only [Bool.false_and, Bool.false_eq_true, if_false]
  split
  · rw [State.modCtx_of_some _ hx, ctx_withContext, if_pos rfl]
    exact ⟨hp, List.mem_append_left _ hheld⟩
  · rw [State.ctx_of_some hx]
    exact ⟨hp, hheld⟩

/-- A reset that begins saves every running context of its die. -/
theorem State.beginReset_saves {x : Context} (hx : tget? s.ctxs c = some x) (hg : x.clusters.any (fun g => g / 16 = die) = true)
    (hp : x.phase = .running) : ((s.beginReset die).ctx c).savedFor die := by
  let s0 : State := { s with resets := tset s.resets die 0 }
  let Due (u : State) : Prop := u.standing c = s0.standing c
  have hsaved {u v : State} (h : v.standing c = u.standing c) (hu : (u.ctx c).savedFor die) : (v.ctx c).savedFor die := by
    obtain ⟨hphase, hrest⟩ := Prod.mk.inj h
    obtain ⟨-, hrest⟩ := Prod.mk.inj hrest
    obtain ⟨hheld, -⟩ := Prod.mk.inj hrest
    rw [Context.savedFor, hphase, hheld]
    exact hu
  have hkeeps (u : State) (b : Nat) (hu : (u.ctx c).savedFor die) : ((u.preemptFor die b).ctx c).savedFor die := by
    by_cases hb : c = b
    · subst hb
      obtain ⟨y, hy, hctx⟩ := State.ctx_isSome (s := u) (c := c) (fun h => by rw [h] at hu; exact absurd hu.2 List.not_mem_nil)
      exact State.preemptFor_saving hy (hctx ▸ hu)
    · exact hsaved (State.standing_preemptFor_other hb) hu
  have hmakes (u : State) (hu : Due u) : ((u.preemptFor die c).ctx c).savedFor die := by
    obtain ⟨hphase, hrest⟩ := Prod.mk.inj hu
    obtain ⟨hclusters, -⟩ := Prod.mk.inj hrest
    have hctx : s0.ctx c = x := State.ctx_of_some hx
    rw [hctx] at hphase hclusters
    obtain ⟨y, hy, hyx⟩ := State.ctx_isSome (s := u) (c := c) (fun h => by rw [← hclusters, h] at hg; exact Bool.false_ne_true hg)
    exact State.preemptFor_running hy (by rw [← hyx, hclusters]; exact hg) (by rw [← hyx, hphase]; exact hp)
  refine foldl_makes (Inv := fun u : State => Due u ∨ (u.ctx c).savedFor die) (Q := fun u : State => (u.ctx c).savedFor die)
    (fun u b hu => ?_) (fun u hu => hu.elim (hmakes u) (hkeeps u c)) (fun u b _ => hkeeps u b)
    (List.mem_map.2 ⟨(c, x), tget?_mem hx, rfl⟩) (.inl (rfl : Due s0))
  rcases hu with hu | hu
  · by_cases hb : c = b
    · subst hb; exact .inr (hmakes u hu)
    · exact .inl ((State.standing_preemptFor_other hb).trans hu)
  · exact .inr (hkeeps u b hu)

theorem State.resets_beginReset (s : State) (die : Nat) : (s.beginReset die).resets = tset s.resets die 0 := by
  refine List.foldlRecOn (motive := fun u : State => u.resets = tset s.resets die 0) _ _ rfl fun u hu n _ => ?_
  obtain ⟨-, hrest⟩ := Prod.mk.inj (State.standing_preemptFor_other (s := u) (die := die) (Nat.succ_ne_self n))
  obtain ⟨-, hrest⟩ := Prod.mk.inj hrest
  obtain ⟨-, hresets⟩ := Prod.mk.inj hrest
  exact hresets.trans hu

theorem exec_dieWarmReset_refused (h : s.askReset die = none) : exec (.dieWarmReset die) s = .next s := by
  rw [exec_dieWarmReset, execDieWarmReset, h]
  rfl

section
variable (hdie : die < 16) (hdead : s.dead.contains die = false) (hfree : tget? s.resets die = none)
  (hnew : s.resetQueue.contains die = false)
include hdie hdead hfree hnew

theorem exec_dieWarmReset_queued (h : (tget? s.resets (mateOf die)).isSome = true) :
    exec (.dieWarmReset die) s = .next { s with resetQueue := s.resetQueue ++ [die] } := by
  rw [exec_dieWarmReset, execDieWarmReset, State.askReset, hdead, hfree, hnew, decide_eq_false (Nat.not_le.2 hdie), h]
  rfl
theorem exec_dieWarmReset_begins (h : tget? s.resets (mateOf die) = none) : exec (.dieWarmReset die) s = .next (s.beginReset die) := by
  rw [exec_dieWarmReset, execDieWarmReset, State.askReset, hdead, hfree, hnew, decide_eq_false (Nat.not_le.2 hdie), h]
  rfl

end

end

end Sys2Proof.Machine

namespace Sys2Proof.Machine
open Sys2Proof.Claims

/-! The link ports of a die (R394, R411). -/

/-- `u` is `s` but for the fabric and the drydown records; no element that left or was powered down is back. -/
structure State.Withdrawn (s u : State) : Prop where
  rest : ({ u with fabric := s.fabric, dry := s.dry } : State) = s
  down : u.fabric.down = s.fabric.down
  off : ∀ e ∈ s.fabric.off, e ∈ u.fabric.off

theorem State.Withdrawn.refl (s : State) : s.Withdrawn s := ⟨rfl, rfl, fun _ h => h⟩
theorem State.Withdrawn.trans {s u v : State} (h : s.Withdrawn u) (hv : u.Withdrawn v) : s.Withdrawn v :=
  ⟨(congrArg (fun x : State => { x with fabric := s.fabric, dry := s.dry }) hv.rest :).trans h.rest, hv.down.trans h.down,
    fun e he => hv.off e (h.off e he)⟩

theorem State.powerDown_withdrawn (s : State) (e : Element) : s.Withdrawn (s.powerDown e) := by
  obtain ⟨dry, h⟩ := s.powerDown_eq e
  rw [h]
  exact ⟨rfl, rfl, fun _ he => List.mem_append_left _ he⟩
theorem State.mem_off_powerDown (s : State) (e : Element) : e ∈ (s.powerDown e).fabric.off := by
  obtain ⟨dry, h⟩ := s.powerDown_eq e
  rw [h]
  exact List.mem_append_right _ List.mem_cons_self

theorem State.endPorts_withdrawn (s : State) (die : Nat) : s.Withdrawn (s.endPorts die) :=
  List.foldlRecOn (motive := s.Withdrawn) _ _ (.refl s) fun u hu e _ => hu.trans (u.powerDown_withdrawn e)

/-- Once its ports have been quiet, every port of the die is off or had failed. -/
theorem State.off_endPorts {s : State} {die : Nat} (h : s.portsQuiet die = true) {e : Element} (he : e ∈ diePorts die) :
    (s.endPorts die).fabric.off.contains e = true ∨ s.fabric.down.contains e = true := by
  have hquiet := List.all_eq_true.1 h e he
  rw [Bool.or_eq_true, Bool.or_eq_true] at hquiet
  rcases hquiet with (hd | ho) | hq
  · exact .inr hd
  · exact .inl (List.contains_iff_mem.2 ((s.endPorts_withdrawn die).off e (List.contains_iff_mem.1 ho)))
  · refine .inl (List.contains_iff_mem.2 ?_)
    exact foldl_makes (Inv := fun _ => True) (Q := fun u : State => e ∈ u.fabric.off) (fun _ _ h => h) (fun u _ => u.mem_off_powerDown e)
      (fun u b _ => (u.powerDown_withdrawn b).off e) (List.mem_filter.2 ⟨he, hq⟩) trivial

/-- Every working port of the die begins to leave, and none is powered down. -/
theorem State.retirePorts_leaving (s : State) (die : Nat) : s.Withdrawn (s.retirePorts die) ∧ (s.retirePorts die).fabric.off = s.fabric.off ∧
    ∀ e ∈ diePorts die, s.fabric.works e = true → (s.retirePorts die).fabric.leaving.any (fun l => l.element == e) = true := by
  have hframe (u : State) (e : Element) : u.Withdrawn (u.startRetire e) ∧ (u.startRetire e).fabric.off = u.fabric.off := by
    obtain ⟨dry, h⟩ := u.startRetire_eq e
    rw [h]
    exact ⟨⟨rfl, rfl, fun _ he => he⟩, rfl⟩
  obtain ⟨hw, hoff⟩ := List.foldlRecOn (motive := fun u : State => s.Withdrawn u ∧ u.fabric.off = s.fabric.off)
    ((diePorts die).filter s.fabric.works) State.startRetire ⟨.refl s, rfl⟩
    fun u ⟨hu, ho⟩ e _ => ⟨hu.trans (hframe u e).1, (hframe u e).2.trans ho⟩
  refine ⟨hw, hoff, fun e he hworks => ?_⟩
  refine foldl_makes (Inv := fun _ => True) (Q := fun u : State => u.fabric.leaving.any (fun l => l.element == e) = true) (fun _ _ h => h)
    (fun u _ => ?_) (fun u b _ hu => ?_) (List.mem_filter.2 ⟨he, hworks⟩) trivial
  · obtain ⟨dry, h⟩ := u.startRetire_eq e
    rw [h]
    simp
  · obtain ⟨dry, h⟩ := u.startRetire_eq b
    rw [h]
    simp [hu]

/-! The steps of a warm reset (R411). -/

theorem State.disown_rebuilt (s : State) (k : Nat) : s.Rebuilt (s.disown k) := by
  have hown (u : State) (y : Nat) : u.Rebuilt (u.ownHome k y) := .of_sameArch (State.ownHome_same u.sameArch_refl k y)
  unfold State.disown
  extract_lets s1 s2 e
  have h1 : s.Rebuilt s1 := s.purge_rebuilt _
  have h2 : s1.Rebuilt s2 := .foldl (fun u y => by
    split
    · exact (State.Rebuilt.of_sameArch (State.dropPart_same u y k u.sameArch_refl)).trans (hown _ y)
    · exact .refl u) _
  refine (h1.trans h2).trans (State.Rebuilt.trans (u := if e.owned then s2.ownHome k e.owner else s2) ?_ (.foldl State.settle_rebuilt _))
  split
  · exact hown s2 _
  · exact .refl s2

theorem State.emptyDie_rebuilt (s : State) (die : Nat) : s.Rebuilt (s.emptyDie die) := by
  unfold State.emptyDie
  extract_lets ks s1
  have h1 : s.Rebuilt s1 := (State.Rebuilt.of_sameArch (s.evictSlices_same _)).trans (.foldl State.disown_rebuilt _)
  exact h1.trans ⟨rfl, fun _ h => h⟩

/-- No core of an emptied die has a line in its L1. -/
theorem State.l1_emptyDie (s : State) {die core : Nat} (h : dieOf core = die) : ((s.emptyDie die).core core).l1 = [] := by
  unfold State.emptyDie
  extract_lets ks s1
  have hmap := tget?_map_keyed (f := fun p : Nat × Core => if dieOf p.1 = die then (p.1, { p.2 with l1 := [] }) else p)
    (fun q => by dsimp only; split <;> rfl) s1.cores core
  rw [State.core, tgetD, hmap]
  cases tget? s1.cores core with
  | none => rfl
  | some c => simp [h]

/-- A cluster of a reset die as after reset. -/
def State.resetCluster (u : State) (g : Nat) : State :=
  (u.setStep g 16).modCluster g (fun c => { c with gather := [], bins := [], owner := none, coresFrom := u.clusterClk g })

theorem State.resetCluster_frame (u : State) (g : Nat) : ({ u.resetCluster g with clusters := u.clusters, dry := u.dry } : State) = u := by
  have h := u.setStep_frame g 16
  rw [State.resetCluster]
  generalize u.setStep g 16 = v at h
  exact h

theorem State.resetClusters_frame (s : State) (gs : List Nat) :
    ({ gs.foldl State.resetCluster s with clusters := s.clusters, dry := s.dry } : State) = s := by
  refine List.foldlRecOn (motive := fun u : State => ({ u with clusters := s.clusters, dry := s.dry } : State) = s) _ _ rfl fun u hu g _ => ?_
  have h := congrArg (fun x : State => ({ x with clusters := s.clusters, dry := s.dry } : State)) (u.resetCluster_frame g)
  exact Eq.trans h hu

/-- The die's cores are as after reset, and only its clusters have changed with them. -/
theorem State.resetLogic_eq (s : State) (die : Nat) : ∃ G D,
    s.resetLogic die = { s with cores := s.cores.filter (fun p => dieOf p.1 != die), clusters := G, dry := D } := by
  have hfold : s.resetLogic die =
      (dieClusters die).foldl State.resetCluster { s with cores := s.cores.filter (fun p => dieOf p.1 != die) } := rfl
  have hframe := State.resetClusters_frame { s with cores := s.cores.filter (fun p => dieOf p.1 != die) } (dieClusters die)
  rw [← hfold] at hframe
  generalize s.resetLogic die = t at hframe
  exact ⟨t.clusters, t.dry, (congrArg (fun x : State => { x with clusters := t.clusters, dry := t.dry }) hframe :)⟩

/-! The last step: the die answers again (R411). -/

/-- `u` has the contexts, the resets, the homes that do not answer and the fabric of `s`. -/
structure State.SameResets (s u : State) : Prop where
  ctxs : u.ctxs = s.ctxs
  resets : u.resets = s.resets
  queue : u.resetQueue = s.resetQueue
  offline : u.offline = s.offline
  fabric : u.fabric = s.fabric

theorem State.SameResets.refl (s : State) : s.SameResets s := ⟨rfl, rfl, rfl, rfl, rfl⟩
theorem State.SameResets.trans {s u v : State} (h : s.SameResets u) (hv : u.SameResets v) : s.SameResets v :=
  ⟨hv.ctxs.trans h.ctxs, hv.resets.trans h.resets, hv.queue.trans h.queue, hv.offline.trans h.offline, hv.fabric.trans h.fabric⟩
theorem State.SameResets.of_sameArch {s u : State} (h : s.sameArch u) : s.SameResets u :=
  ⟨State.sameArch_ctxs h, State.sameArch_resets h, (congrArg State.resetQueue h.rest :), (congrArg State.offline h.rest :),
    (congrArg State.fabric h.rest :)⟩

theorem State.writeBytes_sameResets (s : State) (pa : Nat) (bs : List Byte) : s.SameResets (s.writeBytes pa bs) := by
  simp only [State.writeBytes, State.decantBreak]
  split <;> exact ⟨rfl, rfl, rfl, rfl, rfl⟩
theorem State.initHeader_sameResets (s : State) (n : Nat) : s.SameResets (s.initHeader n) := by
  simp only [State.initHeader, State.deviceWrite]
  split
  · exact .refl s
  · exact List.foldlRecOn (motive := s.SameResets) _ _ (.refl s) fun u hu i _ =>
      hu.trans ((u.writeBytes_sameResets _ _).trans (.of_sameArch (State.publishLine_same _ _ (State.sameArch_refl _))))

theorem State.freshHeaders_sameResets (s : State) (die : Nat) : s.SameResets (s.freshHeaders die) := by
  rw [State.freshHeaders]
  refine List.foldlRecOn (motive := s.SameResets) _ _ (.refl s) fun u hu n _ => hu.trans ?_
  split
  · exact u.initHeader_sameResets n
  · exact .refl u

theorem exists_tget?_of_mem_tkeys {α : Type} {t : Tbl α} {k : Nat} (h : k ∈ tkeys t) : ∃ v, tget? t k = some v := by
  induction t with
  | nil => cases h
  | cons q t ih =>
    obtain ⟨j, v⟩ := q
    by_cases hj : j = k
    · exact ⟨v, by simp [tget?, hj]⟩
    · obtain ⟨w, hw⟩ := ih ((List.mem_cons.1 h).resolve_left fun e => hj e.symm)
      exact ⟨w, by simp [tget?, hj, hw]⟩

/-- No header is written anew where no save area is homed on the die. -/
theorem State.freshHeaders_elsewhere {s : State} {die : Nat} (h : ∀ p ∈ s.ctxs, homeDie p.2.saveBase ≠ die) : s.freshHeaders die = s := by
  rw [State.freshHeaders]
  refine List.foldlRecOn (motive := fun u : State => u = s) _ _ rfl fun u hu n hn => ?_
  subst hu
  obtain ⟨x, hx⟩ := exists_tget?_of_mem_tkeys hn
  exact if_neg (by rw [State.ctx_of_some hx]; exact h _ (tget?_mem hx))

/-- The element is a port or an elevator of a die, or the other end of one. -/
def comesBack (die : Nat) (e : Element) : Bool :=
  (diePorts die ++ dieElevators die).contains e || (diePorts die ++ dieElevators die).contains (farEnd e)

theorem comesBack_iff {die : Nat} {e : Element} :
    comesBack die e = true ↔ e ∈ diePorts die ++ dieElevators die ∨ farEnd e ∈ diePorts die ++ dieElevators die := by
  rw [comesBack, Bool.or_eq_true, List.contains_iff_mem, List.contains_iff_mem]

/-- The state of a die that has come back, before the headers of the save areas homed there are written. -/
def State.back (s : State) (die : Nat) : State :=
  let f := s.fabric
  { s with
    fabric := { f with
      off := f.off.filter (fun e => !comesBack die e), around := f.around.filter (fun e => !comesBack die e),
      down := f.down.filter (fun e => !comesBack die e),
      leaving := f.leaving.filter (fun l => !comesBack die l.element), rewriteBy := f.rewriteBy.filter (fun p => !comesBack die p.1) },
    offline := s.offline.erase die, resets := tdel s.resets die }

theorem State.readmit_eq (s : State) (die : Nat) : s.readmit die = (((s.back die).freshHeaders die).releaseHeld die).nextReset die := rfl

theorem State.readmit_unheld {s : State} {die : Nat} (hqueue : s.resetQueue = []) (hheld : ∀ p ∈ s.ctxs, p.2.heldBy = []) :
    s.readmit die = (s.back die).freshHeaders die := by
  have h := (s.back die).freshHeaders_sameResets die
  have hnone : ((s.back die).freshHeaders die).noneHeld := State.noneHeld_of_ctxs (by rw [h.ctxs]; exact hheld)
  rw [State.readmit_eq, State.releaseHeld_unheld hnone, State.nextReset_unqueued (h.queue.trans hqueue)]

/-! Each step of WARM_RESET_STEP_DONE. -/

/-- The state in which the action of a step is taken. -/
def State.stepped (s : State) (die k : Nat) : State := ({ s with resets := tset s.resets die (k + 1) } : State).logDry die 0x09 0 0 (k + 1) 0

section
variable {s : State} {die k : Nat} (h : tget? s.resets die = some k)
include h

theorem exec_warmResetStepDone_waits (hk : k = 0) (hown : (dieClusters die).any (fun g => (s.cluster g).owner.isSome) = true) :
    exec (.warmResetStepDone die) s = .next s := by
  subst hk
  rw [exec_warmResetStepDone, execWarmResetStepDone, h, hown]
  rfl

theorem exec_warmResetStepDone_retires (hk : k = 0) (hown : (dieClusters die).any (fun g => (s.cluster g).owner.isSome) = false)
    (hquiet : s.portsQuiet die = false) : exec (.warmResetStepDone die) s = .next (s.retirePorts die) := by
  subst hk
  rw [exec_warmResetStepDone, execWarmResetStepDone, h, hown, hquiet]
  rfl

theorem exec_warmResetStepDone_steps
    (hready : k = 0 → (dieClusters die).any (fun g => (s.cluster g).owner.isSome) = false ∧ s.portsQuiet die = true) :
    exec (.warmResetStepDone die) s = .next ((s.stepped die k).resetStep die (k + 1)) := by
  rw [exec_warmResetStepDone, execWarmResetStepDone, h]
  by_cases hk : k = 0
  · obtain ⟨hown, hquiet⟩ := hready hk
    subst hk
    dsimp only
    rw [hown, hquiet]
    rfl
  · dsimp only
    rw [decide_eq_false hk]
    rfl

end

/-! What each step leaves. -/

section
variable (s : State) (die : Nat)

/-- A step but the last goes on in the reset and leaves DRAM as it is. -/
theorem State.resetStep_kept {k : Nat} (hk : k < 5) :
    (s.resetStep die (k + 1)).resets = s.resets ∧ (s.resetStep die (k + 1)).mem = s.mem := by
  match k, hk with
  | 0, _ =>
    have h := (s.endPorts_withdrawn die).rest
    exact ⟨(congrArg State.resets h :), (congrArg State.mem h :)⟩
  | 1, _ =>
    have h := (s.emptyDie_rebuilt die).rest
    exact ⟨(congrArg State.resets h :), (congrArg State.mem h :)⟩
  | 2, _ => exact ⟨rfl, rfl⟩
  | 3, _ => exact ⟨rfl, rfl⟩
  | 4, _ =>
    obtain ⟨G, D, h⟩ := s.resetLogic_eq die
    exact ⟨(congrArg State.resets h :), (congrArg State.mem h :)⟩

/-- No core of the die is left by the reset of its logic. -/
theorem State.cores_resetLogic {core : Nat} (h : dieOf core = die) : tget? (s.resetLogic die).cores core = none := by
  obtain ⟨G, D, heq⟩ := s.resetLogic_eq die
  rw [heq]
  exact (tget?_filter_key (fun k => dieOf k != die) s.cores core).trans (if_neg (by simp [h]))

end

/-- A step that goes on: what it has done when it is complete. -/
theorem exec_warmResetStepDone_goesOn {s : State} {die k : Nat} (h : tget? s.resets die = some k) (hk : k < 5)
    (hready : k = 0 → (dieClusters die).any (fun g => (s.cluster g).owner.isSome) = false ∧ s.portsQuiet die = true) :
    ∃ t : State, exec (.warmResetStepDone die) s = .next t ∧ tget? t.resets die = some (k + 1) ∧ t.mem = s.mem ∧
      (k = 0 → ∀ e ∈ diePorts die, t.fabric.off.contains e = true ∨ s.fabric.down.contains e = true) ∧
      (k = 1 → ∀ core, dieOf core = die → (t.core core).l1 = []) ∧ (k = 2 → t.offline = s.offline ++ [die]) ∧
      (k = 4 → ∀ core, dieOf core = die → tget? t.cores core = none) := by
  obtain ⟨hresets, hmem⟩ := (s.stepped die k).resetStep_kept die hk
  refine ⟨_, exec_warmResetStepDone_steps h hready, ?_, hmem, ?_, ?_, ?_, ?_⟩
  · rw [hresets]
    exact tget?_tset_same _ _ _
  · rintro rfl e he
    exact State.off_endPorts (s := s.stepped die 0) (hready rfl).2 he
  · rintro rfl core hcore
    exact State.l1_emptyDie (s.stepped die 1) hcore
  · rintro rfl
    rfl
  · rintro rfl core hcore
    exact State.cores_resetLogic (s.stepped die 4) die hcore

/-- The last step: the die answers and its elements carry packets again. -/
theorem exec_warmResetStepDone_ends {s : State} {die : Nat} (h : tget? s.resets die = some 5) (hqueue : s.resetQueue = [])
    (hheld : ∀ p ∈ s.ctxs, p.2.heldBy = []) : ∃ t : State, exec (.warmResetStepDone die) s = .next t ∧
      tget? t.resets die = none ∧ t.offline = s.offline.erase die ∧
      ((∀ p ∈ s.ctxs, homeDie p.2.saveBase ≠ die) → t.mem = s.mem) ∧
      ∀ e, (e ∈ diePorts die ++ dieElevators die ∨ farEnd e ∈ diePorts die ++ dieElevators die) →
        e ∉ t.fabric.off ∧ e ∉ t.fabric.down ∧ e ∉ t.fabric.around := by
  have hsame := ((s.stepped die 5).back die).freshHeaders_sameResets die
  have hexec := (exec_warmResetStepDone_steps h nofun).trans
    (congrArg Host.Outcome.next (State.readmit_unheld (s := s.stepped die 5) (die := die) hqueue hheld))
  refine ⟨_, hexec, ?_, hsame.offline, fun hbase => ?_, fun e he => ?_⟩
  · rw [hsame.resets]
    exact (tget?_tdel _ _ _).trans (if_pos rfl)
  · exact (congrArg State.mem (State.freshHeaders_elsewhere (s := (s.stepped die 5).back die) hbase) :)
  · have hgone {es : List Element} : e ∉ es.filter (fun e => !comesBack die e) := by
      rw [List.mem_filter, comesBack_iff.2 he]
      exact fun hmem => Bool.false_ne_true hmem.2
    rw [hsame.fabric]
    exact ⟨hgone, hgone, hgone⟩

/-- The ports of a die by their numbers (R391). -/
theorem port_mem_diePorts {die i : Nat} (hi : i < 4) : Element.port (die / 2) (die % 2 * 4 + i) ∈ diePorts die :=
  List.mem_map.2 ⟨i, List.mem_range.2 hi, rfl⟩

theorem any_isSome_eq_false {die : Nat} {s : State} (h : (dieClusters die).all (fun g => (s.cluster g).owner.isNone) = true) :
    (dieClusters die).any (fun g => (s.cluster g).owner.isSome) = false := by
  rw [List.any_eq_false]
  intro g hg
  have := List.all_eq_true.1 h g hg
  simpa using this

/-- Settles O54, one event at a time. -/
theorem reliabilityEvents : Obligations.ReliabilityEvents := by
  intro s
  refine ⟨fun die hdie hdead hqueue hheld => exec_dieLost_loses hdie hdead hqueue hheld, fun die hdead hdie => ?_, fun y hy => ⟨fun hlost => ?_,
    fun hlost => ⟨_, exec_dieLost_stack hy, State.underWay_loseStack hlost⟩⟩, fun die n hn => exec_rebuildDone_tells hn,
    fun y answered hy => ⟨exec_smcHeartbeat_counts hy, fun hdead hunanswered hmissed => ?_⟩, fun die => ⟨exec_dieWarmReset_refused,
      fun hdie hdead hfree hnew => ⟨exec_dieWarmReset_queued hdie hdead hfree hnew, fun hmate => ?_⟩⟩, fun die k hk => ⟨?_, ?_, ?_, ?_⟩,
    fun die good bad hdead => ?_⟩
  · exact (exec_dieLost_die hdie).trans (congrArg _ (State.loseDie_dead hdead))
  · exact (exec_dieLost_stack hy).trans (congrArg _ (State.loseStack_lost hlost))
  · rw [exec_smcHeartbeat_eq, State.heartbeat_dead hdead, State.heartbeat_loses (by omega) hunanswered hmissed, exec_dieLost_die (by omega)]
  · refine ⟨_, exec_dieWarmReset_begins hdie hdead hfree hnew hmate, ?_, fun c x hx hg hp => State.beginReset_saves hx hg hp⟩
    rw [State.resets_beginReset]
    exact tget?_tset_same _ _ _
  · exact exec_warmResetStepDone_waits hk
  · intro h0 hfree hquiet
    obtain ⟨hw, hoff, hleaving⟩ := s.retirePorts_leaving die
    exact ⟨_, exec_warmResetStepDone_retires hk h0 (any_isSome_eq_false hfree) hquiet, hw.rest, hoff, hleaving⟩
  · intro hlt hready
    obtain ⟨t, hexec, hresets, hmem, hports, hrest⟩ := exec_warmResetStepDone_goesOn hk hlt
      fun h0 => ⟨any_isSome_eq_false (hready h0).1, (hready h0).2⟩
    exact ⟨t, hexec, hresets, hmem, fun h0 i hi => hports h0 _ (port_mem_diePorts hi), hrest⟩
  · rintro rfl hqueue hheld
    exact exec_warmResetStepDone_ends hk hqueue hheld
  · obtain ⟨t, hexec, hscrub, hbad, hcount⟩ := dramScrub_settles hdead good bad
    refine ⟨t, hexec, hscrub.rest, fun l hl hhome hdram i hi => ?_, hcount⟩
    obtain ⟨hshows, hhides⟩ := hbad l hl hhome hdram i hi
    exact ⟨fun hnone hready => List.contains_iff_mem.2 (hshows hnone hready), fun he => List.contains_iff_mem.2 (hhides he)⟩

end Sys2Proof.Machine
